-- ==== Sys2Proof/Word.lean ====
section
/-! DEFINITION. The machine's words (R8, R13, R135, R136, R171): 32-bit registers, 64-bit memory words, bytes, and
little-endian packing of bytes into words. -/

namespace Sys2Proof

/-- A 32-bit word: a control register (R13) or a scalar register (R135). -/
abbrev Word := BitVec 32

/-- A 64-bit word: one of the 64 words of a scratchpad row (R171). -/
abbrev DWord := BitVec 64

/-- A byte. -/
abbrev Byte := BitVec 8

/-- Little-endian value of a list of bytes (R8). -/
def leNat : List Byte → Nat
  | [] => 0
  | b :: bs => b.toNat + 256 * leNat bs

/-- The `n` little-endian bytes of a value (R8). -/
def leBytes : Nat → Nat → List Byte
  | 0, _ => []
  | n + 1, v => BitVec.ofNat 8 (v % 256) :: leBytes n (v / 256)

/-- The bit field [lo + w - 1 : lo] of a value (R7). -/
def bitsOf (v lo w : Nat) : Nat := v / 2 ^ lo % 2 ^ w

/-- A value read as a two's-complement number of `w` bits. -/
def signed (w v : Nat) : Int := if v % 2 ^ w < 2 ^ (w - 1) then (v % 2 ^ w : Nat) else (v % 2 ^ w : Nat) - (2 ^ w : Nat)

/-- An integer as a `w`-bit two's-complement value. -/
def unsigned (w : Nat) (i : Int) : Nat := (i % (2 ^ w : Nat)).toNat

/-- Saturating counter of `w` bits. -/
def satAdd (w a b : Nat) : Nat := min (a + b) (2 ^ w - 1)

end Sys2Proof
end

