-- ==== Sys2Proof/Syntax.lean ====
section
/-! DEFINITION. The commands the block takes (`Instr`) and the types of their operands. -/

namespace Sys2Proof

/-- The masters that write control registers, in the order in which same-cycle writes apply (R553). -/
inductive Master where
  | lcp | host | hsp | link
deriving DecidableEq, Repr

/-- One write of a register access cycle: master, offset in the 2 MiB control range, width in bytes, value. -/
structure RegWrite where
  m : Master
  off : Nat
  width : Nat
  val : Nat
deriving DecidableEq, Repr

/-- What the world answers to an action that a register write starts: the level pattern of an I2C bus, the answers of a probe
list, and the balls BOOT[2:0] when a cold reset samples them. -/
structure WriteEnv where
  sda : Nat
  probe : List (Bool × BitVec 8 × BitVec 8)
  strap : Nat
deriving DecidableEq, Repr

/-- A direction of the Imdun bridge: Fore to Aft, or Aft to Fore. -/
inductive Dir where
  | f2a | a2f
deriving DecidableEq, Repr

/-- A receive buffer of a bridge direction: the direction and the message class it serves (R45). -/
structure BrgBuf where
  dir : Dir
  cls : Fin 8
deriving DecidableEq, Repr

/-- A receive buffer of a Shaelo port: class c of buffer set v is buffer 8v + c (R502, R508). -/
structure LinkBuf where
  port : Fin 2
  buf : Fin 16
deriving DecidableEq, Repr

/-- What adaptation and the error count of a Shaelo port's training find: good lanes, channel loss per lane in 0.25 dB (R503, R505). -/
structure LaneReport where
  good : BitVec 4
  loss : BitVec 32
deriving DecidableEq, Repr

/-- A word flipped in transit: its place in its row, and the data and check bits that flip (R440). -/
structure Flip where
  word : Nat
  data : BitVec 64
  chk : BitVec 8
deriving DecidableEq, Repr

/-- Parity errors inside a unit (R438), and flips in its buffers (R440): words of rows as awning, row and word; words of the queue
entry; 8-byte words of SMEM by address / 8; and, for a DMA, flips by place of the row in the row set. -/
structure UnitHits where
  rows : List (Bool × Nat × Nat) := []
  entry : List Nat := []
  smem : List Nat := []
  flips : List (Nat × Flip) := []
deriving DecidableEq, Repr

/-- A buffer set of a Shaelo port (R508); and the words of an RXFER_READ's row that fail parity in the DMA unit (R438). -/
structure LinkSet where
  port : Fin 2
  set : Fin 2
  par : List Nat := []
deriving DecidableEq, Repr

/-- A transaction's clock is stretched: for how many µs, and the level pattern of SDA that the bus shows next. -/
structure I2cStretch where
  us : Nat
  sda : Nat
deriving DecidableEq, Repr

/-- What the banks tell the scrubber: whether another write of the row was granted between its read and its write-back, and in
how many cycles requests of the core waited for a bank since they were last counted (R178). -/
structure ScrubTurn where
  wrote : Bool
  conf : Nat
deriving DecidableEq, Repr

/-- A row that arrives at a core: its words with the check bytes they travelled with, and the cycles in which requests of the
core waited for a bank since they were last counted (R178). -/
structure RowArrival where
  ws : List (BitVec 64 × BitVec 8)
  conf : Nat
deriving DecidableEq, Repr

/-- Rows that move on the guyline: to the right or the left, the cycles in which requests of the core waited for a bank since
they were last counted (R178), and flips on the way, by place of the row in its send (R440). -/
structure RingArrival where
  right : Bool
  conf : Nat
  flips : List (Nat × Flip) := []
deriving DecidableEq, Repr

/-- A STOREWR of a ring, and what digest engines misread in the digests of a ledger commit (R463). -/
structure StoreCmd where
  ring : Fin 2
  errs : List (BitVec 64)
deriving DecidableEq, Repr

/-- A bridge message: the fields of its header flit (Table TH-6) and its 32-byte data flits. -/
structure BrgMsg where
  cls : Nat
  opc : Nat
  tag : Nat
  job : Nat
  len : Nat
  srcu : Nat
  dstu : Nat
  addr : Nat
  pmask : Nat
  inl : Nat
  resv : Nat
  data : List (BitVec 256)
deriving DecidableEq, Repr

/-- A group of flit slots on a link: its message flits in slot order and its link flit (R36, Table TH-7, R500). `lead` counts
the slots at its front that a time-class message takes while another message goes on behind it (R46). DESIGN CHOICE: the spec
does not say how a receiver tells occupied slots from empty ones, or such a message from the data it comes before; the model
gives a receiver both (log entry 91). -/
structure FlitGroup where
  flits : List (BitVec 256)
  link : BitVec 256
  lead : Nat
deriving DecidableEq, Repr

/-- A Shaelo message: the header fields of Table SL-1 and its data flits. -/
structure LinkMsg where
  cls : Nat
  opc : Nat
  tag : Nat
  srcc : Nat
  dstc : Nat
  win : Nat
  len : Nat
  arrive : Bool
  vc : Nat
  row : Nat
  key : Nat
  pmask : Nat
  inl : Nat
  resv : Nat
  data : List (BitVec 256)
deriving DecidableEq, Repr

/-- A check line of a check block (R441) whose lane sum is not the exact sum: a row line (one output channel) or a column line (one
position), and what the lanes formed: on integer paths the exact sum plus `d` (R443), on float paths the FP32 code that their own
order gives, in bits [31:0] (R444). -/
structure LineSum where
  row : Bool
  i : Fin 16
  d : BitVec 48
deriving DecidableEq, Repr

/-- A cell of a check block that comes out wrong: channel and position in the block, and the code it comes out with. On WINO an error
of the output transform (`late`) is none of the products that the lanes check (R445). -/
structure CellErr where
  o : Nat
  p : Nat
  code : Nat
  late : Bool := false
deriving DecidableEq, Repr

/-- What a digest engine misreads of its digest (R456), and the words, by row and word, that fail path parity as it reads (R438). -/
structure DigRead where
  err : BitVec 64 := 0
  par : List (Nat × Nat) := []
deriving DecidableEq, Repr

/-- A row of the Edge engine: a joined row of results, or an input plane row; and uncorrectable words that line memory has come to
hold, as buffer, row and position (R467). -/
structure EdgeTurn where
  post : Bool
  ue : List (Nat × Int × Nat) := []
deriving DecidableEq, Repr

/-- Key data that arrives after a stall of `n` cycles (R428): a word of the key set, by its offset / 8, that is bad in transit or in
the key buffer (R435, R436); single-bit errors corrected in the key buffer, the accumulators and gate program memory (R437);
accumulator words that cannot be corrected, and words of gate program memory, by their index, that cannot (R416). -/
structure KeyArrival where
  n : Nat
  bad : Option Nat := none
  ce : Nat := 0
  ue : List Nat := []
  gate : List Nat := []
deriving DecidableEq, Repr

/-- The commands of the block: one constructor per row of the spec's table of operations and events
(spec/opcode_table.json), with the row's operands. -/
inductive Instr where
  /-- REGISTER_WRITE (R20): A master writes a control register that has no row of its own, under the access codes of Table SC-2. -/
  | registerWrite (e : WriteEnv) (l : List RegWrite)
  /-- TIME_NOW_LO_READ (R87): A read of TIME_NOW_LO returns DTIME[31:0] and latches DTIME[63:32] into TIME_NOW_HI. -/
  | timeNowLoRead (m : Master)
  /-- DIG_RES_LO_READ (R456): A read of DIG_RES_LO returns the digest's low word and latches its high word. -/
  | digResLoRead (k : Fin 8) (m : Master)
  /-- BRG_TRAIN (R50): A write of BRG_CTRL.TRAIN starts bridge training or retraining under Table TH-9. -/
  | brgTrain (m : Master) (v : BitVec 32)
  /-- BRG_TRAINING_DONE (R51): Bridge training ends with UP set, at full or half width, and after a retrain held fault records are delivered and replicas re-digested. -/
  | brgTrainingDone (badF : BitVec 50) (badA : BitVec 50) (tdelay : BitVec 8)
  /-- BRG_TRAINING_FAIL (R52): Bridge training fails for too few good lanes or for the 2 ms limit and sets BRG_STATUS.FAIL. -/
  | brgTrainingFail (badF : BitVec 50) (badA : BitVec 50)
  /-- BRG_CLR_CNT (R40): A write of BRG_CTRL.CLR_CNT clears BRG_ERRCNT and BRG_RETRY. -/
  | brgClrCnt (m : Master) (v : BitVec 32)
  /-- BRIDGE_GROUP_RECEIVE (R42): A receiver takes a whole bridge group and checks its link flit's CRC, answering NAK on a mismatch. -/
  | bridgeGroupReceive (d : Dir) (g : FlitGroup)
  /-- BRIDGE_MESSAGE_SEND (R44): A transmitter starts a message once it holds enough credits, in the slot that arbitration gives it. -/
  | bridgeMessageSend (d : Dir) (offered : List BrgMsg)
  /-- BRIDGE_MESSAGE_RECEIVE (R39): A receiving endpoint takes a whole bridge message and writes poison for every data flit whose PMASK bit is set. -/
  | bridgeMessageReceive (b : BrgBuf)
  /-- BRIDGE_TIME_MESSAGE (R47): A time-class message aligns Aft DTIME to the Fore DTIME it carries plus BRG_TDELAY. -/
  | bridgeTimeMessage (d : Dir)
  /-- BRIDGE_NAK_LIMIT (R43): Eight consecutive NAKs for the same group declare the bridge down. -/
  | bridgeNakLimit (d : Dir)
  /-- BRIDGE_LOCK_LOSS (R55): Loss of lock on three lanes at once in one direction takes the bridge down. -/
  | bridgeLockLoss (d : Dir) (lanes : BitVec 50)
  /-- LANE_SWAP (R53): A logical lane whose LPAR mismatches exceed LANE_LIMIT within 1 ms is swapped to a free spare. -/
  | laneSwap (d : Dir) (lane : Nat)
  /-- LANE_FAIL_NO_SPARE (R54): A lane fails with no spare left and the bridge retrains at half width. -/
  | laneFailNoSpare (d : Dir) (lane : Nat)
  /-- BRIDGE_RETRAIN_TIMER (R58): After a bridge-down the firmware retrains up to RETRY_MAX times, 1 ms apart. -/
  | bridgeRetrainTimer
  /-- STRIPE_START (R225): The dispatcher starts a ready stripe on a core context, resets PC, tokens and barrier count, and updates INFO. -/
  | stripeStart (id : Nat) (k : Fin 8)
  /-- STRIPE_ABORT (R79): At its abort point an unfinished stripe is stopped on every core, its unsent results are discarded and the next stripe starts. -/
  | stripeAbort (id : Nat)
  /-- BAND_COMPLETE (R73): The Edge engine receives the last result flit of a band, fixing its completion time and slack. -/
  | bandComplete (id : Nat)
  /-- TIME_SET (R88): A write of TIME_CTRL.SET steps DTIME to TIME_SET in READY, or is refused with STEP_REFUSED. -/
  | timeSet (m : Master) (v : BitVec 32)
  /-- DTIME_STEP_DONE (R86): Every replica has taken the DTIME step and TIME_STATUS.STEPPING clears. -/
  | dtimeStepDone
  /-- TIME_SLEW_WRITE (R88): A write of TIME_SLEW sets the rate trim, clipped to ±200,000 ppb with SLEW_CLIP. -/
  | timeSlewWrite (m : Master) (v : BitVec 32)
  /-- FSG_EDGE (R92): A frame-sync generator reaches its next edge, starts its pulse, drives triggers and frame-start references and counts. -/
  | fsgEdge (n : Fin 4)
  /-- FSG_PULSE_END (R93): A generator's pulse ends WIDTH ns after its edge. -/
  | fsgPulseEnd (n : Fin 4)
  /-- ST_CLR (R73): A write of ST_CTRL.CLR clears the stripe figures of the selected job. -/
  | stClr (m : Master) (v : BitVec 32)
  /-- LONG_PACKET (R100): A CSI-2 long packet is matched to the lowest enabled context and its line is processed. -/
  | longPacket (p : Fin 2) (vc : Nat) (dt : Nat) (ecc : Nat) (crcOk : Bool) (payload : List (BitVec 8))
  /-- LINE_START_PACKET (R120): A line start packet with a line number places the following line at that number when LNUM is set. -/
  | lineStartPacket (p : Fin 2) (vc : Nat) (ecc : Nat) (line : Nat)
  /-- FRAME_START_PACKET (R103): Intake decodes a frame start short packet and opens a frame for the context. -/
  | frameStartPacket (p : Fin 2) (vc : Nat) (ecc : Nat)
  /-- FRAME_END_PACKET (R104): A frame end closes the frame, marks its buffer full and stamps it. -/
  | frameEndPacket (p : Fin 2) (vc : Nat) (ecc : Nat)
  /-- FRAME_TIMEOUT (R124): No frame end within TIMEOUT µs of the last line ends the frame flagged NOFE. -/
  | frameTimeout (n : Fin 8)
  /-- DESKEW_BURST (R107): A skew calibration burst sets each lane's phase and reports skew and estimated mismatch. -/
  | deskewBurst (p : Fin 2) (rate : Nat) (steps : List Int)
  /-- IN_CTX_RELEASE (R105): A write of IN_CTXn_RELEASE frees a full frame buffer. -/
  | inCtxRelease (n : Fin 8) (m : Master) (v : BitVec 32)
  /-- DEFECT_SWAP (R113): A write of IN_DEF_CTRL.SWAP requests a bank exchange at the context's next frame start. -/
  | defectSwap (m : Master) (v : BitVec 32)
  /-- I2C_GO (R130): A write of GO starts an I2C master's immediate list. -/
  | i2cGo (m : Fin 2) (sda : Nat) (mm : Master) (v : BitVec 32)
  /-- I2C_FRAME_LIST_START (R130): The frame list starts at its chosen blanking line, ahead of a waiting immediate list. -/
  | i2cFrameListStart (m : Fin 2) (sda : Nat)
  /-- I2C_DESCRIPTOR_DONE (R129): An I2C transaction ends, storing read bytes or stopping the list on a NAK. -/
  | i2cDescriptorDone (m : Fin 2) (ack : Bool) (bytes : List (BitVec 8)) (sda : Nat)
  /-- I2C_STRETCH_TIMEOUT (R127): Clock stretching longer than STRETCH_MAX aborts the transaction with TIMEOUT. -/
  | i2cStretchTimeout (m : Fin 2) (e : I2cStretch)
  /-- PROBE_GO (R131): A write of IN_PROBE_CTRL.GO runs the probe list and reports ACK, value and MATCH per entry. -/
  | probeGo (res : List (Bool × BitVec 8 × BitVec 8)) (m : Master) (v : BitVec 32)
  /-- TRIG_FIRE (R133): A write of IN_TRIGt.FIRE drives a trigger pulse at once. -/
  | trigFire (t : Fin 2) (m : Master) (v : BitVec 32)
  /-- TRIGGER_EDGE (R133): A sensor trigger output fires DELAY ns after its generator's edge. -/
  | triggerEdge (t : Fin 2)
  /-- RST_RELEASE (R134): A write of IN_SENS.RST_RELEASE releases SENSOR_RST_N. -/
  | rstRelease (m : Master) (v : BitVec 32)
  /-- CORE_HALT (R146): A write of CORE_CTRL.HALTc halts a context at its next instruction boundary. -/
  | coreHalt (k : Fin 8) (x : Fin 2) (m : Master) (v : BitVec 32)
  /-- CORE_RESUME (R146): A write of CORE_CTRL.RESUMEc resumes a halted context. -/
  | coreResume (k : Fin 8) (x : Fin 2) (m : Master) (v : BitVec 32)
  /-- CLR_SAT (R159): A write of CORE_CTRL.CLR_SAT clears CORE_SAT. -/
  | clrSat (k : Fin 8) (m : Master) (v : BitVec 32)
  /-- CLR_PERF (R155): A write of CORE_CTRL.CLR_PERF clears the CORE_PERF counters. -/
  | clrPerf (k : Fin 8) (m : Master) (v : BitVec 32)
  /-- UNIT_INSTRUCTION_START (R140): A unit starts the next instruction of its queue and reads its operand rows. -/
  | unitInstructionStart (k : Fin 8) (x : Fin 3) (u : Fin 5) (par : UnitHits) (conf : Nat)
  /-- UNIT_INSTRUCTION_COMPLETE (R142): A unit finishes an instruction and its token becomes DONE or FAULT, releasing waits on it. -/
  | unitInstructionComplete (k : Fin 8) (x : Fin 3) (u : Fin 5) (par : UnitHits)
  /-- ISSUE_STALL_RELEASE (R139): A queue entry frees and a stalled instruction is issued to it. -/
  | issueStallRelease (k : Fin 8) (x : Fin 3)
  /-- PAIR_DIGEST (R167): A secondary's row digest arrives and the Aft fabric releases the primary's matching row. -/
  | pairDigest (p : Fin 4)
  /-- PAIR_TIMEOUT (R167): No secondary digest within CORE_PAIR.WINDOW sends the row poisoned with a PAIR_TIMEOUT record. -/
  | pairTimeout (p : Fin 4)
  /-- SCRUB_PASS_START (R186): A timed scrub pass falls due, or counts LATE if the previous pass has not finished. -/
  | scrubPassStart (k : Fin 8)
  /-- SCRUB_ROW (R184): The scrubber reads a row in an idle bank cycle, corrects it and writes it back with poison for uncorrectable words. -/
  | scrubRow (k : Fin 8) (e : ScrubTurn)
  /-- SCRATCHPAD_INIT_DONE (R191): Initialisation ends, releasing held accesses, or sets INIT_FAIL and quarantines the core. -/
  | scratchpadInitDone (k : Fin 8) (fails : List Nat)
  /-- HELD_ACCESS_TIMEOUT (R192): An access held by initialisation or a wake pass for 5 ms completes poisoned. -/
  | heldAccessTimeout (k : Fin 8)
  /-- WAKE_PASS_DONE (R194): The NAP wake pass ends and the core's contexts may issue. -/
  | wakePassDone (k : Fin 8)
  /-- WEIGHT_WRITE_END (R199): A firmware write of WEIGHT rows ends and the jobs held at their barriers are released. -/
  | weightWriteEnd (k : Fin 8)
  /-- INBOUND_ROW_WRITE (R200): An inbound access from another core, window, the Lantern or BAR4 lands as one whole row. -/
  | inboundRowWrite (k : Fin 8) (job : Nat) (r : Nat) (e : RowArrival)
  /-- SP_CLR (R178): A write of SP_CLR clears the scratchpad counters. -/
  | spClr (k : Fin 8) (m : Master) (v : BitVec 32)
  /-- ADD (R210): ALU add of register or immediate operand. -/
  | add (k : Fin 8) (x : Fin 3)
  /-- SUB (R210): ALU subtract. -/
  | sub (k : Fin 8) (x : Fin 3)
  /-- AND (R210): ALU bitwise and. -/
  | andOp (k : Fin 8) (x : Fin 3)
  /-- OR (R210): ALU bitwise or. -/
  | orOp (k : Fin 8) (x : Fin 3)
  /-- XOR (R210): ALU bitwise exclusive-or. -/
  | xorOp (k : Fin 8) (x : Fin 3)
  /-- SLL (R210): ALU shift left logical. -/
  | sll (k : Fin 8) (x : Fin 3)
  /-- SRL (R210): ALU shift right with zero fill. -/
  | srl (k : Fin 8) (x : Fin 3)
  /-- SRA (R210): ALU shift right with sign fill. -/
  | sra (k : Fin 8) (x : Fin 3)
  /-- MUL (R210): ALU low 32 bits of a product. -/
  | mul (k : Fin 8) (x : Fin 3)
  /-- MULH (R210): ALU high 32 bits of a signed product. -/
  | mulh (k : Fin 8) (x : Fin 3)
  /-- MULHU (R210): ALU high 32 bits of an unsigned product. -/
  | mulhu (k : Fin 8) (x : Fin 3)
  /-- MIN (R210): ALU signed minimum. -/
  | min (k : Fin 8) (x : Fin 3)
  /-- MAX (R210): ALU signed maximum. -/
  | max (k : Fin 8) (x : Fin 3)
  /-- MINU (R210): ALU unsigned minimum. -/
  | minu (k : Fin 8) (x : Fin 3)
  /-- MAXU (R210): ALU unsigned maximum. -/
  | maxu (k : Fin 8) (x : Fin 3)
  /-- EQ (R211): Compare equal into a predicate. -/
  | eq (k : Fin 8) (x : Fin 3)
  /-- NE (R211): Compare not equal into a predicate. -/
  | ne (k : Fin 8) (x : Fin 3)
  /-- LT (R211): Compare signed less than into a predicate. -/
  | lt (k : Fin 8) (x : Fin 3)
  /-- GE (R211): Compare signed greater or equal into a predicate. -/
  | ge (k : Fin 8) (x : Fin 3)
  /-- LTU (R211): Compare unsigned less than into a predicate. -/
  | ltu (k : Fin 8) (x : Fin 3)
  /-- GEU (R211): Compare unsigned greater or equal into a predicate. -/
  | geu (k : Fin 8) (x : Fin 3)
  /-- TST (R211): Test of a non-zero bitwise and into a predicate. -/
  | tst (k : Fin 8) (x : Fin 3)
  /-- PAND (R212): Predicate and. -/
  | pand (k : Fin 8) (x : Fin 3)
  /-- POR (R212): Predicate or. -/
  | por (k : Fin 8) (x : Fin 3)
  /-- PXOR (R212): Predicate exclusive-or. -/
  | pxor (k : Fin 8) (x : Fin 3)
  /-- PANDN (R212): Predicate and-not. -/
  | pandn (k : Fin 8) (x : Fin 3)
  /-- PNOT (R212): Predicate not. -/
  | pnot (k : Fin 8) (x : Fin 3)
  /-- PTOS (R212): Copies P7 to P0 into a scalar register. -/
  | ptos (k : Fin 8) (x : Fin 3)
  /-- PRED_STOP (R212): The predicate STOP sets P1 to P7 from bits of a scalar register. -/
  | predStop (k : Fin 8) (x : Fin 3)
  /-- LB (R213): Load a sign-extended byte from SMEM. -/
  | lb (k : Fin 8) (x : Fin 3)
  /-- LBU (R213): Load a zero-extended byte from SMEM. -/
  | lbu (k : Fin 8) (x : Fin 3)
  /-- LH (R213): Load a sign-extended halfword from SMEM. -/
  | lh (k : Fin 8) (x : Fin 3)
  /-- LHU (R213): Load a zero-extended halfword from SMEM. -/
  | lhu (k : Fin 8) (x : Fin 3)
  /-- LW (R213): Load a word from SMEM. -/
  | lw (k : Fin 8) (x : Fin 3)
  /-- SB (R213): Store a byte to SMEM. -/
  | sb (k : Fin 8) (x : Fin 3)
  /-- SH (R213): Store a halfword to SMEM. -/
  | sh (k : Fin 8) (x : Fin 3)
  /-- SW (R213): Store a word to SMEM. -/
  | sw (k : Fin 8) (x : Fin 3)
  /-- DGET (R214): Reads one word of a descriptor register into a scalar register. -/
  | dget (k : Fin 8) (x : Fin 3)
  /-- DSET (R214): Writes one word of a descriptor register from a scalar register. -/
  | dset (k : Fin 8) (x : Fin 3)
  /-- DLD (R214): Loads a descriptor register from 32 bytes of SMEM. -/
  | dld (k : Fin 8) (x : Fin 3)
  /-- DSTO (R214): Stores a descriptor register to 32 bytes of SMEM. -/
  | dsto (k : Fin 8) (x : Fin 3)
  /-- DCPY (R214): Copies one descriptor register to another. -/
  | dcpy (k : Fin 8) (x : Fin 3)
  /-- INFO (R215): Writes the stripe, job, tile, time or exception value that a selector names into a scalar register. -/
  | info (k : Fin 8) (x : Fin 3)
  /-- BR (R216): Unconditional branch. -/
  | br (k : Fin 8) (x : Fin 3)
  /-- BCC (R216): Branch when two scalar registers compare true. -/
  | bcc (k : Fin 8) (x : Fin 3)
  /-- CALL (R216): Branch that saves the return index in S31. -/
  | call (k : Fin 8) (x : Fin 3)
  /-- JR (R216): Jump to the word index held in a scalar register. -/
  | jr (k : Fin 8) (x : Fin 3)
  /-- ENDSTRIPE (R226): Waits for the context's tokens, then reports the core's part of the band finished or raises a held exception. -/
  | endstripe (k : Fin 8) (x : Fin 3)
  /-- ERET (R230): Leaves the exception handler at EPC + 1 and clears the handler flag. -/
  | eret (k : Fin 8) (x : Fin 3)
  /-- TWAIT (R217): Waits on one token until it is DONE or FAULT, then frees it. -/
  | twait (k : Fin 8) (x : Fin 3)
  /-- TWAITM (R218): Waits on a mask of tokens, frees the DONE ones and raises the lowest FAULT. -/
  | twaitm (k : Fin 8) (x : Fin 3)
  /-- TTEST (R219): Sets a predicate to whether a token is not BUSY. -/
  | ttest (k : Fin 8) (x : Fin 3)
  /-- BAR (R220): A stripe barrier: a yield point, and for JOB mode a wait for every core of the job. -/
  | bar (k : Fin 8) (x : Fin 3)
  /-- GSEND (R222): Sends halo rows to a guyline neighbour. -/
  | gsend (k : Fin 8) (x : Fin 3)
  /-- GRECV (R223): Names the rows that take the next send from a guyline direction. -/
  | grecv (k : Fin 8) (x : Fin 3)
  /-- GUYLINE_ROWS_ARRIVE (R223): Guyline rows reach a ring stop and are kept, delivered to a waiting GRECV, or discarded as stale. -/
  | guylineRowsArrive (k : Fin 8) (x : Fin 3) (e : RingArrival)
  /-- WWAIT (R224): Waits until an inbound window's arrival count reaches a value, or fails at once for a closed window. -/
  | wwait (k : Fin 8) (x : Fin 3)
  /-- TRAP (R229): Raises TRAP with a code. -/
  | trap (k : Fin 8) (x : Fin 3)
  /-- HALT (R228): Waits for the context's tokens and halts the context or raises a held exception. -/
  | halt (k : Fin 8) (x : Fin 3)
  /-- CRR (R231): A program reads a control register it is granted, else reads 0 with REG_DENIED. -/
  | crr (k : Fin 8) (x : Fin 3)
  /-- CRW (R231): A program writes a control register it is granted, else the write is dropped with REG_DENIED. -/
  | crw (k : Fin 8) (x : Fin 3)
  /-- CONTROL_REGISTER_ANSWER (R232): The Aft fabric or the Lantern answers a forwarded CRR or CRW. -/
  | controlRegisterAnswer (k : Fin 8) (x : Fin 3) (e : WriteEnv)
  /-- SRSEED (R288): Waits for the context's arithmetic instructions, then seeds the stochastic-rounding generator. -/
  | srseed (k : Fin 8) (x : Fin 3)
  /-- LOGPUT (R582): Emits a USER Logbook packet. -/
  | logput (k : Fin 8) (x : Fin 3)
  /-- CONV (R254): Array convolution accumulating into an INT32 or FP32 destination. -/
  | conv (k : Fin 8) (x : Fin 3)
  /-- WINO (R256): Winograd 3×3 convolution on dense transformed weights. -/
  | wino (k : Fin 8) (x : Fin 3)
  /-- MMUL (R254): Array matrix product, a 1×1 convolution. -/
  | mmul (k : Fin 8) (x : Fin 3)
  /-- DWCONV (R253): Per-channel convolution on the vector unit. -/
  | dwconv (k : Fin 8) (x : Fin 3)
  /-- EWISE (R259): Elementwise operation selected by SUB, rounded and saturated into the destination type. -/
  | ewise (k : Fin 8) (x : Fin 3)
  /-- LUT_DIRECT (R260): Direct 256-entry table look-up of 8-bit inputs. -/
  | lutDirect (k : Fin 8) (x : Fin 3)
  /-- LUT_PWL (R260): Piecewise-linear table look-up of float inputs. -/
  | lutPwl (k : Fin 8) (x : Fin 3)
  /-- POOL (R261): Max or average pooling. -/
  | pool (k : Fin 8) (x : Fin 3)
  /-- RESIZE (R261): Nearest or bilinear resize by two. -/
  | resize (k : Fin 8) (x : Fin 3)
  /-- ARGMAX (R262): Writes the index of the largest channel per position. -/
  | argmax (k : Fin 8) (x : Fin 3)
  /-- DCMP_COMPARE (R263): Delta compare of a new tensor with stored state, writing delta, mask and count row. -/
  | dcmpCompare (k : Fin 8) (x : Fin 3)
  /-- DCMP_FORCE (R263): Delta compare that marks every position changed. -/
  | dcmpForce (k : Fin 8) (x : Fin 3)
  /-- DMRG_MERGE (R264): Writes source values into the destination at masked positions. -/
  | dmrgMerge (k : Fin 8) (x : Fin 3)
  /-- DMRG_ADD (R264): Adds source values into the destination at masked positions, saturating. -/
  | dmrgAdd (k : Fin 8) (x : Fin 3)
  /-- DMRG_DILATE (R264): Dilates a mask by a radius into new mask rows. -/
  | dmrgDilate (k : Fin 8) (x : Fin 3)
  /-- BWD_DGRAD (R258): Computes the input gradient as a transposed convolution. -/
  | bwdDgrad (k : Fin 8) (x : Fin 3)
  /-- BWD_WGRAD (R258): Adds weight gradient products into FP32 gradients. -/
  | bwdWgrad (k : Fin 8) (x : Fin 3)
  /-- OPT (R265): Optimiser step updating moments and shadow weights with stochastic rounding. -/
  | opt (k : Fin 8) (x : Fin 3)
  /-- XFIX_SHELF (R257): Adds shelf-channel INT16 products to the accumulators. -/
  | xfixShelf (k : Fin 8) (x : Fin 3)
  /-- XFIX_DRAWER (R257): Adds products of escaped INT4E values from the drawers to the accumulators. -/
  | xfixDrawer (k : Fin 8) (x : Fin 3)
  /-- DMA_READ (R267): Reads whole rows from an external address into local rows. -/
  | dmaRead (k : Fin 8) (x : Fin 3)
  /-- DMA_WRITE (R267): Writes whole local rows to an external address, a commit point where R273 says so. -/
  | dmaWrite (k : Fin 8) (x : Fin 3)
  /-- RXFER_READ (R268): Reads rows from a remote Shaelo window through an outbound binding. -/
  | rxferRead (k : Fin 8) (x : Fin 3)
  /-- RXFER_WRITE (R268): Writes rows into a remote Shaelo window, optionally raising its arrival count. -/
  | rxferWrite (k : Fin 8) (x : Fin 3)
  /-- RCOPY (R269): Copies rows between scratchpad and awning buffer row sets. -/
  | rcopy (k : Fin 8) (x : Fin 3)
  /-- SMLD (R270): Moves rows into SMEM. -/
  | smld (k : Fin 8) (x : Fin 3)
  /-- SMST (R270): Moves SMEM bytes into rows. -/
  | smst (k : Fin 8) (x : Fin 3)
  /-- PSEND (R271): Sends rows as band results to the Edge engine's result tensor. -/
  | psend (k : Fin 8) (x : Fin 3)
  /-- QSTAT_CURRENT (R301): Computes per-row scales from the current maximum absolute values. -/
  | qstatCurrent (k : Fin 8) (x : Fin 3)
  /-- QSTAT_HISTORY (R304): Computes per-row scales from the history slots of earlier steps. -/
  | qstatHistory (k : Fin 8) (x : Fin 3)
  /-- QUANT (R294): Quantises to a narrow type at per-row scales, filling drawers and history slots. -/
  | quant (k : Fin 8) (x : Fin 3)
  /-- DEQ_FLOAT (R306): Dequantises by row and channel scales in FP32. -/
  | deqFloat (k : Fin 8) (x : Fin 3)
  /-- DEQ_INTMUL (R307): Rescales by an integer multiplier and shift. -/
  | deqIntmul (k : Fin 8) (x : Fin 3)
  /-- QCVT (R275): Converts to the destination type without a scale. -/
  | qcvt (k : Fin 8) (x : Fin 3)
  /-- CKCTL (R278): Sets the checksum mode for later array instructions of the context. -/
  | ckctl (k : Fin 8) (x : Fin 3)
  /-- DIGEST (R279): Writes the CRC-64 of a row set and a status word to SMEM. -/
  | digest (k : Fin 8) (x : Fin 3)
  /-- PTEST (R280): Writes the poison count and first poisoned row of a row set to SMEM. -/
  | ptest (k : Fin 8) (x : Fin 3)
  /-- CHECK_BLOCK_DONE (R441): An array check block ends and its 32 check lines are compared, starting a replay on a mismatch. -/
  | checkBlockDone (k : Fin 8) (x : Fin 3) (o : Nat) (p : Nat) (lines : List LineSum) (errs : List CellErr)
  /-- REPLAY_DONE (R448): A check block replay ends and is judged against the original under Table SE-2. -/
  | replayDone (k : Fin 8) (x : Fin 3) (lines : List LineSum) (errs : List CellErr)
  /-- EDGE_PLANE_ROW_START (R321): The Edge engine starts a plane row of a job once its input is present, in-line first. -/
  | edgePlaneRowStart (id : Nat) (e : EdgeTurn)
  /-- PACK (R318): Edge record converting Bayer pixels to four FP16 channels. -/
  | pack
  /-- ECONV (R317): Edge convolution record with bias and activation. -/
  | econv
  /-- EMIT (R319): Edge record writing features and halo blocks into every core of the job. -/
  | emit
  /-- TAKE (R320): Edge record joining core PSEND rows into one band. -/
  | take
  /-- SHUFFLE (R315): Edge record doubling width and height from four times the channels. -/
  | shuffle
  /-- EDGE_ARGMAX (R322): Edge record writing a UINT8 label map. -/
  | edgeArgmax
  /-- BOXDEC (R323): Edge record decoding anchor boxes into frame candidates. -/
  | boxdec
  /-- NMS (R325): Non-maximum suppression starts when TAKE completes the flush band and builds the detection packet. -/
  | nms
  /-- OUT (R361): Edge record handing rows to Outfeed as an Edge output. -/
  | outRec
  /-- EDGE_END (R315): Edge record ending the Edge program. -/
  | edgeEnd
  /-- EDGE_CLR (R317): A write of EDGE_CTRL.CLR clears EDGE_SAT and EDGE_DET_DROP. -/
  | edgeClr (m : Master) (v : BitVec 32)
  /-- DX_INVALIDATE (R334): A write of DX_CTRL.INVALIDATE sets all stale bits of the job at its next frame start. -/
  | dxInvalidate (m : Master) (v : BitVec 32)
  /-- DX_CLR (R345): A write of DX_CLR clears the delta counters of the selected job. -/
  | dxClr (m : Master) (v : BitVec 32)
  /-- SESSION_STEP_START (R352): The dispatcher starts an adaptation session step once the gating conditions hold. -/
  | sessionStepStart
  /-- STREAM_FRAME_START (R384): At a stream's REF the shadowed configuration is loaded and a new output frame begins. -/
  | streamFrameStart (n : Fin 6)
  /-- LINE_READY_CHECK (R375): At line time minus 1,000 ns Outfeed checks that every source row of a line is present. -/
  | lineReadyCheck (n : Fin 6)
  /-- OUTFEED_LINE_TIME (R371): A stream line falls due and is sent on the transmit port or written to memory. -/
  | outfeedLineTime (n : Fin 6)
  /-- CUT (R385): A write of OF_Sn_CTRL.CUT asks a memory stream to close its frame at the next band boundary. -/
  | cut (n : Fin 6) (m : Master) (v : BitVec 32)
  /-- CUT_CLOSE (R385): At the band boundary a cut frame's trailer is written with CUT set and the buffer marked full. -/
  | cutClose (n : Fin 6)
  /-- STREAM_RELEASE (R368): A write of OF_Sn_CTRL.RELEASE frees a stream's memory buffer. -/
  | streamRelease (n : Fin 6) (m : Master) (v : BitVec 32)
  /-- TAP_RELEASE (R382): A write of a tap's release register frees a tap buffer. -/
  | tapRelease (t : Fin 4) (m : Master) (v : BitVec 32)
  /-- LOAD_SENSE_GO (R381): A write of OF_TX_SENSE.GO starts a load measurement of the transmit lanes. -/
  | loadSenseGo (m : Master) (v : BitVec 32)
  /-- LOAD_SENSE_DONE (R381): The load measurement ends and a code per lane is reported. -/
  | loadSenseDone (lanes : List (Nat × Bool))
  /-- SOURCE_STORE_SPACE (R383): Source-store space frees and a held TAKE resumes. -/
  | sourceStoreSpace
  /-- SLOT_HEADER_WRITE (R394): A host write of a Coffer slot header commits the slot, sets HOSTW and increments GEN. -/
  | slotHeaderWrite (n : Fin 4096) (h : BitVec 64)
  /-- KSLOAD (R397): Loads and checks a Coffer key set into a key-set number. -/
  | ksload (b : Fin 2)
  /-- KSUNLOAD (R398): Unloads a key set and clears VALID in its slots. -/
  | ksunload (b : Fin 2)
  /-- COFSUB (R429): Checks and queues a Coffer gate program submission. -/
  | cofsub (b : Fin 2)
  /-- ENGINE_START (R425): The engine starts the next queued submission and holds its slot range. -/
  | engineStart
  /-- END (R423): Gate that closes the batch, runs its pass and ends the program. -/
  | endGate
  /-- LIN (R408): Gate forming a weighted linear sum of ciphertexts. -/
  | linGate
  /-- NOT (R404): Gate negating a bit ciphertext. -/
  | notGate
  /-- TRIV (R413): Gate making a trivial encryption of one mailbox bit. -/
  | trivGate
  /-- CONST (R404): Gate making a trivial encryption of a constant. -/
  | constGate
  /-- GATE_AND (R404): Refresh gate computing the AND of two bits. -/
  | gateAnd
  /-- GATE_OR (R404): Refresh gate computing the OR of two bits. -/
  | gateOr
  /-- GATE_XOR (R404): Refresh gate computing the XOR of two bits. -/
  | gateXor
  /-- NAND (R404): Refresh gate computing NAND. -/
  | nand
  /-- NOR (R404): Refresh gate computing NOR. -/
  | nor
  /-- XNOR (R404): Refresh gate computing XNOR. -/
  | xnor
  /-- MUX (R409): Two-refresh gate selecting one of two ciphertexts. -/
  | muxGate
  /-- LUT3 (R404): Refresh gate applying an 8-bit table to three bits. -/
  | lut3
  /-- REFRESH_PASS (R421): A refresh pass over the whole key set ends and writes the destination slots of its occupied positions. -/
  | refreshPass
  /-- KEY_STREAM_DATA (R428): Key data arrives in an empty key buffer and a stalled pass resumes. -/
  | keyStreamData (e : KeyArrival)
  /-- KEY_DIGEST_RECHECK (R436): After a KEY_FAULT the firmware re-digests the key region and may mark the key set suspect. -/
  | keyDigestRecheck
  /-- COF_CANCEL (R433): A write of COF_CTRL.CANCEL stops the running submission at the end of its pass. -/
  | cofCancel (m : Master) (v : BitVec 32)
  /-- COF_FLUSH (R433): A write of COF_CTRL.FLUSH completes every queued submission as cancelled. -/
  | cofFlush (m : Master) (v : BitVec 32)
  /-- COF_CLR (R437): A write of COF_CTRL.CLR clears the Coffer counters. -/
  | cofClr (m : Master) (v : BitVec 32)
  /-- CK_CLR (R441): A write of CK_CTRL.CLR clears the check counters. -/
  | ckClr (k : Fin 8) (m : Master) (v : BitVec 32)
  /-- DIG_GO (R456): A write of DIG_GO starts a digest of a row range. -/
  | digGo (k : Fin 8) (m : Master) (v : BitVec 32)
  /-- DIGEST_DONE (R456): A firmware digest of a segment ends with its value and poison status. -/
  | digestDone (k : Fin 8) (e : DigRead)
  /-- REPAIR_COPY_DONE (R460): A repair copy ends and the repaired copy is digested, retried or quarantined with REPAIR_FAIL. -/
  | repairCopyDone (k : Fin 8) (e : DigRead)
  /-- DIGEST_SWEEP (R457): A digest sweep of every replica falls due every DIG_CTRL.PERIOD milliseconds. -/
  | digestSweep
  /-- SWEEP_NOW (R457): A write of DIG_CTRL.SWEEP_NOW starts a sweep at once. -/
  | sweepNow (m : Master) (v : BitVec 32)
  /-- FAULT_RECORD (R480): The fault manager accepts a fault record, gives it a sequence number and writes it to the rings. -/
  | faultRecord (aft : Bool)
  /-- KILL_NOTICE (R470): A kill notice reaches a commit gate, fixing the job's poison point there. -/
  | killNotice (g : Fin 6)
  /-- RELAX (R484): A write of FLT_COREk.RELAX lowers a core's margin step by one. -/
  | relax (k : Fin 8) (m : Master) (v : BitVec 32)
  /-- FORCE_Q (R485): A write of FLT_COREk.FORCE_Q quarantines the core at once. -/
  | forceQ (k : Fin 8) (m : Master) (v : BitVec 32)
  /-- TESTREQ (R491): Queues a field test request and reports the predicted wait. -/
  | testreq (b : Fin 2)
  /-- TEST_PERIOD (R491): The periodic test interval expires and a ROUTINE request is queued. -/
  | testPeriod
  /-- TEST_SLOT_OPEN (R489): A test slot opens on a core, saves its state and loads and runs the pattern. -/
  | testSlotOpen (k : Fin 8)
  /-- TEST_SLOT_TIMEOUT (R490): A slot that reaches 300 µs is stopped, restored and recorded TEST_ABANDONED. -/
  | testSlotTimeout (k : Fin 8)
  /-- TEST_SLOT_DONE (R487): A slot's pattern halts, its results are digested, state restored and the core returned. -/
  | testSlotDone (k : Fin 8) (cycles : Nat)
  /-- URGENT_BORROW (R493): An urgent request unserved within URGENT_MS borrows a core for one frame or sets URG_DEFER. -/
  | urgentBorrow
  /-- LNK_TRAIN (R503): A write of LNK_Pp_CTRL.TRAIN starts Shaelo port training. -/
  | lnkTrain (p : Fin 2) (m : Master) (v : BitVec 32)
  /-- LNK_TRAINING_DONE (R503): Port training ends with UP set at full or reduced width. -/
  | lnkTrainingDone (p : Fin 2) (good : BitVec 4) (rev : Bool) (loss : BitVec 32) (cap0 : BitVec 32) (cap1 : BitVec 32)
  /-- LNK_TRAINING_FAIL (R503): Port training fails for too few lanes or the 5 ms limit and sets FAIL. -/
  | lnkTrainingFail (p : Fin 2) (e : LaneReport)
  /-- LINK_RETRAIN_TIMER (R503): The firmware retrains a failed port up to RETRY_MAX times, 1 ms apart. -/
  | linkRetrainTimer (p : Fin 2)
  /-- LINK_GROUP_RECEIVE (R501): A Shaelo port takes a whole group and checks its CRC, answering NAK on a mismatch. -/
  | linkGroupReceive (p : Fin 2) (g : FlitGroup)
  /-- LINK_NAK_LIMIT (R501): Eight consecutive NAKs for one group take the port down. -/
  | linkNakLimit (p : Fin 2)
  /-- LINK_FLIT_TIMEOUT (R523): No link flit for 10 µs takes the port down. -/
  | linkFlitTimeout (p : Fin 2)
  /-- LINK_LOCK_LOSS (R523): Loss of block lock on any lane takes the port down. -/
  | linkLockLoss (p : Fin 2)
  /-- PARTNER_LOST (R524): A port not back up within HOLD loses its partner, closing windows and killing bound jobs. -/
  | partnerLost (p : Fin 2)
  /-- LINK_MESSAGE_SEND (R502): A port starts a message once it holds enough credits of its class. -/
  | linkMessageSend (p : Fin 2)
  /-- WINDOW_MESSAGE (R512): A window message arrives and is checked against its window, landing or refused. -/
  | windowMessage (b : LinkBuf) (rest : List Nat)
  /-- RXFER_ACK (R516): The owner's acknowledgement or completion arrives and the RXFER token becomes DONE. -/
  | rxferAck (b : LinkSet)
  /-- LINK_TIME_EXCHANGE (R518): A port exchanges timestamps every 128 groups and corrects the offset to the time master. -/
  | linkTimeExchange (p : Fin 2) (t1 : BitVec 64) (t2 : BitVec 64) (t3 : BitVec 64) (t4 : BitVec 64)
  /-- SYNC_EDGE_TIME (R520): The time master's next-edge time reaches a SLAVE generator. -/
  | syncEdgeTime (p : Fin 2) (v : Fin 2) (n : Fin 4)
  /-- REMOTE_REGISTER_ACCESS (R522): A remote chip's class 5 register access is performed as master LINK or refused. -/
  | remoteRegisterAccess (b : LinkSet) (e : WriteEnv)
  /-- WINDOW_OPEN_INBOUND (R511): Opens an inbound window from a descriptor. -/
  | windowOpenInbound (b : Fin 2)
  /-- WINDOW_CLOSE_INBOUND (R517): Starts closing an inbound window and sends close notices. -/
  | windowCloseInbound (b : Fin 2)
  /-- WINDOW_OPEN_OUTBOUND (R514): Opens an outbound binding for a job. -/
  | windowOpenOutbound (b : Fin 2)
  /-- WINDOW_CLOSE_OUTBOUND (R514): Closes an outbound binding. -/
  | windowCloseOutbound (b : Fin 2)
  /-- CLOSE_NOTICE (R517): A close notice reaches a remote chip and closes its bindings for the window. -/
  | closeNotice (b : LinkSet)
  /-- WINDOW_CLOSE_DEADLINE (R517): At 50 µs unfinished rows of a closing window are poisoned and the window closes. -/
  | windowCloseDeadline (n : Fin 32)
  /-- NOP (R543): Command that completes with no effect. -/
  | nop (b : Fin 2)
  /-- LOADPKG (R600): Checks, unwraps, decrypts and loads a model package into every powered core. -/
  | loadpkg (b : Fin 2) (cut : Option Nat)
  /-- UNLOADPKG (R543): Unloads a model package not named by a loaded job. -/
  | unloadpkg (b : Fin 2)
  /-- LOADIMG (R236): Checks a program image and its manifest and loads it as a job. -/
  | loadimg (b : Fin 2)
  /-- UNLOAD (R239): Unloads a job and releases its resources. -/
  | unload (b : Fin 2)
  /-- START (R544): Starts a job at once or at its context's next frame start. -/
  | start (b : Fin 2)
  /-- STOP (R544): Stops a job at the end of its frame or step, or cancels a pending START. -/
  | stop (b : Fin 2)
  /-- ROUTE (R546): Writes a stream's shadow configuration as one unit. -/
  | route (b : Fin 2)
  /-- STOREWR (R618): Writes or removes a persistent store object through the two-phase journal. -/
  | storewr (c : StoreCmd)
  /-- CLAIM (R552): Gives the requester ownership of named register blocks. -/
  | claim (b : Fin 2)
  /-- CLAIM_RELEASE (R552): Sets the named blocks the requester owns to SHARED. -/
  | claimRelease (b : Fin 2)
  /-- SQ_DOORBELL (R540): A write of SQ_TAIL rings the submission doorbell after earlier Bulk writes drain. -/
  | sqDoorbell (b : Fin 2) (m : Master) (v : BitVec 32)
  /-- COMMAND_FETCH (R541): The firmware fetches and begins the next command once the previous one is accepted or refused. -/
  | commandFetch (b : Fin 2)
  /-- CQ_HEAD_WRITE (R542): A write of CQ_HEAD frees completion space, posting held completions and resuming fetch. -/
  | cqHeadWrite (b : Fin 2) (m : Master) (v : BitVec 32)
  /-- HOST_IMASK_WRITE (R547): Unmasking a vector whose cause is set sends its message. -/
  | hostImaskWrite (m : Master) (v : BitVec 32)
  /-- HOST_MBOX_IN (R553): A write of the shared doorbell HOST_MBOX_IN signals the firmware. -/
  | hostMboxIn (l : List (Master × BitVec 32))
  /-- PCIE_LINK_DOWN (R555): The PCIe link goes down, host writes are dropped and completions held. -/
  | pcieLinkDown
  /-- RING_ENABLE (R556): Setting HOST_RING_CTRL.ENABLE after recovery resets the rings and posts held completions as REPLAYED. -/
  | ringEnable (b : Fin 2) (m : Master) (v : BitVec 32)
  /-- HOST_READ_FAIL (R526): A device read of host memory times out or errs and completes poisoned. -/
  | hostReadFail (lo : Nat) (n : Nat) (fails : Bool)
  /-- BAR4_ACCESS (R529): A host access through a BAR4 window reaches device space. -/
  | bar4Access (off : Nat) (n : Nat) (data : Option (List (BitVec 8))) (e : WriteEnv)
  /-- BULK_DATA_WRITE (R535): A Bulk data write is posted to the channel buffer and the pointer moves. -/
  | bulkDataWrite (c : Fin 2) (bs : List (BitVec 8))
  /-- BULK_DATA_READ (R537): A Bulk data read waits for drain, returns data from the pointer and may prefetch. -/
  | bulkDataRead (c : Fin 2) (n : Nat) (ahead : Nat)
  /-- BULK_POINTER_WRITE (R536): A write of a Bulk pointer or mode waits until the buffer has drained. -/
  | bulkPointerWrite (c : Fin 2) (reg : Fin 3) (m : Master) (v : BitVec 32)
  /-- BULK_DRAIN (R536): A Bulk buffer finishes draining, releasing waiting accesses. -/
  | bulkDrain (c : Fin 2) (e : WriteEnv)
  /-- BULK_FLUSH (R530): A write of BULK_CTRL.FLUSH waits for drain and discards incomplete row buffers. -/
  | bulkFlush (c : Fin 2) (m : Master) (v : BitVec 32)
  /-- ROW_BUFFER_TIMEOUT (R530): A host row buffer incomplete for 100 µs is discarded with ROW_ALIGN. -/
  | rowBufferTimeout
  /-- HSP_WRITE_FRAME (R531): A host serial port write frame writes registers or Bulk channel 1. -/
  | hspWriteFrame (addr : BitVec 32) (data : List (BitVec 8)) (e : WriteEnv)
  /-- HSP_READ_FRAME (R533): A host serial port read frame returns words or zero with LATE. -/
  | hspReadFrame (addr : BitVec 32) (n : Nat) (ahead : Nat) (late : List Nat)
  /-- HSP_STATUS_FRAME (R532): A status frame returns the status byte and clears LATE and BAD. -/
  | hspStatusFrame
  /-- ENDPOINT_RESET (R587): PERST_N or a hot reset resets only the PCIe endpoint. -/
  | endpointReset
  /-- NAP_REQUEST (R560): A write of PWR_ISLk.REQ = NAP puts an eligible core into NAP, or is refused. -/
  | napRequest (k : Fin 8) (m : Master) (v : BitVec 32)
  /-- DARK_REQUEST (R561): A write of PWR_ISLk.REQ = DARK powers off an eligible core, or is refused. -/
  | darkRequest (k : Fin 8) (m : Master) (v : BitVec 32)
  /-- RUN_REQUEST (R560): A write of PWR_ISLk.REQ = RUN wakes a sleeping core. -/
  | runRequest (k : Fin 8) (m : Master) (v : BitVec 32)
  /-- AUTO_NAP (R560): A core IDLE for 1 ms with AUTO_NAP set enters NAP. -/
  | autoNap (k : Fin 8)
  /-- LOGBOOK_FLUSH_DONE (R585): The sleeping core's Logbook flush ends and the core powers down. -/
  | logbookFlushDone (k : Fin 8)
  /-- NAP_FLUSH_TIMEOUT (R585): After 20 µs the core powers down and undrained packets are lost. -/
  | napFlushTimeout (k : Fin 8)
  /-- CORE_WAKE (R586): A sleeping core's clock runs again and it writes LOST, WAKE and state packets. -/
  | coreWake (k : Fin 8)
  /-- SLEEP_REQUEST (R564): A write of PWR_DEV.REQ = SLEEP puts the part to sleep in READY, or is refused. -/
  | sleepRequest (m : Master) (v : BitVec 32)
  /-- POWERDOWN_REQUEST (R566): A write of PWR_DEV.REQ = POWERDOWN starts an orderly power-down. -/
  | powerdownRequest (m : Master) (v : BitVec 32)
  /-- POWERDOWN_DRAIN_DONE (R630): Every buffered store has drained and the part enters STANDBY. -/
  | powerdownDrainDone
  /-- WAKE_EVENT (R565): An enabled wake source ends SLEEP and the part returns to READY. -/
  | wakeEvent (src : Fin 3)
  /-- RAIL_SAMPLE (R568): The ADC samples every rail channel and checks thresholds. -/
  | railSample (vals : List Nat)
  /-- TEMP_SAMPLE (R572): The temperature sensors report and a WARN crossing latches and records. -/
  | tempSample (vals : List Int)
  /-- MARGIN_LOOP_TICK (R573): A core island's margin loop adjusts voltage and frequency once per µs. -/
  | marginLoopTick (k : Fin 8) (margin : Nat)
  /-- CLOCK_STRETCH (R575): Margin below MARGIN_HARD stretches the island clock to half rate. -/
  | clockStretch (k : Fin 8)
  /-- MARGIN_SHORTFALL_LIMIT (R575): A shortfall that remains at minimum frequency and maximum voltage for 100 µs quarantines the core. -/
  | marginShortfallLimit (k : Fin 8)
  /-- POWER_CAP_TICK (R577): Every 100 µs the power manager adjusts f_cap against PWR_CAP. -/
  | powerCapTick (est : Nat)
  /-- CLIP_EPISODE_TIMER (R579): A clipped episode lasting 1 ms raises cause 24 once. -/
  | clipEpisodeTimer (k : Fin 8)
  /-- THERM_TRIP (R580): A sensor reaching 125 °C drives THERM_TRIP_N low and switches off all but AON and SEC. -/
  | thermTrip (n : Fin 12)
  /-- TRACE_FUNNEL_PACKET (R583): The trace funnel takes a packet from a Logbook and writes full rows to the DRAM trace ring. -/
  | traceFunnelPacket
  /-- TRACE_ROW_PAD (R583): A trace row left partly filled for 10 µs is completed with PAD packets and written. -/
  | traceRowPad
  /-- SYNC_TRIPLE (R584): After SYNC_PER × 64 packets a core emits a SYNC, STATE and JOB triple. -/
  | syncTriple (k : Fin 8)
  /-- TRC_CLR (R583): A write of TRC_CTRL.CLR zeroes HEAD and every CORE_LOGDROP. -/
  | trcClr (m : Master) (v : BitVec 32)
  /-- POWER_ON (R588): VDD_AON becomes good, the part enters STANDBY and the straps are sampled. -/
  | powerOn (strap : Nat)
  /-- AON_POWER_LOSS (R83): VDD_AON is lost and the part enters OFF. -/
  | aonPowerLoss (torn : Bool)
  /-- COLD_RESET (R587): RESET_N held low for 1 µs and released makes a cold reset, samples straps and boots. -/
  | coldReset (strap : Nat) (temps : List Int)
  /-- RESET_N_SHORT_PULSE (R588): A RESET_N low pulse shorter than 1 µs is ignored. -/
  | resetNShortPulse
  /-- SEC_RESET_WARM (R594): A write of SEC_RESET.WARM makes a warm reset. -/
  | secResetWarm (m : Master) (v : BitVec 32)
  /-- SEC_RESET_COLD (R587): A write of SEC_RESET.COLD makes a cold reset. -/
  | secResetCold (m : Master) (v : BitVec 32) (strap : Nat)
  /-- WATCHDOG_KICK (R589): A write of SEC_WDOG.KICK restarts the watchdog. -/
  | watchdogKick (m : Master) (v : BitVec 32)
  /-- WATCHDOG_EXPIRY (R589): An unkicked watchdog makes a warm reset and sets SEC_BOOT.WDOG. -/
  | watchdogExpiry
  /-- BOOT_STEP_COMPLETE (R590): A boot step ends within its limit and the next step begins. -/
  | bootStepComplete (e : WriteEnv)
  /-- BOOT_STEP_TIMEOUT (R591): A boot step that fails or exceeds its limit ends boot with a failure code. -/
  | bootStepTimeout (code : Nat)
  /-- STAGE_VERIFY (R595): A write of SEC_STAGE_LEN in ROM mode starts verification of the staged image. -/
  | stageVerify (m : Master) (v : BitVec 32)
  /-- PACKAGE_AUTOLOAD (R622): After READY the firmware loads every stored model package. -/
  | packageAutoload (cut : Option (Nat × Nat))
  /-- TAMPER_EVENT (R607): A tamper source fires, is latched and recorded, and the response of its situation follows. -/
  | tamperEvent (src : BitVec 7)
  /-- TOKEN_VERIFY (R612): A write of SEC_TOKEN_CTRL.GO verifies an unlock or debug token. -/
  | tokenVerify (m : Master) (v : BitVec 32)
  /-- FUSE_PROGRAM (R602): A write of SEC_FUSEPROG programs fuse bits, or refuses a set field. -/
  | fuseProgram (m : Master) (v : BitVec 32)
  /-- FLASH_OPERATION_DONE (R618): A flash erase or program ends and the store write advances to its next phase. -/
  | flashOperationDone (bad : Bool)
  /-- TRIGGER_PULSE_END (R133): A sensor trigger output's pulse ends WIDTH ns after it began. -/
  | triggerPulseEnd (t : Fin 2)
  /-- PCIE_LINK_UP (R547): The PCIe data link trains and comes up, setting HOST_STATUS.LINK_UP and raising cause 31 as recovered. -/
  | pcieLinkUp (width : BitVec 4) (speed : BitVec 4)
  /-- CONFIGURATION_REQUEST (R592): A PCIe configuration request is answered with Retry Status before boot step 10, or served from the type 0 header afterwards. -/
  | configurationRequest (off : Nat) (val : Option (BitVec 32))
  /-- REGISTER_READ (R16): A master reads a control register, with refused widths returning zero and setting BAD_WIDTH and Aft blocks returning all ones with AFT_UNREACHABLE while the bridge is down. -/
  | registerRead (m : Master) (off : Nat) (width : Nat)
  /-- GENERIC_SHORT_PACKET (R96): A line end or generic short packet arrives on a CSI-2 port and is ignored and counted in IGNORED. -/
  | genericShortPacket (p : Fin 2)
  /-- ULPS (R96): The lanes of a CSI-2 receive port enter or leave ULPS, changing IN_PORTx_STAT.ULPS. -/
  | ulps (p : Fin 2) (on : Bool)
deriving DecidableEq, Repr

end Sys2Proof
end

