-- ==== Sys2Proof/Config.lean ====
section
/-! DEFINITION. What an implementation fixes and the spec leaves open: free values and uninterpreted functions. Nothing
here has a body, so no proof can see a value. -/

namespace Sys2Proof.Config

/-- A value the spec leaves undefined, such as the data bits of a poisoned word (R182). The step applies it to a counter
of the state that it then advances, so every use is a fresh value. Log entry 3. -/
opaque freeWord : Nat → BitVec 64

/-- The value of `free` kept within `n` values. -/
def freeBelow (c n : Nat) : Nat := if n = 0 then 0 else (freeWord c).toNat % n

/-- A result the spec does not state, as a function of the operation's number and its operands: the sign of a zero sum,
a floating-point result beyond FP32, an operation with no numeric result. Log entry 22. -/
opaque openOp : Nat → List Nat → Nat

/-- SHA-384 of a string of bytes. The spec names the function and does not define it. Log entry 4. -/
opaque sha384 : List Byte → Nat

/-- Does an ECDSA P-384 signature (r then s, 96 bytes) by a public key (X then Y, 96 bytes) verify over a SHA-384 digest?
Log entry 4. -/
opaque ecdsaVerify : List Byte → Nat → List Byte → Bool

/-- The shared secret Z of the device key and a public key (R600). Log entry 4. -/
opaque ecdh : List Byte → List Byte

/-- HKDF-SHA-384: input key, salt, info, bytes wanted (R600). Log entry 4. -/
opaque hkdf : List Byte → List Byte → List Byte → Nat → List Byte

/-- RFC 3394 key unwrap: key, wrapped key; none when its check fails (R600). Log entry 4. -/
opaque keyUnwrap : List Byte → List Byte → Option (List Byte)

/-- AES-256-GCM: key, IV, additional data, ciphertext; the plaintext (R600). Log entry 4. -/
opaque gcmPlain : List Byte → List Byte → List Byte → List Byte → List Byte

/-- AES-256-GCM: key, IV, additional data, ciphertext; the tag (R600). Log entry 4. -/
opaque gcmTag : List Byte → List Byte → List Byte → List Byte → List Byte

/-- The device public key, X then Y, that SEC regenerates from the PUF (R605). Log entry 4. -/
opaque devPub : List Byte

/-- How many dwords of the PCIe configuration space are unused ahead of a capability (R525), by its number: the spec gives the
capabilities no place (log entry 131). -/
opaque capGap : Nat → Nat

end Sys2Proof.Config
end

