-- ==== Sys2Proof/Machine/SMap.lean ====
section
/-! DEFINITION. Sparse maps from numbers to values: a list of (key, value) pairs in one canonical form, with strictly
rising keys and no entry equal to what an unlisted key reads as. `d k` is what the unlisted key `k` reads as. -/

namespace Sys2Proof.Machine

/-- A sparse map: (key, value) pairs. -/
abbrev SMap (α : Type) := List (Nat × α)

/-- The value at a key. -/
def mget {α : Type} (d : Nat → α) : SMap α → Nat → α
  | [], k => d k
  | (a, v) :: m, k => if k = a then v else mget d m k

/-- Sets the value at a key; the value an unlisted key reads as removes the entry. -/
def mset {α : Type} [DecidableEq α] (d : Nat → α) : SMap α → Nat → α → SMap α
  | [], k, x => if x = d k then [] else [(k, x)]
  | (a, v) :: m, k, x =>
    if k < a then (if x = d k then (a, v) :: m else (k, x) :: (a, v) :: m)
    else if k = a then (if x = d k then m else (k, x) :: m)
    else (a, v) :: mset d m k x

/-- Sets several keys in turn. -/
def msets {α : Type} [DecidableEq α] (d : Nat → α) (m : SMap α) (l : List (Nat × α)) : SMap α :=
  l.foldl (fun m e => mset d m e.1 e.2) m

/-- Every key of the map is above a bound. -/
def mabove {α : Type} (b : Nat) : SMap α → Bool
  | [] => true
  | (a, _) :: m => decide (b < a) && mabove b m

/-- The canonical form: keys strictly rising, no entry equal to what its key reads as when unlisted. -/
def mwf {α : Type} [DecidableEq α] (d : Nat → α) : SMap α → Bool
  | [] => true
  | (a, v) :: m => mabove a m && decide (v ≠ d a) && mwf d m

/-- The value that every unlisted key reads as, when it is one value. -/
def dflt {α : Type} (v : α) : Nat → α := fun _ => v

/-- Element of a vector. -/
def vget {α : Type} {n : Nat} (v : Vector α n) (i : Fin n) : α := v[i.val]

/-- Vector with one element replaced. -/
def vset {α : Type} {n : Nat} (v : Vector α n) (i : Fin n) (x : α) : Vector α n := v.set i.val x

/-- A register number among 32, and a token number among 16. -/
def reg32 (i : Nat) : Fin 32 := ⟨i % 32, Nat.mod_lt _ (by decide)⟩
def tok16 (i : Nat) : Fin 16 := ⟨i % 16, Nat.mod_lt _ (by decide)⟩

/-- A unit queue number among 5. -/
def unit5 (i : Nat) : Fin 5 := ⟨i % 5, Nat.mod_lt _ (by decide)⟩

/-- The element of a list at an index, or a value past its end. -/
def nth {α : Type} (d : α) : List α → Nat → α
  | [], _ => d
  | x :: _, 0 => x
  | _ :: l, n + 1 => nth d l n

/-- A list with the element at an index replaced (nothing past its end). -/
def setNth {α : Type} : List α → Nat → α → List α
  | [], _, _ => []
  | _ :: l, 0, x => x :: l
  | y :: l, n + 1, x => y :: setNth l n x

/-- The numbers from `a`, `n` of them. -/
def upFrom : Nat → Nat → List Nat
  | _, 0 => []
  | a, n + 1 => a :: upFrom (a + 1) n

end Sys2Proof.Machine
end

