-- ==== Sys2Proof/Machine/Numeric.lean ====
section
/-! DEFINITION. Narrow numbers (chapter 08): encodings (R282–R284), the two rounding modes (R285–R287), the generator
(R288–R289), values beyond the largest code (R291, R292), and FP32 arithmetic (R285). -/

namespace Sys2Proof.Machine

/-! ### Exact values -/

/-- An exact value of an element: a NaN, an infinity, or ± m × 2^e. -/
inductive FV where
  | nan
  | inf (neg : Bool)
  | fin (neg : Bool) (m : Nat) (e : Int)
deriving DecidableEq, Repr

/-- 2^i for a non-negative part of an integer. -/
def pow2 (i : Int) : Nat := 2 ^ i.toNat

/-- An integer as an exact value. -/
def fvInt (i : Int) : FV := .fin (decide (i < 0)) i.natAbs 0

/-- An exact value that is an integer, as one; others read as 0. -/
def fvToInt : FV → Int
  | .fin n m e =>
    let a : Int := ((m * pow2 e / pow2 (-e) : Nat) : Int)
    if n then -a else a
  | _ => 0

/-- Is the value zero? -/
def FV.isZero : FV → Bool
  | .fin _ m _ => m == 0
  | _ => false

/-- Neither NaN nor infinite. -/
def FV.finite : FV → Bool
  | .fin _ _ _ => true
  | _ => false

/-- The sign of a value. -/
def FV.neg : FV → Bool
  | .nan => false
  | .inf n => n
  | .fin n _ _ => n

/-- The magnitude of a value. -/
def FV.abs : FV → FV
  | .nan => .nan
  | .inf _ => .inf false
  | .fin _ m e => .fin false m e

/-- Minus a value. -/
def FV.minus : FV → FV
  | .nan => .nan
  | .inf n => .inf (!n)
  | .fin n m e => .fin (!n) m e

/-- Two signed magnitudes over one power of two. -/
def align (n1 : Bool) (m1 : Nat) (e1 : Int) (n2 : Bool) (m2 : Nat) (e2 : Int) : Int × Int × Int :=
  let e := min e1 e2
  let a : Int := ((m1 * pow2 (e1 - e) : Nat) : Int)
  let b : Int := ((m2 * pow2 (e2 - e) : Nat) : Int)
  (if n1 then -a else a, if n2 then -b else b, e)

/-- a < b, for values that are not NaN. -/
def FV.lt : FV → FV → Bool
  | .nan, _ => false
  | _, .nan => false
  | .inf n, .inf k => n && !k
  | .inf n, .fin _ _ _ => n
  | .fin _ _ _, .inf k => !k
  | .fin n1 m1 e1, .fin n2 m2 e2 =>
    let (a, b, _) := align n1 m1 e1 n2 m2 e2
    decide (a < b)

/-! ### Formats (Tables IT-3, NN-1 and NN-2) -/

/-- A floating-point format: exponent and mantissa bits, bias. -/
structure FFmt where
  eb : Nat
  mb : Nat
  bias : Nat
deriving DecidableEq, Repr

def e4m3 : FFmt := ⟨4, 3, 7⟩
def e5m2 : FFmt := ⟨5, 2, 15⟩
def fp16 : FFmt := ⟨5, 10, 15⟩
def bf16 : FFmt := ⟨8, 7, 127⟩
def fp32 : FFmt := ⟨8, 23, 127⟩

/-- E4M3 has no infinity, and normal numbers in its highest exponent (R283). -/
def FFmt.noInf (f : FFmt) : Bool := f.mb == 3

/-- Largest finite magnitude as mantissa and exponent: 448, 57,344, 65,504 and so on (Table NN-2). -/
def FFmt.top (f : FFmt) : Nat × Int :=
  if f.noInf then (14, 5) else (2 ^ (f.mb + 1) - 1, (2 ^ f.eb - 2 - f.bias : Int) - f.mb)

/-- Infinity's code, without sign. -/
def FFmt.infCode (f : FFmt) : Nat := (2 ^ f.eb - 1) * 2 ^ f.mb

/-- The canonical NaN (Table NN-2). -/
def FFmt.nanCode (f : FFmt) : Nat := if f.noInf then 0x7F else f.infCode + 2 ^ (f.mb - 1)

/-- The value of a code of a format (R283). -/
def FFmt.decode (f : FFmt) (v : Nat) : FV :=
  let n := bitsOf v (f.eb + f.mb) 1 == 1
  let x := bitsOf v f.mb f.eb
  let m := bitsOf v 0 f.mb
  if f.noInf && x == 15 && m == 7 then .nan
  else if !f.noInf && x == 2 ^ f.eb - 1 then (if m = 0 then .inf n else .nan)
  else if x = 0 then .fin n m (1 - (f.bias : Int) - f.mb)
  else .fin n (2 ^ f.mb + m) ((x : Int) - f.bias - f.mb)

/-- The code of ± n × 2^q, where q is the spacing of codes there. -/
def FFmt.encode (f : FFmt) (neg : Bool) (n : Nat) (q : Int) : Nat :=
  let (n, q) := if n = 2 ^ (f.mb + 1) then (2 ^ f.mb, q + 1) else (n, q)
  let s := if neg then 2 ^ (f.eb + f.mb) else 0
  if n < 2 ^ f.mb then s + n
  else s + (q + f.bias + f.mb).toNat * 2 ^ f.mb + (n - 2 ^ f.mb)

/-- floor(log2) of num / den × 2^e, num and den not zero. -/
def floorLog (num den : Nat) (e : Int) : Int :=
  let k : Int := (Nat.log2 num : Int) - Nat.log2 den
  let k := if den * pow2 k ≤ num * pow2 (-k) then k else k - 1
  k + e

/-- Spacing exponent of the codes of a format at a magnitude. -/
def FFmt.quantum (f : FFmt) (num den : Nat) (e : Int) : Int :=
  if num = 0 then 1 - (f.bias : Int) - f.mb else max (floorLog num den e) (1 - (f.bias : Int)) - f.mb

/-- The magnitude num / den × 2^e as a multiple of 2^q: RNA without a draw (R285), SR with one (R287). -/
def roundTo (num den : Nat) (e q : Int) : Option Nat → Nat
  | none =>
    let a := num * pow2 (e - q)
    let d := den * pow2 (q - e)
    (2 * a + d) / (2 * d)
  | some r =>
    let a := num * pow2 (e - q)
    let d := den * pow2 (q - e)
    a / d + (if 65536 ≤ a % d * 65536 / d + r then 1 else 0)

/-- num / den × 2^e exceeds m × 2^x. -/
def beyond (num den : Nat) (e : Int) (m : Nat) (x : Int) : Bool :=
  decide (den * m * pow2 (x - e) < num * pow2 (e - x))

/-! ### Element types (Table IT-3) -/

/-- Bits of an element type. -/
def etBits (t : Nat) : Nat :=
  if t = 1 ∨ t = 2 then 4
  else if t = 5 ∨ t = 6 ∨ t = 7 ∨ t = 0xB then 16
  else if t = 8 ∨ t = 9 then 32 else 8

/-- The floating-point format of an element type, or none for an integer type. -/
def etFloat (t : Nat) : Option FFmt :=
  match t with
  | 3 => some e4m3
  | 4 => some e5m2
  | 5 => some fp16
  | 6 => some bf16
  | 9 => some fp32
  | _ => none

/-- The type is an integer type. -/
def etInt (t : Nat) : Bool := (etFloat t).isNone

/-- Range of the codes of an integer type (Table NN-1); ASYM adds −128 and −8. -/
def etRange (t : Nat) (asym : Bool) : Int × Int :=
  match t with
  | 0 => (if asym then -128 else -127, 127)
  | 1 => (if asym then -8 else -7, 7)
  | 2 => (-7, 7)
  | 7 => (-32767, 32767)
  | 8 => (-2147483648, 2147483647)
  | 0xA => (0, 255)
  | _ => (0, 65535)

/-- The value of a code of an element type. The escape code of INT4E reads as 0 (R293). -/
def etDecode (t v : Nat) : FV :=
  match etFloat t with
  | some f => f.decode v
  | none =>
    if t = 0xA ∨ t = 0xB then fvInt v
    else if t = 2 ∧ v % 16 = 8 then fvInt 0 else fvInt (signed (etBits t) v)

/-- QMAX (Table NN-5). -/
def etQmax (t : Nat) : Option Nat :=
  match t with
  | 0 => some 127
  | 1 => some 7
  | 2 => some 7
  | 7 => some 32767
  | 3 => some 448
  | 4 => some 57344
  | _ => none

/-- What a conversion answers: the code, whether it counts in CORE_SAT, whether it sets NONFIN. -/
structure Conv where
  code : Nat
  sat : Bool
  nonfin : Bool
deriving DecidableEq, Repr

/-- How a conversion rounds and saturates. -/
structure ConvMode where
  draw : Option Nat
  asym : Bool
  /-- NUM_CTL.E5M2_INF of the context. -/
  e5inf : Bool
deriving DecidableEq, Repr

/-- Plain RNA. -/
def rna : ConvMode := ⟨none, false, false⟩

/-- Converts ± num / den × 2^e into an integer type: the integer before it is placed in the type, and its saturation
(R287, R291). -/
def convInt (t : Nat) (md : ConvMode) (neg : Bool) (num den : Nat) (e : Int) : Int × Bool :=
  let (lo, hi) := etRange t md.asym
  let n := roundTo num den e 0 md.draw
  let v : Int := if neg then -(n : Int) else n
  let lim : Nat := if neg then (-lo).toNat else hi.toNat
  let out := match md.draw with
    | none => decide (v < lo) || decide (hi < v)
    | some _ => beyond num den e lim 0 && (!(neg && lo == 0) || decide (v < 0))
  (max lo (min hi v), out)

/-- Converts ± num / den × 2^e into a floating-point type (R285–R287, R291). A result beyond FP32 is not stated. -/
def convFloat (t : Nat) (f : FFmt) (md : ConvMode) (neg : Bool) (num den : Nat) (e : Int) : Conv :=
  let s := if neg then 2 ^ (f.eb + f.mb) else 0
  let (tm, te) := f.top
  let q := f.quantum num den e
  let n := roundTo num den e q md.draw
  match md.draw with
  | some _ =>
    let out := beyond num den e tm te
    -- R287: n × u at the largest finite code or beyond gives the largest finite code
    if out || beyond n 1 q tm te then ⟨s + (f.encode false tm te), out, false⟩ else ⟨f.encode neg n q, false, false⟩
  | none =>
    if !beyond n 1 q tm te then ⟨f.encode neg n q, false, false⟩
    else if t = 9 then ⟨Config.openOp 1 [if neg then 1 else 0, num, den, (e + 1000).toNat] % 2 ^ 32, false, false⟩
    else if f.noInf || (t == 4 && !md.e5inf) then ⟨s + f.encode false tm te, true, false⟩
    else ⟨s + f.infCode, true, false⟩

/-- Converts the quotient x / y of exact values into an element type; y is 1 where no scale applies (R286). A NaN or an
infinity converts whatever the scale, and sets NONFIN (R292, Table NN-7). A finite value over a zero or non-finite y has no
stated quotient. -/
def convert (t : Nat) (md : ConvMode) (x y : FV) : Conv :=
  let w := etBits t
  match x with
  | .nan =>
    match etFloat t with
    | some f => ⟨f.nanCode, false, true⟩
    | none => ⟨0, false, true⟩
  | .inf n =>
    let n := n != y.neg
    match etFloat t with
    | some f =>
      let s := if n then 2 ^ (f.eb + f.mb) else 0
      let (tm, te) := f.top
      if t = 9 then ⟨s + f.infCode, false, true⟩
      else if f.noInf || (t == 4 && !md.e5inf) || md.draw.isSome then ⟨s + f.encode false tm te, true, true⟩
      else ⟨s + f.infCode, true, true⟩
    | none =>
      let (lo, hi) := etRange t md.asym
      ⟨unsigned w (if n then lo else hi), true, true⟩
  | .fin n m e =>
    match y with
    | .fin yn ym ye =>
      if ym = 0 then ⟨Config.openOp 2 [t] % 2 ^ w, false, false⟩
      else
        match etFloat t with
        | some f => convFloat t f md (n != yn) m ym (e - ye)
        | none =>
          let (v, out) := convInt t md (n != yn) m ym (e - ye)
          ⟨unsigned w v, out, false⟩
    | _ => ⟨Config.openOp 2 [t, 1] % 2 ^ w, false, false⟩

/-- What an integer without bound is rounded to (R294): the integer, whether its magnitude is beyond a drawer value (R291),
whether it was a NaN or an infinity (R292). -/
structure RoundI where
  v : Int
  out : Bool
  nf : Bool
deriving DecidableEq, Repr

/-- The quotient x / y rounded to an integer (R294). An infinity is beyond every code. -/
def roundInt (md : ConvMode) (x y : FV) : RoundI :=
  match x with
  | .nan => ⟨0, false, true⟩
  | .inf n => ⟨if n != y.neg then -32768 else 32768, true, true⟩
  | .fin n a b =>
    match y with
    | .fin k c d =>
      if c = 0 then ⟨signed 16 (Config.openOp 2 [2]), false, false⟩
      else
        let v : Nat := roundTo a c (b - d) 0 md.draw
        ⟨if n != k then -(v : Int) else v,
         match md.draw with
         | none => decide (32767 < v)
         | some _ => beyond a c (b - d) 32767 0,
         false⟩
    | _ => ⟨signed 16 (Config.openOp 2 [2, 1]), false, false⟩

/-- The value 1. -/
def fvOne : FV := .fin false 1 0

/-! ### FP32 arithmetic: every operation rounds RNA (R285) -/

/-- A number that names a value among the operands of `openOp`. -/
def fvKey : FV → Nat
  | .nan => 0
  | .inf n => if n then 2 else 1
  | .fin n m e => 3 + (if n then 1 else 0) + 2 * m + 2 ^ 300 * (e + 1000).toNat

/-- An FP32 value. -/
def fpVal (c : Nat) : FV := fp32.decode c

/-- Rounds an exact value to FP32. -/
def toF32 (x : FV) : FV := fpVal (convert 9 rna x fvOne).code

/-- An unstated FP32 result. -/
def openF32 (op : Nat) (l : List FV) : FV := fpVal (Config.openOp op (l.map fvKey) % 2 ^ 32)

/-- The exact sum of two values: a NaN operand gives a NaN; the sum of opposite infinities and the sign of a zero sum of
values that are not both negative zero, or both positive, are not stated. -/
def fvAdd : FV → FV → FV
  | .nan, _ => .nan
  | _, .nan => .nan
  | .inf n, .inf k => if n = k then .inf n else openF32 10 [.inf n, .inf k]
  | .inf n, _ => .inf n
  | _, .inf k => .inf k
  | .fin n1 m1 e1, .fin n2 m2 e2 =>
    let (a, b, e) := align n1 m1 e1 n2 m2 e2
    let s := a + b
    if s = 0 then
      let sg := if n1 = n2 then n1 else Config.openOp 11 [fvKey (.fin n1 m1 e1), fvKey (.fin n2 m2 e2)] % 2 == 1
      .fin sg 0 e
    else .fin (decide (s < 0)) s.natAbs e

/-- The exact product of two values; a zero times an infinity is not stated. -/
def fvMul : FV → FV → FV
  | .nan, _ => .nan
  | _, .nan => .nan
  | .inf n, .inf k => .inf (n != k)
  | .inf n, .fin k m e => if m = 0 then openF32 12 [.inf n, .fin k m e] else .inf (n != k)
  | .fin n m e, .inf k => if m = 0 then openF32 12 [.fin n m e, .inf k] else .inf (n != k)
  | .fin n1 m1 e1, .fin n2 m2 e2 => .fin (n1 != n2) (m1 * m2) (e1 + e2)

/-- FP32 sum. -/
def fadd (a b : FV) : FV := toF32 (fvAdd a b)

/-- FP32 difference. -/
def fsub (a b : FV) : FV := fadd a b.minus

/-- FP32 product. -/
def fmul (a b : FV) : FV := toF32 (fvMul a b)

/-- FP32 quotient; a quotient by zero and of two infinities is not stated. -/
def fdiv : FV → FV → FV
  | .nan, _ => .nan
  | _, .nan => .nan
  | .inf n, .inf k => openF32 13 [.inf n, .inf k]
  | .inf n, .fin k _ _ => .inf (n != k)
  | .fin n _ _, .inf k => .fin (n != k) 0 0
  | .fin n1 m1 e1, .fin n2 m2 e2 =>
    if m2 = 0 then openF32 13 [.fin n1 m1 e1, .fin n2 m2 e2]
    else fpVal (convert 9 rna (.fin n1 m1 e1) (.fin n2 m2 e2)).code

/-- Is r × 2^x below the square root of m × 2^e, doubled: (2r + 1)² × 2^(2x) ≤ 4 m × 2^e. -/
def halfUp (r m : Nat) (x e : Int) : Bool :=
  decide ((2 * r + 1) ^ 2 * pow2 (2 * x - e) ≤ 4 * m * pow2 (e - 2 * x))

/-- FP32 square root, rounded RNA from the exact root; that of a negative value is not stated. -/
def fsqrt : FV → FV
  | .nan => .nan
  | .inf n => if n then openF32 14 [.inf n] else .inf false
  | .fin n m e =>
    if m = 0 then .fin n 0 e
    else if n then openF32 14 [.fin n m e]
    else
      -- m × 2^e as M × 2^(2h) with M of at least 50 bits; then 24 bits of the root, and the tie by an exact comparison
      let h : Int := (e - 100) / 2
      let r := Nat.sqrt (m * pow2 (e - 2 * h))
      let q := fp32.quantum r 1 h
      let t := r / pow2 (q - h)
      let t := if halfUp t m q e then t + 1 else t
      fpVal (fp32.encode false t q)

/-! ### The stochastic-rounding generator (R288, R289) -/

/-- The state SRSEED sets for a seed (R288). -/
def srSeed (v : Nat) : BitVec 64 := BitVec.ofNat 64 v ^^^ 0x4E385053D5A71C93#64

/-- One step of the generator (R289). -/
def srStep (x : BitVec 64) : BitVec 64 :=
  let x := x ^^^ (x <<< 13)
  let x := x ^^^ (x >>> 7)
  x ^^^ (x <<< 17)

/-- The state after `n` steps. -/
def srSteps : Nat → BitVec 64 → BitVec 64
  | 0, x => x
  | n + 1, x => srSteps n (srStep x)

/-- `n` draws from a state, after `i` draws of its next group are gone (R289). -/
def srDraws : Nat → Nat → BitVec 64 → List Nat
  | 0, _, _ => []
  | n + 1, i, x =>
    let y := srStep x
    let d := bitsOf y.toNat (16 * i) 16
    d :: (if i = 3 then srDraws n 0 y else srDraws n (i + 1) x)

/-- Reserves `n` draws: the state and the draws gone of its next group afterwards (R290). -/
def srReserve (n i : Nat) (x : BitVec 64) : BitVec 64 × Nat := (srSteps ((i + n) / 4) x, (i + n) % 4)

end Sys2Proof.Machine
end

