-- ==== Sys2Proof/Machine/RegTypes.lean ====
section
/-! DEFINITION. What a control register table row says: access codes (Table SC-2), effect codes (Table SC-3), fields
and registers. -/

namespace Sys2Proof.Machine

/-- Access codes of Table SC-2 (R20). -/
inductive Access where
  | ro | rw | w1c | w1s | wo | rwl
deriving DecidableEq, Repr

/-- Effect codes of Table SC-3 (R21). -/
inductive Effect where
  | imm | str | frm | job | boot
deriving DecidableEq, Repr

/-- One field of a register: its place, codes, value after cold reset, and the ranges of values that are reserved
(R19). -/
structure FieldDesc where
  lo : Nat
  w : Nat
  acc : Access
  eff : Effect
  rst : Nat
  bad : List (Nat × Nat)
deriving DecidableEq, Repr

/-- One register, or a family of registers at `base + i * stride + j * stride2`. -/
structure RegDesc where
  base : Nat
  stride : Nat
  count : Nat
  stride2 : Nat
  count2 : Nat
  fields : List FieldDesc
deriving DecidableEq, Repr

/-- A field of a register, named by offset and place. -/
structure Fld where
  off : Nat
  lo : Nat
  w : Nat
deriving DecidableEq, Repr

/-- Does a register family hold the register at this offset? -/
def RegDesc.covers (r : RegDesc) (off : Nat) : Bool :=
  r.base ≤ off && (off - r.base) / r.stride < r.count
    && (off - r.base) % r.stride % r.stride2 == 0 && (off - r.base) % r.stride / r.stride2 < r.count2

/-- The word a register holds after cold reset. -/
def RegDesc.reset (r : RegDesc) : Nat :=
  r.fields.foldl (fun a f => a + f.rst * 2 ^ f.lo) 0

end Sys2Proof.Machine
end

