-- ==== Sys2Proof/Machine/RegMap.lean ====
section
/-! DEFINITION. The control registers of Tables SC-7 to BD-10: for every register its offset in the 2 MiB control
range (R13, Table TH-4), its fields, their access and effect codes (Tables SC-2 and SC-3), the values that R19 calls
reserved and the value after cold reset. `F.<REGISTER>_<FIELD>` names a field by the spec's own names; an indexed
register takes its index (core, port, context, stream, word). -/

namespace Sys2Proof.Machine

/-- Registers of block GLB, part 0. -/
def regsGLB0 : List RegDesc :=
  [
    -- GLB_ID0 (SC-7, R26)
    ⟨0x000000, 0x4, 1, 4, 1,
      [⟨0, 16, .ro, .imm, 7996, []⟩, ⟨16, 16, .ro, .imm, 2176, []⟩]⟩,
    -- GLB_ID1 (SC-8, R26)
    ⟨0x000004, 0x4, 1, 4, 1,
      [⟨0, 8, .ro, .imm, 16, []⟩, ⟨8, 4, .ro, .imm, 1, []⟩, ⟨12, 4, .ro, .imm, 8, []⟩]⟩,
    -- GLB_STATUS (HO-10, R548)
    ⟨0x000008, 0x4, 1, 4, 1,
      [⟨0, 1, .w1c, .imm, 0, []⟩, ⟨1, 1, .w1c, .imm, 0, []⟩, ⟨2, 1, .w1c, .imm, 0, []⟩, ⟨3, 1, .w1c, .imm, 0, []⟩, ⟨4, 1, .w1c, .imm, 0, []⟩, ⟨5, 1, .w1c, .imm, 0, []⟩]⟩,
    -- GLB_OWN0 (HO-10, R551)
    ⟨0x000010, 0x4, 1, 4, 1,
      [⟨0, 24, .ro, .boot, 0, []⟩]⟩,
    -- GLB_OWN1 (HO-10, R551)
    ⟨0x000014, 0x4, 1, 4, 1,
      [⟨0, 21, .ro, .boot, 0, []⟩]⟩,
    -- GLB_OWN2 (HO-10, R551)
    ⟨0x000018, 0x4, 1, 4, 1,
      [⟨0, 24, .ro, .boot, 0, []⟩]⟩,
    -- GLB_DENYCNT (HO-10, R548)
    ⟨0x00001C, 0x4, 1, 4, 1,
      [⟨0, 32, .ro, .imm, 0, []⟩]⟩,
    -- GLB_PIN_BOARD (BD-10, R633)
    ⟨0x000100, 0x4, 1, 4, 1,
      [⟨0, 16, .rwl, .boot, 0, []⟩, ⟨16, 16, .rwl, .boot, 0, []⟩]⟩,
    -- GLB_PIN_USE (BD-10, R632)
    ⟨0x000104, 0x4, 1, 4, 1,
      [⟨0, 32, .ro, .imm, 0, []⟩]⟩,
    -- GLB_GPIO_OUT (BD-10, R632)
    ⟨0x000108, 0x4, 1, 4, 1,
      [⟨0, 16, .rw, .imm, 0, []⟩]⟩,
    -- GLB_GPIO_OE (BD-10, R632)
    ⟨0x00010C, 0x4, 1, 4, 1,
      [⟨0, 16, .rw, .imm, 0, []⟩]⟩,
    -- GLB_GPIO_IN (BD-10, R632)
    ⟨0x000110, 0x4, 1, 4, 1,
      [⟨0, 16, .ro, .imm, 0, []⟩]⟩,
    -- GLB_PIN_LOCK (BD-10, R633)
    ⟨0x000114, 0x4, 1, 4, 1,
      [⟨0, 1, .w1s, .imm, 0, []⟩]⟩]

/-- The registers of block GLB. -/
def regsGLB : List RegDesc := regsGLB0

/-- Registers of block PWR, part 0. -/
def regsPWR0 : List RegDesc :=
  [
    -- PWR_DEV (PW-9, R557)
    ⟨0x010000, 0x4, 1, 4, 1,
      [⟨0, 3, .ro, .imm, 1, []⟩, ⟨4, 2, .wo, .imm, 0, [(0, 0), (3, 3)]⟩, ⟨8, 1, .w1c, .imm, 0, []⟩]⟩,
    -- PWR_STATUS (PW-9, R579)
    ⟨0x010004, 0x4, 1, 4, 1,
      [⟨0, 1, .w1c, .imm, 0, []⟩, ⟨1, 1, .ro, .imm, 0, []⟩, ⟨2, 1, .w1c, .imm, 0, []⟩, ⟨3, 1, .w1c, .imm, 0, []⟩, ⟨4, 1, .w1c, .imm, 0, []⟩, ⟨5, 4, .ro, .imm, 0, []⟩]⟩,
    -- PWR_CAP (PW-9, R577)
    ⟨0x010008, 0x4, 1, 4, 1,
      [⟨0, 16, .rw, .imm, 0, []⟩]⟩,
    -- PWR_EST (PW-9, R577)
    ⟨0x01000C, 0x4, 1, 4, 1,
      [⟨0, 16, .ro, .imm, 0, []⟩]⟩,
    -- PWR_LOOP (PW-9, R573)
    ⟨0x010010, 0x4, 1, 4, 1,
      [⟨0, 8, .rw, .imm, 30, []⟩, ⟨8, 8, .rw, .imm, 60, []⟩, ⟨16, 8, .rw, .imm, 10, []⟩]⟩,
    -- PWR_SLEEP (PW-9, R565)
    ⟨0x010014, 0x4, 1, 4, 1,
      [⟨0, 1, .rw, .imm, 1, []⟩, ⟨1, 1, .rw, .imm, 0, []⟩, ⟨2, 1, .rw, .imm, 0, []⟩, ⟨3, 1, .rw, .imm, 0, []⟩]⟩,
    -- PWR_WAKE_AT_LO (PW-9, R565)
    ⟨0x010018, 0x4, 1, 4, 1,
      [⟨0, 32, .rw, .imm, 0, []⟩]⟩,
    -- PWR_WAKE_AT_HI (PW-9, R565)
    ⟨0x01001C, 0x4, 1, 4, 1,
      [⟨0, 32, .rw, .imm, 0, []⟩]⟩,
    -- PWR_RET (PW-9, R560)
    ⟨0x010020, 0x4, 1, 4, 1,
      [⟨0, 10, .rw, .imm, 500, [(0, 449), (561, 1023)]⟩]⟩,
    -- PWR_ISL (PW-9, R560)
    ⟨0x010100, 0x10, 8, 4, 1,
      [⟨0, 11, .rw, .imm, 1400, [(0, 199), (1401, 2047)]⟩, ⟨11, 10, .rw, .imm, 780, [(0, 579), (781, 1023)]⟩, ⟨21, 2, .wo, .imm, 0, []⟩, ⟨23, 1, .rw, .imm, 0, []⟩]⟩,
    -- PWR_ISL_ST (PW-9, R573)
    ⟨0x010104, 0x10, 8, 4, 1,
      [⟨0, 11, .ro, .imm, 0, []⟩, ⟨11, 10, .ro, .imm, 0, []⟩, ⟨21, 8, .ro, .imm, 0, []⟩]⟩,
    -- PWR_ISL_CLIP (PW-9, R579)
    ⟨0x010108, 0x10, 8, 4, 1,
      [⟨0, 1, .w1c, .imm, 0, []⟩, ⟨1, 1, .w1c, .imm, 0, []⟩, ⟨2, 1, .w1c, .imm, 0, []⟩, ⟨3, 1, .w1c, .imm, 0, []⟩, ⟨4, 1, .w1c, .imm, 0, []⟩, ⟨5, 1, .w1c, .imm, 0, []⟩]⟩,
    -- PWR_ISL_STRETCH (PW-9, R575)
    ⟨0x01010C, 0x10, 8, 4, 1,
      [⟨0, 32, .ro, .imm, 0, []⟩]⟩,
    -- PWR_RAIL_VAL (PW-9, R567)
    ⟨0x010200, 0x10, 18, 4, 1,
      [⟨0, 16, .ro, .imm, 0, []⟩]⟩,
    -- PWR_RAIL_WARN (PW-9, R567)
    ⟨0x010204, 0x10, 18, 4, 1,
      [⟨0, 16, .rw, .imm, 0, []⟩, ⟨16, 16, .rw, .imm, 0, []⟩]⟩,
    -- PWR_RAIL_STOP (PW-9, R567)
    ⟨0x010208, 0x10, 18, 4, 1,
      [⟨0, 16, .rw, .imm, 0, []⟩, ⟨16, 16, .rw, .imm, 0, []⟩]⟩]

/-- Registers of block PWR, part 1. -/
def regsPWR1 : List RegDesc :=
  [
    -- PWR_RAIL_FLAG (PW-9, R568)
    ⟨0x01020C, 0x10, 18, 4, 1,
      [⟨0, 1, .w1c, .imm, 0, []⟩, ⟨1, 1, .w1c, .imm, 0, []⟩]⟩,
    -- PWR_TEMP (PW-9, R572)
    ⟨0x010400, 0x8, 12, 4, 1,
      [⟨0, 16, .ro, .imm, 0, []⟩]⟩,
    -- PWR_TEMP_TH (PW-9, R572)
    ⟨0x010404, 0x8, 12, 4, 1,
      [⟨0, 8, .rw, .imm, 0, []⟩, ⟨8, 8, .rw, .imm, 0, []⟩]⟩,
    -- PWR_TEMP_FLAG (PW-9, R572)
    ⟨0x010460, 0x4, 1, 4, 1,
      [⟨0, 12, .w1c, .imm, 0, []⟩, ⟨12, 12, .ro, .imm, 0, []⟩]⟩,
    -- PWR_TMAX (PW-9, R572)
    ⟨0x010464, 0x4, 1, 4, 1,
      [⟨0, 16, .ro, .imm, 0, []⟩]⟩]

/-- The registers of block PWR. -/
def regsPWR : List RegDesc := regsPWR0 ++ regsPWR1

/-- Registers of block TIME, part 0. -/
def regsTIME0 : List RegDesc :=
  [
    -- TIME_NOW_LO (ST-2, R87)
    ⟨0x020000, 0x4, 1, 4, 1,
      [⟨0, 32, .ro, .imm, 0, []⟩]⟩,
    -- TIME_NOW_HI (ST-2, R87)
    ⟨0x020004, 0x4, 1, 4, 1,
      [⟨0, 32, .ro, .imm, 0, []⟩]⟩,
    -- TIME_SET_LO (ST-2, R88)
    ⟨0x020008, 0x4, 1, 4, 1,
      [⟨0, 32, .rw, .imm, 0, []⟩]⟩,
    -- TIME_SET_HI (ST-2, R88)
    ⟨0x02000C, 0x4, 1, 4, 1,
      [⟨0, 32, .rw, .imm, 0, []⟩]⟩,
    -- TIME_CTRL (ST-2, R88)
    ⟨0x020010, 0x4, 1, 4, 1,
      [⟨0, 1, .wo, .imm, 0, []⟩]⟩,
    -- TIME_SLEW (ST-2, R88)
    ⟨0x020014, 0x4, 1, 4, 1,
      [⟨0, 24, .rw, .imm, 0, []⟩]⟩,
    -- TIME_STATUS (ST-2, R88)
    ⟨0x020018, 0x4, 1, 4, 1,
      [⟨0, 1, .w1c, .imm, 0, []⟩, ⟨1, 1, .w1c, .imm, 0, []⟩, ⟨2, 1, .ro, .imm, 0, []⟩, ⟨3, 1, .ro, .imm, 0, []⟩]⟩,
    -- FSG_CTRL (ST-3, R91)
    ⟨0x020100, 0x20, 4, 4, 1,
      [⟨0, 1, .rw, .imm, 0, []⟩, ⟨1, 2, .rw, .frm, 0, [(3, 3)]⟩, ⟨3, 1, .rw, .frm, 0, []⟩, ⟨4, 1, .w1c, .imm, 0, []⟩]⟩,
    -- FSG_START_LO (ST-3, R91)
    ⟨0x020104, 0x20, 4, 4, 1,
      [⟨0, 32, .rw, .frm, 0, []⟩]⟩,
    -- FSG_START_HI (ST-3, R91)
    ⟨0x020108, 0x20, 4, 4, 1,
      [⟨0, 32, .rw, .frm, 0, []⟩]⟩,
    -- FSG_PERIOD (ST-3, R91)
    ⟨0x02010C, 0x20, 4, 4, 1,
      [⟨0, 32, .rw, .frm, 0, []⟩]⟩,
    -- FSG_FRAC (ST-3, R91)
    ⟨0x020110, 0x20, 4, 4, 1,
      [⟨0, 16, .rw, .frm, 0, []⟩]⟩,
    -- FSG_WIDTH (ST-3, R93)
    ⟨0x020114, 0x20, 4, 4, 1,
      [⟨0, 24, .rw, .frm, 0, []⟩]⟩,
    -- FSG_COUNT (ST-3, R92)
    ⟨0x020118, 0x20, 4, 4, 1,
      [⟨0, 32, .ro, .imm, 0, []⟩]⟩,
    -- ST_SEL (ST-4, R73)
    ⟨0x020200, 0x4, 1, 4, 1,
      [⟨0, 12, .rw, .imm, 0, []⟩]⟩,
    -- ST_SLACK_LAST (ST-4, R73)
    ⟨0x020204, 0x4, 1, 4, 1,
      [⟨0, 32, .ro, .imm, 0, []⟩]⟩]

/-- Registers of block TIME, part 1. -/
def regsTIME1 : List RegDesc :=
  [
    -- ST_SLACK_MIN (ST-4, R73)
    ⟨0x020208, 0x4, 1, 4, 1,
      [⟨0, 32, .ro, .imm, 0, []⟩]⟩,
    -- ST_MISS (ST-4, R73)
    ⟨0x02020C, 0x4, 1, 4, 1,
      [⟨0, 32, .ro, .imm, 0, []⟩]⟩,
    -- ST_ABORT (ST-4, R73)
    ⟨0x020210, 0x4, 1, 4, 1,
      [⟨0, 32, .ro, .imm, 0, []⟩]⟩,
    -- ST_CTRL (ST-4, R73)
    ⟨0x020214, 0x4, 1, 4, 1,
      [⟨0, 1, .wo, .imm, 0, []⟩, ⟨1, 31, .rw, .imm, 0, []⟩]⟩,
    -- DX_CTRL (DX-4, R345)
    ⟨0x020240, 0x4, 1, 4, 1,
      [⟨0, 1, .rw, .frm, 0, []⟩, ⟨1, 8, .rw, .frm, 0, []⟩, ⟨9, 10, .rw, .frm, 0, [(1001, 1023)]⟩, ⟨19, 1, .wo, .frm, 0, []⟩]⟩,
    -- DX_DELTA (DX-4, R345)
    ⟨0x020244, 0x4, 1, 4, 1,
      [⟨0, 32, .ro, .imm, 0, []⟩]⟩,
    -- DX_REFRESH (DX-4, R345)
    ⟨0x020248, 0x4, 1, 4, 1,
      [⟨0, 32, .ro, .imm, 0, []⟩]⟩,
    -- DX_STALE (DX-4, R345)
    ⟨0x02024C, 0x4, 1, 4, 1,
      [⟨0, 32, .ro, .imm, 0, []⟩]⟩,
    -- DX_OFF (DX-4, R345)
    ⟨0x020250, 0x4, 1, 4, 1,
      [⟨0, 32, .ro, .imm, 0, []⟩]⟩,
    -- DX_SCENE (DX-4, R345)
    ⟨0x020254, 0x4, 1, 4, 1,
      [⟨0, 32, .ro, .imm, 0, []⟩]⟩,
    -- DX_CHANGED (DX-4, R345)
    ⟨0x020258, 0x4, 1, 4, 1,
      [⟨0, 32, .ro, .imm, 0, []⟩]⟩,
    -- DX_POS (DX-4, R345)
    ⟨0x02025C, 0x4, 1, 4, 1,
      [⟨0, 32, .ro, .imm, 0, []⟩]⟩,
    -- DX_CLR (DX-4, R345)
    ⟨0x020260, 0x4, 1, 4, 1,
      [⟨0, 1, .wo, .imm, 0, []⟩]⟩,
    -- AD_CFG (AD-4, R352)
    ⟨0x020280, 0x4, 1, 4, 1,
      [⟨0, 3, .rw, .str, 0, []⟩, ⟨3, 1, .rw, .str, 1, []⟩, ⟨4, 12, .rw, .str, 0, []⟩]⟩,
    -- AD_STATUS (AD-4, R355)
    ⟨0x020284, 0x4, 1, 4, 1,
      [⟨0, 1, .ro, .imm, 0, []⟩, ⟨1, 1, .ro, .imm, 0, []⟩, ⟨2, 1, .ro, .imm, 0, []⟩, ⟨3, 1, .ro, .imm, 0, []⟩, ⟨4, 1, .ro, .imm, 0, []⟩, ⟨8, 8, .ro, .imm, 0, []⟩]⟩,
    -- AD_STEPS (AD-4, R355)
    ⟨0x020288, 0x4, 1, 4, 1,
      [⟨0, 32, .ro, .imm, 0, []⟩]⟩]

/-- Registers of block TIME, part 2. -/
def regsTIME2 : List RegDesc :=
  [
    -- AD_SKIP (AD-4, R354)
    ⟨0x02028C, 0x4, 1, 4, 1,
      [⟨0, 32, .ro, .imm, 0, []⟩]⟩,
    -- AD_LASTSTEP (AD-4, R355)
    ⟨0x020290, 0x4, 1, 4, 1,
      [⟨0, 32, .ro, .imm, 0, []⟩]⟩,
    -- AD_SEQ (AD-4, R359)
    ⟨0x020294, 0x4, 1, 4, 1,
      [⟨0, 32, .ro, .imm, 0, []⟩]⟩,
    -- DIG_CTRL (SE-6, R457)
    ⟨0x0202C0, 0x4, 1, 4, 1,
      [⟨0, 16, .rw, .imm, 1000, []⟩, ⟨16, 1, .wo, .imm, 0, []⟩]⟩,
    -- DIG_REPAIRS (SE-6, R460)
    ⟨0x0202C4, 0x4, 1, 4, 1,
      [⟨0, 32, .ro, .imm, 0, []⟩]⟩,
    -- DIG_BLAMES (SE-6, R458)
    ⟨0x0202C8, 0x4, 1, 4, 1,
      [⟨0, 32, .ro, .imm, 0, []⟩]⟩,
    -- DIG_DIVERGE (SE-6, R458)
    ⟨0x0202CC, 0x4, 1, 4, 1,
      [⟨0, 32, .ro, .imm, 0, []⟩]⟩,
    -- DIG_SINGLE (SE-6, R461)
    ⟨0x0202D0, 0x4, 1, 4, 1,
      [⟨0, 32, .ro, .imm, 0, []⟩]⟩]

/-- The registers of block TIME. -/
def regsTIME : List RegDesc := regsTIME0 ++ regsTIME1 ++ regsTIME2

/-- Registers of block HOST, part 0. -/
def regsHOST0 : List RegDesc :=
  [
    -- SQ_BASE_LO (HO-12, R540)
    ⟨0x030000, 0x100, 2, 4, 1,
      [⟨0, 32, .rw, .imm, 0, []⟩]⟩,
    -- SQ_BASE_HI (HO-12, R540)
    ⟨0x030004, 0x100, 2, 4, 1,
      [⟨0, 32, .rw, .imm, 0, []⟩]⟩,
    -- RING_CFG (HO-12, R540)
    ⟨0x030008, 0x100, 2, 4, 1,
      [⟨0, 4, .rw, .imm, 4, [(0, 3), (13, 15)]⟩, ⟨4, 4, .rw, .imm, 4, [(0, 3), (13, 15)]⟩]⟩,
    -- SQ_TAIL (HO-12, R540)
    ⟨0x03000C, 0x100, 2, 4, 1,
      [⟨0, 12, .rw, .imm, 0, []⟩]⟩,
    -- SQ_HEAD (HO-12, R540)
    ⟨0x030010, 0x100, 2, 4, 1,
      [⟨0, 12, .ro, .imm, 0, []⟩]⟩,
    -- CQ_BASE_LO (HO-12, R540)
    ⟨0x030014, 0x100, 2, 4, 1,
      [⟨0, 32, .rw, .imm, 0, []⟩]⟩,
    -- CQ_BASE_HI (HO-12, R540)
    ⟨0x030018, 0x100, 2, 4, 1,
      [⟨0, 32, .rw, .imm, 0, []⟩]⟩,
    -- CQ_HEAD (HO-12, R542)
    ⟨0x03001C, 0x100, 2, 4, 1,
      [⟨0, 12, .rw, .imm, 0, []⟩]⟩,
    -- CQ_TAIL (HO-12, R542)
    ⟨0x030020, 0x100, 2, 4, 1,
      [⟨0, 12, .ro, .imm, 0, []⟩, ⟨12, 1, .ro, .imm, 1, []⟩]⟩,
    -- RING_CTRL (HO-12, R556)
    ⟨0x030024, 0x100, 2, 4, 1,
      [⟨0, 1, .rw, .imm, 0, []⟩, ⟨1, 1, .w1c, .imm, 0, []⟩]⟩,
    -- BULK_ADDR_LO (HO-12, R535)
    ⟨0x030040, 0x100, 2, 4, 1,
      [⟨0, 32, .rw, .imm, 0, []⟩]⟩,
    -- BULK_ADDR_HI (HO-12, R535)
    ⟨0x030044, 0x100, 2, 4, 1,
      [⟨0, 16, .rw, .imm, 0, []⟩]⟩,
    -- BULK_CTRL (HO-12, R535)
    ⟨0x030048, 0x100, 2, 4, 1,
      [⟨0, 2, .rw, .imm, 0, [(3, 3)]⟩, ⟨2, 1, .rw, .imm, 0, []⟩, ⟨3, 1, .wo, .imm, 0, []⟩]⟩,
    -- BULK_BASE_LO (HO-12, R535)
    ⟨0x03004C, 0x100, 2, 4, 1,
      [⟨0, 32, .rw, .imm, 0, []⟩]⟩,
    -- BULK_BASE_HI (HO-12, R535)
    ⟨0x030050, 0x100, 2, 4, 1,
      [⟨0, 16, .rw, .imm, 0, []⟩]⟩,
    -- BULK_WRAP (HO-12, R535)
    ⟨0x030054, 0x100, 2, 4, 1,
      [⟨0, 32, .rw, .imm, 0, [(0, 0)]⟩]⟩]

/-- Registers of block HOST, part 1. -/
def regsHOST1 : List RegDesc :=
  [
    -- BULK_STATUS (HO-12, R536)
    ⟨0x030058, 0x100, 2, 4, 1,
      [⟨0, 1, .ro, .imm, 0, []⟩, ⟨1, 1, .w1c, .imm, 0, []⟩]⟩,
    -- HOST_W4 (HO-12, R529)
    ⟨0x030080, 0x4, 8, 4, 1,
      [⟨0, 18, .rw, .imm, 0, []⟩, ⟨31, 1, .rw, .imm, 0, []⟩]⟩,
    -- HOST_HADDR_HI (HO-12, R527)
    ⟨0x0300A0, 0x4, 1, 4, 1,
      [⟨0, 24, .rw, .imm, 0, []⟩]⟩,
    -- HOST_IMASK (HO-12, R547)
    ⟨0x0300A4, 0x4, 1, 4, 1,
      [⟨0, 32, .rw, .imm, 4294967295, []⟩]⟩,
    -- HOST_IRQN_EN (HO-12, R534)
    ⟨0x0301A0, 0x4, 1, 4, 1,
      [⟨0, 32, .rw, .imm, 0, []⟩]⟩,
    -- HSP_CFG (HO-12, R533)
    ⟨0x0301A4, 0x4, 1, 4, 1,
      [⟨0, 6, .rw, .imm, 16, [(0, 7), (33, 63)]⟩]⟩,
    -- HOST_ICAUSE (HO-12, R547)
    ⟨0x030200, 0x4, 1, 4, 1,
      [⟨0, 32, .w1c, .imm, 0, []⟩]⟩,
    -- HOST_STATUS (HO-12, R555)
    ⟨0x030204, 0x4, 1, 4, 1,
      [⟨0, 1, .ro, .imm, 0, []⟩, ⟨1, 1, .w1c, .imm, 0, []⟩, ⟨2, 4, .ro, .imm, 0, []⟩, ⟨6, 4, .ro, .imm, 0, []⟩]⟩,
    -- HOST_CQLOST (HO-12, R555)
    ⟨0x030208, 0x4, 1, 4, 1,
      [⟨0, 32, .ro, .imm, 0, []⟩]⟩,
    -- HOST_MBOX_IN (HO-12, R553)
    ⟨0x03020C, 0x4, 1, 4, 1,
      [⟨0, 32, .rw, .imm, 0, []⟩]⟩,
    -- HOST_MBOX_OUT (HO-12, R547)
    ⟨0x030210, 0x4, 1, 4, 1,
      [⟨0, 32, .ro, .imm, 0, []⟩]⟩,
    -- MSIX_TABLE (HO-9, R547)
    ⟨0x03F000, 0x4, 128, 4, 1,
      [⟨0, 32, .rw, .imm, 0, []⟩]⟩,
    -- MSIX_PBA (HO-9, R547)
    ⟨0x03F800, 0x4, 2, 4, 1,
      [⟨0, 32, .ro, .imm, 0, []⟩]⟩]

/-- The registers of block HOST. -/
def regsHOST : List RegDesc := regsHOST0 ++ regsHOST1

/-- Registers of block IN, part 0. -/
def regsIN0 : List RegDesc :=
  [
    -- IN_PORT_CFG (IN-4, R97)
    ⟨0x040000, 0x40, 2, 4, 1,
      [⟨0, 1, .rw, .imm, 0, []⟩, ⟨1, 2, .rw, .imm, 2, [(3, 3)]⟩, ⟨3, 8, .rw, .imm, 228, []⟩, ⟨11, 4, .rw, .imm, 0, []⟩, ⟨15, 1, .rw, .frm, 0, []⟩, ⟨16, 9, .rw, .imm, 107, []⟩]⟩,
    -- IN_PORT_STAT (IN-4, R108)
    ⟨0x040004, 0x40, 2, 4, 1,
      [⟨0, 1, .w1c, .imm, 0, []⟩, ⟨1, 1, .w1c, .imm, 0, []⟩, ⟨2, 1, .w1c, .imm, 0, []⟩, ⟨3, 1, .ro, .imm, 0, []⟩, ⟨4, 12, .ro, .imm, 0, []⟩, ⟨16, 16, .ro, .imm, 0, []⟩]⟩,
    -- IN_PORT_ERR (IN-4, R117)
    ⟨0x040008, 0x40, 2, 4, 1,
      [⟨0, 16, .ro, .imm, 0, []⟩, ⟨16, 16, .ro, .imm, 0, []⟩]⟩,
    -- IN_PORTA_SKEW (IN-4, R107)
    ⟨0x04000C, 0x4, 4, 4, 1,
      [⟨0, 8, .ro, .imm, 0, []⟩, ⟨8, 16, .ro, .imm, 0, []⟩]⟩,
    -- IN_PORTB_SKEW (IN-4, R107)
    ⟨0x04004C, 0x4, 4, 4, 1,
      [⟨0, 8, .ro, .imm, 0, []⟩, ⟨8, 16, .ro, .imm, 0, []⟩]⟩,
    -- IN_CTX (IN-5, R100)
    ⟨0x040100, 0x40, 8, 4, 1,
      [⟨0, 1, .rw, .frm, 0, []⟩, ⟨1, 1, .rw, .frm, 0, []⟩, ⟨2, 4, .rw, .frm, 0, []⟩, ⟨6, 6, .rw, .frm, 44, []⟩, ⟨12, 1, .rw, .frm, 0, []⟩, ⟨13, 2, .rw, .frm, 1, [(3, 3)]⟩, ⟨15, 3, .rw, .frm, 1, [(0, 0)]⟩, ⟨18, 14, .rw, .frm, 0, []⟩]⟩,
    -- IN_CTX_SIZE (IN-5, R99)
    ⟨0x040104, 0x40, 8, 4, 1,
      [⟨0, 14, .rw, .frm, 0, []⟩, ⟨16, 14, .rw, .frm, 0, []⟩]⟩,
    -- IN_CTX_BASE (IN-5, R104)
    ⟨0x040108, 0x40, 8, 4, 1,
      [⟨0, 32, .rw, .frm, 0, []⟩]⟩,
    -- IN_CTX_PITCH (IN-5, R104)
    ⟨0x04010C, 0x40, 8, 4, 1,
      [⟨0, 20, .rw, .frm, 0, []⟩]⟩,
    -- IN_CTX_BL0 (IN-5, R110)
    ⟨0x040110, 0x40, 8, 4, 1,
      [⟨0, 16, .rw, .frm, 0, []⟩, ⟨16, 16, .rw, .frm, 16384, []⟩]⟩,
    -- IN_CTX_BL1 (IN-5, R110)
    ⟨0x040114, 0x40, 8, 4, 1,
      [⟨0, 16, .rw, .frm, 0, []⟩, ⟨16, 16, .rw, .frm, 16384, []⟩]⟩,
    -- IN_CTX_BL2 (IN-5, R110)
    ⟨0x040118, 0x40, 8, 4, 1,
      [⟨0, 16, .rw, .frm, 0, []⟩, ⟨16, 16, .rw, .frm, 16384, []⟩]⟩,
    -- IN_CTX_BL3 (IN-5, R110)
    ⟨0x04011C, 0x40, 8, 4, 1,
      [⟨0, 16, .rw, .frm, 0, []⟩, ⟨16, 16, .rw, .frm, 16384, []⟩]⟩,
    -- IN_CTX_RELEASE (IN-5, R105)
    ⟨0x040120, 0x40, 8, 4, 1,
      [⟨0, 3, .wo, .imm, 0, []⟩]⟩,
    -- IN_CTX_STAT (IN-5, R104)
    ⟨0x040124, 0x40, 8, 4, 1,
      [⟨0, 8, .ro, .imm, 0, []⟩, ⟨8, 24, .ro, .imm, 0, []⟩]⟩,
    -- IN_CTX_CNT (IN-5, R105)
    ⟨0x040128, 0x40, 8, 4, 1,
      [⟨0, 16, .ro, .imm, 0, []⟩, ⟨16, 16, .ro, .imm, 0, []⟩]⟩]

/-- Registers of block IN, part 1. -/
def regsIN1 : List RegDesc :=
  [
    -- IN_CTX_FS (IN-5, R103)
    ⟨0x04012C, 0x40, 8, 4, 1,
      [⟨0, 32, .ro, .imm, 0, []⟩]⟩,
    -- IN_CTX_NOJOB (IN-5, R102)
    ⟨0x040130, 0x40, 8, 4, 1,
      [⟨0, 32, .ro, .imm, 0, []⟩]⟩,
    -- IN_DEF_CTRL (IN-6, R113)
    ⟨0x040400, 0x4, 1, 4, 1,
      [⟨0, 1, .wo, .frm, 0, []⟩, ⟨1, 3, .rw, .frm, 0, []⟩, ⟨4, 15, .rw, .frm, 0, []⟩, ⟨19, 1, .w1c, .imm, 0, []⟩, ⟨20, 2, .rw, .imm, 0, []⟩]⟩,
    -- IN_DEF_SKIP (IN-6, R111)
    ⟨0x040404, 0x4, 1, 4, 1,
      [⟨0, 32, .ro, .imm, 0, []⟩]⟩,
    -- IN_STAT_CFG (IN-6, R114)
    ⟨0x040410, 0x4, 1, 4, 1,
      [⟨0, 3, .rw, .frm, 0, []⟩, ⟨3, 5, .rw, .frm, 0, []⟩, ⟨8, 5, .rw, .frm, 0, []⟩, ⟨13, 16, .rw, .frm, 0, []⟩]⟩,
    -- IN_STAT_BASE (IN-6, R114)
    ⟨0x040414, 0x4, 1, 4, 1,
      [⟨0, 32, .rw, .frm, 0, []⟩]⟩,
    -- IN_TAP (IN-6, R115): a ring of 2 to 4 buffers. DESIGN CHOICE: the places of the fields (log entry 106)
    ⟨0x040420, 0x10, 2, 4, 1,
      [⟨0, 1, .rw, .frm, 0, []⟩, ⟨1, 3, .rw, .frm, 0, []⟩, ⟨4, 1, .rw, .frm, 0, []⟩,
        ⟨5, 3, .rw, .frm, 1, [(0, 0), (4, 7)]⟩]⟩,
    -- IN_TAP_BASE (IN-6, R115)
    ⟨0x040424, 0x10, 2, 4, 1,
      [⟨0, 32, .rw, .frm, 0, []⟩]⟩,
    -- IN_TAP_PITCH (IN-6, R115)
    ⟨0x040428, 0x10, 2, 4, 1,
      [⟨0, 20, .rw, .frm, 0, []⟩]⟩,
    -- IN_TAP_RELEASE (IN-6, R115)
    ⟨0x04042C, 0x10, 2, 4, 1,
      [⟨0, 3, .wo, .imm, 0, []⟩]⟩,
    -- IN_PROBE_CTRL (IN-6, R131)
    ⟨0x040900, 0x4, 1, 4, 1,
      [⟨0, 1, .wo, .imm, 0, []⟩, ⟨1, 1, .w1c, .imm, 0, []⟩, ⟨2, 1, .ro, .imm, 0, []⟩]⟩,
    -- IN_PROBE_CFG (IN-6, R131)
    ⟨0x040910, 0x8, 8, 4, 1,
      [⟨0, 32, .rw, .imm, 0, []⟩]⟩,
    -- IN_PROBE_RES (IN-6, R131)
    ⟨0x040914, 0x8, 8, 4, 1,
      [⟨0, 1, .ro, .imm, 0, []⟩, ⟨1, 1, .ro, .imm, 0, []⟩, ⟨16, 16, .ro, .imm, 0, []⟩]⟩,
    -- IN_TRIG (IN-6, R133)
    ⟨0x040A00, 0x10, 2, 4, 1,
      [⟨0, 1, .rw, .frm, 0, []⟩, ⟨1, 2, .rw, .frm, 0, []⟩, ⟨3, 1, .wo, .imm, 0, []⟩]⟩,
    -- IN_TRIG_DELAY (IN-6, R133). DESIGN CHOICE: a value above 1,000,000 is a reserved encoding (log entry 135)
    ⟨0x040A04, 0x10, 2, 4, 1,
      [⟨0, 32, .rw, .frm, 0, [(1000001, 4294967295)]⟩]⟩,
    -- IN_TRIG_WIDTH (IN-6, R133)
    ⟨0x040A08, 0x10, 2, 4, 1,
      [⟨0, 32, .rw, .frm, 0, []⟩]⟩]

/-- Registers of block IN, part 2. -/
def regsIN2 : List RegDesc :=
  [
    -- IN_SENS (IN-6, R134)
    ⟨0x040A20, 0x4, 1, 4, 1,
      [⟨0, 1, .rw, .imm, 0, []⟩]⟩,
    -- IN_I2C_CFG (IN-6, R126). DESIGN CHOICE: the places of the fields of CFG, CTRL and STAT (log entry 106)
    ⟨0x041000, 0x400, 2, 4, 1,
      [⟨0, 2, .rw, .imm, 0, [(3, 3)]⟩, ⟨2, 16, .rw, .imm, 0, []⟩]⟩,
    -- IN_I2C_CTRL (IN-6, R130)
    ⟨0x041004, 0x400, 2, 4, 1,
      [⟨0, 1, .wo, .imm, 0, []⟩, ⟨1, 1, .rw, .frm, 0, []⟩, ⟨2, 3, .rw, .frm, 0, []⟩, ⟨5, 14, .rw, .frm, 0, []⟩]⟩,
    -- IN_I2C_STAT (IN-6, R127)
    ⟨0x041008, 0x400, 2, 4, 1,
      [⟨0, 1, .w1c, .imm, 0, []⟩, ⟨1, 1, .w1c, .imm, 0, []⟩, ⟨2, 1, .w1c, .imm, 0, []⟩, ⟨3, 1, .w1c, .imm, 0, []⟩, ⟨4, 1, .w1c, .imm, 0, []⟩, ⟨5, 1, .w1c, .imm, 0, []⟩, ⟨6, 5, .ro, .imm, 0, []⟩]⟩,
    -- IN_I2C0_RDI (IN-6, R129)
    ⟨0x041080, 0x4, 32, 4, 1,
      [⟨0, 32, .ro, .imm, 0, []⟩]⟩,
    -- IN_I2C0_IMM (IN-6, R128)
    ⟨0x041100, 0x4, 64, 4, 1,
      [⟨0, 32, .rw, .imm, 0, []⟩]⟩,
    -- IN_I2C0_FRL (IN-6, R128)
    ⟨0x041200, 0x4, 64, 4, 1,
      [⟨0, 32, .rw, .imm, 0, []⟩]⟩,
    -- IN_I2C0_RDF (IN-6, R129)
    ⟨0x041300, 0x4, 32, 4, 1,
      [⟨0, 32, .ro, .imm, 0, []⟩]⟩,
    -- IN_I2C1_RDI (IN-6, R129)
    ⟨0x041480, 0x4, 32, 4, 1,
      [⟨0, 32, .ro, .imm, 0, []⟩]⟩,
    -- IN_I2C1_IMM (IN-6, R128)
    ⟨0x041500, 0x4, 64, 4, 1,
      [⟨0, 32, .rw, .imm, 0, []⟩]⟩,
    -- IN_I2C1_FRL (IN-6, R128)
    ⟨0x041600, 0x4, 64, 4, 1,
      [⟨0, 32, .rw, .imm, 0, []⟩]⟩,
    -- IN_I2C1_RDF (IN-6, R129)
    ⟨0x041700, 0x4, 32, 4, 1,
      [⟨0, 32, .ro, .imm, 0, []⟩]⟩]

/-- The registers of block IN. -/
def regsIN : List RegDesc := regsIN0 ++ regsIN1 ++ regsIN2

/-- Registers of block OF, part 0. -/
def regsOF0 : List RegDesc :=
  [
    -- OF_CFG (OF-5, R361)
    ⟨0x050100, 0x80, 6, 4, 1,
      [⟨0, 1, .rw, .frm, 0, []⟩, ⟨1, 3, .rw, .frm, 0, []⟩, ⟨4, 1, .rw, .frm, 0, []⟩, ⟨5, 3, .rw, .frm, 0, [(5, 7)]⟩, ⟨8, 2, .rw, .frm, 0, []⟩, ⟨10, 1, .rw, .frm, 0, []⟩, ⟨11, 2, .rw, .frm, 0, []⟩, ⟨13, 3, .rw, .frm, 0, [(5, 7)]⟩, ⟨16, 3, .rw, .frm, 1, [(0, 0)]⟩]⟩,
    -- OF_CROP_XY (OF-5, R363)
    ⟨0x050104, 0x80, 6, 4, 1,
      [⟨0, 14, .rw, .frm, 0, []⟩, ⟨16, 14, .rw, .frm, 0, []⟩]⟩,
    -- OF_CROP_WH (OF-5, R363)
    ⟨0x050108, 0x80, 6, 4, 1,
      [⟨0, 14, .rw, .frm, 0, []⟩, ⟨16, 14, .rw, .frm, 0, []⟩]⟩,
    -- OF_OUT_WH (OF-5, R363)
    ⟨0x05010C, 0x80, 6, 4, 1,
      [⟨0, 14, .rw, .frm, 0, []⟩, ⟨16, 14, .rw, .frm, 0, []⟩]⟩,
    -- OF_BASE (OF-5, R368)
    ⟨0x050110, 0x80, 6, 4, 1,
      [⟨0, 32, .rw, .frm, 0, []⟩]⟩,
    -- OF_PITCH (OF-5, R368)
    ⟨0x050114, 0x80, 6, 4, 1,
      [⟨0, 20, .rw, .frm, 0, []⟩]⟩,
    -- OF_FILL (OF-5, R375)
    ⟨0x050118, 0x80, 6, 4, 1,
      [⟨0, 10, .rw, .frm, 0, []⟩, ⟨10, 10, .rw, .frm, 0, []⟩, ⟨20, 10, .rw, .frm, 0, []⟩]⟩,
    -- OF_OFFSET (OF-5, R371)
    ⟨0x05011C, 0x80, 6, 4, 1,
      [⟨0, 32, .rw, .frm, 0, []⟩]⟩,
    -- OF_LINE (OF-5, R371)
    ⟨0x050120, 0x80, 6, 4, 1,
      [⟨0, 24, .rw, .frm, 0, []⟩]⟩,
    -- OF_MEMSRC (OF-5, R385)
    ⟨0x050124, 0x80, 6, 4, 1,
      [⟨0, 32, .rw, .frm, 0, []⟩]⟩,
    -- OF_MEMPITCH (OF-5, R385)
    ⟨0x050128, 0x80, 6, 4, 1,
      [⟨0, 20, .rw, .frm, 0, []⟩]⟩,
    -- OF_CTRL (OF-5, R385)
    ⟨0x05012C, 0x80, 6, 4, 1,
      [⟨0, 1, .wo, .imm, 0, []⟩, ⟨1, 1, .wo, .imm, 0, []⟩, ⟨2, 3, .wo, .imm, 0, []⟩]⟩,
    -- OF_STAT (OF-5, R363)
    ⟨0x050130, 0x80, 6, 4, 1,
      [⟨0, 1, .w1c, .imm, 0, []⟩, ⟨1, 1, .w1c, .imm, 0, []⟩, ⟨2, 6, .ro, .imm, 0, []⟩, ⟨8, 24, .ro, .imm, 0, []⟩]⟩,
    -- OF_CNT (OF-5, R377)
    ⟨0x050134, 0x80, 6, 4, 1,
      [⟨0, 8, .ro, .imm, 0, []⟩, ⟨8, 8, .ro, .imm, 0, []⟩, ⟨16, 16, .ro, .imm, 0, []⟩]⟩,
    -- OF_CLIP (OF-5, R367)
    ⟨0x050138, 0x80, 6, 4, 1,
      [⟨0, 32, .ro, .imm, 0, []⟩]⟩,
    -- OF_ACT (OF-5, R384)
    ⟨0x05013C, 0x80, 6, 4, 1,
      [⟨0, 19, .ro, .imm, 0, []⟩]⟩]

/-- Registers of block OF, part 1. -/
def regsOF1 : List RegDesc :=
  [
    -- OF_TX_CFG (OF-6, R381)
    ⟨0x050800, 0x4, 1, 4, 1,
      [⟨0, 1, .rw, .imm, 0, []⟩, ⟨1, 2, .rw, .imm, 0, [(3, 3)]⟩, ⟨3, 8, .rw, .imm, 0, []⟩, ⟨11, 4, .rw, .imm, 0, []⟩, ⟨15, 1, .rw, .imm, 0, []⟩, ⟨16, 8, .rw, .imm, 0, []⟩]⟩,
    -- OF_TX_RATE (OF-6, R381)
    ⟨0x050804, 0x4, 1, 4, 1,
      [⟨0, 13, .rw, .imm, 0, [(0, 79), (4501, 8191)]⟩]⟩,
    -- OF_TX_HS (OF-6, R381)
    ⟨0x050808, 0x4, 1, 4, 1,
      [⟨0, 16, .rw, .imm, 150, []⟩, ⟨16, 16, .rw, .imm, 100, []⟩]⟩,
    -- OF_TX_SENSE (OF-6, R381)
    ⟨0x05080C, 0x4, 1, 4, 1,
      [⟨0, 1, .wo, .imm, 0, []⟩, ⟨1, 1, .ro, .imm, 0, []⟩, ⟨2, 10, .ro, .imm, 0, []⟩]⟩,
    -- OF_TX_STAT (OF-6, R381)
    ⟨0x050810, 0x4, 1, 4, 1,
      [⟨0, 1, .w1c, .imm, 0, []⟩, ⟨1, 1, .w1c, .imm, 0, []⟩, ⟨2, 1, .ro, .imm, 0, []⟩, ⟨16, 16, .ro, .imm, 0, []⟩]⟩,
    -- OF_TAP (OF-6, R382)
    ⟨0x050940, 0x20, 2, 4, 1,
      [⟨0, 1, .rw, .frm, 0, []⟩, ⟨1, 3, .rw, .frm, 0, []⟩, ⟨4, 3, .rw, .frm, 1, [(0, 0), (4, 7)]⟩]⟩,
    -- OF_TAP_BASE (OF-6, R382)
    ⟨0x050944, 0x20, 2, 4, 1,
      [⟨0, 32, .rw, .frm, 0, []⟩]⟩,
    -- OF_TAP_PITCH (OF-6, R382)
    ⟨0x050948, 0x20, 2, 4, 1,
      [⟨0, 20, .rw, .frm, 0, []⟩]⟩,
    -- OF_TAP_RELEASE (OF-6, R382)
    ⟨0x05094C, 0x20, 2, 4, 1,
      [⟨0, 3, .wo, .imm, 0, []⟩]⟩,
    -- OF_TAP_DROPS (OF-6, R382)
    ⟨0x050950, 0x20, 2, 4, 1,
      [⟨0, 32, .ro, .imm, 0, []⟩]⟩,
    -- OF_COEF0 (OF-5, R365)
    ⟨0x054000, 0x4, 512, 4, 1,
      [⟨0, 12, .rw, .frm, 0, []⟩, ⟨16, 12, .rw, .frm, 0, []⟩]⟩,
    -- OF_COEF1 (OF-5, R365)
    ⟨0x054800, 0x4, 512, 4, 1,
      [⟨0, 12, .rw, .frm, 0, []⟩, ⟨16, 12, .rw, .frm, 0, []⟩]⟩,
    -- OF_COEF2 (OF-5, R365)
    ⟨0x055000, 0x4, 512, 4, 1,
      [⟨0, 12, .rw, .frm, 0, []⟩, ⟨16, 12, .rw, .frm, 0, []⟩]⟩,
    -- OF_COEF3 (OF-5, R365)
    ⟨0x055800, 0x4, 512, 4, 1,
      [⟨0, 12, .rw, .frm, 0, []⟩, ⟨16, 12, .rw, .frm, 0, []⟩]⟩,
    -- OF_COEF4 (OF-5, R365)
    ⟨0x056000, 0x4, 512, 4, 1,
      [⟨0, 12, .rw, .frm, 0, []⟩, ⟨16, 12, .rw, .frm, 0, []⟩]⟩,
    -- OF_COEF5 (OF-5, R365)
    ⟨0x056800, 0x4, 512, 4, 1,
      [⟨0, 12, .rw, .frm, 0, []⟩, ⟨16, 12, .rw, .frm, 0, []⟩]⟩]

/-- The registers of block OF. -/
def regsOF : List RegDesc := regsOF0 ++ regsOF1

/-- Registers of block EDGE, part 0. -/
def regsEDGE0 : List RegDesc :=
  [
    -- EDGE_STATUS (MP-6, R321)
    ⟨0x060000, 0x4, 1, 4, 1,
      [⟨0, 1, .ro, .imm, 0, []⟩, ⟨1, 1, .ro, .imm, 0, []⟩, ⟨2, 4, .ro, .imm, 0, []⟩]⟩,
    -- EDGE_LOAD (MP-6, R321)
    ⟨0x060004, 0x4, 1, 4, 1,
      [⟨0, 10, .ro, .imm, 0, []⟩]⟩,
    -- EDGE_MEM (MP-6, R316)
    ⟨0x060008, 0x4, 1, 4, 1,
      [⟨0, 13, .ro, .imm, 4096, []⟩, ⟨16, 9, .ro, .imm, 128, []⟩]⟩,
    -- EDGE_SAT (MP-6, R317)
    ⟨0x06000C, 0x4, 1, 4, 1,
      [⟨0, 32, .ro, .imm, 0, []⟩]⟩,
    -- EDGE_DET_DROP (MP-6, R324)
    ⟨0x060010, 0x4, 1, 4, 1,
      [⟨0, 32, .ro, .imm, 0, []⟩]⟩,
    -- EDGE_CTRL (MP-6, R317)
    ⟨0x060014, 0x4, 1, 4, 1,
      [⟨0, 1, .wo, .imm, 0, []⟩]⟩]

/-- The registers of block EDGE. -/
def regsEDGE : List RegDesc := regsEDGE0

/-- Registers of block COF, part 0. -/
def regsCOF0 : List RegDesc :=
  [
    -- COF_CTRL (CE-7, R433)
    ⟨0x070000, 0x4, 1, 4, 1,
      [⟨0, 1, .wo, .imm, 0, []⟩, ⟨1, 1, .wo, .imm, 0, []⟩, ⟨2, 1, .wo, .imm, 0, []⟩]⟩,
    -- COF_STATUS (CE-7, R429)
    ⟨0x070004, 0x4, 1, 4, 1,
      [⟨0, 1, .ro, .imm, 0, []⟩, ⟨1, 1, .ro, .imm, 0, []⟩, ⟨2, 5, .ro, .imm, 0, []⟩, ⟨7, 12, .ro, .imm, 0, []⟩]⟩,
    -- COF_STICKY (CE-7, R411)
    ⟨0x070008, 0x4, 1, 4, 1,
      [⟨0, 1, .w1c, .imm, 0, []⟩, ⟨1, 1, .w1c, .imm, 0, []⟩, ⟨2, 1, .w1c, .imm, 0, []⟩, ⟨3, 1, .w1c, .imm, 0, []⟩, ⟨4, 1, .w1c, .imm, 0, []⟩]⟩,
    -- COF_KBASE (CE-7, R417)
    ⟨0x07000C, 0x4, 1, 4, 1,
      [⟨0, 32, .rwl, .boot, 0, []⟩]⟩,
    -- COF_KS (CE-7, R436)
    ⟨0x070010, 0x4, 1, 4, 1,
      [⟨0, 4, .ro, .imm, 0, []⟩, ⟨4, 4, .ro, .imm, 0, []⟩]⟩,
    -- COF_PASSES (CE-7, R421)
    ⟨0x070014, 0x4, 1, 4, 1,
      [⟨0, 32, .ro, .imm, 0, []⟩]⟩,
    -- COF_STALL (CE-7, R428)
    ⟨0x070018, 0x4, 1, 4, 1,
      [⟨0, 32, .ro, .imm, 0, []⟩]⟩,
    -- COF_CE (CE-7, R437)
    ⟨0x07001C, 0x4, 1, 4, 1,
      [⟨0, 32, .ro, .imm, 0, []⟩]⟩,
    -- COF_LOCKED (CE-7, R432)
    ⟨0x070020, 0x4, 1, 4, 1,
      [⟨0, 32, .ro, .imm, 0, []⟩]⟩]

/-- The registers of block COF. -/
def regsCOF : List RegDesc := regsCOF0

/-- Registers of block FLT, part 0. -/
def regsFLT0 : List RegDesc :=
  [
    -- FLT_STATUS (PC-7, R478)
    ⟨0x080000, 0x4, 1, 4, 1,
      [⟨0, 6, .ro, .imm, 0, []⟩, ⟨6, 1, .ro, .imm, 0, []⟩]⟩,
    -- FLT_RING_CFG (PC-7, R479)
    ⟨0x080004, 0x4, 1, 4, 1,
      [⟨0, 1, .rw, .imm, 0, []⟩, ⟨1, 4, .rw, .imm, 6, [(0, 5)]⟩]⟩,
    -- FLT_RING_BASE (PC-7, R479)
    ⟨0x080008, 0x4, 1, 4, 1,
      [⟨0, 32, .rw, .imm, 0, []⟩]⟩,
    -- FLT_RING_HEAD (PC-7, R479)
    ⟨0x08000C, 0x4, 1, 4, 1,
      [⟨0, 16, .ro, .imm, 0, []⟩]⟩,
    -- FLT_RING_TAIL (PC-7, R479)
    ⟨0x080010, 0x4, 1, 4, 1,
      [⟨0, 16, .rw, .imm, 0, []⟩]⟩,
    -- FLT_LOST (PC-7, R479)
    ⟨0x080014, 0x4, 1, 4, 1,
      [⟨0, 32, .ro, .imm, 0, []⟩]⟩,
    -- FLT_MCFG (PC-7, R482)
    ⟨0x080018, 0x4, 1, 4, 1,
      [⟨0, 4, .rw, .imm, 3, [(0, 0)]⟩, ⟨4, 10, .rw, .imm, 1000, []⟩, ⟨14, 3, .rw, .imm, 4, [(5, 7)]⟩, ⟨17, 8, .rw, .imm, 25, []⟩, ⟨25, 7, .rw, .imm, 8, []⟩]⟩,
    -- FLT_MCFG2 (PC-7, R486)
    ⟨0x08001C, 0x4, 1, 4, 1,
      [⟨0, 8, .rw, .imm, 50, []⟩, ⟨8, 5, .rw, .imm, 2, []⟩]⟩,
    -- FLT_CORE (PC-7, R483)
    ⟨0x080020, 0x4, 8, 4, 1,
      [⟨0, 3, .ro, .imm, 0, []⟩, ⟨3, 4, .ro, .imm, 0, []⟩, ⟨7, 1, .ro, .imm, 0, []⟩, ⟨8, 1, .wo, .imm, 0, []⟩, ⟨9, 1, .wo, .imm, 0, []⟩]⟩,
    -- FLT_FOREEV (PC-7, R482)
    ⟨0x080040, 0x4, 1, 4, 1,
      [⟨0, 32, .ro, .imm, 0, []⟩]⟩,
    -- FLT_SAVE (PC-7, R488)
    ⟨0x080044, 0x4, 1, 4, 1,
      [⟨0, 32, .rwl, .boot, 0, []⟩]⟩,
    -- FLT_TCFG (PC-7, R491)
    ⟨0x080048, 0x4, 1, 4, 1,
      [⟨0, 16, .rw, .imm, 0, []⟩, ⟨16, 8, .rw, .imm, 20, []⟩, ⟨24, 3, .rw, .imm, 1, [(0, 0)]⟩]⟩,
    -- FLT_TCFG2 (PC-7, R493)
    ⟨0x08004C, 0x4, 1, 4, 1,
      [⟨0, 16, .rw, .imm, 100, []⟩]⟩,
    -- FLT_TSTAT (PC-7, R493)
    ⟨0x080050, 0x4, 1, 4, 1,
      [⟨0, 24, .ro, .imm, 0, []⟩, ⟨24, 1, .ro, .imm, 0, []⟩, ⟨25, 1, .w1c, .imm, 0, []⟩]⟩,
    -- FLT_TRES_SEL (PC-7, R496)
    ⟨0x080054, 0x4, 1, 4, 1,
      [⟨0, 4, .rw, .imm, 0, []⟩, ⟨4, 6, .rw, .imm, 0, []⟩]⟩,
    -- FLT_TRES (PC-7, R496)
    ⟨0x080058, 0x4, 1, 4, 1,
      [⟨0, 8, .ro, .imm, 0, []⟩, ⟨8, 8, .ro, .imm, 0, []⟩]⟩]

/-- Registers of block FLT, part 1. -/
def regsFLT1 : List RegDesc :=
  [
    -- FLT_AON (PC-7, R478)
    ⟨0x080800, 0x4, 512, 4, 1,
      [⟨0, 32, .ro, .imm, 0, []⟩]⟩]

/-- The registers of block FLT. -/
def regsFLT : List RegDesc := regsFLT0 ++ regsFLT1

/-- Registers of block SEC, part 0. -/
def regsSEC0 : List RegDesc :=
  [
    -- SEC_STATUS (BS-14, R610)
    ⟨0x090000, 0x4, 1, 4, 1,
      [⟨0, 1, .ro, .imm, 0, []⟩, ⟨1, 1, .ro, .imm, 0, []⟩, ⟨2, 1, .ro, .imm, 0, []⟩, ⟨3, 1, .ro, .imm, 0, []⟩, ⟨4, 1, .ro, .imm, 0, []⟩, ⟨5, 1, .ro, .imm, 0, []⟩, ⟨6, 1, .ro, .imm, 0, []⟩, ⟨7, 1, .ro, .imm, 0, []⟩, ⟨8, 2, .ro, .imm, 0, []⟩]⟩,
    -- SEC_BOOT (BS-14, R590)
    ⟨0x090004, 0x4, 1, 4, 1,
      [⟨0, 4, .ro, .imm, 0, []⟩, ⟨4, 8, .ro, .imm, 0, []⟩, ⟨12, 3, .ro, .imm, 0, []⟩, ⟨15, 1, .ro, .imm, 0, []⟩, ⟨16, 1, .ro, .imm, 0, []⟩, ⟨17, 1, .w1c, .imm, 0, []⟩, ⟨18, 8, .ro, .imm, 0, []⟩, ⟨26, 1, .w1c, .imm, 0, []⟩]⟩,
    -- SEC_RESET (BS-14, R587)
    ⟨0x090008, 0x4, 1, 4, 1,
      [⟨0, 1, .wo, .imm, 0, []⟩, ⟨1, 1, .wo, .imm, 0, []⟩]⟩,
    -- SEC_WDOG (BS-14, R589)
    ⟨0x09000C, 0x4, 1, 4, 1,
      [⟨0, 16, .rw, .imm, 1000, []⟩, ⟨16, 1, .wo, .imm, 0, []⟩]⟩,
    -- SEC_TAMPER_CFG (BS-14, R607)
    ⟨0x090010, 0x4, 1, 4, 1,
      [⟨0, 7, .rwl, .imm, 127, []⟩, ⟨7, 2, .rwl, .imm, 2, [(0, 0)]⟩, ⟨9, 8, .rwl, .imm, 10, []⟩, ⟨31, 1, .w1s, .imm, 0, []⟩]⟩,
    -- SEC_TAMPER_STAT (BS-14, R607)
    ⟨0x090014, 0x4, 1, 4, 1,
      [⟨0, 7, .ro, .imm, 0, []⟩, ⟨8, 8, .ro, .imm, 0, []⟩]⟩,
    -- SEC_TAMPER_T_LO (BS-14, R607)
    ⟨0x090018, 0x4, 1, 4, 1,
      [⟨0, 32, .ro, .imm, 0, []⟩]⟩,
    -- SEC_TAMPER_T_HI (BS-14, R607)
    ⟨0x09001C, 0x4, 1, 4, 1,
      [⟨0, 32, .ro, .imm, 0, []⟩]⟩,
    -- SEC_ARB (BS-14, R604)
    ⟨0x090020, 0x4, 1, 4, 1,
      [⟨0, 7, .ro, .imm, 0, []⟩, ⟨8, 7, .ro, .imm, 0, []⟩, ⟨16, 5, .ro, .imm, 0, []⟩]⟩,
    -- SEC_DEVPUB (BS-14, R605)
    ⟨0x090030, 0x4, 24, 4, 1,
      [⟨0, 32, .ro, .imm, 0, []⟩]⟩,
    -- SEC_DEVID_LO (BS-14, R605)
    ⟨0x090090, 0x4, 1, 4, 1,
      [⟨0, 32, .ro, .imm, 0, []⟩]⟩,
    -- SEC_DEVID_HI (BS-14, R605)
    ⟨0x090094, 0x4, 1, 4, 1,
      [⟨0, 32, .ro, .imm, 0, []⟩]⟩,
    -- SEC_NONCE (BS-14, R611)
    ⟨0x090098, 0x4, 4, 4, 1,
      [⟨0, 32, .ro, .imm, 0, []⟩]⟩,
    -- SEC_HOLDUP_C (BS-14, R624)
    ⟨0x0900A8, 0x4, 1, 4, 1,
      [⟨0, 16, .ro, .imm, 0, []⟩]⟩,
    -- SEC_HOLDUP_V (BS-14, R624)
    ⟨0x0900AC, 0x4, 1, 4, 1,
      [⟨0, 16, .ro, .imm, 0, []⟩, ⟨16, 16, .ro, .imm, 0, []⟩]⟩,
    -- SEC_TOKEN_CTRL (BS-14, R612)
    ⟨0x0900B0, 0x4, 1, 4, 1,
      [⟨0, 1, .wo, .imm, 0, []⟩, ⟨1, 1, .ro, .imm, 0, []⟩, ⟨2, 1, .ro, .imm, 0, []⟩, ⟨3, 1, .w1c, .imm, 0, []⟩]⟩]

/-- Registers of block SEC, part 1. -/
def regsSEC1 : List RegDesc :=
  [
    -- SEC_STAGE_LEN (BS-14, R595)
    ⟨0x0900B4, 0x4, 1, 4, 1,
      [⟨0, 19, .wo, .imm, 0, []⟩]⟩,
    -- SEC_FUSEPROG (BS-14, R602)
    ⟨0x0900B8, 0x4, 1, 4, 1,
      [⟨0, 4, .wo, .imm, 0, []⟩, ⟨8, 8, .wo, .imm, 0, []⟩]⟩,
    -- SEC_FUSEDATA (BS-14, R602)
    ⟨0x0900BC, 0x4, 1, 4, 1,
      [⟨0, 32, .wo, .imm, 0, []⟩]⟩,
    -- SEC_TOKEN (BS-14, R612)
    ⟨0x090100, 0x4, 128, 4, 1,
      [⟨0, 32, .wo, .imm, 0, []⟩]⟩]

/-- The registers of block SEC. -/
def regsSEC : List RegDesc := regsSEC0 ++ regsSEC1

/-- Registers of block TRC, part 0. -/
def regsTRC0 : List RegDesc :=
  [
    -- TRC_CTRL (PW-10, R583)
    ⟨0x0A0000, 0x4, 1, 4, 1,
      [⟨0, 1, .rw, .imm, 0, []⟩, ⟨1, 1, .rw, .imm, 0, []⟩, ⟨2, 8, .rw, .imm, 16, [(0, 0)]⟩, ⟨10, 1, .wo, .imm, 0, []⟩]⟩,
    -- TRC_BASE (PW-10, R583)
    ⟨0x0A0004, 0x4, 1, 4, 1,
      [⟨0, 32, .rw, .imm, 0, []⟩]⟩,
    -- TRC_SIZE (PW-10, R583)
    ⟨0x0A0008, 0x4, 1, 4, 1,
      [⟨0, 5, .rw, .imm, 16, [(0, 15), (31, 31)]⟩]⟩,
    -- TRC_HEAD (PW-10, R583)
    ⟨0x0A000C, 0x4, 1, 4, 1,
      [⟨0, 30, .ro, .imm, 0, []⟩]⟩,
    -- TRC_TAIL (PW-10, R583)
    ⟨0x0A0010, 0x4, 1, 4, 1,
      [⟨0, 30, .rw, .imm, 0, []⟩]⟩,
    -- TRC_STATUS (PW-10, R583)
    ⟨0x0A0014, 0x4, 1, 4, 1,
      [⟨0, 1, .ro, .imm, 0, []⟩, ⟨1, 1, .w1c, .imm, 0, []⟩]⟩,
    -- TRC_CORE_EN (PW-10, R582)
    ⟨0x0A0020, 0x4, 8, 4, 1,
      [⟨0, 7, .rw, .imm, 127, []⟩]⟩]

/-- The registers of block TRC. -/
def regsTRC : List RegDesc := regsTRC0

/-- Registers of block LNK, part 0. -/
def regsLNK0 : List RegDesc :=
  [
    -- LNK_CFG (SL-9, R506)
    ⟨0x0B0000, 0x4, 1, 4, 1,
      [⟨0, 3, .rw, .imm, 0, []⟩, ⟨3, 2, .rw, .imm, 0, [(3, 3)]⟩, ⟨5, 1, .rw, .imm, 0, []⟩, ⟨6, 1, .rw, .imm, 0, []⟩, ⟨7, 1, .w1c, .imm, 0, []⟩]⟩,
    -- LNK_ROUTE (SL-9, R507)
    ⟨0x0B0004, 0x4, 1, 4, 1,
      [⟨0, 16, .rw, .imm, 0, []⟩]⟩,
    -- LNK_CTRL (SL-9, R503)
    ⟨0x0B0010, 0x40, 2, 4, 1,
      [⟨0, 1, .wo, .imm, 0, []⟩, ⟨1, 3, .rw, .imm, 3, []⟩, ⟨4, 8, .rw, .imm, 5, []⟩]⟩,
    -- LNK_STAT (SL-9, R503)
    ⟨0x0B0014, 0x40, 2, 4, 1,
      [⟨0, 1, .ro, .imm, 0, []⟩, ⟨1, 1, .ro, .imm, 0, []⟩, ⟨2, 1, .ro, .imm, 0, []⟩, ⟨3, 1, .ro, .imm, 0, []⟩, ⟨4, 1, .w1c, .imm, 0, []⟩, ⟨5, 1, .w1c, .imm, 0, []⟩, ⟨6, 1, .ro, .imm, 0, []⟩, ⟨7, 3, .ro, .imm, 0, []⟩, ⟨10, 8, .ro, .imm, 0, []⟩]⟩,
    -- LNK_LOSS (SL-9, R505)
    ⟨0x0B0018, 0x40, 2, 4, 1,
      [⟨0, 32, .ro, .imm, 0, []⟩]⟩,
    -- LNK_CAP0 (SL-9, R504)
    ⟨0x0B001C, 0x40, 2, 4, 1,
      [⟨0, 32, .ro, .imm, 0, []⟩]⟩,
    -- LNK_CAP1 (SL-9, R504)
    ⟨0x0B0020, 0x40, 2, 4, 1,
      [⟨0, 32, .ro, .imm, 0, []⟩]⟩,
    -- LNK_RETRY (SL-9, R501)
    ⟨0x0B0024, 0x40, 2, 4, 1,
      [⟨0, 32, .ro, .imm, 0, []⟩]⟩,
    -- LNK_TIME (SL-9, R518)
    ⟨0x0B0100, 0x4, 1, 4, 1,
      [⟨0, 1, .ro, .imm, 0, []⟩, ⟨1, 1, .w1c, .imm, 0, []⟩, ⟨2, 1, .w1c, .imm, 0, []⟩, ⟨3, 1, .ro, .imm, 0, []⟩, ⟨16, 16, .ro, .imm, 0, []⟩]⟩,
    -- LNK_TDELAY (SL-9, R518)
    ⟨0x0B0104, 0x4, 1, 4, 1,
      [⟨0, 16, .ro, .imm, 0, []⟩]⟩,
    -- LNK_DENY (SL-9, R512)
    ⟨0x0B0108, 0x4, 1, 4, 1,
      [⟨0, 32, .ro, .imm, 0, []⟩]⟩,
    -- LNK_RGRANT_FIRST (SL-9, R522)
    ⟨0x0B0110, 0x8, 2, 4, 1,
      [⟨0, 21, .rw, .imm, 0, []⟩]⟩,
    -- LNK_RGRANT_LAST (SL-9, R522)
    ⟨0x0B0114, 0x8, 2, 4, 1,
      [⟨0, 21, .rw, .imm, 0, []⟩]⟩,
    -- LNK_IW (SL-9, R511)
    ⟨0x0B0400, 0x4, 128, 4, 1,
      [⟨0, 32, .ro, .imm, 0, []⟩]⟩,
    -- LNK_OB (SL-9, R514)
    ⟨0x0B0600, 0x8, 32, 4, 1,
      [⟨0, 3, .ro, .imm, 0, []⟩, ⟨3, 5, .ro, .imm, 0, []⟩, ⟨8, 1, .ro, .imm, 0, []⟩, ⟨16, 16, .ro, .imm, 0, []⟩]⟩,
    -- LNK_OB_JOB (SL-9, R514)
    ⟨0x0B0604, 0x8, 32, 4, 1,
      [⟨0, 12, .ro, .imm, 0, []⟩]⟩]

/-- The registers of block LNK. -/
def regsLNK : List RegDesc := regsLNK0

/-- Registers of block STO, part 0. -/
def regsSTO0 : List RegDesc :=
  [
    -- STO_STATUS (PS-7, R616)
    ⟨0x0D0000, 0x4, 1, 4, 1,
      [⟨0, 1, .ro, .imm, 0, []⟩, ⟨1, 1, .ro, .imm, 0, []⟩, ⟨2, 1, .ro, .imm, 0, []⟩, ⟨3, 1, .ro, .imm, 0, []⟩, ⟨4, 1, .ro, .imm, 0, []⟩, ⟨5, 1, .w1c, .imm, 0, []⟩, ⟨6, 1, .w1c, .imm, 0, []⟩, ⟨7, 7, .ro, .imm, 64, []⟩]⟩,
    -- STO_CFG (PS-7, R623)
    ⟨0x0D0004, 0x4, 1, 4, 1,
      [⟨0, 17, .rwl, .imm, 100000, []⟩, ⟨17, 4, .rwl, .imm, 4, []⟩, ⟨21, 1, .rwl, .imm, 0, []⟩, ⟨31, 1, .w1s, .imm, 0, []⟩]⟩,
    -- STO_HOLD (PS-7, R624)
    ⟨0x0D0008, 0x4, 1, 4, 1,
      [⟨0, 12, .rwl, .imm, 1000, []⟩, ⟨12, 12, .rwl, .imm, 2000, []⟩]⟩,
    -- STO_TPROG (PS-7, R624)
    ⟨0x0D000C, 0x4, 1, 4, 1,
      [⟨0, 16, .rwl, .imm, 3000, []⟩]⟩,
    -- STO_PFAIL (PS-7, R627)
    ⟨0x0D0010, 0x4, 1, 4, 1,
      [⟨0, 16, .rwl, .imm, 0, []⟩]⟩,
    -- STO_ENERGY (PS-7, R624)
    ⟨0x0D0014, 0x4, 1, 4, 1,
      [⟨0, 16, .ro, .imm, 0, []⟩, ⟨16, 16, .ro, .imm, 0, []⟩]⟩,
    -- STO_SECTORS (PS-7, R616)
    ⟨0x0D0018, 0x4, 1, 4, 1,
      [⟨0, 13, .ro, .imm, 0, []⟩]⟩,
    -- STO_MAXERASE (PS-7, R623)
    ⟨0x0D001C, 0x4, 1, 4, 1,
      [⟨0, 17, .ro, .imm, 0, []⟩]⟩,
    -- STO_LOAD (PS-7, R622)
    ⟨0x0D0020, 0x4, 1, 4, 1,
      [⟨0, 8, .ro, .imm, 0, []⟩, ⟨8, 8, .ro, .imm, 0, []⟩]⟩]

/-- The registers of block STO. -/
def regsSTO : List RegDesc := regsSTO0

/-- Registers of block BRG, part 0. -/
def regsBRG0 : List RegDesc :=
  [
    -- BRG_CTRL (TH-10, R50)
    ⟨0x0E0000, 0x4, 1, 4, 1,
      [⟨0, 1, .wo, .imm, 0, []⟩, ⟨1, 3, .rw, .imm, 3, []⟩, ⟨4, 8, .rw, .imm, 16, []⟩, ⟨12, 1, .wo, .imm, 0, []⟩]⟩,
    -- BRG_STATUS (TH-11, R51)
    ⟨0x0E0004, 0x4, 1, 4, 1,
      [⟨0, 1, .ro, .imm, 0, []⟩, ⟨1, 1, .ro, .imm, 0, []⟩, ⟨2, 1, .ro, .imm, 0, []⟩, ⟨3, 1, .ro, .imm, 0, []⟩, ⟨4, 2, .ro, .imm, 2, []⟩, ⟨6, 2, .ro, .imm, 2, []⟩, ⟨8, 8, .ro, .imm, 0, []⟩, ⟨16, 8, .ro, .imm, 0, []⟩]⟩,
    -- BRG_BAD_F2A0 (TH-12, R52)
    ⟨0x0E0008, 0x4, 1, 4, 1,
      [⟨0, 32, .ro, .imm, 0, []⟩]⟩,
    -- BRG_BAD_F2A1 (TH-12, R52)
    ⟨0x0E000C, 0x4, 1, 4, 1,
      [⟨0, 18, .ro, .imm, 0, []⟩]⟩,
    -- BRG_BAD_A2F0 (TH-12, R52)
    ⟨0x0E0010, 0x4, 1, 4, 1,
      [⟨0, 32, .ro, .imm, 0, []⟩]⟩,
    -- BRG_BAD_A2F1 (TH-12, R52)
    ⟨0x0E0014, 0x4, 1, 4, 1,
      [⟨0, 18, .ro, .imm, 0, []⟩]⟩,
    -- BRG_RETRY (TH-12, R42)
    ⟨0x0E0018, 0x4, 1, 4, 1,
      [⟨0, 32, .ro, .imm, 0, []⟩]⟩,
    -- BRG_ERRCNT (TH-12, R40)
    ⟨0x0E001C, 0x4, 1, 4, 1,
      [⟨0, 32, .ro, .imm, 0, []⟩]⟩,
    -- BRG_LMAP (TH-12, R53)
    ⟨0x0E0020, 0x4, 1, 4, 1,
      [⟨0, 6, .rw, .imm, 0, []⟩, ⟨6, 1, .rw, .imm, 0, []⟩, ⟨8, 6, .ro, .imm, 0, []⟩]⟩]

/-- The registers of block BRG. -/
def regsBRG : List RegDesc := regsBRG0

/-- Registers of block CORE, part 0. -/
def regsCORE0 : List RegDesc :=
  [
    -- CORE_CTRL (CO-5, R146)
    ⟨0x100000, 0x10000, 8, 4, 1,
      [⟨0, 1, .wo, .imm, 0, []⟩, ⟨1, 1, .wo, .imm, 0, []⟩, ⟨2, 1, .wo, .imm, 0, []⟩, ⟨3, 1, .wo, .imm, 0, []⟩, ⟨4, 1, .wo, .imm, 0, []⟩, ⟨5, 1, .wo, .imm, 0, []⟩]⟩,
    -- CORE_STATUS (CO-6, R169)
    ⟨0x100004, 0x10000, 8, 4, 1,
      [⟨0, 2, .ro, .imm, 3, []⟩, ⟨2, 1, .ro, .imm, 0, []⟩, ⟨3, 1, .ro, .imm, 1, []⟩, ⟨4, 1, .ro, .imm, 1, []⟩, ⟨5, 1, .ro, .imm, 0, []⟩, ⟨6, 1, .w1c, .imm, 0, []⟩, ⟨7, 1, .ro, .imm, 0, []⟩, ⟨8, 8, .ro, .imm, 0, []⟩, ⟨16, 8, .ro, .imm, 0, []⟩]⟩,
    -- CORE_PC0 (CO-6, R146)
    ⟨0x100008, 0x10000, 8, 4, 1,
      [⟨0, 15, .ro, .imm, 0, []⟩]⟩,
    -- CORE_PC1 (CO-6, R146)
    ⟨0x10000C, 0x10000, 8, 4, 1,
      [⟨0, 15, .ro, .imm, 0, []⟩]⟩,
    -- CORE_TOK0 (CO-6, R142)
    ⟨0x100010, 0x10000, 8, 4, 1,
      [⟨0, 32, .ro, .imm, 0, []⟩]⟩,
    -- CORE_TOK1 (CO-6, R142)
    ⟨0x100014, 0x10000, 8, 4, 1,
      [⟨0, 32, .ro, .imm, 0, []⟩]⟩,
    -- CORE_QSTAT (CO-6, R139)
    ⟨0x100018, 0x10000, 8, 4, 1,
      [⟨0, 32, .ro, .imm, 0, []⟩]⟩,
    -- CORE_PERF_CYC (CO-6, R155)
    ⟨0x100020, 0x10000, 8, 4, 1,
      [⟨0, 32, .ro, .imm, 0, []⟩]⟩,
    -- CORE_PERF_ARR (CO-6, R155)
    ⟨0x100024, 0x10000, 8, 4, 1,
      [⟨0, 32, .ro, .imm, 0, []⟩]⟩,
    -- CORE_PERF_DENSE (CO-6, R155)
    ⟨0x100028, 0x10000, 8, 4, 1,
      [⟨0, 32, .ro, .imm, 0, []⟩]⟩,
    -- CORE_PERF_STALL (CO-6, R155)
    ⟨0x10002C, 0x10000, 8, 4, 1,
      [⟨0, 32, .ro, .imm, 0, []⟩]⟩,
    -- CORE_SAT (CO-6, R159)
    ⟨0x100030, 0x10000, 8, 4, 1,
      [⟨0, 32, .ro, .imm, 0, []⟩]⟩,
    -- CORE_LOGDROP (CO-6, R163)
    ⟨0x100034, 0x10000, 8, 4, 1,
      [⟨0, 32, .ro, .imm, 0, []⟩]⟩,
    -- CORE_GDROP (IS-10, R223)
    ⟨0x100038, 0x10000, 8, 4, 1,
      [⟨0, 32, .ro, .imm, 0, []⟩]⟩,
    -- CORE_PAIR (CO-7, R167)
    ⟨0x100040, 0x10000, 8, 4, 1,
      [⟨0, 2, .ro, .job, 0, []⟩, ⟨2, 8, .rw, .job, 20, [(0, 0)]⟩, ⟨10, 1, .rw, .job, 0, []⟩]⟩,
    -- NUM_CTL (NN-6, R291)
    ⟨0x100048, 0x10000, 8, 4, 1,
      [⟨0, 1, .rw, .job, 0, []⟩, ⟨1, 1, .rw, .job, 0, []⟩]⟩]

/-- Registers of block CORE, part 1. -/
def regsCORE1 : List RegDesc :=
  [
    -- NUM_STATUS (NN-7, R292)
    ⟨0x10004C, 0x10000, 8, 4, 1,
      [⟨0, 1, .w1c, .imm, 0, []⟩, ⟨1, 1, .w1c, .imm, 0, []⟩, ⟨2, 1, .w1c, .imm, 0, []⟩, ⟨3, 1, .w1c, .imm, 0, []⟩, ⟨4, 1, .w1c, .imm, 0, []⟩, ⟨5, 1, .w1c, .imm, 0, []⟩, ⟨6, 1, .w1c, .imm, 0, []⟩, ⟨7, 1, .w1c, .imm, 0, []⟩, ⟨8, 1, .w1c, .imm, 0, []⟩, ⟨9, 1, .w1c, .imm, 0, []⟩]⟩,
    -- CORE_DX0 (DX-5, R345)
    ⟨0x100050, 0x10000, 8, 4, 1,
      [⟨0, 2, .ro, .str, 3, []⟩, ⟨2, 1, .ro, .imm, 0, []⟩, ⟨3, 10, .ro, .frm, 600, []⟩, ⟨13, 8, .ro, .frm, 16, []⟩]⟩,
    -- CORE_DX1 (DX-5, R345)
    ⟨0x100054, 0x10000, 8, 4, 1,
      [⟨0, 2, .ro, .str, 3, []⟩, ⟨2, 1, .ro, .imm, 0, []⟩, ⟨3, 10, .ro, .frm, 600, []⟩, ⟨13, 8, .ro, .frm, 16, []⟩]⟩,
    -- SP_STATUS (SP-5, R191)
    ⟨0x100100, 0x10000, 8, 4, 1,
      [⟨0, 1, .ro, .imm, 0, []⟩, ⟨1, 1, .ro, .imm, 0, []⟩, ⟨2, 1, .w1c, .imm, 0, []⟩, ⟨3, 1, .ro, .imm, 0, []⟩, ⟨4, 6, .ro, .imm, 32, []⟩]⟩,
    -- SP_SCRUB (SP-5, R186)
    ⟨0x100104, 0x10000, 8, 4, 1,
      [⟨0, 16, .rw, .imm, 1000, []⟩, ⟨16, 4, .rw, .imm, 4, []⟩, ⟨20, 12, .ro, .imm, 0, []⟩]⟩,
    -- CORE_SP_CE (SP-5, R181)
    ⟨0x100108, 0x10000, 8, 4, 1,
      [⟨0, 32, .ro, .imm, 0, []⟩]⟩,
    -- CORE_SP_UE (SP-5, R181)
    ⟨0x10010C, 0x10000, 8, 4, 1,
      [⟨0, 32, .ro, .imm, 0, []⟩]⟩,
    -- CORE_SP_CONFLICT (SP-5, R178)
    ⟨0x100110, 0x10000, 8, 4, 1,
      [⟨0, 32, .ro, .imm, 0, []⟩]⟩,
    -- SP_LAST_ERR (SP-5, R181)
    ⟨0x100114, 0x10000, 8, 4, 1,
      [⟨0, 17, .ro, .imm, 0, []⟩, ⟨17, 6, .ro, .imm, 0, []⟩, ⟨23, 8, .ro, .imm, 0, []⟩, ⟨31, 1, .ro, .imm, 0, []⟩]⟩,
    -- SP_CLR (SP-5, R178)
    ⟨0x100118, 0x10000, 8, 4, 1,
      [⟨0, 1, .wo, .imm, 0, []⟩]⟩,
    -- SP_RANGE_A (SP-5, R197)
    ⟨0x100180, 0x10000, 8, 8, 16,
      [⟨0, 17, .ro, .job, 0, []⟩, ⟨31, 1, .ro, .job, 0, []⟩]⟩,
    -- SP_RANGE_B (SP-5, R197)
    ⟨0x100184, 0x10000, 8, 8, 16,
      [⟨0, 17, .ro, .job, 0, []⟩, ⟨17, 2, .ro, .job, 0, []⟩, ⟨19, 12, .ro, .job, 0, []⟩, ⟨31, 1, .ro, .job, 0, []⟩]⟩,
    -- CK_CTRL (SE-5, R441)
    ⟨0x100200, 0x10000, 8, 4, 1,
      [⟨0, 1, .rw, .str, 1, []⟩, ⟨1, 8, .rw, .str, 16, []⟩, ⟨9, 1, .wo, .imm, 0, []⟩]⟩,
    -- CK_STATUS (SE-5, R449)
    ⟨0x100204, 0x10000, 8, 4, 1,
      [⟨0, 1, .w1c, .imm, 0, []⟩, ⟨1, 1, .w1c, .imm, 0, []⟩, ⟨2, 1, .w1c, .imm, 0, []⟩]⟩,
    -- CK_TRANSIENT (SE-5, R449)
    ⟨0x100208, 0x10000, 8, 4, 1,
      [⟨0, 32, .ro, .imm, 0, []⟩]⟩,
    -- CK_PERSISTENT (SE-5, R449)
    ⟨0x10020C, 0x10000, 8, 4, 1,
      [⟨0, 32, .ro, .imm, 0, []⟩]⟩]

/-- Registers of block CORE, part 2. -/
def regsCORE2 : List RegDesc :=
  [
    -- CK_CHECKER (SE-5, R449)
    ⟨0x100210, 0x10000, 8, 4, 1,
      [⟨0, 32, .ro, .imm, 0, []⟩]⟩,
    -- CK_SKIP (SE-5, R443)
    ⟨0x100214, 0x10000, 8, 4, 1,
      [⟨0, 32, .ro, .imm, 0, []⟩]⟩,
    -- CK_PARITY (SE-5, R438)
    ⟨0x100218, 0x10000, 8, 4, 1,
      [⟨0, 32, .ro, .imm, 0, []⟩]⟩,
    -- CK_PLAUS (SE-5, R454)
    ⟨0x10021C, 0x10000, 8, 4, 1,
      [⟨0, 32, .ro, .imm, 0, []⟩]⟩,
    -- CK_PLAUS_RERUN (SE-5, R455)
    ⟨0x100220, 0x10000, 8, 4, 1,
      [⟨0, 32, .ro, .imm, 0, []⟩]⟩,
    -- CK_LAST (SE-5, R446)
    ⟨0x100224, 0x10000, 8, 4, 1,
      [⟨0, 32, .ro, .imm, 0, []⟩]⟩,
    -- DIG_ROW (SE-5, R456)
    ⟨0x100230, 0x10000, 8, 4, 1,
      [⟨0, 17, .rw, .imm, 0, []⟩]⟩,
    -- DIG_CNT (SE-5, R456)
    ⟨0x100234, 0x10000, 8, 4, 1,
      [⟨0, 18, .rw, .imm, 0, []⟩]⟩,
    -- DIG_GO (SE-5, R456)
    ⟨0x100238, 0x10000, 8, 4, 1,
      [⟨0, 1, .wo, .imm, 0, []⟩, ⟨1, 1, .ro, .imm, 0, []⟩, ⟨2, 1, .ro, .imm, 0, []⟩]⟩,
    -- DIG_RES_LO (SE-5, R456)
    ⟨0x10023C, 0x10000, 8, 4, 1,
      [⟨0, 32, .ro, .imm, 0, []⟩]⟩,
    -- DIG_RES_HI (SE-5, R456)
    ⟨0x100240, 0x10000, 8, 4, 1,
      [⟨0, 32, .ro, .imm, 0, []⟩]⟩]

/-- The registers of block CORE. -/
def regsCORE : List RegDesc := regsCORE0 ++ regsCORE1 ++ regsCORE2

/-- The registers of the block that holds an offset (Table TH-4); DDR has no register in the spec. -/
def regsOfBlock (b : Nat) : List RegDesc :=
  match b with
  | 0 => regsGLB
  | 1 => regsPWR
  | 2 => regsTIME
  | 3 => regsHOST
  | 4 => regsIN
  | 5 => regsOF
  | 6 => regsEDGE
  | 7 => regsCOF
  | 8 => regsFLT
  | 9 => regsSEC
  | 10 => regsTRC
  | 11 => regsLNK
  | 13 => regsSTO
  | 14 => regsBRG
  | b => if 16 ≤ b ∧ b < 24 then regsCORE else []

namespace F

/-- SC-7, R26. -/
def GLB_ID0_VENDOR : Fld := ⟨0x000000, 0, 16⟩
/-- SC-7, R26. -/
def GLB_ID0_DEVICE : Fld := ⟨0x000000, 16, 16⟩
/-- SC-8, R26. -/
def GLB_ID1_STEPPING : Fld := ⟨0x000004, 0, 8⟩
/-- SC-8, R26. -/
def GLB_ID1_GRADE : Fld := ⟨0x000004, 8, 4⟩
/-- SC-8, R26. -/
def GLB_ID1_CORES : Fld := ⟨0x000004, 12, 4⟩
/-- HO-10, R548. -/
def GLB_STATUS_BAD_WIDTH : Fld := ⟨0x000008, 0, 1⟩
/-- HO-10, R548. -/
def GLB_STATUS_BAD_ENCODING : Fld := ⟨0x000008, 1, 1⟩
/-- HO-10, R548. -/
def GLB_STATUS_LOCKED_WRITE : Fld := ⟨0x000008, 2, 1⟩
/-- HO-10, R548. -/
def GLB_STATUS_AFT_UNREACHABLE : Fld := ⟨0x000008, 3, 1⟩
/-- HO-10, R548. -/
def GLB_STATUS_NOT_OWNER : Fld := ⟨0x000008, 4, 1⟩
/-- HO-10, R548. -/
def GLB_STATUS_COLLIDE : Fld := ⟨0x000008, 5, 1⟩
/-- HO-10, R551. -/
def GLB_OWN0_OWN : Fld := ⟨0x000010, 0, 24⟩
/-- HO-10, R551. -/
def GLB_OWN1_OWN : Fld := ⟨0x000014, 0, 21⟩
/-- HO-10, R551. -/
def GLB_OWN2_OWN : Fld := ⟨0x000018, 0, 24⟩
/-- HO-10, R548. -/
def GLB_DENYCNT : Fld := ⟨0x00001C, 0, 32⟩
/-- BD-10, R633. -/
def GLB_PIN_BOARD_SYNC : Fld := ⟨0x000100, 0, 16⟩
/-- BD-10, R633. -/
def GLB_PIN_BOARD_GPIO : Fld := ⟨0x000100, 16, 16⟩
/-- BD-10, R632. -/
def GLB_PIN_USE_USE : Fld := ⟨0x000104, 0, 32⟩
/-- BD-10, R632. -/
def GLB_GPIO_OUT_OUT : Fld := ⟨0x000108, 0, 16⟩
/-- BD-10, R632. -/
def GLB_GPIO_OE_OE : Fld := ⟨0x00010C, 0, 16⟩
/-- BD-10, R632. -/
def GLB_GPIO_IN_IN : Fld := ⟨0x000110, 0, 16⟩
/-- BD-10, R633. -/
def GLB_PIN_LOCK_LOCK : Fld := ⟨0x000114, 0, 1⟩
/-- PW-9, R557. -/
def PWR_DEV_STATE : Fld := ⟨0x010000, 0, 3⟩
/-- PW-9, R557. -/
def PWR_DEV_REQ : Fld := ⟨0x010000, 4, 2⟩
/-- PW-9, R557. -/
def PWR_DEV_REFUSED : Fld := ⟨0x010000, 8, 1⟩
/-- PW-9, R579. -/
def PWR_STATUS_POLICY_CLIPPED : Fld := ⟨0x010004, 0, 1⟩
/-- PW-9, R579. -/
def PWR_STATUS_CAP_UNMET : Fld := ⟨0x010004, 1, 1⟩
/-- PW-9, R579. -/
def PWR_STATUS_RAIL_WARN : Fld := ⟨0x010004, 2, 1⟩
/-- PW-9, R579. -/
def PWR_STATUS_TEMP_WARN : Fld := ⟨0x010004, 3, 1⟩
/-- PW-9, R579. -/
def PWR_STATUS_TRIPPED : Fld := ⟨0x010004, 4, 1⟩
/-- PW-9, R579. -/
def PWR_STATUS_TRIP_SENSOR : Fld := ⟨0x010004, 5, 4⟩
/-- PW-9, R577. -/
def PWR_CAP_CAP : Fld := ⟨0x010008, 0, 16⟩
/-- PW-9, R577. -/
def PWR_EST_EST : Fld := ⟨0x01000C, 0, 16⟩
/-- PW-9, R573. -/
def PWR_LOOP_MARGIN_MIN : Fld := ⟨0x010010, 0, 8⟩
/-- PW-9, R573. -/
def PWR_LOOP_MARGIN_MAX : Fld := ⟨0x010010, 8, 8⟩
/-- PW-9, R573. -/
def PWR_LOOP_MARGIN_HARD : Fld := ⟨0x010010, 16, 8⟩
/-- PW-9, R565. -/
def PWR_SLEEP_WAKE_PIN : Fld := ⟨0x010014, 0, 1⟩
/-- PW-9, R565. -/
def PWR_SLEEP_WAKE_TIMER : Fld := ⟨0x010014, 1, 1⟩
/-- PW-9, R565. -/
def PWR_SLEEP_WAKE_HSP : Fld := ⟨0x010014, 2, 1⟩
/-- PW-9, R565. -/
def PWR_SLEEP_DARK_FREE : Fld := ⟨0x010014, 3, 1⟩
/-- PW-9, R565. -/
def PWR_WAKE_AT_LO : Fld := ⟨0x010018, 0, 32⟩
/-- PW-9, R565. -/
def PWR_WAKE_AT_HI : Fld := ⟨0x01001C, 0, 32⟩
/-- PW-9, R560. -/
def PWR_RET_MV : Fld := ⟨0x010020, 0, 10⟩
/-- PW-9, R560. -/
def PWR_ISL_F_TARGET (i : Nat) : Fld := ⟨0x010100 + 0x10 * i, 0, 11⟩
/-- PW-9, R560. -/
def PWR_ISL_V_MAX (i : Nat) : Fld := ⟨0x010100 + 0x10 * i, 11, 10⟩
/-- PW-9, R560. -/
def PWR_ISL_REQ (i : Nat) : Fld := ⟨0x010100 + 0x10 * i, 21, 2⟩
/-- PW-9, R560. -/
def PWR_ISL_AUTO_NAP (i : Nat) : Fld := ⟨0x010100 + 0x10 * i, 23, 1⟩
/-- PW-9, R573. -/
def PWR_ISL_ST_F_SET (i : Nat) : Fld := ⟨0x010104 + 0x10 * i, 0, 11⟩
/-- PW-9, R573. -/
def PWR_ISL_ST_V_SET (i : Nat) : Fld := ⟨0x010104 + 0x10 * i, 11, 10⟩
/-- PW-9, R573. -/
def PWR_ISL_ST_MARGIN (i : Nat) : Fld := ⟨0x010104 + 0x10 * i, 21, 8⟩
/-- PW-9, R579. -/
def PWR_ISL_CLIP_V_AT_MAX (i : Nat) : Fld := ⟨0x010108 + 0x10 * i, 0, 1⟩
/-- PW-9, R579. -/
def PWR_ISL_CLIP_CAP (i : Nat) : Fld := ⟨0x010108 + 0x10 * i, 1, 1⟩
/-- PW-9, R579. -/
def PWR_ISL_CLIP_MARGIN (i : Nat) : Fld := ⟨0x010108 + 0x10 * i, 2, 1⟩
/-- PW-9, R579. -/
def PWR_ISL_CLIP_STEP_CONV (i : Nat) : Fld := ⟨0x010108 + 0x10 * i, 3, 1⟩
/-- PW-9, R579. -/
def PWR_ISL_CLIP_HOT (i : Nat) : Fld := ⟨0x010108 + 0x10 * i, 4, 1⟩
/-- PW-9, R579. -/
def PWR_ISL_CLIP_REQ_REFUSED (i : Nat) : Fld := ⟨0x010108 + 0x10 * i, 5, 1⟩
/-- PW-9, R575. -/
def PWR_ISL_STRETCH (i : Nat) : Fld := ⟨0x01010C + 0x10 * i, 0, 32⟩
/-- PW-9, R567. -/
def PWR_RAIL_VAL_MV (i : Nat) : Fld := ⟨0x010200 + 0x10 * i, 0, 16⟩
/-- PW-9, R567. -/
def PWR_RAIL_WARN_LO (i : Nat) : Fld := ⟨0x010204 + 0x10 * i, 0, 16⟩
/-- PW-9, R567. -/
def PWR_RAIL_WARN_HI (i : Nat) : Fld := ⟨0x010204 + 0x10 * i, 16, 16⟩
/-- PW-9, R567. -/
def PWR_RAIL_STOP_LO (i : Nat) : Fld := ⟨0x010208 + 0x10 * i, 0, 16⟩
/-- PW-9, R567. -/
def PWR_RAIL_STOP_HI (i : Nat) : Fld := ⟨0x010208 + 0x10 * i, 16, 16⟩
/-- PW-9, R568. -/
def PWR_RAIL_FLAG_WARN (i : Nat) : Fld := ⟨0x01020C + 0x10 * i, 0, 1⟩
/-- PW-9, R568. -/
def PWR_RAIL_FLAG_STOP (i : Nat) : Fld := ⟨0x01020C + 0x10 * i, 1, 1⟩
/-- PW-9, R572. -/
def PWR_TEMP_VAL (i : Nat) : Fld := ⟨0x010400 + 0x8 * i, 0, 16⟩
/-- PW-9, R572. -/
def PWR_TEMP_TH_WARN (i : Nat) : Fld := ⟨0x010404 + 0x8 * i, 0, 8⟩
/-- PW-9, R572. -/
def PWR_TEMP_TH_HOT (i : Nat) : Fld := ⟨0x010404 + 0x8 * i, 8, 8⟩
/-- PW-9, R572. -/
def PWR_TEMP_FLAG_WARN : Fld := ⟨0x010460, 0, 12⟩
/-- PW-9, R572. -/
def PWR_TEMP_FLAG_HOT : Fld := ⟨0x010460, 12, 12⟩
/-- PW-9, R572. -/
def PWR_TMAX : Fld := ⟨0x010464, 0, 16⟩
/-- ST-2, R87. -/
def TIME_NOW_LO_NOW_LO : Fld := ⟨0x020000, 0, 32⟩
/-- ST-2, R87. -/
def TIME_NOW_HI_NOW_HI : Fld := ⟨0x020004, 0, 32⟩
/-- ST-2, R88. -/
def TIME_SET_LO_SET_LO : Fld := ⟨0x020008, 0, 32⟩
/-- ST-2, R88. -/
def TIME_SET_HI_SET_HI : Fld := ⟨0x02000C, 0, 32⟩
/-- ST-2, R88. -/
def TIME_CTRL_SET : Fld := ⟨0x020010, 0, 1⟩
/-- ST-2, R88. -/
def TIME_SLEW_PPB : Fld := ⟨0x020014, 0, 24⟩
/-- ST-2, R88. -/
def TIME_STATUS_STEP_REFUSED : Fld := ⟨0x020018, 0, 1⟩
/-- ST-2, R88. -/
def TIME_STATUS_SLEW_CLIP : Fld := ⟨0x020018, 1, 1⟩
/-- ST-2, R88. -/
def TIME_STATUS_LOCKED : Fld := ⟨0x020018, 2, 1⟩
/-- ST-2, R88. -/
def TIME_STATUS_STEPPING : Fld := ⟨0x020018, 3, 1⟩
/-- ST-3, R91. -/
def FSG_CTRL_ENABLE (i : Nat) : Fld := ⟨0x020100 + 0x20 * i, 0, 1⟩
/-- ST-3, R91. -/
def FSG_CTRL_MODE (i : Nat) : Fld := ⟨0x020100 + 0x20 * i, 1, 2⟩
/-- ST-3, R91. -/
def FSG_CTRL_POL (i : Nat) : Fld := ⟨0x020100 + 0x20 * i, 3, 1⟩
/-- ST-3, R91. -/
def FSG_CTRL_BAD_WIDTH (i : Nat) : Fld := ⟨0x020100 + 0x20 * i, 4, 1⟩
/-- ST-3, R91. -/
def FSG_START_LO (i : Nat) : Fld := ⟨0x020104 + 0x20 * i, 0, 32⟩
/-- ST-3, R91. -/
def FSG_START_HI (i : Nat) : Fld := ⟨0x020108 + 0x20 * i, 0, 32⟩
/-- ST-3, R91. -/
def FSG_PERIOD (i : Nat) : Fld := ⟨0x02010C + 0x20 * i, 0, 32⟩
/-- ST-3, R91. -/
def FSG_FRAC (i : Nat) : Fld := ⟨0x020110 + 0x20 * i, 0, 16⟩
/-- ST-3, R93. -/
def FSG_WIDTH (i : Nat) : Fld := ⟨0x020114 + 0x20 * i, 0, 24⟩
/-- ST-3, R92. -/
def FSG_COUNT (i : Nat) : Fld := ⟨0x020118 + 0x20 * i, 0, 32⟩
/-- ST-4, R73. -/
def ST_SEL_JOB : Fld := ⟨0x020200, 0, 12⟩
/-- ST-4, R73. -/
def ST_SLACK_LAST : Fld := ⟨0x020204, 0, 32⟩
/-- ST-4, R73. -/
def ST_SLACK_MIN : Fld := ⟨0x020208, 0, 32⟩
/-- ST-4, R73. -/
def ST_MISS : Fld := ⟨0x02020C, 0, 32⟩
/-- ST-4, R73. -/
def ST_ABORT : Fld := ⟨0x020210, 0, 32⟩
/-- ST-4, R73. -/
def ST_CTRL_CLR : Fld := ⟨0x020214, 0, 1⟩
/-- ST-4, R73. -/
def ST_CTRL_WARN : Fld := ⟨0x020214, 1, 31⟩
/-- DX-4, R345. -/
def DX_CTRL_ENABLE : Fld := ⟨0x020240, 0, 1⟩
/-- DX-4, R345. -/
def DX_CTRL_PR : Fld := ⟨0x020240, 1, 8⟩
/-- DX-4, R345. -/
def DX_CTRL_RHO : Fld := ⟨0x020240, 9, 10⟩
/-- DX-4, R345. -/
def DX_CTRL_INVALIDATE : Fld := ⟨0x020240, 19, 1⟩
/-- DX-4, R345. -/
def DX_DELTA : Fld := ⟨0x020244, 0, 32⟩
/-- DX-4, R345. -/
def DX_REFRESH : Fld := ⟨0x020248, 0, 32⟩
/-- DX-4, R345. -/
def DX_STALE : Fld := ⟨0x02024C, 0, 32⟩
/-- DX-4, R345. -/
def DX_OFF : Fld := ⟨0x020250, 0, 32⟩
/-- DX-4, R345. -/
def DX_SCENE : Fld := ⟨0x020254, 0, 32⟩
/-- DX-4, R345. -/
def DX_CHANGED : Fld := ⟨0x020258, 0, 32⟩
/-- DX-4, R345. -/
def DX_POS : Fld := ⟨0x02025C, 0, 32⟩
/-- DX-4, R345. -/
def DX_CLR_CLR : Fld := ⟨0x020260, 0, 1⟩
/-- AD-4, R352. -/
def AD_CFG_GATE_CTX : Fld := ⟨0x020280, 0, 3⟩
/-- AD-4, R352. -/
def AD_CFG_GATE : Fld := ⟨0x020280, 3, 1⟩
/-- AD-4, R352. -/
def AD_CFG_LEAD : Fld := ⟨0x020280, 4, 12⟩
/-- AD-4, R355. -/
def AD_STATUS_LOADED : Fld := ⟨0x020284, 0, 1⟩
/-- AD-4, R355. -/
def AD_STATUS_RUNNING : Fld := ⟨0x020284, 1, 1⟩
/-- AD-4, R355. -/
def AD_STATUS_DONE : Fld := ⟨0x020284, 2, 1⟩
/-- AD-4, R355. -/
def AD_STATUS_COMMITTED : Fld := ⟨0x020284, 3, 1⟩
/-- AD-4, R355. -/
def AD_STATUS_KILLED : Fld := ⟨0x020284, 4, 1⟩
/-- AD-4, R355. -/
def AD_STATUS_LAST_CODE : Fld := ⟨0x020284, 8, 8⟩
/-- AD-4, R355. -/
def AD_STEPS : Fld := ⟨0x020288, 0, 32⟩
/-- AD-4, R354. -/
def AD_SKIP : Fld := ⟨0x02028C, 0, 32⟩
/-- AD-4, R355. -/
def AD_LASTSTEP_NS : Fld := ⟨0x020290, 0, 32⟩
/-- AD-4, R359. -/
def AD_SEQ_SEQ : Fld := ⟨0x020294, 0, 32⟩
/-- SE-6, R457. -/
def DIG_CTRL_PERIOD : Fld := ⟨0x0202C0, 0, 16⟩
/-- SE-6, R457. -/
def DIG_CTRL_SWEEP_NOW : Fld := ⟨0x0202C0, 16, 1⟩
/-- SE-6, R460. -/
def DIG_REPAIRS : Fld := ⟨0x0202C4, 0, 32⟩
/-- SE-6, R458. -/
def DIG_BLAMES : Fld := ⟨0x0202C8, 0, 32⟩
/-- SE-6, R458. -/
def DIG_DIVERGE : Fld := ⟨0x0202CC, 0, 32⟩
/-- SE-6, R461. -/
def DIG_SINGLE : Fld := ⟨0x0202D0, 0, 32⟩
/-- HO-12, R540. -/
def SQ_BASE_LO (i : Nat) : Fld := ⟨0x030000 + 0x100 * i, 0, 32⟩
/-- HO-12, R540. -/
def SQ_BASE_HI (i : Nat) : Fld := ⟨0x030004 + 0x100 * i, 0, 32⟩
/-- HO-12, R540. -/
def RING_CFG_SQ_SIZE (i : Nat) : Fld := ⟨0x030008 + 0x100 * i, 0, 4⟩
/-- HO-12, R540. -/
def RING_CFG_CQ_SIZE (i : Nat) : Fld := ⟨0x030008 + 0x100 * i, 4, 4⟩
/-- HO-12, R540. -/
def SQ_TAIL (i : Nat) : Fld := ⟨0x03000C + 0x100 * i, 0, 12⟩
/-- HO-12, R540. -/
def SQ_HEAD (i : Nat) : Fld := ⟨0x030010 + 0x100 * i, 0, 12⟩
/-- HO-12, R540. -/
def CQ_BASE_LO (i : Nat) : Fld := ⟨0x030014 + 0x100 * i, 0, 32⟩
/-- HO-12, R540. -/
def CQ_BASE_HI (i : Nat) : Fld := ⟨0x030018 + 0x100 * i, 0, 32⟩
/-- HO-12, R542. -/
def CQ_HEAD (i : Nat) : Fld := ⟨0x03001C + 0x100 * i, 0, 12⟩
/-- HO-12, R542. -/
def CQ_TAIL_TAIL (i : Nat) : Fld := ⟨0x030020 + 0x100 * i, 0, 12⟩
/-- HO-12, R542. -/
def CQ_TAIL_PHASE (i : Nat) : Fld := ⟨0x030020 + 0x100 * i, 12, 1⟩
/-- HO-12, R556. -/
def RING_CTRL_ENABLE (i : Nat) : Fld := ⟨0x030024 + 0x100 * i, 0, 1⟩
/-- HO-12, R556. -/
def RING_CTRL_RING_ERR (i : Nat) : Fld := ⟨0x030024 + 0x100 * i, 1, 1⟩
/-- HO-12, R535. -/
def BULK_ADDR_LO (i : Nat) : Fld := ⟨0x030040 + 0x100 * i, 0, 32⟩
/-- HO-12, R535. -/
def BULK_ADDR_HI (i : Nat) : Fld := ⟨0x030044 + 0x100 * i, 0, 16⟩
/-- HO-12, R535. -/
def BULK_CTRL_MODE (i : Nat) : Fld := ⟨0x030048 + 0x100 * i, 0, 2⟩
/-- HO-12, R535. -/
def BULK_CTRL_PREFETCH (i : Nat) : Fld := ⟨0x030048 + 0x100 * i, 2, 1⟩
/-- HO-12, R535. -/
def BULK_CTRL_FLUSH (i : Nat) : Fld := ⟨0x030048 + 0x100 * i, 3, 1⟩
/-- HO-12, R535. -/
def BULK_BASE_LO (i : Nat) : Fld := ⟨0x03004C + 0x100 * i, 0, 32⟩
/-- HO-12, R535. -/
def BULK_BASE_HI (i : Nat) : Fld := ⟨0x030050 + 0x100 * i, 0, 16⟩
/-- HO-12, R535. -/
def BULK_WRAP (i : Nat) : Fld := ⟨0x030054 + 0x100 * i, 0, 32⟩
/-- HO-12, R536. -/
def BULK_STATUS_DRAINING (i : Nat) : Fld := ⟨0x030058 + 0x100 * i, 0, 1⟩
/-- HO-12, R536. -/
def BULK_STATUS_ERR (i : Nat) : Fld := ⟨0x030058 + 0x100 * i, 1, 1⟩
/-- HO-12, R529. -/
def HOST_W4_BASE (i : Nat) : Fld := ⟨0x030080 + 0x4 * i, 0, 18⟩
/-- HO-12, R529. -/
def HOST_W4_ENABLE (i : Nat) : Fld := ⟨0x030080 + 0x4 * i, 31, 1⟩
/-- HO-12, R527. -/
def HOST_HADDR_HI : Fld := ⟨0x0300A0, 0, 24⟩
/-- HO-12, R547. -/
def HOST_IMASK : Fld := ⟨0x0300A4, 0, 32⟩
/-- HO-12, R534. -/
def HOST_IRQN_EN : Fld := ⟨0x0301A0, 0, 32⟩
/-- HO-12, R533. -/
def HSP_CFG_DUMMY : Fld := ⟨0x0301A4, 0, 6⟩
/-- HO-12, R547. -/
def HOST_ICAUSE : Fld := ⟨0x030200, 0, 32⟩
/-- HO-12, R555. -/
def HOST_STATUS_LINK_UP : Fld := ⟨0x030204, 0, 1⟩
/-- HO-12, R555. -/
def HOST_STATUS_LINK_LOST : Fld := ⟨0x030204, 1, 1⟩
/-- HO-12, R555. -/
def HOST_STATUS_WIDTH : Fld := ⟨0x030204, 2, 4⟩
/-- HO-12, R555. -/
def HOST_STATUS_SPEED : Fld := ⟨0x030204, 6, 4⟩
/-- HO-12, R555. -/
def HOST_CQLOST : Fld := ⟨0x030208, 0, 32⟩
/-- HO-12, R553. -/
def HOST_MBOX_IN : Fld := ⟨0x03020C, 0, 32⟩
/-- HO-12, R547. -/
def HOST_MBOX_OUT : Fld := ⟨0x030210, 0, 32⟩
/-- HO-9, R547. -/
def MSIX_TABLE (i : Nat) : Fld := ⟨0x03F000 + 0x4 * i, 0, 32⟩
/-- HO-9, R547. -/
def MSIX_PBA (i : Nat) : Fld := ⟨0x03F800 + 0x4 * i, 0, 32⟩
/-- IN-4, R97. -/
def IN_PORT_CFG_ENABLE (i : Nat) : Fld := ⟨0x040000 + 0x40 * i, 0, 1⟩
/-- IN-4, R97. -/
def IN_PORT_CFG_LANES (i : Nat) : Fld := ⟨0x040000 + 0x40 * i, 1, 2⟩
/-- IN-4, R97. -/
def IN_PORT_CFG_LMAP (i : Nat) : Fld := ⟨0x040000 + 0x40 * i, 3, 8⟩
/-- IN-4, R97. -/
def IN_PORT_CFG_LPOL (i : Nat) : Fld := ⟨0x040000 + 0x40 * i, 11, 4⟩
/-- IN-4, R97. -/
def IN_PORT_CFG_LNUM (i : Nat) : Fld := ⟨0x040000 + 0x40 * i, 15, 1⟩
/-- IN-4, R97. -/
def IN_PORT_CFG_PROP (i : Nat) : Fld := ⟨0x040000 + 0x40 * i, 16, 9⟩
/-- IN-4, R108. -/
def IN_PORT_STAT_CFG_BUSY (i : Nat) : Fld := ⟨0x040004 + 0x40 * i, 0, 1⟩
/-- IN-4, R108. -/
def IN_PORT_STAT_SKEW_WARN (i : Nat) : Fld := ⟨0x040004 + 0x40 * i, 1, 1⟩
/-- IN-4, R108. -/
def IN_PORT_STAT_SKEW_RANGE (i : Nat) : Fld := ⟨0x040004 + 0x40 * i, 2, 1⟩
/-- IN-4, R108. -/
def IN_PORT_STAT_ULPS (i : Nat) : Fld := ⟨0x040004 + 0x40 * i, 3, 1⟩
/-- IN-4, R108. -/
def IN_PORT_STAT_UNMATCHED (i : Nat) : Fld := ⟨0x040004 + 0x40 * i, 4, 12⟩
/-- IN-4, R108. -/
def IN_PORT_STAT_IGNORED (i : Nat) : Fld := ⟨0x040004 + 0x40 * i, 16, 16⟩
/-- IN-4, R117. -/
def IN_PORT_ERR_ECC1 (i : Nat) : Fld := ⟨0x040008 + 0x40 * i, 0, 16⟩
/-- IN-4, R117. -/
def IN_PORT_ERR_ECC2 (i : Nat) : Fld := ⟨0x040008 + 0x40 * i, 16, 16⟩
/-- IN-4, R107. -/
def IN_PORTA_SKEW_STEPS (i : Nat) : Fld := ⟨0x04000C + 0x4 * i, 0, 8⟩
/-- IN-4, R107. -/
def IN_PORTA_SKEW_MM (i : Nat) : Fld := ⟨0x04000C + 0x4 * i, 8, 16⟩
/-- IN-4, R107. -/
def IN_PORTB_SKEW_STEPS (i : Nat) : Fld := ⟨0x04004C + 0x4 * i, 0, 8⟩
/-- IN-4, R107. -/
def IN_PORTB_SKEW_MM (i : Nat) : Fld := ⟨0x04004C + 0x4 * i, 8, 16⟩
/-- IN-5, R100. -/
def IN_CTX_ENABLE (i : Nat) : Fld := ⟨0x040100 + 0x40 * i, 0, 1⟩
/-- IN-5, R100. -/
def IN_CTX_PORT (i : Nat) : Fld := ⟨0x040100 + 0x40 * i, 1, 1⟩
/-- IN-5, R100. -/
def IN_CTX_VC (i : Nat) : Fld := ⟨0x040100 + 0x40 * i, 2, 4⟩
/-- IN-5, R100. -/
def IN_CTX_DT (i : Nat) : Fld := ⟨0x040100 + 0x40 * i, 6, 6⟩
/-- IN-5, R100. -/
def IN_CTX_PATH (i : Nat) : Fld := ⟨0x040100 + 0x40 * i, 12, 1⟩
/-- IN-5, R100. -/
def IN_CTX_BADLINE (i : Nat) : Fld := ⟨0x040100 + 0x40 * i, 13, 2⟩
/-- IN-5, R100. -/
def IN_CTX_NBUF (i : Nat) : Fld := ⟨0x040100 + 0x40 * i, 15, 3⟩
/-- IN-5, R100. -/
def IN_CTX_TIMEOUT (i : Nat) : Fld := ⟨0x040100 + 0x40 * i, 18, 14⟩
/-- IN-5, R99. -/
def IN_CTX_SIZE_WIDTH (i : Nat) : Fld := ⟨0x040104 + 0x40 * i, 0, 14⟩
/-- IN-5, R99. -/
def IN_CTX_SIZE_HEIGHT (i : Nat) : Fld := ⟨0x040104 + 0x40 * i, 16, 14⟩
/-- IN-5, R104. -/
def IN_CTX_BASE (i : Nat) : Fld := ⟨0x040108 + 0x40 * i, 0, 32⟩
/-- IN-5, R104. -/
def IN_CTX_PITCH (i : Nat) : Fld := ⟨0x04010C + 0x40 * i, 0, 20⟩
/-- IN-5, R110. -/
def IN_CTX_BL0_BL (i : Nat) : Fld := ⟨0x040110 + 0x40 * i, 0, 16⟩
/-- IN-5, R110. -/
def IN_CTX_BL0_GAIN (i : Nat) : Fld := ⟨0x040110 + 0x40 * i, 16, 16⟩
/-- IN-5, R110. -/
def IN_CTX_BL1_BL (i : Nat) : Fld := ⟨0x040114 + 0x40 * i, 0, 16⟩
/-- IN-5, R110. -/
def IN_CTX_BL1_GAIN (i : Nat) : Fld := ⟨0x040114 + 0x40 * i, 16, 16⟩
/-- IN-5, R110. -/
def IN_CTX_BL2_BL (i : Nat) : Fld := ⟨0x040118 + 0x40 * i, 0, 16⟩
/-- IN-5, R110. -/
def IN_CTX_BL2_GAIN (i : Nat) : Fld := ⟨0x040118 + 0x40 * i, 16, 16⟩
/-- IN-5, R110. -/
def IN_CTX_BL3_BL (i : Nat) : Fld := ⟨0x04011C + 0x40 * i, 0, 16⟩
/-- IN-5, R110. -/
def IN_CTX_BL3_GAIN (i : Nat) : Fld := ⟨0x04011C + 0x40 * i, 16, 16⟩
/-- IN-5, R105. -/
def IN_CTX_RELEASE_IDX (i : Nat) : Fld := ⟨0x040120 + 0x40 * i, 0, 3⟩
/-- IN-5, R104. -/
def IN_CTX_STAT_FLAGS (i : Nat) : Fld := ⟨0x040124 + 0x40 * i, 0, 8⟩
/-- IN-5, R104. -/
def IN_CTX_STAT_FRAMES (i : Nat) : Fld := ⟨0x040124 + 0x40 * i, 8, 24⟩
/-- IN-5, R105. -/
def IN_CTX_CNT_DROP (i : Nat) : Fld := ⟨0x040128 + 0x40 * i, 0, 16⟩
/-- IN-5, R105. -/
def IN_CTX_CNT_CRC (i : Nat) : Fld := ⟨0x040128 + 0x40 * i, 16, 16⟩
/-- IN-5, R103. -/
def IN_CTX_FS (i : Nat) : Fld := ⟨0x04012C + 0x40 * i, 0, 32⟩
/-- IN-5, R102. -/
def IN_CTX_NOJOB (i : Nat) : Fld := ⟨0x040130 + 0x40 * i, 0, 32⟩
/-- IN-6, R113. -/
def IN_DEF_CTRL_SWAP : Fld := ⟨0x040400, 0, 1⟩
/-- IN-6, R113. -/
def IN_DEF_CTRL_CTX : Fld := ⟨0x040400, 1, 3⟩
/-- IN-6, R113. -/
def IN_DEF_CTRL_COUNT : Fld := ⟨0x040400, 4, 15⟩
/-- IN-6, R113. -/
def IN_DEF_CTRL_DEFECT_ORDER : Fld := ⟨0x040400, 19, 1⟩
/-- IN-6, R113. -/
def IN_DEF_CTRL_PAGE : Fld := ⟨0x040400, 20, 2⟩
/-- IN-6, R111. -/
def IN_DEF_SKIP : Fld := ⟨0x040404, 0, 32⟩
/-- IN-6, R114. -/
def IN_STAT_CFG_CTX : Fld := ⟨0x040410, 0, 3⟩
/-- IN-6, R114. -/
def IN_STAT_CFG_ZX : Fld := ⟨0x040410, 3, 5⟩
/-- IN-6, R114. -/
def IN_STAT_CFG_ZY : Fld := ⟨0x040410, 8, 5⟩
/-- IN-6, R114. -/
def IN_STAT_CFG_SATLVL : Fld := ⟨0x040410, 13, 16⟩
/-- IN-6, R114. -/
def IN_STAT_BASE : Fld := ⟨0x040414, 0, 32⟩
/-- IN-6, R115. -/
def IN_TAP_ENABLE (i : Nat) : Fld := ⟨0x040420 + 0x10 * i, 0, 1⟩
/-- IN-6, R115. -/
def IN_TAP_CTX (i : Nat) : Fld := ⟨0x040420 + 0x10 * i, 1, 3⟩
/-- IN-6, R115. -/
def IN_TAP_PACKED (i : Nat) : Fld := ⟨0x040420 + 0x10 * i, 4, 1⟩
/-- IN-6, R115. -/
def IN_TAP_NBUF (i : Nat) : Fld := ⟨0x040420 + 0x10 * i, 5, 3⟩
/-- IN-6, R115. -/
def IN_TAP_BASE (i : Nat) : Fld := ⟨0x040424 + 0x10 * i, 0, 32⟩
/-- IN-6, R115. -/
def IN_TAP_PITCH (i : Nat) : Fld := ⟨0x040428 + 0x10 * i, 0, 20⟩
/-- IN-6, R115. -/
def IN_TAP_RELEASE_IDX (i : Nat) : Fld := ⟨0x04042C + 0x10 * i, 0, 3⟩
/-- IN-6, R126. -/
def IN_I2C_CFG_SPEED (i : Nat) : Fld := ⟨0x041000 + 0x400 * i, 0, 2⟩
/-- IN-6, R126. -/
def IN_I2C_CFG_STRETCH_MAX (i : Nat) : Fld := ⟨0x041000 + 0x400 * i, 2, 16⟩
/-- IN-6, R130. -/
def IN_I2C_CTRL_GO (i : Nat) : Fld := ⟨0x041004 + 0x400 * i, 0, 1⟩
/-- IN-6, R130. -/
def IN_I2C_CTRL_FL_EN (i : Nat) : Fld := ⟨0x041004 + 0x400 * i, 1, 1⟩
/-- IN-6, R130. -/
def IN_I2C_CTRL_FL_CTX (i : Nat) : Fld := ⟨0x041004 + 0x400 * i, 2, 3⟩
/-- IN-6, R130. -/
def IN_I2C_CTRL_FL_LINE (i : Nat) : Fld := ⟨0x041004 + 0x400 * i, 5, 14⟩
/-- IN-6, R127. -/
def IN_I2C_STAT_DONE (i : Nat) : Fld := ⟨0x041008 + 0x400 * i, 0, 1⟩
/-- IN-6, R127. -/
def IN_I2C_STAT_NAK (i : Nat) : Fld := ⟨0x041008 + 0x400 * i, 1, 1⟩
/-- IN-6, R127. -/
def IN_I2C_STAT_TIMEOUT (i : Nat) : Fld := ⟨0x041008 + 0x400 * i, 2, 1⟩
/-- IN-6, R127. -/
def IN_I2C_STAT_BUS_STUCK (i : Nat) : Fld := ⟨0x041008 + 0x400 * i, 3, 1⟩
/-- IN-6, R127. -/
def IN_I2C_STAT_BAD_DESC (i : Nat) : Fld := ⟨0x041008 + 0x400 * i, 4, 1⟩
/-- IN-6, R127. -/
def IN_I2C_STAT_LATE (i : Nat) : Fld := ⟨0x041008 + 0x400 * i, 5, 1⟩
/-- IN-6, R127. -/
def IN_I2C_STAT_INDEX (i : Nat) : Fld := ⟨0x041008 + 0x400 * i, 6, 5⟩
/-- IN-6, R129. -/
def IN_I2C0_RDI (i : Nat) : Fld := ⟨0x041080 + 0x4 * i, 0, 32⟩
/-- IN-6, R128. -/
def IN_I2C0_IMM (i : Nat) : Fld := ⟨0x041100 + 0x4 * i, 0, 32⟩
/-- IN-6, R128. -/
def IN_I2C0_FRL (i : Nat) : Fld := ⟨0x041200 + 0x4 * i, 0, 32⟩
/-- IN-6, R129. -/
def IN_I2C0_RDF (i : Nat) : Fld := ⟨0x041300 + 0x4 * i, 0, 32⟩
/-- IN-6, R129. -/
def IN_I2C1_RDI (i : Nat) : Fld := ⟨0x041480 + 0x4 * i, 0, 32⟩
/-- IN-6, R128. -/
def IN_I2C1_IMM (i : Nat) : Fld := ⟨0x041500 + 0x4 * i, 0, 32⟩
/-- IN-6, R128. -/
def IN_I2C1_FRL (i : Nat) : Fld := ⟨0x041600 + 0x4 * i, 0, 32⟩
/-- IN-6, R129. -/
def IN_I2C1_RDF (i : Nat) : Fld := ⟨0x041700 + 0x4 * i, 0, 32⟩
/-- IN-6, R131. -/
def IN_PROBE_CTRL_GO : Fld := ⟨0x040900, 0, 1⟩
/-- IN-6, R131. -/
def IN_PROBE_CTRL_PROBE_BUSY : Fld := ⟨0x040900, 1, 1⟩
/-- IN-6, R131. -/
def IN_PROBE_CTRL_DONE : Fld := ⟨0x040900, 2, 1⟩
/-- IN-6, R131. -/
def IN_PROBE_CFG (i : Nat) : Fld := ⟨0x040910 + 0x8 * i, 0, 32⟩
/-- IN-6, R131. -/
def IN_PROBE_RES_ACK (i : Nat) : Fld := ⟨0x040914 + 0x8 * i, 0, 1⟩
/-- IN-6, R131. -/
def IN_PROBE_RES_MATCH (i : Nat) : Fld := ⟨0x040914 + 0x8 * i, 1, 1⟩
/-- IN-6, R131. -/
def IN_PROBE_RES_VALUE (i : Nat) : Fld := ⟨0x040914 + 0x8 * i, 16, 16⟩
/-- IN-6, R133. -/
def IN_TRIG_ENABLE (i : Nat) : Fld := ⟨0x040A00 + 0x10 * i, 0, 1⟩
/-- IN-6, R133. -/
def IN_TRIG_GEN (i : Nat) : Fld := ⟨0x040A00 + 0x10 * i, 1, 2⟩
/-- IN-6, R133. -/
def IN_TRIG_FIRE (i : Nat) : Fld := ⟨0x040A00 + 0x10 * i, 3, 1⟩
/-- IN-6, R133. -/
def IN_TRIG_DELAY (i : Nat) : Fld := ⟨0x040A04 + 0x10 * i, 0, 32⟩
/-- IN-6, R133. -/
def IN_TRIG_WIDTH (i : Nat) : Fld := ⟨0x040A08 + 0x10 * i, 0, 32⟩
/-- IN-6, R134. -/
def IN_SENS_RST_RELEASE : Fld := ⟨0x040A20, 0, 1⟩
/-- OF-5, R361. -/
def OF_CFG_ENABLE (i : Nat) : Fld := ⟨0x050100 + 0x80 * i, 0, 1⟩
/-- OF-5, R361. -/
def OF_CFG_SRC (i : Nat) : Fld := ⟨0x050100 + 0x80 * i, 1, 3⟩
/-- OF-5, R361. -/
def OF_CFG_SRC_KIND (i : Nat) : Fld := ⟨0x050100 + 0x80 * i, 4, 1⟩
/-- OF-5, R361. -/
def OF_CFG_FORMAT (i : Nat) : Fld := ⟨0x050100 + 0x80 * i, 5, 3⟩
/-- OF-5, R361. -/
def OF_CFG_CSC (i : Nat) : Fld := ⟨0x050100 + 0x80 * i, 8, 2⟩
/-- OF-5, R361. -/
def OF_CFG_SINK (i : Nat) : Fld := ⟨0x050100 + 0x80 * i, 10, 1⟩
/-- OF-5, R361. -/
def OF_CFG_VC (i : Nat) : Fld := ⟨0x050100 + 0x80 * i, 11, 2⟩
/-- OF-5, R361. -/
def OF_CFG_TIMEREF (i : Nat) : Fld := ⟨0x050100 + 0x80 * i, 13, 3⟩
/-- OF-5, R361. -/
def OF_CFG_NBUF (i : Nat) : Fld := ⟨0x050100 + 0x80 * i, 16, 3⟩
/-- OF-5, R363. -/
def OF_CROP_XY_X (i : Nat) : Fld := ⟨0x050104 + 0x80 * i, 0, 14⟩
/-- OF-5, R363. -/
def OF_CROP_XY_Y (i : Nat) : Fld := ⟨0x050104 + 0x80 * i, 16, 14⟩
/-- OF-5, R363. -/
def OF_CROP_WH_W (i : Nat) : Fld := ⟨0x050108 + 0x80 * i, 0, 14⟩
/-- OF-5, R363. -/
def OF_CROP_WH_H (i : Nat) : Fld := ⟨0x050108 + 0x80 * i, 16, 14⟩
/-- OF-5, R363. -/
def OF_OUT_WH_W (i : Nat) : Fld := ⟨0x05010C + 0x80 * i, 0, 14⟩
/-- OF-5, R363. -/
def OF_OUT_WH_H (i : Nat) : Fld := ⟨0x05010C + 0x80 * i, 16, 14⟩
/-- OF-5, R368. -/
def OF_BASE (i : Nat) : Fld := ⟨0x050110 + 0x80 * i, 0, 32⟩
/-- OF-5, R368. -/
def OF_PITCH (i : Nat) : Fld := ⟨0x050114 + 0x80 * i, 0, 20⟩
/-- OF-5, R375. -/
def OF_FILL_Y (i : Nat) : Fld := ⟨0x050118 + 0x80 * i, 0, 10⟩
/-- OF-5, R375. -/
def OF_FILL_U (i : Nat) : Fld := ⟨0x050118 + 0x80 * i, 10, 10⟩
/-- OF-5, R375. -/
def OF_FILL (i : Nat) : Fld := ⟨0x050118 + 0x80 * i, 20, 10⟩
/-- OF-5, R371. -/
def OF_OFFSET (i : Nat) : Fld := ⟨0x05011C + 0x80 * i, 0, 32⟩
/-- OF-5, R371. -/
def OF_LINE (i : Nat) : Fld := ⟨0x050120 + 0x80 * i, 0, 24⟩
/-- OF-5, R385. -/
def OF_MEMSRC (i : Nat) : Fld := ⟨0x050124 + 0x80 * i, 0, 32⟩
/-- OF-5, R385. -/
def OF_MEMPITCH (i : Nat) : Fld := ⟨0x050128 + 0x80 * i, 0, 20⟩
/-- OF-5, R385. -/
def OF_CTRL_CUT (i : Nat) : Fld := ⟨0x05012C + 0x80 * i, 0, 1⟩
/-- OF-5, R385. -/
def OF_CTRL_RELEASE (i : Nat) : Fld := ⟨0x05012C + 0x80 * i, 1, 1⟩
/-- OF-5, R385. -/
def OF_CTRL_BUF (i : Nat) : Fld := ⟨0x05012C + 0x80 * i, 2, 3⟩
/-- OF-5, R363. -/
def OF_STAT_CFG_REJECT (i : Nat) : Fld := ⟨0x050130 + 0x80 * i, 0, 1⟩
/-- OF-5, R363. -/
def OF_STAT_CUT_REFUSED (i : Nat) : Fld := ⟨0x050130 + 0x80 * i, 1, 1⟩
/-- OF-5, R363. -/
def OF_STAT_FLAGS (i : Nat) : Fld := ⟨0x050130 + 0x80 * i, 2, 6⟩
/-- OF-5, R363. -/
def OF_STAT_FRAMES (i : Nat) : Fld := ⟨0x050130 + 0x80 * i, 8, 24⟩
/-- OF-5, R377. -/
def OF_CNT_DROP (i : Nat) : Fld := ⟨0x050134 + 0x80 * i, 0, 8⟩
/-- OF-5, R377. -/
def OF_CNT_OVERRUN (i : Nat) : Fld := ⟨0x050134 + 0x80 * i, 8, 8⟩
/-- OF-5, R377. -/
def OF_CNT_FILLED (i : Nat) : Fld := ⟨0x050134 + 0x80 * i, 16, 16⟩
/-- OF-5, R367. -/
def OF_CLIP (i : Nat) : Fld := ⟨0x050138 + 0x80 * i, 0, 32⟩
/-- OF-5, R384. -/
def OF_ACT (i : Nat) : Fld := ⟨0x05013C + 0x80 * i, 0, 19⟩
/-- OF-5, R365. -/
def OF_COEF0_A (i : Nat) : Fld := ⟨0x054000 + 0x4 * i, 0, 12⟩
/-- OF-5, R365. -/
def OF_COEF0_B (i : Nat) : Fld := ⟨0x054000 + 0x4 * i, 16, 12⟩
/-- OF-5, R365. -/
def OF_COEF1_A (i : Nat) : Fld := ⟨0x054800 + 0x4 * i, 0, 12⟩
/-- OF-5, R365. -/
def OF_COEF1_B (i : Nat) : Fld := ⟨0x054800 + 0x4 * i, 16, 12⟩
/-- OF-5, R365. -/
def OF_COEF2_A (i : Nat) : Fld := ⟨0x055000 + 0x4 * i, 0, 12⟩
/-- OF-5, R365. -/
def OF_COEF2_B (i : Nat) : Fld := ⟨0x055000 + 0x4 * i, 16, 12⟩
/-- OF-5, R365. -/
def OF_COEF3_A (i : Nat) : Fld := ⟨0x055800 + 0x4 * i, 0, 12⟩
/-- OF-5, R365. -/
def OF_COEF3_B (i : Nat) : Fld := ⟨0x055800 + 0x4 * i, 16, 12⟩
/-- OF-5, R365. -/
def OF_COEF4_A (i : Nat) : Fld := ⟨0x056000 + 0x4 * i, 0, 12⟩
/-- OF-5, R365. -/
def OF_COEF4_B (i : Nat) : Fld := ⟨0x056000 + 0x4 * i, 16, 12⟩
/-- OF-5, R365. -/
def OF_COEF5_A (i : Nat) : Fld := ⟨0x056800 + 0x4 * i, 0, 12⟩
/-- OF-5, R365. -/
def OF_COEF5_B (i : Nat) : Fld := ⟨0x056800 + 0x4 * i, 16, 12⟩
/-- OF-6, R381. -/
def OF_TX_CFG_ENABLE : Fld := ⟨0x050800, 0, 1⟩
/-- OF-6, R381. -/
def OF_TX_CFG_LANES : Fld := ⟨0x050800, 1, 2⟩
/-- OF-6, R381. -/
def OF_TX_CFG_LMAP : Fld := ⟨0x050800, 3, 8⟩
/-- OF-6, R381. -/
def OF_TX_CFG_LPOL : Fld := ⟨0x050800, 11, 4⟩
/-- OF-6, R381. -/
def OF_TX_CFG_CLKMODE : Fld := ⟨0x050800, 15, 1⟩
/-- OF-6, R381. -/
def OF_TX_CFG_DSK_PER : Fld := ⟨0x050800, 16, 8⟩
/-- OF-6, R381. -/
def OF_TX_RATE_MBPS : Fld := ⟨0x050804, 0, 13⟩
/-- OF-6, R381. -/
def OF_TX_HS_ENTRY : Fld := ⟨0x050808, 0, 16⟩
/-- OF-6, R381. -/
def OF_TX_HS_EXIT : Fld := ⟨0x050808, 16, 16⟩
/-- OF-6, R381. -/
def OF_TX_SENSE_GO : Fld := ⟨0x05080C, 0, 1⟩
/-- OF-6, R381. -/
def OF_TX_SENSE_DONE : Fld := ⟨0x05080C, 1, 1⟩
/-- OF-6, R381. -/
def OF_TX_SENSE_CODES : Fld := ⟨0x05080C, 2, 10⟩
/-- OF-6, R381. -/
def OF_TX_STAT_CFG_BUSY : Fld := ⟨0x050810, 0, 1⟩
/-- OF-6, R381. -/
def OF_TX_STAT_SENSE_BUSY : Fld := ⟨0x050810, 1, 1⟩
/-- OF-6, R381. -/
def OF_TX_STAT_ULPS : Fld := ⟨0x050810, 2, 1⟩
/-- OF-6, R381. -/
def OF_TX_STAT_FRAMES : Fld := ⟨0x050810, 16, 16⟩
/-- OF-6, R382. -/
def OF_TAP_ENABLE (i : Nat) : Fld := ⟨0x050940 + 0x20 * i, 0, 1⟩
/-- OF-6, R382. -/
def OF_TAP_SRC (i : Nat) : Fld := ⟨0x050940 + 0x20 * i, 1, 3⟩
/-- OF-6, R382. -/
def OF_TAP_NBUF (i : Nat) : Fld := ⟨0x050940 + 0x20 * i, 4, 3⟩
/-- OF-6, R382. -/
def OF_TAP_BASE (i : Nat) : Fld := ⟨0x050944 + 0x20 * i, 0, 32⟩
/-- OF-6, R382. -/
def OF_TAP_PITCH (i : Nat) : Fld := ⟨0x050948 + 0x20 * i, 0, 20⟩
/-- OF-6, R382. -/
def OF_TAP_RELEASE_IDX (i : Nat) : Fld := ⟨0x05094C + 0x20 * i, 0, 3⟩
/-- OF-6, R382. -/
def OF_TAP_DROPS (i : Nat) : Fld := ⟨0x050950 + 0x20 * i, 0, 32⟩
/-- MP-6, R321. -/
def EDGE_STATUS_BUSY : Fld := ⟨0x060000, 0, 1⟩
/-- MP-6, R321. -/
def EDGE_STATUS_NMS_BUSY : Fld := ⟨0x060000, 1, 1⟩
/-- MP-6, R321. -/
def EDGE_STATUS_PROGS : Fld := ⟨0x060000, 2, 4⟩
/-- MP-6, R321. -/
def EDGE_LOAD_LOAD : Fld := ⟨0x060004, 0, 10⟩
/-- MP-6, R316. -/
def EDGE_MEM_LFREE : Fld := ⟨0x060008, 0, 13⟩
/-- MP-6, R316. -/
def EDGE_MEM_CFREE : Fld := ⟨0x060008, 16, 9⟩
/-- MP-6, R317. -/
def EDGE_SAT : Fld := ⟨0x06000C, 0, 32⟩
/-- MP-6, R324. -/
def EDGE_DET_DROP : Fld := ⟨0x060010, 0, 32⟩
/-- MP-6, R317. -/
def EDGE_CTRL_CLR : Fld := ⟨0x060014, 0, 1⟩
/-- CE-7, R433. -/
def COF_CTRL_CANCEL : Fld := ⟨0x070000, 0, 1⟩
/-- CE-7, R433. -/
def COF_CTRL_FLUSH : Fld := ⟨0x070000, 1, 1⟩
/-- CE-7, R433. -/
def COF_CTRL_CLR : Fld := ⟨0x070000, 2, 1⟩
/-- CE-7, R429. -/
def COF_STATUS_BUSY : Fld := ⟨0x070004, 0, 1⟩
/-- CE-7, R429. -/
def COF_STATUS_MODE : Fld := ⟨0x070004, 1, 1⟩
/-- CE-7, R429. -/
def COF_STATUS_QUEUED : Fld := ⟨0x070004, 2, 5⟩
/-- CE-7, R429. -/
def COF_STATUS_PASS : Fld := ⟨0x070004, 7, 12⟩
/-- CE-7, R411. -/
def COF_STICKY_SPENT : Fld := ⟨0x070008, 0, 1⟩
/-- CE-7, R411. -/
def COF_STICKY_EMPTY : Fld := ⟨0x070008, 1, 1⟩
/-- CE-7, R411. -/
def COF_STICKY_KEY_MISMATCH : Fld := ⟨0x070008, 2, 1⟩
/-- CE-7, R411. -/
def COF_STICKY_KEY_FAULT : Fld := ⟨0x070008, 3, 1⟩
/-- CE-7, R411. -/
def COF_STICKY_SLOT_LOCKED : Fld := ⟨0x070008, 4, 1⟩
/-- CE-7, R417. -/
def COF_KBASE_KBASE : Fld := ⟨0x07000C, 0, 32⟩
/-- CE-7, R436. -/
def COF_KS_LOADED : Fld := ⟨0x070010, 0, 4⟩
/-- CE-7, R436. -/
def COF_KS_SUSPECT : Fld := ⟨0x070010, 4, 4⟩
/-- CE-7, R421. -/
def COF_PASSES : Fld := ⟨0x070014, 0, 32⟩
/-- CE-7, R428. -/
def COF_STALL : Fld := ⟨0x070018, 0, 32⟩
/-- CE-7, R437. -/
def COF_CE : Fld := ⟨0x07001C, 0, 32⟩
/-- CE-7, R432. -/
def COF_LOCKED : Fld := ⟨0x070020, 0, 32⟩
/-- PC-7, R478. -/
def FLT_STATUS_AON_HEAD : Fld := ⟨0x080000, 0, 6⟩
/-- PC-7, R478. -/
def FLT_STATUS_RING_FULL : Fld := ⟨0x080000, 6, 1⟩
/-- PC-7, R479. -/
def FLT_RING_CFG_ENABLE : Fld := ⟨0x080004, 0, 1⟩
/-- PC-7, R479. -/
def FLT_RING_CFG_SIZE : Fld := ⟨0x080004, 1, 4⟩
/-- PC-7, R479. -/
def FLT_RING_BASE : Fld := ⟨0x080008, 0, 32⟩
/-- PC-7, R479. -/
def FLT_RING_HEAD : Fld := ⟨0x08000C, 0, 16⟩
/-- PC-7, R479. -/
def FLT_RING_TAIL : Fld := ⟨0x080010, 0, 16⟩
/-- PC-7, R479. -/
def FLT_LOST : Fld := ⟨0x080014, 0, 32⟩
/-- PC-7, R482. -/
def FLT_MCFG_THRESH : Fld := ⟨0x080018, 0, 4⟩
/-- PC-7, R482. -/
def FLT_MCFG_WINDOW : Fld := ⟨0x080018, 4, 10⟩
/-- PC-7, R482. -/
def FLT_MCFG_MAXSTEP : Fld := ⟨0x080018, 14, 3⟩
/-- PC-7, R482. -/
def FLT_MCFG_V1 : Fld := ⟨0x080018, 17, 8⟩
/-- PC-7, R482. -/
def FLT_MCFG_FDROP : Fld := ⟨0x080018, 25, 7⟩
/-- PC-7, R486. -/
def FLT_MCFG2_V2 : Fld := ⟨0x08001C, 0, 8⟩
/-- PC-7, R486. -/
def FLT_MCFG2_QMARGIN : Fld := ⟨0x08001C, 8, 5⟩
/-- PC-7, R483. -/
def FLT_CORE_STEP (i : Nat) : Fld := ⟨0x080020 + 0x4 * i, 0, 3⟩
/-- PC-7, R483. -/
def FLT_CORE_EVENTS (i : Nat) : Fld := ⟨0x080020 + 0x4 * i, 3, 4⟩
/-- PC-7, R483. -/
def FLT_CORE_CHK_OFF (i : Nat) : Fld := ⟨0x080020 + 0x4 * i, 7, 1⟩
/-- PC-7, R483. -/
def FLT_CORE_RELAX (i : Nat) : Fld := ⟨0x080020 + 0x4 * i, 8, 1⟩
/-- PC-7, R483. -/
def FLT_CORE_FORCE_Q (i : Nat) : Fld := ⟨0x080020 + 0x4 * i, 9, 1⟩
/-- PC-7, R482. -/
def FLT_FOREEV : Fld := ⟨0x080040, 0, 32⟩
/-- PC-7, R488. -/
def FLT_SAVE_BASE : Fld := ⟨0x080044, 0, 32⟩
/-- PC-7, R491. -/
def FLT_TCFG_PERIOD : Fld := ⟨0x080048, 0, 16⟩
/-- PC-7, R491. -/
def FLT_TCFG_GUARD : Fld := ⟨0x080048, 16, 8⟩
/-- PC-7, R491. -/
def FLT_TCFG_PAR : Fld := ⟨0x080048, 24, 3⟩
/-- PC-7, R493. -/
def FLT_TCFG2_URGENT_MS : Fld := ⟨0x08004C, 0, 16⟩
/-- PC-7, R493. -/
def FLT_TSTAT_MAXWAIT : Fld := ⟨0x080050, 0, 24⟩
/-- PC-7, R493. -/
def FLT_TSTAT_BUSY : Fld := ⟨0x080050, 24, 1⟩
/-- PC-7, R493. -/
def FLT_TSTAT_URG_DEFER : Fld := ⟨0x080050, 25, 1⟩
/-- PC-7, R496. -/
def FLT_TRES_SEL_PACK : Fld := ⟨0x080054, 0, 4⟩
/-- PC-7, R496. -/
def FLT_TRES_SEL_PAT : Fld := ⟨0x080054, 4, 6⟩
/-- PC-7, R496. -/
def FLT_TRES_PASS : Fld := ⟨0x080058, 0, 8⟩
/-- PC-7, R496. -/
def FLT_TRES_RUN : Fld := ⟨0x080058, 8, 8⟩
/-- PC-7, R478. -/
def FLT_AON (i : Nat) : Fld := ⟨0x080800 + 0x4 * i, 0, 32⟩
/-- BS-14, R610. -/
def SEC_STATUS_SB_DONE : Fld := ⟨0x090000, 0, 1⟩
/-- BS-14, R610. -/
def SEC_STATUS_POR : Fld := ⟨0x090000, 1, 1⟩
/-- BS-14, R610. -/
def SEC_STATUS_LATCHED : Fld := ⟨0x090000, 2, 1⟩
/-- BS-14, R610. -/
def SEC_STATUS_UNLOCK_MODE : Fld := ⟨0x090000, 3, 1⟩
/-- BS-14, R610. -/
def SEC_STATUS_DEBUG : Fld := ⟨0x090000, 4, 1⟩
/-- BS-14, R610. -/
def SEC_STATUS_ARB0_END : Fld := ⟨0x090000, 5, 1⟩
/-- BS-14, R610. -/
def SEC_STATUS_ARB1_END : Fld := ⟨0x090000, 6, 1⟩
/-- BS-14, R610. -/
def SEC_STATUS_AFT_OFF : Fld := ⟨0x090000, 7, 1⟩
/-- BS-14, R610. -/
def SEC_STATUS_LEVEL : Fld := ⟨0x090000, 8, 2⟩
/-- BS-14, R590. -/
def SEC_BOOT_STEP : Fld := ⟨0x090004, 0, 4⟩
/-- BS-14, R590. -/
def SEC_BOOT_CODE : Fld := ⟨0x090004, 4, 8⟩
/-- BS-14, R590. -/
def SEC_BOOT_STRAP : Fld := ⟨0x090004, 12, 3⟩
/-- BS-14, R590. -/
def SEC_BOOT_RECOVERY : Fld := ⟨0x090004, 15, 1⟩
/-- BS-14, R590. -/
def SEC_BOOT_WARM : Fld := ⟨0x090004, 16, 1⟩
/-- BS-14, R590. -/
def SEC_BOOT_WDOG : Fld := ⟨0x090004, 17, 1⟩
/-- BS-14, R590. -/
def SEC_BOOT_SKIP : Fld := ⟨0x090004, 18, 8⟩
/-- BS-14, R590. -/
def SEC_BOOT_FUSE_REFUSED : Fld := ⟨0x090004, 26, 1⟩
/-- BS-14, R587. -/
def SEC_RESET_WARM : Fld := ⟨0x090008, 0, 1⟩
/-- BS-14, R587. -/
def SEC_RESET_COLD : Fld := ⟨0x090008, 1, 1⟩
/-- BS-14, R589. -/
def SEC_WDOG_TIMEOUT : Fld := ⟨0x09000C, 0, 16⟩
/-- BS-14, R589. -/
def SEC_WDOG_KICK : Fld := ⟨0x09000C, 16, 1⟩
/-- BS-14, R607. -/
def SEC_TAMPER_CFG_EN : Fld := ⟨0x090010, 0, 7⟩
/-- BS-14, R607. -/
def SEC_TAMPER_CFG_LEVEL : Fld := ⟨0x090010, 7, 2⟩
/-- BS-14, R607. -/
def SEC_TAMPER_CFG_DEBOUNCE : Fld := ⟨0x090010, 9, 8⟩
/-- BS-14, R607. -/
def SEC_TAMPER_CFG_LOCK : Fld := ⟨0x090010, 31, 1⟩
/-- BS-14, R607. -/
def SEC_TAMPER_STAT_SRC : Fld := ⟨0x090014, 0, 7⟩
/-- BS-14, R607. -/
def SEC_TAMPER_STAT_EVENTS : Fld := ⟨0x090014, 8, 8⟩
/-- BS-14, R607. -/
def SEC_TAMPER_T_LO : Fld := ⟨0x090018, 0, 32⟩
/-- BS-14, R607. -/
def SEC_TAMPER_T_HI : Fld := ⟨0x09001C, 0, 32⟩
/-- BS-14, R604. -/
def SEC_ARB_ARB0 : Fld := ⟨0x090020, 0, 7⟩
/-- BS-14, R604. -/
def SEC_ARB_ARB1 : Fld := ⟨0x090020, 8, 7⟩
/-- BS-14, R604. -/
def SEC_ARB_LATCH : Fld := ⟨0x090020, 16, 5⟩
/-- BS-14, R605. -/
def SEC_DEVPUB (i : Nat) : Fld := ⟨0x090030 + 0x4 * i, 0, 32⟩
/-- BS-14, R605. -/
def SEC_DEVID_LO : Fld := ⟨0x090090, 0, 32⟩
/-- BS-14, R605. -/
def SEC_DEVID_HI : Fld := ⟨0x090094, 0, 32⟩
/-- BS-14, R611. -/
def SEC_NONCE (i : Nat) : Fld := ⟨0x090098 + 0x4 * i, 0, 32⟩
/-- BS-14, R624. -/
def SEC_HOLDUP_C_C : Fld := ⟨0x0900A8, 0, 16⟩
/-- BS-14, R624. -/
def SEC_HOLDUP_V_VMIN : Fld := ⟨0x0900AC, 0, 16⟩
/-- BS-14, R624. -/
def SEC_HOLDUP_V_RATIO : Fld := ⟨0x0900AC, 16, 16⟩
/-- BS-14, R612. -/
def SEC_TOKEN_CTRL_GO : Fld := ⟨0x0900B0, 0, 1⟩
/-- BS-14, R612. -/
def SEC_TOKEN_CTRL_BUSY : Fld := ⟨0x0900B0, 1, 1⟩
/-- BS-14, R612. -/
def SEC_TOKEN_CTRL_OK : Fld := ⟨0x0900B0, 2, 1⟩
/-- BS-14, R612. -/
def SEC_TOKEN_CTRL_FAIL : Fld := ⟨0x0900B0, 3, 1⟩
/-- BS-14, R595. -/
def SEC_STAGE_LEN_LEN : Fld := ⟨0x0900B4, 0, 19⟩
/-- BS-14, R602. -/
def SEC_FUSEPROG_FIELD : Fld := ⟨0x0900B8, 0, 4⟩
/-- BS-14, R602. -/
def SEC_FUSEPROG_WORD : Fld := ⟨0x0900B8, 8, 8⟩
/-- BS-14, R602. -/
def SEC_FUSEDATA : Fld := ⟨0x0900BC, 0, 32⟩
/-- BS-14, R612. -/
def SEC_TOKEN (i : Nat) : Fld := ⟨0x090100 + 0x4 * i, 0, 32⟩
/-- PW-10, R583. -/
def TRC_CTRL_SINK_EN : Fld := ⟨0x0A0000, 0, 1⟩
/-- PW-10, R583. -/
def TRC_CTRL_MODE : Fld := ⟨0x0A0000, 1, 1⟩
/-- PW-10, R583. -/
def TRC_CTRL_SYNC_PER : Fld := ⟨0x0A0000, 2, 8⟩
/-- PW-10, R583. -/
def TRC_CTRL_CLR : Fld := ⟨0x0A0000, 10, 1⟩
/-- PW-10, R583. -/
def TRC_BASE : Fld := ⟨0x0A0004, 0, 32⟩
/-- PW-10, R583. -/
def TRC_SIZE : Fld := ⟨0x0A0008, 0, 5⟩
/-- PW-10, R583. -/
def TRC_HEAD : Fld := ⟨0x0A000C, 0, 30⟩
/-- PW-10, R583. -/
def TRC_TAIL : Fld := ⟨0x0A0010, 0, 30⟩
/-- PW-10, R583. -/
def TRC_STATUS_FULL : Fld := ⟨0x0A0014, 0, 1⟩
/-- PW-10, R583. -/
def TRC_STATUS_WRAPPED : Fld := ⟨0x0A0014, 1, 1⟩
/-- PW-10, R582. -/
def TRC_CORE_EN (i : Nat) : Fld := ⟨0x0A0020 + 0x4 * i, 0, 7⟩
/-- SL-9, R506. -/
def LNK_CFG_CHIP : Fld := ⟨0x0B0000, 0, 3⟩
/-- SL-9, R506. -/
def LNK_CFG_TOPO : Fld := ⟨0x0B0000, 3, 2⟩
/-- SL-9, R506. -/
def LNK_CFG_TMASTER : Fld := ⟨0x0B0000, 5, 1⟩
/-- SL-9, R506. -/
def LNK_CFG_REMOTE_EN : Fld := ⟨0x0B0000, 6, 1⟩
/-- SL-9, R506. -/
def LNK_CFG_CFG_BUSY : Fld := ⟨0x0B0000, 7, 1⟩
/-- SL-9, R507. -/
def LNK_ROUTE_ROUTE : Fld := ⟨0x0B0004, 0, 16⟩
/-- SL-9, R503. -/
def LNK_CTRL_TRAIN (i : Nat) : Fld := ⟨0x0B0010 + 0x40 * i, 0, 1⟩
/-- SL-9, R503. -/
def LNK_CTRL_RETRY_MAX (i : Nat) : Fld := ⟨0x0B0010 + 0x40 * i, 1, 3⟩
/-- SL-9, R503. -/
def LNK_CTRL_HOLD (i : Nat) : Fld := ⟨0x0B0010 + 0x40 * i, 4, 8⟩
/-- SL-9, R503. -/
def LNK_STAT_UP (i : Nat) : Fld := ⟨0x0B0014 + 0x40 * i, 0, 1⟩
/-- SL-9, R503. -/
def LNK_STAT_WIDTH (i : Nat) : Fld := ⟨0x0B0014 + 0x40 * i, 1, 1⟩
/-- SL-9, R503. -/
def LNK_STAT_FAIL (i : Nat) : Fld := ⟨0x0B0014 + 0x40 * i, 2, 1⟩
/-- SL-9, R503. -/
def LNK_STAT_DUP_CHIP (i : Nat) : Fld := ⟨0x0B0014 + 0x40 * i, 3, 1⟩
/-- SL-9, R503. -/
def LNK_STAT_LOSS_WARN (i : Nat) : Fld := ⟨0x0B0014 + 0x40 * i, 4, 1⟩
/-- SL-9, R503. -/
def LNK_STAT_LOST (i : Nat) : Fld := ⟨0x0B0014 + 0x40 * i, 5, 1⟩
/-- SL-9, R503. -/
def LNK_STAT_REVERSED (i : Nat) : Fld := ⟨0x0B0014 + 0x40 * i, 6, 1⟩
/-- SL-9, R503. -/
def LNK_STAT_PEER (i : Nat) : Fld := ⟨0x0B0014 + 0x40 * i, 7, 3⟩
/-- SL-9, R503. -/
def LNK_STAT_DOWNS (i : Nat) : Fld := ⟨0x0B0014 + 0x40 * i, 10, 8⟩
/-- SL-9, R505. -/
def LNK_LOSS (i : Nat) : Fld := ⟨0x0B0018 + 0x40 * i, 0, 32⟩
/-- SL-9, R504. -/
def LNK_CAP0 (i : Nat) : Fld := ⟨0x0B001C + 0x40 * i, 0, 32⟩
/-- SL-9, R504. -/
def LNK_CAP1 (i : Nat) : Fld := ⟨0x0B0020 + 0x40 * i, 0, 32⟩
/-- SL-9, R501. -/
def LNK_RETRY (i : Nat) : Fld := ⟨0x0B0024 + 0x40 * i, 0, 32⟩
/-- SL-9, R518. -/
def LNK_TIME_LOCKED : Fld := ⟨0x0B0100, 0, 1⟩
/-- SL-9, R518. -/
def LNK_TIME_TIME_CONFLICT : Fld := ⟨0x0B0100, 1, 1⟩
/-- SL-9, R518. -/
def LNK_TIME_SYNC_HOLD : Fld := ⟨0x0B0100, 2, 1⟩
/-- SL-9, R518. -/
def LNK_TIME_PATH : Fld := ⟨0x0B0100, 3, 1⟩
/-- SL-9, R518. -/
def LNK_TIME_OFFSET : Fld := ⟨0x0B0100, 16, 16⟩
/-- SL-9, R518. -/
def LNK_TDELAY_DELAY : Fld := ⟨0x0B0104, 0, 16⟩
/-- SL-9, R512. -/
def LNK_DENY : Fld := ⟨0x0B0108, 0, 32⟩
/-- SL-9, R522. -/
def LNK_RGRANT_FIRST (i : Nat) : Fld := ⟨0x0B0110 + 0x8 * i, 0, 21⟩
/-- SL-9, R522. -/
def LNK_RGRANT_LAST (i : Nat) : Fld := ⟨0x0B0114 + 0x8 * i, 0, 21⟩
/-- SL-9, R511. -/
def LNK_IW (i : Nat) : Fld := ⟨0x0B0400 + 0x4 * i, 0, 32⟩
/-- SL-9, R514. -/
def LNK_OB_CHIP (i : Nat) : Fld := ⟨0x0B0600 + 0x8 * i, 0, 3⟩
/-- SL-9, R514. -/
def LNK_OB_WIN (i : Nat) : Fld := ⟨0x0B0600 + 0x8 * i, 3, 5⟩
/-- SL-9, R514. -/
def LNK_OB_OPEN (i : Nat) : Fld := ⟨0x0B0600 + 0x8 * i, 8, 1⟩
/-- SL-9, R514. -/
def LNK_OB_KEY (i : Nat) : Fld := ⟨0x0B0600 + 0x8 * i, 16, 16⟩
/-- SL-9, R514. -/
def LNK_OB_JOB_JOB (i : Nat) : Fld := ⟨0x0B0604 + 0x8 * i, 0, 12⟩
/-- PS-7, R616. -/
def STO_STATUS_MOUNTED : Fld := ⟨0x0D0000, 0, 1⟩
/-- PS-7, R616. -/
def STO_STATUS_BUSY : Fld := ⟨0x0D0000, 1, 1⟩
/-- PS-7, R616. -/
def STO_STATUS_WORN : Fld := ⟨0x0D0000, 2, 1⟩
/-- PS-7, R616. -/
def STO_STATUS_MOUNT_ERR : Fld := ⟨0x0D0000, 3, 1⟩
/-- PS-7, R616. -/
def STO_STATUS_UNPROT : Fld := ⟨0x0D0000, 4, 1⟩
/-- PS-7, R616. -/
def STO_STATUS_PFAIL : Fld := ⟨0x0D0000, 5, 1⟩
/-- PS-7, R616. -/
def STO_STATUS_ENERGY_REFUSED : Fld := ⟨0x0D0000, 6, 1⟩
/-- PS-7, R616. -/
def STO_STATUS_SPARES : Fld := ⟨0x0D0000, 7, 7⟩
/-- PS-7, R623. -/
def STO_CFG_ERASE_LIMIT : Fld := ⟨0x0D0004, 0, 17⟩
/-- PS-7, R623. -/
def STO_CFG_MARGIN : Fld := ⟨0x0D0004, 17, 4⟩
/-- PS-7, R623. -/
def STO_CFG_UNPROT : Fld := ⟨0x0D0004, 21, 1⟩
/-- PS-7, R623. -/
def STO_CFG_LOCK : Fld := ⟨0x0D0004, 31, 1⟩
/-- PS-7, R624. -/
def STO_HOLD_P_HOLD : Fld := ⟨0x0D0008, 0, 12⟩
/-- PS-7, R624. -/
def STO_HOLD_T_ERASE : Fld := ⟨0x0D0008, 12, 12⟩
/-- PS-7, R624. -/
def STO_TPROG_T_PROG : Fld := ⟨0x0D000C, 0, 16⟩
/-- PS-7, R627. -/
def STO_PFAIL_MV : Fld := ⟨0x0D0010, 0, 16⟩
/-- PS-7, R624. -/
def STO_ENERGY_E : Fld := ⟨0x0D0014, 0, 16⟩
/-- PS-7, R624. -/
def STO_ENERGY_E_OP : Fld := ⟨0x0D0014, 16, 16⟩
/-- PS-7, R616. -/
def STO_SECTORS_N : Fld := ⟨0x0D0018, 0, 13⟩
/-- PS-7, R623. -/
def STO_MAXERASE_COUNT : Fld := ⟨0x0D001C, 0, 17⟩
/-- PS-7, R622. -/
def STO_LOAD_OK : Fld := ⟨0x0D0020, 0, 8⟩
/-- PS-7, R622. -/
def STO_LOAD_FAIL : Fld := ⟨0x0D0020, 8, 8⟩
/-- TH-10, R50. -/
def BRG_CTRL_TRAIN : Fld := ⟨0x0E0000, 0, 1⟩
/-- TH-10, R50. -/
def BRG_CTRL_RETRY_MAX : Fld := ⟨0x0E0000, 1, 3⟩
/-- TH-10, R50. -/
def BRG_CTRL_LANE_LIMIT : Fld := ⟨0x0E0000, 4, 8⟩
/-- TH-10, R50. -/
def BRG_CTRL_CLR_CNT : Fld := ⟨0x0E0000, 12, 1⟩
/-- TH-11, R51. -/
def BRG_STATUS_UP : Fld := ⟨0x0E0004, 0, 1⟩
/-- TH-11, R51. -/
def BRG_STATUS_WIDTH : Fld := ⟨0x0E0004, 1, 1⟩
/-- TH-11, R51. -/
def BRG_STATUS_FAIL : Fld := ⟨0x0E0004, 2, 1⟩
/-- TH-11, R51. -/
def BRG_STATUS_TSYNC : Fld := ⟨0x0E0004, 3, 1⟩
/-- TH-11, R51. -/
def BRG_STATUS_SPARE_F2A : Fld := ⟨0x0E0004, 4, 2⟩
/-- TH-11, R51. -/
def BRG_STATUS_SPARE_A2F : Fld := ⟨0x0E0004, 6, 2⟩
/-- TH-11, R51. -/
def BRG_STATUS_TDELAY : Fld := ⟨0x0E0004, 8, 8⟩
/-- TH-11, R51. -/
def BRG_STATUS_DOWNS : Fld := ⟨0x0E0004, 16, 8⟩
/-- TH-12, R52. -/
def BRG_BAD_F2A0 : Fld := ⟨0x0E0008, 0, 32⟩
/-- TH-12, R52. -/
def BRG_BAD_F2A1 : Fld := ⟨0x0E000C, 0, 18⟩
/-- TH-12, R52. -/
def BRG_BAD_A2F0 : Fld := ⟨0x0E0010, 0, 32⟩
/-- TH-12, R52. -/
def BRG_BAD_A2F1 : Fld := ⟨0x0E0014, 0, 18⟩
/-- TH-12, R42. -/
def BRG_RETRY : Fld := ⟨0x0E0018, 0, 32⟩
/-- TH-12, R40. -/
def BRG_ERRCNT : Fld := ⟨0x0E001C, 0, 32⟩
/-- TH-12, R53. -/
def BRG_LMAP_SEL : Fld := ⟨0x0E0020, 0, 6⟩
/-- TH-12, R53. -/
def BRG_LMAP_DIR : Fld := ⟨0x0E0020, 6, 1⟩
/-- TH-12, R53. -/
def BRG_LMAP_PHYS : Fld := ⟨0x0E0020, 8, 6⟩
/-- CO-5, R146. -/
def CORE_CTRL_HALT0 (i : Nat) : Fld := ⟨0x100000 + 0x10000 * i, 0, 1⟩
/-- CO-5, R146. -/
def CORE_CTRL_HALT1 (i : Nat) : Fld := ⟨0x100000 + 0x10000 * i, 1, 1⟩
/-- CO-5, R146. -/
def CORE_CTRL_RESUME0 (i : Nat) : Fld := ⟨0x100000 + 0x10000 * i, 2, 1⟩
/-- CO-5, R146. -/
def CORE_CTRL_RESUME1 (i : Nat) : Fld := ⟨0x100000 + 0x10000 * i, 3, 1⟩
/-- CO-5, R146. -/
def CORE_CTRL_CLR_SAT (i : Nat) : Fld := ⟨0x100000 + 0x10000 * i, 4, 1⟩
/-- CO-5, R146. -/
def CORE_CTRL_CLR_PERF (i : Nat) : Fld := ⟨0x100000 + 0x10000 * i, 5, 1⟩
/-- CO-6, R169. -/
def CORE_STATUS_PSTATE (i : Nat) : Fld := ⟨0x100004 + 0x10000 * i, 0, 2⟩
/-- CO-6, R169. -/
def CORE_STATUS_ACTIVE (i : Nat) : Fld := ⟨0x100004 + 0x10000 * i, 2, 1⟩
/-- CO-6, R169. -/
def CORE_STATUS_HALTED0 (i : Nat) : Fld := ⟨0x100004 + 0x10000 * i, 3, 1⟩
/-- CO-6, R169. -/
def CORE_STATUS_HALTED1 (i : Nat) : Fld := ⟨0x100004 + 0x10000 * i, 4, 1⟩
/-- CO-6, R169. -/
def CORE_STATUS_QUAR (i : Nat) : Fld := ⟨0x100004 + 0x10000 * i, 5, 1⟩
/-- CO-6, R169. -/
def CORE_STATUS_CORE_ASLEEP (i : Nat) : Fld := ⟨0x100004 + 0x10000 * i, 6, 1⟩
/-- CO-6, R169. -/
def CORE_STATUS_PAIR_DEGRADED (i : Nat) : Fld := ⟨0x100004 + 0x10000 * i, 7, 1⟩
/-- CO-6, R169. -/
def CORE_STATUS_CAUSE0 (i : Nat) : Fld := ⟨0x100004 + 0x10000 * i, 8, 8⟩
/-- CO-6, R169. -/
def CORE_STATUS_CAUSE1 (i : Nat) : Fld := ⟨0x100004 + 0x10000 * i, 16, 8⟩
/-- CO-6, R146. -/
def CORE_PC0 (i : Nat) : Fld := ⟨0x100008 + 0x10000 * i, 0, 15⟩
/-- CO-6, R146. -/
def CORE_PC1 (i : Nat) : Fld := ⟨0x10000C + 0x10000 * i, 0, 15⟩
/-- CO-6, R142. -/
def CORE_TOK0 (i : Nat) : Fld := ⟨0x100010 + 0x10000 * i, 0, 32⟩
/-- CO-6, R142. -/
def CORE_TOK1 (i : Nat) : Fld := ⟨0x100014 + 0x10000 * i, 0, 32⟩
/-- CO-6, R139. -/
def CORE_QSTAT (i : Nat) : Fld := ⟨0x100018 + 0x10000 * i, 0, 32⟩
/-- CO-6, R155. -/
def CORE_PERF_CYC (i : Nat) : Fld := ⟨0x100020 + 0x10000 * i, 0, 32⟩
/-- CO-6, R155. -/
def CORE_PERF_ARR (i : Nat) : Fld := ⟨0x100024 + 0x10000 * i, 0, 32⟩
/-- CO-6, R155. -/
def CORE_PERF_DENSE (i : Nat) : Fld := ⟨0x100028 + 0x10000 * i, 0, 32⟩
/-- CO-6, R155. -/
def CORE_PERF_STALL (i : Nat) : Fld := ⟨0x10002C + 0x10000 * i, 0, 32⟩
/-- CO-6, R159. -/
def CORE_SAT (i : Nat) : Fld := ⟨0x100030 + 0x10000 * i, 0, 32⟩
/-- CO-6, R163. -/
def CORE_LOGDROP (i : Nat) : Fld := ⟨0x100034 + 0x10000 * i, 0, 32⟩
/-- IS-10, R223. -/
def CORE_GDROP (i : Nat) : Fld := ⟨0x100038 + 0x10000 * i, 0, 32⟩
/-- CO-7, R167. -/
def CORE_PAIR_ROLE (i : Nat) : Fld := ⟨0x100040 + 0x10000 * i, 0, 2⟩
/-- CO-7, R167. -/
def CORE_PAIR_WINDOW (i : Nat) : Fld := ⟨0x100040 + 0x10000 * i, 2, 8⟩
/-- CO-7, R167. -/
def CORE_PAIR_DEGRADE (i : Nat) : Fld := ⟨0x100040 + 0x10000 * i, 10, 1⟩
/-- NN-6, R291. -/
def NUM_CTL_E5M2_INF0 (i : Nat) : Fld := ⟨0x100048 + 0x10000 * i, 0, 1⟩
/-- NN-6, R291. -/
def NUM_CTL_E5M2_INF1 (i : Nat) : Fld := ⟨0x100048 + 0x10000 * i, 1, 1⟩
/-- NN-7, R292. -/
def NUM_STATUS_SAT0 (i : Nat) : Fld := ⟨0x10004C + 0x10000 * i, 0, 1⟩
/-- NN-7, R292. -/
def NUM_STATUS_SAT1 (i : Nat) : Fld := ⟨0x10004C + 0x10000 * i, 1, 1⟩
/-- NN-7, R292. -/
def NUM_STATUS_NONFIN0 (i : Nat) : Fld := ⟨0x10004C + 0x10000 * i, 2, 1⟩
/-- NN-7, R292. -/
def NUM_STATUS_NONFIN1 (i : Nat) : Fld := ⟨0x10004C + 0x10000 * i, 3, 1⟩
/-- NN-7, R292. -/
def NUM_STATUS_DRAWER_BAD0 (i : Nat) : Fld := ⟨0x10004C + 0x10000 * i, 4, 1⟩
/-- NN-7, R292. -/
def NUM_STATUS_DRAWER_BAD1 (i : Nat) : Fld := ⟨0x10004C + 0x10000 * i, 5, 1⟩
/-- NN-7, R292. -/
def NUM_STATUS_HIST_FB0 (i : Nat) : Fld := ⟨0x10004C + 0x10000 * i, 6, 1⟩
/-- NN-7, R292. -/
def NUM_STATUS_HIST_FB1 (i : Nat) : Fld := ⟨0x10004C + 0x10000 * i, 7, 1⟩
/-- NN-7, R292. -/
def NUM_STATUS_SHELF_BAD0 (i : Nat) : Fld := ⟨0x10004C + 0x10000 * i, 8, 1⟩
/-- NN-7, R292. -/
def NUM_STATUS_SHELF_BAD1 (i : Nat) : Fld := ⟨0x10004C + 0x10000 * i, 9, 1⟩
/-- DX-5, R345. -/
def CORE_DX0_MODE (i : Nat) : Fld := ⟨0x100050 + 0x10000 * i, 0, 2⟩
/-- DX-5, R345. -/
def CORE_DX0_SCENE (i : Nat) : Fld := ⟨0x100050 + 0x10000 * i, 2, 1⟩
/-- DX-5, R345. -/
def CORE_DX0_RHO (i : Nat) : Fld := ⟨0x100050 + 0x10000 * i, 3, 10⟩
/-- DX-5, R345. -/
def CORE_DX0_PR (i : Nat) : Fld := ⟨0x100050 + 0x10000 * i, 13, 8⟩
/-- DX-5, R345. -/
def CORE_DX1_MODE (i : Nat) : Fld := ⟨0x100054 + 0x10000 * i, 0, 2⟩
/-- DX-5, R345. -/
def CORE_DX1_SCENE (i : Nat) : Fld := ⟨0x100054 + 0x10000 * i, 2, 1⟩
/-- DX-5, R345. -/
def CORE_DX1_RHO (i : Nat) : Fld := ⟨0x100054 + 0x10000 * i, 3, 10⟩
/-- DX-5, R345. -/
def CORE_DX1_PR (i : Nat) : Fld := ⟨0x100054 + 0x10000 * i, 13, 8⟩
/-- SP-5, R191. -/
def SP_STATUS_INIT_DONE (i : Nat) : Fld := ⟨0x100100 + 0x10000 * i, 0, 1⟩
/-- SP-5, R191. -/
def SP_STATUS_INIT_FAIL (i : Nat) : Fld := ⟨0x100100 + 0x10000 * i, 1, 1⟩
/-- SP-5, R191. -/
def SP_STATUS_RET_LOST (i : Nat) : Fld := ⟨0x100100 + 0x10000 * i, 2, 1⟩
/-- SP-5, R191. -/
def SP_STATUS_SCRUB_BUSY (i : Nat) : Fld := ⟨0x100100 + 0x10000 * i, 3, 1⟩
/-- SP-5, R191. -/
def SP_STATUS_SPARE (i : Nat) : Fld := ⟨0x100100 + 0x10000 * i, 4, 6⟩
/-- SP-5, R186. -/
def SP_SCRUB_PERIOD (i : Nat) : Fld := ⟨0x100104 + 0x10000 * i, 0, 16⟩
/-- SP-5, R186. -/
def SP_SCRUB_CE_LIMIT (i : Nat) : Fld := ⟨0x100104 + 0x10000 * i, 16, 4⟩
/-- SP-5, R186. -/
def SP_SCRUB_LATE (i : Nat) : Fld := ⟨0x100104 + 0x10000 * i, 20, 12⟩
/-- SP-5, R181. -/
def CORE_SP_CE (i : Nat) : Fld := ⟨0x100108 + 0x10000 * i, 0, 32⟩
/-- SP-5, R181. -/
def CORE_SP_UE (i : Nat) : Fld := ⟨0x10010C + 0x10000 * i, 0, 32⟩
/-- SP-5, R178. -/
def CORE_SP_CONFLICT (i : Nat) : Fld := ⟨0x100110 + 0x10000 * i, 0, 32⟩
/-- SP-5, R181. -/
def SP_LAST_ERR_ROW (i : Nat) : Fld := ⟨0x100114 + 0x10000 * i, 0, 17⟩
/-- SP-5, R181. -/
def SP_LAST_ERR_WORD (i : Nat) : Fld := ⟨0x100114 + 0x10000 * i, 17, 6⟩
/-- SP-5, R181. -/
def SP_LAST_ERR_SYND (i : Nat) : Fld := ⟨0x100114 + 0x10000 * i, 23, 8⟩
/-- SP-5, R181. -/
def SP_LAST_ERR_UE (i : Nat) : Fld := ⟨0x100114 + 0x10000 * i, 31, 1⟩
/-- SP-5, R178. -/
def SP_CLR_CLR (i : Nat) : Fld := ⟨0x100118 + 0x10000 * i, 0, 1⟩
/-- SP-5, R197. -/
def SP_RANGE_A_FIRST (i j : Nat) : Fld := ⟨0x100180 + 0x10000 * i + 8 * j, 0, 17⟩
/-- SP-5, R197. -/
def SP_RANGE_A_VALID (i j : Nat) : Fld := ⟨0x100180 + 0x10000 * i + 8 * j, 31, 1⟩
/-- SP-5, R197. -/
def SP_RANGE_B_LAST (i j : Nat) : Fld := ⟨0x100184 + 0x10000 * i + 8 * j, 0, 17⟩
/-- SP-5, R197. -/
def SP_RANGE_B_CLASS (i j : Nat) : Fld := ⟨0x100184 + 0x10000 * i + 8 * j, 17, 2⟩
/-- SP-5, R197. -/
def SP_RANGE_B_JOB (i j : Nat) : Fld := ⟨0x100184 + 0x10000 * i + 8 * j, 19, 12⟩
/-- SP-5, R197. -/
def SP_RANGE_B_SHARED (i j : Nat) : Fld := ⟨0x100184 + 0x10000 * i + 8 * j, 31, 1⟩
/-- SE-5, R441. -/
def CK_CTRL_ENABLE (i : Nat) : Fld := ⟨0x100200 + 0x10000 * i, 0, 1⟩
/-- SE-5, R441. -/
def CK_CTRL_REPLAY_MAX (i : Nat) : Fld := ⟨0x100200 + 0x10000 * i, 1, 8⟩
/-- SE-5, R441. -/
def CK_CTRL_CLR (i : Nat) : Fld := ⟨0x100200 + 0x10000 * i, 9, 1⟩
/-- SE-5, R449. -/
def CK_STATUS_CHECKER_SUSPECT (i : Nat) : Fld := ⟨0x100204 + 0x10000 * i, 0, 1⟩
/-- SE-5, R449. -/
def CK_STATUS_STORM (i : Nat) : Fld := ⟨0x100204 + 0x10000 * i, 1, 1⟩
/-- SE-5, R449. -/
def CK_STATUS_DIGEST_SUSPECT (i : Nat) : Fld := ⟨0x100204 + 0x10000 * i, 2, 1⟩
/-- SE-5, R449. -/
def CK_TRANSIENT (i : Nat) : Fld := ⟨0x100208 + 0x10000 * i, 0, 32⟩
/-- SE-5, R449. -/
def CK_PERSISTENT (i : Nat) : Fld := ⟨0x10020C + 0x10000 * i, 0, 32⟩
/-- SE-5, R449. -/
def CK_CHECKER (i : Nat) : Fld := ⟨0x100210 + 0x10000 * i, 0, 32⟩
/-- SE-5, R443. -/
def CK_SKIP (i : Nat) : Fld := ⟨0x100214 + 0x10000 * i, 0, 32⟩
/-- SE-5, R438. -/
def CK_PARITY (i : Nat) : Fld := ⟨0x100218 + 0x10000 * i, 0, 32⟩
/-- SE-5, R454. -/
def CK_PLAUS (i : Nat) : Fld := ⟨0x10021C + 0x10000 * i, 0, 32⟩
/-- SE-5, R455. -/
def CK_PLAUS_RERUN (i : Nat) : Fld := ⟨0x100220 + 0x10000 * i, 0, 32⟩
/-- SE-5, R446. -/
def CK_LAST_ADDR (i : Nat) : Fld := ⟨0x100224 + 0x10000 * i, 0, 32⟩
/-- SE-5, R456. -/
def DIG_ROW_FIRST (i : Nat) : Fld := ⟨0x100230 + 0x10000 * i, 0, 17⟩
/-- SE-5, R456. -/
def DIG_CNT_COUNT (i : Nat) : Fld := ⟨0x100234 + 0x10000 * i, 0, 18⟩
/-- SE-5, R456. -/
def DIG_GO_GO (i : Nat) : Fld := ⟨0x100238 + 0x10000 * i, 0, 1⟩
/-- SE-5, R456. -/
def DIG_GO_BUSY (i : Nat) : Fld := ⟨0x100238 + 0x10000 * i, 1, 1⟩
/-- SE-5, R456. -/
def DIG_GO_POISON (i : Nat) : Fld := ⟨0x100238 + 0x10000 * i, 2, 1⟩
/-- SE-5, R456. -/
def DIG_RES_LO (i : Nat) : Fld := ⟨0x10023C + 0x10000 * i, 0, 32⟩
/-- SE-5, R456. -/
def DIG_RES_HI (i : Nat) : Fld := ⟨0x100240 + 0x10000 * i, 0, 32⟩

end F

end Sys2Proof.Machine
end

