-- ==== Sys2Proof/Machine/Units.lean ====
section
/-! DEFINITION. The state of each unit of the block, as plain data. Control registers are not here: they are the map
`regs` of `State`, by offset. -/

namespace Sys2Proof.Machine

/-! ### Device time (chapter 02) -/

/-- The DTIME master, the Aft replica and the trim accumulator (R83–R88). -/
structure TimeSt where
  /-- DTIME master counter, 64 bits (R83). -/
  now : Nat
  /-- Aft replica of DTIME (R84, R47). -/
  aft : Nat
  /-- What is left of a slewed alignment correction of the Aft replica, ns (R85); a time message set it, and TSYNC waits until at
  most 2 ns are left (R84). -/
  aftSlew : Int
  syncing : Bool
  /-- What is left of a slewed correction of the master against the time master's DTIME, ns (R518, R85). -/
  slew : Int
  /-- Accumulated trim of TIME_SLEW in 10^-9 ns (R88). -/
  trim : Int
  /-- Step still to be taken by the Aft replicas (R86). -/
  stepPending : Option Int
deriving DecidableEq, Repr

/-- A frame-sync generator (R91–R94): index of the next edge, whether the pulse is on and when it ends, and the last
edge. -/
structure FsgSt where
  next : Nat
  armed : Bool
  level : Bool
  pulseEnd : Nat
  lastEdge : Nat
  prevEdge : Nat
  /-- Edge times received over the Shaelo link for a SLAVE generator, earliest first (R520). -/
  linkEdges : List Nat
  /-- Time master: index of the first edge whose time has not been sent (R520). -/
  sent : Nat
  /-- Edges held over without an edge time (R520). -/
  holdover : Nat
deriving DecidableEq, Repr

/-! ### Imdun bridge (chapter 01) -/

/-- A stored 8-byte word and its check byte (R180). -/
structure SpWord where
  data : BitVec 64
  chk : BitVec 8
deriving DecidableEq, Repr

/-- One direction of the bridge. -/
structure BrgDir where
  /-- Physical lane of each logical lane 0–47 (R35, R53). -/
  lmap : List Nat
  /-- Transmitter's credits per class (R44, R49). -/
  credits : List Nat
  /-- Messages waiting at the transmitter (R45, R46). -/
  queue : List BrgMsg
  /-- A read request of this direction has waited 5 ms for rows that are held, and completes poisoned (R192). -/
  late : Bool
  /-- Turn of the weighted round-robin: class and turns left (R46). -/
  rrCls : Nat
  rrLeft : Nat
  /-- Message flits of the group being filled, in slot order (R36). -/
  slots : List (BitVec 256)
  /-- Sequence number of the next group to send, and the last number acknowledged (R41). -/
  seq : Nat
  acked : Nat
  /-- The last 64 groups sent, oldest first, with their sequence numbers (R42). -/
  replay : List (Nat × FlitGroup)
  /-- Groups that a NAK asked to be resent, oldest first (R42). -/
  resend : List (Nat × FlitGroup)
  /-- Receiver: number of the next group expected, and consecutive NAKs for it (R42, R43). -/
  expect : Nat
  naks : Nat
  /-- A NAK to return in the next link flit of the other direction (R42). -/
  nakOut : Bool
  /-- Receiver: message flits taken and not yet delivered, a buffer for each class (R45), oldest first; list 7 holds messages
  with the reserved class 7 (R40). -/
  rx : List (List (BitVec 256))
  /-- Receiver: class of the message whose data flits are still to come, and how many those are. -/
  rxCls : Nat
  rxLeft : Nat
  /-- Credits to return, per class (R44). -/
  credOut : List Nat
  /-- LPAR mismatches per logical lane within the current millisecond (R53). -/
  lpar : SMap Nat
  lparSince : Nat
  /-- Receiver: the logical lane it has asked to swap, until the transmitter acknowledges (R53). -/
  swapLane : Option Nat
  /-- SWAP codes and lanes still to send, one in each link flit of this direction (Table TH-7). -/
  swapOut : List (Nat × Nat)
  /-- Read requests received and not completed: tag and destination (R55). -/
  reads : List BrgMsg
  /-- Messages handed to the units of the receiving half, newest first, with their data as 8-byte words: the poison marker
  stands in the four words of each data flit that PMASK marks (R39). -/
  delivered : List (BrgMsg × List SpWord)
deriving DecidableEq, Repr

/-- The bridge as a whole. -/
structure BrgSt where
  f2a : BrgDir
  a2f : BrgDir
  /-- Training in progress, and when it was started (Table TH-9). -/
  training : Bool
  trainAt : Nat
  /-- Training follows a bridge-down, so the firmware's retrain counts (R58). -/
  retrains : Nat
  downAt : Nat
  wasUp : Bool
  /-- The lanes now marked bad stay so over the next training: a lane failed with no spare left (R54). -/
  keepBad : Bool
deriving DecidableEq, Repr

/-! ### Fault records (chapter 16) -/

/-- A fault record (Table PC-2), less the sequence number that the fault manager gives it. -/
structure FRec where
  dtime : Nat
  unit : Nat
  cls : Nat
  job : Nat
  poison : Bool
  kill : Bool
  opc : Nat
  addr : Nat
  akind : Nat
  word : Nat
  synd : Nat
  /-- Margin event charged to this core, when the class is marked M or Q (R481). For a pair event, its primary. -/
  core : Option Nat
  /-- A second core charged with the event (R461). -/
  also : Option Nat
  /-- Stripe of a pair event (R464); no part of the record. -/
  stripe : Nat
deriving DecidableEq, Repr

/-- Test request (R491): what is still to run, as (core, stored pack index, pattern); the ring and TAG of its command, if one
sent it; when it was accepted. -/
structure TestReq where
  todo : List (Nat × Nat × Nat)
  urgent : Bool
  at_ : Nat
  /-- It waits as ROUTINE because an urgent borrow was refused (R493). -/
  deferred : Bool
deriving DecidableEq, Repr

/-- A running test slot (R487): the pattern entry it runs and the saved instruction words, SMEM bytes and scratchpad words, by
address. -/
structure TestSlot where
  core : Nat
  pack : Nat
  pat : Nat
  entry : List (BitVec 8)
  start : Nat
  savedImem : List (Nat × BitVec 64)
  savedSmem : List (Nat × BitVec 8)
  savedRows : List (Nat × BitVec 64 × BitVec 8)
  /-- Tokens that ended FAULT, with the ID of the unit that found it (R496). -/
  fails : List (Nat × Nat) := []
deriving DecidableEq, Repr

/-- The fault manager. -/
structure FltSt where
  /-- Records of Fore units and of Aft units on their way to the fault manager (R480). -/
  fore : List FRec
  aft : List FRec
  /-- Aft records lost past the 16 that the Aft fabric holds while the bridge is down (R58). -/
  aftLost : Nat
  /-- Next record sequence number (R480). -/
  seq : Nat
  /-- Records not written to the DRAM ring and not yet told of (R479). -/
  lostPending : Nat
  /-- Margin events per core: their times in the window (R481). -/
  events : List (Nat × Nat)
  /-- Kill notices on their way to gates: job and gate (R470). -/
  notices : List (Nat × Nat)
  /-- Jobs whose units have read a poisoned WEIGHT row, with the package it belongs to (R472). -/
  taints : List (Nat × Nat)
  /-- Test requests waiting, running slots, last periodic request, next core of the rotation (R491, R492). -/
  tests : List TestReq
  slots : List TestSlot
  lastPeriodic : Nat
  rotor : Nat
  /-- Core lent to an urgent request, and since when (R493). -/
  borrow : Option (Nat × Nat)
  /-- Results of patterns: (pack, pattern, pass mask, run mask) (R496). -/
  results : List (Nat × Nat × Nat × Nat)
deriving DecidableEq, Repr

/-! ### Stripe cores and scratchpads (chapters 04–07, 15) -/

/-- State of a completion token (R142). -/
inductive TokSt where
  | free | busy | done | fault
deriving DecidableEq, Repr

/-- A token: its state and, in FAULT, the exception it holds (R145). -/
structure Tok where
  st : TokSt
  cause : Nat
deriving DecidableEq, Repr

/-- What a unit instruction writes when it finishes. -/
inductive UEff where
  /-- One row (scratchpad, or awning buffer) of a core: 64 words with their poison. -/
  | row (core : Nat) (awn : Bool) (r : Nat) (ws : List (BitVec 64 × Bool))
  /-- SMEM bytes of the executing core. -/
  | smem (a : Nat) (bs : List (BitVec 8))
  /-- A row to a device address, a commit when flagged (R267). -/
  | dev (addr : Nat) (ws : List (BitVec 64 × Bool)) (commit : Bool)
  /-- A row through an outbound Shaelo binding (R268): binding, window row, words, commit, arrive. -/
  | remote (bind : Nat) (r : Nat) (ws : List (BitVec 64 × Bool)) (arrive : Bool)
  /-- A row of band results to the Edge engine (R271): result tensor, positions of its spatial row, its place in that row,
  whether it is the last one there, and words. -/
  | result (t x j : Nat) (last : Bool) (ws : List (BitVec 64 × Bool))
  /-- Counters: saturations, SCENE, changed and total positions, drawer, shelf, history and non-finite flags. -/
  | sat (n : Nat)
  | scene (changed total : Nat) (set : Bool)
  | status (bit : Nat)
  | perf (arr dense : Nat)
  /-- A fault record written by the unit. -/
  | record (r : FRec)
deriving DecidableEq, Repr

/-- A check block that is replayed (R447): its first output channel / 16 and first position / 16, the cells of the original
that differ from a fault-free one (channel and position within the block, code), and the address field of R446. -/
structure Replay where
  o : Nat
  p : Nat
  errs : List CellErr
  addr : Nat
deriving DecidableEq, Repr

/-- An instruction in a unit queue (R140, R205, R278, R290). -/
structure UInst where
  word : BitVec 64
  pc : Nat
  tok : Nat
  job : Nat
  stripe : Nat
  /-- Descriptors captured at issue: DD, DA, DB, DC (R205). -/
  dd : BitVec 256
  da : BitVec 256
  db : BitVec 256
  dc : BitVec 256
  /-- Scalar operand captured at issue. -/
  sx : Nat
  sy : Nat
  /-- Check mode captured at issue (R278). -/
  ck : Nat
  /-- Generator where the draws reserved at issue begin (R290). -/
  sr : BitVec 64
  srN : Nat
  /-- The unit has started it (R140). -/
  started : Bool
  /-- What it writes when it finishes, and its exception. -/
  effs : List UEff
  cause : Nat
  /-- Frame of its stripe. -/
  frame : Nat
  /-- Check blocks with a saturated cell, blocks compared, and the block that replays (R441–R448). -/
  satB : List (Nat × Nat)
  checked : List (Nat × Nat)
  replay : Option Replay
  /-- A DMA read has waited 5 ms for rows that are held, and completes poisoned (R192). -/
  late : Bool
  /-- What the lanes check of each cell of the result, by channel, then position, where they check it: its exact sum, and the sum of
  the absolute values of its products and its initial value (R441–R445). -/
  cells : List (FV × FV) := []
deriving DecidableEq, Repr

/-- A GSEND or GRECV held by a ring stop (R222, R223). -/
structure GReq where
  send : Bool
  right : Bool
  tok : Nat
  desc : BitVec 256
  job : Nat
  /-- Frame number * 65,536 + stripe. -/
  stripe : Nat
  /-- Rows already moved. -/
  got : Nat
  /-- Exception found so far, 0 for none. -/
  cause : Nat
deriving DecidableEq, Repr

/-- A halo row buffered in a ring stop (R223). -/
structure GRow where
  right : Bool
  ctx : Nat
  job : Nat
  /-- Frame number * 65,536 + stripe. -/
  stripe : Nat
  ws : List (BitVec 64 × Bool)
  /-- First row of its send. -/
  first : Bool
  last : Bool
deriving DecidableEq, Repr

/-- A CRR or CRW that waits for its answer (R231, R232). -/
structure CrWait where
  write : Bool
  off : Nat
  rd : Nat
  val : BitVec 32
deriving DecidableEq, Repr

/-- One hardware context of a core (Table IS-1, R135). -/
structure Ctx where
  /-- S0–S31; what S0 holds is never read (R204). -/
  s : Vector (BitVec 32) 32
  /-- P7–P0, bit 0 not used (R204). -/
  p : BitVec 8
  d : Vector (BitVec 256) 32
  tok : Vector Tok 16
  pc : Nat
  epc : Nat
  ecause : BitVec 32
  handler : Bool
  /-- Stochastic-rounding generator: its state after the whole groups of four draws reserved so far, and the draws of
  the next group that are reserved (R160, R288–R290). -/
  sr : BitVec 64
  srN : Nat
  /-- Register words whose parity fails: 0–31 S, 32–39 P, 64 + 8d + w word w of D (R439). -/
  parBad : SMap Bool
  /-- DTIME [63:32] latched by INFO selector 0x09. -/
  infoHi : BitVec 32
  /-- Check mode set by CKCTL (R278). -/
  ck : Nat
  /-- The job whose program runs here. -/
  job : Option Nat
  /-- A stripe is in progress, its index, the frame counter it belongs to (R225). -/
  running : Bool
  stripe : Nat
  frame : Nat
  /-- INFO flags of the stripe: previous stripe aborted, frame flags non-zero. -/
  prevAborted : Bool
  frameFlags : Bool
  /-- D_k [31:0] as INFO 0x0B reports it, and when the stripe started here. -/
  dk : Nat
  startAt : Nat
  /-- Tile map and number of stripes of the stripe's frame, from which INFO 0x05–0x07 and 0x0E report (R225). -/
  tiles : List Nat
  nStr : Nat
  /-- Halted by HALT or CORE_CTRL, and that HALT ended the program (R228). -/
  halted : Bool
  ended : Bool
  /-- A halt asked for, taken at the next instruction boundary (R146). -/
  haltReq : Bool
  /-- JOB barriers issued in the stripe, and whether the context waits at one (R220). -/
  bars : Nat
  atBar : Bool
  /-- The context waits at a stripe barrier for WEIGHT rows being written (R199). -/
  held : Bool
  /-- Unit queues: array, vector, quantise, transfer, check (Table CO-2). -/
  queues : Vector (List UInst) 5
  /-- Instruction stalled on a full queue (R139): unit and entry, or a ring-stop request. -/
  stalled : Option (Nat × UInst)
  stallG : Option GReq
  /-- Ring-stop requests (R223). -/
  greqs : List GReq
  /-- A control-register access that the Aft fabric or the Lantern has to answer (R232). -/
  crWait : Option CrWait
  /-- Array replays used in the current stripe (R451). -/
  replays : Nat
  /-- The last transfer that the core's DMA engine started was this context's (R161). -/
  lastX : Bool
deriving DecidableEq, Repr

/-- A row held by the Aft fabric for pairing: its number and effect (R167). -/
structure HeldRow where
  seq : Nat
  ctx : Nat
  job : Nat
  eff : UEff
  since : Nat
  /-- Shaelo TAG, frame and stripe of its transfer. -/
  tag : Nat
  frame : Nat
  stripe : Nat
deriving DecidableEq, Repr

/-- An access held while a scratchpad initialises or wakes (R192, R194). -/
structure HeldAcc where
  write : Bool
  row : Nat
  ws : List (BitVec 64 × Bool)
  since : Nat
  /-- Who waits. A write: 7 EMIT, 9 the HOST, 10 the HSP, 16 + 4 k + x a DMA write of context x of core k, 0 any other. A read: the master (1 HOST, 2 HSP)
  and the bytes of the row it asked for; or a requester that asks again once the rows are free: 10 the bridge toward Aft, 11 toward
  Fore, 16 + 16 p + b buffer b of Shaelo port p (also for its writes), 64 + 4 k + x a DMA read, with the index of its instruction and its token in `lo` and `n`. -/
  who : Nat
  lo : Nat
  n : Nat
deriving DecidableEq, Repr

/-- A Logbook packet (R163, R582): TYPE, SRC, DTIME and PAYLOAD. -/
structure LogPkt where
  typ : Nat
  src : Nat
  time : Nat
  val : Nat
deriving DecidableEq, Repr

/-- A stripe core with its memories. -/
structure Core where
  ctx : Vector Ctx 3
  /-- Instruction memory, 32,768 words (R148), and words whose ECC finds a double error (R150). -/
  imem : SMap (BitVec 64)
  imemBad : SMap Bool
  /-- SMEM, 64 KiB (R149), and bytes whose ECC finds a double error. -/
  smem : SMap (BitVec 8)
  smemBad : SMap Bool
  /-- Scratchpad words by row * 64 + word (R171, R180). -/
  sp : SMap SpWord
  /-- Awning buffer words by row * 64 + word (2,048 rows). -/
  awn : SMap SpWord
  /-- Spares free per bank and rows remapped (R189–R191). -/
  spares : List Nat
  remapped : List Nat
  /-- Initialisation or wake pass in progress and since when (R192, R194). -/
  initing : Bool
  waking : Bool
  initAt : Nat
  held : List HeldAcc
  /-- Scrub pass: running, next row, start of the last pass, queued rows, and per row twice the corrected errors in this pass, plus
  1 once SP_CE_STORM has been written for it (R184–R188). -/
  scrubbing : Bool
  /-- A pass is due and waits for the one that runs (R186). -/
  scrubDue : Bool
  scrubPos : Nat
  scrubAt : Nat
  scrubQ : List Nat
  scrubCe : SMap Nat
  /-- Retention supply seen below its stop threshold in NAP (R195). -/
  retLost : Bool
  /-- Runs of WEIGHT rows being written by loader or firmware, each as first row and rows (R199). -/
  weightWrite : List (Nat × Nat)
  /-- Ring stop buffers (R223). -/
  ring : List GRow
  /-- Pairing (R165, R167): outbound rows held; digests, on a secondary those on their way and on a primary those that came
  ahead of their row; and, per context, stripe order * 2^20 + outbound rows of that stripe so far. -/
  pairHeld : List HeldRow
  pairDig : List (Nat × BitVec 64)
  outSeq : SMap Nat
  /-- Logbook: packets held, packets lost while it could not drain, packets since the last SYNC (R163, R582–R586). -/
  log : List LogPkt
  logLost : Nat
  logSince : Nat
  /-- A SYNC triple is due because the sink was enabled (R584). -/
  logFirst : Bool
  logFlush : Bool
  logFlushAt : Nat
  sleepTo : Nat
  /-- Since when the core is IDLE (R560), and time of the wake. -/
  idleSince : Nat
  /-- Digest engine: rows, and since when (R456). -/
  digRow : Nat
  digCnt : Nat
  digBusy : Bool
  digHi : BitVec 32
  /-- Parts of a core cycle, in 1/1000, not yet counted in CORE_PERF_CYC. -/
  cycAcc : Nat
  /-- The core is in quarantine once its stripe ends (R485). -/
  quarPending : Bool
deriving DecidableEq, Repr

/-! ### Jobs (chapters 02, 06, 10, 16) -/

/-- States of a job (R465). -/
inductive JobSt where
  | loaded | running | halted | dead
deriving DecidableEq, Repr

/-- A row range of a manifest (Table SP-3, Table IS-13). -/
structure RowRange where
  cls : Nat
  first : Nat
  last : Nat
  /-- Index of the MODEL entry of a WEIGHT range. -/
  model : Nat
deriving DecidableEq, Repr

/-- What a manifest takes on one core (Table IS-13). -/
structure CoreShare where
  used : Bool
  imemFirst : Nat
  imemCount : Nat
  smemFirst : Nat
  smemCount : Nat
  awnFirst : Nat
  awnCount : Nat
  rows : List RowRange
deriving DecidableEq, Repr

/-- A MODEL entry (Table IS-13). -/
structure ModelRef where
  pkg : Nat
  version : Nat
  digest : Nat
deriving DecidableEq, Repr

/-- A register grant (Table IS-13). -/
structure RegGrant where
  first : Nat
  last : Nat
  acc : Nat
deriving DecidableEq, Repr

/-- A stripe of a frame and its band (R62, R73–R82). -/
structure StripeRec where
  k : Nat
  /-- Ready time R_k, deadline D_k once it is known, completion time C_k. -/
  ready : Option Nat
  deadline : Option Nat
  done : Option Nat
  /-- Cores on which it has started, with the mode each was given (R332), and cores that have finished it. -/
  started : List (Nat × Nat)
  finished : List Nat
  aborted : Bool
  /-- It has counted in DX_SCENE, and in a mode counter (R345); its slack is settled. -/
  scene : Bool
  counted : Bool
  settled : Bool
deriving DecidableEq, Repr

/-- A row of an Edge buffer: its plane row in the frame, and per position the channel values, as FP16 codes, or a label;
and the positions that carry poison. -/
structure ERow where
  q : Int
  vals : List (List Nat)
  pois : List Bool
deriving DecidableEq, Repr

/-- A row of band results that a PSEND brought to the Edge engine (R271): band, result tensor, core, positions of its
spatial row, whether it ends that row, and words. -/
structure ResRow where
  k : Nat
  t : Nat
  core : Nat
  x : Nat
  last : Bool
  ws : List (BitVec 64 × Bool)
deriving DecidableEq, Repr

/-- A box candidate (R323, R324): index, score and its FP16 code, class, anchor, corners, position. -/
structure Cand where
  index : Nat
  score : Nat
  cls : Nat
  anchor : Nat
  x0 : Nat
  y0 : Nat
  x1 : Nat
  y1 : Nat
  px : Nat
  py : Nat
  /-- Band whose rows made it (R327). -/
  band : Nat
deriving DecidableEq, Repr

/-- A frame of a job from its frame start to the end of its flush band. -/
structure JFrame where
  no : Nat
  /-- Frame start, source Intake context, its frame counter, height, bit depth, Intake flags, memory-path buffer. -/
  fs : Nat
  ctx : Nat
  src : Nat
  h : Nat
  depth : Nat
  flags : Nat
  buf : Option Nat
  /-- The tile map of the frame (R67). -/
  tiles : List Nat
  bands : List StripeRec
  /-- Corrected lines at the Edge engine that no plane row has taken, and the last pair taken. -/
  lines : List (List Nat × Bool)
  lastPair : List (List Nat × Bool)
  /-- Next input plane row of the Edge engine; the frame end has arrived. -/
  nextQ : Nat
  ended : Bool
  /-- Edge buffers: buffer number and row, newest last (R315). -/
  bufs : List (Nat × ERow)
  /-- Result rows that no TAKE has joined, and plane rows covered by the rows taken, by band and result tensor. -/
  res : List ResRow
  taken : List (Nat × Nat × Nat)
  /-- Candidates of the frame, how many were seen, and OVERFLOW (R324). -/
  cands : List Cand
  seen : Nat
  overflow : Bool
  /-- A candidate was derived from a poisoned word (R467). -/
  boxPois : Bool := false
  /-- NMS has run. -/
  suppressed : Bool
deriving DecidableEq, Repr

/-- A record of an Edge program (Table MP-3): its 32 bytes. -/
abbrev EdgeRec := List (BitVec 8)

/-- A loaded Edge program (R314–R316). -/
structure EdgeProg where
  recs : List EdgeRec
  consts : List (BitVec 8)
  lrows : Nat
deriving DecidableEq, Repr

/-- A loaded job (R465, Table IS-13). -/
structure Job where
  id : Nat
  version : Nat
  /-- In-line, memory-path or session. -/
  inline : Bool
  session : Bool
  paired : Bool
  s : Nat
  a : Nat
  entry : Nat
  handler : Nat
  tail : Nat
  dlBase : Nat
  dlStep : Nat
  inctx : Nat
  width : Nat
  height : Nat
  tiles : List Nat
  /-- A tile map that waits for the next frame start (R67), and the map to return to after a borrow (R493). -/
  tilesNext : Option (List Nat)
  tilesBack : Option (List Nat)
  share : List CoreShare
  models : List ModelRef
  fsgs : List Nat
  pins : List (Nat × Nat)
  streams : List Nat
  taps : List Nat
  inctxs : List Nat
  i2cs : List Nat
  keysets : List Nat
  windows : List (Nat × Nat × Nat)
  grants : List RegGrant
  edge : EdgeProg
  /-- Result tensors that TAKE has joined rows of, with the plane rows that one of their rows stands for (R309, R320). -/
  covers : List (Nat × Nat)
  /-- SMEM_INIT sections, applied at each start (R234). -/
  smemInit : List (Nat × Nat × List (BitVec 8))
  state : JobSt
  killCls : Nat
  /-- Ring and TAG of a pending START and of the START in force (R544, R545). -/
  startPend : Option (Nat × Nat)
  startTag : Option (Nat × Nat)
  /-- A STOP, or the stop of an orderly power-down, waits for the frame or step in progress (R544, R630). -/
  stopping : Bool
  /-- A STOP was accepted while a START was pending: no START takes effect at the next frame start (R554). -/
  stopped : Bool := false
  /-- Number of the next frame, frames in progress (oldest first), and the last two frame starts (R73, R489). -/
  frame : Nat
  frames : List JFrame
  fs : Nat
  fsPrev : Nat
  /-- The stripe before the next one was aborted (R80). -/
  prevAborted : Bool
  /-- Stripe figures (Table ST-4). -/
  slackLast : Int
  slackMin : Int
  miss : Nat
  abort : Nat
  /-- The least slack and the least window of the bands of recent frames, by frame, newest first (R486). -/
  recent : List (Nat × Int × Int)
  /-- Delta registers of the job: DX_CTRL as written and in force, INVALIDATE asked, counters (Table DX-4). -/
  dxCtrl : Nat
  dxForce : Nat
  dxInval : Bool
  dxDelta : Nat
  dxRefresh : Nat
  dxStaleN : Nat
  dxOff : Nat
  dxScene : Nat
  dxChanged : Nat
  dxPos : Nat
  /-- Stale bits by source * 65536 + stripe * 8 + core (R334); the highest stripe number they are kept for, which is the n
  of the highest frame since the job's start. -/
  stale : SMap Bool
  span : Nat
  /-- Gates that know of the kill: the job's poison points (R470), with their times. -/
  points : List (Nat × Nat)
  /-- Session: start of the step in progress and of the last one, steps completed (chapter 11). -/
  stepAt : Option Nat
  lastStep : Nat
  steps : Nat
deriving DecidableEq, Repr

/-! ### Camera Intake (chapter 03) -/

/-- A line kept for later rows of its phase: row, black-corrected and corrected pixels. -/
structure InLine where
  y : Nat
  blk : List Nat
  cor : List Nat
deriving DecidableEq, Repr

/-- The open frame of a receive context, with the configuration it was opened under (R103–R105). -/
structure InFrame where
  fs : Nat
  src : Nat
  w : Nat
  h : Nat
  dt : Nat
  inline : Bool
  badline : Nat
  timeout : Nat
  numbered : Bool
  base : Nat
  pitch : Nat
  flags : Nat
  /-- Next row in arrival order, and the row a line start packet named (R120). -/
  next : Nat
  lnum : Option Nat
  /-- DTIME of the last line. -/
  last : Nat
  buf : Option Nat
  /-- The last two lines placed. -/
  hist : List InLine
  /-- Rows that BADLINE or R121 made, and whether from the line two rows above or as zeros (R118, R121). -/
  made : List (Nat × Bool)
  /-- IN_STAT_CFG and IN_STAT_BASE as in force at its frame start (R114). -/
  stat : Nat × Nat
deriving DecidableEq, Repr

/-- A frame buffer of a ring (R104, R105): full, taken by a job, and the stamp of its frame. -/
structure InBuf where
  full : Bool
  taken : Bool
  fs : Nat
  src : Nat
  w : Nat
  h : Nat
  dt : Nat
  base : Nat
  pitch : Nat
  flags : Nat
  made : List (Nat × Bool)
  stat : Nat × Nat
deriving DecidableEq, Repr

/-- A receive context. -/
structure InCtx where
  cur : Option InFrame
  bufs : List InBuf
  nextBuf : Nat
  /-- Frame counter, the last two frame starts and the number of frame starts decoded. -/
  count : Nat
  fs : Nat
  fsPrev : Nat
  starts : Nat
  /-- End of its last frame (R354). -/
  fe : Nat
  /-- Lines of its memory-path frame that pipeline M has corrected last (R106). -/
  histM : List InLine
deriving DecidableEq, Repr

/-- Sums of one zone and phase (R114). -/
structure ZoneStat where
  sum : Nat
  max : Nat
  sat : Nat
  /-- A poisoned word went into it (R467). -/
  pois : Bool
deriving DecidableEq, Repr

/-- A raw tap: ring buffers full, the buffer being written and its next line (R115, R382). -/
structure TapSt where
  full : List Bool
  nextBuf : Nat
  buf : Option Nat
  drops : Nat
deriving DecidableEq, Repr

/-- Which list an I2C master runs (R130). -/
inductive I2cRun where
  | idle | imm | frame
deriving DecidableEq, Repr

/-- An I2C master: what runs, the descriptor, the immediate descriptor at which a list waits, and whether the frame list
has run since the last frame end of its context. -/
structure I2cSt where
  run : I2cRun
  idx : Nat
  wait : Option Nat
  ran : Bool
  due : Bool
deriving DecidableEq, Repr

/-- A sensor trigger output (R133): level, end of its pulse, and the edges still to come, each with its time and the width of its
pulse. -/
structure TrigSt where
  level : Bool
  pulseEnd : Nat
  due : List (Nat × Nat)
deriving DecidableEq, Repr

/-- Camera Intake. -/
structure InSt where
  ctx : Vector InCtx 8
  /-- Defect table banks (R113), which is active, and the exchange asked for. -/
  bank0 : SMap (BitVec 32)
  bank1 : SMap (BitVec 32)
  active : Bool
  swap : Bool
  /-- Statistics being gathered, by zone * 4 + phase, and the next record (R114). -/
  stat : SMap ZoneStat
  statNext : Nat
  taps : Vector TapSt 2
  i2c : Vector I2cSt 2
  trig : Vector TrigSt 2
deriving DecidableEq, Repr

/-! ### Edge engine and Outfeed (chapters 09, 12) -/

/-- The plane row that the Edge engine runs (R321): job, frame, whether it is a row that TAKE joined, the row, its result
tensor, the next record, and the rows each buffer received in it. -/
structure EdgeRun where
  job : Nat
  frame : Nat
  post : Bool
  /-- Stripe of an input row, or band of a joined row. -/
  band : Nat
  row : ERow
  t : Nat
  ptr : Nat
  fresh : List (Nat × Int)
  /-- TAKE is held back by a full source store (R383). -/
  held : Bool
  start : Nat
deriving DecidableEq, Repr

/-- The Edge engine: the row in progress and the intervals of dot-unit work of the last 16.384 ms. -/
structure EdgeSt where
  run : Option EdgeRun
  busy : List (Nat × Nat)
  /-- Stripes (job, frame, stripe) all of whose rows EMIT has sent and of which some are held at a core (R73, R319). -/
  landing : List (Nat × Nat × Nat)
deriving DecidableEq, Repr

/-- A source row in Outfeed's store (R383): job, frame, Edge output, row, values per pixel, poison per pixel. -/
structure SrcRow where
  job : Nat
  frame : Nat
  out : Nat
  row : Nat
  vals : List (List Nat)
  pois : List Bool
deriving DecidableEq, Repr

/-- A detection packet handed to Outfeed (R325, R326). -/
structure DetPkt where
  job : Nat
  frame : Nat
  bytes : List (BitVec 8)
  /-- Derived from a poisoned word (R467). -/
  pois : Bool := false
  /-- Streams that have sent or written it. -/
  done : List Nat
deriving DecidableEq, Repr

/-- Crop, scale and format of a stream (Table OF-5). -/
structure StreamGeo where
  cx : Nat
  cy : Nat
  cw : Nat
  ch : Nat
  ow : Nat
  oh : Nat
  fmt : Nat
deriving DecidableEq, Repr

/-- The configuration of a stream in force, as a frame keeps it to its end (Table OF-5). -/
structure StreamCfg where
  geo : StreamGeo
  src : Nat
  mem : Bool
  csc : Nat
  sinkMem : Bool
  vc : Nat
  timeref : Nat
  base : Nat
  pitch : Nat
  fillY : Nat
  fillU : Nat
  fillV : Nat
  offset : Nat
  line : Nat
  memsrc : Nat
  mempitch : Nat
  /-- Words of its coefficient table that differ from those at reset, by register offset. -/
  coef : SMap (BitVec 32)
deriving DecidableEq, Repr

/-- The frame a stream sends or writes. -/
structure OutFrame where
  cfg : StreamCfg
  /-- Source job and frame; none for a memory frame, or while the job is dead. -/
  job : Nat
  frame : Option Nat
  /-- Width and height of its source, and the height of the source's frame. -/
  sw : Nat
  sh : Nat
  fh : Nat
  /-- What the trailer carries of the source frame (Table OF-3). -/
  fs : Nat
  src : Nat
  flags : Nat
  ref : Nat
  /-- Next line, lines checked, and the lines found missing (R375). -/
  line : Nat
  checked : Nat
  missing : List Nat
  filled : Nat
  firstFilled : Nat
  buf : Option Nat
  /-- Number of the CSI-2 frame on its virtual channel. -/
  txNo : Nat
  /-- CUT asked for (R385); the job was dead for a line (R376); a band of the source frame was aborted. -/
  cut : Bool
  killed : Bool
  miss : Bool
  /-- DTIME of the last line. -/
  lastAt : Nat
deriving DecidableEq, Repr

/-- An output stream. -/
structure StreamSt where
  /-- It has loaded a configuration since reset. -/
  live : Bool
  cur : Option OutFrame
  full : List Bool
  nextBuf : Nat
  /-- Sequence number of its last trailer. -/
  seq : Nat
  /-- A frame was skipped since the last trailer (R377). -/
  overrun : Bool
  /-- The shadow was rejected at the last reference (R363). -/
  rejected : Bool
  /-- Stop written since the last reference (R554). -/
  stop : Bool
  /-- Reference edge last taken, and the last frame taken: job and frame. -/
  lastRef : Option Nat
  bound : Option (Nat × Nat)
deriving DecidableEq, Repr

/-- The registers of tap T2 or T3 as a frame start took them into force (Table OF-6). -/
structure TapCfg where
  on : Bool
  src : Nat
  nbuf : Nat
  base : Nat
  pitch : Nat
deriving DecidableEq, Repr

/-- Tap T2 or T3: ring buffers full, the buffer being written, and the frame it takes (job and frame), with the registers in
force for it and whether it has asked for a buffer; and the registers of frames that have started and that it has not taken. -/
structure OutTap where
  full : List Bool
  nextBuf : Nat
  buf : Option Nat
  frame : Option (Nat × Nat)
  cfg : TapCfg
  asked : Bool
  shots : List ((Nat × Nat) × TapCfg)
deriving DecidableEq, Repr

/-- Outfeed. -/
structure OutSt where
  st : Vector StreamSt 6
  store : List SrcRow
  dets : List DetPkt
  taps : Vector OutTap 2
  /-- Frames started per virtual channel, for the frame numbers of Table OF-2. -/
  frameNo : List Nat
  /-- A load measurement is running since (R381). -/
  sense : Option Nat
deriving DecidableEq, Repr

/-! ### Coffer (chapters 13, 14) -/

/-- A loaded key set (Table CF-4). -/
structure KeySet where
  loaded : Bool
  keyId : Nat
  ownerHash : Nat
  digest : Nat
deriving DecidableEq, Repr

/-- A Coffer submission, queued or running (Table CE-4). -/
structure CofSub where
  bank : Nat
  tag : Nat
  irq : Bool
  blkTag : Nat
  ksid : Nat
  batch : Bool
  first : Nat
  count : Nat
  /-- Its words of gate program memory, Coffer SRAM (Table CF-1, R416). -/
  words : List SpWord
deriving DecidableEq, Repr

/-- A refresh gate that waits for the pass of the open batch: its word, its index, and its accumulator positions. -/
structure CofGate where
  word : BitVec 64
  idx : Nat
deriving DecidableEq, Repr

/-- The running submission. -/
structure CofRun where
  sub : CofSub
  start : Nat
  /-- Index of the next word. -/
  idx : Nat
  /-- The open batch, or the gates of the pass that runs, in word order. -/
  batch : List CofGate
  passing : Bool
  /-- The second pass of a latency-mode MUX runs; the sum it started from. -/
  second : Bool
  muxHalf : List Nat
  npass : Nat
  /-- Engine cycles so far (R425). -/
  cycles : Nat
  /-- First word index of SPENT, EMPTY, KEY_MISMATCH, KEY_FAULT (R431). -/
  firsts : List (Option Nat)
  /-- The first pass of a latency-mode MUX met poisoned key words (R435). -/
  keyFault : Bool
  cancel : Bool
  /-- A key word of the pass that runs was bad in transit or in the key buffer (R435). -/
  keyBad : Bool := false
  /-- Accumulators of the pass that runs with a word that could not be corrected (R416). -/
  accBad : List Nat := []
deriving DecidableEq, Repr

/-- The Coffer. -/
structure CofSt where
  /-- Coffer SRAM words by offset / 8 (Table CF-1, R416). -/
  sram : SMap SpWord
  keys : Vector KeySet 4
  queue : List CofSub
  run : Option CofRun
  /-- Key sets to digest again after a KEY_FAULT (R436). -/
  recheck : List Nat
  /-- Submissions that have ended and whose completions may still be kept: bank, TAG, first slot, slots (R432). -/
  ended : List (Nat × Nat × Nat × Nat) := []
deriving DecidableEq, Repr

/-! ### Shaelo link (chapter 17) -/

/-- A Shaelo port. -/
structure LinkPort where
  credits : List (List Nat)
  seq : Nat
  acked : Nat
  replay : List (Nat × FlitGroup)
  /-- Groups that a NAK asked to be resent, oldest first (R501). -/
  resend : List (Nat × FlitGroup)
  expect : Nat
  naks : Nat
  /-- Consecutive NAKs that the partner returned for the group after `acked` (R501). -/
  nakIn : Nat
  nakOut : Bool
  slots : List (BitVec 256)
  /-- Receiver: message flits taken and not yet delivered, a buffer for each class and buffer set (R502, R508), oldest first: class c
  of set v at 8 v + c. -/
  rx : List (List (BitVec 256))
  /-- Receiver: the buffer of the message whose data flits are still to come, and how many those are. -/
  rxBuf : Nat
  rxLeft : Nat
  queue : List LinkMsg
  /-- Turn of the round-robin of classes 0 to 2: class and turns left (Table SL-3). -/
  rrCls : Nat
  rrLeft : Nat
  credOut : List Nat
  training : Bool
  trainAt : Nat
  retrains : Nat
  downAt : Nat
  /-- When training failed last (R503). -/
  failAt : Nat
  isDown : Bool
  lastFlit : Nat
  /-- Receive buffers whose first message has waited 5 ms for rows that are held, and completes poisoned (R192). -/
  late : List Nat
  /-- Consecutive time exchanges inside and outside the bounds of R519. -/
  good : Nat
  bad : Nat
  locks : Nat
deriving DecidableEq, Repr

/-- State of an inbound window (Table SL-7). -/
inductive WinSt where
  | closed | open_ | closing
deriving DecidableEq, Repr

/-- A transfer accepted by an inbound window and not finished (R517): source chip, TAG, rows still to come. -/
structure WinXfer where
  src : Nat
  tag : Nat
  rows : List Nat
  read : Bool
deriving DecidableEq, Repr

/-- An inbound window (Table SL-6). -/
structure InWin where
  st : WinSt
  core : Nat
  perm : Nat
  first : Nat
  count : Nat
  srcMask : Nat
  key : Nat
  job : Nat
  arrivals : BitVec 32
  closeAt : Nat
  xfers : List WinXfer
  /-- Transfers not finished at a close, whose later messages are discarded on arrival (R517). -/
  dead : List WinXfer
  /-- The close command to complete (ring and TAG), if one asked. -/
  closer : Option (Nat × Nat)
deriving DecidableEq, Repr

/-- An outbound binding (R514). -/
structure OutBind where
  open_ : Bool
  chip : Nat
  win : Nat
  key : Nat
  job : Nat
deriving DecidableEq, Repr

/-- An RXFER that waits for the owner: core, context, token, binding, TAG (R516). -/
structure RxWait where
  core : Nat
  ctx : Nat
  tok : Nat
  tag : Nat
  bind : Nat
  chip : Nat
  read : Bool
  /-- Local rows still to come of a read; window rows not yet acknowledged of a write. -/
  rows : List Nat
  awn : Bool
  /-- For an access of a host path or the Lantern, as job 0x000 (R510): the master that waits, and the bytes of
  the row it asked for; else none. -/
  who : Option Nat
  lo : Nat
  n : Nat
deriving DecidableEq, Repr

/-- The Shaelo link. -/
structure LnkSt where
  port : Vector LinkPort 2
  iw : Vector InWin 32
  ob : Vector OutBind 32
  waits : List RxWait
  nextTag : Nat
  /-- Messages forwarded to another port, newest first (R507). -/
  forwarded : List LinkMsg
  /-- The chip that sent the last edge time of the frame-sync generators: the time master (R518, R520). -/
  master : Option Nat
deriving DecidableEq, Repr

/-! ### Host interface (chapter 18) -/

/-- A completion entry (Table HO-6) less its PHASE. -/
structure CplEntry where
  tag : Nat
  opc : Nat
  result : Nat
  replayed : Bool
  irq : Bool
  vals : List (BitVec 8)
deriving DecidableEq, Repr

/-- A command fetched from a ring and not completed (R540, R541). -/
structure InFlight where
  tag : Nat
  opc : Nat
  irq : Bool
  pars : List (BitVec 8)
  /-- Accepted: it has begun and completes later. -/
  begun : Bool
  /-- The code it will be refused with in its turn (R541): what its fetch found. -/
  bad : Option Nat := none
deriving DecidableEq, Repr

/-- One pair of rings (R540–R542). -/
structure RingSt where
  inflight : List InFlight
  held : List CplEntry
  /-- A doorbell waiting for Bulk writes to drain (R539). -/
  bell : Option Nat
deriving DecidableEq, Repr

/-- An access of a Bulk channel that waits for the drain (R536). -/
inductive BulkAcc where
  /-- A write of a register of the channel: offset, value. -/
  | reg (off v : Nat)
  /-- A data write. -/
  | put (bs : List (BitVec 8))
  /-- A data read of `n` bytes, prefetching `ahead` beyond them. -/
  | get (n ahead : Nat)
  /-- A data read of the HSP that has returned zeros with LATE: it is performed, and what it reads is not returned (R533). -/
  | late (n ahead : Nat)
deriving DecidableEq, Repr

/-- One Bulk channel (R535–R538). -/
structure BulkSt where
  /-- Posted writes not drained: address, bytes (R536). -/
  buf : List (Nat × List (BitVec 8))
  /-- Prefetched bytes by address, with poison (R537). -/
  pre : List (Nat × BitVec 8 × Bool)
  /-- Accesses that wait for the drain, oldest first (R536). -/
  wait : List BulkAcc
deriving DecidableEq, Repr

/-- A host row buffer (R530): device address of the row, bytes written by place in the row, when it was opened, and for whom:
Bulk channel 0 or 1, or 2 for BAR4. -/
structure RowBuf where
  addr : Nat
  bytes : List (Nat × BitVec 8)
  since : Nat
  src : Nat
deriving DecidableEq, Repr

/-- Bytes of a scratchpad row that wait for a free row buffer (R530): address and bytes. -/
structure RowPut where
  addr : Nat
  bytes : List (BitVec 8)
deriving DecidableEq, Repr

/-- What a host writes in the configuration space beside the BARs, of the registers that PCI Express gives the parts of Table HO-1: the
command register, PMCSR, Device Control, Device Control 2 and the control word of MSI-X. -/
structure CfgSpace where
  cmd : Nat := 0
  pmcsr : Nat := 0
  devCtl : Nat := 0x2810
  devCtl2 : Nat := 0
  msix : Nat := 0
  /-- Latency Tolerance Reporting and Advanced Error Reporting words, by dword offset. -/
  words : SMap (BitVec 32) := []
deriving DecidableEq, Repr

/-- The host-facing blocks. -/
structure HostSt where
  ring : Vector RingSt 2
  bulk : Vector BulkSt 2
  rows : List RowBuf
  /-- Writes through BAR4 to a ninth row, waiting, oldest first (R530). -/
  rowWait : List RowPut
  /-- HSP status bits LATE and BAD (R532). -/
  hspLate : Bool
  hspBad : Bool
  /-- Configuration space answers (R592). -/
  cfgUp : Bool
  /-- The address bits of the six BAR dwords of the configuration space, BAR0 to BAR5, as last written (R592, Table HO-2). -/
  bars : Vector Nat 6
  /-- The rest of the configuration space (R525, R528). -/
  cfg : CfgSpace := {}
  /-- The PCIe link is in the down state after a loss, HOST rings not enabled again (R555, R556). -/
  lost : Bool
  /-- Requests of the host a read of host memory failed for: addresses known to fail (R526). -/
  failing : List (Nat × Nat)
deriving DecidableEq, Repr

/-! ### Model packages and weight digests (chapters 15, 20) -/

/-- A loaded model package (R600). -/
structure Pkg where
  id : Nat
  version : Nat
  digest : Nat
  svn : Nat
  /-- First row and rows of the replica, and the cores that hold it. -/
  first : Nat
  rows : Nat
  cores : List Nat
  /-- Adapter region: first row within the package, exported rows, shadow rows (chapter 11). -/
  adapt : Nat
  export_ : Nat
  shadow : Nat
  /-- Its load-time digests have been judged (R457). -/
  judged : Bool
  /-- Cores that the ledger's export rows have not reached: asleep, or cut off, when they were written; and those rows (R357). -/
  owed : List Nat
  owedRows : List (BitVec 8) := []
deriving DecidableEq, Repr

/-- A digest that the firmware has to make: package, segment, core, and its round: 1 the first of every copy, 2 the second of
every copy (R458, R461), 3 the second of a minority copy (R459). -/
structure DigReq where
  pkg : Nat
  seg : Nat
  core : Nat
  round : Nat
deriving DecidableEq, Repr

/-- A digest made: value and whether poison was seen. -/
structure DigVal where
  req : DigReq
  val : BitVec 64
  poison : Bool
deriving DecidableEq, Repr

/-- A repair in progress (R460), or the restoration of a segment (R195): package, segment, bad core, source core, the other
majority copies not yet tried, attempts that failed, and the majority digest, none for a restoration. -/
structure DigRep where
  pkg : Nat
  seg : Nat
  core : Nat
  src : Nat
  good : List Nat
  attempt : Nat
  want : Option (BitVec 64)
deriving DecidableEq, Repr

/-- The firmware's digest work. -/
structure DigSt where
  todo : List DigReq
  vals : List DigVal
  repairs : List DigRep
  lastSweep : Nat
  /-- Cores that wrote a check record in the stripe of a pair event: core, job, stripe (R464). -/
  suspects : List (Nat × Nat × Nat)
deriving DecidableEq, Repr

/-! ### Start-up and security (chapter 20) -/

/-- The boot machine and the security block. -/
structure SecSt where
  /-- The ROM waits for an image over a host path (R595), and the bytes staged so far. -/
  romMode : Bool
  stage : List (BitVec 8)
  /-- Fuse bits as 32-bit words, by field of Table BS-8 * 256 + word. -/
  fuses : SMap (BitVec 32)
  /-- The boot image that runs: its ARB_COMMIT, SVN and board section (R596). -/
  image : List (BitVec 8)
  /-- RESET_N has been low since VDD_AON came up; BOOT[2:0] as last sampled. -/
  resetLow : Bool
  strap : Nat
  /-- The watchdog is armed, and its last kick (R589). -/
  wdogOn : Bool
  wdogAt : Nat
  /-- Consecutive debug tokens that failed (R613). -/
  debugFails : Nat
  /-- The token buffer by word (SEC_TOKEN), and the bits that SEC_FUSEPROG will blow (SEC_FUSEDATA). -/
  token : SMap (BitVec 32)
  /-- Stored packages are still to be loaded after this boot (R622). -/
  autoload : Bool
  fuseData : BitVec 32
deriving DecidableEq, Repr

/-! ### Power (chapter 19) -/

/-- A core island's margin loop (R573–R579) and sleep. -/
structure Island where
  v : Nat
  f : Nat
  /-- f_cap and f_hot (R577, R578). -/
  cap : Nat
  hot : Nat
  /-- off, sf and conversion of the margin step in force (Table PW-5, R576), and a step taken since the last tick. -/
  off : Nat
  sf : Nat
  conv : Bool
  newStep : Bool
  /-- Start of the clipped episode; cause 24 has been raised for it (R579). -/
  clipAt : Option Nat
  clipTold : Bool
  /-- Since when a shortfall remains at 200 MHz and V_MAX; the clock runs at half rate (R575). -/
  shortAt : Option Nat
  stretched : Bool
  /-- When the core went to sleep, and the reason of a wake asked for (R560, R586, Table PW-7). -/
  sleepAt : Nat
  wakeWhy : Option Nat
deriving DecidableEq, Repr

/-- The power manager. -/
structure PwrSt where
  isl : Vector Island 8
  /-- Consecutive samples beyond a threshold, by channel * 2, stop thresholds one above (R568). -/
  railRun : SMap Nat
  /-- The last samples of channel 9, newest first (R624). -/
  hold : List Nat
  /-- A thermal trip holds the part in STANDBY (R581). -/
  trip : Bool
  /-- An orderly power-down is under way (R566, R630). -/
  powerdown : Bool
deriving DecidableEq, Repr

/-! ### Trace funnel (R582–R584) -/

/-- The trace funnel: the packets of the row being filled, since when, and the next Logbook of its rotation. -/
structure TrcSt where
  row : List LogPkt
  since : Nat
  turn : Nat
deriving DecidableEq, Repr

/-! ### Persistent store (chapter 21) -/

/-- A live object: its target as in STOREWR, ID, version, bytes, and extents as (first logical sector, count). -/
structure StoObj where
  target : Nat
  id : Nat
  version : Nat
  bytes : List (BitVec 8)
  ext : List (Nat × Nat)
deriving DecidableEq, Repr

/-- A STOREWR accepted in turn (R617): ring, command TAG, target, session job, source and length. -/
structure StoReq where
  bank : Nat
  tag : Nat
  target : Nat
  job : Nat
  src : Nat
  len : Nat
  /-- What digest engines misread in the digests that a ledger commit makes, in their order (R459, R463). -/
  errs : List (BitVec 64)
deriving DecidableEq, Repr

/-- Steps of a store write after its checks (R618): INTENT or REMOVE record, sector erases and programs, read-back, COMMIT and
retirement, anchor. -/
inductive StoPhase where
  | intent | program | commit | anchor
deriving DecidableEq, Repr

/-- The write that runs. -/
structure StoWrite where
  req : StoReq
  obj : StoObj
  remove : Bool
  phase : StoPhase
  /-- Sectors of the object programmed; a mismatch has been met. -/
  idx : Nat
  bad : Bool
deriving DecidableEq, Repr

/-- The store controller and the flash it masters. -/
structure StoSt where
  /-- Sectors of the flash (the model's own figure; log entry 50). -/
  sectors : Nat
  /-- Boot copies 0 and 1: what they hold. -/
  copies : List (List (BitVec 8))
  /-- The valid anchors: A and B, each with SEQ, ACTIVE_BOOT and WORN; erase counts of their sectors (R615). -/
  anchors : List (Option (Nat × Nat × Bool))
  /-- Remap table: logical and physical sector; erase counts by physical sector (R623). -/
  remap : List (Nat × Nat)
  erases : SMap Nat
  /-- The index of live objects, the SEQ of the last record and the records written in the present journal sector. -/
  objs : List StoObj
  seq : Nat
  jpos : Nat
  /-- Sequence number of the last ledger commit (R358). -/
  adSeq : Nat
  /-- A valid checkpoint stands in the journal (R621). -/
  formatted : Bool
  queue : List StoReq
  cur : Option StoWrite
  /-- Physical sectors that have been retired. -/
  retired : List Nat
deriving DecidableEq, Repr

/-- What the part has put on its wires. The model's own record, newest first. -/
inductive Wire where
  /-- A value answered to a register or data read: master 0 LCP, 1 HOST, 2 HSP, 3 LINK; value; poisoned. -/
  | answer (m : Nat) (v : Nat) (poison : Bool)
  /-- An MSI-X message for a vector (R547). -/
  | msix (n : Nat)
  /-- A configuration request answered with Retry Status, or with a value (R592). -/
  | cfgRetry
  | cfg (v : Nat)
  /-- Bridge group sent in a direction, with its sequence number. -/
  | group (d : Nat) (seq : Nat) (g : FlitGroup)
  /-- Shaelo group sent on a port, with its sequence number. -/
  | link (p : Nat) (seq : Nat) (g : FlitGroup)
  /-- Capability words sent on a port in training (Table SL-5). -/
  | caps (p : Nat) (cap0 : Nat) (cap1 : Nat)
  /-- Bytes that an I2C master drives after a start or repeated start, and the bus speed in kHz (R126). -/
  | i2c (m : Nat) (khz : Nat) (bs : List (BitVec 8))
  /-- A CSI-2 packet sent (Table OF-2): stream, line number, its bytes with header and footer, and what each physical data lane
  carries of them: lane, inverted, bytes; whether the clock lane stays in HS after it. -/
  | tx (stream : Nat) (line : Nat) (bs : List (BitVec 8)) (lanes : List (Nat × Bool × List (BitVec 8))) (hs : Bool)
  /-- A skew calibration of the transmit port: the initial one, or a periodic one (Table OF-2). -/
  | deskew (first : Bool)
  /-- HSP bytes returned. -/
  | hsp (bs : List (BitVec 8))
deriving DecidableEq, Repr

end Sys2Proof.Machine
end

