-- ==== Sys2Proof/Machine/State.lean ====
section
/-! DEFINITION. The state of the Naholith N8 as a block, the ways a command can stop, and the state after reset. -/

namespace Sys2Proof.Machine

/-- Why a command stops with a fault. -/
inductive Fault where
  /-- Raised by no command: the spec gives every command an effect, or none, in every state. -/
  | none
deriving DecidableEq, Repr

/-- Why a command is refused. -/
inductive Refusal where
  /-- A row of the table that has no meaning yet; raised by `exec` alone. Safe: nothing is claimed of it. -/
  | notModelled (mnemonic : String)
deriving DecidableEq, Repr

/-- The state of the block. -/
structure State where
  /-- Commands waiting, first in, first out (the model's own field). -/
  pending : List Instr
  /-- Control registers by offset in the 2 MiB range (R13); unlisted ones hold their reset word. -/
  regs : SMap (BitVec 32)
  /-- Values in force of the fields whose effect is not IMM (R21, R22). -/
  force : SMap (BitVec 32)
  /-- VDD_AON is absent: device state OFF (Table PW-2). -/
  off : Bool
  time : TimeSt
  fsg : Vector FsgSt 4
  brg : BrgSt
  flt : FltSt
  cores : Vector Core 8
  jobs : List Job
  intake : InSt
  edge : EdgeSt
  out : OutSt
  host : HostSt
  cof : CofSt
  lnk : LnkSt
  pkgs : List Pkg
  dig : DigSt
  sec : SecSt
  pwr : PwrSt
  trc : TrcSt
  sto : StoSt
  /-- Blocks whose RWL fields the firmware has locked at boot (COF_KBASE, FLT_SAVE). -/
  fwLocks : List Nat
  /-- Installed DRAM, DDR_SIZE, in bytes (Table TH-3; log entry 8). -/
  ddrSize : Nat
  /-- DRAM bytes (Table TH-3) and the poison bits the DDR controller keeps per 8-byte word (Table PC-1). -/
  dram : SMap (BitVec 8)
  dramPoison : SMap Bool
  /-- Words of DRAM that the controller cannot correct (DDR_UE, R467). -/
  dramBad : SMap Bool
  /-- Host memory bytes by PCIe bus address (R527). -/
  hostMem : SMap (BitVec 8)
  /-- How many free values have been drawn (the model's own field; log entry 3). -/
  free : Nat
  /-- What the part has put on its wires, newest first (the model's own field; log entry 6). -/
  wire : List Wire
deriving DecidableEq, Repr

/-- The scaler's coefficient tables at reset: bilinear (R365). Offset within a stream's table of 0x800 bytes. -/
def coefReset (o : Nat) : Nat :=
  if o < 0x400 then
    let p := o / 16
    if o % 16 = 4 then (1024 - 16 * p) * 65536 else if o % 16 = 8 then 16 * p else 0
  else if o < 0x700 then
    let p := (o - 0x400) / 12
    if (o - 0x400) % 12 = 4 then 1024 - 16 * p + 16 * p * 65536 else 0
  else 0

/-- Rail thresholds at reset (R567): nominal ±5 % for warning and ±10 % for stop, as the least and the greatest whole mV within
them; `stop` says which. -/
def railReset (n : Nat) (stop : Bool) : Nat :=
  let mv := nth 0 [800, 750, 800, 500, 1050, 850, 1800, 1800, 3300] n
  let p := if stop then 10 else 5
  (mv * (100 - p) + 99) / 100 + mv * (100 + p) / 100 * 65536

/-- The word a control register holds after cold reset; offsets with no register read as zero. -/
def resetWord (off : Nat) : BitVec 32 :=
  if 0x010200 ≤ off ∧ off < 0x010290 ∧ off % 16 = 4 then BitVec.ofNat 32 (railReset ((off - 0x010200) / 16) false) else
  if 0x010200 ≤ off ∧ off < 0x010290 ∧ off % 16 = 8 then BitVec.ofNat 32 (railReset ((off - 0x010200) / 16) true) else
  if 0x010400 ≤ off ∧ off < 0x010460 ∧ off % 8 = 4 then BitVec.ofNat 32 (85 + 95 * 256) else
  if 0x054000 ≤ off ∧ off < 0x057000 then BitVec.ofNat 32 (coefReset ((off - 0x054000) % 0x800)) else
  match (regsOfBlock (off / 65536)).find? (fun r => r.covers off) with
  | some r => BitVec.ofNat 32 r.reset
  | none => 0#32

/-- Receive buffers of the classes, in flits (Table TH-8). -/
def brgSizes : List Nat := [64, 32, 64, 128, 8, 8, 8]

/-- A direction of the bridge after reset: identity lane map; the receiver counts its whole buffers as credits to announce
(R49). -/
def BrgDir.reset : BrgDir :=
  { lmap := upFrom 0 48, credits := [0, 0, 0, 0, 0, 0, 0], queue := [], rrCls := 0, rrLeft := 2, slots := [],
    seq := 0, acked := 4095, replay := [], resend := [], expect := 0, naks := 0, nakOut := false,
    rx := [[], [], [], [], [], [], [], []], rxCls := 0, rxLeft := 0,
    credOut := brgSizes, lpar := [], lparSince := 0, swapLane := none, swapOut := [], reads := [],
    delivered := [], late := false }

/-- A context after reset: halted, all registers zero (Table CO-6, Table IS-1). -/
def Ctx.reset : Ctx :=
  { s := Vector.replicate 32 0, p := 0, d := Vector.replicate 32 0, tok := Vector.replicate 16 ⟨.free, 0⟩, pc := 0, epc := 0,
    ecause := 0, handler := false, sr := 0x4E385053D5A71C93, srN := 0, parBad := [], infoHi := 0,
    ck := 0, job := none, running := false, stripe := 0, frame := 0, prevAborted := false, frameFlags := false, dk := 0, startAt := 0,
    tiles := [], nStr := 0,
    halted := true, ended := false, haltReq := false, bars := 0, atBar := false, held := false,
    queues := Vector.replicate 5 [], stalled := none, stallG := none, greqs := [], crWait := none, replays := 0,
    lastX := false }

/-- A core after reset. -/
def Core.reset : Core :=
  { ctx := #v[Ctx.reset, Ctx.reset, Ctx.reset], imem := [], imemBad := [], smem := [], smemBad := [], sp := [],
    awn := [], spares := [32, 32, 32, 32, 32, 32, 32, 32], remapped := [], initing := false,
    waking := false, initAt := 0, held := [], scrubbing := false, scrubDue := false, scrubPos := 0, scrubAt := 0, scrubQ := [],
    scrubCe := [], retLost := false, weightWrite := [], ring := [], pairHeld := [], pairDig := [], outSeq := [],
    log := [], logLost := 0, logSince := 0, logFirst := false, logFlush := false, logFlushAt := 0, sleepTo := 0, idleSince := 0,
    digRow := 0, digCnt := 0, digBusy := false, digHi := 0, cycAcc := 0, quarPending := false }

/-- A generator after reset. -/
def FsgSt.reset : FsgSt :=
  { next := 0, armed := false, level := false, pulseEnd := 0, lastEdge := 0, prevEdge := 0, linkEdges := [], sent := 0,
    holdover := 0 }

/-- Credits that a Shaelo port announces per class: the buffers of both sets (Table SL-3, R502). -/
def lnkSizes : List Nat := [512, 64, 512, 16, 16, 32]

/-- A Shaelo port after reset: the receiver counts its whole buffers as credits to announce (R49, R502). -/
def LinkPort.reset : LinkPort :=
  { credits := [[0, 0, 0, 0, 0, 0], [0, 0, 0, 0, 0, 0]], seq := 0, acked := 4095, replay := [], resend := [],
    expect := 0, naks := 0, nakIn := 0, nakOut := false, slots := [], rx := List.replicate 16 [], rxBuf := 0, rxLeft := 0, queue := [],
    rrCls := 0, rrLeft := 2, credOut := lnkSizes,
    training := false, trainAt := 0, retrains := 0, downAt := 0, failAt := 0, isDown := false, lastFlit := 0, good := 0, bad := 0,
    locks := 0, late := [] }

/-- An inbound window after reset: closed. -/
def InWin.reset : InWin :=
  { st := .closed, core := 0, perm := 0, first := 0, count := 0, srcMask := 0, key := 0, job := 0, arrivals := 0,
    closeAt := 0, xfers := [], dead := [], closer := none }

/-- A receive context after reset. -/
def InCtx.reset : InCtx :=
  { cur := none, bufs := List.replicate 8 ⟨false, false, 0, 0, 0, 0, 0, 0, 0, 0, [], (0, 0)⟩, nextBuf := 0, count := 0, fs := 0,
    fsPrev := 0, starts := 0, fe := 0, histM := [] }

/-- A tap after reset. -/
def TapSt.reset : TapSt := { full := [false, false, false, false], nextBuf := 0, buf := none, drops := 0 }

/-- A stream after reset. -/
def StreamSt.reset : StreamSt :=
  { live := false, cur := none, full := List.replicate 8 false, nextBuf := 0, seq := 0, overrun := false, rejected := false,
    stop := false, lastRef := none, bound := none }

/-- Tap T2 or T3 after reset. -/
def OutTap.reset : OutTap :=
  { full := [false, false, false, false], nextBuf := 0, buf := none, frame := none, cfg := ⟨false, 0, 1, 0, 0⟩, asked := false,
    shots := [] }

/-- A core island after reset: off, with no margin step and no limit below F_TARGET. -/
def Island.reset : Island :=
  { v := 0, f := 0, cap := 1400, hot := 1400, off := 0, sf := 64, conv := false, newStep := false, clipAt := none,
    clipTold := false, shortAt := none, stretched := false, sleepAt := 0, wakeWhy := none }

/-- The machine right after VDD_AON power-on, in STANDBY with RESET_N low. No fuse but GRADE is programmed (log entry 56). -/
def State.reset : State :=
  { pending := [], regs := [], force := [], off := false,
    time := { now := 0, aft := 0, aftSlew := 0, syncing := false, slew := 0, trim := 0, stepPending := none },
    fsg := #v[FsgSt.reset, FsgSt.reset, FsgSt.reset, FsgSt.reset],
    brg := { f2a := BrgDir.reset, a2f := BrgDir.reset, training := false, trainAt := 0, retrains := 0, downAt := 0,
             wasUp := false, keepBad := false },
    flt := { fore := [], aft := [], aftLost := 0, seq := 0, lostPending := 0, events := [], notices := [], taints := [],
             tests := [], slots := [], lastPeriodic := 0, rotor := 0, borrow := none, results := [] },
    cores := #v[Core.reset, Core.reset, Core.reset, Core.reset, Core.reset, Core.reset, Core.reset, Core.reset],
    jobs := [],
    intake := { ctx := Vector.replicate 8 InCtx.reset, bank0 := [], bank1 := [], active := false, swap := false, stat := [],
                statNext := 0, taps := Vector.replicate 2 TapSt.reset,
                i2c := Vector.replicate 2 { run := .idle, idx := 0, wait := none, ran := false, due := false },
                trig := Vector.replicate 2 { level := false, pulseEnd := 0, due := [] } },
    edge := { run := none, busy := [], landing := [] },
    out := { st := Vector.replicate 6 StreamSt.reset, store := [], dets := [], taps := Vector.replicate 2 OutTap.reset,
             frameNo := [0, 0, 0, 0], sense := none },
    host := { ring := #v[⟨[], [], none⟩, ⟨[], [], none⟩], bulk := #v[⟨[], [], []⟩, ⟨[], [], []⟩], rows := [],
              rowWait := [],
              hspLate := false, hspBad := false, cfgUp := false, bars := Vector.replicate 6 0, lost := false, failing := [] },
    cof := { sram := [], keys := #v[⟨false, 0, 0, 0⟩, ⟨false, 0, 0, 0⟩, ⟨false, 0, 0, 0⟩, ⟨false, 0, 0, 0⟩], queue := [],
             run := none, recheck := [] },
    lnk := { port := #v[LinkPort.reset, LinkPort.reset], iw := Vector.replicate 32 InWin.reset,
             ob := Vector.replicate 32 ⟨false, 0, 0, 0, 0⟩, waits := [], nextTag := 0, forwarded := [], master := none },
    sec := { romMode := false, stage := [], fuses := [(0x800, 1#32)], image := [], resetLow := true, strap := 0, wdogOn := false, wdogAt := 0,
             debugFails := 0, token := [], autoload := false, fuseData := 0 },
    pwr := { isl := Vector.replicate 8 Island.reset, railRun := [], hold := [], trip := false, powerdown := false },
    trc := { row := [], since := 0, turn := 0 },
    sto := { sectors := 1024, copies := [[], []], anchors := [none, none], remap := [], erases := [], objs := [], seq := 0, adSeq := 0,
             jpos := 0, formatted := false, queue := [], cur := none, retired := [] },
    fwLocks := [],
    pkgs := [], dig := { todo := [], vals := [], repairs := [], lastSweep := 0, suspects := [] },
    ddrSize := 8589934592,
    dram := [], dramPoison := [], dramBad := [], hostMem := [], free := 0, wire := [] }

end Sys2Proof.Machine
end

