-- ==== Sys2Proof/Machine/Ops.lean ====
section
/-! DEFINITION. The named operations over registers, memories, cores, jobs, records and interrupts that the meanings
share. -/

namespace Sys2Proof.Machine

/-- What a meaning answers. -/
abbrev Out := Host.Outcome State Fault Refusal

/-! ### Control registers -/

/-- The word of a control register (R13). -/
def State.getReg (s : State) (off : Nat) : Word := mget resetWord s.regs off

/-- Sets the word of a control register. -/
def State.setReg (s : State) (off : Nat) (v : Word) : State := { s with regs := mset resetWord s.regs off v }

/-- The value in force of a register whose effect is not IMM (R22). -/
def State.inForce (s : State) (off : Nat) : Word := mget resetWord s.force off

/-- Sets the value in force of a register. -/
def State.setForce (s : State) (off : Nat) (v : Word) : State := { s with force := mset resetWord s.force off v }

/-- Takes the word last written of a register into force: its effect point (R21). -/
def State.takeForce (s : State) (off : Nat) : State := s.setForce off (s.getReg off)

/-- A word with the bits [lo + w - 1 : lo] replaced (R7). -/
def putBits (x : Word) (lo w v : Nat) : Word :=
  BitVec.ofNat 32 (x.toNat - bitsOf x.toNat lo w * 2 ^ lo + v % 2 ^ w * 2 ^ lo)

/-- The value of a register field. -/
def State.getF (s : State) (f : Fld) : Nat := bitsOf (s.getReg f.off).toNat f.lo f.w

/-- Sets a register field. -/
def State.setF (s : State) (f : Fld) (v : Nat) : State := s.setReg f.off (putBits (s.getReg f.off) f.lo f.w v)

/-- A one-bit field. -/
def State.flag (s : State) (f : Fld) : Bool := s.getF f != 0

/-- The value in force of a register field (R22). -/
def State.forceF (s : State) (f : Fld) : Nat := bitsOf (s.inForce f.off).toNat f.lo f.w

/-- Adds to a saturating counter field. -/
def State.bump (s : State) (f : Fld) (n : Nat) : State := s.setF f (satAdd f.w (s.getF f) n)

/-- Adds to a wrapping counter field. -/
def State.bumpWrap (s : State) (f : Fld) (n : Nat) : State := s.setF f ((s.getF f + n) % 2 ^ f.w)

/-- Takes several registers into force. -/
def State.takeForces (s : State) (l : List Nat) : State := l.foldl (fun s o => s.takeForce o) s

/-! ### Units -/

/-- A core. -/
def State.core (s : State) (k : Fin 8) : Core := vget s.cores k

/-- A state with one core replaced. -/
def State.setCore (s : State) (k : Fin 8) (c : Core) : State := { s with cores := vset s.cores k c }

/-- A context of a core: 0 in-line, 1 memory path, 2 the test context (R135, chapter 16). -/
def State.ctx (s : State) (k : Fin 8) (x : Fin 3) : Ctx := vget (s.core k).ctx x

/-- A state with one context replaced. -/
def State.setCtx (s : State) (k : Fin 8) (x : Fin 3) (c : Ctx) : State :=
  s.setCore k { s.core k with ctx := vset (s.core k).ctx x c }

/-- All core numbers. -/
def allCores : List (Fin 8) := [0, 1, 2, 3, 4, 5, 6, 7]

/-- A number taken as a core number. -/
def coreOf (n : Nat) : Fin 8 := ⟨n % 8, Nat.mod_lt _ (by decide)⟩

/-- A state changed by each core in turn. -/
def State.forCores (s : State) (f : Fin 8 → State → State) : State := allCores.foldl (fun s k => f k s) s

/-- Device states (Table PW-2) as PWR_DEV.STATE shows them. -/
def devStandby : Nat := 1
def devBoot : Nat := 2
def devReady : Nat := 3
def devRun : Nat := 4
def devSleep : Nat := 5
def devTamper : Nat := 6

/-- The device state. -/
def State.dev (s : State) : Nat := s.getF F.PWR_DEV_STATE

/-- Power state of a core: 0 RUN, 1 IDLE, 2 NAP, 3 DARK (Table CO-6). -/
def State.pstate (s : State) (k : Fin 8) : Nat := s.getF (F.CORE_STATUS_PSTATE k)

/-- The bridge is up. -/
def State.brgUp (s : State) : Bool := s.flag F.BRG_STATUS_UP

/-- Appends what the part puts on its wires. -/
def State.emit (s : State) (w : Wire) : State := { s with wire := w :: s.wire }

/-- Draws a free value of a width (log entry 3): the value and the state with the draw counted. -/
def State.draw (s : State) : BitVec 64 × State := (Config.freeWord s.free, { s with free := s.free + 1 })

/-- Counts `n` free values as drawn (log entry 3). -/
def State.drawn (s : State) (n : Nat) : State := { s with free := s.free + n }

/-! ### Logbook (R163, R582, Table PW-6) -/

/-- Class of a packet type in TRC_COREk_EN; none for the types that are always written. -/
def logClass (typ : Nat) : Option Nat :=
  if 0x10 ≤ typ ∧ typ ≤ 0x13 then some 0
  else if typ = 0x20 then some 1
  else if typ = 0x21 then some 2
  else if typ = 0x22 then some 3
  else if typ = 0x30 ∨ typ = 0x31 then some 4
  else if typ = 0x50 then some 5
  else if typ = 0x60 then some 6 else none

/-- Writes a packet of a core: context, unit, TYPE, PAYLOAD. It is dropped and counted when the 1,024 packets of the
Logbook are there (R163). -/
def State.log (s : State) (k : Fin 8) (ctx unit typ val : Nat) : State :=
  let on := match logClass typ with
    | none => true
    | some c => bitsOf (s.getF (F.TRC_CORE_EN k)) c 1 == 1
  if !on then s
  else
    let c := s.core k
    if c.log.length < 1024 then
      s.setCore k { c with logSince := c.logSince + 1,
                           log := c.log ++ [⟨typ, k.val + ctx % 2 * 8 + unit * 16, s.time.aft, val % 2 ^ 48⟩] }
    else
      let s := s.setCore k { c with logLost := c.logLost + 1 }
      s.setF (F.CORE_LOGDROP k) (satAdd 32 (s.getF (F.CORE_LOGDROP k)) 1)

/-! ### Interrupts (R547) -/

/-- Raises cause `n`: the message is sent when the bit becomes set while its vector is unmasked. -/
def State.raiseCause (s : State) (n : Nat) : State :=
  let f : Fld := ⟨F.HOST_ICAUSE.off, n, 1⟩
  if s.flag f then s
  else
    let s := s.setF f 1
    if bitsOf (s.getReg F.HOST_IMASK.off).toNat n 1 = 0 ∧ s.flag F.HOST_STATUS_LINK_UP then s.emit (.msix n) else s

/-- IRQ_N is low while a cause set in HOST_ICAUSE is enabled in HOST_IRQN_EN (R534). -/
def State.irqLow (s : State) : Bool := (s.getReg F.HOST_ICAUSE.off &&& s.getReg F.HOST_IRQN_EN.off) != 0#32

/-- Sets a GLB_STATUS error bit and raises cause 30. -/
def State.glbError (s : State) (f : Fld) : State := (s.setF f 1).raiseCause 30

/-! ### Fault records (R475, R480) -/

/-- A record of class `cls` by unit `unit`, with every other field zero. -/
def mkRec (t unit cls : Nat) : FRec :=
  { dtime := t, unit := unit, cls := cls, job := 0, poison := false, kill := false, opc := 0, addr := 0, akind := 0,
    word := 0, synd := 0, core := none, also := none, stripe := 0 }

/-- Hands a record of a Fore unit to the fault manager. -/
def State.report (s : State) (r : FRec) : State := { s with flt := { s.flt with fore := s.flt.fore ++ [r] } }

/-- Hands a record of an Aft unit to the bridge's fault class. While the bridge is down the Aft fabric holds up to 16
(R58), and counts those past that. A core unit's record is a FAULT packet
in its Logbook. -/
def State.reportAft (s : State) (r : FRec) : State :=
  let s := if 0x20 ≤ r.unit ∧ r.unit < 0x60 then
      s.log (coreOf ((r.unit - 0x20) / 8)) 0 (r.unit % 8) 0x22 (r.cls + r.unit * 256 + r.job * 65536)
    else s
  if s.brgUp || s.flt.aft.length < 16 then { s with flt := { s.flt with aft := s.flt.aft ++ [r] } }
  else { s with flt := { s.flt with aftLost := s.flt.aftLost + 1 } }

/-- Unit ID of unit `u` of core `k` (Table PC-3). -/
def coreUnit (k u : Nat) : Nat := 0x20 + 8 * k + u

/-- Address field of a scratchpad location (Table PC-2). -/
def spLoc (k r : Nat) : Nat := k * 131072 + r

/-! ### SECDED code and poison (R180–R182) -/

/-- The columns of data bits 0–63 (R180). -/
def eccCols : List (BitVec 8) :=
  [0x07, 0x0B, 0x0D, 0x0E, 0x13, 0x15, 0x16, 0x19, 0x1A, 0x1C, 0x23, 0x25, 0x26, 0x29, 0x2A, 0x2C,
   0x31, 0x32, 0x34, 0x38, 0x43, 0x45, 0x46, 0x49, 0x4A, 0x4C, 0x51, 0x52, 0x54, 0x58, 0x61, 0x62,
   0x64, 0x68, 0x70, 0x83, 0x85, 0x86, 0x89, 0x8A, 0x8C, 0x91, 0x92, 0x94, 0x98, 0xA1, 0xA2, 0xA4,
   0xA8, 0xB0, 0xC1, 0xC2, 0xC4, 0xC8, 0xD0, 0xE0] ++
  [0x1F, 0x2F, 0x37, 0x3B, 0x3D, 0x3E, 0x4F, 0x57]

/-- Exclusive-or of the columns of the set bits. -/
def checkFrom : List (BitVec 8) → Nat → BitVec 8
  | [], _ => 0
  | c :: cs, d => (if d % 2 = 1 then c else 0) ^^^ checkFrom cs (d / 2)

/-- The check byte of a data word (R180). -/
def checkByte (d : BitVec 64) : BitVec 8 := checkFrom eccCols d.toNat

/-- The place of a column among a list of columns. -/
def colIndex : List (BitVec 8) → BitVec 8 → Nat → Option Nat
  | [], _, _ => none
  | c :: cs, x, i => if c = x then some i else colIndex cs x (i + 1)

/-- Outcomes of reading a word (Table SP-2). -/
inductive WordRead where
  | clean | poison | corrected | bad
deriving DecidableEq, Repr

/-- Reads a stored word: outcome, data, syndrome (R181, Table SP-2). -/
def readWord (w : SpWord) : WordRead × BitVec 64 × BitVec 8 :=
  let y := w.chk ^^^ checkByte w.data
  if y = 0 then (.clean, w.data, y)
  else if y = 0x7F then (.poison, w.data, y)
  else
    match colIndex eccCols y 0 with
    | some i => (.corrected, w.data ^^^ BitVec.ofNat 64 (2 ^ i), y)
    | none =>
      match colIndex [1, 2, 4, 8, 16, 32, 64, 128] y 0 with
      | some _ => (.corrected, w.data, y)
      | none => (.bad, w.data, y)

/-- A clean stored word. -/
def cleanWord (d : BitVec 64) : SpWord := ⟨d, checkByte d⟩

/-- A stored word with the poison marker over the given data bits (R182). -/
def poisonWord (d : BitVec 64) : SpWord := ⟨d, checkByte d ^^^ 0x7F⟩

/-- A word is returned flagged poisoned (Table SP-2). -/
def WordRead.isPoison : WordRead → Bool
  | .poison => true
  | .bad => true
  | _ => false

/-- What an unlisted word of a scratchpad, awning buffer or Coffer SRAM reads as: zero with valid check bits. -/
def zeroWord : Nat → SpWord := dflt ⟨0, 0⟩

/-- A row: 64 words, each with its poison flag. -/
abbrev Row := List (BitVec 64 × Bool)

/-- A row of zeros. -/
def zeroRow : Row := List.replicate 64 (0, false)

/-- A row whose every word is poisoned. The data bits are not defined (R182). -/
def poisonRow (c : Nat) : Row := (upFrom 0 64).map (fun i => (Config.freeWord (c + i), true))

/-- A word of a row carries poison. -/
def rowPoisoned (r : Row) : Bool := r.any (fun w => w.2)

/-- The bytes of a row. -/
def rowBytes (r : Row) : List Byte := r.flatMap (fun w => leBytes 8 w.1.toNat)

/-- Stored words of a row, the data bits of its poisoned words being free values drawn from counter `c`. -/
def rowWords (c : Nat) : Row → Nat → List (Nat × SpWord)
  | [], _ => []
  | (d, p) :: r, i => (i, if p then poisonWord (Config.freeWord c) else cleanWord d) :: rowWords (c + 1) r (i + 1)

/-- Writes a row of a core's scratchpad (R175), the poison marker in its poisoned words (R182). -/
def State.putRow (s : State) (k : Fin 8) (r : Nat) (ws : Row) : State :=
  { s.setCore k { s.core k with sp := msets zeroWord (s.core k).sp (rowWords s.free ws (r * 64)) } with
    free := s.free + 64 }

/-- Writes a row of a core's awning buffer. -/
def State.putAwn (s : State) (k : Fin 8) (r : Nat) (ws : Row) : State :=
  { s.setCore k { s.core k with awn := msets zeroWord (s.core k).awn (rowWords s.free ws (r * 64)) } with
    free := s.free + 64 }

/-- Counts a corrected or uncorrectable word of a row (Table SP-2, R187, R188). -/
def State.noteWord (s : State) (k : Fin 8) (r i : Nat) (q : WordRead × BitVec 64 × BitVec 8) : State :=
  let last (s : State) (u : Nat) : State :=
    s.setReg (F.SP_LAST_ERR_ROW k).off (BitVec.ofNat 32 (r + i * 2 ^ 17 + q.2.2.toNat * 2 ^ 23 + u * 2 ^ 31))
  let base := { mkRec s.time.aft (coreUnit k 7) 0 with addr := spLoc k r, akind := 2, word := i, synd := q.2.2.toNat }
  match q.1 with
  | .corrected =>
    let s := last (s.bump (F.CORE_SP_CE k) 1) 0
    let c := s.core k
    let n := mget (dflt 0) c.scrubCe r / 2 + 1
    let told := mget (dflt 0) c.scrubCe r % 2
    let storm := decide (told = 0) && decide (s.getF (F.SP_SCRUB_CE_LIMIT k) < n)
    let c := { c with scrubCe := mset (dflt 0) c.scrubCe r (2 * n + if storm then 1 else told),
                      scrubQ := if c.scrubQ.length < 16 && !c.scrubQ.contains r then c.scrubQ ++ [r] else c.scrubQ }
    let s := s.setCore k c
    if storm then s.reportAft { base with cls := 0x11, core := some k.val } else s
  | .bad => (last (s.bump (F.CORE_SP_UE k) 1) 1).reportAft { base with cls := 0x10, poison := true }
  | _ => s

/-- The cycles in which an access that is no command of its own waited for its bank: a free value (R178; log entry 124). -/
def State.waited (s : State) (k : Fin 8) : State :=
  let (v, s) := s.draw
  s.bumpWrap (F.CORE_SP_CONFLICT k) v.toNat

/-- The words of a row as a hop to core `k` receives them, from word `i` on: Table SP-2 is applied to each (R440). -/
def State.hopWords (k : Fin 8) (r : Nat) (flips : List Flip) (i : Nat) : Row → State → Row × State
  | [], s => ([], s)
  | w :: ws, s =>
    let x := if w.2 then poisonWord w.1 else cleanWord w.1
    let q := readWord ((flips.filter (fun f => f.word == i)).foldl (fun x f => ⟨x.data ^^^ f.data, x.chk ^^^ f.chk⟩) x)
    let (l, s) := State.hopWords k r flips (i + 1) ws (s.noteWord k r i q)
    ((q.2.1, q.1.isPoison) :: l, s)

/-- A row as a hop to core `k`, where it belongs to row `r`, receives it (R440). Without a flip it is the row that was sent. -/
def State.hop (s : State) (k : Fin 8) (r : Nat) (flips : List Flip) (ws : Row) : Row × State :=
  if flips.isEmpty then (ws, s) else State.hopWords k r flips 0 ws s

/-- Reads the words of a row from word `i` on. -/
def State.readWords (k : Fin 8) (awn : Bool) (r : Nat) : Nat → Nat → State → Row × State
  | 0, _, s => ([], s)
  | n + 1, i, s =>
    let m := if awn then (s.core k).awn else (s.core k).sp
    let q := readWord (mget zeroWord m (r * 64 + i))
    let s := if awn then s else s.noteWord k r i q
    let (ws, s) := State.readWords k awn r n (i + 1) s
    ((q.2.1, q.1.isPoison) :: ws, s)

/-- Reads a row of a core's scratchpad, acting on every word's syndrome (R181). -/
def State.getRow (s : State) (k : Fin 8) (r : Nat) : Row × State := State.readWords k false r 64 0 s

/-- Reads a row of a core's awning buffer. -/
def State.getAwn (s : State) (k : Fin 8) (r : Nat) : Row × State := State.readWords k true r 64 0 s

/-! ### Jobs -/

/-- The loaded job with an ID. -/
def State.job (s : State) (id : Nat) : Option Job := s.jobs.find? (fun j => j.id == id)

/-- Replaces the loaded job with the same ID. -/
def State.setJob (s : State) (j : Job) : State :=
  { s with jobs := s.jobs.map (fun i => if i.id = j.id then j else i) }

/-- Changes a loaded job. -/
def State.modJob (s : State) (id : Nat) (f : Job → Job) : State :=
  { s with jobs := s.jobs.map (fun j => if j.id = id then f j else j) }

/-- What a job holds on a core. -/
def Job.on (j : Job) (k : Nat) : CoreShare := nth ⟨false, 0, 0, 0, 0, 0, 0, []⟩ j.share k

/-- Tile width of a job on a core (R65). -/
def Job.tile (j : Job) (k : Nat) : Nat := nth 0 j.tiles k

/-- The core whose tile a core works on: in a paired job a secondary works on its primary's (R166). -/
def tileOwner (paired : Bool) (k : Nat) : Nat := if paired && k % 2 == 1 then k - 1 else k

/-- The cores that a tile map uses: those with tile width and, in a paired job, their secondaries (R66, R166). -/
def mapCores (paired : Bool) (tiles : List Nat) : List (Fin 8) :=
  allCores.filter (fun k => 0 < nth 0 tiles k.val || 0 < nth 0 tiles (tileOwner paired k.val))

/-- The cores of a job under its present tile map. -/
def Job.cores (j : Job) : List (Fin 8) := mapCores j.paired j.tiles

/-- The cores of a job in one of its frames, whose tile map is fixed at its start (R67). -/
def Job.coresIn (j : Job) (x : JFrame) : List (Fin 8) := mapCores j.paired x.tiles

/-- Changes a frame of a job. -/
def Job.modFrame (j : Job) (no : Nat) (f : JFrame → JFrame) : Job :=
  { j with frames := j.frames.map (fun x => if x.no = no then f x else x) }

/-- Changes a band of a frame. -/
def JFrame.modBand (x : JFrame) (k : Nat) (f : StripeRec → StripeRec) : JFrame :=
  { x with bands := x.bands.map (fun r => if r.k = k then f r else r) }

/-- Changes a band of a frame of a job. -/
def Job.modBand (j : Job) (no k : Nat) (f : StripeRec → StripeRec) : Job := j.modFrame no (fun x => x.modBand k f)

/-- The core is the secondary of a pair of this job in the stripe that a context runs (R164). -/
def Job.secondary (j : Job) (c : Ctx) (k : Nat) : Bool := j.paired && k % 2 == 1 && decide (0 < nth 0 c.tiles (k - 1))

/-- The hardware context a job runs in (R135). -/
def Job.ctxNo (j : Job) : Fin 3 := if j.inline then 0 else 1

/-- Number of stripes of a frame (R60). -/
def Job.n (j : Job) : Nat := if j.s = 0 then 0 else (j.height + j.s - 1) / j.s

/-- Output rows of band `k` (R62): first and past the last. -/
def Job.band (j : Job) (k : Nat) : Nat × Nat :=
  (min j.height (k * j.s - j.a), min j.height ((k + 1) * j.s - j.a))

/-- A row lies in a row range of the job on a core; a write also needs a class that the program may write (R198,
Table SP-3). Job 0 is firmware traffic and is not refused here. -/
def State.rowAllowed (s : State) (id k r : Nat) (write : Bool) : Bool :=
  if id = 0 then true
  else
    match s.job id with
    | none => false
    | some j => (j.on k).rows.any (fun g => decide (g.first ≤ r) && decide (r ≤ g.last) && (!write || g.cls != 0))

/-- Bytes with their poison, from a row. -/
def bytesOfRow (r : Row) : List (Byte × Bool) := r.flatMap (fun w => (leBytes 8 w.1.toNat).map (fun b => (b, w.2)))

/-- 8-byte words from bytes with their poison: a word with a poisoned byte is poisoned. -/
def wordsOfBytes : Nat → List (Byte × Bool) → Row
  | 0, _ => []
  | n + 1, l =>
    let h := l.take 8
    (BitVec.ofNat 64 (leNat (h.map (·.1))), h.any (·.2)) :: wordsOfBytes n (l.drop 8)

/-- A row from 512 bytes. -/
def rowOfBytes (l : List (Byte × Bool)) : Row := wordsOfBytes 64 l

/-! ### Coffer SRAM (R392, R416) -/

/-- Bytes of a slot (Table CF-2). -/
def slotBytes : Nat := 3264

/-- Reads a word of Coffer SRAM: corrected words count in COF_CE, an uncorrectable one writes COF_UE (R416, R437). -/
def State.cofWord (s : State) (w : Nat) : (BitVec 64 × Bool) × State :=
  let q := readWord (mget zeroWord s.cof.sram w)
  let v := (q.2.1, q.1.isPoison)
  match q.1 with
  | .corrected =>
    -- R437: a single-bit error is corrected in place
    (v, ({ s with cof := { s.cof with sram := mset zeroWord s.cof.sram w (cleanWord q.2.1) } }).bump F.COF_CE 1)
  | .bad => (v, s.report { mkRec s.time.now 0x07 0x44 with
      addr := 0x030000000000 + w * 8, akind := 1, poison := true, synd := q.2.2.toNat })
  | _ => (v, s)

/-- Reads words of Coffer SRAM. -/
def State.cofWords (w : Nat) : Nat → State → Row × State
  | 0, s => ([], s)
  | n + 1, s =>
    let (v, s) := s.cofWord w
    let (l, s) := State.cofWords (w + 1) n s
    (v :: l, s)

/-- Writes a word of Coffer SRAM; the data bits of a poisoned word are not defined (R182). -/
def State.cofPut (s : State) (w : Nat) (v : BitVec 64 × Bool) : State :=
  let x := if v.2 then poisonWord (Config.freeWord s.free) else cleanWord v.1
  { s with cof := { s.cof with sram := mset zeroWord s.cof.sram w x }, free := s.free + (if v.2 then 1 else 0) }

/-- Writes words of Coffer SRAM. -/
def State.cofPuts (w : Nat) : Row → State → State
  | [], s => s
  | v :: l, s => State.cofPuts (w + 1) l (s.cofPut w v)

/-- A number taken as a ring bank: 0 HOST, 1 HSP. -/
def bankOf (n : Nat) : Fin 2 := ⟨n % 2, Nat.mod_lt _ (by decide)⟩

/-- A submission that has ended whose completion is still kept, as its bank, TAG, first slot and slots (R542, R555). -/
def State.cplKept (s : State) (e : Nat × Nat × Nat × Nat) : Bool :=
  (vget s.host.ring (bankOf e.1)).held.any (fun c => c.opc == 0x0B && c.tag == e.2.1)

/-- The running submission, or one whose completion is not posted yet, holds some slot of the byte range (R432). -/
def State.cofLocked (s : State) (off n : Nat) : Bool :=
  let on (first count : Nat) : Bool := decide (off < (first + count) * slotBytes) && decide (first * slotBytes < off + n)
  s.cof.run.any (fun r => on r.sub.first r.sub.count) || s.cof.ended.any (fun e => s.cplKept e && on e.2.2.1 e.2.2.2)

/-- Sets SLOT_LOCKED, which raises cause 21, and counts the refused access (R432, Table HO-9). -/
def State.cofRefuse (s : State) : State := ((s.setF F.COF_STICKY_SLOT_LOCKED 1).raiseCause 21).bump F.COF_LOCKED 1

/-- Parts of Coffer SRAM that Table CF-1 tells apart: 0 slots, 1 accumulators and gate program memory, 2 mailbox. -/
def cofPart (off : Nat) : Nat := if off < 0xCC0000 then 0 else if off < 0xFC0000 then 1 else 2

/-- A byte range of Coffer SRAM cut at the bounds of Table CF-1: offset and length of the run in each part. -/
def cofRuns (off n : Nat) : List (Nat × Nat) :=
  [(off, min (off + n) 0xCC0000 - off), (max off 0xCC0000, min (off + n) 0xFC0000 - max off 0xCC0000),
   (max off 0xFC0000, off + n - max off 0xFC0000)].filter (fun r => 0 < r.2)

/-- A read within one part of Coffer SRAM by a host path (Table CF-1, R432). What the mailbox returns to a host read is not
stated: a free value (log entry 3). -/
def State.cofReadRun (s : State) (off n : Nat) : List (Byte × Bool) × State :=
  match cofPart off with
  | 0 =>
    if s.cofLocked off n then (List.replicate n (0, false), s.cofRefuse)
    else
      let (ws, s) := State.cofWords (off / 8) ((off + n + 7) / 8 - off / 8) s
      (((bytesOfRow ws).drop (off % 8)).take n, s)
  | 1 => (List.replicate n (0, false), s)
  | _ => ((upFrom s.free n).map (fun c => ((Config.freeWord c).setWidth 8, false)), s.drawn n)

/-- A read of Coffer SRAM by a host path, each part by its own rule (Table CF-1). -/
def State.cofHostRead (s : State) (off n : Nat) : List (Byte × Bool) × State :=
  (cofRuns off n).foldl (fun a r => let (l, s) := a.2.cofReadRun r.1 r.2; (a.1 ++ l, s)) ([], s)

/-- The header a host write commits (R394): LEVEL, KSID, VALID and TRIVIAL as written, HOSTW 1, GEN the previous plus 1. -/
def hostHeader (new old : BitVec 64) : BitVec 64 :=
  let n := new.toNat
  BitVec.ofNat 64 (n % 1024 + 1024 + (bitsOf old.toNat 32 32 + 1) % 2 ^ 32 * 2 ^ 32)

/-- Merges written bytes into the words they touch. A word keeps its poison unless it is overwritten whole (R467). -/
def mergeWord (old : BitVec 64 × Bool) (base off : Nat) (bs : List (Byte × Bool)) : BitVec 64 × Bool :=
  let at_ (i : Nat) : Option (Byte × Bool) := if off ≤ base + i then bs[base + i - off]? else none
  let l := (upFrom 0 8).map (fun i => match at_ i with
    | some b => b.1
    | none => BitVec.ofNat 8 (bitsOf old.1.toNat (8 * i) 8))
  let all := (upFrom 0 8).all (fun i => (at_ i).isSome)
  let pois := (upFrom 0 8).any (fun i => match at_ i with
    | some b => b.2
    | none => false)
  (BitVec.ofNat 64 (leNat l), pois || (old.2 && !all))

/-- Writes the bytes of one word of Coffer SRAM. A word that is not overwritten whole is read first (R416). The header of a slot
is committed as R394 says. -/
def State.cofMerge (s : State) (off : Nat) (bs : List (Byte × Bool)) (w : Nat) : State :=
  let header := w * 8 < 0xCC0000 ∧ w * 8 % slotBytes = 0
  let whole := off ≤ w * 8 ∧ w * 8 + 8 ≤ off + bs.length
  let (old, s) := if whole ∧ ¬ header then ((0, false), s) else s.cofWord w
  let v := mergeWord old (w * 8) off bs
  s.cofPut w (if header then (hostHeader v.1 old.1, v.2) else v)

/-- A write within one part of Coffer SRAM by a host path (Table CF-1, R432): each word the bytes touch. -/
def State.cofWriteRun (s : State) (off : Nat) (bs : List (Byte × Bool)) : State :=
  let n := bs.length
  let put (s : State) : State := (upFrom (off / 8) ((off + n + 7) / 8 - off / 8)).foldl (fun s w => s.cofMerge off bs w) s
  match cofPart off with
  | 0 => if s.cofLocked off n then s.cofRefuse else put s
  | 1 => s
  | _ => put s

/-- A write of Coffer SRAM by a host path, each part by its own rule (Table CF-1). -/
def State.cofHostWrite (s : State) (off : Nat) (bs : List (Byte × Bool)) : State :=
  (cofRuns off bs.length).foldl (fun s r => s.cofWriteRun r.1 ((bs.drop (r.1 - off)).take r.2)) s

/-! ### Shaelo messages -/

/-- The port that the route to a chip names (R507). -/
def State.routeTo (s : State) (c : Nat) : Option (Fin 2) :=
  match bitsOf (s.getReg F.LNK_ROUTE_ROUTE.off).toNat (2 * c) 2 with
  | 1 => some 0
  | 2 => some 1
  | _ => none

/-- A port of the link. -/
def State.port (s : State) (p : Fin 2) : LinkPort := vget s.lnk.port p

/-- State with a port replaced. -/
def State.setPort (s : State) (p : Fin 2) (q : LinkPort) : State :=
  { s with lnk := { s.lnk with port := vset s.lnk.port p q } }

/-- Queues a message at a port. -/
def State.portQueue (s : State) (p : Fin 2) (m : LinkMsg) : State :=
  s.setPort p { s.port p with queue := (s.port p).queue ++ [m] }

/-- Queues a message at the port its destination's route names; none when the chip is unreachable (R507), or the port is up for
class 5 only (R504). -/
def State.linkSend (s : State) (m : LinkMsg) : Option State :=
  match s.routeTo m.dstc with
  | none => none
  | some p => if s.flag (F.LNK_STAT_DUP_CHIP p) && m.cls != 5 then none else some (s.portQueue p m)

/-- A message with every field zero but class, opcode, chips and TAG. -/
def mkLink (cls opc tag src dst : Nat) : LinkMsg :=
  { cls := cls, opc := opc, tag := tag, srcc := src, dstc := dst, win := 0, len := 0, arrive := false, vc := 0,
    row := 0, key := 0, pmask := 0, inl := 0, resv := 0, data := [] }

/-- OPC of a completion (log entry 51): read data, write acknowledge, refusal of a window not OPEN, any other refusal, an access
that waited 5 ms (R192). -/
def lnkData : Nat := 0
def lnkAck : Nat := 1
def lnkClosed : Nat := 2
def lnkDenied : Nat := 3
def lnkLate : Nat := 4
/-- OPC of a class 3 message: a time exchange, the DTIME of a generator's next edge. -/
def lnkExchange : Nat := 0
def lnkEdge : Nat := 1
/-- OPC of a class 4 message: a close notice. -/
def lnkCloseNotice : Nat := 1
/-- OPC of a class 5 message: a register read, a register write, capability words. -/
def lnkRegRead : Nat := 0
def lnkRegWrite : Nat := 1
def lnkCaps : Nat := 2

/-- Answers a message with a completion from this chip. -/
def State.lnkReply (s : State) (m : LinkMsg) (opc : Nat) (data : List (BitVec 256)) (pmask : Nat) : State :=
  let r := { mkLink 2 opc m.tag m.dstc m.srcc with
    win := m.win, len := data.length, row := m.row, pmask := pmask, data := data }
  (s.linkSend r).getD s

/-- A refusal of a window message (R507, R512): a read completes with every data flit poisoned. -/
def State.lnkRefuse (s : State) (m : LinkMsg) (opc : Nat) : State :=
  if m.cls = 1 then
    (s.drawn 16).lnkReply m opc ((upFrom s.free 16).map (fun c => (Config.freeWord c).setWidth 256)) 0xFFFF
  else s.lnkReply m opc [] 0

/-- Data flits of a row. -/
def flitsOfRow (r : Row) : List (BitVec 256) :=
  (upFrom 0 16).map (fun i => BitVec.ofNat 256 (leNat ((rowBytes r).drop (32 * i) |>.take 32)))

/-- PMASK of a row: flit i carries poison (R39). -/
def pmaskOfRow (r : Row) : Nat :=
  (upFrom 0 16).foldl (fun a i => if ((r.drop (4 * i)).take 4).any (·.2) then a + 2 ^ i else a) 0

/-- Row from data flits and PMASK: poison in all four words of a poisoned flit (R39). -/
def rowOfFlits (data : List (BitVec 256)) (pmask : Nat) : Row :=
  (upFrom 0 64).map (fun i =>
    (BitVec.ofNat 64 (bitsOf (nth 0 data (i / 4)).toNat (64 * (i % 4)) 64), bitsOf pmask (i / 4) 1 == 1))

/-- The binding a host-path access to a window goes through: any open one that names the chip and window. -/
def State.anyBinding (s : State) (c w : Nat) : Option OutBind :=
  s.lnk.ob.toList.find? (fun b => b.open_ && b.chip == c && b.win == w)

/-- A whole row written to a window by a host path or the Lantern, as job 0x000 (R510): the message to the owning chip, and the
wait for its acknowledgement. None without a binding or a route. -/
def State.winWrite (s : State) (who c w r : Nat) (row : Row) : Option State :=
  match s.anyBinding c w with
  | none => none
  | some ob =>
    let msg := { mkLink 0 0 s.lnk.nextTag (s.getF F.LNK_CFG_CHIP) c with
      win := w, len := 16, row := r, key := ob.key, pmask := pmaskOfRow row, data := flitsOfRow row }
    let wait : RxWait := { core := 0, ctx := 0, tok := 0, tag := s.lnk.nextTag, bind := 0, chip := c, read := false,
                           rows := [r], awn := false, who := some who, lo := 0, n := 512 }
    (s.linkSend msg).elim none (fun s =>
      some { s with lnk := { s.lnk with nextTag := (s.lnk.nextTag + 1) % 4096, waits := s.lnk.waits ++ [wait] } })

/-- A read request to a Shaelo window, for a host path or the Lantern as job 0x000 (R510), of `n` bytes at byte `lo` of a row. None
when no binding or route leads there. -/
def State.winRead (s : State) (rank c w r lo n : Nat) : Option State :=
  match s.anyBinding c w with
  | none => none
  | some ob =>
    let tag := s.lnk.nextTag
    let msg := { mkLink 1 0 tag (s.getF F.LNK_CFG_CHIP) c with win := w, row := r, key := ob.key, inl := 512 }
    let wait : RxWait := { core := 0, ctx := 0, tok := 0, tag := tag, bind := 0, chip := c, read := true, rows := [r],
                           awn := false, who := some rank, lo := lo, n := n }
    match s.linkSend msg with
    | none => none
    | some s => some { s with lnk := { s.lnk with nextTag := (tag + 1) % 4096, waits := s.lnk.waits ++ [wait] } }

/-! ### Core islands -/

/-- A core island. -/
def State.isl (s : State) (k : Fin 8) : Island := vget s.pwr.isl k

/-- State with an island replaced. -/
def State.setIsl (s : State) (k : Fin 8) (i : Island) : State := { s with pwr := { s.pwr with isl := vset s.pwr.isl k i } }

/-! ### Held rows -/

/-- Accesses to a core's rows are held: initialisation or a wake pass runs (R192, R194). -/
def State.spHeld (s : State) (k : Fin 8) : Bool := (s.core k).initing || (s.core k).waking

/-- A write of a row waits at a core (R192, R194), for `who` of `HeldAcc`. -/
def State.holdWrite (s : State) (k : Fin 8) (who r : Nat) (ws : Row) : State :=
  s.setCore k { s.core k with held := (s.core k).held ++
    [{ write := true, row := r, ws := ws, since := s.time.now, who := who, lo := 0, n := 0 }] }

/-- A read of a row waits at a core (R192, R194). A requester that asks again is noted once. -/
def State.holdRead (s : State) (k : Fin 8) (who r lo n : Nat) : State :=
  let c := s.core k
  if 8 ≤ who && c.held.any (fun h => !h.write && h.who == who) then s
  else s.setCore k { c with held := c.held ++
    [{ write := false, row := r, ws := [], since := s.time.now, who := who, lo := lo, n := n }] }

/-- The bridge retrains with nothing lost (R54): what would cross it waits. -/
def State.brgBusy (s : State) : Bool := s.brg.training && !s.brg.wasUp

/-! ### Device space (Table TH-3) -/

/-- Where a device address lies. -/
inductive Region where
  | dram
  | sp (core : Nat) (row : Nat) (byte : Nat)
  | win (chip : Nat) (w : Nat) (row : Nat) (byte : Nat)
  | cof (off : Nat)
  | host (bus : Nat)
  | regs (off : Nat)
  | none
deriving DecidableEq, Repr

/-- The device address map (R29). -/
def State.region (s : State) (a : Nat) : Region :=
  if a < s.ddrSize then .dram
  else if 0x010000000000 ≤ a ∧ a < 0x010000000000 + 8 * 0x4000000 then
    let o := a - 0x010000000000
    .sp (o / 0x4000000) (o % 0x4000000 / 512) (o % 512)
  else if 0x020000000000 ≤ a ∧ a < 0x020800000000 then
    let o := a - 0x020000000000
    if o / 0x100000000 = s.getF F.LNK_CFG_CHIP then .none
    else .win (o / 0x100000000) (o % 0x100000000 / 0x8000000) (o % 0x8000000 / 512) (o % 512)
  else if 0x030000000000 ≤ a ∧ a < 0x030001000000 then .cof (a - 0x030000000000)
  else if 0x080000000000 ≤ a ∧ a < 0x090000000000 then
    .host (s.getF F.HOST_HADDR_HI * 2 ^ 40 + (a - 0x080000000000))
  else if 0x0F0000000000 ≤ a ∧ a < 0x0F0000200000 then .regs (a - 0x0F0000000000)
  else .none

/-- An address lies in the 768 MiB of key regions (R418). -/
def State.inKeys (s : State) (a : Nat) : Bool :=
  let b := (s.inForce F.COF_KBASE_KBASE.off).toNat * 256
  decide (0 < b) && decide (b ≤ a) && decide (a < b + 768 * 1048576)

/-- An address lies in the 8 MiB save area (R488). -/
def State.inSave (s : State) (a : Nat) : Bool :=
  let b := (s.inForce F.FLT_SAVE_BASE.off).toNat * 256
  decide (0 < b) && decide (b ≤ a) && decide (a < b + 8 * 1048576)

/-- A range of DRAM lies in the key regions (COF_DENIED, R418) or the save area (ROW_PROTECT, R488): the class of the refusal. -/
def State.dramDenied (s : State) (a n : Nat) : Option Nat :=
  if s.inKeys a || s.inKeys (a + n - 1) then some 0x43
  else if s.inSave a || s.inSave (a + n - 1) then some 0x03 else none

/-- A byte of DRAM. Memory that nothing has written reads as zero (log entry 7). -/
def State.dramByte (s : State) (a : Nat) : Byte := mget (dflt 0) s.dram a

/-- Writes bytes of DRAM from an address; a whole 8-byte word written clean loses its poison (R467). -/
def State.dramPut (s : State) (a : Nat) (bs : List Byte) : State :=
  let m := msets (dflt 0) s.dram ((upFrom a bs.length).zip bs)
  let whole := (upFrom ((a + 7) / 8) ((a + bs.length) / 8 - (a + 7) / 8))
  { s with dram := m, dramPoison := msets (dflt false) s.dramPoison (whole.map (fun w => (w, false))),
           dramBad := msets (dflt false) s.dramBad (whole.map (fun w => (w, false))) }

/-- Is a byte of DRAM read poisoned: its word was written poisoned, or the controller cannot correct it. -/
def State.dramPois (s : State) (a : Nat) : Bool :=
  mget (dflt false) s.dramPoison (a / 8) || mget (dflt false) s.dramBad (a / 8)

/-- Marks the words of a range of DRAM poisoned where the flags say so. -/
def State.dramMark (s : State) (a : Nat) (ps : List Bool) : State :=
  let l := ((upFrom a ps.length).zip ps).filterMap (fun e => if e.2 then some (e.1 / 8, true) else none)
  { s with dramPoison := msets (dflt false) s.dramPoison l }

/-- Reads bytes of DRAM with their poison; uncorrectable words write DDR_UE records (R467, Table PC-4). -/
def State.dramGet (s : State) (a n : Nat) : List (Byte × Bool) × State :=
  let l := (upFrom a n).map (fun i => (s.dramByte i, s.dramPois i))
  let bad := ((upFrom (a / 8) ((a + n + 7) / 8 - a / 8)).filter (fun w => mget (dflt false) s.dramBad w))
  (l, bad.foldl (fun s w => s.report { mkRec s.time.now 0x08 0x16 with addr := w * 8, akind := 1, poison := true }) s)

/-- Reads bytes of host memory; fails while the link is down or the host fails the read (R526, R555). -/
def State.hostGet (s : State) (bus n : Nat) : Option (List Byte) :=
  if !s.flag F.HOST_STATUS_LINK_UP || s.host.failing.any (fun f => decide (f.1 < bus + n) && decide (bus < f.2))
  then none
  else some ((upFrom bus n).map (fun i => mget (dflt 0) s.hostMem i))

/-- Writes bytes of host memory; dropped while the link is down (R555). -/
def State.hostPut (s : State) (bus : Nat) (bs : List Byte) : State :=
  if s.flag F.HOST_STATUS_LINK_UP then { s with hostMem := msets (dflt 0) s.hostMem ((upFrom bus bs.length).zip bs) }
  else s

/-- An ADDR_UNMAPPED record for a device address (R30). -/
def unmappedRec (t a : Nat) : FRec := { mkRec t 0x03 0x01 with addr := a, akind := 1 }

/-- Poisoned bytes of a read that is refused; their values are not defined. -/
def poisonBytes (c n : Nat) : List (Byte × Bool) :=
  (upFrom 0 n).map (fun i => ((Config.freeWord (c + i)).setWidth 8, true))

/-- A refused read: poisoned bytes, and the record. -/
def State.refuseRead (s : State) (n : Nat) (r : FRec) : List (Byte × Bool) × State :=
  (poisonBytes s.free n, (s.report r).drawn n)

/-- Reads `n` whole scratchpad rows for the firmware, from row `q` counted over the eight cores. Rows that cannot be reached, and
rows that are still held 5 ms after the access was made (R192), answer poisoned; the firmware waits for others (`fwHeld`). -/
def State.fwRowsGet : Nat → Nat → State → List (Byte × Bool) × State
  | 0, _, s => ([], s)
  | n + 1, q, s =>
    let k := coreOf (q / 131072)
    let (l, s) :=
      if 8 ≤ q / 131072 then s.refuseRead 512 (unmappedRec s.time.now (0x010000000000 + q * 512))
      else if !s.brgUp ∨ 2 ≤ s.pstate k ∨ s.spHeld k then (poisonBytes s.free 512, s.drawn 512)
      else let (w, s) := (s.waited k).getRow k (q % 131072); (bytesOfRow w, s)
    let (m, s) := State.fwRowsGet n (q + 1) s
    (l ++ m, s)

/-- Writes whole scratchpad rows for the firmware, from row `q` counted over the eight cores; a held core's rows wait (R192). -/
def State.fwRowsPut : Nat → Nat → List (Byte × Bool) → State → State
  | 0, _, _, s => s
  | n + 1, q, bs, s =>
    let k := coreOf (q / 131072)
    let row := rowOfBytes (bs.take 512)
    let s :=
      if 8 ≤ q / 131072 then s.report (unmappedRec s.time.now (0x010000000000 + q * 512))
      else if !s.brgUp ∨ 2 ≤ s.pstate k then s
      else if s.spHeld k then s.holdWrite k 0 (q % 131072) row
      else (s.waited k).putRow k (q % 131072) row
    State.fwRowsPut n (q + 1) (bs.drop 512) s

/-- The firmware's read of bytes waits: rows of it are held at a core that began to initialise or wake less than 5 ms ago (R192,
R194), or lie beyond a bridge that retrains (R54). -/
def State.fwHeld (s : State) (a n : Nat) : Bool :=
  match s.region a with
  | .sp k r _ =>
    (upFrom k ((r + (n + 511) / 512) / 131072 + 1)).any (fun k => decide (k < 8) && decide (s.pstate (coreOf k) < 2)
      && (s.brgBusy || (s.brgUp && s.spHeld (coreOf k) && decide (s.time.now < (s.core (coreOf k)).initAt + 5000000))))
  | .win _ _ _ _ => s.brgBusy
  | _ => false

/-- The Lantern asks for the rows of a window that a read touches (R29, R510), from row `r` on. None when some cannot be asked
for. -/
def State.fwWinAsk (c w : Nat) : Nat → Nat → State → Option State
  | 0, _, s => some s
  | n + 1, r, s => (s.winRead 0 c w r 0 512).bind (State.fwWinAsk c w n (r + 1))

/-- Whole rows that the Lantern writes through a window, from row `r` on (R510). -/
def State.fwWinPut (c w : Nat) : Nat → Nat → List (Byte × Bool) → State → Option State
  | 0, _, _, s => some s
  | n + 1, r, bs, s => (s.winWrite 0 c w r (rowOfBytes (bs.take 512))).bind (State.fwWinPut c w n (r + 1) (bs.drop 512))

/-- Bytes of which nothing is known, nor whether they are poisoned. -/
def freeBytes (c n : Nat) : List (Byte × Bool) :=
  (upFrom 0 n).map (fun i => ((Config.freeWord (c + i)).setWidth 8, (Config.freeWord (c + i)).getLsbD 8))

/-- The firmware reads bytes of the device address map for a command (R29, R540). Poison is flagged. Through a window it asks the
owner for the rows; DESIGN CHOICE: a command acts as one step of the model, so what the owner answers is a free value in it (log
entry 92). -/
def State.fwGet (s : State) (a n : Nat) : List (Byte × Bool) × State :=
  match s.region a with
  | .dram =>
    if s.ddrSize < a + n then s.refuseRead n (unmappedRec s.time.now a)
    else
      match s.dramDenied a n with
      | some cls => s.refuseRead n { unmappedRec s.time.now a with cls := cls }
      | none => s.dramGet a n
  | .host bus =>
    match s.hostGet bus n with
    | some l => (l.map (fun b => (b, false)), s)
    | none => s.refuseRead n (unmappedRec s.time.now a)
  | .sp k r b =>
    if b ≠ 0 ∨ n % 512 ≠ 0 then s.refuseRead n { unmappedRec s.time.now a with cls := 0x02 }
    else State.fwRowsGet (n / 512) (k * 131072 + r) s
  | .cof off => if off + n ≤ 0x1000000 then s.cofHostRead off n else s.refuseRead n (unmappedRec s.time.now a)
  | .win c w r b =>
    if !s.brgUp then (poisonBytes s.free n, s.drawn n)
    else
      match State.fwWinAsk c w ((b + n + 511) / 512) r s with
      | some s => (freeBytes s.free n, s.drawn n)
      | none => s.refuseRead n (unmappedRec s.time.now a)
  | _ => s.refuseRead n (unmappedRec s.time.now a)

/-- The firmware writes bytes of the device address map (R29). -/
def State.fwPut (s : State) (a : Nat) (bs : List Byte) : State :=
  let clean := bs.map (fun b => (b, false))
  let n := bs.length
  match s.region a with
  | .dram =>
    if s.ddrSize < a + n then s.report (unmappedRec s.time.now a)
    else
      match s.dramDenied a n with
      | some cls => s.report { unmappedRec s.time.now a with cls := cls }
      | none => s.dramPut a bs
  | .host bus => s.hostPut bus bs
  | .sp k r b =>
    if b ≠ 0 ∨ n % 512 ≠ 0 then s.report { unmappedRec s.time.now a with cls := 0x02 }
    else State.fwRowsPut (n / 512) (k * 131072 + r) clean s
  | .cof off => if off + n ≤ 0x1000000 then s.cofHostWrite off clean else s.report (unmappedRec s.time.now a)
  | .win c w r b =>
    if b ≠ 0 ∨ n % 512 ≠ 0 then s.report { unmappedRec s.time.now a with cls := 0x02 }
    else if !s.brgUp then s
    else (State.fwWinPut c w (n / 512) r clean s).getD (s.report (unmappedRec s.time.now a))
  | _ => s.report (unmappedRec s.time.now a)

/-! ### Completions (R542, R543, R545, R555) -/

/-- A completion entry as 64 bytes (Table HO-6). -/
def CplEntry.bytes (c : CplEntry) (phase : Nat) : List Byte :=
  let ok := c.result = 0 ∨ c.result = 0x30 ∨ c.result = 0x50
  let b4 := phase + (if ok then 2 else 0) + (if c.replayed then 4 else 0)
  let h := leBytes 2 c.tag ++ leBytes 1 c.opc ++ leBytes 1 c.result ++ leBytes 1 b4 ++ leBytes 3 0 ++ c.vals
  (h ++ List.replicate 64 0).take 64

/-- A 64-bit value held in two registers. -/
def State.pair (s : State) (lo hi : Nat) : Nat := (s.getReg lo).toNat + (s.getReg hi).toNat * 2 ^ 32

/-- Number of entries of a completion ring. -/
def State.cqSize (s : State) (b : Fin 2) : Nat := 2 ^ s.getF (F.RING_CFG_CQ_SIZE b)

/-- The completion ring is full: tail + 1 = CQ_HEAD (R542). -/
def State.cqFull (s : State) (b : Fin 2) : Bool :=
  (s.getF (F.CQ_TAIL_TAIL b) + 1) % s.cqSize b == s.getF (F.CQ_HEAD b) % s.cqSize b

/-- Writes a completion at CQ_TAIL, in full before its PHASE, and moves the tail; the phase inverts at a wrap (R542). -/
def State.cqWrite (s : State) (b : Fin 2) (c : CplEntry) : State :=
  let t := s.getF (F.CQ_TAIL_TAIL b)
  let ph := s.getF (F.CQ_TAIL_PHASE b)
  let s := s.fwPut (s.pair (F.CQ_BASE_LO b).off (F.CQ_BASE_HI b).off + t * 64) (c.bytes ph)
  let t' := (t + 1) % s.cqSize b
  let s := s.setF (F.CQ_TAIL_TAIL b) t'
  let s := if t' = 0 then s.setF (F.CQ_TAIL_PHASE b) (1 - ph) else s
  if c.irq then s.raiseCause b.val else s

/-- Ring state of a bank. -/
def State.ring (s : State) (b : Fin 2) : RingSt := vget s.host.ring b

/-- State with the ring state of a bank replaced. -/
def State.setRing (s : State) (b : Fin 2) (r : RingSt) : State :=
  { s with host := { s.host with ring := vset s.host.ring b r } }

/-- Posts a completion to a bank, or holds it: up to 64 while the ring is full (R542) or the HOST path is lost (R555),
further ones of a lost path counted in HOST_CQLOST. -/
def State.post (s : State) (b : Fin 2) (c : CplEntry) : State :=
  let r := s.ring b
  let lost := b == 0 && s.host.lost
  if lost || s.cqFull b || !r.held.isEmpty then
    if r.held.length < 64 then s.setRing b { r with held := r.held ++ [c] }
    else if lost then s.bump F.HOST_CQLOST 1 else s
  else s.cqWrite b c

/-- Completes a command of a ring that was accepted: its entry leaves the commands in flight and its completion is posted. -/
def State.complete (s : State) (b : Fin 2) (tag opc result : Nat) (vals : List Byte) : State :=
  let r := s.ring b
  let is (e : InFlight) : Bool := e.begun && e.tag == tag && e.opc == opc
  let irq := (r.inflight.find? is).elim false (fun e => e.irq)
  let s := s.setRing b { r with inflight := r.inflight.eraseP is }
  s.post b { tag := tag, opc := opc, result := result, replayed := false, irq := irq, vals := vals }

/-- Completes every STOP of a job that has been accepted (R544). -/
def State.stopReply (s : State) (id : Nat) (vals : List Byte) : State :=
  let go (b : Fin 2) (s : State) : State :=
    ((s.ring b).inflight.filter (fun e => e.begun && e.opc == 0x06 && leNat (e.pars.take 2) == id)).foldl
      (fun s e => s.complete b e.tag 0x06 0 vals) s
  go 1 (go 0 s)

/-- The JOBEND completion of a job that ends by halting or by death (R545), posted to the ring that sent its START. -/
def State.jobEnd (s : State) (j : Job) (final : Nat) : State :=
  match j.startTag with
  | none => s
  | some (b, tag) =>
    s.post (bankOf b) { tag := tag, opc := 0x80, result := 0, replayed := false, irq := true,
                        vals := leBytes 1 final ++ leBytes 1 j.killCls ++ leBytes 2 j.id }

/-- A STOP of a job has been accepted and waits for its end (R544). -/
def State.stopAsked (s : State) (id : Nat) : Bool :=
  ([0, 1] : List (Fin 2)).any (fun b => (s.ring b).inflight.any (fun e => e.begun && e.opc == 0x06 && leNat (e.pars.take 2) == id))

/-- The end of a job is reported: by the STOP that asked for it, or else with a JOBEND (R545). -/
def State.endReply (s : State) (j : Job) (final : Nat) : State :=
  if s.stopAsked j.id then s.stopReply j.id ([BitVec.ofNat 8 final] ++ (if final = 3 then leBytes 1 j.killCls else []))
  else s.jobEnd j final

/-! ### Delta mode counts (R345) -/

/-- A mode of Table DX-1 counts in its counter (Table DX-4). -/
def Job.countIn (j : Job) (m : Nat) : Job :=
  match m with
  | 0 => { j with dxDelta := satAdd 32 j.dxDelta 1 }
  | 1 => { j with dxRefresh := satAdd 32 j.dxRefresh 1 }
  | 2 => { j with dxStaleN := satAdd 32 j.dxStaleN 1 }
  | _ => { j with dxOff := satAdd 32 j.dxOff 1 }

/-- The mode of highest precedence among those that a stripe's cores were given. -/
def StripeRec.topMode (r : StripeRec) : Nat := (r.started.map (·.2)).foldl max 0

/-- The stripes that some core has started and that have not been counted, when their job ends. -/
def Job.countStarted (j : Job) : Job :=
  (j.frames.flatMap (·.bands)).foldl (fun j r => if r.counted || r.started.isEmpty then j else j.countIn r.topMode) j

/-! ### Contexts of a job -/

/-- Which context of a core issues, and RUN or IDLE (R138, R559): a context with a stripe in progress that is not halted
issues; context 1 keeps the core until it yields, which it does while it waits at a barrier, or is held at one (R199), with no
token BUSY; a core with no stripe in progress is IDLE. -/
def State.settle (s : State) (k : Fin 8) : State :=
  let on (x : Fin 3) : Bool := (s.ctx k x).running && !(s.ctx k x).halted
  let act := s.getF (F.CORE_STATUS_ACTIVE k)
  let c1 := s.ctx k 1
  let yields := (c1.atBar || c1.held) && (upFrom 0 16).all (fun t => (vget c1.tok (tok16 t)).st != .busy)
  let a := if on 0 && (!on 1 || act == 0 || yields) then 0 else if on 1 then 1 else act
  let busy := (s.ctx k 0).running || (s.ctx k 1).running || (s.ctx k 2).running
  let s := s.setF (F.CORE_STATUS_ACTIVE k) a
  -- R485: a core at step 4 is in quarantine once its stripe has ended
  let s := if (s.core k).quarPending && !busy then
      (s.setCore k { s.core k with quarPending := false }).setF (F.CORE_STATUS_QUAR k) 1 else s
  if s.pstate k = 0 ∧ !busy then
    (s.setF (F.CORE_STATUS_PSTATE k) 1).setCore k { s.core k with idleSince := s.time.now }
  else if s.pstate k = 1 ∧ busy then s.setF (F.CORE_STATUS_PSTATE k) 0 else s

/-- RUN while a job runs, READY while none does (Table PW-3). -/
def State.settleDev (s : State) : State :=
  let run := s.jobs.any (fun j => j.state == .running)
  if s.dev = devReady ∧ run then s.setF F.PWR_DEV_STATE devRun
  else if s.dev = devRun ∧ !run then s.setF F.PWR_DEV_STATE devReady else s

/-- CORE_STATUS shows which contexts are halted. -/
def State.setHalted (s : State) (k : Fin 8) (x : Fin 3) (v : Nat) : State :=
  if x = 0 then s.setF (F.CORE_STATUS_HALTED0 k) v
  else if x = 1 then s.setF (F.CORE_STATUS_HALTED1 k) v else s

/-- Halts the contexts of a job on every core at the next instruction boundary and discards its queued transfers and
held outbound rows (R471). Instructions already started finish. -/
def State.haltJob (s : State) (id : Nat) : State :=
  s.forCores (fun k s =>
    let c := s.core k
    let stop (x : Ctx) : Ctx :=
      if x.job = some id then
        { x with halted := true, running := false, atBar := false, held := false, stalled := none, stallG := none, greqs := [],
                 queues := x.queues.map (fun q => q.filter (fun u => u.started)) }
      else x
    let shown := ([0, 1] : List (Fin 3)).filter (fun x => (vget c.ctx x).job == some id)
    let s := s.setCore k { c with ctx := c.ctx.map stop, pairHeld := c.pairHeld.filter (fun h => h.job != id),
                                  ring := c.ring.filter (fun g => g.job != id) }
    (shown.foldl (fun s x => s.setHalted k x 1) s).settle k)

/-- Records that a gate knows of the kill of a job: its poison point there (R470). -/
def Job.learn (j : Job) (gate t : Nat) : Job :=
  if j.points.any (fun p => p.1 == gate) then j else { j with points := j.points ++ [(gate, t)] }

/-- Gates (R466): 0 Aft fabric, 1 Edge engine, 2 Outfeed, 3 DDR controller, 4 Coffer slot port, 5 host port. -/
def gates : List Nat := [0, 1, 2, 3, 4, 5]

/-- Kills a job (R471): its contexts halt, its queued transfers are discarded, every gate drops its commits, it is DEAD,
and the completions that wait for it are posted (R474, R545): a JOBEND also for one whose START has not yet taken effect. A job
already DEAD, or not loaded, is unchanged. -/
def State.killJob (s : State) (id cls : Nat) : State :=
  match s.job id with
  | none => s
  | some j =>
    if j.state = .dead then s
    else
      let s := s.haltJob id
      let was := j.state
      let start := if was = .running then j.startTag else j.startPend
      let j := j.countStarted
      let j' := { j with state := .dead, killCls := cls, startPend := none, startTag := start, stopping := false, frames := [],
                         points := (gates.foldl (fun j g => j.learn g s.time.now) j).points }
      let s := s.setJob j'
      let s := if j.session then (s.setF F.AD_STATUS_RUNNING 0).setF F.AD_STATUS_KILLED 1 else s
      s.settleDev.endReply j' 3

/-- A gate drops the commits of a job from its poison point on (R470). -/
def State.gateDrops (s : State) (id gate : Nat) : Bool :=
  match s.job id with
  | none => false
  | some j => j.state == .dead || j.points.any (fun p => p.1 == gate)

/-- A POISON_COMMIT record was found in this very cycle. -/
def State.foundNow (s : State) (r : FRec) : Bool :=
  r.cls == 0x50 && r.dtime == (if r.unit = 0x10 then s.time.aft else s.time.now)

/-- A POISON_COMMIT record goes to the fault manager; of two gates that find poison of a job in one cycle, the one with the
lower unit ID is named (R473). -/
def State.tellPoison (s : State) (r : FRec) : State :=
  let put (s : State) : State := if r.unit = 0x10 then s.reportAft { r with dtime := s.time.aft } else s.report r
  let same (q : FRec) : Bool := q.job == r.job && s.foundNow q
  match (s.flt.fore ++ s.flt.aft).find? same with
  | none => put s
  | some q =>
    if q.unit ≤ r.unit then s
    else
      put { s with flt := { s.flt with fore := s.flt.fore.filter (fun x => !same x), aft := s.flt.aft.filter (fun x => !same x) } }

/-- A commit gate finds poison in a commit of a job (R469): the POISON_COMMIT record with KILL, the gate's own poison
point at once, and kill notices to the other gates. -/
def State.poisonCommit (s : State) (id gate unit addr akind : Nat) : State :=
  let r := { mkRec s.time.now unit 0x50 with job := id, poison := true, kill := true, addr := addr, akind := akind }
  let s := (s.tellPoison r).modJob id (fun j => j.learn gate s.time.now)
  { s with flt := { s.flt with notices := s.flt.notices ++ ((gates.filter (· != gate)).map (fun g => (id, g))) } }

/-! ### Unit parity (R438) -/

/-- A number that orders the stripes of a job: its frame and its stripe in that frame. -/
def UInst.ord (i : UInst) : Nat := i.frame * 65536 + i.stripe

/-- Notes a check record of a core in a stripe (`UInst.ord`), for the assignment of a pair event (R464). -/
def State.suspect (s : State) (k : Fin 8) (job stripe : Nat) : State :=
  { s with dig := { s.dig with suspects := (k.val, job, stripe) :: s.dig.suspects.take 63 } }

/-- A parity error on a bus or queue entry of a unit (R438). -/
def State.pathParity (s : State) (k : Fin 8) (uid : Nat) (i : UInst) : State :=
  let r := { mkRec s.time.aft uid 0x14 with job := i.job, poison := true, opc := i.pc, core := some k.val }
  ((s.bump (F.CK_PARITY k) 1).reportAft r).suspect k i.job i.ord

/-- Field test slot running on a core. -/
def State.slotOn (s : State) (k : Fin 8) : Option TestSlot := s.flt.slots.find? (fun t => t.core == k.val)

/-! ### Taking an exception in a context (R229) -/

/-- Exception causes (Table CO-8). -/
def excIllegal : Nat := 0x01
def excFetchRange : Nat := 0x02
def excMisalign : Nat := 0x03
def excSmemRange : Nat := 0x04
def excImemEcc : Nat := 0x05
def excSmemEcc : Nat := 0x06
def excTokenReuse : Nat := 0x07
def excWinograd : Nat := 0x08
def excUnitPoison : Nat := 0x09
def excAddrUnmapped : Nat := 0x0A
def excRowAlign : Nat := 0x0B
def excWindowClosed : Nat := 0x0C
def excTrap : Nat := 0x0D

/-- ECAUSE (Table IS-9, selector 0x0D): cause, token if any, trap code. -/
def ecauseWord (cause : Nat) (tok : Option Nat) (trap : Nat) : Word :=
  BitVec.ofNat 32 (cause + (match tok with | some t => t * 256 + 4096 | none => 0) + trap * 65536)

/-- CORE_STATUS shows the last exception of contexts 0 and 1. -/
def State.setCause (s : State) (k : Fin 8) (x : Fin 3) (cause : Nat) : State :=
  if x = 0 then s.setF (F.CORE_STATUS_CAUSE0 k) cause
  else if x = 1 then s.setF (F.CORE_STATUS_CAUSE1 k) cause else s

/-- HANDLER of the manifest of the job in a context, if any. -/
def State.handlerOf (s : State) (c : Ctx) : Option Nat :=
  match c.job with
  | none => none
  | some id =>
    match s.job id with
    | none => none
    | some j => if j.handler = 0xFFFF then none else some j.handler

/-- Raises an exception at instruction index `pc` (R229): EPC and ECAUSE are written and the context enters its handler,
goes on after a UNIT_POISON, or halts with a PROGRAM_EXCEPTION record that kills the job. -/
def State.raise (s : State) (k : Fin 8) (x : Fin 3) (pc cause : Nat) (tok : Option Nat) (trap : Nat) : State :=
  let c := { s.ctx k x with epc := pc, ecause := ecauseWord cause tok trap }
  let s := s.setCause k x cause
  let s := s.log k x.val 0 0x20 (cause + pc * 256 + (tok.getD 0) * 2 ^ 23)
  let die (s : State) : State :=
    let s := (s.setCtx k x { c with pc := pc, halted := true, running := false }).setHalted k x 1
    s.reportAft { mkRec s.time.aft (coreUnit k 0) 0x31 with
      job := c.job.getD 0, kill := true, opc := if cause = excTrap then trap else pc,
      core := if cause = excTrap ∧ 0xE000 ≤ trap ∧ trap ≤ 0xEFFF then some k.val else none }
  if c.handler then die s
  else
    match s.handlerOf c with
    | some h => s.setCtx k x { c with handler := true, pc := h }
    | none =>
      if cause = excUnitPoison then s.setCtx k x { c with pc := (pc + 1) % 32768 } else die s

end Sys2Proof.Machine
end

