-- ==== Sys2Proof/Machine/Registers.lean ====
section
/-! DEFINITION. Access to control registers by the four masters: widths (R14–R16), access codes (Table SC-2), reserved
encodings (R19), locks (R20), reachability (R33, R169), ownership (R548–R550), and the values that are computed when
read. What a write triggers is in RegActions. -/

namespace Sys2Proof.Machine

/-- Block number of an offset, in the order of GLB_OWN0, GLB_OWN1 and GLB_OWN2 (Table HO-10): CORE k is 16 + k. -/
def blockOf (off : Nat) : Nat := off / 65536

/-- Owner of a block: 0 SHARED, 1 LCP, 2 HOST, 3 HSP, 4 LINK (R548). -/
def State.owner (s : State) (b : Nat) : Nat :=
  if b < 8 then bitsOf (s.getReg F.GLB_OWN0_OWN.off).toNat (3 * b) 3
  else if b < 16 then bitsOf (s.getReg F.GLB_OWN1_OWN.off).toNat (3 * (b - 8)) 3
  else if b < 24 then bitsOf (s.getReg F.GLB_OWN2_OWN.off).toNat (3 * (b - 16)) 3
  else 0

/-- Sets the owner of a block. -/
def State.setOwner (s : State) (b v : Nat) : State :=
  if b < 8 then s.setF ⟨F.GLB_OWN0_OWN.off, 3 * b, 3⟩ v
  else if b < 16 then s.setF ⟨F.GLB_OWN1_OWN.off, 3 * (b - 8), 3⟩ v
  else s.setF ⟨F.GLB_OWN2_OWN.off, 3 * (b - 16), 3⟩ v

/-- Owner code of a master. -/
def masterCode : Master → Nat
  | .lcp => 1
  | .host => 2
  | .hsp => 3
  | .link => 4

/-- Number of a master in the order of R553, as `Wire.answer` records it. -/
def masterRank : Master → Nat
  | .lcp => 0
  | .host => 1
  | .hsp => 2
  | .link => 3

/-- A master may write the register at an offset (R548, R550). SEC_RESET may be written by every master after a failed
boot, and the SEC exceptions of R591, R595 and R611 are the paths that `pathOpen` leaves open. -/
def State.mayWrite (s : State) (m : Master) (off : Nat) : Bool :=
  if 0x030000 ≤ off ∧ off < 0x030100 then m == .host
  else if 0x030100 ≤ off ∧ off < 0x030200 then m == .hsp
  else
    let o := s.owner (blockOf off)
    o == 0 || o == masterCode m

/-- The block lies in an Aft domain (R33). Every BRG register is on the Fore side (log entry 12). -/
def aftBlock (off : Nat) : Bool := blockOf off == 11 || decide (16 ≤ blockOf off)

/-- The core of an offset in a core block. -/
def coreOfOff (off : Nat) : Fin 8 := coreOf (blockOf off - 16)

/-- The core block of the offset belongs to a core in NAP or DARK (R169). -/
def State.asleep (s : State) (off : Nat) : Bool :=
  decide (16 ≤ blockOf off) && decide (2 ≤ s.pstate (coreOfOff off))

/-- The register family at an offset. -/
def regAt (off : Nat) : Option RegDesc := (regsOfBlock (blockOf off)).find? (fun r => r.covers off)

/-- A value is reserved in a field (R19). -/
def FieldDesc.reserved (f : FieldDesc) (v : Nat) : Bool := f.bad.any (fun b => decide (b.1 ≤ v) && decide (v ≤ b.2))

/-- The lock of a block's RWL fields is set (Table SC-2): SEC_TAMPER_CFG.LOCK, STO_CFG.LOCK, GLB_PIN_LOCK.LOCK, and the
locks that the firmware sets at boot for COF_KBASE and FLT_SAVE. -/
def State.lockSet (s : State) (off : Nat) : Bool :=
  match blockOf off with
  | 0 => s.flag F.GLB_PIN_LOCK_LOCK
  | 7 => s.fwLocks.contains 7
  | 8 => s.fwLocks.contains 8
  | 9 => s.flag F.SEC_TAMPER_CFG_LOCK
  | 13 => s.flag F.STO_CFG_LOCK
  | _ => false

/-- One field of a register after a write, and whether BAD_ENCODING or LOCKED_WRITE is met. -/
def FieldDesc.write (f : FieldDesc) (locked : Bool) (old new : Nat) : Nat × Bool × Bool :=
  match f.acc with
  | .ro => (old, false, false)
  | .rw => if f.reserved new then (old, true, false) else (new, false, false)
  | .w1c => (old - (old &&& new), false, false)
  | .w1s => (old ||| new, false, false)
  | .wo => (0, f.reserved new, false)
  | .rwl => if locked then (old, false, true) else if f.reserved new then (old, true, false) else (new, false, false)

/-- All fields of a register after a write of `v`. -/
def writeFields (locked : Bool) (v : Nat) : List FieldDesc → Nat × Bool × Bool → Nat × Bool × Bool
  | [], a => a
  | f :: fs, (x, e, l) =>
    let old := bitsOf x f.lo f.w
    let (n, e', l') := f.write locked old (bitsOf v f.lo f.w)
    writeFields locked v fs (x - old * 2 ^ f.lo + n % 2 ^ f.w * 2 ^ f.lo, e || e', l || l')

/-- Bits of `v` kept where `mask` has a 1, and of `old` elsewhere. -/
def mergeBits (mask v old : Nat) : Nat := (v &&& mask) + (old - (old &&& mask))

/-- A width or height that a context may not have (R98). -/
def badSize (v : Nat) : Bool := v % 2 == 1 || v == 0 || decide (8192 < v)

/-- What the owning chapter says of a written value before it is stored: fields that are dropped or clipped, with the
status bits that say so. Bits that are dropped are given their old value. -/
def State.adjust (s : State) (off old v : Nat) : Nat × State :=
  if off = F.TIME_SLEW_PPB.off then
    -- R88: TIME_SLEW is clipped to ±200,000 ppb
    let x := signed 24 v
    if x < -200000 then (unsigned 24 (-200000), s.setF F.TIME_STATUS_SLEW_CLIP 1)
    else if 200000 < x then (200000, s.setF F.TIME_STATUS_SLEW_CLIP 1) else (v, s)
  else if off = 0x040000 ∨ off = 0x040040 then
    -- Table IN-4: LANES is written only while ENABLE = 0
    let p := if off = 0x040000 then 0 else 1
    if old % 2 = 1 ∧ bitsOf v 1 2 ≠ bitsOf old 1 2 then
      (mergeBits (0xFFFFFFFF - 6) v old, s.setF (F.IN_PORT_STAT_CFG_BUSY p) 1)
    else (v, s)
  else if 0x040100 ≤ off ∧ off < 0x040300 ∧ off % 64 = 0 then
    -- R98: a context with an illegal size is refused when it is enabled, and stays disabled
    let n := (off - 0x040100) / 64
    if old % 2 = 0 ∧ v % 2 = 1 ∧ (badSize (s.getF (F.IN_CTX_SIZE_WIDTH n)) ∨ badSize (s.getF (F.IN_CTX_SIZE_HEIGHT n))) then
      (v - 1, s.glbError F.GLB_STATUS_BAD_ENCODING)
    else (v, s)
  else if off = F.OF_TX_CFG_ENABLE.off then
    -- Table OF-6: all but ENABLE are dropped while ENABLE = 1
    if old % 2 = 1 ∧ v / 2 ≠ old / 2 then (mergeBits 1 v old, s.setF F.OF_TX_STAT_CFG_BUSY 1) else (v, s)
  else if off = F.LNK_CFG_CHIP.off then
    -- R506: CHIP and TOPO are written only while both ports are down
    if (s.flag (F.LNK_STAT_UP 0) || s.flag (F.LNK_STAT_UP 1)) && bitsOf v 0 5 != bitsOf old 0 5 then
      (mergeBits (0xFFFFFFFF - 31) v old &&& 0xFFFFFF7F, s.setF F.LNK_CFG_CFG_BUSY 1)
    else (v, s)
  else if off = F.LNK_ROUTE_ROUTE.off then
    -- Table SL-9: the entry 11b is reserved. DESIGN CHOICE: one such entry leaves all eight as they were (log entry 96)
    if (upFrom 0 8).any (fun c => bitsOf v (2 * c) 2 == 3) then (old, s.glbError F.GLB_STATUS_BAD_ENCODING) else (v, s)
  else if off = F.GLB_GPIO_OUT_OUT.off then
    -- Table BD-10: written bits of balls not in GPIO use are ignored
    let use := (s.getReg F.GLB_PIN_USE_USE.off).toNat
    let mask := (upFrom 0 16).foldl (fun a n => if bitsOf use (2 * n) 2 = 1 then a + 2 ^ n else a) 0
    (mergeBits mask v old, s)
  else if off = F.PWR_LOOP_MARGIN_MIN.off then
    -- Table PW-9: a MARGIN_MAX not above MARGIN_MIN is reserved
    if bitsOf v 8 8 ≤ bitsOf v 0 8 then
      (mergeBits (0xFFFFFFFF - 0xFF00) v old, s.glbError F.GLB_STATUS_BAD_ENCODING)
    else (v, s)
  else if off = F.SEC_TAMPER_CFG_EN.off then
    -- Table BS-14: bits 2, 3 and 6 of EN read 1
    (v ||| 0x4C, s)
  else if 0x010200 ≤ off ∧ off < 0x010320 ∧ (off % 16 = 4 ∨ off % 16 = 8) then
    -- Table PW-9: channels 9–17 ignore writes
    if 9 ≤ (off - 0x010200) / 16 then (old, s) else (v, s)
  else (v, s)

/-- The function is in D3hot (R528): PCI Express has it refuse memory requests. -/
def State.inD3 (s : State) : Bool := s.host.cfg.pmcsr % 4 == 3

/-- Which offsets the host paths reach in the present device state (R591, R595, R611, R528); LCP and LINK are not paths. -/
def State.pathOpen (s : State) (m : Master) (off : Nat) (write : Bool) : Bool :=
  let b := blockOf off
  match m with
  | .lcp => true
  | .link => true
  | _ =>
    if s.off || s.dev == devStandby || s.dev == devSleep || (m == .host && s.inD3) then false
    else if s.dev == devTamper then
      s.flag F.SEC_STATUS_UNLOCK_MODE && m == .hsp &&
        (if write then decide (0x090100 ≤ off ∧ off < 0x090300) || off == F.SEC_TOKEN_CTRL_GO.off
         else b == 9 || off == 0 || off == 4)
    else if s.dev == devBoot && s.getF F.SEC_BOOT_CODE != 0 && !s.sec.romMode then
      if write then off == F.SEC_RESET_WARM.off else b == 0 || b == 1 || b == 9
    else if s.sec.romMode then
      b == 0 || b == 9
    else true

/-- The write is refused before it reaches the register: path closed, Aft half unreachable (R33), block of another
owner (R548), core asleep (R169). Answers the state with the status set, or none when the write goes on. -/
def State.refuseWrite (s : State) (fw : Bool) (m : Master) (off : Nat) : Option State :=
  if !s.pathOpen m off true then some s
  else if aftBlock off && !s.brgUp then some (s.glbError F.GLB_STATUS_AFT_UNREACHABLE)
  else
    let writable := match regAt off with
      | none => false
      | some r => r.fields.any (fun f => f.acc != .ro)
    if writable && !fw && !s.mayWrite m off then
      some ((s.glbError F.GLB_STATUS_NOT_OWNER).bump F.GLB_DENYCNT 1)
    else if s.asleep off && off % 65536 != 4 then
      some (s.setF (F.CORE_STATUS_CORE_ASLEEP (coreOfOff off)) 1)
    else none

/-- Stores a 32-bit write that was not refused, by the access codes of its fields. Each status bit met is set. -/
def State.storeFields (s : State) (off : Nat) (v : Nat) : State :=
  match regAt off with
  | none => s
  | some r =>
    let (v, s) := s.adjust off (s.getReg off).toNat v
    let old := (s.getReg off).toNat
    let (x, e, l) := writeFields (s.lockSet off) v r.fields (old, false, false)
    let s := s.setReg off (BitVec.ofNat 32 x)
    let s := if e then s.glbError F.GLB_STATUS_BAD_ENCODING else s
    if l then s.glbError F.GLB_STATUS_LOCKED_WRITE else s

/-- One whole 32-bit register write: refused, or stored and then followed by its action. `fw` marks the firmware's own
writes, which do not pass through ownership (R549). -/
def State.regWrite (s : State) (fw : Bool) (m : Master) (off v : Nat) (act : State → State) : State :=
  match s.refuseWrite fw m off with
  | some s' => s'
  | none => act (s.storeFields off v)

/-- A write of a register that only the firmware writes, by another master (Table SE-5). -/
def State.notMine (s : State) (m : Master) (off : Nat) : State :=
  match s.refuseWrite false m off with
  | some s' => s'
  | none => (s.glbError F.GLB_STATUS_NOT_OWNER).bump F.GLB_DENYCNT 1

/-- An entry of a core's row range table (Table SP-5). -/
structure RangeEnt where
  first : Nat
  last : Nat
  cls : Nat
  job : Nat
  shared : Bool
deriving DecidableEq, Repr

/-- Adds a range of a job: a WEIGHT range that is already there becomes SHARED. -/
def addRange (job : Nat) : List RangeEnt → RowRange → List RangeEnt
  | [], g => [⟨g.first, g.last, g.cls, job, false⟩]
  | e :: es, g =>
    if e.first = g.first ∧ e.last = g.last ∧ e.cls = 0 ∧ g.cls = 0 then { e with shared := true } :: es
    else e :: addRange job es g

/-- The row range table of a core: the ranges of its loaded jobs in load order. -/
def State.ranges (s : State) (k : Nat) : List RangeEnt :=
  s.jobs.foldl (fun l j => (j.on k).rows.foldl (addRange j.id) l) []

/-- SP_RANGEe_A or SP_RANGEe_B of a core. -/
def State.rangeReg (s : State) (k : Fin 8) (e : Nat) (b : Bool) : Word :=
  match (s.ranges k.val)[e]? with
  | none => 0#32
  | some r =>
    if b then BitVec.ofNat 32 (r.last + r.cls * 2 ^ 17 + r.job * 2 ^ 19 + (if r.shared then 2 ^ 31 else 0))
    else BitVec.ofNat 32 (r.first + 2 ^ 31)

/-- A word of a fuse field. -/
def State.fuse (s : State) (f w : Nat) : Nat := (mget (dflt 0) s.sec.fuses (f * 256 + w)).toNat

/-- Use of ball MPn: 0 none, 1 GPIO, 2 sync, 3 tamper, in the order tamper, sync, GPIO (R606, R633, Table BD-6). -/
def State.pinUse (s : State) (n : Nat) : Nat :=
  let job (u : Nat) : Bool := s.jobs.any (fun j => j.pins.contains (n, u))
  let board := (s.inForce F.GLB_PIN_BOARD_SYNC.off).toNat
  if (n = 14 ∧ bitsOf (s.fuse 6 0) 0 1 = 1) ∨ (n = 15 ∧ bitsOf (s.fuse 6 0) 1 1 = 1) then 3
  else if bitsOf board n 1 == 1 || job 1 then 2
  else if bitsOf board (16 + n) 1 == 1 || job 2 then 1 else 0

/-- The part drives no ball: unpowered, in STANDBY or in TAMPER_HOLD (R609, R641). -/
def State.ballsOff (s : State) : Bool := s.off || s.dev == devStandby || s.dev == devTamper

/-- The level that the part drives at ball MPn, or none at high impedance (Table BD-6, R634): the pulse of its generator under POL, the
trigger while it is enabled, or GLB_GPIO_OUT. -/
def State.ball (s : State) (n : Nat) : Option Bool :=
  let t : Fin 2 := ⟨n % 2, Nat.mod_lt _ (by decide)⟩
  if s.ballsOff then none else
  match s.pinUse n with
  | 2 =>
    let g : Fin 4 := ⟨n % 4, Nat.mod_lt _ (by decide)⟩
    some ((vget s.fsg g).level != (s.forceF (F.FSG_CTRL_POL g) == 1))
  | 1 =>
    if (n = 12 ∨ n = 13) ∧ s.forceF (F.IN_TRIG_ENABLE t) = 1 then some (vget s.intake.trig t).level
    else if bitsOf (s.getF F.GLB_GPIO_OE_OE) n 1 = 1 then some (bitsOf (s.getF F.GLB_GPIO_OUT_OUT) n 1 == 1) else none
  | _ => none

/-- GLB_GPIO_IN: the level at each ball. That of a ball which the part does not drive is the world's: a free value (log entry 108). -/
def State.ballsIn (s : State) : Nat :=
  (upFrom 0 16).foldl (fun a n =>
    a + (match s.ball n with
      | some b => if b then 1 else 0
      | none => Config.openOp 67 [n, s.time.now] % 2) * 2 ^ n) 0

/-- Registers whose value is computed when read. -/
def State.liveReg (s : State) (off : Nat) : Option Word :=
  let jobVal (f : Job → Nat) : Option Word :=
    some (match s.job (s.getF F.ST_SEL_JOB) with
      | some j => BitVec.ofNat 32 (f j)
      | none => 0#32)
  let sat (i : Int) : Nat := unsigned 32 (max (-2147483648) (min 2147483647 i))
  if off = F.ST_SLACK_LAST.off then jobVal (fun j => sat j.slackLast)
  else if off = F.ST_SLACK_MIN.off then jobVal (fun j => sat j.slackMin)
  else if off = F.ST_MISS.off then jobVal (fun j => j.miss)
  else if off = F.ST_ABORT.off then jobVal (fun j => j.abort)
  else if off = F.DX_CTRL_ENABLE.off then jobVal (fun j => j.dxCtrl)
  else if off = F.DX_DELTA.off then jobVal (fun j => j.dxDelta)
  else if off = F.DX_REFRESH.off then jobVal (fun j => j.dxRefresh)
  else if off = F.DX_STALE.off then jobVal (fun j => j.dxStaleN)
  else if off = F.DX_OFF.off then jobVal (fun j => j.dxOff)
  else if off = F.DX_SCENE.off then jobVal (fun j => j.dxScene)
  else if off = F.DX_CHANGED.off then jobVal (fun j => j.dxChanged)
  else if off = F.DX_POS.off then jobVal (fun j => j.dxPos)
  else if off = F.BRG_LMAP_SEL.off then
    let sel := s.getF F.BRG_LMAP_SEL
    let d := if s.getF F.BRG_LMAP_DIR = 0 then s.brg.f2a else s.brg.a2f
    some (putBits (s.getReg off) 8 6 (nth 0 d.lmap sel))
  else if off = F.GLB_GPIO_IN_IN.off then some (BitVec.ofNat 32 s.ballsIn)
  else if off = F.OF_TX_STAT_ULPS.off then
    -- Table OF-2: ULPS while the port is enabled and no stream is enabled
    let idle := (upFrom 0 6).all (fun n => s.forceF (F.OF_CFG_ENABLE n) == 0)
    some (putBits (s.getReg off) 2 1 (if s.flag F.OF_TX_CFG_ENABLE && idle then 1 else 0))
  else if off = (F.MSIX_PBA 0).off then
    some (s.getReg F.HOST_ICAUSE.off &&& s.getReg F.HOST_IMASK.off)
  else if 0x080020 ≤ off ∧ off < 0x080040 then
    -- EVENTS: those charged within the last WINDOW ms (Table PC-7)
    let k := (off - 0x080020) / 4
    let n := (s.flt.events.filter (fun e => e.1 == k && decide (s.time.now < e.2 + s.getF F.FLT_MCFG_WINDOW * 1000000))).length
    some (putBits (s.getReg off) 3 4 (min n 15))
  else if off = F.FLT_TRES_PASS.off then
    let p := s.getF F.FLT_TRES_SEL_PACK
    let q := s.getF F.FLT_TRES_SEL_PAT
    some (match s.flt.results.find? (fun r => r.1 == p && r.2.1 == q) with
      | some r => BitVec.ofNat 32 (r.2.2.1 % 256 + r.2.2.2 % 256 * 256)
      | none => 0#32)
  else if 0x0B0400 ≤ off ∧ off < 0x0B0600 then
    let w : InWin := vget s.lnk.iw ⟨(off - 0x0B0400) / 16 % 32, Nat.mod_lt _ (by decide)⟩
    let st := match w.st with
      | .closed => 0
      | .open_ => 1
      | .closing => 2
    some (match (off - 0x0B0400) % 16 / 4 with
      | 0 => BitVec.ofNat 32 ((off - 0x0B0400) / 16 % 32 + w.core * 256 + w.perm * 65536 + st * 2 ^ 30)
      | 1 => BitVec.ofNat 32 w.first
      | 2 => BitVec.ofNat 32 w.count
      | _ => w.arrivals)
  else if 0x0B0600 ≤ off ∧ off < 0x0B0700 then
    let b : OutBind := vget s.lnk.ob ⟨(off - 0x0B0600) / 8 % 32, Nat.mod_lt _ (by decide)⟩
    some (if (off - 0x0B0600) % 8 = 0 then
        BitVec.ofNat 32 (b.chip + b.win * 8 + (if b.open_ then 256 else 0) + b.key * 65536)
      else BitVec.ofNat 32 b.job)
  else if 0x100000 ≤ off ∧ off < 0x180000 then
    let k := coreOfOff off
    let o := off % 65536
    let toks (x : Fin 3) : Word :=
      BitVec.ofNat 32 ((upFrom 0 16).foldl (fun a t =>
        a + (match (vget (s.ctx k x).tok (tok16 t)).st with
          | .free => 0
          | .busy => 1
          | .done => 2
          | .fault => 3) * 4 ^ t) 0)
    let x : Fin 3 := if s.flag (F.CORE_STATUS_ACTIVE k) then 1 else 0
    if o = 8 then some (BitVec.ofNat 32 (s.ctx k 0).pc)
    else if o = 12 then some (BitVec.ofNat 32 (s.ctx k 1).pc)
    else if o = 16 then some (toks 0)
    else if o = 20 then some (toks 1)
    else if o = 24 then
      let n (i : Nat) : Nat := (vget (s.ctx k x).queues (unit5 i)).length
      some (BitVec.ofNat 32 (n 0 + n 1 * 16 + n 2 * 256 + n 3 * 4096 + n 4 * 1048576))
    else if 0x180 ≤ o ∧ o < 0x200 then some (s.rangeReg k ((o - 0x180) / 8) (o % 8 = 4))
    else none
  else none

/-- The value of a register as a read shows it. -/
def State.seeReg (s : State) (off : Nat) : Word := (s.liveReg off).getD (s.getReg off)

/-- A 32-bit read at a 4-byte-aligned offset (R33, R591). -/
def State.regRead (s : State) (m : Master) (off : Nat) : Word × State :=
  if !s.pathOpen m off false then (0xFFFFFFFF, s)
  else if aftBlock off && !s.brgUp then (0xFFFFFFFF, s.glbError F.GLB_STATUS_AFT_UNREACHABLE)
  else (s.seeReg off, s)

end Sys2Proof.Machine
end

