-- ==== Sys2Proof/Machine/JobOps.lean ====
section
/-! DEFINITION. Shared operations over tokens, stale bits, tile maps, windows and weight digests. -/

namespace Sys2Proof.Machine

/-! ### Tokens (R142–R145) -/

/-- A token of a context. -/
def Ctx.token (c : Ctx) (t : Nat) : Tok := vget c.tok (tok16 t)

/-- A context with a token set. -/
def Ctx.setToken (c : Ctx) (t : Nat) (v : Tok) : Ctx := { c with tok := vset c.tok (tok16 t) v }

/-- A unit finishes the instruction of a token: DONE, or FAULT with its exception. Only the first exception found for a
token is kept (R145). -/
def Ctx.finishToken (c : Ctx) (t cause : Nat) : Ctx :=
  let v := c.token t
  if v.st = .fault then c
  else if cause = 0 then c.setToken t ⟨.done, 0⟩ else c.setToken t ⟨.fault, cause⟩

/-- Finishes a token of a context. -/
def State.finishTok (s : State) (k : Fin 8) (x : Fin 3) (t cause : Nat) : State :=
  s.setCtx k x ((s.ctx k x).finishToken t cause)

/-- No token of the context is BUSY. -/
def Ctx.quiet (c : Ctx) : Bool := (upFrom 0 16).all (fun t => (c.token t).st != .busy)

/-- The lowest-numbered token of a mask that is FAULT. -/
def Ctx.lowFault (c : Ctx) (mask : Nat) : Option Nat :=
  (upFrom 0 16).find? (fun t => bitsOf mask t 1 == 1 && (c.token t).st == .fault)

/-- Every DONE token of a mask becomes FREE. -/
def Ctx.freeDone (c : Ctx) (mask : Nat) : Ctx :=
  (upFrom 0 16).foldl
    (fun c t => if bitsOf mask t 1 = 1 ∧ (c.token t).st = .done then c.setToken t ⟨.free, 0⟩ else c) c

/-! ### Unit queues (Table CO-2) -/

/-- Sets one unit queue of a context. -/
def Ctx.setQueue (c : Ctx) (u : Nat) (q : List UInst) : Ctx := { c with queues := vset c.queues (unit5 u) q }

/-- A unit queue of a context. -/
def Ctx.queue (c : Ctx) (u : Nat) : List UInst := vget c.queues (unit5 u)

/-- The first exception found for the transfer in progress of a context is kept (R145). -/
def State.transCause (s : State) (k : Fin 8) (x : Fin 3) (cause : Nat) : State :=
  let c := s.ctx k x
  match c.queue 3 with
  | i :: l => if cause ≠ 0 ∧ i.started ∧ i.cause = 0 then s.setCtx k x (c.setQueue 3 ({ i with cause := cause } :: l)) else s
  | [] => s

/-- A context's halt takes effect at an instruction boundary: not while an instruction is stalled or waits for an answer
(R146). -/
def State.takeHalt (s : State) (k : Fin 8) (x : Fin 3) : State :=
  let c := s.ctx k x
  if c.haltReq && c.stalled.isNone && c.stallG.isNone && c.crWait.isNone then
    ((s.setCtx k x { c with halted := true, haltReq := false }).setHalted k x 1).settle k
  else s

/-! ### Stale bits (R334, Table DX-2) -/

/-- Key of the stale bit of a source, stripe and core. -/
def staleKey (src k core : Nat) : Nat := src * 65536 + k * 8 + core

/-- The source Intake contexts of a job (R329). -/
def Job.sources (j : Job) : List Nat := if j.inline then [j.inctx] else j.inctxs

/-- Sets the stale bits of a list of stripes, cores and sources. -/
def Job.setStale (j : Job) (srcs ks cores : List Nat) : Job :=
  { j with stale := msets (dflt false) j.stale
             (srcs.flatMap (fun a => ks.flatMap (fun k => cores.map (fun c => (staleKey a k c, true))))) }

/-- Sets every stale bit of a job: its stripes, its cores, its sources. -/
def Job.staleAll (j : Job) : Job :=
  j.setStale j.sources (upFrom 0 (j.span + 1)) (j.cores.map (·.val))

/-- Sets the stale bits of every stripe on one core, all sources. -/
def Job.staleCore (j : Job) (c : Nat) : Job := j.setStale j.sources (upFrom 0 (j.span + 1)) [c]

/-- Keeps stale bits for the stripes of a frame of a new height: those past the highest so far have not been computed since
the job's start, so their bits are set (Table DX-2). -/
def Job.widen (j : Job) : Job :=
  if j.n ≤ j.span then j
  else { (j.setStale j.sources (upFrom (j.span + 1) (j.n - j.span)) (j.cores.map (·.val))) with span := j.n }

/-- Sets the stale bits of every job on a core, for every stripe and source. -/
def State.staleOnCore (s : State) (k : Fin 8) : State :=
  { s with jobs := s.jobs.map (fun j => if j.cores.contains k then j.staleCore k.val else j) }

/-! ### Tile maps (R65, R67, R486) -/

/-- Sum of the tile widths left of a core: its first plane column. -/
def firstCol (tiles : List Nat) (k : Nat) : Nat := (tiles.take k).foldl (· + ·) 0

/-- The default tile map: blocks of 16 plane columns dealt out as equally as possible, the lowest-numbered cores getting
one more (R65); a paired job deals them to the even cores (R164; log entry 14). -/
def defaultTiles (paired : Bool) (width : Nat) : List Nat :=
  let b := width / 16
  let m := if paired then 4 else 8
  (upFrom 0 8).map (fun k =>
    if paired && k % 2 == 1 then 0
    else
      let i := if paired then k / 2 else k
      16 * (b / m + if i < b % m then 1 else 0))

/-- Takes a new tile map into force, setting the stale bits of every core whose first column or width changes
(Table DX-2); those of a secondary are its primary's (R166). -/
def Job.takeTiles (j : Job) (t : List Nat) : Job :=
  let ch := (upFrom 0 8).filter (fun k =>
    let i := tileOwner j.paired k
    nth 0 t i != nth 0 j.tiles i || firstCol t i != firstCol j.tiles i)
  let j := { j with tiles := t }
  j.setStale j.sources (upFrom 0 (j.span + 1)) ch

/-- Nearest core with non-zero width on one side. -/
def nearLeft (t : List Nat) (k : Nat) : Option Nat := ((upFrom 0 k).filter (fun i => 0 < nth 0 t i)).getLast?
def nearRight (t : List Nat) (k : Nat) : Option Nat := (upFrom (k + 1) (7 - k)).find? (fun i => 0 < nth 0 t i)

/-- The map with the width of core `k` given to its nearest non-zero neighbours in equal multiples of 16 plane columns,
any remainder to the left one (R486). None when there is no neighbour. -/
def giveAway (t : List Nat) (k : Nat) : Option (List Nat) :=
  let w := nth 0 t k
  let b := w / 16
  let z := setNth t k 0
  match nearLeft t k, nearRight t k with
  | none, none => none
  | some l, none => some (setNth z l (nth 0 z l + w))
  | none, some r => some (setNth z r (nth 0 z r + w))
  | some l, some r =>
    let rb := b / 2 * 16
    some (setNth (setNth z l (nth 0 z l + (w - rb))) r (nth 0 z r + rb))

/-- Least of a list of integers, or a value for the empty list. -/
def leastInt (d : Int) : List Int → Int
  | [] => d
  | [x] => x
  | x :: l => min x (leastInt d l)

/-- Least slack and least window of a job over its previous 60 frames (R486). -/
def Job.leastSlack (j : Job) : Int :=
  leastInt 2147483647 ((j.recent.filter (fun e => j.frame ≤ e.1 + 60)).map (fun e => e.2.1))
def Job.leastWindow (j : Job) : Int :=
  leastInt 0 ((j.recent.filter (fun e => j.frame ≤ e.1 + 60)).map (fun e => e.2.2))

/-- The redistribution test of R486: (W − s) × m / (m − 1) ≤ W × (1 − QMARGIN / 100), in integers. -/
def State.fits (s : State) (j : Job) : Bool :=
  let w := j.leastWindow
  let m : Int := ((j.tiles.filter (0 < ·)).length : Nat)
  let q : Int := (s.getF F.FLT_MCFG2_QMARGIN : Nat)
  decide (2 ≤ m) && decide ((w - j.leastSlack) * m * 100 ≤ w * (100 - q) * (m - 1))

/-! ### Closing windows with poison (R517, R524, R55) -/

/-- Sets an inbound window. -/
def State.setIw (s : State) (n : Fin 32) (w : InWin) : State := { s with lnk := { s.lnk with iw := vset s.lnk.iw n w } }

/-- Sets an outbound binding. -/
def State.setOb (s : State) (n : Fin 32) (b : OutBind) : State :=
  { s with lnk := { s.lnk with ob := vset s.lnk.ob n b } }

/-- All window numbers. -/
def allWins : List (Fin 32) := (List.finRange 32)

/-- A close notice for a window goes to every chip of its SRCMASK (Table SL-7). -/
def State.closeNotices (s : State) (n : Fin 32) : State :=
  let me := s.getF F.LNK_CFG_CHIP
  ((upFrom 0 8).filter (fun c => bitsOf (vget s.lnk.iw n).srcMask c 1 == 1)).foldl (fun s c =>
    (s.linkSend { mkLink 4 lnkCloseNotice 0 me c with win := n.val }).getD s) s

/-- Closes an inbound window at once: every row of a transfer that has not landed is poisoned and its originator refused (R517,
R202), and a close command that waits for it completes. -/
def State.closeWinNow (s : State) (n : Fin 32) : State :=
  let w := vget s.lnk.iw n
  if w.st = .closed then s
  else
    let me := s.getF F.LNK_CFG_CHIP
    let s := if w.st = .open_ then s.closeNotices n else s
    let s := w.xfers.foldl (fun s x => if x.read then s else
      x.rows.foldl (fun s r => if r < w.count then s.putRow (coreOf w.core) (w.first + r) (poisonRow s.free) else s) s) s
    let s := w.xfers.foldl (fun s x =>
      s.lnkRefuse { mkLink (if x.read then 1 else 0) 0 x.tag x.src me with win := n.val } lnkClosed) s
    let s := s.setIw n { w with st := .closed, xfers := [], dead := w.dead ++ w.xfers, closer := none }
    match w.closer with
    | some (b, tag) => s.complete (bankOf b) tag 0x08 0x50 (leBytes 1 n.val)
    | none => s

/-- Ends an RXFER that waits for its owner: a read's rows that have not come are poisoned (R517), and its token takes the exception
when the transfer unit finishes it. -/
def State.failWait (s : State) (cause : Nat) (w : RxWait) : State :=
  match w.who with
  | some m => if w.read then s.emit (.answer m (s.draw).1.toNat true) else s
  | none =>
    let k := coreOf w.core
    let s := if w.read then w.rows.foldl
        (fun s r => if w.awn then s.putAwn k r (poisonRow s.free) else s.putRow k r (poisonRow s.free)) s else s
    s.transCause k ⟨w.ctx % 3, Nat.mod_lt _ (by decide)⟩ cause

/-- Ends the RXFERs for which `p` holds with an exception. -/
def State.failWaits (s : State) (cause : Nat) (p : RxWait → Bool) : State :=
  let gone := s.lnk.waits.filter p
  gone.foldl (fun s w => s.failWait cause w) { s with lnk := { s.lnk with waits := s.lnk.waits.filter (fun w => !p w) } }

/-! ### Weight replicas (R456–R462) -/

/-- Digests or a repair of a segment of a package are under way: those are judged, and repair what they find (R462). -/
def State.segBusy (s : State) (pkg seg : Nat) : Bool :=
  s.dig.todo.any (fun r => r.pkg == pkg && r.seg == seg) || s.dig.vals.any (fun v => v.req.pkg == pkg && v.req.seg == seg)
    || s.dig.repairs.any (fun r => r.pkg == pkg && r.seg == seg)

/-- The firmware's digest work: one segment of one package on one core. -/
def State.addDigests (s : State) (l : List DigReq) : State :=
  { s with dig := { s.dig with todo := s.dig.todo ++ l.filter (fun r => !s.dig.todo.contains r) } }

/-- Number of segments of a package (256 rows each). -/
def Pkg.segs (p : Pkg) : Nat := (p.rows + 255) / 256

/-- The digests of every replica of a package, on cores that are awake. -/
def State.pkgDigests (s : State) (p : Pkg) : List DigReq :=
  (upFrom 0 p.segs).flatMap (fun g =>
    (allCores.filter (fun k => p.cores.contains k.val && decide (s.pstate k < 2)
      && !s.flag (F.CORE_STATUS_QUAR k))).map (fun k => ⟨p.id, g, k.val, 1⟩))

/-- Rows of a package are being written (R199). -/
def State.pkgWriting (s : State) (p : Pkg) : Bool :=
  p.cores.any (fun k => (s.core (coreOf k)).weightWrite.any (fun e => decide (e.1 < p.first + p.rows) && decide (p.first < e.1 + e.2)))

/-- Starts a digest sweep (R457): every replica of every package, less packages being written and sleeping or
quarantined cores (R485). -/
def State.startSweep (s : State) : State :=
  s.addDigests ((s.pkgs.filter (fun p => !s.pkgWriting p)).flatMap (fun p => s.pkgDigests p))

/-- Digests of the replicas on one core, after its scratchpad was initialised (R457). -/
def State.sweepCore (s : State) (k : Fin 8) : State :=
  s.addDigests ((s.pkgs.filter (fun p => !s.pkgWriting p)).flatMap
    (fun p => (s.pkgDigests p).filter (fun r => r.core == k.val)))

/-- The digests of a package asked for are judged once none is left to make or repair (R457). -/
def State.settlePkg (s : State) (id : Nat) : State :=
  if s.dig.todo.any (fun r => r.pkg == id) || s.dig.repairs.any (fun r => r.pkg == id) then s
  else { s with pkgs := s.pkgs.map (fun p => if p.id = id then { p with judged := true } else p) }

/-- Asks for the digest of one segment on every core at once (R462), unless they are being made. -/
def State.digestSeg (s : State) (p : Pkg) (g : Nat) : State :=
  if s.segBusy p.id g then s else s.addDigests ((s.pkgDigests p).filter (fun r => r.seg == g))

end Sys2Proof.Machine
end

