-- ==== Sys2Proof/Machine/DevOps.lean ====
section
/-! DEFINITION. Reads and writes of device space (Table TH-3) by stripe DMA, host paths and bridge messages: unmapped
addresses (R30), whole rows (R31), row protection (R198), key regions and save area (R418, R488), Coffer SRAM (R392–R394,
R414, R432), host memory (R526, R527), windows (R510) and commit gates (R466–R470). -/

namespace Sys2Proof.Machine

/-- Who makes an access. -/
inductive Agent where
  /-- DMA of a job's program in a context of a core. -/
  | dma (job core x : Nat)
  /-- A host path or the Lantern, by `masterRank`. -/
  | host (m : Nat)
  /-- A bridge message, for its job. -/
  | brg (job : Nat)
deriving DecidableEq, Repr

/-- The job an agent acts for; 0x000 for the others. -/
def Agent.job : Agent → Nat
  | .dma j _ _ => j
  | .brg j => j
  | .host _ => 0

/-- Writes a fault record of an access by an agent. -/
def State.agentRec (s : State) (g : Agent) (cls a akind : Nat) : State :=
  match g with
  | .dma j k _ => s.reportAft { mkRec s.time.aft (coreUnit k 5) cls with job := j, addr := a, akind := akind }
  | .host _ => s.report { mkRec s.time.now 0x03 cls with addr := a, akind := akind }
  | .brg j => s.report { mkRec s.time.now 0x09 cls with job := j, addr := a, akind := akind }

/-! ### Device reads -/

/-- A transfer between the halves meets a bridge that is not up (R28): a job's program or an Aft message that names a Fore
block. -/
def State.cutOff (s : State) (g : Agent) : Bool :=
  match g with
  | .dma _ _ _ => !s.brgUp
  | _ => false

/-- A core's rows can be reached: the core is not in NAP or DARK, and for a host path the bridge is up, or comes up again after a
retrain (R28, R54). A
bridge message has crossed it already. DESIGN CHOICE: rows that cannot be reached drop a write and answer a read poisoned, with no
record (log entry 92). -/
def State.spReach (s : State) (g : Agent) (k : Fin 8) : Bool :=
  decide (s.pstate k < 2) && (match g with
    | .host _ => s.brgUp || s.brgBusy
    | _ => true)

/-- An access of rows waits at a core: they are held (R192, R194), or the access of a host path has to cross a bridge that
retrains (R54). -/
def State.rowsWait (s : State) (g : Agent) (k : Fin 8) : Bool :=
  s.spHeld k || (match g with
    | .host _ => s.brgBusy
    | _ => false)

/-- What an access answers when it is refused: poison, the record, and the exception of the token. -/
def State.refuseAcc (s : State) (g : Agent) (cls a akind n cause : Nat) : List (Byte × Bool) × Nat × State :=
  (poisonBytes s.free n, cause, (s.agentRec g cls a akind).drawn n)

/-- Who waits with an agent's write at a core (`HeldAcc.who`). -/
def Agent.waiter (g : Agent) : Nat :=
  match g with
  | .dma _ k x => 16 + 4 * k + x
  | .host m => 8 + m
  | _ => 0

/-- Reads `n` bytes of device space for an agent: bytes with poison, the exception of the access (0 for none), state. Rows that are
held read poisoned: who asks for them here has waited its 5 ms (R192). -/
def State.devRead (s : State) (g : Agent) (a n : Nat) : List (Byte × Bool) × Nat × State :=
  match s.region a with
  | .dram =>
    if s.cutOff g then (poisonBytes s.free n, 0, s.drawn n)
    else if s.ddrSize < a + n then s.refuseAcc g 0x01 a 1 n excAddrUnmapped
    else
      match s.dramDenied a n with
      | some cls => s.refuseAcc g cls a 1 n excAddrUnmapped
      | none => let (l, s) := s.dramGet a n; (l, 0, s)
  | .sp k r b =>
    match g with
    | .host _ =>
      if !s.spReach g (coreOf k) then (poisonBytes s.free n, excAddrUnmapped, s.drawn n)
      else if 512 < b + n then s.refuseAcc g 0x02 a 1 n excRowAlign
      else
        let (w, s) := (s.waited (coreOf k)).getRow (coreOf k) r
        (((bytesOfRow w).drop b).take n, 0, s)
    | _ =>
      if b ≠ 0 ∨ n ≠ 512 then s.refuseAcc g 0x02 a 1 n excRowAlign
      else if !s.rowAllowed g.job k r false then s.refuseAcc g 0x03 (spLoc k r) 2 n excAddrUnmapped
      else if !s.spReach g (coreOf k) then (poisonBytes s.free n, excAddrUnmapped, s.drawn n)
      else if s.spHeld (coreOf k) then (poisonBytes s.free n, 0, s.drawn n)
      else
        let (w, s) := (s.waited (coreOf k)).getRow (coreOf k) r
        (bytesOfRow w, 0, s)
  | .cof off =>
    match g with
    | .host _ => if 0x1000000 < off + n then s.refuseAcc g 0x01 a 1 n excAddrUnmapped
      else let (l, s) := s.cofHostRead off n; (l, 0, s)
    | _ => s.refuseAcc g 0x43 a 1 n excAddrUnmapped
  | .host bus =>
    if s.cutOff g then (poisonBytes s.free n, 0, s.drawn n)
    else match s.hostGet bus n with
    | some l => (l.map (fun b => (b, false)), 0, s)
    | none => s.refuseAcc g 0x01 a 1 n 0
  | _ => s.refuseAcc g 0x01 a 1 n excAddrUnmapped

/-! ### Device writes -/

/-- A write that is refused: dropped, with the record and the exception. -/
def State.refuseWr (s : State) (g : Agent) (cls a akind cause : Nat) : Nat × State := (cause, s.agentRec g cls a akind)

/-- The commit of a job at the Aft fabric and the destination's gate (R466, R469, R470): dropped after the poison point;
poison is recorded and lands where the destination holds it. Answers the state and whether the bytes land. -/
def State.commitGate (s : State) (id gate : Nat) (poison holds : Bool) (a : Nat) : State × Bool :=
  if id = 0 then (s, true)
  else if s.gateDrops id 0 || s.gateDrops id gate then (s, false)
  else if poison then (s.poisonCommit id 0 0x10 a 1, holds)
  else (s, true)

/-- A DMA write of the test context reaches only the rows its slot has saved, and the save area (R487). -/
def State.testDenied (s : State) (g : Agent) (a n : Nat) : Bool :=
  match g with
  | .dma _ k x =>
    x == 2 && !(s.inSave a && s.inSave (a + n - 1)) && (match s.region a with
      | .sp c r _ => c != k || !(s.slotOn (coreOf k)).any (fun t => t.savedRows.any (fun e => e.1 / 64 == r))
      | _ => true)
  | _ => false

/-- The refusal of a write of DRAM (R418, R488), which spares the test context (R487). -/
def State.dramBars (s : State) (g : Agent) (a n : Nat) : Option Nat :=
  match g with
  | .dma _ _ x => if x = 2 then none else s.dramDenied a n
  | _ => s.dramDenied a n

/-- Writes bytes to device space for an agent; `commit` marks a DMA write to DRAM with COMMIT = 1 (R273). Answers the
exception of the access (0 for none) and the state. -/
def State.devWrite (s : State) (g : Agent) (a : Nat) (bs : List (Byte × Bool)) (commit : Bool) : Nat × State :=
  let n := bs.length
  let poison := bs.any (·.2)
  if s.testDenied g a n then s.refuseWr g 0x03 a 1 excAddrUnmapped
  else
  match s.region a with
  | .dram =>
    if s.cutOff g then (0, s)
    else if s.ddrSize < a + n then s.refuseWr g 0x01 a 1 excAddrUnmapped
    else
      match s.dramBars g a n with
      | some cls => s.refuseWr g cls a 1 excAddrUnmapped
      | none =>
        let (s, ok) := if commit then s.commitGate g.job 3 poison true a else (s, true)
        (0, if ok then (s.dramPut a (bs.map (·.1))).dramMark a (bs.map (·.2)) else s)
  | .sp k r b =>
    if b ≠ 0 ∨ n ≠ 512 then s.refuseWr g 0x02 a 1 excRowAlign
    else if !s.rowAllowed g.job k r true then s.refuseWr g 0x03 (spLoc k r) 2 excAddrUnmapped
    else if !s.spReach g (coreOf k) then (excAddrUnmapped, s)
    else if s.rowsWait g (coreOf k) then (0, s.holdWrite (coreOf k) g.waiter r (rowOfBytes bs))
    else (0, (s.waited (coreOf k)).putRow (coreOf k) r (rowOfBytes bs))
  | .cof off =>
    match g with
    | .host _ => if 0x1000000 < off + n then s.refuseWr g 0x01 a 1 excAddrUnmapped else (0, s.cofHostWrite off bs)
    | _ =>
      let claims := match s.job g.job with
        | none => false
        | some j => j.keysets.contains ((off - 0xFC0000) / 65536)
      if s.cutOff g then (0, s)
      else if off < 0xFC0000 ∨ off % 512 ≠ 0 ∨ n ≠ 512 ∨ !claims then s.refuseWr g 0x43 a 1 excAddrUnmapped
      else
        let (s, ok) := s.commitGate g.job 4 poison true a
        (0, if ok then State.cofPuts (off / 8) (rowOfBytes bs) s else s)
  | .host bus =>
    -- R555: while the PCIe link is down the write is dropped and the token of a DMA write ends FAULT
    if s.cutOff g then (0, s)
    else if !s.flag F.HOST_STATUS_LINK_UP then (excAddrUnmapped, s)
    else
      let (s, ok) := s.commitGate g.job 5 poison false a
      (0, if ok then s.hostPut bus (bs.map (·.1)) else s)
  | .win c w r b =>
    match g with
    | .host m =>
      if b ≠ 0 ∨ n ≠ 512 ∨ 31 < w then s.refuseWr g 0x01 a 1 excAddrUnmapped
      else
        if !s.brgUp then (excAddrUnmapped, s)
        else
          match s.winWrite m c w r (rowOfBytes bs) with
          | none => s.refuseWr g 0x01 a 1 excAddrUnmapped
          | some s => (0, s)
    | _ => s.refuseWr g 0x01 a 1 excAddrUnmapped
  | _ => s.refuseWr g 0x01 a 1 excAddrUnmapped

end Sys2Proof.Machine
end

