-- ==== Sys2Proof/Machine/Cmd.lean ====
section
/-! DEFINITION. What the ring commands share: the command that begins (R540, R541), its parameters (Table HO-5), the data it
names, its refusal (Table HO-8); fuses and signature blocks (R598, R599). -/

namespace Sys2Proof.Machine

/-! ### Commands of a ring -/

/-- The firmware serves the rings: in READY and RUN. -/
def State.served (s : State) : Bool := !s.off && (s.dev == devReady || s.dev == devRun)

/-- The command of a ring that begins next: the oldest one fetched that has not begun, when it has this OPC (R541). -/
def State.nextCmd (s : State) (b : Fin 2) (opc : Nat) : Option InFlight :=
  if !s.served then none else
  match (s.ring b).inflight.find? (fun e => !e.begun) with
  | some e => if e.opc = opc ∧ e.bad.isNone then some e else none
  | none => none

/-- Marks the oldest command that has not begun as begun. -/
def beginFirst : List InFlight → List InFlight
  | [] => []
  | e :: l => if e.begun then e :: beginFirst l else { e with begun := true } :: l

/-- The oldest command that has not begun completes in its turn: it leaves the commands in flight and its completion is posted. -/
def State.answerFirst (s : State) (b : Fin 2) (e : InFlight) (result : Nat) (vals : List Byte) : State :=
  let r := s.ring b
  let s := s.setRing b { r with inflight := r.inflight.eraseP (fun f => !f.begun) }
  s.post b { tag := e.tag, opc := e.opc, result := result, replayed := false, irq := e.irq, vals := vals }

/-- Commands whose fetch found them wrong are refused when their turn has come (R541). -/
def State.refuseNext (b : Fin 2) : Nat → State → State
  | 0, s => s
  | n + 1, s =>
    match (s.ring b).inflight.find? (fun e => !e.begun) with
    | none => s
    | some e =>
      match e.bad with
      | none => s
      | some code => State.refuseNext b n (s.answerFirst b e code [])

/-- Marks the command that begins next accepted: it completes later, and the one after it may begin (R541). -/
def State.accept (s : State) (b : Fin 2) : State :=
  let r := s.ring b
  State.refuseNext b 16 (s.setRing b { r with inflight := beginFirst r.inflight })

/-- Completes the command that begins next, as its effect ends or as a refusal. -/
def State.finish (s : State) (b : Fin 2) (e : InFlight) (result : Nat) (vals : List Byte) : State :=
  State.refuseNext b 16 (s.answerFirst b e result vals)

/-- Parameter of `n` bytes at byte `o` of the submission entry. -/
def InFlight.par (e : InFlight) (o n : Nat) : Nat := leNat ((e.pars.drop (o - 8)).take n)

/-- Every parameter byte outside the given byte ranges of the entry is zero (Table HO-5). -/
def InFlight.unusedZero (e : InFlight) (used : List (Nat × Nat)) : Bool :=
  (upFrom 8 56).all (fun o => used.any (fun u => decide (u.1 ≤ o) && decide (o ≤ u.2)) || nth 0 e.pars (o - 8) == 0)

/-- Result codes that commands share (Table HO-8). -/
def cmdBadOpc : Nat := 0x70
def cmdBadField : Nat := 0x71
def cmdNoJob : Nat := 0x72
def cmdJobState : Nat := 0x73
def cmdSrcPoison : Nat := 0x74
def pkgInUse : Nat := 0x75
def cmdNotOwner : Nat := 0x76
def cmdNotClaimed : Nat := 0x77

/-- The bytes of an object that a command names; none when some of them arrive poisoned (CMD_SRC_POISON). -/
def State.source (s : State) (a n : Nat) : Option (List Byte) × State :=
  let (l, s) := s.fwGet a n
  (if l.any (·.2) then none else some (l.map (·.1)), s)

/-- Field of `n` bytes at byte `o` of an object. -/
def fieldAt (l : List Byte) (o n : Nat) : Nat := leNat ((l.drop o).take n)

/-- Bytes `a` to `b` of an object are zero. -/
def zeroAt (l : List Byte) (a b : Nat) : Bool := ((l.drop a).take (b + 1 - a)).all (· == 0)

/-! ### Fuses (Table BS-8) -/

/-- Hash of key slot `n`: 12 words (field 0). -/
def State.keyHash (s : State) (n : Nat) : Nat :=
  (upFrom 0 12).foldl (fun a w => a + s.fuse 0 (12 * n + w) * 2 ^ (32 * w)) 0

/-- KEYUSE bits of slot `n` (field 1), and the REVOKE bits (field 2). -/
def State.keyUse (s : State) (n : Nat) : Nat := bitsOf (s.fuse 1 0) (6 * n) 6
def State.revoked (s : State) (n : Nat) : Bool := bitsOf (s.fuse 2 0) n 1 == 1

/-- Number of bits set in a 32-bit word. -/
def ones (w : Nat) : Nat := (upFrom 0 32).foldl (fun a i => a + bitsOf w i 1) 0

/-- Counts of ARB0 and ARB1 (field 3, two words each). -/
def State.arb (s : State) (c : Nat) : Nat := ones (s.fuse 3 (2 * c)) + ones (s.fuse 3 (2 * c + 1))

/-- Count of blown LATCH bits (field 4), and the tamper latch (R610). -/
def State.latchCount (s : State) : Nat := ones (s.fuse 4 0)
def State.latched (s : State) : Bool := s.latchCount % 2 == 1

/-! ### Signature blocks (R598, R599) -/

/-- Outcomes of a signature check. -/
inductive SigRes where
  | good | bad | revoked
deriving DecidableEq, Repr

/-- Checks the signature block at SIG_OFF of an object of `len` bytes: `use` is the use bit of R599, or none for the owner key
of R401 whose hash is `owner`. -/
def State.checkSig (s : State) (l : List Byte) (off len : Nat) (use : Option Nat) (owner : Nat) : SigRes :=
  let blk := (l.drop off).take 256
  let slot := fieldAt blk 5 1
  let form := decide (off + 256 = len) && fieldAt blk 0 4 == 0x4753384E && fieldAt blk 4 1 == 1 && zeroAt blk 6 7
    && zeroAt blk 200 255
  let hash := Config.sha384 ((blk.drop 8).take 96)
  let math := Config.ecdsaVerify ((blk.drop 8).take 96) (Config.sha384 (l.take off)) ((blk.drop 104).take 96)
  match use with
  | none => if form && slot == 0xFE && hash == owner && math then .good else .bad
  | some u =>
    if !form || decide (3 < slot) || s.keyHash slot == 0 || bitsOf (s.keyUse slot) u 1 == 0 then .bad
    else if s.revoked slot then .revoked
    else if hash == s.keyHash slot && math then .good else .bad

end Sys2Proof.Machine
end

