-- ==== Sys2Proof/Machine/Coffer.lean ====
section
/-! DEFINITION. The Coffer: slots and gates (chapter 13), refresh passes, batches, submissions, key sets and its registers
(chapter 14). -/

namespace Sys2Proof.Machine

/-! ### Arithmetic of a refresh pass (R395, R396, R419, R420, Table CE-2) -/

/-- The modulus of the bootstrap key. -/
def cofP : Nat := 2 ^ 64 - 2 ^ 32 + 1

/-- x^e mod p, by the bits of e from the lowest. -/
def powP : Nat → Nat → Nat → Nat
  | 0, _, _ => 1
  | n + 1, x, e => (if e % 2 = 1 then x else 1) * powP n (x * x % cofP) (e / 2) % cofP

/-- ψ of R419. -/
def cofPsi : Nat := powP 64 7 ((cofP - 1) / 4096)

/-- The 11 bits of a number reversed. -/
def br11 (j : Nat) : Nat := (upFrom 0 11).foldl (fun a i => a + bitsOf j i 1 * 2 ^ (10 - i)) 0

/-- Evaluation point of word `j` (R419). -/
def evalPoint (j : Nat) : Nat := powP 64 cofPsi (2 * br11 j + 1)

/-- A polynomial: 2,048 coefficients modulo p. -/
abbrev CPoly := List Nat

/-- The value of a polynomial at a point. -/
def polyAt (x : Nat) : CPoly → Nat
  | [] => 0
  | c :: cs => (c + x * polyAt x cs) % cofP

/-- A coefficient of the polynomial whose values at the evaluation points are given. -/
def fromValues (vals : List Nat) (m : Nat) : Nat :=
  let inv (x : Nat) : Nat := powP 64 x (cofP - 2)
  let sum := ((upFrom 0 2048).zip vals).foldl (fun a e => (a + e.2 * powP 64 (inv (evalPoint e.1)) m) % cofP) 0
  sum * inv 2048 % cofP

/-- X^e times a polynomial, modulo X^2048 + 1. -/
def polyRot (e : Nat) (f : CPoly) : CPoly :=
  (upFrom 0 2048).map (fun m =>
    let i := (m + 4096 - e % 4096) % 4096
    if i < 2048 then nth 0 f i else (cofP - nth 0 f (i - 2048)) % cofP)

/-- Sum and difference of polynomials. -/
def polyAdd (f g : CPoly) : CPoly := (f.zip g).map (fun e => (e.1 + e.2) % cofP)
def polySub (f g : CPoly) : CPoly := (f.zip g).map (fun e => (e.1 + cofP - e.2 % cofP) % cofP)

/-- Digit of level `l`, 1 to 3, of a coefficient modulo p, as a residue. The digits d₁, d₂, d₃ lie in [−2¹⁴, 2¹⁴) and the
coefficient is close to d₁·g₁ + d₂·g₂ + d₃·g₃ (R419), so they are the signed base-2¹⁵ digits of x·2⁴⁵/p in whole units.
Which of the two units next to it is taken is not stated: a free value (log entry 22). -/
def gadgetDigit (x l : Nat) : Nat :=
  let y3 : Int := x * 2 ^ 45 / cofP + Config.openOp 50 [x] % 2
  let d3 := signed 15 (unsigned 15 y3)
  let y2 := (y3 - d3) / 2 ^ 15
  let d2 := signed 15 (unsigned 15 y2)
  let d1 := signed 15 (unsigned 15 ((y2 - d2) / 2 ^ 15))
  let d := if l = 1 then d1 else if l = 2 then d2 else d3
  (d % (cofP : Int)).toNat

/-- Digit of level `l`, 1 to 5, of a 32-bit coefficient at the key switch: unsigned, 0–15, of weight 2^(32 − 4l) (R420), so
the digits of its upper 20 bits. Whether those are rounded to first is not stated: a free value (log entry 22). -/
def switchDigit (y l : Nat) : Nat :=
  (y / 2 ^ 12 + Config.openOp 51 [y] % 2) % 2 ^ 20 / 2 ^ (20 - 4 * l) % 16

/-- A key set as the streamer reads it: word `j` of polynomial `q` of row `r` of bootstrap entry `i`; coefficient `m` of
key-switching entry (j, l), the 800th being b. -/
structure KeyRd where
  bsk : Nat → Nat → Nat → Nat → Nat
  ksk : Nat → Nat → Nat

/-- One controlled multiplex of the accumulator (mask, body) by X^e under bootstrap entry `i` (Table CE-2, stage 4). -/
def cmux (k : KeyRd) (i e : Nat) (acc : CPoly × CPoly) : CPoly × CPoly :=
  let d (c : Nat) : CPoly := if c = 0 then polySub (polyRot e acc.1) acc.1 else polySub (polyRot e acc.2) acc.2
  let rows : List (Nat × CPoly) := (upFrom 0 6).map (fun r => (r, (d (r / 3)).map (fun x => gadgetDigit x (r % 3 + 1))))
  let prod (q : Nat) : CPoly :=
    let vals := (upFrom 0 2048).map (fun j =>
      rows.foldl (fun a r => (a + polyAt (evalPoint j) r.2 * k.bsk i r.1 q j) % cofP) 0)
    (upFrom 0 2048).map (fromValues vals)
  (polyAdd acc.1 (prod 0), polyAdd acc.2 (prod 1))

/-- Blind rotation over the entries from `i` on. -/
def blindRot (k : KeyRd) : List Nat → Nat → CPoly × CPoly → CPoly × CPoly
  | [], _, acc => acc
  | e :: es, i, acc => blindRot k es (i + 1) (cmux k i e acc)

/-- The test polynomial of a table (Table CE-2, stage 3). -/
def testPoly (t : Nat) : CPoly :=
  let delta := (cofP + 8) / 16
  (upFrom 0 2048).map (fun m =>
    let q := (m + 128) / 256
    if q ≤ 7 then bitsOf t q 1 * delta else (cofP - bitsOf t 0 1 * delta) % cofP)

/-- Stages 2 to 7 of a pass: the pre-sum (a₀ to a₇₉₉, b) and the table give the refreshed ciphertext (Table CE-2). -/
def cofRefresh (k : KeyRd) (t : Nat) (co : List Nat) : List Nat :=
  let sw (x : Nat) : Nat := (x + 2 ^ 19) / 2 ^ 20 % 4096
  let b := sw (nth 0 co 800)
  let acc := blindRot k ((co.take 800).map sw) 0 (List.replicate 2048 0, polyRot (4096 - b) (testPoly t))
  let lwe := (upFrom 0 2048).map (fun j => if j = 0 then nth 0 acc.1 0 else (cofP - nth 0 acc.1 (2048 - j)) % cofP)
  let ms (y : Nat) : Nat := (y * 2 ^ 33 + cofP) / (2 * cofP) % 2 ^ 32
  let digs := ((upFrom 0 2048).zip lwe).flatMap (fun e => (upFrom 1 5).map (fun l => (e.1, l, switchDigit (ms e.2) l)))
  (upFrom 0 801).map (fun m =>
    let sub := digs.foldl (fun a e => (a + e.2.2 * k.ksk (e.1 * 5 + (e.2.1 - 1)) m) % 2 ^ 32) 0
    ((if m = 800 then ms (nth 0 acc.2 0) else 0) + 2 ^ 32 - sub) % 2 ^ 32)

/-! ### Slots (R392–R394) -/

/-- What a gate reads of a source slot. -/
structure CofSrc where
  spent : Bool
  ksid : Nat
  level : Nat
  valid : Bool
  trivial : Bool
  poison : Bool
  co : List Nat
deriving DecidableEq, Repr

/-- Reads a whole slot. A header that is itself poisoned says nothing; the slot then counts as poisoned only (R434). -/
def State.cofSlot (s : State) (n : Nat) : CofSrc × State :=
  let (ws, s) := State.cofWords (n * 408) 408 s
  let h := nth (0, false) ws 0
  let v := h.1.toNat
  let co := ((ws.drop 1).take 401).flatMap (fun w => [w.1.toNat % 2 ^ 32, w.1.toNat / 2 ^ 32])
  let lv := bitsOf v 0 4
  ({ spent := !h.2 && decide (8 < lv), ksid := bitsOf v 4 4, level := if 8 < lv then 0 else lv,
     valid := h.2 || bitsOf v 8 1 == 1, trivial := h.2 || bitsOf v 9 1 == 1, poison := rowPoisoned ws,
     co := co.take 801 }, s)

/-- A gate's result: coefficients, level, TRIVIAL, and the statuses it sets. -/
structure CofRes where
  co : List Nat
  level : Nat
  trivial : Bool
  spent : Bool
  empty : Bool
  mismatch : Bool
deriving DecidableEq, Repr

/-- The result's LEVEL is 15 (R410). -/
def CofRes.dead (r : CofRes) : Bool := r.spent || r.empty || r.mismatch

/-- L_MAX of class 0x0001 (R399). -/
def cofLmax : Nat := 8

/-- The weight class of the weights: ceil(log₂ Σ w²), 0 when the sum is at most 1. -/
def weightClass (ws : List Int) : Nat :=
  let n := (ws.foldl (fun a w => a + w * w) 0).toNat
  (upFrom 0 16).find? (fun e => decide (n ≤ 2 ^ e)) |>.getD 16

/-- Statuses of a result from the sources that contribute and the level it computes (R410, R434). -/
def statusOf (k : Nat) (srcs : List CofSrc) (level : Nat) : Bool × Bool × Bool :=
  (srcs.any (·.spent) || decide (cofLmax < level), srcs.any (fun c => !c.valid || c.poison),
   srcs.any (fun c => !c.trivial && c.ksid != k))

/-- The highest level of the sources. -/
def maxLevel (srcs : List CofSrc) : Nat := srcs.foldl (fun a c => max a c.level) 0

/-- A weighted sum of ciphertexts, modulo 2³². -/
def cofSum (l : List (Int × List Nat)) : List Nat :=
  (upFrom 0 801).map (fun i => unsigned 32 (l.foldl (fun a e => a + e.1 * (nth 0 e.2 i : Nat)) 0))

/-- A trivial encryption of a value (R391). -/
def cofTrivial (v : Nat) : List Nat := (upFrom 0 801).map (fun i => if i = 800 then v % 16 * 2 ^ 28 else 0)

/-! ### Gate words (Tables CF-6 and CF-7) -/

/-- Fields of a gate word. -/
def gOpc (w : BitVec 64) : Nat := bitsOf w.toNat 58 6
def gDst (w : BitVec 64) : Nat := bitsOf w.toNat 46 12
def gA (w : BitVec 64) : Nat := bitsOf w.toNat 34 12
def gB (w : BitVec 64) : Nat := bitsOf w.toNat 22 12
def gC (w : BitVec 64) : Nat := bitsOf w.toNat 10 12
def gAux (w : BitVec 64) : Nat := bitsOf w.toNat 0 10

/-- A refresh gate. -/
def gRefresh (w : BitVec 64) : Bool := decide (0x10 ≤ gOpc w) && decide (gOpc w ≤ 0x17)

/-- Slots that a gate reads; the weights of a LIN do not matter (R426). -/
def gReads (w : BitVec 64) : List Nat :=
  let o := gOpc w
  if o = 1 then [gA w, gB w, gC w] ++ (if bitsOf (gAux w) 9 1 = 1 then [gDst w] else [])
  else if o = 2 then [gA w]
  else if 0x10 ≤ o ∧ o ≤ 0x15 then [gA w, gB w]
  else if o = 0x16 ∨ o = 0x17 then [gA w, gB w, gC w] else []

/-- A word is out of rule under R402: reserved opcode, a field that shall be zero, a TRIV row, a slot out of range. -/
def gBad (first count : Nat) (w : BitVec 64) : Bool :=
  let o := gOpc w
  let inR (n : Nat) : Bool := decide (first ≤ n) && decide (n < first + count)
  let zero : Bool :=
    if o = 0 then w == 0
    else if o = 1 then true
    else if o = 2 then gB w == 0 && gC w == 0 && gAux w == 0
    else if o = 3 then gC w == 0 && bitsOf (gAux w) 1 9 == 0 && decide (gB w ≤ 127)
    else if o = 4 then gA w == 0 && gB w == 0 && gC w == 0 && bitsOf (gAux w) 4 6 == 0
    else if 0x10 ≤ o ∧ o ≤ 0x15 then gC w == 0 && gAux w == 0
    else if o = 0x16 then gAux w == 0
    else if o = 0x17 then bitsOf (gAux w) 8 2 == 0
    else false
  !zero || (o != 0 && !((gReads w).all inR && inR (gDst w)))

/-- A word conflicts with a batch (R424). -/
def conflicts (w : BitVec 64) (batch : List CofGate) : Bool :=
  gOpc w != 0 && batch.any (fun g =>
    (gReads w).contains (gDst g.word) || (gReads g.word).contains (gDst w) || gDst w == gDst g.word)

/-- Accumulator positions of a gate, and of a batch (R423). -/
def positions (w : BitVec 64) : Nat := if gOpc w = 0x16 then 2 else 1
def batchPos (l : List CofGate) : Nat := l.foldl (fun a g => a + positions g.word) 0

/-- The table of a refresh gate other than MUX. -/
def gTable (w : BitVec 64) : Nat :=
  match gOpc w with
  | 0x10 => 0xFC
  | 0x11 => 0xFE
  | 0x12 => 0xAA
  | 0x13 => 0x03
  | 0x14 => 0x01
  | 0x15 => 0x55
  | _ => bitsOf (gAux w) 0 8

/-! ### The running submission -/

/-- COF_STATUS (Table CE-7). -/
def State.cofShow (s : State) : State :=
  let s := s.setF F.COF_STATUS_QUEUED s.cof.queue.length
  match s.cof.run with
  | none => ((s.setF F.COF_STATUS_BUSY 0).setF F.COF_STATUS_MODE 0).setF F.COF_STATUS_PASS 0
  | some r =>
    ((s.setF F.COF_STATUS_BUSY 1).setF F.COF_STATUS_MODE (if r.sub.batch then 1 else 0)).setF F.COF_STATUS_PASS
      (min 4095 r.npass)

/-- Replaces the running submission. -/
def State.setRun (s : State) (r : Option CofRun) : State := { s with cof := { s.cof with run := r } }

/-- Changes the running submission. -/
def State.modRun (s : State) (f : CofRun → CofRun) : State := s.setRun (s.cof.run.map f)

/-- Replaces the queue. -/
def State.setCofQueue (s : State) (q : List CofSub) : State := { s with cof := { s.cof with queue := q } }

/-- Sets a sticky status for the gate at word `idx`: the first of each class in the submission writes its record (R411,
R431). Statuses: 0 SPENT, 1 EMPTY, 2 KEY_MISMATCH. -/
def State.cofNote (s : State) (which idx : Nat) : State :=
  let f : Fld := ⟨F.COF_STICKY_SPENT.off, which, 1⟩
  let s := (s.setF f 1).raiseCause 21
  match s.cof.run with
  | none => s
  | some r =>
    if (nth none r.firsts which).isSome then s
    else
      (s.setRun (some { r with firsts := setNth r.firsts which (some idx) })).report
        { mkRec s.time.now 0x07 (0x40 + which) with opc := idx }

/-- Writes a gate's result to its DST (R394, R407, R410, R411). `fault` marks a pass whose key stream was poisoned (R435), `poison` a
result that an uncorrectable accumulator word went into: its coefficients carry poison (R467). -/
def State.cofWrite (s : State) (idx dst k : Nat) (fault poison : Bool) (r : CofRes) : State :=
  let s := if r.spent then s.cofNote 0 idx else s
  let s := if r.empty then s.cofNote 1 idx else s
  let s := if r.mismatch then s.cofNote 2 idx else s
  let (old, s) := s.cofWord (dst * 408)
  let lv := if r.dead || fault then 15 else r.level
  let hdr := lv + k * 16 + 256 + (if r.trivial then 512 else 0) + (bitsOf old.1.toNat 32 32 + 1) % 2 ^ 32 * 2 ^ 32
  let co := r.co.flatMap (leBytes 4) ++ List.replicate 52 0
  State.cofPuts (dst * 408) (wordsOfBytes 408 ((leBytes 8 hdr).map (fun b => (b, false)) ++ co.map (fun b => (b, poison)))) s

/-- The result of a gate that needs no refresh: LIN, NOT, TRIV, CONST (Table CF-7, R407–R413). -/
def State.cofPlain (s : State) (k : Nat) (w : BitVec 64) : CofRes × State :=
  match gOpc w with
  | 1 =>
    let aux := gAux w
    let (a, s) := s.cofSlot (gA w)
    let (b, s) := s.cofSlot (gB w)
    let (c, s) := s.cofSlot (gC w)
    let (d, s) := s.cofSlot (gDst w)
    let wt (i : Nat) : Int := signed 3 (bitsOf aux (3 * i) 3)
    let all : List (Int × CofSrc) := [(wt 0, a), (wt 1, b), (wt 2, c), (if bitsOf aux 9 1 = 1 then 1 else 0, d)]
    let used := all.filter (fun e => e.1 != 0)
    let srcs := used.map (·.2)
    let lv := if used.isEmpty then 0 else maxLevel srcs + weightClass (used.map (·.1))
    let st := statusOf k srcs lv
    ({ co := cofSum (used.map (fun e => (e.1, e.2.co))), level := lv, trivial := srcs.all (·.trivial),
       spent := st.1, empty := st.2.1, mismatch := st.2.2 }, s)
  | 2 =>
    let (a, s) := s.cofSlot (gA w)
    let st := statusOf k [a] a.level
    ({ co := cofSum [(1, cofTrivial 1), (-1, a.co)], level := a.level, trivial := a.trivial,
       spent := st.1, empty := st.2.1, mismatch := st.2.2 }, s)
  | 3 =>
    let (ws, s) := State.cofWords ((0xFC0000 + (k * 128 + gB w) * 512) / 8) 64 s
    let x := nth (0, false) ws (gA w / 64)
    let bit := bitsOf x.1.toNat (gA w % 64) 1
    let v := if gAux w % 2 = 1 then 1 - bit else bit
    ({ co := cofTrivial v, level := 0, trivial := true, spent := false, empty := x.2, mismatch := false }, s)
  | _ =>
    ({ co := cofTrivial (gAux w % 16), level := 0, trivial := true, spent := false, empty := false, mismatch := false }, s)

/-- The open batch, or the gate of a latency pass, begins its pass. -/
def State.beginPass (s : State) : State := s.modRun (fun r => { r with passing := true })

/-- The word of gate program memory that the engine comes to, corrected under Table SP-2 (R416): none where it cannot be. -/
def CofRun.next (r : CofRun) : Option (Option (BitVec 64)) :=
  (r.sub.words[r.idx]?).map (fun w => let q := readWord w; if q.1.isPoison then none else some q.2.1)

/-- The word the engine runs next, when no pass runs and it has this opcode. -/
def State.nextGate (s : State) (opc : Nat) : Option (CofRun × BitVec 64) :=
  match s.cof.run with
  | none => none
  | some r =>
    match r.next with
    | some (some w) => if r.passing || gOpc w != opc then none else some (r, w)
    | _ => none

/-! ### Completion (R431) -/

/-- Values of a submission's completion; `blkTag` is the TAG of its block. -/
def cofVals (blkTag : Nat) (firsts : List (Option Nat)) (npass start fin : Nat) : List Byte :=
  let st := (upFrom 0 4).foldl (fun a i => if (nth none firsts i).isSome then a + 2 ^ i else a) 0
  leBytes 4 blkTag ++ leBytes 1 st ++ leBytes 3 0
    ++ (upFrom 0 4).flatMap (fun i => leBytes 4 ((nth none firsts i).getD 0xFFFFFFFF))
    ++ leBytes 4 npass ++ leBytes 4 0 ++ leBytes 8 start ++ leBytes 8 fin

/-- The running submission ends with a result code, and its completion is posted. The time at which END retires is not stated
for a cancelled one: a free value (log entry 3). -/
def State.cofEnd (s : State) (code : Nat) : State :=
  match s.cof.run with
  | none => s
  | some r =>
    let (t, s) : Nat × State := if code = 0x30 then (s.time.now, s) else ((s.draw).1.toNat, (s.draw).2)
    let s := (s.setRun none).cofShow
    -- R432: its slots are held until the completion is posted
    let e := (r.sub.bank, r.sub.tag, r.sub.first, r.sub.count)
    let s := { s with cof := { s.cof with ended := s.cof.ended.filter s.cplKept ++ [e] } }
    s.complete (bankOf r.sub.bank) r.sub.tag 0x0B code (cofVals r.sub.blkTag r.firsts r.npass r.start t)

/-- The engine comes to a word of gate program memory that cannot be corrected: COF_UE (R416). DESIGN CHOICE: the spec says nothing
of the gate; the submission ends as cancelled (log entry 132). -/
def State.gateFault (s : State) : State :=
  match s.cof.run with
  | none => s
  | some r =>
    if r.passing || r.next != some none then s
    else (s.report { mkRec s.time.now 0x07 0x44 with addr := 0x030000EC0000 + 8 * r.idx, akind := 1, poison := true }).cofEnd 0x39

/-! ### Gates -/

/-- Engine cycles of a gate without a refresh (Table CF-7). -/
def plainCycles (opc : Nat) : Nat := if opc = 1 then 64 else 16

/-- The engine comes to a non-refresh gate (R423): it runs at once, or closes the batch it conflicts with. -/
def State.plainGate (s : State) (opc : Nat) : State :=
  match s.nextGate opc with
  | none => s.gateFault
  | some (r, w) =>
    if conflicts w r.batch then s.beginPass
    else
      let (res, s) := s.cofPlain r.sub.ksid w
      let s := s.cofWrite r.idx (gDst w) r.sub.ksid false false res
      s.modRun (fun r => { r with idx := r.idx + 1, cycles := r.cycles + plainCycles opc })

/-- The engine comes to a refresh gate (R423): in latency mode its pass begins; in batch mode it joins the open batch, or closes
it first. -/
def State.refreshGate (s : State) (opc : Nat) : State :=
  match s.nextGate opc with
  | none => s.gateFault
  | some (r, w) =>
    let g : CofGate := ⟨w, r.idx⟩
    if !r.sub.batch then
      s.setRun (some { r with batch := [g], idx := r.idx + 1, passing := true, second := false, keyFault := false })
    else if conflicts w r.batch || decide (64 < batchPos r.batch + positions w) then s.beginPass
    else s.setRun (some { r with batch := r.batch ++ [g], idx := r.idx + 1 })

/-- LIN (R404, R408). -/
def execLinGate (s : State) : Out := .next (s.plainGate 0x01)
/-- NOT (R404). -/
def execNotGate (s : State) : Out := .next (s.plainGate 0x02)
/-- TRIV (R413). -/
def execTrivGate (s : State) : Out := .next (s.plainGate 0x03)
/-- CONST (R404). -/
def execConstGate (s : State) : Out := .next (s.plainGate 0x04)
/-- AND (R404). -/
def execGateAnd (s : State) : Out := .next (s.refreshGate 0x10)
/-- OR (R404). -/
def execGateOr (s : State) : Out := .next (s.refreshGate 0x11)
/-- XOR (R404). -/
def execGateXor (s : State) : Out := .next (s.refreshGate 0x12)
/-- NAND (R404). -/
def execNand (s : State) : Out := .next (s.refreshGate 0x13)
/-- NOR (R404). -/
def execNor (s : State) : Out := .next (s.refreshGate 0x14)
/-- XNOR (R404). -/
def execXnor (s : State) : Out := .next (s.refreshGate 0x15)
/-- MUX (R404, R409). -/
def execMuxGate (s : State) : Out := .next (s.refreshGate 0x16)
/-- LUT3 (R404). -/
def execLut3 (s : State) : Out := .next (s.refreshGate 0x17)

/-- END (R423, R425, R431): closes the batch, or ends the program. -/
def execEndGate (s : State) : Out :=
  match s.nextGate 0x00 with
  | none => .next s.gateFault
  | some (r, _) =>
    if !r.batch.isEmpty then .next s.beginPass
    else .next ((s.setRun (some { r with cycles := r.cycles + 1 })).cofEnd 0x30)

/-- ENGINE_START (R425, R429): the engine starts the oldest queued submission. -/
def execEngineStart (s : State) : Out :=
  match s.cof.run, s.cof.queue with
  | none, sub :: q =>
    let r : CofRun := { sub := sub, start := s.time.now, idx := 0, batch := [], passing := false, second := false,
                        muxHalf := [], npass := 0, cycles := 0, firsts := [none, none, none, none], keyFault := false,
                        cancel := false }
    .next ((s.setCofQueue q).setRun (some r)).cofShow
  | _, _ => .next s

/-! ### Passes (R421, R422, R435) -/

/-- Where key-set number `k` lies in DRAM (R417). -/
def State.keyBase (s : State) (k : Nat) : Nat := (s.inForce F.COF_KBASE_KBASE.off).toNat * 256 + k * 0x0B700000

/-- Little-endian value of `n` bytes of DRAM. -/
def State.dramLe (s : State) (a n : Nat) : Nat := leNat ((upFrom a n).map s.dramByte)

/-- The key set of a number, as the streamer reads it (R396, R419, R420). -/
def State.keyRd (s : State) (k : Nat) : KeyRd :=
  let b := s.keyBase k
  { bsk := fun i r q j => s.dramLe (b + 4096 + i * 196608 + r * 32768 + q * 16384 + 8 * j) 8,
    ksk := fun e m => s.dramLe (b + 157290496 + e * 3264 + 8 + 4 * m) 4 }

/-- The first poisoned or uncorrectable word of the two keys of a key set. -/
def State.badKeyWord (s : State) (k : Nat) : Option Nat :=
  let lo := (s.keyBase k + 4096) / 8
  let hi := (s.keyBase k + 190713856) / 8
  ((s.dramPoison ++ s.dramBad).find? (fun e => decide (lo ≤ e.1) && decide (e.1 < hi) && e.2)).map (·.1)

/-- The two pre-sums of a MUX, or the pre-sum of another refresh gate: weights of A, B, C and table (Table CF-7). -/
def preSum (w : BitVec 64) (half : Bool) : Int × Int × Int × Nat :=
  if gOpc w = 0x16 then (if half then (2, 0, 1, 0x02) else (2, 1, 0, 0x08))
  else if gOpc w = 0x17 then (1, 2, 4, gTable w) else (1, 1, 0, gTable w)

/-- Pre-sum weight class (R409). -/
def preClass (w : BitVec 64) : Nat := if gOpc w = 0x16 then 3 else if gOpc w = 0x17 then 5 else 1

/-- Reads the sources of a refresh gate. -/
def State.gateSrcs (s : State) (w : BitVec 64) : CofSrc × CofSrc × CofSrc × State :=
  let (a, s) := s.cofSlot (gA w)
  let (b, s) := s.cofSlot (gB w)
  if gOpc w = 0x16 ∨ gOpc w = 0x17 then let (c, s) := s.cofSlot (gC w); (a, b, c, s) else (a, b, b, s)

/-- One refresh of a gate. -/
def oneRefresh (k : KeyRd) (w : BitVec 64) (half : Bool) (a b c : CofSrc) : List Nat :=
  let p := preSum w half
  cofRefresh k p.2.2.2 (cofSum [(p.1, a.co), (p.2.1, b.co), (p.2.2.1, c.co)])

/-- The gates of a pass with their first accumulator positions (R423). -/
def gatePos (p : Nat) : List CofGate → List (Nat × CofGate)
  | [] => []
  | g :: l => (p, g) :: gatePos (p + positions g.word) l

/-- A refresh gate of a pass that ends writes its result (R409–R411); `first` is the first sum of a MUX when its pass is over. -/
def State.gateDone (s : State) (k : Nat) (fault poison : Bool) (first : Option (List Nat)) (g : CofGate) : State :=
  let key := s.keyRd k
  let (a, b, c, s) := s.gateSrcs g.word
  let mux := gOpc g.word == 0x16
  let srcs := if mux || gOpc g.word == 0x17 then [a, b, c] else [a, b]
  let lv := maxLevel srcs + preClass g.word
  let st := statusOf k srcs lv
  let co := if mux then
      cofSum [(1, first.getD (oneRefresh key g.word false a b c)), (1, oneRefresh key g.word true a b c)]
    else oneRefresh key g.word false a b c
  s.cofWrite g.idx (gDst g.word) k fault poison
    { co := co, level := if mux then 1 else 0, trivial := false, spent := st.1, empty := st.2.1, mismatch := st.2.2 }

/-- A poisoned key stream (R435, R436): KEY_FAULT, its record, and the firmware's digest to come. -/
def State.keyFaulted (s : State) (k w : Nat) (batch : List CofGate) : State :=
  let s := (s.setF F.COF_STICKY_KEY_FAULT 1).raiseCause 21
  let idx := (batch.head?).map (·.idx)
  let s := s.modRun (fun r => { r with firsts := if (nth none r.firsts 3).isSome then r.firsts else setNth r.firsts 3 idx })
  let s := s.report { mkRec s.time.now 0x07 0x45 with addr := w * 8, akind := 1, poison := true }
  { s with cof := { s.cof with recheck := if s.cof.recheck.contains k then s.cof.recheck else s.cof.recheck ++ [k] } }

/-- Cycles of a pass (Table CE-3). -/
def passCycles (batch : Bool) : Nat := if batch then 2560000 else 2400000

/-- REFRESH_PASS (R421–R423, R433, R435): the pass that runs ends; its gates write their slots, and a cancelled submission ends. -/
def execRefreshPass (s : State) : Out :=
  match s.cof.run with
  | none => .next s
  | some r =>
    if !r.passing then .next s
    else
      let k := r.sub.ksid
      let bad := s.badKeyWord k
      let s := s.bumpWrap F.COF_PASSES 1
      let s := s.modRun (fun r => { r with npass := r.npass + 1, cycles := r.cycles + passCycles r.sub.batch })
      let s := match bad with
        | some w => if r.keyBad then s else s.keyFaulted k w r.batch
        | none => s
      let fault := bad.isSome || r.keyBad || r.keyFault
      let half := match r.batch with
        | [g] => !r.sub.batch && gOpc g.word == 0x16 && !r.second
        | _ => false
      let s :=
        if half then
          match r.batch with
          | g :: _ =>
            let (a, b, c, s) := s.gateSrcs g.word
            s.modRun (fun q => { q with muxHalf := oneRefresh (s.keyRd k) g.word false a b c, second := true,
                                        keyFault := fault, keyBad := false })
          | [] => s
        else
          let first : Option (List Nat) := if r.second then some r.muxHalf else none
          let lost (p : Nat) (g : CofGate) : Bool := r.accBad.any (fun x => decide (p ≤ x) && decide (x < p + positions g.word))
          ((gatePos 0 r.batch).foldl (fun s g => s.gateDone k fault (lost g.1 g.2) first g.2) s).modRun (fun q =>
            { q with passing := false, batch := [], second := false, muxHalf := [], keyFault := false, keyBad := false, accBad := [] })
      if r.cancel then .next (s.cofEnd 0x39) else .next s.cofShow

/-- Words of an accumulator: two polynomials of 2,048 words (Table CF-1). -/
def accWords : Nat := 4096

/-- Gate program memory with words that can no longer be corrected. -/
def spoilWords (l : List SpWord) (bad : List Nat) : List SpWord :=
  ((upFrom 0 l.length).zip l).map (fun e => if bad.contains e.1 then poisonWord e.2.data else e.2)

/-- KEY_STREAM_DATA (R428): key data arrives after the engine stalled for `n` cycles of the pass that runs. A key word that is bad in
transit or in the key buffer faults the pass, once (R435); single-bit errors are corrected and count in COF_CE (R437); an
accumulator word that cannot be corrected writes COF_UE, and one of gate program memory will when the engine comes to it (R416). -/
def execKeyStreamData (a : KeyArrival) (s : State) : Out :=
  match s.cof.run with
  | none => .next s
  | some r =>
    if !r.passing then .next s
    else
      let k := r.sub.ksid
      let s := (s.bump F.COF_STALL a.n).bump F.COF_CE a.ce
      let s := match a.bad with
        | some w => if r.keyBad then s else (s.keyFaulted k (s.keyBase k / 8 + w) r.batch).modRun (fun r => { r with keyBad := true })
        | none => s
      let s := a.ue.foldl (fun s w =>
        s.report { mkRec s.time.now 0x07 0x44 with addr := 0x030000CC0000 + 8 * w, akind := 1, poison := true }) s
      .next (s.modRun (fun r => { r with accBad := r.accBad ++ a.ue.map (· / accWords),
                                         sub := { r.sub with words := spoilWords r.sub.words a.gate } }))

/-! ### Submissions (R429, R430, Table CE-5) -/

/-- The words of a gate program image. -/
def imageWords (l : List Byte) (n : Nat) : List (BitVec 64) :=
  (upFrom 0 n).map (fun i => BitVec.ofNat 64 (fieldAt l (128 + 8 * i) 8))

/-- The image follows R400. -/
def imageGood (l : List Byte) : Bool :=
  let n := fieldAt l 16 4
  let ws := imageWords l n
  decide (128 ≤ l.length) && fieldAt l 0 4 == 0x5047384E && fieldAt l 4 2 == 1 && zeroAt l 6 7 && zeroAt l 36 127
    && decide (1 ≤ n) && decide (n ≤ 131072) && decide (128 + 8 * n ≤ l.length)
    && (ws.getLast?).elim false (fun w => gOpc w == 0) && (ws.dropLast).all (fun w => gOpc w != 0)

/-- The checks of Table CE-5 on an image, in its order: the code, 0x30 when all pass. -/
def State.cofCheck (s : State) (l : List Byte) (k : Fin 4) (first count : Nat) : Nat :=
  let ks := vget s.cof.keys k
  let ws := imageWords l (fieldAt l 16 4)
  let held := s.cof.queue.foldl (fun a q => a + q.words.length) ((s.cof.run.map (fun r => r.sub.words.length)).getD 0)
  if !ks.loaded then 0x3A
  else if !imageGood l then 0x35
  else if ks.ownerHash ≠ 0 ∧ (fieldAt l 32 4 ≠ 256 ∨ s.checkSig l (fieldAt l 28 4) l.length none ks.ownerHash ≠ .good)
  then 0x36
  else if fieldAt l 8 8 ≠ ks.keyId then 0x37
  else if ws.any (gBad first count) then 0x35
  else if bitsOf (s.getF F.COF_KS_SUSPECT) k.val 1 = 1 then 0x38
  else if 16 ≤ s.cof.queue.length ∨ 131072 < held + ws.length then 0x3B else 0x30

/-- The submission block follows Table CE-4. -/
def blockGood (l : List Byte) : Bool :=
  fieldAt l 0 8 % 256 == 0 && decide (fieldAt l 12 1 ≤ 3) && decide (fieldAt l 13 1 ≤ 1) && zeroAt l 14 15
    && decide (1 ≤ fieldAt l 18 2) && decide (fieldAt l 16 2 + fieldAt l 18 2 ≤ 4096) && zeroAt l 24 63

/-- A submission is refused once its block has been read: its completion echoes the TAG of the block, with no gate named. The times
it carries are not stated: free values (log entry 3). -/
def State.cofRefused (s : State) (b : Fin 2) (e : InFlight) (blk : List Byte) (code : Nat) : State :=
  let (t, s) := s.draw
  let (u, s) := s.draw
  s.finish b e code (cofVals (fieldAt blk 20 4) [none, none, none, none] 0 t.toNat u.toNat)

/-- COFSUB (R429, R430): checks the submission that the next command of the ring names, and queues it. -/
def execCofsub (b : Fin 2) (s : State) : Out :=
  match s.nextCmd b 0x0B with
  | none => .next s
  | some e =>
    if !e.unusedZero [(8, 15)] then .next (s.finish b e cmdBadField [])
    else if s.fwHeld (e.par 8 8) 64 then .next s
    else
      let (blk, t) := s.source (e.par 8 8) 64
      match blk with
      | none => .next (t.finish b e cmdSrcPoison [])
      | some l =>
        let k : Fin 4 := ⟨fieldAt l 12 1 % 4, Nat.mod_lt _ (by decide)⟩
        if !blockGood l then .next (t.cofRefused b e l 0x35)
        else if !(vget t.cof.keys k).loaded then .next (t.cofRefused b e l 0x3A)
        -- R192: the read waits for rows that are held
        else if s.fwHeld (fieldAt l 0 8) (fieldAt l 8 4) then .next s
        else
          let (img, s) := t.source (fieldAt l 0 8) (fieldAt l 8 4)
          match img with
          | none => .next (s.cofRefused b e l cmdSrcPoison)
          | some im =>
            let code := s.cofCheck im k (fieldAt l 16 2) (fieldAt l 18 2)
            if code ≠ 0x30 then .next (s.cofRefused b e l code)
            else
              let sub : CofSub := { bank := b.val, tag := e.tag, irq := e.irq, blkTag := fieldAt l 20 4, ksid := k.val,
                                    batch := fieldAt l 13 1 == 1, first := fieldAt l 16 2, count := fieldAt l 18 2,
                                    words := (imageWords im (fieldAt im 16 4)).map cleanWord }
              .next ((s.accept b).setCofQueue (s.cof.queue ++ [sub])).cofShow

/-! ### Key sets (R395–R398, R417, R436) -/

/-- The header of a key set follows Table CF-4. -/
def keyHeaderGood (l : List Byte) : Bool :=
  fieldAt l 0 4 == 0x534B384E && fieldAt l 4 2 == 1 && fieldAt l 6 2 == 1 && fieldAt l 16 2 == 800
    && fieldAt l 18 2 == 2048 && fieldAt l 20 1 == 3 && fieldAt l 21 1 == 15 && fieldAt l 22 1 == 5
    && fieldAt l 23 1 == 4 && zeroAt l 24 31 && fieldAt l 128 8 == 4096 && fieldAt l 136 8 == 157286400
    && fieldAt l 144 8 == 157290496 && fieldAt l 152 8 == 33423360 && zeroAt l 160 4095

/-- Bytes of a key set up to the end of the key-switching key, and bytes of a key region. -/
def keyLen : Nat := 190713856
def keyRegion : Nat := 0x0B700000

/-- The reserved bytes of a key set are zero: the last 60 of each key-switching entry, and those past the key (R396). -/
def keyPadGood (l : List Byte) : Bool :=
  zeroAt l keyLen keyRegion
    && (upFrom 0 10240).all (fun i => zeroAt l (157290496 + i * 3264) (157290496 + i * 3264 + 7)
      && zeroAt l (157290496 + i * 3264 + 3212) (157290496 + i * 3264 + 3263))

/-- Code of the checks of a key set that is to be loaded as number `k` (R397, R398). -/
def State.keyCheck (s : State) (k : Fin 4) (l : List Byte) : Nat :=
  if (vget s.cof.keys k).loaded then 0x33
  else if l.length < keyLen ∨ keyRegion < l.length ∨ !keyHeaderGood l ∨ !keyPadGood l then 0x31
  else if Config.sha384 ((l.drop 4096).take (keyLen - 4096)) ≠ fieldAt l 80 48 then 0x32
  else if s.cof.keys.toList.any (fun q => q.loaded && q.keyId == fieldAt l 8 8) then 0x34 else 0x30

/-- Replaces a key set. -/
def State.setKey (s : State) (k : Fin 4) (q : KeySet) : State :=
  { s with cof := { s.cof with keys := vset s.cof.keys k q } }

/-- Sets or clears bit `k` of COF_KS.LOADED or SUSPECT. -/
def State.setKs (s : State) (f : Fld) (k : Nat) (v : Nat) : State := s.setF ⟨f.off, f.lo + k, 1⟩ v

/-- KSLOAD (R395–R398): checks a key set and copies it into its region. -/
def execKsload (b : Fin 2) (s : State) : Out :=
  match s.nextCmd b 0x09 with
  | none => .next s
  | some e =>
    let n := e.par 8 1
    let k : Fin 4 := ⟨n % 4, Nat.mod_lt _ (by decide)⟩
    if !e.unusedZero [(8, 8), (16, 31)] || decide (3 < n) then .next (s.finish b e cmdBadField [])
    else if (vget s.cof.keys k).loaded then .next (s.finish b e 0x33 [])
    else if e.par 24 8 < keyLen ∨ keyRegion < e.par 24 8 then .next (s.finish b e 0x31 [])
    else if s.fwHeld (e.par 16 8) (e.par 24 8) then .next s
    else
      let (src, s) := s.source (e.par 16 8) (e.par 24 8)
      match src with
      | none => .next (s.finish b e cmdSrcPoison [])
      | some l =>
        let code := s.keyCheck k l
        if code ≠ 0x30 then .next (s.finish b e code [])
        else
          let s := s.dramPut (s.keyBase n) (l ++ List.replicate (keyRegion - l.length) 0)
          let s := s.setKey k { loaded := true, keyId := fieldAt l 8 8, ownerHash := fieldAt l 32 48,
                                digest := fieldAt l 80 48 }
          let s := (s.setKs F.COF_KS_LOADED n 1).setKs F.COF_KS_SUSPECT n 0
          .next (s.finish b e 0x30 [])

/-- A key set is named by a loaded job or by a submission that is queued or runs (R398). -/
def State.keyInUse (s : State) (k : Nat) : Bool :=
  s.jobs.any (fun j => j.keysets.contains k) || s.cof.queue.any (fun q => q.ksid == k)
    || s.cof.run.any (fun r => r.sub.ksid == k)

/-- Clears VALID in every slot of a key set (R398). -/
def State.dropSlots (s : State) (k : Nat) : State :=
  (upFrom 0 4096).foldl (fun s n =>
    let (h, s) := s.cofWord (n * 408)
    if bitsOf h.1.toNat 4 4 = k ∧ bitsOf h.1.toNat 8 1 = 1 ∧ !h.2 then
      s.cofPut (n * 408) (BitVec.ofNat 64 (h.1.toNat - 256), false)
    else s) s

/-- Forgets a key set. -/
def State.unloadKey (s : State) (k : Fin 4) : State :=
  let s := s.setKey k ⟨false, 0, 0, 0⟩
  (s.setKs F.COF_KS_LOADED k.val 0).setKs F.COF_KS_SUSPECT k.val 0

/-- KSUNLOAD (R398). -/
def execKsunload (b : Fin 2) (s : State) : Out :=
  match s.nextCmd b 0x0A with
  | none => .next s
  | some e =>
    let n := e.par 8 1
    let k : Fin 4 := ⟨n % 4, Nat.mod_lt _ (by decide)⟩
    if !e.unusedZero [(8, 8)] || decide (3 < n) then .next (s.finish b e cmdBadField [])
    else if s.keyInUse n then .next (s.finish b e 0x33 [])
    else if !(vget s.cof.keys k).loaded then .next (s.finish b e 0x3A [])
    else .next (((s.unloadKey k).dropSlots n).finish b e 0x30 [])

/-- KEY_DIGEST_RECHECK (R436): the firmware digests again the oldest key set that met a KEY_FAULT. A region with a word that
still reads poisoned gives no matching digest. -/
def execKeyDigestRecheck (s : State) : Out :=
  match s.cof.recheck with
  | [] => .next s
  | n :: rest =>
    let k : Fin 4 := ⟨n % 4, Nat.mod_lt _ (by decide)⟩
    let bytes := (upFrom (s.keyBase n + 4096) (keyLen - 4096)).map s.dramByte
    let ok := (s.badKeyWord n).isNone && Config.sha384 bytes == (vget s.cof.keys k).digest
    let s := { s with cof := { s.cof with recheck := rest } }
    if ok || !(vget s.cof.keys k).loaded then .next s else .next (s.setKs F.COF_KS_SUSPECT n 1)

/-! ### Host writes and COF_CTRL (R394, R432, R433) -/

/-- SLOT_HEADER_WRITE (R394, R432): a host path writes bytes 0–7 of a slot. -/
def execSlotHeaderWrite (n : Fin 4096) (h : BitVec 64) (s : State) : Out :=
  .next (s.cofHostWrite (n.val * slotBytes) ((leBytes 8 h.toNat).map (fun b => (b, false))))

/-- Every queued submission completes as cancelled (R433). -/
def State.cofFlush (s : State) : State :=
  let q := s.cof.queue
  let s := (s.setCofQueue []).cofShow
  q.foldl (fun s sub =>
    let (a, s) := s.draw
    let (b, s) := s.draw
    s.complete (bankOf sub.bank) sub.tag 0x0B 0x39 (cofVals sub.blkTag [none, none, none, none] 0 a.toNat b.toNat)) s

/-- A write of COF_CTRL (R433, Table CE-7). -/
def State.cofCtrlWrite (s : State) (m : Master) (v : Word) : State :=
  s.regWrite false m F.COF_CTRL_CANCEL.off v.toNat (fun s =>
    let x := v.toNat
    let s := if x % 2 = 1 then
        match s.cof.run with
        | none => s
        | some r => if r.passing then s.setRun (some { r with cancel := true }) else s.cofEnd 0x39
      else s
    let s := if bitsOf x 1 1 = 1 then s.cofFlush else s
    if bitsOf x 2 1 = 1 then
      (((s.setF F.COF_PASSES 0).setF F.COF_STALL 0).setF F.COF_CE 0).setF F.COF_LOCKED 0
    else s)

/-- COF_CANCEL (R433). -/
def execCofCancel (m : Master) (v : Word) (s : State) : Out := .next (s.cofCtrlWrite m (v ||| 1#32))
/-- COF_FLUSH (R433). -/
def execCofFlush (m : Master) (v : Word) (s : State) : Out := .next (s.cofCtrlWrite m (v ||| 2#32))
/-- COF_CLR (Table CE-7). -/
def execCofClr (m : Master) (v : Word) (s : State) : Out := .next (s.cofCtrlWrite m (v ||| 4#32))

end Sys2Proof.Machine
end

