-- ==== Sys2Proof/Machine/Tensor.lean ====
section
/-! DEFINITION. Tensor descriptors (R243–R247), row layouts (Table SP-4, R203), halo reads (R248, R249), bitmap-block
weights (R250–R252), drawers and shelves (R293–R297) and scale tables, over a way to read one word of a row. -/

namespace Sys2Proof.Machine

/-! ### Descriptors (Table IT-2) -/

/-- The fields of a tensor descriptor. -/
structure Desc where
  base : Nat
  space : Bool
  layout : Nat
  etype : Nat
  spfmt : Nat
  pad : Nat
  pitch : Nat
  pstride : Nat
  d0 : Nat
  d1 : Nat
  d2 : Nat
  d3 : Nat
  hbase : Nat
  hl : Nat
  hr : Nat
  arows : Nat
  awnbase : Nat
  scrow : Nat
  sckind : Nat
  group : Nat
  drrow : Nat
  dren : Bool
  shrow : Nat
  shelfn : Nat
  rprow : Nat
deriving DecidableEq, Repr

/-- Reads a descriptor register (Table IT-2). -/
def descOf (v : BitVec 256) : Desc :=
  let f (hi lo : Nat) : Nat := bitsOf v.toNat lo (hi + 1 - lo)
  { base := f 16 0, space := f 17 17 == 1, layout := f 20 18, etype := f 24 21, spfmt := f 26 25, pad := f 28 27,
    pitch := f 43 32, pstride := f 60 44, d0 := f 79 64, d1 := f 95 80, d2 := f 111 96, d3 := f 127 112,
    hbase := f 144 128, hl := f 147 145, hr := f 150 148, arows := f 153 151, awnbase := f 164 154, scrow := f 184 168,
    sckind := f 186 185, group := f 188 187, drrow := f 208 192, dren := f 209 209 == 1, shrow := f 226 210,
    shelfn := f 231 227, rprow := f 248 232 }

/-- No field holds a reserved value and the combination rules hold (R242, R243, R245). -/
def descLegal (v : BitVec 256) : Bool :=
  let f (hi lo : Nat) : Nat := bitsOf v.toNat lo (hi + 1 - lo)
  let d := descOf v
  f 31 29 == 0 && f 63 61 == 0 && f 167 165 == 0 && f 191 189 == 0 && f 255 249 == 0
    && (!d.space || decide (d.base < 2048)) && decide (d.layout ≤ 5) && decide (d.etype ≤ 0xB) && decide (d.spfmt ≤ 1)
    && decide (d.pad ≤ 1) && decide (1 ≤ d.pitch) && decide (1 ≤ d.d0) && decide (1 ≤ d.d1) && decide (1 ≤ d.d2)
    && decide (1 ≤ d.d3) && decide (d.group ≤ 2) && decide (d.shelfn ≤ 16)
    && ((d.layout == 3) == (d.spfmt == 1))
    && (d.layout != 3 || (decide (d.etype ≤ 6) && d.d1 == 1 && d.d2 % 64 == 0))
    && (d.etype != 2 || d.dren)
    && ((d.hl == 0 && d.hr == 0 && d.arows == 0) || d.layout == 0)

/-- The row set (R246). -/
def Desc.rows (d : Desc) : List Nat :=
  (upFrom 0 d.d3).flatMap (fun z => (upFrom 0 d.d1).flatMap (fun y =>
    upFrom (d.base + z * d.pstride + y * d.pitch) d.pitch))

/-- Bits of an element. -/
def Desc.bits (d : Desc) : Nat := etBits d.etype

/-- Group size G. -/
def Desc.g (d : Desc) : Nat := 32 * 2 ^ d.group

/-- Entries of the descriptor that elements have: layouts PM, CM and CB. -/
def Desc.dense (d : Desc) : Bool := decide (d.layout ≤ 2)

/-- Smallest power of two that is at least `n`, up to 1024. -/
def upPow2 (n : Nat) : Nat := ([1, 2, 4, 8, 16, 32, 64, 128, 256, 512].find? (fun p => n ≤ p)).getD 1024

/-- Bytes of a position in PM (Table SP-4). -/
def pmBytes (c bits : Nat) : Nat := upPow2 ((c * bits + 7) / 8)

/-- Positions a row holds: whole positions in PM, positions of a channel in CM, of a 64-channel block in CB. -/
def Desc.perRow (d : Desc) : Nat :=
  if d.layout = 0 then 512 / pmBytes d.d2 d.bits else if d.layout = 1 then 4096 / d.bits else 64 / d.bits

/-- Rows of one channel (CM), one channel block (CB) or the whole spatial row (PM). -/
def Desc.run (d : Desc) : Nat := if d.perRow = 0 then 0 else (d.d0 + d.perRow - 1) / d.perRow

/-- Rows that one spatial row fills (R203). -/
def Desc.used (d : Desc) : Nat :=
  if d.layout = 0 then d.run else if d.layout = 1 then d.d2 * d.run else (d.d2 + 63) / 64 * d.run

/-- Row within the spatial row, and bit within it, of position `x` and channel `c`. -/
def Desc.place (d : Desc) (x c : Nat) : Nat × Nat :=
  let n := d.perRow
  if d.layout = 0 then (x / n, x % n * (pmBytes d.d2 d.bits * 8) + c * d.bits)
  else if d.layout = 1 then (c * d.run + x / n, x % n * d.bits)
  else (c / 64 * d.run + x / n, x % n * (64 * d.bits) + c % 64 * d.bits)

/-- The position and channel at element slot `i` of row `j` of a spatial row, if it holds one. -/
def Desc.locate (d : Desc) (j i : Nat) : Option (Nat × Nat) :=
  let n := d.perRow
  let (x, c) :=
    if d.layout = 0 then
      let s := pmBytes d.d2 d.bits * 8 / d.bits
      (if i / s < n then j * n + i / s else d.d0, i % s)
    else if d.layout = 1 then (j % d.run * n + i, j / d.run)
    else (j % d.run * n + i / 64, j / d.run * 64 + i % 64)
  if x < d.d0 ∧ c < d.d2 then some (x, c) else none

/-- First row of spatial row (y, z). -/
def Desc.rowAt (d : Desc) (y z : Nat) : Nat := d.base + z * d.pstride + y * d.pitch

/-- Rows that hold elements, as (z, y, j). -/
def Desc.cells (d : Desc) : List (Nat × Nat × Nat) :=
  (upFrom 0 d.d3).flatMap (fun z => (upFrom 0 d.d1).flatMap (fun y => (upFrom 0 d.used).map (fun j => (z, y, j))))

/-- Number of an element in element order (R290): row-set order, then byte order within a row. -/
def Desc.elemNo (d : Desc) (x y c z : Nat) : Nat :=
  let at_ :=
    if d.layout = 0 then x * d.d2 + c
    else if d.layout = 1 then c * d.d0 + x
    else c / 64 * 64 * d.d0 + x * min 64 (d.d2 - c / 64 * 64) + c % 64
  (z * d.d1 + y) * (d.d0 * d.d2) + at_

/-- Elements of a tensor. -/
def Desc.elems (d : Desc) : Nat := d.d0 * d.d1 * d.d2 * d.d3

/-- Scale rows: positions, or output channels of a BB tensor (R275). -/
def Desc.scaleRows (d : Desc) : Nat := if d.layout = 3 then d.d3 else d.d0 * d.d1 * d.d3

/-- The scale row of a position. -/
def Desc.scaleNo (d : Desc) (x y z : Nat) : Nat := (z * d.d1 + y) * d.d0 + x

/-! ### Reading elements -/

/-- A way to read word `i` of row `r` of the scratchpad (false) or awning buffer (true): data and poison. -/
abbrev Rd := Bool → Nat → Nat → BitVec 64 × Bool

/-- A value and whether it derives from a poisoned word (R183). -/
structure PV where
  v : FV
  p : Bool
deriving DecidableEq, Repr

/-- A clean value. -/
def clean (v : FV) : PV := ⟨v, false⟩

/-- `w` bits at a bit offset counted from row `r`; they lie in one word. -/
def bitsAt (m : Rd) (awn : Bool) (r bit w : Nat) : Nat × Bool :=
  let (d, p) := m awn (r + bit / 4096) (bit % 4096 / 64)
  (bitsOf d.toNat (bit % 64) w, p)

/-- `n` bytes at a byte offset counted from row `r`, little-endian. -/
def bytesAt (m : Rd) (awn : Bool) (r : Nat) : Nat → Nat → Nat × Bool
  | _, 0 => (0, false)
  | b, n + 1 =>
    let (x, p) := bitsAt m awn r (8 * b) 8
    let (y, q) := bytesAt m awn r (b + 1) n
    (x + 256 * y, p || q)

/-- The code of element (x, y, c, z). -/
def Desc.code (d : Desc) (m : Rd) (x y c z : Nat) : Nat × Bool :=
  let (j, b) := d.place x c
  bitsAt m d.space (d.rowAt y z + j) b d.bits

/-- Element (x, y, c, z) as the array reads it: an escape code is 0 (R293). -/
def Desc.elt (d : Desc) (m : Rd) (x y c z : Nat) : PV :=
  let (v, p) := d.code m x y c z
  ⟨etDecode d.etype v, p⟩

/-! ### Drawers (R293, R295) -/

/-- Escape codes before element slot `i` of a row. -/
def escBefore (m : Rd) (awn : Bool) (r i : Nat) : Nat :=
  ((upFrom 0 i).filter (fun n => (bitsAt m awn r (4 * n) 4).1 == 8)).length

/-- Entry `k` of the drawer of data row `i`. -/
def Desc.drawer (d : Desc) (m : Rd) (i k : Nat) : Nat × Bool :=
  bitsAt m false (d.drrow + i / 16) (256 * (i % 16) + 32 * k) 32

/-- The escaped value at slot `e` of data row `i`, row `r`: its drawer entry's VALUE, or 0 for a bad one (R295). The
second part says that the drawer is bad there. -/
def Desc.escaped (d : Desc) (m : Rd) (r i e : Nat) : PV × Bool :=
  let k := escBefore m d.space r e
  let (w, p) := d.drawer m i k
  if 8 ≤ k ∨ bitsOf w 0 10 ≠ e then (clean (fvInt 0), true) else (⟨fvInt (signed 16 (bitsOf w 10 16)), p⟩, false)

/-- Element (x, y, c, z) as a unit other than the array reads it: an escape code gives the drawer's value. -/
def Desc.eltD (d : Desc) (m : Rd) (x y c z : Nat) : PV :=
  let (j, b) := d.place x c
  let r := d.rowAt y z + j
  let (v, p) := bitsAt m d.space r b d.bits
  if d.etype = 2 ∧ v = 8 then
    let q := (d.escaped m r ((z * d.d1 + y) * d.pitch + j) (b / 4)).1
    ⟨q.v, q.p || p⟩
  else ⟨etDecode d.etype v, p⟩

/-- Some escape code of the tensor's rows has no good drawer entry (R295). -/
def Desc.drawerBad (d : Desc) (m : Rd) : Bool :=
  d.etype == 2 && d.dense && d.cells.any (fun q =>
    let r := d.rowAt q.2.1 q.1 + q.2.2
    (upFrom 0 1024).any (fun e =>
      (bitsAt m d.space r (4 * e) 4).1 == 8 && (d.escaped m r ((q.1 * d.d1 + q.2.1) * d.pitch + q.2.2) e).2))

/-- Some row of the tensor holds more escape codes than its drawer has entries: a unit that reads escape codes as 0 finds that
of R295 without reading the drawer. -/
def Desc.ninth (d : Desc) (m : Rd) : Bool :=
  d.etype == 2 && d.dense && d.cells.any (fun q =>
    decide (8 < escBefore m d.space (d.rowAt q.2.1 q.1 + q.2.2) 1024))

/-- Element (x, y, c, z) as the vector and quantise units (`dr`) or the array read it. -/
def Desc.eltBy (d : Desc) (dr : Bool) (m : Rd) (x y c z : Nat) : PV := if dr then d.eltD m x y c z else d.elt m x y c z

/-- Drawer rows of a tensor. -/
def Desc.drawerRows (d : Desc) : List Nat :=
  if d.etype = 2 then upFrom d.drrow ((d.d3 * d.d1 * d.pitch + 15) / 16) else []

/-! ### Shelves (R296, R297) -/

/-- The good entries of the shelf list: ascending and below DIM2 up to the first that is not. -/
def goodShelf (lim : Nat) : Option Nat → List Nat → List Nat
  | _, [] => []
  | prev, c :: cs =>
    if c < lim ∧ prev.all (fun b => decide (b < c)) then c :: goodShelf lim (some c) cs else []

/-- The listed entries of the shelf list. -/
def Desc.shelfList (d : Desc) (m : Rd) : List Nat :=
  (upFrom 0 d.shelfn).map (fun i => (bitsAt m false d.shrow (16 * i) 16).1)

/-- The shelf channels. -/
def Desc.shelf (d : Desc) (m : Rd) : List Nat := goodShelf d.d2 none (d.shelfList m)

/-- The shelf list has a bad entry (R296). -/
def Desc.shelfBad (d : Desc) (m : Rd) : Bool := (d.shelf m).length != d.shelfn

/-- Shelf value of list index `j` at a position: layout PM, 32 bytes a position (R297). -/
def Desc.shelfAt (d : Desc) (m : Rd) (x y z j : Nat) : PV :=
  let r := d.shrow + 1 + (z * d.d1 + y) * ((d.d0 + 15) / 16) + x / 16
  let (v, p) := bitsAt m false r (256 * (x % 16) + 16 * j) 16
  ⟨fvInt (signed 16 v), p⟩

/-- Shelf weight of output channel `o`, list index `j` (R297). -/
def Desc.shelfW (d : Desc) (m : Rd) (o j : Nat) : PV :=
  let (v, p) := bitsAt m false (d.shrow + 1) (16 * (o * d.shelfn + j)) 16
  ⟨fvInt (signed 16 v), p⟩

/-- Rows of a shelf structure: the list, and the values of an activation tensor or the weights of a weight tensor. -/
def Desc.shelfRows (d : Desc) (weights : Bool) : List Nat :=
  if d.shelfn = 0 then []
  else upFrom d.shrow (1 + (if weights then (d.d3 * d.shelfn * 2 + 511) / 512 else d.d3 * d.d1 * ((d.d0 + 15) / 16)))

/-! ### Scale tables (Table SP-4, layout SC) -/

/-- Entries of one scale row. -/
def Desc.scPer (d : Desc) : Nat := if d.sckind = 2 then 128 else 256

/-- Entry `i` of the scale table. -/
def Desc.scale (d : Desc) (m : Rd) (i : Nat) : PV :=
  let w := if d.sckind = 2 then 32 else 16
  let (v, p) := bitsAt m false (d.scrow + i / d.scPer) (i % d.scPer * w) w
  ⟨if d.sckind = 2 then fpVal v else fp16.decode v, p⟩

/-- Rows of a scale table of `n` entries. -/
def Desc.scaleTab (d : Desc) (n : Nat) : List Nat :=
  if d.sckind = 0 then [] else upFrom d.scrow ((n + d.scPer - 1) / d.scPer)

/-! ### Spatial reads (R248, R249) -/

/-- What the stripe gives a unit: the frame edges of INFO selector 0x07, an aborted previous stripe, E5M2_INF. -/
structure UEnv where
  left : Bool
  right : Bool
  top : Bool
  flush : Bool
  aborted : Bool
  e5inf : Bool
deriving DecidableEq, Repr

/-- The value of a halo code: no drawer is laid down for halo rows, so the value that a unit other than the array finds
for an escape code there is not stated (log entry 22). -/
def Desc.haloVal (d : Desc) (dr : Bool) (v : Nat) (key : List Nat) : FV :=
  if dr && d.etype == 2 && v == 8 then fvInt (signed 16 (Config.openOp 68 key)) else etDecode d.etype v

/-- An element of a halo block of `h` positions at block row `r` (R248): packed by spatial row, position, channel. The
spec gives the block no planes: past plane 0 its value is not stated (log entry 22). -/
def Desc.halo (d : Desc) (dr : Bool) (m : Rd) (r h p y c z : Nat) : PV :=
  let b := ((y * h + p) * d.d2 + c) * d.bits
  if z = 0 then
    let (v, q) := bitsAt m false r b d.bits
    ⟨d.haloVal dr v [r, b], q⟩
  else clean (etDecode d.etype (Config.openOp 20 [r, b, z] % 2 ^ d.bits))

/-- First row of the right halo block. -/
def Desc.hright (d : Desc) : Nat := d.hbase + (d.hl * d.d1 * d.d2 * d.bits + 4095) / 4096

/-- An element of the upper halo: PM rows of width DIM0 + HL + HR in the awning buffer. -/
def Desc.upper (d : Desc) (dr : Bool) (m : Rd) (x r c z : Nat) : PV :=
  let wide : Desc := { d with base := d.awnbase, space := true, d0 := d.d0 + d.hl + d.hr, layout := 0 }
  let wide : Desc := { wide with pitch := wide.run }
  if z = 0 then
    let (v, q) := wide.code m x r c 0
    ⟨d.haloVal dr v [x, r, c], q⟩
  else clean (etDecode d.etype (Config.openOp 21 [x, r, c, z] % 2 ^ d.bits))

/-- An integer kept within bounds. -/
def clampTo (lo hi i : Int) : Int := max lo (min hi i)

/-- Is position (x, y) replaced by the edge rule (R249)? Column part, row part. -/
def Desc.offFrame (d : Desc) (e : UEnv) (x y : Int) : Bool × Bool :=
  ((e.left && decide (x < 0)) || (e.right && decide ((d.d0 : Int) ≤ x)),
   ((e.top || e.aborted) && decide (y < 0)) || (e.flush && decide ((d.d1 : Int) ≤ y)))

/-- Element (x, y, c, z) of a tensor widened by its halo, under the edge rule (R248, R249), read with its drawers (`dr`) or as
the array reads it. -/
def Desc.input (d : Desc) (dr : Bool) (m : Rd) (e : UEnv) (x y : Int) (c z : Nat) : PV :=
  let (cp, rp) := d.offFrame e x y
  if (cp || rp) && d.pad == 0 then clean (fvInt 0)
  else
    let x := if cp then clampTo 0 ((d.d0 : Int) - 1) x else x
    let y := if rp then clampTo 0 ((d.d1 : Int) - 1) y else y
    if y < 0 then d.upper dr m (x + d.hl).toNat (y + d.arows).toNat c z
    else if x < 0 then d.halo dr m d.hbase d.hl (x + d.hl).toNat y.toNat c z
    else if (d.d0 : Int) ≤ x then d.halo dr m d.hright d.hr (x - d.d0).toNat y.toNat c z
    else d.eltBy dr m x.toNat y.toNat c z

/-- Rows of the halo blocks and the upper halo that a unit reads: none whose data the PAD rule replaces (R249). -/
def Desc.haloRows (d : Desc) (e : UEnv) : List (Bool × Nat) :=
  let n (h : Nat) : Nat := (h * d.d1 * d.d2 * d.bits + 4095) / 4096
  let wide : Desc := { d with d0 := d.d0 + d.hl + d.hr, layout := 0 }
  let rows (awn : Bool) (off : Bool) (l : List Nat) : List (Bool × Nat) := if off then [] else l.map (fun r => (awn, r))
  rows false e.left (upFrom d.hbase (n d.hl)) ++ rows false e.right (upFrom (d.hbase + n d.hl) (n d.hr))
    ++ rows true (e.top || e.aborted) (upFrom d.awnbase (d.arows * wide.run))

/-! ### Weights -/

/-- One block of a bitmap-block channel: mask, byte of its first value, poison. -/
structure BBlk where
  mask : Nat
  at_ : Nat
  p : Bool
deriving DecidableEq, Repr

/-- Number of set bits below bit `i`. -/
def popBelow (mask i : Nat) : Nat := ((upFrom 0 i).filter (fun b => bitsOf mask b 1 == 1)).length

/-- The blocks of a channel from byte `b` on (R250). -/
def Desc.blocks (d : Desc) (m : Rd) : Nat → Nat → Bool → List BBlk
  | 0, _, _ => []
  | n + 1, b, p =>
    let (mask, q) := bytesAt m d.space d.base b 8
    let z := popBelow mask 64
    ⟨mask, b + 8, p || q⟩ :: Desc.blocks d m n (b + 8 + (z * d.bits + 7) / 8) (p || q)

/-- Byte offset of output channel `o` from the row-pointer table (R251). -/
def Desc.bbStart (d : Desc) (m : Rd) (o : Nat) : Nat × Bool :=
  let (w, p) := bitsAt m false (d.rprow + o / 128) (32 * (o % 128)) 32
  (bitsOf w 0 26, p)

/-- The value of channel bit `i` of a block: none when it is not present. -/
def Desc.blockAt (d : Desc) (m : Rd) (b : BBlk) (i : Nat) : Option PV :=
  if bitsOf b.mask i 1 = 0 then none
  else
    let e := popBelow b.mask i * d.bits
    let (v, p) := bytesAt m d.space d.base (b.at_ + e / 8) (if d.bits = 16 then 2 else 1)
    some ⟨etDecode d.etype (if d.bits = 4 then bitsOf v (e % 8) 4 else v), b.p || p⟩

/-- Weights of one output channel by kernel position and input channel: none where there is no slot. A present weight of
a shelf channel is ignored (R252). -/
def Desc.weights (d : Desc) (m : Rd) (shelf : List Nat) (o : Nat) : List (List (Option PV)) :=
  if d.layout = 3 then
    let nb := d.d2 / 64
    let (b0, p) := d.bbStart m o
    let bl := d.blocks m (d.d0 * nb) b0 p
    (upFrom 0 d.d0).map (fun k => (upFrom 0 d.d2).map (fun c =>
      if shelf.contains c then none else d.blockAt m (nth ⟨0, 0, false⟩ bl (k * nb + c / 64)) (c % 64)))
  else
    (upFrom 0 d.d0).map (fun k => (upFrom 0 d.d2).map (fun c => some (d.elt m k 0 c o)))

/-- Rows of a BB tensor's stream: up to the end of its furthest channel. -/
def Desc.bbRows (d : Desc) (m : Rd) : List Nat :=
  let ends := (upFrom 0 d.d3).map (fun o =>
    let (b0, p) := d.bbStart m o
    (d.blocks m (d.d0 * (d.d2 / 64)) b0 p).foldl (fun a b => max a (b.at_ + (popBelow b.mask 64 * d.bits + 7) / 8)) b0)
  upFrom d.base ((ends.foldl max 0 + 511) / 512)

/-- Rows that a weight operand reads: its row set; for BB its stream and its row-pointer table. -/
def Desc.weightRows (d : Desc) (m : Rd) : List (Bool × Nat) :=
  if d.layout = 3 then
    (d.bbRows m).map (fun r => (d.space, r)) ++ (upFrom d.rprow ((d.d3 + 127) / 128)).map (fun r => (false, r))
  else d.rows.map (fun r => (d.space, r))

/-! ### Writing a tensor -/

/-- One element to write: code, poison, saturations counted, and whether it met a NaN or infinity. -/
structure Res where
  code : Nat
  p : Bool
  sat : Nat
  nonfin : Bool
deriving DecidableEq, Repr

/-- An element from a conversion. -/
def resOf (c : Conv) (p : Bool) : Res := ⟨c.code, p, if c.sat then 1 else 0, c.nonfin⟩

/-- What a unit writes and counts. -/
structure UOut where
  rows : List (Bool × Nat × List (BitVec 64 × Bool))
  sat : Nat
  nonfin : Bool
  drawerBad : Bool
  histFb : Bool
  shelfBad : Bool
  arr : Nat
  dense : Nat
  scene : Option (Nat × Nat)
  smem : List (Nat × List Byte)
  /-- Check blocks with a saturated cell (R443): first output channel / 16, first position / 16. -/
  satBlocks : List (Nat × Nat)
deriving DecidableEq, Repr

/-- Nothing written. -/
def UOut.none : UOut :=
  { rows := [], sat := 0, nonfin := false, drawerBad := false, histFb := false, shelfBad := false, arr := 0, dense := 0,
    scene := Option.none, smem := [], satBlocks := [] }

/-- Two outputs together. -/
def UOut.and (a b : UOut) : UOut :=
  { rows := a.rows ++ b.rows, sat := a.sat + b.sat, nonfin := a.nonfin || b.nonfin,
    drawerBad := a.drawerBad || b.drawerBad, histFb := a.histFb || b.histFb, shelfBad := a.shelfBad || b.shelfBad,
    arr := a.arr + b.arr, dense := a.dense + b.dense, scene := a.scene <|> b.scene, smem := a.smem ++ b.smem,
    satBlocks := a.satBlocks ++ b.satBlocks }

/-- Word `w` of a row of a tensor: each element slot written by `val`, kept where it answers none, zero where the row has
no element (R203). -/
def buildWord (bits : Nat) (old : BitVec 64 × Bool) (val : Nat → Option (Option Res)) (w : Nat) :
    (BitVec 64 × Bool) × Nat × Bool :=
  let n := 64 / bits
  (upFrom 0 n).foldl (fun (acc : (BitVec 64 × Bool) × Nat × Bool) i =>
    let ((d, p), s, nf) := acc
    match val (w * n + i) with
    | none => acc
    | some none =>
      ((BitVec.ofNat 64 (d.toNat + bitsOf old.1.toNat (i * bits) bits * 2 ^ (i * bits)), p || old.2), s, nf)
    | some (some r) =>
      ((BitVec.ofNat 64 (d.toNat + r.code % 2 ^ bits * 2 ^ (i * bits)), p || r.p), s + r.sat, nf || r.nonfin))
    ((0, false), 0, false)

/-- A row of `bits`-wide element slots. -/
def buildRow (m : Rd) (awn : Bool) (r bits : Nat) (val : Nat → Option (Option Res)) : UOut :=
  let ws := (upFrom 0 64).map (fun w => buildWord bits (m awn r w) val w)
  { UOut.none with rows := [(awn, r, ws.map (·.1))], sat := ws.foldl (fun a w => a + w.2.1) 0,
                   nonfin := ws.any (fun w => w.2.2) }

/-- Outputs of a list together. -/
def gather (l : List UOut) : UOut := l.foldl UOut.and UOut.none

/-- The rows of a tensor whose element (x, y, c, z) is `val x y c z`; none keeps the element. -/
def Desc.build (d : Desc) (m : Rd) (val : Nat → Nat → Nat → Nat → Option Res) : UOut :=
  gather (d.cells.map (fun q =>
    buildRow m d.space (d.rowAt q.2.1 q.1 + q.2.2) d.bits (fun i =>
      (d.locate q.2.2 i).map (fun xc => val xc.1 q.2.1 xc.2 q.1))))

/-- A value on its way into an element: the quotient x / y under a rounding mode (R286), poison, saturations counted before
it, and whether its INT32 work saturated, which counts once together with the conversion (R259). -/
structure Elt where
  x : FV
  y : FV
  md : ConvMode
  p : Bool
  sat : Nat
  wide : Bool
deriving DecidableEq, Repr

/-- The element in a type other than INT4E. -/
def Elt.res (t : Nat) (a : Elt) : Res :=
  let c := convert t a.md a.x a.y
  ⟨c.code, a.p, a.sat + (if c.sat || a.wide then 1 else 0), c.nonfin⟩

/-- What a unit does with one element of its destination: converts a value into it, writes a code, or keeps it, poisoned
where the choice to keep it rests on poison. -/
inductive Put where
  | conv (a : Elt)
  | raw (code : Nat) (p : Bool)
  | keep (p : Bool)
deriving DecidableEq, Repr

/-- An element of an INT4E row before it is placed (R294): the integer, whether it is beyond a drawer value, poison, NONFIN,
the drawer entry of an escaped element that is kept, saturations counted before it. -/
structure EscV where
  v : Int
  out : Bool
  p : Bool
  nf : Bool
  word : Option Nat
  sat : Nat
deriving DecidableEq, Repr

/-- Codes of an INT4E row, and its drawer entries (R293, R294, R277). `k` entries are used before slot `i`; a kept escape
takes an entry again as it stands (log entry 111). -/
def escCodes : Nat → Nat → List (Option EscV) → List (Option Res) × List (Nat × Bool)
  | _, _, [] => ([], [])
  | k, i, none :: l =>
    let (a, b) := escCodes k (i + 1) l
    (none :: a, b)
  | k, i, some e :: l =>
    if -7 ≤ e.v ∧ e.v ≤ 7 ∧ e.word.isNone then
      let (a, b) := escCodes k (i + 1) l
      (some ⟨unsigned 4 e.v, e.p, e.sat, e.nf⟩ :: a, b)
    else if k < 8 then
      let (a, b) := escCodes (k + 1) (i + 1) l
      (some ⟨8, e.p, e.sat + (if e.out then 1 else 0), e.nf⟩ :: a,
       (e.word.getD (i + unsigned 16 (clampTo (-32767) 32767 e.v) * 1024), e.p) :: b)
    else
      let (a, b) := escCodes k (i + 1) l
      (some ⟨unsigned 4 (clampTo (-7) 7 e.v), e.p, e.sat + (if -7 ≤ e.v ∧ e.v ≤ 7 then 0 else 1), e.nf⟩ :: a, b)

/-- The element of an INT4E tensor at slot `i` of row `j` of spatial row (y, z) as it stands. -/
def Desc.kept (d : Desc) (m : Rd) (z y j i : Nat) (p : Bool) : EscV :=
  let r := d.rowAt y z + j
  let n := (z * d.d1 + y) * d.pitch + j
  let (v, q) := bitsAt m d.space r (4 * i) 4
  if v = 8 then
    let a := (d.escaped m r n i).1
    let k := escBefore m d.space r i
    ⟨fvToInt a.v, false, p || q || a.p, false, some (if k < 8 then (d.drawer m n k).1 else 0), 0⟩
  else ⟨signed 4 v, false, p || q, false, none, 0⟩

/-- An INT4E row's element from what is done with it. -/
def Desc.escV (d : Desc) (m : Rd) (z y j i : Nat) : Put → EscV
  | .conv a => let r := roundInt a.md a.x a.y; ⟨r.v, r.out, a.p, r.nf, none, a.sat⟩
  | .raw v p => ⟨signed 4 v, false, p, false, none, 0⟩
  | .keep p => d.kept m z y j i p

/-- The rows and drawers of an INT4E destination (R294). -/
def buildEsc (m : Rd) (d : Desc) (val : Nat → Nat → Nat → Nat → Put) : UOut :=
  let row (z y j : Nat) : List (Option EscV) :=
    (upFrom 0 1024).map (fun i => (d.locate j i).map (fun xc => d.escV m z y j i (val xc.1 y xc.2 z)))
  let main := gather (d.cells.map (fun q =>
    let codes := (escCodes 0 0 (row q.1 q.2.1 q.2.2)).1
    buildRow m d.space (d.rowAt q.2.1 q.1 + q.2.2) 4 (fun i => (nth none codes i).map some)))
  let entries (n : Nat) : List (Nat × Bool) :=
    let j := n % d.pitch
    if j < d.used ∧ n / d.pitch < d.d1 * d.d3 then
      (escCodes 0 0 (row (n / d.pitch / d.d1) (n / d.pitch % d.d1) j)).2
    else []
  let dr := gather ((d.drawerRows).map (fun r =>
    buildRow m false r 32 (fun s =>
      let e := nth (0, false) (entries ((r - d.drrow) * 16 + s / 8)) (s % 8)
      some (some ⟨e.1, e.2, 0, false⟩))))
  main.and dr

/-- Writes a tensor: an INT4E one through its drawers, so that a value beyond ±7 is escaped (R291, Table NN-3). -/
def Desc.put (d : Desc) (m : Rd) (val : Nat → Nat → Nat → Nat → Put) : UOut :=
  if d.etype = 2 then buildEsc m d val
  else d.build m (fun x y c z =>
    match val x y c z with
    | .conv a => some (a.res d.etype)
    | .raw v p => some ⟨v, p, 0, false⟩
    | .keep p => if p then some ⟨(d.code m x y c z).1, true, 0, false⟩ else none)

/-- Table rows from row `r` of `n` entries of `bits` bits, zero past the last (Table SP-4, layout SC). -/
def buildTable (m : Rd) (r bits n : Nat) (val : Nat → Res) : UOut :=
  let per := 4096 / bits
  gather ((upFrom 0 ((n + per - 1) / per)).map (fun j =>
    buildRow m false (r + j) bits (fun i => if j * per + i < n then some (some (val (j * per + i))) else none)))

end Sys2Proof.Machine
end

