-- ==== Sys2Proof/Machine/ArrayOps.lean ====
section
/-! DEFINITION. Array products: CONV, MMUL, WINO, BWD and XFIX (R254–R258, R299, R305, R308), and the array's step cycles
(R151–R154). -/

namespace Sys2Proof.Machine

/-! ### Parameters -/

/-- Kernel height and width, stride and dilation (Table IT-4). -/
structure ConvP where
  kh : Nat
  kw : Nat
  s : Nat
  dl : Nat
deriving DecidableEq, Repr

/-- CONV's AUX. -/
def convP (aux : Nat) : ConvP :=
  { kh := 2 * bitsOf aux 0 2 + 1, kw := 2 * bitsOf aux 2 2 + 1, s := 1 + bitsOf aux 4 2, dl := 1 + bitsOf aux 6 2 }

/-- A 1 × 1 kernel with stride 1 (R254). -/
def oneP : ConvP := ⟨1, 1, 1, 1⟩

/-- Input column of output column `x` at kernel column `i` (R248). -/
def ConvP.col (p : ConvP) (x i : Nat) : Int := (p.s * x + p.dl * i : Nat) - (p.dl * ((p.kw - 1) / 2) : Nat)

/-- Input row of output row `y` at kernel row `j`, with `a` upper halo rows (R248). -/
def ConvP.row (p : ConvP) (a y j : Nat) : Int := (p.s * y + p.dl * j : Nat) - (a : Int)

/-- One product of a sum: kernel position, input channel, activation, weight. -/
structure Term where
  k : Nat
  c : Nat
  a : PV
  w : PV
deriving DecidableEq, Repr

/-- The products of output (x, y, z): kernel position, then input channel, ascending (R305). -/
def convTerms (m : Rd) (e : UEnv) (da : Desc) (p : ConvP) (ws : List (List (Option PV))) (x y z : Nat) : List Term :=
  (upFrom 0 (p.kh * p.kw)).flatMap (fun k =>
    let xi := p.col x (k % p.kw)
    let yi := p.row da.arows y (k / p.kw)
    let w := nth [] ws k
    (upFrom 0 w.length).filterMap (fun c =>
      match nth none w c with
      | none => none
      | some v => some ⟨k, c, if c < da.d2 then da.input false m e xi yi c z else clean (fvInt 0), v⟩))

/-- A term touches poison. -/
def Term.p (t : Term) : Bool := t.a.p || t.w.p

/-! ### Sums (R305) -/

/-- INT32 bounds. -/
def int32Lo : Int := -2147483648
def int32Hi : Int := 2147483647

/-- Adds exact integers into an INT32 accumulator, each addition saturating and counted (R291, R305). -/
def intSum (acc : Int) (l : List Int) : Int × Nat :=
  l.foldl (fun (a : Int × Nat) v =>
    let x := a.1 + v
    (clampTo int32Lo int32Hi x, if x < int32Lo ∨ int32Hi < x then a.2 + 1 else a.2)) (acc, 0)

/-- The exact integer product of a term. -/
def Term.int (t : Term) : Int := fvToInt t.a.v * fvToInt t.w.v

/-- Adds exact products into an FP32 accumulator, each addition rounded RNA (R305). -/
def floatSum (acc : FV) (l : List FV) : FV := l.foldl (fun a v => toF32 (fvAdd a v)) acc

/-- FP32 code of a value. -/
def f32Code (v : FV) : Nat := (convert 9 rna v fvOne).code

/-- An accumulator written back: INT32 or FP32. -/
def accRes (t : Nat) (acc : FV) (p : Bool) (prods : List FV) : Res :=
  if t = 8 then
    let (v, n) := intSum (fvToInt acc) (prods.map fvToInt)
    ⟨unsigned 32 v, p, n, false⟩
  else ⟨f32Code (floatSum acc prods), p, 0, false⟩

/-- The group-rescaled sum (R308): per kernel position and group of G channels, the INT32 partial sum, converted, scaled
and added, each rounded RNA. -/
def grsSum (m : Rd) (db : Desc) (o : Nat) (acc : FV) (l : List Term) : FV × Bool :=
  let ng := db.d2 / db.g
  (upFrom 0 (db.d0 * ng)).foldl (fun (a : FV × Bool) i =>
    let g := i % ng
    let ts := l.filter (fun t => t.k == i / ng && t.c / db.g == g)
    let s := db.scale m (o * ng + g)
    let q := fmul (toF32 (fvInt (ts.foldl (fun x t => x + t.int) 0))) s.v
    (fadd a.1 q, a.2 || s.p)) (acc, false)

/-! ### Escape codes of bitmap-block weights (R293, R295) -/

/-- Value slots of a BB tensor of a 4-bit type, in ascending order: nibble number, output channel, and kernel position ×
DIM2 + input channel. -/
def Desc.bbSlots (d : Desc) (m : Rd) : List (Nat × Nat × Nat) :=
  (upFrom 0 d.d3).flatMap (fun o =>
    let (b0, p) := d.bbStart m o
    let bl := d.blocks m (d.d0 * (d.d2 / 64)) b0 p
    (upFrom 0 (d.d0 * d.d2)).filterMap (fun c =>
      let b := nth ⟨0, 0, false⟩ bl (c / 64)
      if bitsOf b.mask (c % 64) 1 = 1 then some (b.at_ * 2 + popBelow b.mask (c % 64), o, c) else none))

/-- The code of a nibble of a BB tensor. -/
def Desc.nibble (d : Desc) (m : Rd) (n : Nat) : Nat × Bool :=
  let (v, p) := bytesAt m d.space d.base (n / 2) 1
  (v / 16 ^ (n % 2) % 16, p)

/-- The nibble is an escape code. -/
def Desc.bbEsc (d : Desc) (m : Rd) (n : Nat) : Bool := d.etype == 2 && (d.nibble m n).1 == 8

/-- The escaped value of a BB nibble: its drawer entry, counted over the value nibbles of its row (R293, R295). -/
def Desc.bbEscaped (d : Desc) (m : Rd) (slots : List (Nat × Nat × Nat)) (n : Nat) : PV × Bool :=
  let r := n / 1024
  let k := (slots.filter (fun q => q.1 / 1024 == r && decide (q.1 < n) && (d.nibble m q.1).1 == 8)).length
  let (w, p) := d.drawer m r k
  if 8 ≤ k ∨ bitsOf w 0 10 ≠ n % 1024 then (clean (fvInt 0), true) else (⟨fvInt (signed 16 (bitsOf w 10 16)), p⟩, false)

/-- The value of a BB nibble read with its drawer. -/
def Desc.bbVal (d : Desc) (m : Rd) (slots : List (Nat × Nat × Nat)) (n : Nat) : PV :=
  let (v, p) := d.nibble m n
  if d.bbEsc m n then
    let a := (d.bbEscaped m slots n).1
    ⟨a.v, a.p || p⟩
  else ⟨etDecode d.etype v, p⟩

/-- A tensor has a bad drawer entry for a unit that reads its drawers (R295). -/
def Desc.badDrawer (d : Desc) (m : Rd) : Bool :=
  if d.layout = 3 then
    d.etype == 2 && (let sl := d.bbSlots m; sl.any (fun q => d.bbEsc m q.1 && (d.bbEscaped m sl q.1).2))
  else d.drawerBad m

/-- A tensor has a row with a ninth escape code, which the array finds (R295). -/
def Desc.badNinth (d : Desc) (m : Rd) : Bool :=
  if d.layout = 3 then
    d.etype == 2 && (let sl := (d.bbSlots m).filter (fun q => d.bbEsc m q.1)
      sl.any (fun q => decide (8 < (sl.filter (fun r => r.1 / 1024 == q.1 / 1024)).length)))
  else d.ninth m

/-! ### CONV and MMUL -/

/-- Initial value of an accumulator: DD's with ACC, else zero (R254). -/
def accInit (m : Rd) (dd : Desc) (acc : Bool) (x y c z : Nat) : PV :=
  if acc then dd.elt m x y c z else clean (fvInt 0)

/-- One output of CONV or MMUL. In a step on bitmap blocks the product of a zero activation is skipped (R152) and does not
enter the sum (R305); its poison still marks the result. -/
def convRes (m : Rd) (e : UEnv) (dd da db : Desc) (p : ConvP) (acc grs : Bool) (ws : List (List (List (Option PV))))
    (x y o z : Nat) : Res :=
  let a0 := accInit m dd acc x y o z
  let all := convTerms m e da p (nth [] ws o) x y z
  let pz := a0.p || all.any Term.p
  let ts := if db.layout = 3 then all.filter (fun t => !t.a.v.isZero) else all
  if grs then
    let (v, q) := grsSum m db o a0.v ts
    ⟨f32Code v, pz || q, 0, false⟩
  else accRes dd.etype a0.v pz (ts.map (fun t => fvMul t.a.v t.w.v))

/-- Four times the slot rate of an operand format (Table CO-4); none for a type the array has no rate for. -/
def rate4 (t : Nat) : Option Nat :=
  if t = 0 ∨ t = 3 ∨ t = 4 then some 4 else if t = 1 ∨ t = 2 then some 8 else if t = 5 ∨ t = 6 then some 1 else none

/-- Four times the rate of an operand; for a type Table CO-4 does not list, the spec states none (log entry 22). -/
def rateOf (t : Nat) : Nat := (rate4 t).getD (Config.openOp 33 [t] % 8 + 1)

/-- Four times the rate of a step: that of the wider operand (R154). -/
def stepRate (da db : Desc) : Nat := min (rateOf da.etype) (rateOf db.etype)

/-- Cost of a step's slots taken in pairs: each slot says whether it is padding or meets a zero activation (R152). -/
def pairCost : List Bool → Nat
  | [] => 0
  | [a] => if a then 1 else 2
  | a :: b :: l => (if a || b then 1 else 2) + pairCost l

/-- Slots padded to max(8, z rounded up to even) (R151). -/
def padSlots (l : List Bool) : List Bool :=
  let n := max 8 ((l.length + 1) / 2 * 2)
  l ++ List.replicate (n - l.length) true

/-- Cycles and dense-equivalent cycles of an array instruction's steps over a list of output positions (x, y, z) and
`no` output channels. `cost o p k b` is a cell's cost for sparse weights. -/
def stepCycles (r4 no np nk nb : Nat) (sparse : Bool) (cost : Nat → Nat → Nat → Nat → Nat) : Nat × Nat :=
  let steps := (no + 15) / 16 * ((np + 15) / 16) * nk * nb
  let dense := steps * (256 / r4)
  if !sparse then (dense, dense)
  else
    let one (ob pb k b : Nat) : Nat :=
      let c := (upFrom (16 * ob) 16).foldl (fun a o => (upFrom (16 * pb) 16).foldl (fun a p => max a (cost o p k b)) a) 0
      (4 * c + r4 - 1) / r4
    ((upFrom 0 ((no + 15) / 16)).foldl (fun a ob => (upFrom 0 ((np + 15) / 16)).foldl (fun a pb =>
      (upFrom 0 nk).foldl (fun a k => (upFrom 0 nb).foldl (fun a b => a + one ob pb k b) a) a) a) 0, dense)

/-- Output position number `n` of a tensor as (x, y, z). -/
def Desc.posOf (d : Desc) (n : Nat) : Nat × Nat × Nat := (n % d.d0, n / d.d0 % d.d1, n / (d.d0 * d.d1))

/-- A cell's cost for one step of a bitmap-block product (R151, R152). -/
def convCost (m : Rd) (e : UEnv) (dd da : Desc) (p : ConvP) (ws : List (List (List (Option PV)))) (o n k b : Nat) : Nat :=
  let (x, y, z) := dd.posOf n
  let w := ((nth [] (nth [] ws o) k).drop (64 * b)).take 64
  let slots := (upFrom 0 w.length).filterMap (fun i =>
    match nth none w i with
    | none => none
    | some _ =>
      let c := 64 * b + i
      some (decide (da.d2 ≤ c) || decide (dd.d0 * dd.d1 * dd.d3 ≤ n)
        || (da.input false m e (p.col x (k % p.kw)) (p.row da.arows y (k / p.kw)) c z).v.isZero))
  pairCost (padSlots slots)

/-- Check blocks of a product that hold a saturated cell (R443). -/
def satBlocks (dd : Desc) (f : Nat → Nat → Nat → Nat → Res) : List (Nat × Nat) :=
  (upFrom 0 ((dd.d2 + 15) / 16)).flatMap (fun ob =>
    ((upFrom 0 ((dd.d0 * dd.d1 * dd.d3 + 15) / 16)).filter (fun pb =>
      (upFrom (16 * ob) 16).any (fun o => (upFrom (16 * pb) 16).any (fun n =>
        decide (o < dd.d2) && decide (n < dd.d0 * dd.d1 * dd.d3)
          && (let (x, y, z) := dd.posOf n; decide (0 < (f x y o z).sat)))))).map (fun pb => (ob, pb)))

/-- CONV or MMUL (R254, R255, R305). -/
def evalConv (m : Rd) (e : UEnv) (dd da db : Desc) (p : ConvP) (acc grs : Bool) : UOut :=
  let sh := db.shelf m
  let ws := (upFrom 0 db.d3).map (fun o => db.weights m sh o)
  let f := convRes m e dd da db p acc grs ws
  let (a, d) := stepCycles (stepRate da db) dd.d2 (dd.d0 * dd.d1 * dd.d3) (p.kh * p.kw) ((db.d2 + 63) / 64)
    (db.layout == 3) (convCost m e dd da p ws)
  { dd.build m (fun x y c z => some (f x y c z)) with
    shelfBad := db.layout == 3 && db.shelfBad m, drawerBad := da.badNinth m || db.badNinth m, arr := a, dense := d,
    satBlocks := satBlocks dd f }

/-! ### WINO (R156–R158, R256) -/

/-- A small matrix of integers. -/
abbrev Mat := List (List Int)

/-- Product of matrices. -/
def matMul (a b : Mat) : Mat :=
  a.map (fun r => (upFrom 0 (b.headD []).length).map (fun j =>
    ((upFrom 0 r.length).map (fun i => nth 0 r i * nth 0 (nth [] b i) j)).foldl (· + ·) 0))

/-- Transpose. -/
def matT (a : Mat) : Mat := (upFrom 0 (a.headD []).length).map (fun j => a.map (fun r => nth 0 r j))

/-- The input and output transforms of F(2×2,3×3) that go with G′ of R256 (log entry 23). -/
def winoB : Mat := [[1, 0, -1, 0], [0, 1, 1, 0], [0, -1, 1, 0], [0, 1, 0, -1]]
def winoA : Mat := [[1, 1, 1, 0], [0, 1, -1, -1]]

/-- The 4 × 4 (or 6 × 6) input tile of an output tile at (x, y). -/
def winoTile (m : Rd) (e : UEnv) (da : Desc) (n x y c z : Nat) : List (List PV) :=
  (upFrom 0 n).map (fun j => (upFrom 0 n).map (fun i =>
    da.input false m e ((x + i : Nat) - 1) ((y + j : Nat) - (da.arows : Int)) c z))

/-- The transformed products of one output tile, summed over input channels exactly. -/
def winoSum (m : Rd) (e : UEnv) (da db : Desc) (x y o z : Nat) : Mat × Bool :=
  (upFrom 0 da.d2).foldl (fun (acc : Mat × Bool) c =>
    let t := winoTile m e da 4 x y c z
    let v := matMul (matMul winoB (t.map (fun r => r.map (fun q => fvToInt q.v)))) (matT winoB)
    let u (q : Nat) : PV := db.elt m q 0 c o
    ((upFrom 0 4).map (fun j => (upFrom 0 4).map (fun i =>
        nth 0 (nth [] acc.1 j) i + nth 0 (nth [] v j) i * fvToInt (u (4 * j + i)).v)),
     acc.2 || t.any (fun r => r.any PV.p) || (upFrom 0 16).any (fun q => (u q).p))) ([], false)

/-- One output of WINO F(2×2,3×3): the tile divided by 4, which is exact for weights of R256; for others the quotient is not
stated. The sum saturates into INT32. -/
def wino2Res (m : Rd) (e : UEnv) (dd da db : Desc) (acc : Bool) (x y o z : Nat) : Res :=
  let (s, p) := winoSum m e da db (x / 2 * 2) (y / 2 * 2) o z
  let t := matMul (matMul winoA s) (matT winoA)
  let v := nth 0 (nth [] t (y % 2)) (x % 2)
  let q := if v % 4 = 0 then v / 4 else signed 32 (Config.openOp 23 [unsigned 64 v])
  let a0 := accInit m dd acc x y o z
  accRes 8 a0.v (p || a0.p) [fvInt q]

/-- One output of WINO F(4×4,3×3): the spec does not state the order of the FP32 work of its transforms, so the tile's
outputs are a function of its operands that nothing fixes (log entry 24); ACC adds in FP32. -/
def wino4Res (m : Rd) (e : UEnv) (dd da db : Desc) (acc : Bool) (x y o z : Nat) : Res :=
  let ops := (upFrom 0 da.d2).flatMap (fun c =>
    ((winoTile m e da 6 (x / 4 * 4) (y / 4 * 4) c z).flatMap id) ++ (upFrom 0 36).map (fun q => db.elt m q 0 c o))
  let y0 := openF32 24 ((fvInt (y % 4 * 4 + x % 4 : Nat)) :: ops.map PV.v)
  let a0 := accInit m dd acc x y o z
  accRes 9 a0.v (a0.p || ops.any PV.p) [y0]

/-- The Winograd unit refuses: sparse weights, or a combination of form and types it does not run (R156, R157; log entry 110
on INT4E). -/
def winoRefused (sub : Nat) (da db : Desc) : Bool :=
  db.layout == 3 || (if sub = 0 then da.etype != 0 && da.etype != 1 else da.etype != 5)

/-- WINO (R256). -/
def evalWino (m : Rd) (e : UEnv) (dd da db : Desc) (sub : Nat) (acc : Bool) : UOut :=
  let f := if sub = 0 then wino2Res m e dd da db acc else wino4Res m e dd da db acc
  let t := if sub = 0 then 2 else 4
  let (a, d) := stepCycles (rateOf da.etype) dd.d2 (dd.d0 * dd.d1 * dd.d3 / (t * t)) ((t + 2) * (t + 2))
    ((da.d2 + 63) / 64) false (fun _ _ _ _ => 0)
  { dd.build m (fun x y c z => some (f x y c z)) with arr := a, dense := d, satBlocks := satBlocks dd f }

/-! ### BWD (R258) -/

/-- Products of one input gradient: every output position and kernel position that reads input (x, y) (R258), kernel
position, then output channel, ascending. -/
def dgradTerms (m : Rd) (dd da db : Desc) (p : ConvP) (x y c z : Nat) : List Term :=
  (upFrom 0 (p.kh * p.kw)).flatMap (fun k =>
    (upFrom 0 da.d1).flatMap (fun oy => (upFrom 0 da.d0).flatMap (fun ox =>
      if p.col ox (k % p.kw) = (x : Int) ∧ p.row dd.arows oy (k / p.kw) = (y : Int) then
        (upFrom 0 da.d2).map (fun o => ⟨k, o, da.elt m ox oy o z, db.elt m k 0 c o⟩)
      else [])))

/-- Products of one weight gradient: output positions ascending in element order (log entry 25). -/
def wgradTerms (m : Rd) (e : UEnv) (da db : Desc) (p : ConvP) (k c o : Nat) : List Term :=
  (upFrom 0 da.d3).flatMap (fun z => (upFrom 0 da.d1).flatMap (fun y => (upFrom 0 da.d0).map (fun x =>
    ⟨k, c, da.elt m x y o z, db.input false m e (p.col x (k % p.kw)) (p.row db.arows y (k / p.kw)) c z⟩)))

/-- BWD: DGRAD overwrites DD, WGRAD adds to it (R258). -/
def evalBwd (m : Rd) (e : UEnv) (dd da db : Desc) (sub : Nat) (p : ConvP) : UOut :=
  let f (x y c z : Nat) : Res :=
    if sub = 0 then
      let ts := dgradTerms m dd da db p x y c z
      accRes dd.etype (fvInt 0) (ts.any Term.p) (ts.map (fun t => fvMul t.a.v t.w.v))
    else
      let a0 := dd.elt m x y c z
      let ts := wgradTerms m e da db p x c z
      accRes dd.etype a0.v (a0.p || ts.any Term.p) (ts.map (fun t => fvMul t.a.v t.w.v))
  let np := if sub = 0 then dd.d0 * dd.d1 * dd.d3 else da.d0 * da.d1 * da.d3
  let no := if sub = 0 then dd.d2 else da.d2
  let nc := if sub = 0 then da.d2 else db.d2
  let (a, d) := stepCycles (stepRate da db) no np (p.kh * p.kw) ((nc + 63) / 64) false (fun _ _ _ _ => 0)
  { dd.build m (fun x y c z => some (f x y c z)) with
    drawerBad := da.badNinth m || db.badNinth m, arr := a, dense := d, satBlocks := satBlocks dd f }

/-! ### What the lanes check (R441–R445) -/

/-- A cell as its check lines see it: the exact sum of its initial value and its products, and the sum of their absolute values. -/
def cellOf (a0 : FV) (l : List FV) : FV × FV := (l.foldl fvAdd a0, l.foldl (fun a v => fvAdd a v.abs) a0.abs)

/-- The products of a group-rescaled sum, each scaled by its group (R308). -/
def grsProds (m : Rd) (db : Desc) (o : Nat) (l : List Term) : List FV :=
  let ng := db.d2 / db.g
  l.map (fun t => fvMul (fvMul t.a.v t.w.v) (db.scale m (o * ng + t.c / db.g)).v)

/-- A cell of CONV or MMUL. -/
def convCell (m : Rd) (e : UEnv) (dd da db : Desc) (p : ConvP) (acc grs : Bool) (ws : List (List (List (Option PV))))
    (x y o z : Nat) : FV × FV :=
  let all := convTerms m e da p (nth [] ws o) x y z
  let ts := if db.layout = 3 then all.filter (fun t => !t.a.v.isZero) else all
  cellOf (accInit m dd acc x y o z).v (if grs then grsProds m db o ts else ts.map (fun t => fvMul t.a.v t.w.v))

/-- A cell of WINO: the products of the transformed operands, before the output transform (R445): those of its tile together. Of
F(4×4,3×3), whose transforms the spec does not state, free values (log entry 24). -/
def winoCell (m : Rd) (e : UEnv) (da db : Desc) (sub : Nat) (x y o z : Nat) : FV × FV :=
  if sub = 0 then
    let q := (winoSum m e da db (x / 2 * 2) (y / 2 * 2) o z).1
    (fvInt ((q.flatMap id).foldl (· + ·) 0), fvInt 0)
  else
    let ops := fvInt (y / 4 : Nat) :: fvInt (x / 4 : Nat) :: fvInt o :: (upFrom 0 da.d2).flatMap (fun c =>
      (((winoTile m e da 6 (x / 4 * 4) (y / 4 * 4) c z).flatMap id) ++ (upFrom 0 36).map (fun q => db.elt m q 0 c o)).map PV.v)
    (openF32 25 ops, (openF32 26 ops).abs)

/-- A cell of BWD. -/
def bwdCell (m : Rd) (e : UEnv) (dd da db : Desc) (sub : Nat) (p : ConvP) (x y c z : Nat) : FV × FV :=
  let ts := if sub = 0 then dgradTerms m dd da db p x y c z else wgradTerms m e da db p x c z
  cellOf (if sub = 0 then fvInt 0 else (dd.elt m x y c z).v) (ts.map (fun t => fvMul t.a.v t.w.v))

/-- The cells of a result by channel, then position. -/
def cellsOf (dd : Desc) (f : Nat → Nat → Nat → Nat → FV × FV) : List (FV × FV) :=
  (upFrom 0 dd.d2).flatMap (fun o => (upFrom 0 (dd.d0 * dd.d1 * dd.d3)).map (fun n =>
    let (x, y, z) := dd.posOf n
    f x y o z))

/-! ### XFIX (R257, R299) -/

/-- A product of XFIX as it is added: scaled by its channel's group scale on an FP32 DD (R308). -/
def fixProd (m : Rd) (dd db : Desc) (o c : Nat) (a w : PV) : FV × Bool :=
  let v := fvMul a.v w.v
  if dd.etype = 9 then
    let s := db.scale m (o * (db.d2 / db.g) + c / db.g)
    (fmul (toF32 v) s.v, a.p || w.p || s.p)
  else (v, a.p || w.p)

/-- An output of XFIX from its products. -/
def fixRes (dd : Desc) (a0 : PV) (l : List (FV × Bool)) : Res := accRes dd.etype a0.v (a0.p || l.any (·.2)) (l.map (·.1))

/-- XFIX SHELF (R257, R297). -/
def evalShelf (m : Rd) (dd da db : Desc) : UOut :=
  let sh := db.shelf m
  { dd.build m (fun x y o z =>
      some (fixRes dd (dd.elt m x y o z) ((upFrom 0 sh.length).map (fun j =>
        fixProd m dd db o (nth 0 sh j) (da.shelfAt m x y z j) (db.shelfW m o j))))) with shelfBad := db.shelfBad m }

/-- The weight of (o, c) of a 1 × 1 kernel for XFIX DRAWER: its value, and whether it is escaped. None is no slot. -/
def Desc.fixW (d : Desc) (m : Rd) (slots : List (Nat × Nat × Nat)) (o c : Nat) : Option (PV × Bool) :=
  if d.layout = 3 then
    (slots.find? (fun q => q.2.1 == o && q.2.2 == c)).map (fun q => (d.bbVal m slots q.1, d.bbEsc m q.1))
  else some (d.eltD m 0 0 c o, d.etype == 2 && (d.code m 0 0 c o).1 == 8)

/-- XFIX DRAWER: every product with an escaped operand, once (R299). -/
def evalDrawer (m : Rd) (dd da db : Desc) : UOut :=
  let sh := db.shelf m
  let sl := if db.layout = 3 ∧ db.bits = 4 then db.bbSlots m else []
  let wAt (o c : Nat) : Option (PV × Bool) :=
    if db.layout = 3 ∧ sh.contains c then none
    else if db.layout = 3 ∧ db.bits ≠ 4 then (nth none (nth [] (db.weights m sh o) 0) c).map (fun w => (w, false))
    else db.fixW m sl o c
  { dd.build m (fun x y o z =>
      some (fixRes dd (dd.elt m x y o z) ((upFrom 0 (min da.d2 db.d2)).filterMap (fun c =>
        match wAt o c with
        | none => none
        | some (w, we) =>
          let ae := da.etype == 2 && (da.code m x y c z).1 == 8
          if ae || we then some (fixProd m dd db o c (da.eltD m x y c z) w) else none)))) with
    shelfBad := db.layout == 3 && db.shelfBad m, drawerBad := da.badDrawer m || db.badDrawer m }

end Sys2Proof.Machine
end

