-- ==== Sys2Proof/Machine/VectorOps.lean ====
section
/-! DEFINITION. Vector unit: DWCONV, EWISE, LUT, POOL, RESIZE, ARGMAX, DCMP, DMRG and OPT (R253, R259–R265). -/

namespace Sys2Proof.Machine

/-! ### Elementwise (R259, Table IT-5) -/

/-- An integer result: into INT32 (saturating), then into DD's type (R259). -/
def intPut (e : UEnv) (v : Int) (p : Bool) (sat : Nat) : Put :=
  let w := clampTo int32Lo int32Hi v
  .conv ⟨fvInt w, fvOne, ⟨none, false, e.e5inf⟩, p, sat, decide (w ≠ v)⟩

/-- A value, over a divisor, into DD's type, RNA. -/
def ratioPut (e : UEnv) (v d : FV) (p : Bool) : Put := .conv ⟨v, d, ⟨none, false, e.e5inf⟩, p, 0, false⟩

/-- A value into DD's type, RNA. -/
def toPut (e : UEnv) (v : FV) (p : Bool) : Put := ratioPut e v fvOne p

/-- The greater of two FP32 values; with a NaN, or zeros of both signs, it is not stated. -/
def fmax (a b : FV) : FV :=
  if a = .nan ∨ b = .nan then openF32 15 [a, b]
  else if a.lt b then b else if b.lt a then a else if a.neg = b.neg then a else openF32 15 [a, b]

/-- The lesser of two FP32 values, likewise. -/
def fmin (a b : FV) : FV :=
  if a = .nan ∨ b = .nan then openF32 16 [a, b]
  else if a.lt b then a else if b.lt a then b else if a.neg = b.neg then a else openF32 16 [a, b]

/-- Operand `b` of an EWISE sub-operation: DB's element, its channel entry, S[SX], 0 or CLAMP's bounds. -/
def ewiseB (m : Rd) (da db : Desc) (sub sx x y c z : Nat) : PV :=
  match sub with
  | 0 | 1 | 2 | 3 | 4 => db.eltD m x y c z
  | 7 | 8 => db.eltD m 0 0 c 0
  | 9 => clean (fvInt 0)
  | _ => clean (if etInt da.etype then fvInt (signed 32 sx) else fpVal sx)

/-- A bound of CLAMP in DA's type when 16-bit or narrower, else INT16. -/
def clampBound (t v : Nat) : FV := if etBits t ≤ 16 then etDecode t (v % 2 ^ etBits t) else fvInt (signed 16 v)

/-- The work of an EWISE sub-operation on integers. -/
def ewiseInt (sub : Nat) (a b lo hi : Int) : Int :=
  match sub with
  | 0 | 5 | 7 => a + b
  | 1 => a - b
  | 2 | 6 | 8 => a * b
  | 3 | 9 => max a b
  | 4 => min a b
  | _ => min (max a lo) hi

/-- The work of an EWISE sub-operation in FP32. -/
def ewiseFp (sub : Nat) (a b lo hi : FV) : FV :=
  match sub with
  | 0 | 5 | 7 => fadd a b
  | 1 => fsub a b
  | 2 | 6 | 8 => fmul a b
  | 3 | 9 => fmax a b
  | 4 => fmin a b
  | _ => fmin (fmax a lo) hi

/-- EWISE (R259). -/
def evalEwise (m : Rd) (e : UEnv) (dd da db : Desc) (sub sx : Nat) : UOut :=
  let two := sub ≤ 4 || sub == 7 || sub == 8
  let intWork := etInt da.etype && (!two || etInt db.etype)
  let lo := clampBound da.etype (sx % 65536)
  let hi := clampBound da.etype (sx / 65536)
  { dd.put m (fun x y c z =>
      let a := da.eltD m x y c z
      let b := ewiseB m da db sub sx x y c z
      if intWork then intPut e (ewiseInt sub (fvToInt a.v) (fvToInt b.v) (fvToInt lo) (fvToInt hi)) (a.p || b.p) 0
      else toPut e (ewiseFp sub (toF32 a.v) (toF32 b.v) (toF32 lo) (toF32 hi)) (a.p || b.p)) with
    drawerBad := da.drawerBad m || (two && db.drawerBad m) }

/-! ### Look-up tables (R260) -/

/-- LUT DIRECT: entry x + 128 for INT8, entry x for UINT8. For the other 8-bit types the spec states no entry (log entry
22). -/
def evalLutDirect (m : Rd) (dd da : Desc) (sx : Nat) : UOut :=
  dd.build m (fun x y c z =>
    let a := da.elt m x y c z
    let i :=
      if etInt da.etype then (fvToInt a.v + (if da.etype = 0xA then 0 else 128)).toNat
      else Config.openOp 34 [da.etype, (da.code m x y c z).1] % 256
    let (v, q) := bitsAt m false (sx % 131072) (16 * i) 16
    some ⟨v, a.p || q, 0, false⟩)

/-- floor of (x − lo) × 64 / (hi − lo) for finite values with lo below hi, kept within 0–63. -/
def pwlSeg (x lo hi : FV) : Nat :=
  match fvAdd x lo.minus, fvAdd hi lo.minus with
  | .fin n1 m1 e1, .fin _ m2 e2 =>
    if n1 then 0 else min 63 (m1 * 64 * pow2 (e1 - e2) / (m2 * pow2 (e2 - e1)))
  | _, _ => 0

/-- The segment of LUT PWL: end segments outside [lo, hi]; for a NaN or an empty range it is not stated. -/
def pwlIndex (x lo hi : FV) : Nat :=
  if x = .nan ∨ !lo.finite ∨ !hi.finite ∨ !lo.lt hi then Config.openOp 30 [fvKey x, fvKey lo, fvKey hi] % 64
  else if x.lt lo then 0 else if hi.lt x then 63 else pwlSeg x lo hi

/-- LUT PWL: slope × x + intercept in FP32. -/
def evalLutPwl (m : Rd) (e : UEnv) (dd da : Desc) (sx sy : Nat) : UOut :=
  let r := sx % 131072
  let lo := fp16.decode (sy % 65536)
  let hi := fp16.decode (sy / 65536)
  dd.put m (fun x y c z =>
    let a := da.elt m x y c z
    let i := pwlIndex a.v lo hi
    let (k, p) := bitsAt m false r (16 * i) 16
    let (b, q) := bitsAt m false r (1024 + 16 * i) 16
    toPut e (fadd (fmul (fp16.decode k) (toF32 a.v)) (fp16.decode b)) (a.p || p || q))

/-! ### Spatial operations (R253, R261, R262) -/

/-- DWCONV: each channel with its own kernel, DB's element (k, 0, c, 0); integers in INT32, floats in FP32, the result
rounded RNA into DD's type. -/
def evalDwconv (m : Rd) (e : UEnv) (dd da db : Desc) (p : ConvP) : UOut :=
  { dd.put m (fun x y c z =>
      let ts := (upFrom 0 (p.kh * p.kw)).map (fun k =>
        (da.input true m e (p.col x (k % p.kw)) (p.row da.arows y (k / p.kw)) c z, db.eltD m k 0 c 0))
      let q := ts.any (fun t => t.1.p || t.2.p)
      if etInt da.etype && etInt db.etype then
        let (v, n) := intSum 0 (ts.map (fun t => fvToInt t.1.v * fvToInt t.2.v))
        intPut e v q n
      else toPut e (floatSum (fvInt 0) (ts.map (fun t => fvMul t.1.v t.2.v))) q) with
    drawerBad := da.badDrawer m || db.badDrawer m }

/-- POOL: MAX, or AVG over the positions inside the frame (R261). -/
def evalPool (m : Rd) (e : UEnv) (dd da : Desc) (sub aux : Nat) : UOut :=
  let w := 2 + bitsOf aux 0 2
  let p : ConvP := ⟨w, w, 1 + bitsOf aux 2 2, 1⟩
  { dd.put m (fun x y c z =>
      let win := (upFrom 0 (w * w)).map (fun k => (p.col x (k % w), p.row da.arows y (k / w)))
      let rd (q : Int × Int) : PV := da.input true m e q.1 q.2 c z
      if sub = 0 then
        let vs := win.map rd
        let pz := vs.any PV.p
        match vs with
        | [] => toPut e (fvInt 0) pz
        | v :: l => toPut e (l.foldl (fun a b => fmax a b.v) v.v) pz
      else
        let ins := win.filter (fun q => !(da.offFrame e q.1 q.2).1 && !(da.offFrame e q.1 q.2).2)
        let vs := ins.map rd
        let t := vs.foldl (fun a b => fvAdd a b.v) (fvInt 0)
        ratioPut e t (fvInt vs.length) (vs.any PV.p)) with
    drawerBad := da.badDrawer m }

/-- An element next to a RESIZE position: outside the tensor its halo or the edge rule; where there is neither, the spec
states no value (log entry 22). -/
def Desc.near (d : Desc) (m : Rd) (e : UEnv) (x y : Int) (c z : Nat) : PV :=
  let (cp, rp) := d.offFrame e x y
  let okx := cp || (decide (-(d.hl : Int) ≤ x) && decide (x < d.d0 + d.hr))
  let oky := rp || (decide (-(d.arows : Int) ≤ y) && decide (y < d.d1))
  if okx && oky then d.input true m e x y c z
  else clean (etDecode d.etype (Config.openOp 31 [unsigned 17 x, unsigned 17 y, c, z] % 2 ^ d.bits))

/-- RESIZE (R261): exact weighted averages, rounded once. -/
def evalResize (m : Rd) (e : UEnv) (dd da : Desc) (sub aux : Nat) : UOut :=
  let up := aux % 2 = 0
  let out (l : List (PV × Nat)) (n : Nat) : Put :=
    let t := l.foldl (fun a q => fvAdd a (fvMul q.1.v (fvInt q.2))) (fvInt 0)
    ratioPut e t (fvInt n) (l.any (fun q => q.1.p))
  { dd.put m (fun x y c z =>
      if up then
        if sub = 0 then let a := da.eltD m (x / 2) (y / 2) c z; toPut e a.v a.p
        else
          let ax : List (Int × Nat) := [((x / 2 : Nat), 3), (if x % 2 = 0 then (x / 2 : Nat) - 1 else (x / 2 : Nat) + 1, 1)]
          let ay : List (Int × Nat) := [((y / 2 : Nat), 3), (if y % 2 = 0 then (y / 2 : Nat) - 1 else (y / 2 : Nat) + 1, 1)]
          out (ay.flatMap (fun b => ax.map (fun a => (da.near m e a.1 b.1 c z, a.2 * b.2)))) 16
      else if sub = 0 then let a := da.eltD m (2 * x) (2 * y) c z; toPut e a.v a.p
      else out ([(0, 0), (1, 0), (0, 1), (1, 1)].map (fun q => (da.near m e (2 * x + q.1 : Nat) (2 * y + q.2 : Nat) c z, 1)))
        4) with
    drawerBad := da.badDrawer m }

/-- ARGMAX: ties to the lowest channel; a NaN is below every number (R262). -/
def evalArgmax (m : Rd) (dd da : Desc) : UOut :=
  { dd.build m (fun x y _ z =>
      let vs := (upFrom 0 da.d2).map (fun c => (c, da.eltD m x y c z))
      let best := vs.foldl (fun (b : Nat × FV) q =>
        if (b.2 = FV.nan ∧ q.2.v ≠ FV.nan) ∨ b.2.lt q.2.v then (q.1, q.2.v) else b)
        (0, match vs with | [] => .nan | q :: _ => q.2.v)
      some ⟨best.1, vs.any (fun q => q.2.p), 0, false⟩) with
    drawerBad := da.badDrawer m }

/-! ### Delta compare and merge (R263, R264) -/

/-- Rows of a mask over a tensor's positions. -/
def Desc.maskRows (d : Desc) : Nat := (d.d0 * d.d1 + 4095) / 4096

/-- Bit `p` of a mask. -/
def maskBit (m : Rd) (r p : Nat) : Bool × Bool := let (v, q) := bitsAt m false r p 1; (v == 1, q)

/-- The difference of two elements: exact integers, or FP32 (R263). -/
def dcmpDiff (t : Nat) (a b : FV) : FV := if etInt t then fvInt (fvToInt a - fvToInt b) else fsub (toF32 a) (toF32 b)

/-- Is a position changed: some channel's |DA − DB| exceeds its threshold (R263); a comparison with a NaN is not
stated. -/
def dcmpChanged (m : Rd) (da db : Desc) (sx x y : Nat) : Bool × Bool :=
  let l := (upFrom 0 da.d3).flatMap (fun z => (upFrom 0 da.d2).map (fun c =>
    let a := da.eltD m x y c z
    let b := db.eltD m x y c z
    let (t, q) := bitsAt m false (sx % 131072) (16 * c) 16
    let df := dcmpDiff da.etype a.v b.v
    let th := fp16.decode t
    let ch := if df = FV.nan ∨ th = FV.nan then Config.openOp 32 [fvKey df, fvKey th] % 2 == 1 else th.lt df.abs
    (ch, a.p || b.p || q)))
  (l.any (·.1), l.any (·.2))

/-- DCMP: DD, the mask and the count row (R263). FORCE treats every position as changed. The changed and total counts are
those of R338. -/
def evalDcmp (m : Rd) (e : UEnv) (dd da db : Desc) (force : Bool) (maskrow sx : Nat) : UOut :=
  let chg (x y : Nat) : Bool × Bool := if force then (true, false) else dcmpChanged m da db sx x y
  let n := da.d0 * da.d1
  let pos := (upFrom 0 n).map (fun p => chg (p % da.d0) (p / da.d0))
  let cnt := (pos.filter (·.1)).length
  let pz := pos.any (·.2)
  let main := dd.put m (fun x y c z =>
    let (ch, q) := chg x y
    let a := da.eltD m x y c z
    let b := db.eltD m x y c z
    if ch then toPut e (dcmpDiff da.etype a.v b.v) (a.p || b.p || q) else .raw 0 q)
  let mask := gather ((upFrom 0 da.maskRows).map (fun j => buildRow m false (maskrow + j) 1 (fun i =>
    match pos[j * 4096 + i]? with
    | none => none
    | some q => some (some ⟨if q.1 then 1 else 0, q.2, 0, false⟩))))
  let count := buildRow m false (maskrow + da.maskRows) 32 (fun i =>
    if i = 0 then some (some ⟨cnt, pz, 0, false⟩) else if i = 1 then some (some ⟨n, false, 0, false⟩) else none)
  { ((main.and mask).and count) with scene := some (cnt, n), drawerBad := da.drawerBad m || db.drawerBad m }

/-- DMRG MERGE and ADD: DA into DD at the masked positions (R264). A merge between like types copies the code. -/
def evalDmrg (m : Rd) (e : UEnv) (dd da : Desc) (add : Bool) (maskrow : Nat) : UOut :=
  { dd.put m (fun x y c z =>
      let (b, q) := maskBit m maskrow (y * da.d0 + x)
      if !b then .keep q
      else
        let a := da.eltD m x y c z
        if add then
          let o := dd.eltD m x y c z
          if etInt da.etype && etInt dd.etype then intPut e (fvToInt o.v + fvToInt a.v) (a.p || o.p || q) 0
          else toPut e (fadd (toF32 o.v) (toF32 a.v)) (a.p || o.p || q)
        else if da.etype = dd.etype ∧ da.etype ≠ 2 then .raw (da.code m x y c z).1 (a.p || q)
        else toPut e a.v (a.p || q)) with
    drawerBad := da.badDrawer m || dd.badDrawer m }

/-- DMRG DILATE: every position within a square of the radius of a masked one (R264). -/
def evalDilate (m : Rd) (da : Desc) (maskrow radius sx : Nat) : UOut :=
  let bit (p : Nat) : Bool × Bool :=
    let x := p % da.d0
    let y := p / da.d0
    let l := (upFrom 0 (da.d0 * da.d1)).filterMap (fun q =>
      let qx := q % da.d0
      let qy := q / da.d0
      if qx ≤ x + radius ∧ x ≤ qx + radius ∧ qy ≤ y + radius ∧ y ≤ qy + radius then some (maskBit m maskrow q) else none)
    (l.any (·.1), l.any (·.2))
  gather ((upFrom 0 da.maskRows).map (fun j => buildRow m false (sx % 131072 + j) 1 (fun i =>
    if j * 4096 + i < da.d0 * da.d1 then
      let (b, q) := bit (j * 4096 + i)
      some (some ⟨if b then 1 else 0, q, 0, false⟩)
    else none)))

/-! ### Scales (R300–R304) and OPT (R265) -/

/-- The scale of a maximum (R300). -/
def scaleOf (mx : FV) (margin qmax : Nat) : FV :=
  if mx.isZero then .fin false 1 (-126)
  else fdiv (fmul (toF32 mx) (toF32 (.fin false (256 + margin) (-8)))) (fvInt qmax)

/-- The greatest magnitude of finite values, with poison and whether some value is not finite (R300). -/
def maxAbs (l : List PV) : FV × Bool × Bool :=
  (l.foldl (fun a q => if q.v.finite && a.lt q.v.abs then q.v.abs else a) (fvInt 0), l.any PV.p,
   l.any (fun q => !q.v.finite))

/-- The seven FP32 parameters of OPT. -/
structure OptP where
  lr : FV
  b1 : FV
  b2 : FV
  eps : FV
  c1 : FV
  c2 : FV
  wd : FV
deriving DecidableEq, Repr

/-- OPT's parameters from 32 bytes. -/
def optP (n : Nat) : OptP :=
  let f (i : Nat) : FV := fpVal (bitsOf n (32 * i) 32)
  ⟨f 0, f 1, f 2, f 3, f 4, f 5, f 6⟩

/-- One element's step (R265): m, v and w. -/
def optStep (o : OptP) (g mm v w : FV) : FV × FV × FV :=
  let m' := fadd (fmul o.b1 mm) (fmul (fsub fvOne o.b1) g)
  let v' := fadd (fmul o.b2 v) (fmul (fmul (fsub fvOne o.b2) g) g)
  let w' := fsub w (fmul o.lr (fadd (fdiv (fmul o.c1 m') (fadd (fsqrt (fmul o.c2 v')) o.eps)) (fmul o.wd w)))
  (m', v', w')

/-- A row scale, 1 where the descriptor has none. -/
def Desc.rowScale (d : Desc) (m : Rd) (i : Nat) : PV := if d.sckind = 0 then clean fvOne else d.scale m i

/-- OPT: moments in DB's planes 0 and 1 at new CURRENT scales, master weights in DD at their row scales, rounded SR with three
draws per element (R265, R290). -/
def evalOpt (m : Rd) (e : UEnv) (dd da db : Desc) (par : OptP) (draws : List Nat) : UOut :=
  let np := da.d0 * da.d1
  -- one plane of DA gives one plane of each moment
  let step (x y c : Nat) : (FV × FV × FV) × Bool :=
    let n := y * da.d0 + x
    let g := da.elt m x y c 0
    let gs := da.rowScale m n
    let mm := db.elt m x y c 0
    let ms := db.rowScale m n
    let v := db.elt m x y c 1
    let vs := db.rowScale m (np + n)
    let w := dd.elt m x y c 0
    let ws := dd.rowScale m n
    (optStep par (fmul g.v gs.v) (fmul mm.v ms.v) (fmul v.v vs.v) (fmul w.v ws.v),
     g.p || gs.p || mm.p || ms.p || v.p || vs.p || w.p || ws.p)
  let rowMax (i : Nat) : FV × Bool × Bool :=
    maxAbs ((upFrom 0 da.d2).map (fun c =>
      let q := step (i % np % da.d0) (i % np / da.d0) c
      PV.mk (if i / np = 0 then q.1.1 else q.1.2.1) q.2))
  let newScale (i : Nat) : PV := let q := rowMax i; ⟨scaleOf q.1 0 127, q.2.1⟩
  -- the stored scale, in the table's own format
  let stored (i : Nat) : Conv := if db.sckind = 2 then convert 9 rna (newScale i).v fvOne else convert 5 rna (newScale i).v fvOne
  -- a row of zeros quantises to 0 whatever its table can hold of 2^−126 (R300)
  let asRead (i : Nat) : FV :=
    if (rowMax i).1.isZero then (newScale i).v
    else if db.sckind = 2 then fpVal (stored i).code else fp16.decode (stored i).code
  let md (x y c k : Nat) : ConvMode := ⟨some (nth 0 draws (3 * da.elemNo x y c 0 + k)), false, e.e5inf⟩
  let mom := db.build m (fun x y c z =>
    let q := step x y c
    let i := z * np + y * da.d0 + x
    some (resOf (convert 0 (md x y c z) (if z = 0 then q.1.1 else q.1.2.1) (asRead i)) (q.2 || (newScale i).p)))
  let wts := dd.build m (fun x y c _ =>
    let q := step x y c
    let ws := dd.rowScale m (y * da.d0 + x)
    some (resOf (convert 7 (md x y c 2) q.1.2.2 ws.v) (q.2 || ws.p)))
  let tab := buildTable m db.scrow (if db.sckind = 2 then 32 else 16) (2 * np) (fun i =>
    { resOf (stored i) (newScale i).p with nonfin := (rowMax i).2.2 || (stored i).nonfin })
  (mom.and wts).and tab

end Sys2Proof.Machine
end

