-- ==== Sys2Proof/Machine/QuantOps.lean ====
section
/-! DEFINITION. The quantise and statistics unit: QSTAT, QUANT, DEQ and QCVT (R275–R277, R294, R298, R300–R304, R306,
R307). -/

namespace Sys2Proof.Machine

/-! ### QSTAT -/

/-- The values of scale row `i` of a tensor, less the channels of a shelf (R275, R298). -/
def Desc.scaleVals (d : Desc) (m : Rd) (shelf : List Nat) (i : Nat) : List PV :=
  if d.layout = 3 ∧ d.etype = 2 then
    let sl := d.bbSlots m
    (sl.filter (fun q => q.2.1 == i && !shelf.contains (q.2.2 % d.d2))).map (fun q => d.bbVal m sl q.1)
  else if d.layout = 3 then ((d.weights m shelf i).flatMap id).filterMap id
  else
    let x := i % d.d0
    let y := i / d.d0 % d.d1
    let z := i / (d.d0 * d.d1)
    ((upFrom 0 d.d2).filter (fun c => !shelf.contains c)).map (fun c => d.eltD m x y c z)

/-- Rows of one history slot of `n` scale rows (R302). -/
def histRows (n : Nat) : Nat := (n + 127) / 128

/-- Entry `i` of history slot `q` (R302). -/
def Desc.hist (d : Desc) (m : Rd) (n q i : Nat) : PV :=
  let (v, p) := bitsAt m false (d.scrow + (q + 1) * histRows n + i / 128) (32 * (i % 128)) 32
  ⟨fpVal v, p⟩

/-- The slots HISTORY reads at step `t`: (t − 1) mod 16 down to (t − H) mod 16 (R304). -/
def histSlots (t h : Nat) : List Nat := (upFrom 1 h).map (fun i => (t % 16 + 32 - i) % 16)

/-- The greatest value of the history slots that HISTORY reads for a scale row (R304). -/
def pastMax (m : Rd) (dd : Desc) (n h t i : Nat) : FV × Bool × Bool :=
  maxAbs ((histSlots t h).map (fun q => dd.hist m n q i))

/-- HISTORY takes the CURRENT scale of some scale row, and so reads DA (R304). -/
def histFalls (m : Rd) (dd da : Desc) (aux t : Nat) : Bool :=
  (upFrom 0 da.scaleRows).any (fun i => (pastMax m dd da.scaleRows (2 ^ bitsOf aux 0 3) t i).1.isZero)

/-- QSTAT CURRENT, or HISTORY with step number `t` (R300, R301, R304). -/
def evalQstat (m : Rd) (dd da : Desc) (hist : Bool) (aux t : Nat) : UOut :=
  let n := da.scaleRows
  let sh := dd.shelf m
  let mg := bitsOf aux 3 10
  let qm := (etQmax dd.etype).getD 1
  let cur (i : Nat) : FV × Bool × Bool := maxAbs (da.scaleVals m sh i)
  let past (i : Nat) : FV × Bool × Bool := pastMax m dd n (2 ^ bitsOf aux 0 3) t i
  let use (i : Nat) : FV × Bool × Bool :=
    if !hist then cur i
    else if (past i).1.isZero then ((cur i).1, (cur i).2.1 || (past i).2.1, (cur i).2.2 || (past i).2.2) else past i
  let falls := hist && histFalls m dd da aux t
  { buildTable m dd.scrow 32 n (fun i =>
      let q := use i
      ⟨f32Code (scaleOf q.1 mg qm), q.2.1, 0, q.2.2⟩) with
    histFb := falls, shelfBad := dd.shelfBad m, drawerBad := (!hist || falls) && da.badDrawer m }

/-! ### QUANT -/

/-- QUANT (R286, R291, R294, R298, R303): DA at DD's per-row scales. `slot` is the history slot to record, if any. -/
def evalQuant (m : Rd) (e : UEnv) (dd da : Desc) (sr asym : Bool) (draws : List Nat) (slot : Option Nat) : UOut :=
  let n := da.scaleRows
  let sh := dd.shelf m
  let sc (x y z : Nat) : PV := dd.scale m (dd.scaleNo x y z)
  let md (x y c z : Nat) : ConvMode := ⟨if sr then some (nth 0 draws (da.elemNo x y c z)) else none, asym, e.e5inf⟩
  let main := dd.put m (fun x y c z =>
    if sh.contains c then .raw 0 false
    else
      let a := da.eltD m x y c z
      let s := sc x y z
      .conv ⟨a.v, s.v, md x y c z, a.p || s.p, 0, false⟩)
  let shelf :=
    if dd.shelfn = 0 then UOut.none
    else
      gather ((upFrom 0 (dd.d3 * dd.d1)).flatMap (fun zy => (upFrom 0 ((dd.d0 + 15) / 16)).map (fun j =>
        buildRow m false (dd.shrow + 1 + zy * ((dd.d0 + 15) / 16) + j) 16 (fun i =>
          let x := 16 * j + i / 16
          match sh[i % 16]? with
          | none => none
          | some c =>
            if dd.d0 ≤ x then none
            else
              let y := zy % dd.d1
              let z := zy / dd.d1
              let a := da.eltD m x y c z
              let s := sc x y z
              some (some (resOf (convert 7 { md x y c z with asym := false } a.v s.v) (a.p || s.p)))))))
  let hist :=
    match slot with
    | none => UOut.none
    | some q =>
      buildTable m (dd.scrow + (q + 1) * histRows n) 32 n (fun i =>
        let v := maxAbs (da.scaleVals m sh i)
        ⟨f32Code v.1, v.2.1, 0, v.2.2⟩)
  { ((main.and shelf).and hist) with shelfBad := dd.shelfBad m, drawerBad := da.badDrawer m }

/-! ### DEQ and QCVT -/

/-- DEQ FLOAT (R306). -/
def evalDeqFloat (m : Rd) (e : UEnv) (dd da db : Desc) : UOut :=
  dd.put m (fun x y c z =>
    let a := da.elt m x y c z
    let s := da.scale m (da.scaleNo x y z)
    let v := fmul (toF32 a.v) s.v
    let k := if db.sckind = 0 then clean fvOne else db.scale m c
    toPut e (if db.sckind = 0 then v else fmul v k.v) (a.p || s.p || k.p))

/-- DEQ INTMUL (R307): RNA of the exact product over 2^shift. -/
def evalDeqInt (m : Rd) (e : UEnv) (dd da : Desc) (shift sx : Nat) : UOut :=
  dd.put m (fun x y c z =>
    let a := da.elt m x y c z
    let (k, q) := bitsAt m false (sx % 131072 + c / 256) (16 * (c % 256)) 16
    let pr := fvToInt a.v * signed 16 k
    let n : Int := roundTo pr.natAbs 1 (-(shift : Int)) 0 none
    toPut e (fvInt (if pr < 0 then -n else n)) (a.p || q))

/-- QCVT: DA to DD's type, no scale. -/
def evalQcvt (m : Rd) (e : UEnv) (dd da : Desc) (sr : Bool) (draws : List Nat) : UOut :=
  { dd.put m (fun x y c z =>
      let a := da.eltD m x y c z
      .conv ⟨a.v, fvOne, ⟨if sr then some (nth 0 draws (da.elemNo x y c z)) else none, false, e.e5inf⟩, a.p, 0, false⟩) with
    drawerBad := da.badDrawer m }

end Sys2Proof.Machine
end

