-- ==== Sys2Proof/Machine/Flags.lean ====
section
/-! DEFINITION. Results of the scalar path: ALU (R210, Table IS-5), compares (R211, Tables IS-6 and IS-10) and predicates
(R212, Table IS-7). -/

namespace Sys2Proof.Machine

/-- Results of the ALU minor opcodes (Table IS-5); shifts use B[4:0]. -/
def aluOp (m : Nat) (a b : Word) : Word :=
  let sh := b.toNat % 32
  match m with
  | 0 => a + b
  | 1 => a - b
  | 2 => a &&& b
  | 3 => a ||| b
  | 4 => a ^^^ b
  | 5 => a <<< sh
  | 6 => a >>> sh
  | 7 => a.sshiftRight sh
  | 8 => a * b
  | 9 => BitVec.ofInt 32 (a.toInt * b.toInt / 2 ^ 32)
  | 10 => BitVec.ofNat 32 (a.toNat * b.toNat / 2 ^ 32)
  | 11 => if a.toInt ≤ b.toInt then a else b
  | 12 => if a.toInt ≤ b.toInt then b else a
  | 13 => if a.toNat ≤ b.toNat then a else b
  | _ => if a.toNat ≤ b.toNat then b else a

/-- Compare results (Table IS-6); codes 0–5 are also the conditions of BCC (Table IS-10). -/
def cmpOp (m : Nat) (a b : Word) : Bool :=
  match m with
  | 0 => a == b
  | 1 => a != b
  | 2 => decide (a.toInt < b.toInt)
  | 3 => decide (b.toInt ≤ a.toInt)
  | 4 => decide (a.toNat < b.toNat)
  | 5 => decide (b.toNat ≤ a.toNat)
  | _ => (a &&& b) != 0#32

/-- Predicate results (Table IS-7, minor opcodes 0–4). -/
def predOp (m : Nat) (a b : Bool) : Bool :=
  match m with
  | 0 => a && b
  | 1 => a || b
  | 2 => a != b
  | 3 => a && !b
  | _ => !a

end Sys2Proof.Machine
end

