-- ==== Sys2Proof/Machine/StripeDecode.lean ====
section
/-! DEFINITION. Decode of the 64-bit stripe instruction words (chapters 06 and 07): which row of the command table a word
is, and whether it is ILLEGAL (R206–R209, R240–R242, R253, R266). -/

namespace Sys2Proof.Machine

/-- The stripe instructions, one per row of the command table that is an instruction of a stripe program. -/
inductive OpC where
  | add | sub | and_ | or_ | xor_ | sll | srl | sra | mul | mulh | mulhu | min_ | max_ | minu | maxu
  | eq | ne | lt | ge | ltu | geu | tst
  | pand | por | pxor | pandn | pnot | ptos | predStop
  | lb | lbu | lh | lhu | lw | sb | sh | sw
  | dget | dset | dld | dsto | dcpy | info
  | br | bcc | call | jr | endstripe | eret
  | twait | twaitm | ttest | bar | gsend | grecv | wwait
  | trap | halt | crr | crw | srseed | logput
  | conv | wino | mmul | dwconv | ewise | lutDirect | lutPwl | pool | resize | argmax
  | dcmpCompare | dcmpForce | dmrgMerge | dmrgAdd | dmrgDilate | bwdDgrad | bwdWgrad | opt | xfixShelf | xfixDrawer
  | dmaRead | dmaWrite | rxferRead | rxferWrite | rcopy | smld | smst | psend
  | qstatCurrent | qstatHistory | quant | deqFloat | deqIntmul | qcvt
  | ckctl | digest | ptest
deriving DecidableEq, Repr

/-- Bits [hi:lo] of an instruction word. -/
def fld (w : BitVec 64) (hi lo : Nat) : Nat := bitsOf w.toNat lo (hi + 1 - lo)

/-! Common fields (Table IS-2) and the fields of formats R, I, B, T and X (Tables IS-3 and IT-1). -/

def fMaj (w : BitVec 64) : Nat := fld w 63 58
def fGe (w : BitVec 64) : Nat := fld w 57 57
def fGn (w : BitVec 64) : Nat := fld w 56 56
def fGp (w : BitVec 64) : Nat := fld w 55 53
def fMin (w : BitVec 64) : Nat := fld w 52 48
def fRd (w : BitVec 64) : Nat := fld w 47 43
def fRa (w : BitVec 64) : Nat := fld w 42 38
def fRb (w : BitVec 64) : Nat := fld w 37 33
def fImm (w : BitVec 64) : Nat := fld w 31 0
/-- Format B: RA [47:43], RB [42:38], AUX, OFF. -/
def fBra (w : BitVec 64) : Nat := fld w 47 43
def fBrb (w : BitVec 64) : Nat := fld w 42 38
def fBaux (w : BitVec 64) : Nat := fld w 31 16
def fOff (w : BitVec 64) : Nat := fld w 15 0
/-- Format T: MODE, TK, MASK, IMM. -/
def fMode (w : BitVec 64) : Nat := fld w 37 36
def fTtk (w : BitVec 64) : Nat := fld w 35 32
def fMask (w : BitVec 64) : Nat := fld w 31 16
def fTimm (w : BitVec 64) : Nat := fld w 15 0
/-- Format X: DD, DA, DB, TK, SX, SUB, AUX. -/
def fDd (w : BitVec 64) : Nat := fld w 52 48
def fDa (w : BitVec 64) : Nat := fld w 47 43
def fDb (w : BitVec 64) : Nat := fld w 42 38
def fTk (w : BitVec 64) : Nat := fld w 37 34
def fSx (w : BitVec 64) : Nat := fld w 33 29
def fSub (w : BitVec 64) : Nat := fld w 28 24
def fAux (w : BitVec 64) : Nat := fld w 23 0

/-- The instruction an opcode names, before its fields are checked (Tables IS-4 to IS-11, IT-4, IT-6 to IT-8). DESIGN CHOICE: a
MIN that is not zero is ILLEGAL in every major that has no minor operations, as the table states for 0x10–0x15 (log entry 136). -/
def opCode (w : BitVec 64) : Option OpC :=
  let m := fMin w
  let alu : List OpC := [.add, .sub, .and_, .or_, .xor_, .sll, .srl, .sra, .mul, .mulh, .mulhu, .min_, .max_, .minu, .maxu]
  let cmp : List OpC := [.eq, .ne, .lt, .ge, .ltu, .geu, .tst]
  let prd : List OpC := [.pand, .por, .pxor, .pandn, .pnot, .ptos, .predStop]
  let one (o : OpC) : Option OpC := if m = 0 then some o else none
  let subs (l : List OpC) : Option OpC := l[fSub w]?
  match fMaj w with
  | 0x00 => alu[m]?
  | 0x01 => alu[m]?
  | 0x02 => cmp[m]?
  | 0x03 => cmp[m]?
  | 0x04 => prd[m]?
  | 0x05 => ([.lb, .lbu, .lh, .lhu, .lw] : List OpC)[m]?
  | 0x06 => ([.sb, .sh, .sw] : List OpC)[m]?
  | 0x07 => ([.dget, .dset, .dld, .dsto, .dcpy] : List OpC)[m]?
  | 0x08 => one .info
  | 0x10 => one .br
  | 0x11 => one .bcc
  | 0x12 => one .call
  | 0x13 => one .jr
  | 0x14 => one .endstripe
  | 0x15 => one .eret
  | 0x18 => one .twait
  | 0x19 => one .twaitm
  | 0x1A => one .ttest
  | 0x1B => one .bar
  | 0x1C => one .gsend
  | 0x1D => one .grecv
  | 0x1E => one .wwait
  | 0x3F => ([.trap, .halt, .crr, .crw, .srseed, .logput] : List OpC)[m]?
  | 0x20 => subs [.conv]
  | 0x21 => subs [.wino, .wino]
  | 0x22 => subs [.mmul]
  | 0x23 => subs [.dwconv]
  | 0x24 => if fSub w ≤ 10 then some .ewise else none
  | 0x25 => subs [.lutDirect, .lutPwl]
  | 0x26 => subs [.pool, .pool]
  | 0x27 => subs [.resize, .resize]
  | 0x28 => subs [.argmax]
  | 0x29 => subs [.dcmpCompare, .dcmpForce]
  | 0x2A => subs [.dmrgMerge, .dmrgAdd, .dmrgDilate]
  | 0x2B => subs [.bwdDgrad, .bwdWgrad]
  | 0x2C => subs [.opt]
  | 0x2D => subs [.xfixShelf, .xfixDrawer]
  | 0x30 => subs [.dmaRead, .dmaWrite]
  | 0x31 => subs [.rxferRead, .rxferWrite]
  | 0x32 => subs [.rcopy]
  | 0x33 => subs [.smld]
  | 0x34 => subs [.smst]
  | 0x35 => subs [.psend]
  | 0x38 => subs [.qstatCurrent, .qstatHistory]
  | 0x39 => subs [.quant, .quant]
  | 0x3A => subs [.deqFloat, .deqIntmul]
  | 0x3B => subs [.qcvt, .qcvt]
  | 0x3C => subs [.ckctl, .ckctl, .ckctl]
  | 0x3D => subs [.digest]
  | 0x3E => subs [.ptest]
  | _ => none

/-- Which fields of format X an instruction uses: DD, DA, DB, SX, TK, and the AUX bits it defines (R240; log entry 20). -/
def xUse (o : OpC) (sub : Nat) : Bool × Bool × Bool × Bool × Bool × Nat :=
  match o with
  | .conv => (true, true, true, false, true, 0x3FF)
  | .wino => (true, true, true, false, true, 0x100)
  | .mmul => (true, true, true, false, true, 0x300)
  | .dwconv => (true, true, true, false, true, 0xFF)
  | .ewise =>
    if sub = 5 ∨ sub = 6 ∨ sub = 10 then (true, true, false, true, true, 0)
    else if sub = 9 then (true, true, false, false, true, 0) else (true, true, true, false, true, 0)
  | .lutDirect => (true, true, false, true, true, 0)
  | .lutPwl => (true, true, false, true, true, 0)
  | .pool => (true, true, false, false, true, 0xF)
  | .resize => (true, true, false, false, true, 0x1)
  | .argmax => (true, true, false, false, true, 0)
  | .dcmpCompare => (true, true, true, true, true, 0x1FFFF)
  | .dcmpForce => (true, true, true, true, true, 0x1FFFF)
  | .dmrgMerge => (true, true, false, false, true, 0xFFFFF)
  | .dmrgAdd => (true, true, false, false, true, 0xFFFFF)
  | .dmrgDilate => (false, true, false, true, true, 0xFFFFF)
  | .bwdDgrad => (true, true, true, false, true, 0xFF)
  | .bwdWgrad => (true, true, true, false, true, 0xFF)
  | .opt => (true, true, true, true, true, 0)
  | .xfixShelf => (true, true, true, false, true, 0)
  | .xfixDrawer => (true, true, true, false, true, 0)
  | .dmaRead => (false, true, true, true, true, 0x7FF)
  | .dmaWrite => (false, true, true, true, true, 0x7FF)
  | .rxferRead => (false, true, false, true, true, 0xFFF)
  | .rxferWrite => (false, true, false, true, true, 0xFFF)
  | .rcopy => (true, true, false, false, true, 0)
  | .smld => (false, true, false, true, true, 0)
  | .smst => (false, true, false, true, true, 0)
  | .psend => (false, true, false, false, true, 0xF)
  | .qstatCurrent => (true, true, false, false, true, 0x1FFF)
  | .qstatHistory => (true, true, false, true, true, 0x1FFF)
  | .quant => (true, true, false, true, true, 0x1)
  | .deqFloat => (true, true, true, false, true, 0x3F)
  | .deqIntmul => (true, true, false, true, true, 0x3F)
  | .qcvt => (true, true, false, false, true, 0)
  | .ckctl => (false, false, false, false, false, 0xFFFF)
  | .digest => (false, true, false, true, true, 0)
  | .ptest => (false, true, false, true, true, 0)
  | _ => (true, true, true, true, true, 0xFFFFFF)

/-- No field that an instruction of format X does not use is non-zero (R240). -/
def xZero (o : OpC) (w : BitVec 64) : Bool :=
  let (d, a, b, x, t, m) := xUse o (fSub w)
  (d || fDd w == 0) && (a || fDa w == 0) && (b || fDb w == 0) && (x || fSx w == 0) && (t || fTk w == 0)
    && (fAux w &&& (0xFFFFFF - m)) == 0

/-- The fields of a word meet the rules of its instruction: zero fields are zero and no field holds a reserved encoding
(R208, R211–R224, Tables IS-3, IS-9 to IS-11, IT-4 to IT-8). -/
def opLegal (o : OpC) (w : BitVec 64) : Bool :=
  let zR := fld w 32 0 == 0
  let zI := fld w 37 32 == 0
  let maj := fMaj w
  let aux := fAux w
  let conv := bitsOf aux 4 2 ≤ 1 && bitsOf aux 6 2 ≤ 1
  match o with
  | .eq | .ne | .lt | .ge | .ltu | .geu | .tst => (if maj = 2 then zR else zI) && fRd w / 8 == 0
  | .pand | .por | .pxor | .pandn => zR && fRd w / 8 == 0 && fRa w / 8 == 0 && fRb w / 8 == 0
  | .pnot => zR && fRd w / 8 == 0 && fRa w / 8 == 0 && fRb w == 0
  | .ptos => zR && fRa w / 8 == 0 && fRb w / 8 == 0
  | .predStop => zR && fRd w == 0 && fRb w == 0
  | .lb | .lbu | .lh | .lhu | .lw | .sb | .sh | .sw | .dld | .dsto => zI
  | .dget | .dset | .dcpy => zI && fImm w / 8 == 0
  | .info => zI && fRa w == 0 && fImm w ≤ 0x0E
  | .br => zI && fBra w == 0 && fBrb w == 0 && fBaux w == 0
  | .bcc => zI && fBaux w ≤ 5
  | .call | .endstripe | .eret => zI
  | .jr => zI && fOff w == 0
  | .twait => fMode w == 0 && fMask w == 0 && fTimm w == 0 && fRd w == 0 && fRa w == 0
  | .twaitm | .ttest => true
  | .bar | .gsend | .grecv => fMode w ≤ 1
  | .wwait => fTimm w / 256 == 0
  | .trap => zI && fRd w == 0 && fRa w == 0
  | .halt => zI && fRd w == 0 && fRa w == 0 && fImm w == 0
  | .crr | .crw | .srseed | .logput => zI
  | .add | .sub | .and_ | .or_ | .xor_ | .sll | .srl | .sra | .mul | .mulh | .mulhu | .min_ | .max_ | .minu | .maxu =>
    if maj = 0 then zR else zI
  | .conv | .dwconv | .bwdDgrad | .bwdWgrad => xZero o w && conv
  | .lutPwl => xZero o w && fSx w ≤ 30
  | .pool => xZero o w && bitsOf aux 0 2 ≤ 1 && bitsOf aux 2 2 ≤ 1
  | .rxferRead | .rxferWrite => xZero o w && bitsOf aux 3 8 ≤ 31
  | .qstatCurrent | .qstatHistory => xZero o w && bitsOf aux 0 3 ≤ 4
  | .deqFloat | .deqIntmul => xZero o w && bitsOf aux 0 6 ≤ 47
  | .ckctl =>
    -- R444: the mode 2 tolerance is a positive, finite, normal FP16
    xZero o w && (fSub w != 2 || (aux < 0x8000 && 1 ≤ bitsOf aux 10 5 && bitsOf aux 10 5 ≤ 30))
  | _ => xZero o w

/-- The instruction of a word, or none when it is ILLEGAL (R208). -/
def opOf (w : BitVec 64) : Option OpC :=
  match opCode w with
  | none => none
  | some o => if opLegal o w then some o else none

/-- A guarded instruction executes only when P[GP] xor GN equals 1 (R207). `p` holds P7–P0, P0 reading 1. -/
def guardOn (w : BitVec 64) (p : Nat) : Bool := fGe w == 0 || (bitsOf p (fGp w) 1 != fGn w)

end Sys2Proof.Machine
end

