-- ==== Sys2Proof/Machine/Operands.lean ====
section
/-! DEFINITION. Operands of stripe instructions: S, P and D registers (R204), register parity (R439), instruction fetch
(R148, R150), SMEM (R149), and the one way an instruction of a context runs (R207, R208). -/

namespace Sys2Proof.Machine

/-! ### Registers of a context -/

/-- S[i]; S0 reads 0 (R204). -/
def Ctx.rs (c : Ctx) (i : Nat) : Word := if i = 0 then 0#32 else vget c.s (reg32 i)

/-- Writes S[i]; a write to S0 is ignored (R204). -/
def Ctx.ws (c : Ctx) (i : Nat) (v : Word) : Ctx :=
  if i = 0 then c else { c with s := vset c.s (reg32 i) v, parBad := mset (dflt false) c.parBad i false }

/-- P7–P0 as a number; P0 reads 1 (R204). -/
def Ctx.preds (c : Ctx) : Nat := c.p.toNat / 2 * 2 + 1

/-- P[i]. -/
def Ctx.rp (c : Ctx) (i : Nat) : Bool := bitsOf c.preds i 1 == 1

/-- Writes P[i]; a write to P0 is ignored (R204). -/
def Ctx.wp (c : Ctx) (i : Nat) (b : Bool) : Ctx :=
  if i = 0 then c
  else { c with p := BitVec.ofNat 8 (c.preds - bitsOf c.preds i 1 * 2 ^ i + (if b then 2 ^ i else 0)),
                parBad := mset (dflt false) c.parBad (32 + i) false }

/-- D[i]. -/
def Ctx.rdesc (c : Ctx) (i : Nat) : BitVec 256 := vget c.d (reg32 i)

/-- Writes D[i] whole. -/
def Ctx.wdesc (c : Ctx) (i : Nat) (v : BitVec 256) : Ctx :=
  { c with d := vset c.d (reg32 i) v,
           parBad := msets (dflt false) c.parBad ((upFrom (64 + 8 * i) 8).map (fun k => (k, false))) }

/-- Writes word `w` of D[i] (R214). -/
def Ctx.wdword (c : Ctx) (i w : Nat) (v : Word) : Ctx :=
  let d := (c.rdesc i).toNat
  { c with d := vset c.d (reg32 i) (BitVec.ofNat 256 (d - bitsOf d (32 * w) 32 * 2 ^ (32 * w) + v.toNat * 2 ^ (32 * w))),
           parBad := mset (dflt false) c.parBad (64 + 8 * i + w) false }

/-- The register words an instruction reads, by the keys of `Ctx.parBad` (R439). -/
def srcRegs (o : OpC) (w : BitVec 64) : List Nat :=
  let sreg (i : Nat) : List Nat := if i = 0 then [] else [i]
  let desc (i : Nat) : List Nat := upFrom (64 + 8 * i) 8
  let guard := if fGe w = 1 ∧ fGp w ≠ 0 then [32 + fGp w] else []
  let preg (i : Nat) : List Nat := if i = 0 then [] else [32 + i]
  let x : List Nat :=
    let (d, a, b, sx, _, _) := xUse o (fSub w)
    (if d then desc (fDd w) else []) ++ (if a then desc (fDa w) else [])
      ++ (if b then (match o with
          | .dmaRead => sreg (fDb w)
          | .dmaWrite => sreg (fDb w)
          | _ => desc (fDb w)) else [])
      ++ (if sx then sreg (fSx w) ++ (if o = .lutPwl then sreg (fSx w + 1) else []) else [])
  guard ++
    match o with
    | .add | .sub | .and_ | .or_ | .xor_ | .sll | .srl | .sra | .mul | .mulh | .mulhu | .min_ | .max_ | .minu | .maxu =>
      sreg (fRa w) ++ (if fMaj w = 0 then sreg (fRb w) else [])
    | .eq | .ne | .lt | .ge | .ltu | .geu | .tst => sreg (fRa w) ++ (if fMaj w = 2 then sreg (fRb w) else [])
    | .pand | .por | .pxor | .pandn => preg (fRa w) ++ preg (fRb w)
    | .pnot => preg (fRa w)
    | .ptos => upFrom 33 7
    | .predStop => sreg (fRa w)
    | .lb | .lbu | .lh | .lhu | .lw | .dld => sreg (fRa w)
    | .sb | .sh | .sw => sreg (fRa w) ++ sreg (fRd w)
    | .dget => [64 + 8 * fRa w + fImm w % 8]
    | .dset => sreg (fRa w)
    | .dsto => sreg (fRa w) ++ desc (fRd w)
    | .dcpy => desc (fRa w)
    | .bcc => sreg (fBra w) ++ sreg (fBrb w)
    | .jr => sreg (fBra w)
    | .gsend | .grecv => desc (fRd w)
    | .wwait => sreg (fRa w)
    | .crr => sreg (fRa w)
    | .crw => sreg (fRa w) ++ sreg (fRd w)
    | .srseed => sreg (fRa w)
    | .logput => sreg (fRa w)
    | .info | .br | .call | .endstripe | .eret | .twait | .twaitm | .ttest | .bar | .trap | .halt => []
    | _ => x

/-! ### Memories of a context -/

/-- First word and count of the context's instruction range (R148). -/
def State.imemRange (s : State) (k : Fin 8) (x : Fin 3) : Nat × Nat :=
  if x = 2 then
    match s.slotOn k with
    | some t => ((t.savedImem.map (·.1)).head?.getD 0, t.savedImem.length)
    | none => (0, 0)
  else
    match (s.ctx k x).job.bind s.job with
    | some j => ((j.on k).imemFirst, (j.on k).imemCount)
    | none => (0, 0)

/-- First byte and count of the context's SMEM range (R149). -/
def State.smemRange (s : State) (k : Fin 8) (x : Fin 3) : Nat × Nat :=
  if x = 2 then
    match s.slotOn k with
    | some t => ((t.savedSmem.map (·.1)).head?.getD 0, t.savedSmem.length)
    | none => (0, 0)
  else
    match (s.ctx k x).job.bind s.job with
    | some j => ((j.on k).smemFirst, (j.on k).smemCount)
    | none => (0, 0)

/-- The exception of an SMEM access of `n` bytes at `a` aligned to `al`, or 0 (R149, R150, R213). MISALIGN is found
first (log entry 21). -/
def State.smemCheck (s : State) (k : Fin 8) (x : Fin 3) (a n al : Nat) (read : Bool) : Nat :=
  let (f, c) := s.smemRange k x
  if a % al ≠ 0 then excMisalign
  else if 65536 < a + n ∨ a < f ∨ f + c < a + n then excSmemRange
  else if read ∧ (upFrom a n).any (fun i => mget (dflt false) (s.core k).smemBad i) then excSmemEcc else 0

/-- Bytes of SMEM. -/
def State.smemGet (s : State) (k : Fin 8) (a n : Nat) : List Byte :=
  (upFrom a n).map (fun i => mget (dflt 0#8) (s.core k).smem i)

/-- Writes bytes of SMEM. -/
def State.smemPut (s : State) (k : Fin 8) (a : Nat) (bs : List Byte) : State :=
  let c := s.core k
  let l := upFrom a bs.length
  s.setCore k { c with smem := msets (dflt 0#8) c.smem (l.zip bs),
                       smemBad := msets (dflt false) c.smemBad (l.map (fun i => (i, false))) }

/-! ### Running one instruction -/

/-- What a context does at its program counter. -/
inductive Fetch where
  /-- It does not issue now. -/
  | no
  /-- The fetch or the decode raises an exception. -/
  | exc (cause : Nat)
  /-- An instruction, guarded off. -/
  | skip (o : OpC)
  /-- A register word that it reads fails parity. -/
  | parity (o : OpC)
  /-- An instruction that executes, with its word. -/
  | run (o : OpC) (w : BitVec 64)
deriving DecidableEq, Repr

/-- The context issues instructions: its core is in RUN with no initialisation or wake pass, a stripe is in progress, it
is not halted, it waits at no barrier, hold or full queue, and it is the context that issues (R138, R139, R194, R220). -/
def State.canIssue (s : State) (k : Fin 8) (x : Fin 3) : Bool :=
  let c := s.ctx k x
  !s.off && s.pstate k == 0 && !(s.core k).initing && !(s.core k).waking && c.running && !c.halted && !c.atBar && !c.held
    && c.stalled.isNone && c.stallG.isNone && c.crWait.isNone
    && (if x = 2 then (s.slotOn k).isSome else s.getF (F.CORE_STATUS_ACTIVE k) == x.val && (s.slotOn k).isNone)

/-- What stands at the program counter of a context (R148, R150, R207, R208, R439). -/
def State.fetchOp (s : State) (k : Fin 8) (x : Fin 3) : Fetch :=
  let c := s.ctx k x
  let (f, n) := s.imemRange k x
  if !s.canIssue k x then .no
  else if c.pc < f ∨ f + n ≤ c.pc then .exc excFetchRange
  else if mget (dflt false) (s.core k).imemBad c.pc then .exc excImemEcc
  else
    let w := mget (dflt 0#64) (s.core k).imem c.pc
    match opOf w with
    | none => .exc excIllegal
    | some o =>
      if fGe w = 1 ∧ mget (dflt false) c.parBad (32 + fGp w) then .parity o
      else if !guardOn w c.preds then .skip o
      else if (srcRegs o w).any (fun r => mget (dflt false) c.parBad r) then .parity o
      else .run o w

/-- Moves a context's program counter. -/
def State.goTo (s : State) (k : Fin 8) (x : Fin 3) (pc : Nat) : State := s.setCtx k x { s.ctx k x with pc := pc % 32768 }

/-- Moves to the next instruction. -/
def State.advance (s : State) (k : Fin 8) (x : Fin 3) : State := s.goTo k x ((s.ctx k x).pc + 1)

/-- A register parity failure (R439): the context halts, and the REG_PARITY record kills its job. -/
def State.regParity (s : State) (k : Fin 8) (x : Fin 3) : State :=
  let c := s.ctx k x
  let s := (s.setCtx k x { c with halted := true }).setHalted k x 1
  let r := { mkRec s.time.aft (coreUnit k 0) 0x15 with job := c.job.getD 0, kill := true, core := some k.val }
  (s.reportAft r).settle k

/-- Runs the instruction at the program counter of context `x` of core `k` when it is `op`: `body` is its effect. The word
of another instruction is left to that instruction's own command; a fetch or decode exception is raised by any. -/
def State.instr (s : State) (k : Fin 8) (x : Fin 3) (op : OpC) (body : BitVec 64 → State → State) : State :=
  match s.fetchOp k x with
  | .no => s
  | .exc cause => s.raise k x (s.ctx k x).pc cause none 0
  | .skip o => if o = op then s.advance k x else s
  | .parity o => if o = op then s.regParity k x else s
  | .run o w => if o = op then body w s else s

/-- An instruction that changes registers of its context only, then goes on. -/
def State.regOp (s : State) (k : Fin 8) (x : Fin 3) (f : Ctx → Ctx) : State :=
  let c := f (s.ctx k x)
  s.setCtx k x { c with pc := (c.pc + 1) % 32768 }

/-- Raises an exception at the instruction in progress. -/
def State.trapAt (s : State) (k : Fin 8) (x : Fin 3) (cause : Nat) : State :=
  s.raise k x (s.ctx k x).pc cause none 0

/-! ### Operand forms -/

/-- Operand B of the ALU and compare groups: S[RB], or IMM for the odd major opcodes (R210, R211). -/
def opB (c : Ctx) (w : BitVec 64) : Word := if fMaj w % 2 = 0 then c.rs (fRb w) else BitVec.ofNat 32 (fImm w)

/-- The SMEM or register address S[RA] + IMM, modulo 2³² (R213, R231). -/
def addrOf (c : Ctx) (w : BitVec 64) : Nat := (c.rs (fRa w) + BitVec.ofNat 32 (fImm w)).toNat

/-- The branch target PC + OFF (R216). -/
def branchTo (c : Ctx) (w : BitVec 64) : Int := c.pc + signed 16 (fOff w)

end Sys2Proof.Machine
end

