-- ==== Sys2Proof/Machine/Scalar.lean ====
section
/-! DEFINITION. The scalar group: ALU, compares, predicates, loads and stores, descriptors and INFO (R210–R215). -/

namespace Sys2Proof.Machine

/-- An ALU instruction: S[RD] = S[RA] op B (R210). -/
def State.alu (m : Nat) (k : Fin 8) (x : Fin 3) (w : BitVec 64) (s : State) : State :=
  s.regOp k x (fun c => c.ws (fRd w) (aluOp m (c.rs (fRa w)) (opB c w)))

/-- A compare: P[RD[2:0]] = S[RA] compared with B (R211). -/
def State.compare (m : Nat) (k : Fin 8) (x : Fin 3) (w : BitVec 64) (s : State) : State :=
  s.regOp k x (fun c => c.wp (fRd w % 8) (cmpOp m (c.rs (fRa w)) (opB c w)))

/-- A predicate instruction (R212). -/
def State.predicate (m : Nat) (k : Fin 8) (x : Fin 3) (w : BitVec 64) (s : State) : State :=
  s.regOp k x (fun c => c.wp (fRd w % 8) (predOp m (c.rp (fRa w % 8)) (c.rp (fRb w % 8))))

/-- A load of `n` bytes, sign-extended or not (R213). -/
def State.load (n : Nat) (sgn : Bool) (k : Fin 8) (x : Fin 3) (w : BitVec 64) (s : State) : State :=
  let a := addrOf (s.ctx k x) w
  let e := s.smemCheck k x a n n true
  if e ≠ 0 then s.trapAt k x e
  else
    let v := leNat (s.smemGet k a n)
    let v := if sgn then BitVec.ofInt 32 (signed (8 * n) v) else BitVec.ofNat 32 v
    s.regOp k x (fun c => c.ws (fRd w) v)

/-- A store of `n` bytes (R213). -/
def State.store (n : Nat) (k : Fin 8) (x : Fin 3) (w : BitVec 64) (s : State) : State :=
  let c := s.ctx k x
  let a := addrOf c w
  let e := s.smemCheck k x a n n false
  if e ≠ 0 then s.trapAt k x e
  else (s.smemPut k a (leBytes n (c.rs (fRd w)).toNat)).advance k x

/-- ADD (R210). -/
def execAdd (k : Fin 8) (x : Fin 3) (s : State) : Out := .next (s.instr k x .add (State.alu 0 k x))

/-- SUB (R210). -/
def execSub (k : Fin 8) (x : Fin 3) (s : State) : Out := .next (s.instr k x .sub (State.alu 1 k x))

/-- AND (R210). -/
def execAndOp (k : Fin 8) (x : Fin 3) (s : State) : Out := .next (s.instr k x .and_ (State.alu 2 k x))

/-- OR (R210). -/
def execOrOp (k : Fin 8) (x : Fin 3) (s : State) : Out := .next (s.instr k x .or_ (State.alu 3 k x))

/-- XOR (R210). -/
def execXorOp (k : Fin 8) (x : Fin 3) (s : State) : Out := .next (s.instr k x .xor_ (State.alu 4 k x))

/-- SLL (R210). -/
def execSll (k : Fin 8) (x : Fin 3) (s : State) : Out := .next (s.instr k x .sll (State.alu 5 k x))

/-- SRL (R210). -/
def execSrl (k : Fin 8) (x : Fin 3) (s : State) : Out := .next (s.instr k x .srl (State.alu 6 k x))

/-- SRA (R210). -/
def execSra (k : Fin 8) (x : Fin 3) (s : State) : Out := .next (s.instr k x .sra (State.alu 7 k x))

/-- MUL (R210). -/
def execMul (k : Fin 8) (x : Fin 3) (s : State) : Out := .next (s.instr k x .mul (State.alu 8 k x))

/-- MULH (R210). -/
def execMulh (k : Fin 8) (x : Fin 3) (s : State) : Out := .next (s.instr k x .mulh (State.alu 9 k x))

/-- MULHU (R210). -/
def execMulhu (k : Fin 8) (x : Fin 3) (s : State) : Out := .next (s.instr k x .mulhu (State.alu 10 k x))

/-- MIN (R210). -/
def execMin (k : Fin 8) (x : Fin 3) (s : State) : Out := .next (s.instr k x .min_ (State.alu 11 k x))

/-- MAX (R210). -/
def execMax (k : Fin 8) (x : Fin 3) (s : State) : Out := .next (s.instr k x .max_ (State.alu 12 k x))

/-- MINU (R210). -/
def execMinu (k : Fin 8) (x : Fin 3) (s : State) : Out := .next (s.instr k x .minu (State.alu 13 k x))

/-- MAXU (R210). -/
def execMaxu (k : Fin 8) (x : Fin 3) (s : State) : Out := .next (s.instr k x .maxu (State.alu 14 k x))

/-- EQ (R211). -/
def execEq (k : Fin 8) (x : Fin 3) (s : State) : Out := .next (s.instr k x .eq (State.compare 0 k x))

/-- NE (R211). -/
def execNe (k : Fin 8) (x : Fin 3) (s : State) : Out := .next (s.instr k x .ne (State.compare 1 k x))

/-- LT (R211). -/
def execLt (k : Fin 8) (x : Fin 3) (s : State) : Out := .next (s.instr k x .lt (State.compare 2 k x))

/-- GE (R211). -/
def execGe (k : Fin 8) (x : Fin 3) (s : State) : Out := .next (s.instr k x .ge (State.compare 3 k x))

/-- LTU (R211). -/
def execLtu (k : Fin 8) (x : Fin 3) (s : State) : Out := .next (s.instr k x .ltu (State.compare 4 k x))

/-- GEU (R211). -/
def execGeu (k : Fin 8) (x : Fin 3) (s : State) : Out := .next (s.instr k x .geu (State.compare 5 k x))

/-- TST (R211). -/
def execTst (k : Fin 8) (x : Fin 3) (s : State) : Out := .next (s.instr k x .tst (State.compare 6 k x))

/-- PAND (R212). -/
def execPand (k : Fin 8) (x : Fin 3) (s : State) : Out := .next (s.instr k x .pand (State.predicate 0 k x))

/-- POR (R212). -/
def execPor (k : Fin 8) (x : Fin 3) (s : State) : Out := .next (s.instr k x .por (State.predicate 1 k x))

/-- PXOR (R212). -/
def execPxor (k : Fin 8) (x : Fin 3) (s : State) : Out := .next (s.instr k x .pxor (State.predicate 2 k x))

/-- PANDN (R212). -/
def execPandn (k : Fin 8) (x : Fin 3) (s : State) : Out := .next (s.instr k x .pandn (State.predicate 3 k x))

/-- PNOT (R212). -/
def execPnot (k : Fin 8) (x : Fin 3) (s : State) : Out := .next (s.instr k x .pnot (State.predicate 4 k x))

/-- PTOS: S[RD] = P7–P0 (R212). -/
def execPtos (k : Fin 8) (x : Fin 3) (s : State) : Out :=
  .next (s.instr k x .ptos (fun w s => s.regOp k x (fun c => c.ws (fRd w) (BitVec.ofNat 32 c.preds))))

/-- STOP: Pi = S[RA] bit i for i = 1–7 (R212). -/
def execPredStop (k : Fin 8) (x : Fin 3) (s : State) : Out :=
  .next (s.instr k x .predStop (fun w s => s.regOp k x (fun c =>
    let v := (c.rs (fRa w)).toNat
    (upFrom 1 7).foldl (fun c i => c.wp i (bitsOf v i 1 == 1)) c)))

/-- LB (R213). -/
def execLb (k : Fin 8) (x : Fin 3) (s : State) : Out := .next (s.instr k x .lb (State.load 1 true k x))

/-- LBU (R213). -/
def execLbu (k : Fin 8) (x : Fin 3) (s : State) : Out := .next (s.instr k x .lbu (State.load 1 false k x))

/-- LH (R213). -/
def execLh (k : Fin 8) (x : Fin 3) (s : State) : Out := .next (s.instr k x .lh (State.load 2 true k x))

/-- LHU (R213). -/
def execLhu (k : Fin 8) (x : Fin 3) (s : State) : Out := .next (s.instr k x .lhu (State.load 2 false k x))

/-- LW (R213). -/
def execLw (k : Fin 8) (x : Fin 3) (s : State) : Out := .next (s.instr k x .lw (State.load 4 false k x))

/-- SB (R213). -/
def execSb (k : Fin 8) (x : Fin 3) (s : State) : Out := .next (s.instr k x .sb (State.store 1 k x))

/-- SH (R213). -/
def execSh (k : Fin 8) (x : Fin 3) (s : State) : Out := .next (s.instr k x .sh (State.store 2 k x))

/-- SW (R213). -/
def execSw (k : Fin 8) (x : Fin 3) (s : State) : Out := .next (s.instr k x .sw (State.store 4 k x))

/-- DGET: S[RD] = word IMM[2:0] of D[RA] (R214). -/
def execDget (k : Fin 8) (x : Fin 3) (s : State) : Out :=
  .next (s.instr k x .dget (fun w s => s.regOp k x (fun c =>
    c.ws (fRd w) (BitVec.ofNat 32 (bitsOf (c.rdesc (fRa w)).toNat (32 * (fImm w % 8)) 32)))))

/-- DSET: word IMM[2:0] of D[RD] = S[RA] (R214). -/
def execDset (k : Fin 8) (x : Fin 3) (s : State) : Out :=
  .next (s.instr k x .dset (fun w s => s.regOp k x (fun c => c.wdword (fRd w) (fImm w % 8) (c.rs (fRa w)))))

/-- DLD: D[RD] = 32 bytes of SMEM at S[RA] + IMM (R214). -/
def execDld (k : Fin 8) (x : Fin 3) (s : State) : Out :=
  .next (s.instr k x .dld (fun w s =>
    let a := addrOf (s.ctx k x) w
    let e := s.smemCheck k x a 32 32 true
    if e ≠ 0 then s.trapAt k x e
    else
      let v := BitVec.ofNat 256 (leNat (s.smemGet k a 32))
      s.regOp k x (fun c => c.wdesc (fRd w) v)))

/-- DSTO: 32 bytes of SMEM at S[RA] + IMM = D[RD] (R214). -/
def execDsto (k : Fin 8) (x : Fin 3) (s : State) : Out :=
  .next (s.instr k x .dsto (fun w s =>
    let c := s.ctx k x
    let a := addrOf c w
    let e := s.smemCheck k x a 32 32 false
    if e ≠ 0 then s.trapAt k x e
    else (s.smemPut k a (leBytes 32 (c.rdesc (fRd w)).toNat)).advance k x))

/-- DCPY: D[RD] = D[RA] (R214). -/
def execDcpy (k : Fin 8) (x : Fin 3) (s : State) : Out :=
  .next (s.instr k x .dcpy (fun w s => s.regOp k x (fun c => c.wdesc (fRd w) (c.rdesc (fRa w)))))

/-! ### INFO (R215, Table IS-9) -/

/-- The core whose tile a core reports: its primary's on a secondary (R166). -/
def Job.tileCore (j : Job) (c : Ctx) (k : Nat) : Nat := if j.secondary c k then k - 1 else k

/-- INFO selectors 0x05 to 0x08 and 0x0E, which the job and its tile map give. -/
def infoJob (j : Job) (c : Ctx) (k : Nat) (sel : Nat) : Nat :=
  let t := j.tileCore c k
  let b (p : Bool) (n : Nat) : Nat := if p then n else 0
  let first := firstCol c.tiles t
  let width := nth 0 c.tiles t
  match sel with
  | 5 => first
  | 6 => width
  | 7 => b (first == 0) 1 + b (first + width == j.width) 2 + b (c.stripe == 0) 4 + b (!j.session && c.stripe == c.nStr) 8
  | 8 => b c.prevAborted 1 + b (j.secondary c k) 2 + b c.frameFlags 4
  | _ => if j.session then 1 else c.nStr + 1

/-- The value an INFO selector names (Table IS-9). -/
def State.info (s : State) (k : Fin 8) (x : Fin 3) (sel : Nat) : Nat :=
  let c := s.ctx k x
  match sel with
  | 0 => k.val
  | 1 => x.val
  | 2 => c.job.getD 0
  | 3 => c.stripe
  | 4 => c.frame
  | 9 => s.time.aft
  | 0xA => c.infoHi.toNat
  | 0xB => c.dk
  | 0xC => c.epc
  | 0xD => c.ecause.toNat
  | n =>
    match c.job.bind s.job with
    | some j => infoJob j c k.val n
    | none => 0

/-- INFO (R215); selector 0x09 latches DTIME [63:32] of the core's replica. -/
def execInfo (k : Fin 8) (x : Fin 3) (s : State) : Out :=
  .next (s.instr k x .info (fun w s =>
    let sel := fImm w % 256
    let v := s.info k x sel
    let t := s.time.aft
    s.regOp k x (fun c =>
      let c := if sel = 9 then { c with infoHi := BitVec.ofNat 32 (t / 2 ^ 32) } else c
      c.ws (fRd w) (BitVec.ofNat 32 v))))

end Sys2Proof.Machine
end

