-- ==== Sys2Proof/Machine/Issue.lean ====
section
/-! DEFINITION. Issue of the instructions of format X (R139–R143, R205, R240–R247): the checks raised at issue, the capture
of operands, the unit queues, and CKCTL. -/

namespace Sys2Proof.Machine

/-! ### Operand rules (R242, R247, R248, R254–R265, R299, R312) -/

/-- Elements can be found in the tensor: a layout of elements, positions of at most 512 bytes, and a row pitch that holds a
spatial row (R203). DESIGN CHOICE: a PITCH below the rows that one spatial row fills, and a PM position of more than 512 bytes,
are ILLEGAL at issue (log entry 136). -/
def Desc.elemsOk (d : Desc) : Bool := d.dense && decide (1 ≤ d.perRow) && decide (d.used ≤ d.pitch)

/-- A destination row set is disjoint from a source row set, or the same where that is allowed (R247). -/
def rowsOk (dd s : Desc) (same : Bool) : Bool :=
  let a := dd.rows
  let b := s.rows
  if dd.space != s.space then true
  else if a = b then same else a.all (fun r => !b.contains r)

/-- Tensors of equal extents (R259). -/
def Desc.like (a b : Desc) : Bool := a.d0 == b.d0 && a.d1 == b.d1 && a.d2 == b.d2 && a.d3 == b.d3

/-- The reach of a spatial instruction lies within the input's halo (R248). -/
def reachOk (da : Desc) (p : ConvP) (d0 d1 : Nat) (flush : Bool) : Bool :=
  decide (-(da.hl : Int) ≤ p.col 0 0) && decide (p.col (d0 - 1) (p.kw - 1) ≤ ((da.d0 + da.hr : Nat) : Int) - 1)
    && (flush || decide (p.row da.arows (d1 - 1) (p.kh - 1) ≤ (da.d1 : Int) - 1))

/-- Rules of CONV and MMUL (R254, R255, R308). -/
def convRule (flush : Bool) (dd da db : Desc) (p : ConvP) (mmul grs : Bool) : Bool :=
  let ints := etInt da.etype && etInt db.etype
  dd.elemsOk && da.elemsOk && (db.layout == 3 || db.elemsOk)
    && dd.etype == (if ints && !grs then 8 else 9)
    && (!grs || (ints && db.sckind == 3 && db.d2 % db.g == 0))
    && db.d0 == p.kh * p.kw && db.d1 == 1 && db.d3 == dd.d2 && da.d3 == dd.d3
    && (if db.layout = 3 then db.d2 == (da.d2 + 63) / 64 * 64 else db.d2 == da.d2)
    && (if mmul then dd.d0 == da.d0 && dd.d1 == da.d1 else reachOk da p dd.d0 dd.d1 flush)
    && rowsOk dd da false && rowsOk dd db false

/-- Rules of WINO (R256, R312). -/
def winoRule (flush : Bool) (dd da db : Desc) (sub : Nat) : Bool :=
  let t := if sub = 0 then 2 else 4
  dd.d0 % t == 0 && dd.d1 % t == 0 && dd.elemsOk && da.elemsOk && dd.etype == (if etInt da.etype then 8 else 9)
    && (db.layout == 3 || (db.layout == 2 && db.elemsOk && db.d0 == (t + 2) * (t + 2) && db.d1 == 1
      && db.d2 == da.d2 && db.d3 == dd.d2
      && db.etype == (if da.etype ≤ 1 then 7 else if da.etype = 5 then 5 else db.etype)))
    && da.d3 == dd.d3 && reachOk da ⟨3, 3, 1, 1⟩ dd.d0 dd.d1 flush && rowsOk dd da false && rowsOk dd db false

/-- Rules of BWD (R258). -/
def bwdRule (flush : Bool) (dd da db : Desc) (sub : Nat) (p : ConvP) : Bool :=
  dd.elemsOk && da.elemsOk && db.elemsOk && rowsOk dd da false && rowsOk dd db false
    && (if sub = 0 then
        dd.etype == (if etInt da.etype && etInt db.etype then 8 else 9) && db.d0 == p.kh * p.kw && db.d1 == 1
          && db.d2 == dd.d2 && db.d3 == da.d2 && da.d3 == dd.d3
      else
        dd.etype == 9 && dd.d0 == p.kh * p.kw && dd.d1 == 1 && dd.d2 == db.d2 && dd.d3 == da.d2 && db.d3 == da.d3
          && reachOk db p da.d0 da.d1 flush)

/-- Rules of EWISE (R259). -/
def ewiseRule (dd da db : Desc) (sub : Nat) : Bool :=
  let two := decide (sub ≤ 4)
  let ch := sub == 7 || sub == 8
  dd.elemsOk && da.elemsOk && dd.like da && rowsOk dd da true
    && (!two || (db.elemsOk && db.like da && rowsOk dd db true))
    && (!ch || (db.elemsOk && db.d0 == 1 && db.d1 == 1 && db.d3 == 1 && db.d2 == da.d2 && rowsOk dd db true))

/-- Rules of XFIX (R257, R299, R308). -/
def xfixRule (dd da db : Desc) (shelf : Bool) : Bool :=
  dd.elemsOk && da.elemsOk && (db.layout == 3 || db.elemsOk) && db.d0 == 1 && db.d1 == 1
    && (!shelf || da.shelfn == db.shelfn)
    && (dd.etype == 8 || (dd.etype == 9 && db.sckind == 3 && db.d2 % db.g == 0))
    && dd.d0 == da.d0 && dd.d1 == da.d1 && dd.d3 == da.d3 && dd.d2 == db.d3
    && rowsOk dd da false && rowsOk dd db false

/-- Rules of QUANT, DEQ and QCVT (R275, R276, R292, R306). -/
def quantRule (o : OpC) (dd da db : Desc) (asym : Bool) : Bool :=
  dd.elemsOk && da.elemsOk && dd.like da
    && (match o with
      | .quant => (dd.sckind == 1 || dd.sckind == 2) && !(asym && dd.etype == 2) && rowsOk dd da false
      | .deqFloat => (da.etype == 8 || da.etype == 9) && (da.sckind == 1 || da.sckind == 2) && db.sckind != 3
          && rowsOk dd da false && rowsOk dd db false
      | .deqIntmul => da.etype == 8 && rowsOk dd da false
      | _ => rowsOk dd da true)

/-- The operand rules of an instruction with its descriptors. -/
def operandRule (o : OpC) (w : BitVec 64) (flush : Bool) (dd da db : Desc) : Bool :=
  let aux := fAux w
  let sub := fSub w
  match o with
  | .conv => convRule flush dd da db (convP aux) false (bitsOf aux 9 1 == 1)
  | .mmul => convRule flush dd da db oneP true (bitsOf aux 9 1 == 1)
  | .wino => winoRule flush dd da db sub
  | .dwconv =>
    dd.elemsOk && da.elemsOk && db.elemsOk && db.layout == 1 && db.d0 == (convP aux).kh * (convP aux).kw && db.d1 == 1
      && db.d2 == da.d2 && db.d3 == 1 && dd.d2 == da.d2 && dd.d3 == da.d3 && reachOk da (convP aux) dd.d0 dd.d1 flush
      && rowsOk dd da false && rowsOk dd db false
  | .ewise => ewiseRule dd da db sub
  | .lutDirect => dd.elemsOk && da.elemsOk && da.bits == 8 && dd.bits == 16 && dd.like da && rowsOk dd da true
  | .lutPwl => dd.elemsOk && da.elemsOk && (da.etype == 5 || da.etype == 9) && dd.like da && rowsOk dd da true
  | .pool =>
    let n := 2 + bitsOf aux 0 2
    dd.elemsOk && da.elemsOk && dd.d2 == da.d2 && dd.d3 == da.d3
      && reachOk da ⟨n, n, 1 + bitsOf aux 2 2, 1⟩ dd.d0 dd.d1 flush && rowsOk dd da false
  | .resize =>
    dd.elemsOk && da.elemsOk && dd.d2 == da.d2 && dd.d3 == da.d3 && rowsOk dd da false
      && (if aux % 2 = 0 then dd.d0 == 2 * da.d0 && dd.d1 == 2 * da.d1 else da.d0 == 2 * dd.d0 && da.d1 == 2 * dd.d1)
  | .argmax =>
    dd.elemsOk && da.elemsOk && decide (da.d2 ≤ 256) && dd.etype == 0xA && dd.d2 == 1 && dd.d0 == da.d0 && dd.d1 == da.d1
      && dd.d3 == da.d3 && rowsOk dd da false
  | .dcmpCompare | .dcmpForce =>
    dd.elemsOk && da.elemsOk && db.elemsOk && da.like db && dd.like da && da.etype == db.etype && decide (da.d2 ≤ 256)
      && dd.etype == (if etInt da.etype then 7 else 5) && rowsOk dd da false && rowsOk dd db false
  | .dmrgMerge | .dmrgAdd => dd.elemsOk && da.elemsOk && dd.like da && rowsOk dd da true
  | .bwdDgrad | .bwdWgrad => bwdRule flush dd da db sub (convP aux)
  | .opt =>
    dd.elemsOk && da.elemsOk && db.elemsOk && da.etype == 4 && db.etype == 0 && dd.etype == 7 && da.d3 == 1 && db.d3 == 2
      && dd.like da && db.d0 == da.d0 && db.d1 == da.d1 && db.d2 == da.d2 && (db.sckind == 1 || db.sckind == 2)
      && rowsOk dd da false && rowsOk dd db false
  | .xfixShelf => xfixRule dd da db true
  | .xfixDrawer => xfixRule dd da db false
  | .qstatCurrent | .qstatHistory =>
    (da.layout == 3 || da.elemsOk) && dd.sckind == 2 && (etQmax dd.etype).isSome && rowsOk dd da false
  | .quant | .deqFloat | .deqIntmul | .qcvt => quantRule o dd da db (bitsOf aux 0 1 == 1)
  | .rcopy => dd.rows.length == da.rows.length && rowsOk dd da false
  | _ => true

/-! ### Capture and queues -/

/-- Unit queue of an instruction (Table CO-2): 0 array, 1 vector, 2 quantise, 3 transfer, 4 check. -/
def unitOf (o : OpC) : Nat :=
  match o with
  | .conv | .wino | .mmul | .bwdDgrad | .bwdWgrad => 0
  | .qstatCurrent | .qstatHistory | .quant | .deqFloat | .deqIntmul | .qcvt => 2
  | .dmaRead | .dmaWrite | .rxferRead | .rxferWrite | .rcopy | .smld | .smst | .psend => 3
  | .digest | .ptest => 4
  | _ => 1

/-- Depth of a unit queue, per context (Table CO-2). -/
def unitDepth (u : Nat) : Nat := nth 4 [8, 8, 4, 16, 4] u

/-- The SMEM range an instruction checks at issue: address, bytes, alignment (R265, R270, R280). -/
def smemUse (o : OpC) (sx : Nat) (da : Desc) : Option (Nat × Nat × Nat) :=
  match o with
  | .smld | .smst => some (sx, 512 * da.rows.length, 512)
  | .digest => some (sx, 16, 8)
  | .ptest => some (sx, 8, 8)
  | .opt => some (sx, 32, 32)
  | _ => none

/-- Draws that an instruction reserves (R290). -/
def drawsOf (o : OpC) (w : BitVec 64) (da : Desc) : Nat :=
  match o with
  | .quant | .qcvt => if fSub w = 1 then da.elems else 0
  | .opt => 3 * da.elems
  | _ => 0

/-- Puts a captured instruction into its queue, its token BUSY, its draws reserved (R142, R290). -/
def Ctx.enqueue (c : Ctx) (u n : Nat) (i : UInst) : Ctx :=
  let (x, r) := srReserve n c.srN c.sr
  { (c.setQueue u (c.queue u ++ [{ i with sr := c.sr, srN := c.srN }])).setToken i.tok ⟨.busy, 0⟩ with sr := x, srN := r }

/-- The instruction word with its operands as they stand at issue (R205). -/
def State.capture (s : State) (k : Fin 8) (x : Fin 3) (o : OpC) (w : BitVec 64) : UInst :=
  let c := s.ctx k x
  let (ud, ua, ub, ux, _, _) := xUse o (fSub w)
  let trans := unitOf o == 3
  let par := if o = .opt then BitVec.ofNat 256 (leNat (s.smemGet k (c.rs (fSx w)).toNat 32)) else 0
  { word := w, pc := c.pc, tok := fTk w, job := c.job.getD 0, stripe := c.stripe,
    dd := if ud then c.rdesc (fDd w) else 0, da := if ua then c.rdesc (fDa w) else 0,
    db := if ub && !trans then c.rdesc (fDb w) else 0, dc := par,
    sx := if ux then (c.rs (fSx w)).toNat else 0,
    sy := if o = .lutPwl then (c.rs (fSx w + 1)).toNat else if trans && ub then (c.rs (fDb w)).toNat else 0,
    ck := c.ck, sr := 0, srN := 0, started := false, effs := [], cause := 0, frame := c.frame, satB := [], checked := [],
    replay := none, late := false }

/-- The exception of an instruction of format X at issue, or 0 (R242, R143). -/
def State.issueCheck (s : State) (k : Fin 8) (x : Fin 3) (o : OpC) (i : UInst) : Nat :=
  let w := i.word
  let (ud, ua, ub, _, _, _) := xUse o (fSub w)
  let ub := ub && unitOf o != 3
  let flush := match (s.ctx k x).job.bind s.job with
    | some j => bitsOf (infoJob j (s.ctx k x) k.val 7) 3 1 == 1
    | none => false
  let legal := (!ud || descLegal i.dd) && (!ua || descLegal i.da) && (!ub || descLegal i.db)
    && operandRule o w flush (descOf i.dd) (descOf i.da) (descOf i.db)
  if !legal then excIllegal
  else
    let e := match smemUse o i.sx (descOf i.da) with
      | none => 0
      | some (a, n, al) => s.smemCheck k x a n al (o != .smld && o != .digest && o != .ptest)
    if e ≠ 0 then e
    else if ((s.ctx k x).token i.tok).st ≠ .free then excTokenReuse else 0

/-- Issues an instruction of format X (R139, R142): the checks, then its queue, or a stall while that is full. -/
def State.issue (o : OpC) (k : Fin 8) (x : Fin 3) (w : BitVec 64) (s : State) : State :=
  let i := s.capture k x o w
  let e := s.issueCheck k x o i
  if e ≠ 0 then s.trapAt k x e
  else
    let c := s.ctx k x
    let u := unitOf o
    if unitDepth u ≤ (c.queue u).length then s.setCtx k x { c with stalled := some (u, i) }
    else (s.setCtx k x (c.enqueue u (drawsOf o w (descOf i.da)) i)).advance k x

/-- ISSUE_STALL_RELEASE (R139): an entry of the full queue, or of the ring stop, is free again. -/
def execIssueStallRelease (k : Fin 8) (x : Fin 3) (s : State) : Out :=
  let c := s.ctx k x
  match c.stalled with
  | some (u, i) =>
    match opOf i.word with
    | none => .next s
    | some o =>
      if unitDepth u ≤ (c.queue u).length then .next s
      else
        .next (((s.setCtx k x ({ c with stalled := none }.enqueue u (drawsOf o i.word (descOf i.da)) i)).advance k x).takeHalt
          k x)
  | none =>
    match c.stallG with
    | none => .next s
    | some g =>
      if 4 ≤ (c.greqs.filter (fun q => q.send == g.send)).length then .next s
      else
        .next (((s.setCtx k x ({ c with stallG := none, greqs := c.greqs ++ [g] }.setToken g.tok ⟨.busy, 0⟩)).advance
          k x).takeHalt k x)

/-- CONV: issue to its unit (R254); UnitRun holds its work. -/
def execConv (k : Fin 8) (x : Fin 3) (s : State) : Out := .next (s.instr k x .conv (State.issue .conv k x))

/-- WINO: issue to its unit (R256); UnitRun holds its work. -/
def execWino (k : Fin 8) (x : Fin 3) (s : State) : Out := .next (s.instr k x .wino (State.issue .wino k x))

/-- MMUL: issue to its unit (R254); UnitRun holds its work. -/
def execMmul (k : Fin 8) (x : Fin 3) (s : State) : Out := .next (s.instr k x .mmul (State.issue .mmul k x))

/-- DWCONV: issue to its unit (R253); UnitRun holds its work. -/
def execDwconv (k : Fin 8) (x : Fin 3) (s : State) : Out := .next (s.instr k x .dwconv (State.issue .dwconv k x))

/-- EWISE: issue to its unit (R259); UnitRun holds its work. -/
def execEwise (k : Fin 8) (x : Fin 3) (s : State) : Out := .next (s.instr k x .ewise (State.issue .ewise k x))

/-- LUT DIRECT: issue to its unit (R260); UnitRun holds its work. -/
def execLutDirect (k : Fin 8) (x : Fin 3) (s : State) : Out := .next (s.instr k x .lutDirect (State.issue .lutDirect k x))

/-- LUT PWL: issue to its unit (R260); UnitRun holds its work. -/
def execLutPwl (k : Fin 8) (x : Fin 3) (s : State) : Out := .next (s.instr k x .lutPwl (State.issue .lutPwl k x))

/-- POOL: issue to its unit (R261); UnitRun holds its work. -/
def execPool (k : Fin 8) (x : Fin 3) (s : State) : Out := .next (s.instr k x .pool (State.issue .pool k x))

/-- RESIZE: issue to its unit (R261); UnitRun holds its work. -/
def execResize (k : Fin 8) (x : Fin 3) (s : State) : Out := .next (s.instr k x .resize (State.issue .resize k x))

/-- ARGMAX: issue to its unit (R262); UnitRun holds its work. -/
def execArgmax (k : Fin 8) (x : Fin 3) (s : State) : Out := .next (s.instr k x .argmax (State.issue .argmax k x))

/-- DCMP COMPARE: issue to its unit (R263); UnitRun holds its work. -/
def execDcmpCompare (k : Fin 8) (x : Fin 3) (s : State) : Out := .next (s.instr k x .dcmpCompare (State.issue .dcmpCompare k x))

/-- DCMP FORCE: issue to its unit (R263); UnitRun holds its work. -/
def execDcmpForce (k : Fin 8) (x : Fin 3) (s : State) : Out := .next (s.instr k x .dcmpForce (State.issue .dcmpForce k x))

/-- DMRG MERGE: issue to its unit (R264); UnitRun holds its work. -/
def execDmrgMerge (k : Fin 8) (x : Fin 3) (s : State) : Out := .next (s.instr k x .dmrgMerge (State.issue .dmrgMerge k x))

/-- DMRG ADD: issue to its unit (R264); UnitRun holds its work. -/
def execDmrgAdd (k : Fin 8) (x : Fin 3) (s : State) : Out := .next (s.instr k x .dmrgAdd (State.issue .dmrgAdd k x))

/-- DMRG DILATE: issue to its unit (R264); UnitRun holds its work. -/
def execDmrgDilate (k : Fin 8) (x : Fin 3) (s : State) : Out := .next (s.instr k x .dmrgDilate (State.issue .dmrgDilate k x))

/-- BWD DGRAD: issue to its unit (R258); UnitRun holds its work. -/
def execBwdDgrad (k : Fin 8) (x : Fin 3) (s : State) : Out := .next (s.instr k x .bwdDgrad (State.issue .bwdDgrad k x))

/-- BWD WGRAD: issue to its unit (R258); UnitRun holds its work. -/
def execBwdWgrad (k : Fin 8) (x : Fin 3) (s : State) : Out := .next (s.instr k x .bwdWgrad (State.issue .bwdWgrad k x))

/-- OPT: issue to its unit (R265); UnitRun holds its work. -/
def execOpt (k : Fin 8) (x : Fin 3) (s : State) : Out := .next (s.instr k x .opt (State.issue .opt k x))

/-- XFIX SHELF: issue to its unit (R257); UnitRun holds its work. -/
def execXfixShelf (k : Fin 8) (x : Fin 3) (s : State) : Out := .next (s.instr k x .xfixShelf (State.issue .xfixShelf k x))

/-- XFIX DRAWER: issue to its unit (R257); UnitRun holds its work. -/
def execXfixDrawer (k : Fin 8) (x : Fin 3) (s : State) : Out := .next (s.instr k x .xfixDrawer (State.issue .xfixDrawer k x))

/-- DMA read: issue to its unit (R267); UnitRun holds its work. -/
def execDmaRead (k : Fin 8) (x : Fin 3) (s : State) : Out := .next (s.instr k x .dmaRead (State.issue .dmaRead k x))

/-- DMA write: issue to its unit (R267); UnitRun holds its work. -/
def execDmaWrite (k : Fin 8) (x : Fin 3) (s : State) : Out := .next (s.instr k x .dmaWrite (State.issue .dmaWrite k x))

/-- RXFER read: issue to its unit (R268); UnitRun holds its work. -/
def execRxferRead (k : Fin 8) (x : Fin 3) (s : State) : Out := .next (s.instr k x .rxferRead (State.issue .rxferRead k x))

/-- RXFER write: issue to its unit (R268); UnitRun holds its work. -/
def execRxferWrite (k : Fin 8) (x : Fin 3) (s : State) : Out := .next (s.instr k x .rxferWrite (State.issue .rxferWrite k x))

/-- RCOPY: issue to its unit (R269); UnitRun holds its work. -/
def execRcopy (k : Fin 8) (x : Fin 3) (s : State) : Out := .next (s.instr k x .rcopy (State.issue .rcopy k x))

/-- SMLD: issue to its unit (R270); UnitRun holds its work. -/
def execSmld (k : Fin 8) (x : Fin 3) (s : State) : Out := .next (s.instr k x .smld (State.issue .smld k x))

/-- SMST: issue to its unit (R270); UnitRun holds its work. -/
def execSmst (k : Fin 8) (x : Fin 3) (s : State) : Out := .next (s.instr k x .smst (State.issue .smst k x))

/-- PSEND: issue to its unit (R271); UnitRun holds its work. -/
def execPsend (k : Fin 8) (x : Fin 3) (s : State) : Out := .next (s.instr k x .psend (State.issue .psend k x))

/-- QSTAT CURRENT: issue to its unit (R301); UnitRun holds its work. -/
def execQstatCurrent (k : Fin 8) (x : Fin 3) (s : State) : Out := .next (s.instr k x .qstatCurrent (State.issue .qstatCurrent k x))

/-- QSTAT HISTORY: issue to its unit (R304); UnitRun holds its work. -/
def execQstatHistory (k : Fin 8) (x : Fin 3) (s : State) : Out := .next (s.instr k x .qstatHistory (State.issue .qstatHistory k x))

/-- QUANT: issue to its unit (R294); UnitRun holds its work. -/
def execQuant (k : Fin 8) (x : Fin 3) (s : State) : Out := .next (s.instr k x .quant (State.issue .quant k x))

/-- DEQ FLOAT: issue to its unit (R306); UnitRun holds its work. -/
def execDeqFloat (k : Fin 8) (x : Fin 3) (s : State) : Out := .next (s.instr k x .deqFloat (State.issue .deqFloat k x))

/-- DEQ INTMUL: issue to its unit (R307); UnitRun holds its work. -/
def execDeqIntmul (k : Fin 8) (x : Fin 3) (s : State) : Out := .next (s.instr k x .deqIntmul (State.issue .deqIntmul k x))

/-- QCVT: issue to its unit (R275); UnitRun holds its work. -/
def execQcvt (k : Fin 8) (x : Fin 3) (s : State) : Out := .next (s.instr k x .qcvt (State.issue .qcvt k x))

/-- DIGEST: issue to its unit (R279); UnitRun holds its work. -/
def execDigest (k : Fin 8) (x : Fin 3) (s : State) : Out := .next (s.instr k x .digest (State.issue .digest k x))

/-- PTEST: issue to its unit (R280); UnitRun holds its work. -/
def execPtest (k : Fin 8) (x : Fin 3) (s : State) : Out := .next (s.instr k x .ptest (State.issue .ptest k x))

/-- CKCTL: the checksum mode of array instructions issued after it (R278, R444). -/
def execCkctl (k : Fin 8) (x : Fin 3) (s : State) : Out :=
  .next (s.instr k x .ckctl (fun w s => s.regOp k x (fun c => { c with ck := fSub w + fAux w * 4 })))

end Sys2Proof.Machine
end

