-- ==== Sys2Proof/Machine/Control.lean ====
section
/-! DEFINITION. Branches, token waits, barriers, ring sends and receives, window waits and system instructions of stripe
programs (R216–R232, R288). -/

namespace Sys2Proof.Machine

/-! ### Branches (R216, Table IS-10) -/

/-- Continues at word index `t`, or raises FETCH_RANGE at the branch (R148, R216). -/
def State.branch (s : State) (k : Fin 8) (x : Fin 3) (t : Int) : State :=
  let (f, n) := s.imemRange k x
  if t < f ∨ ((f + n : Nat) : Int) ≤ t then s.trapAt k x excFetchRange else s.goTo k x t.toNat

/-- BR (R216). -/
def execBr (k : Fin 8) (x : Fin 3) (s : State) : Out :=
  .next (s.instr k x .br (fun w s => s.branch k x (branchTo (s.ctx k x) w)))

/-- BCC (R216). -/
def execBcc (k : Fin 8) (x : Fin 3) (s : State) : Out :=
  .next (s.instr k x .bcc (fun w s =>
    let c := s.ctx k x
    if cmpOp (fBaux w) (c.rs (fBra w)) (c.rs (fBrb w)) then s.branch k x (branchTo c w) else s.advance k x))

/-- CALL: S31 = index of CALL + 1, then branch (R216). -/
def execCall (k : Fin 8) (x : Fin 3) (s : State) : Out :=
  .next (s.instr k x .call (fun w s =>
    let c := s.ctx k x
    let (f, n) := s.imemRange k x
    let t := branchTo c w
    if t < f ∨ ((f + n : Nat) : Int) ≤ t then s.trapAt k x excFetchRange
    else (s.setCtx k x (c.ws 31 (BitVec.ofNat 32 (c.pc + 1)))).goTo k x t.toNat))

/-- JR (R216): upper bits of S[RA] put the target outside every range. -/
def execJr (k : Fin 8) (x : Fin 3) (s : State) : Out :=
  .next (s.instr k x .jr (fun w s => s.branch k x ((s.ctx k x).rs (fBra w)).toNat))

/-- ERET (R230). -/
def execEret (k : Fin 8) (x : Fin 3) (s : State) : Out :=
  .next (s.instr k x .eret (fun _ s =>
    let c := s.ctx k x
    if !c.handler then s.trapAt k x excIllegal
    else s.setCtx k x { c with handler := false, pc := (c.epc + 1) % 32768 }))

/-! ### Token waits (R144, R217–R219) -/

/-- Raises the exception a token holds, which it leaves FREE (R144, R230). -/
def State.raiseToken (s : State) (k : Fin 8) (x : Fin 3) (t : Nat) : State :=
  let c := s.ctx k x
  (s.setCtx k x (c.setToken t ⟨.free, 0⟩)).raise k x c.pc (c.token t).cause (some t) 0

/-- Ends a wait on a mask of tokens none of which is BUSY (R218). -/
def State.endWait (s : State) (k : Fin 8) (x : Fin 3) (mask : Nat) : State :=
  let s := s.setCtx k x ((s.ctx k x).freeDone mask)
  match (s.ctx k x).lowFault mask with
  | some t => s.raiseToken k x t
  | none => s.advance k x

/-- Some token of a mask is BUSY. -/
def Ctx.busy (c : Ctx) (mask : Nat) : Bool :=
  (upFrom 0 16).any (fun t => bitsOf mask t 1 == 1 && (c.token t).st == .busy)

/-- TWAIT (R217): waits, without effect, while the token is BUSY. -/
def execTwait (k : Fin 8) (x : Fin 3) (s : State) : Out :=
  .next (s.instr k x .twait (fun w s =>
    if (s.ctx k x).busy (2 ^ fTtk w) then s else s.endWait k x (2 ^ fTtk w)))

/-- TWAITM (R218). -/
def execTwaitm (k : Fin 8) (x : Fin 3) (s : State) : Out :=
  .next (s.instr k x .twaitm (fun w s =>
    if (s.ctx k x).busy (fMask w) then s else s.endWait k x (fMask w)))

/-- TTEST (R219). -/
def execTtest (k : Fin 8) (x : Fin 3) (s : State) : Out :=
  .next (s.instr k x .ttest (fun w s =>
    s.regOp k x (fun c => c.wp (fRd w % 8) ((c.token (fTtk w)).st != .busy))))

/-! ### End of a stripe (R226) and HALT (R146, R228) -/

/-- Marks a stripe of a job's frame finished on a core. One that ran dense clears its stale bit (R334). -/
def Job.finishOn (j : Job) (fr k core : Nat) : Job :=
  let dense := j.frames.any (fun f => f.no == fr && f.bands.any (fun r => r.k == k && r.started.any (fun e =>
    e.1 == core && e.2 != 0)))
  let src := (j.frames.find? (fun f => f.no == fr)).elim 0 (fun f => f.ctx)
  let j := j.modBand fr k (fun r => { r with finished := r.finished ++ [core] })
  if dense then { j with stale := mset (dflt false) j.stale (staleKey src k core) false } else j

/-- ENDSTRIPE (R226): context 0's end is the switch point of R138. -/
def execEndstripe (k : Fin 8) (x : Fin 3) (s : State) : Out :=
  .next (s.instr k x .endstripe (fun _ s =>
    let c := s.ctx k x
    if !c.quiet then s
    else
      match c.lowFault 0xFFFF with
      | some t => s.raiseToken k x t
      | none =>
        let c := c.freeDone 0xFFFF
        let s := s.setCtx k x { c with running := false, pc := (c.pc + 1) % 32768 }
        let id := c.job.getD 0
        let s := s.modJob id (fun j => j.finishOn c.frame c.stripe k.val)
        let s := s.log k x.val 0 0x11 (id + c.stripe % 65536 * 4096 + min (2 ^ 20 - 1) (s.time.aft - c.startAt) * 2 ^ 28)
        s.settle k))

/-- The job ends when every context of it has halted (R228), with its JOBEND (R545). -/
def State.jobHalted (s : State) (id : Nat) : State :=
  match s.job id with
  | none => s
  | some j =>
    if j.state = .running ∧ j.cores.all (fun k => (s.ctx k j.ctxNo).ended) then
      let j' := { j.countStarted with state := .halted, frames := [], killCls := 0, stopping := false }
      let s := (s.setJob j').settleDev
      let s := if j.session then (s.setF F.AD_STATUS_RUNNING 0).setF F.AD_STATUS_DONE 1 else s
      s.endReply j' 2
    else s

/-- HALT (R146, R228). DESIGN CHOICE: the DONE tokens of the context become FREE (log entry 136). -/
def execHalt (k : Fin 8) (x : Fin 3) (s : State) : Out :=
  .next (s.instr k x .halt (fun _ s =>
    let c := s.ctx k x
    if !c.quiet then s
    else
      match c.lowFault 0xFFFF with
      | some t => s.raiseToken k x t
      | none =>
        let c := c.freeDone 0xFFFF
        let s := (s.setCtx k x { c with halted := true, ended := true, running := false }).setHalted k x 1
        (s.settle k).jobHalted (c.job.getD 0)))

/-! ### Barriers (R76, R138, R199, R220, R221) -/

/-- The in-line context of a core has a stripe ready to run. -/
def State.ready0 (s : State) (k : Fin 8) : Bool := (s.ctx k 0).running && !(s.ctx k 0).halted

/-- JOB barriers a core has issued in a stripe of a job (R220); one that is not in that stripe has issued none. -/
def State.barsOf (s : State) (id x frame stripe : Nat) (k : Fin 8) : Nat :=
  let c := s.ctx k ⟨x % 3, Nat.mod_lt _ (by decide)⟩
  if c.job = some id ∧ c.stripe = stripe ∧ c.frame = frame then c.bars else 0

/-- A quarantined secondary takes no part in the stripes of its pair, which its primary runs alone (R166 and the corner 'Secondary
quarantined in a paired job' of chapter 04). -/
def State.leftOut (s : State) (j : Job) (c : Fin 8) : Bool :=
  j.paired && c.val % 2 == 1 && s.flag (F.CORE_STATUS_QUAR c)

/-- Releases the contexts of a job that wait at a JOB barrier every core has reached (R221). -/
def State.releaseBars (s : State) (id : Nat) : State :=
  match s.job id with
  | none => s
  | some j =>
    let x := j.ctxNo
    allCores.foldl (fun s k =>
      let c := s.ctx k x
      if c.job == some id && c.atBar
          && (mapCores j.paired c.tiles).all (fun i => s.leftOut j i || decide (c.bars ≤ s.barsOf id x.val c.frame c.stripe i))
      then s.setCtx k x { c with atBar := false } else s) s

/-- A job names WEIGHT rows of a core that are being written (R199). -/
def State.writesWeights (s : State) (j : Job) (k : Fin 8) : Bool :=
  (j.on k.val).rows.any (fun r => r.cls == 0 && (s.core k).weightWrite.any (fun w => decide (w.1 ≤ r.last) && decide (r.first < w.1 + w.2)))

/-- The context is held at its barrier while WEIGHT rows that its job names on some core are written (R199). -/
def State.weightHold (s : State) (c : Ctx) : Bool :=
  (c.job.bind s.job).elim false (fun j => allCores.any (fun k => s.writesWeights j k))

/-! ### Guyline ring (R222, R223, R66, R164) -/

/-- The neighbour in a direction of the core of a context, under the tile map of its stripe's frame (R66, R67, R72); a secondary
has its primary's place in the ring (R166). -/
def Job.neighbour (j : Job) (c : Ctx) (k : Nat) (right : Bool) : Option Nat :=
  if right then nearRight c.tiles (j.tileCore c k) else nearLeft c.tiles (j.tileCore c k)

/-- The job whose rows a context sends and receives. -/
def State.ringJob (s : State) (c : Ctx) : Option Job := c.job.bind s.job

/-- A number that orders the stripes of a context's job. -/
def Ctx.ord (c : Ctx) : Nat := c.frame * 65536 + c.stripe

/-- Issues a GSEND or GRECV to the ring stop: four of each per context (R223). Without a neighbour, and for a secondary's
send, the token is DONE at once (R222, R223). -/
def State.ringIssue (send : Bool) (k : Fin 8) (x : Fin 3) (w : BitVec 64) (s : State) : State :=
  let c := s.ctx k x
  let v := c.rdesc (fRd w)
  let t := fTtk w
  let right := fMode w == 1
  if !descLegal v then s.trapAt k x excIllegal
  else if (c.token t).st ≠ .free then s.trapAt k x excTokenReuse
  else
    let none_ := match s.ringJob c with
      | none => true
      | some j => (send && j.secondary c k.val) || (j.neighbour c k.val right).isNone
    if none_ then (s.setCtx k x (c.setToken t ⟨.done, 0⟩)).advance k x
    else
      let g : GReq := { send := send, right := right, tok := t, desc := v, job := c.job.getD 0, stripe := c.ord, got := 0,
                        cause := 0 }
      if 4 ≤ (c.greqs.filter (fun q => q.send == send)).length then s.setCtx k x { c with stallG := some g }
      else (s.setCtx k x ({ c with greqs := c.greqs ++ [g] }.setToken t ⟨.busy, 0⟩)).advance k x

/-- GSEND (R222). -/
def execGsend (k : Fin 8) (x : Fin 3) (s : State) : Out := .next (s.instr k x .gsend (State.ringIssue true k x))

/-- GRECV (R223). -/
def execGrecv (k : Fin 8) (x : Fin 3) (s : State) : Out := .next (s.instr k x .grecv (State.ringIssue false k x))

/-- Replaces the first request of a list that meets a test, or drops it. -/
def replaceReq (p : GReq → Bool) (n : Option GReq) : List GReq → List GReq
  | [] => []
  | g :: l => if p g then (match n with | some g' => g' :: l | none => l) else g :: replaceReq p n l

/-- An awning row lies in the job's range of a core (R68). -/
def State.awnAllowed (s : State) (id k r : Nat) : Bool :=
  match s.job id with
  | none => false
  | some j => decide ((j.on k).awnFirst ≤ r) && decide (r < (j.on k).awnFirst + (j.on k).awnCount)

/-- A row of a core's scratchpad or awning buffer may be accessed for a job (R198, R68). -/
def State.localAllowed (s : State) (id k : Nat) (awn : Bool) (r : Nat) (write : Bool) : Bool :=
  if awn then s.awnAllowed id k r else decide (r < 131072) && s.rowAllowed id k r write

/-- The ROW_PROTECT record of a refused local access of a unit (R198). -/
def State.protectRec (s : State) (id k u r : Nat) : State :=
  s.reportAft { mkRec s.time.aft (coreUnit k u) 0x03 with job := id, addr := spLoc k (r % 131072), akind := 2 }

/-- The stripe of a buffered row has been aborted (R227). -/
def State.rowAborted (s : State) (g : GRow) : Bool :=
  (s.job g.job).any (fun j => j.frames.any (fun x =>
    x.no == g.stripe / 65536 && x.bands.any (fun r => r.k == g.stripe % 65536 && r.aborted)))

/-- The first buffered row of a direction and context goes to the waiting GRECV, or is discarded as stale (R223) or as one of
an aborted stripe (R227). Answers none when nothing moves. -/
def State.ringDeliver1 (s : State) (k : Fin 8) (x : Fin 3) (right : Bool) : Option State :=
  let c := s.core k
  let cx := s.ctx k x
  match c.ring.find? (fun g => g.right == right && g.ctx == x.val) with
  | none => none
  | some g =>
    let gone (s : State) : State :=
      s.setCore k { s.core k with ring := (s.core k).ring.eraseP (fun h => h.right == right && h.ctx == x.val) }
    if s.rowAborted g then some (gone s)
    else if g.stripe < cx.ord then some ((gone s).bump (F.CORE_GDROP k) 1)
    else if cx.ord < g.stripe then none
    else
      let isReq (q : GReq) : Bool := !q.send && q.right != right
      match cx.greqs.find? isReq with
      | none => none
      | some q =>
        let d := descOf q.desc
        let s := gone s
        let put : State × Nat :=
          match d.rows[q.got]? with
          | none => (s, excAddrUnmapped)
          | some r =>
            if !s.localAllowed q.job k.val d.space r true then (s.protectRec q.job k.val 0 r, excAddrUnmapped)
            else (if d.space then s.putAwn k r g.ws else s.putRow k r g.ws, 0)
        let s := put.1
        let cause := if q.cause = 0 then put.2 else q.cause
        let cx := s.ctx k x
        if g.last then
          some (s.setCtx k x ({ cx with greqs := replaceReq isReq none cx.greqs }.finishToken q.tok cause))
        else
          some (s.setCtx k x { cx with greqs := replaceReq isReq (some { q with got := q.got + 1, cause := cause }) cx.greqs })

/-- Delivers buffered rows while any moves. -/
def State.ringDeliver (k : Fin 8) (x : Fin 3) (right : Bool) : Nat → State → State
  | 0, s => s
  | n + 1, s =>
    match s.ringDeliver1 k x right with
    | none => s
    | some s => State.ringDeliver k x right n s

/-- The ring stop of a core has room for a row of a direction and context (R223). -/
def State.ringRoom (s : State) (k : Fin 8) (x : Fin 3) (right : Bool) : Bool :=
  decide (((s.core k).ring.filter (fun g => g.right == right && g.ctx == x.val)).length < 16)

/-- Moves the rows of the oldest send of a core in a direction while every receiving buffer has room (R222). `flips` are those on
the way, by place of the row in the send (R440). -/
def State.ringMove (k : Fin 8) (x : Fin 3) (right : Bool) (flips : List (Nat × Flip)) (dst : List (Fin 8)) :
    List Nat → State → State
  | [], s => s
  | r :: rs, s =>
    if !dst.all (fun t => s.ringRoom t x right) then s
    else
      let isReq (q : GReq) : Bool := q.send && q.right == right
      let cx := s.ctx k x
      match cx.greqs.find? isReq with
      | none => s
      | some q =>
        let d := descOf q.desc
        let ok := s.localAllowed q.job k.val d.space r false
        let rd : Row × State :=
          if !ok then (poisonRow s.free, (s.protectRec q.job k.val 0 r).drawn 64)
          else if d.space then s.getAwn k r else s.getRow k r
        let rd := rd.2.hop k r ((flips.filter (fun f => f.1 == q.got)).map (·.2)) rd.1
        let ws := rd.1
        let s := rd.2
        let cause := if q.cause ≠ 0 then q.cause else if !ok then excAddrUnmapped
          else if rowPoisoned ws then excUnitPoison else 0
        let g : GRow := { right := right, ctx := x.val, job := q.job, stripe := q.stripe, ws := ws, first := q.got == 0,
                          last := rs.isEmpty }
        let s := dst.foldl (fun s t => s.setCore t { s.core t with ring := (s.core t).ring ++ [g] }) s
        let cx := s.ctx k x
        let s :=
          if rs.isEmpty then s.setCtx k x ({ cx with greqs := replaceReq isReq none cx.greqs }.finishToken q.tok cause)
          else s.setCtx k x
            { cx with greqs := replaceReq isReq (some { q with got := q.got + 1, cause := cause }) cx.greqs }
        let s := dst.foldl (fun s t => State.ringDeliver t x right 16 s) s
        State.ringMove k x right flips dst rs s

/-- GUYLINE_ROWS_ARRIVE (R222, R223): rows of the oldest send of core `k` in a direction reach the neighbour's ring stop, and
its secondary's (R164), and buffered rows go to waiting GRECVs. -/
def execGuylineRowsArrive (k : Fin 8) (x : Fin 3) (e : RingArrival) (s : State) : Out :=
  let cx := s.ctx k x
  match s.ringJob cx with
  | none => .next s
  | some j =>
    match j.neighbour cx k.val e.right with
    | none => .next s
    | some n =>
      let dst := if j.paired then [coreOf n, coreOf (n + 1)] else [coreOf n]
      let s := dst.foldl (fun s t => s.waited t) (s.bumpWrap (F.CORE_SP_CONFLICT k) e.conf)
      let s := dst.foldl (fun s t => State.ringDeliver t x e.right 16 s) s
      let s := match cx.greqs.find? (fun q => q.send && q.right == e.right) with
        | none => s
        | some q => State.ringMove k x e.right e.flips dst ((descOf q.desc).rows.drop q.got) s
      -- a token may have been the last that a yield waits for (R138)
      .next ((k :: dst).foldl (fun s t => s.settle t) s)

/-! ### Window arrival (R224, R513) -/

/-- WWAIT (R224): waits, without effect, until the count is reached. -/
def execWwait (k : Fin 8) (x : Fin 3) (s : State) : Out :=
  .next (s.instr k x .wwait (fun w s =>
    let c := s.ctx k x
    let n := fTimm w % 256
    let named := match c.job.bind s.job with
      | none => false
      | some j => j.windows.any (fun v => v.2.1 == n && v.2.2 == 0)
    let win : InWin := vget s.lnk.iw ⟨n % 32, Nat.mod_lt _ (by decide)⟩
    if !named || decide (32 ≤ n) || win.st != .open_ then s.regOp k x (fun c => c.wp (fRd w % 8) false)
    else if 0 ≤ (win.arrivals - c.rs (fRa w)).toInt then s.regOp k x (fun c => c.wp (fRd w % 8) true) else s))

/-! ### System group (Table IS-11) -/

/-- TRAP (R229). -/
def execTrap (k : Fin 8) (x : Fin 3) (s : State) : Out :=
  .next (s.instr k x .trap (fun w s => s.raise k x (s.ctx k x).pc excTrap none (fImm w % 65536)))

/-- The job of a context may reach a register offset (R231): a grant with the access asked, or a read of the core's own
block. -/
def State.regGranted (s : State) (k : Fin 8) (c : Ctx) (off : Nat) (write : Bool) : Bool :=
  decide (off < 0x200000) &&
    ((!write && blockOf off == 16 + k.val) ||
     (match c.job.bind s.job with
      | none => false
      | some j => j.grants.any (fun g => decide (g.first ≤ off) && decide (off ≤ g.last)
          && (if write then 2 ≤ g.acc else g.acc % 2 == 1))))

/-- CRR and CRW (R231): a granted access waits for its answer (CONTROL_REGISTER_ANSWER); any other reads 0 or is dropped,
with a REG_DENIED record. -/
def State.regAccess (write : Bool) (k : Fin 8) (x : Fin 3) (w : BitVec 64) (s : State) : State :=
  let c := s.ctx k x
  let off := addrOf c w
  if off % 4 ≠ 0 then s.trapAt k x excMisalign
  else if s.regGranted k c off write then
    s.setCtx k x { c with crWait := some { write := write, off := off, rd := fRd w, val := c.rs (fRd w) } }
  else
    let r := { mkRec s.time.aft (coreUnit k 0) 0x04 with job := c.job.getD 0, opc := c.pc, addr := off, akind := 3 }
    (s.reportAft r).regOp k x (fun c => if write then c else c.ws (fRd w) 0#32)

/-- CRR (R231). -/
def execCrr (k : Fin 8) (x : Fin 3) (s : State) : Out := .next (s.instr k x .crr (State.regAccess false k x))

/-- CRW (R231). -/
def execCrw (k : Fin 8) (x : Fin 3) (s : State) : Out := .next (s.instr k x .crw (State.regAccess true k x))

/-- SRSEED (R288): waits, without effect, for the context's array, vector and quantise instructions. -/
def execSrseed (k : Fin 8) (x : Fin 3) (s : State) : Out :=
  .next (s.instr k x .srseed (fun w s =>
    let c := s.ctx k x
    if (c.queue 0).isEmpty && (c.queue 1).isEmpty && (c.queue 2).isEmpty then
      s.regOp k x (fun c => { c with sr := srSeed (c.rs (fRa w)).toNat, srN := 0 })
    else s))

/-- LOGPUT (R582): a USER packet. A code of R453 records a rerun within its bounds, which CK_PLAUS_RERUN counts (R455; log
entry 26). -/
def execLogput (k : Fin 8) (x : Fin 3) (s : State) : Out :=
  .next (s.instr k x .logput (fun w s =>
    let v := ((s.ctx k x).rs (fRa w)).toNat
    let imm := fImm w % 65536
    let s := s.log k x.val 0 0x50 (imm + v * 65536)
    let s := if 0xE000 ≤ imm ∧ imm ≤ 0xEFFF then s.bump (F.CK_PLAUS_RERUN k) 1 else s
    s.advance k x))

end Sys2Proof.Machine
end

