-- ==== Sys2Proof/Machine/Frames.lean ====
section
/-! DEFINITION. Frames, stripes and bands of a job as the stripe dispatcher keeps them (chapter 02): frame starts, START and
STOP taking effect (R544), ready times, deadlines (R73, R374), slack (R73, R74, R82, R486), and the end of a frame. -/

namespace Sys2Proof.Machine

/-- Takes one field into force. -/
def State.takeFld (s : State) (f : Fld) : State :=
  s.setForce f.off (putBits (s.inForce f.off) f.lo f.w (s.getF f))

/-! ### Streams of a job and T_row (R362, R364, R374) -/

/-- A stream is enabled by the configuration in force. -/
def State.streamOn (s : State) (n : Nat) : Bool := s.forceF (F.OF_CFG_ENABLE n) == 1

/-- Bytes of an Edge record at an offset, little-endian (Table MP-3). -/
def recB (r : EdgeRec) (i n : Nat) : Nat := leNat ((r.drop i).take n)

/-- Row scale of an Edge buffer, in source rows per plane row: SHUFFLE doubles it (Table MP-3). -/
def bufScale : List EdgeRec → Nat → Nat → Nat
  | [], _, n => n
  | r :: rs, b, n =>
    -- records in reverse: the writer of buffer `b` is the first one met
    let op := leNat (r.take 1)
    if leNat ((r.drop 2).take 1) = b ∧ op ≠ 0x03 ∧ op ≠ 0x09 ∧ op ≠ 0x0A then
      let src := leNat ((r.drop 1).take 1)
      if op = 0x01 ∨ op = 0x04 then n
      else if op = 0x05 then bufScale rs src (2 * n) else bufScale rs src n
    else bufScale rs b n

/-- Source rows per plane row of an Edge output of a job. -/
def Job.outScale (j : Job) (o : Nat) : Nat :=
  match j.edge.recs.find? (fun r => leNat (r.take 1) == 9 && leNat ((r.drop 4).take 1) == o) with
  | none => 1
  | some r => bufScale j.edge.recs.reverse (leNat ((r.drop 1).take 1)) 1

/-- The result tensor that the rows of an Edge buffer come from, if a TAKE brings them. -/
def bufTake : List EdgeRec → Nat → Option Nat
  | [], _ => none
  | r :: rs, b =>
    let op := recB r 0 1
    if recB r 2 1 = b ∧ op ≠ 0x03 ∧ op ≠ 0x09 ∧ op ≠ 0x0A then
      if op = 0x01 then none else if op = 0x04 then some (recB r 4 1) else bufTake rs (recB r 1 1)
    else bufTake rs b

/-- Plane rows that a row which TAKE joins stands for, on the way to an Edge output (R309, R320). -/
def Job.outDown (j : Job) (o : Nat) : Nat :=
  match j.edge.recs.find? (fun r => recB r 0 1 == 9 && recB r 4 1 == o) with
  | none => 1
  | some r => max 1 ((bufTake j.edge.recs.reverse (recB r 1 1)).elim 1 (fun t => ((j.covers.find? (fun e => e.1 == t)).map (·.2)).getD 1))

/-- Geometry in force of a stream. -/
def State.geo (s : State) (n : Nat) : StreamGeo :=
  { cx := s.forceF (F.OF_CROP_XY_X n), cy := s.forceF (F.OF_CROP_XY_Y n), cw := s.forceF (F.OF_CROP_WH_W n),
    ch := s.forceF (F.OF_CROP_WH_H n), ow := s.forceF (F.OF_OUT_WH_W n), oh := s.forceF (F.OF_OUT_WH_H n),
    fmt := s.forceF (F.OF_CFG_FORMAT n) }

/-- STEP of one direction (R362). -/
def scaleStep (crop out : Nat) : Nat := if out = 0 then 0 else crop * 65536 / out

/-- Source position of an output index in 1/65,536 pixel (R364). -/
def scaleAt (crop step i : Nat) : Int := (crop * 65536 + (i * step + step / 2) : Nat) - 32768

/-- Source rows that an output line reads, within a source of `h` rows (R362, R364, R366). -/
def StreamGeo.rowsOf (g : StreamGeo) (h i : Nat) : List Nat :=
  let step := scaleStep g.ch g.oh
  if step = 65536 ∧ scaleStep g.cw g.ow = 65536 then [g.cy + i]
  else
    let y := scaleAt g.cy step i / 65536
    let clip (v : Int) : Nat := (max 0 (min ((h : Int) - 1) v)).toNat
    if g.fmt = 3 then [clip y] else (upFrom 0 6).map (fun t => clip (y - 2 + (t : Int)))

/-- Source rows of an Edge output for a frame of height `h`: that height at the output's row scale. -/
def Job.rowsAt (j : Job) (o h : Nat) : Nat := h / 2 * j.outScale o / j.outDown o

/-- Source rows of an Edge output of a job, for its present frame height. -/
def Job.outRows (j : Job) (o : Nat) : Nat := j.rowsAt o j.height

/-- Bands of a frame of height `h`, less one (R60): the number of its flush band. -/
def Job.lastBand (j : Job) (h : Nat) : Nat := if j.s = 0 then 0 else (h + j.s - 1) / j.s

/-- Output rows of band `k` of a frame of height `h`: first, and past the last (R62, R63). The flush band covers the last A rows;
where S does not divide the height, R62 would give some of them to the band before it as well, and DESIGN CHOICE they are the
flush band's (log entry 98). -/
def Job.bandRows (j : Job) (h k : Nat) : Nat × Nat :=
  if k = j.lastBand h then (h - j.a, h) else (k * j.s - j.a, min (h - j.a) ((k + 1) * j.s - j.a))

/-- Band of a frame row. -/
def Job.bandOf (j : Job) (h r : Nat) : Nat := if h ≤ r + j.a ∨ j.s = 0 then j.lastBand h else (r + j.a) / j.s

/-- Bands that a source row of an Edge output belongs to, in a frame of height `h`: those of the frame rows it stands for
(R62). -/
def Job.bandsOfRow (j : Job) (o h q : Nat) : List Nat :=
  let f := j.outScale o
  let d := 2 * j.outDown o
  let r0 := d * q / f
  let r1 := max r0 ((d * (q + 1) + f - 1) / f - 1)
  let b := j.bandOf h r0
  upFrom b (j.bandOf h r1 + 1 - b)

/-- Line times of the lines of a job's enabled streams with TIMEREF 0 that read a source row of frame rows `r0` to `r1`, in a
frame of height `h` that started at `fs` (R374). A detection stream has no lines (R378). -/
def State.rowTimes (s : State) (j : Job) (fs h r0 r1 : Nat) : List Nat :=
  (j.streams.filter (fun n => s.streamOn n && s.forceF (F.OF_CFG_TIMEREF n) == 0
      && s.forceF (F.OF_CFG_SRC_KIND n) == 0 && (s.geo n).fmt != 4)).flatMap (fun n =>
    let o := s.forceF (F.OF_CFG_SRC n)
    let g := s.geo n
    let d := 2 * j.outDown o
    let q0 := r0 * j.outScale o / d
    let q1 := max q0 ((r1 + 1) * j.outScale o / d - 1)
    ((upFrom 0 g.oh).filter (fun i => (g.rowsOf (j.rowsAt o h) i).any (fun q => decide (q0 ≤ q) && decide (q ≤ q1)))).map
      (fun i => fs + s.forceF (F.OF_OFFSET n) + i * s.forceF (F.OF_LINE n)))

/-- T_row(r) of a job's frame that started at `fs` (R374): the earliest line time over its enabled streams with TIMEREF 0. For a
row that no line reads the spec gives none; DESIGN CHOICE: the earliest line that reads a later row of the frame (log entry
99). -/
def State.tRow (s : State) (j : Job) (fs h r : Nat) : Option Nat :=
  match s.rowTimes j fs h r r with
  | t :: l => some (l.foldl min t)
  | [] => match s.rowTimes j fs h r (h - 1) with
    | t :: l => some (l.foldl min t)
    | [] => none

/-- D_k when it is known at the ready time (R73, R350); none when it waits for R_(k+1) or the next frame start (R374). So it does
for a band of no rows (log entry 99). -/
def State.deadline (s : State) (j : Job) (x : JFrame) (k : Nat) : Option Nat :=
  if j.session then some (x.fs + j.dlBase)
  else if !j.inline then some (x.fs + j.dlBase + k * j.dlStep)
  else
    let (a, b) := j.bandRows x.h k
    if a < b then (s.tRow j x.fs x.h a).map (fun t => t - j.tail) else none

/-! ### Bands -/

/-- A band is over: complete or aborted. -/
def StripeRec.over (r : StripeRec) : Bool := r.done.isSome || r.aborted

/-- Every band of the frame is over. -/
def JFrame.closed (x : JFrame) : Bool := x.bands.all (·.over)

/-- A frame of a job. -/
def Job.frameNo (j : Job) (no : Nat) : Option JFrame := j.frames.find? (fun x => x.no == no)

/-- A band of a frame. -/
def JFrame.band (x : JFrame) (k : Nat) : Option StripeRec := x.bands.find? (fun r => r.k == k)

/-- A source row that a line reads which has passed its check (R375): its frame on a stream with TIMEREF 0 will still send it. -/
def OutFrame.checkedRow (x : OutFrame) (q : Nat) : Bool :=
  (upFrom x.line (x.checked - x.line)).any (fun i =>
    !x.missing.contains i && (x.cfg.geo.rowsOf x.sh i ++ (if i % 2 = 1 then x.cfg.geo.rowsOf x.sh (i - 1) else [])).contains q)

/-- The rows of an aborted band leave the store, less those that a line reads whose check has passed, and the frames that show it
are marked (R375, R327). -/
def State.dropBandRows (s : State) (j : Job) (no k : Nat) : State :=
  let h := (j.frameNo no).elim j.height (·.h)
  let sure (r : SrcRow) : Bool := s.out.st.toList.any (fun (x : StreamSt) => x.cur.any (fun f =>
    !f.cfg.mem && f.cfg.src == r.out && f.job == j.id && f.frame == some no && f.checkedRow r.row))
  let s := { s with out := { s.out with store := s.out.store.filter (fun r =>
    !(r.job == j.id && r.frame == no && (j.bandsOfRow r.out h r.row).contains k) || sure r) } }
  { s with out := { s.out with st := s.out.st.map (fun (x : StreamSt) => { x with cur := x.cur.map (fun (f : OutFrame) =>
    if f.job = j.id ∧ f.frame = some no then { f with miss := true } else f) }) } }

/-- Counts a deadline miss: ST_MISS, the DEADLINE_MISS record, cause 4 (R74, R82). -/
def State.missBand (s : State) (id k : Nat) : State :=
  let s := s.modJob id (fun j => { j with miss := satAdd 32 j.miss 1 })
  let s := s.reportAft { mkRec s.time.aft 0x10 0x30 with job := id, addr := k, akind := 3 }
  s.raiseCause 4

/-- Notes the slack and the window of a band: of each frame the least of both is kept, the newest frame first (R486). -/
def noteSlack (no : Nat) (sl w : Int) (l : List (Nat × Int × Int)) : List (Nat × Int × Int) :=
  if l.any (fun e => e.1 == no) then l.map (fun e => if e.1 = no then (no, min e.2.1 sl, min e.2.2 w) else e)
  else (no, sl, w) :: l

/-- Settles the slack of a band once C_k and D_k are known (R73, R74, Table ST-4, R351). -/
def State.settleBand (s : State) (id no k : Nat) : State :=
  match (s.job id).bind (fun j => (j.frameNo no).bind (fun x => x.band k)) with
  | none => s
  | some r =>
    match r.done, r.deadline with
    | some c, some d =>
      if r.settled then s
      else
        let sl : Int := (d : Int) - c
        let w : Int := (d : Int) - (r.ready.getD d)
        let s := s.modJob id (fun j =>
          let j := j.modBand no k (fun r => { r with settled := true })
          { j with slackLast := sl, slackMin := min j.slackMin sl, recent := (noteSlack no sl w j.recent).take 61 })
        let s := if sl < 0 then s.missBand id k else s
        let warn := s.getF F.ST_CTRL_WARN * 2
        if warn ≠ 0 ∧ sl < warn then s.raiseCause 3 else s
    | _, _ => s

/-- The ready time of a stripe is reached (R73): D_k, and D_(k-1) where it waited for R_k (R374). -/
def State.stripeReady (s : State) (id no k : Nat) : State :=
  match s.job id with
  | none => s
  | some j =>
    match j.frameNo no with
    | none => s
    | some x =>
      match x.band k with
      | none => s
      | some r =>
        if r.ready.isSome || r.aborted then s
        else
          let t := s.time.now
          let s := s.modJob id (fun j =>
            (j.modBand no k (fun r => { r with ready := some t, deadline := r.deadline <|> s.deadline j x k })).modBand no (k - 1)
              (fun r => if k ≠ 0 ∧ r.deadline.isNone then { r with deadline := some t } else r))
          if k = 0 then s else s.settleBand id no (k - 1)

/-- Rows of EMIT wait at the frame's cores (R192, R194). -/
def State.rowsHeld (s : State) (j : Job) (x : JFrame) : Bool :=
  (j.coresIn x).any (fun k => (s.core k).held.any (fun h => h.write && h.who == 7))

/-- The last rows of stripes that EMIT has sent may have landed: R_k of those that have (R73, R319). -/
def State.landed (s : State) : State :=
  let waits (l : Nat × Nat × Nat) : Bool :=
    (s.job l.1).elim false (fun j => (j.frameNo l.2.1).elim false (fun x => s.rowsHeld j x))
  let go := s.edge.landing.filter (fun l => !waits l)
  let s := { s with edge := { s.edge with landing := s.edge.landing.filter waits } }
  go.foldl (fun s l => s.stripeReady l.1 l.2.1 l.2.2) s

/-! ### Frames -/

/-- The bands 0 to n of a frame of height `h` (R60, R63); a session step has band 0 only (R350). -/
def Job.newBands (j : Job) (h : Nat) : List StripeRec :=
  let n := if j.session then 0 else j.lastBand h
  (upFrom 0 (n + 1)).map (fun k =>
    { k := k, ready := none, deadline := none, done := none, started := [], finished := [], aborted := false,
      scene := false, counted := false, settled := false })

/-- The delta register values in force show in CORE_DXc of the job's cores (Table DX-5). -/
def State.showDx (s : State) (j : Job) : State :=
  j.cores.foldl (fun s k =>
    if j.inline then (s.setF (F.CORE_DX0_RHO k) (bitsOf j.dxForce 9 10)).setF (F.CORE_DX0_PR k) (bitsOf j.dxForce 1 8)
    else (s.setF (F.CORE_DX1_RHO k) (bitsOf j.dxForce 9 10)).setF (F.CORE_DX1_PR k) (bitsOf j.dxForce 1 8)) s

/-- What takes effect at a job's frame start: the tile map (R67), DX_CTRL and INVALIDATE (Table DX-2, Table DX-4). -/
def Job.frameEffects (j : Job) : Job :=
  let j := match j.tilesNext with
    | none => j
    | some t => { j.takeTiles t with tilesNext := j.tilesBack, tilesBack := none }
  let j := { j with dxForce := j.dxCtrl }
  if j.dxInval then { j.staleAll with dxInval := false } else j

/-- The cores whose tiles a joined row of a frame is made of, left to right (R320). -/
def JFrame.primaries (x : JFrame) : List Nat := (upFrom 0 8).filter (fun k => 0 < nth 0 x.tiles k)

/-- The spatial rows that a core has sent for a band and result tensor: the rows of the first one, when it is complete. -/
def JFrame.firstRow (x : JFrame) (k t core : Nat) : Option (List ResRow) :=
  let l := x.res.filter (fun r => r.k == k && r.t == t && r.core == core)
  let h := l.takeWhile (fun r => !r.last)
  match l[h.length]? with
  | none => none
  | some e => some (h ++ [e])

/-- TAKE records of a program. -/
def Job.takes (j : Job) : List EdgeRec := j.edge.recs.filter (fun r => recB r 0 1 == 4)

/-- A joined row of a frame can run (R320): its band and result tensor. -/
def Job.joined (j : Job) (x : JFrame) : Option (Nat × Nat) :=
  (x.bands.flatMap (fun b => j.takes.map (fun e => (b, recB e 4 1)))).findSome? (fun e =>
    if !e.1.aborted && (x.primaries.all (fun c => (x.firstRow e.1.k e.2 c).isSome)) && !x.primaries.isEmpty
    then some (e.1.k, e.2) else none)

/-- The NMS record of a program. -/
def Job.nmsRec (j : Job) : Option EdgeRec := j.edge.recs.find? (fun e => recB e 0 1 == 8)

/-- TAKE has completed for the flush band of a frame, or will not (R325, R327): the band is over and no row of the frame waits to
be joined; its boxes have not been suppressed. -/
def Job.nmsDue (j : Job) (x : JFrame) : Bool :=
  j.nmsRec.isSome && !x.suppressed && (x.band (j.lastBand x.h)).elim false (·.over) && (j.joined x).isNone

/-- The Edge engine still has work of a frame (R325): a row to join, or boxes to suppress once its last band is over. -/
def Job.edgeWork (j : Job) (x : JFrame) : Bool :=
  (j.joined x).isSome || (j.nmsRec.isSome && !x.suppressed && !j.session)

/-- The registers of a tap as written. -/
def State.tapRegs (s : State) (t : Fin 2) : TapCfg :=
  { on := s.flag (F.OF_TAP_ENABLE t), src := s.getF (F.OF_TAP_SRC t), nbuf := s.getF (F.OF_TAP_NBUF t) + 1,
    base := s.getF (F.OF_TAP_BASE t) * 256, pitch := s.getF (F.OF_TAP_PITCH t) }

/-- The registers of a tap come into force for a frame (R22, Table OF-6): job and frame number. -/
def State.tapShot (s : State) (t : Fin 2) (job no : Nat) : State :=
  let x := vget s.out.taps t
  { s with out := { s.out with taps := vset s.out.taps t { x with shots := ((job, no), s.tapRegs t) :: x.shots.take 15 } } }

/-- The registers of the taps T2 and T3 that a job claims come into force at its frame start. -/
def State.tapShots (s : State) (j : Job) (no : Nat) : State :=
  let s := if j.taps.contains 2 then s.tapShot 0 j.id no else s
  if j.taps.contains 3 then s.tapShot 1 j.id no else s

/-- A frame of a job begins: context, source counter, frame start, height, bit depth, flags, buffer. Closed frames but the
last, and but those of which the Edge engine still has work, leave the job's record. -/
def State.beginFrame (s : State) (id ctx src fs h depth flags : Nat) (buf : Option Nat) : State :=
  let s := match s.job id with
    | none => s
    | some j => s.tapShots j j.frame
  let s := s.modJob id (fun j =>
    let j := j.frameEffects
    let old := j.frames.filter (fun x => !x.closed || x.no + 1 == j.frame || j.edgeWork x)
    let x : JFrame := { no := j.frame, fs := fs, ctx := ctx, src := src, h := h, depth := depth, flags := flags, buf := buf,
                        tiles := j.tiles, bands := j.newBands h, lines := [], lastPair := [], nextQ := 0, ended := false, bufs := [],
                        res := [], taken := [], cands := [], seen := 0, overflow := false, suppressed := false }
    Job.widen { j with
      frames := old ++ [x], frame := (j.frame + 1) % 2 ^ 32, fsPrev := j.fs, fs := fs, height := if j.session then j.height else h })
  match s.job id with
  | none => s
  | some j => s.showDx j

/-- A context of a job at job start (Table IS-1). -/
def Ctx.start (c : Ctx) (j : Job) : Ctx :=
  { Ctx.reset with job := some j.id, pc := j.entry, halted := false, parBad := c.parBad }

/-- SMEM of a core at job start: zero in the job's range but for its sections (R234). -/
def State.initSmem (s : State) (j : Job) (k : Fin 8) : State :=
  let h := j.on k.val
  let s := s.smemPut k h.smemFirst (List.replicate h.smemCount 0#8)
  j.smemInit.foldl (fun s e => if bitsOf e.1 k.val 1 = 1 then s.smemPut k (h.smemFirst + e.2.1) e.2.2 else s) s

/-- A START takes effect (R465, R544): RUNNING, contexts and SMEM initialised, every stale bit set (Table DX-2), values of
effect JOB in force. -/
def State.activate (s : State) (id : Nat) : State :=
  match s.job id with
  | none => s
  | some j =>
    let j := match j.tilesNext with
      | none => j
      | some t => { j with tiles := t, tilesNext := j.tilesBack, tilesBack := none }
    let all := allCores.filter (fun k => j.cores.contains k || j.tilesNext.any (fun t => (mapCores j.paired t).contains k))
    let j := { j with span := j.n }
    let j := { j.staleAll with state := .running, killCls := 0, startTag := j.startPend, startPend := none, frame := 0,
                               frames := [], prevAborted := false, points := [], recent := [], dxForce := j.dxCtrl,
                               steps := 0, stepAt := none, lastStep := 0 }
    let s := s.setJob j
    let x := j.ctxNo
    let s := all.foldl (fun (s : State) (k : Fin 8) =>
      let s := (s.setCtx k x ((s.ctx k x).start j)).setHalted k x 0
      let s := s.initSmem j k
      let s := s.setCore k { s.core k with pairHeld := (s.core k).pairHeld.filter (fun h => h.job != id),
                                                    pairDig := [], outSeq := [],
                                                    ring := (s.core k).ring.filter (fun g => g.job != id) }
      let s := (s.takeFld (F.CORE_PAIR_WINDOW k)).takeFld (F.CORE_PAIR_DEGRADE k)
      let s := if j.inline then s.takeFld (F.NUM_CTL_E5M2_INF0 k) else s.takeFld (F.NUM_CTL_E5M2_INF1 k)
      -- R560: a core in NAP leaves it on the START of a job that uses it
      let i := s.isl k
      let s := if 2 ≤ s.pstate k ∧ i.wakeWhy.isNone then s.setIsl k { i with wakeWhy := some 4 } else s
      s.settle k) s
    let s := if j.session then (((s.setF F.AD_STATUS_RUNNING 1).setF F.AD_STATUS_DONE 0).setF F.AD_STATUS_KILLED 0).setF F.AD_STEPS 0 else s
    (s.showDx j).settleDev

/-- A receive context. -/
def State.inCtx (s : State) (n : Fin 8) : InCtx := vget s.intake.ctx n

/-- State with a receive context replaced. -/
def State.setInCtx (s : State) (n : Fin 8) (c : InCtx) : State :=
  { s with intake := { s.intake with ctx := vset s.intake.ctx n c } }

/-- The bits of a pixel of a CSI-2 data type; 16 for those that are passed as bytes (Table IN-1). -/
def depthOf (dt : Nat) : Nat :=
  match dt with
  | 0x2A => 8
  | 0x2B => 10
  | 0x2C => 12
  | 0x2D => 14
  | _ => 16

/-- Full buffers that a memory-path job has not taken, as (frame start, context, buffer), earliest first (R106). -/
def State.fullBufs (s : State) (j : Job) : Option (Nat × Nat × Nat) :=
  let l := j.inctxs.flatMap (fun n =>
    let c := s.inCtx (coreOf n)
    (upFrom 0 8).filterMap (fun b =>
      match c.bufs[b]? with
      | some v => if v.full && !v.taken then some (v.fs, n, b) else none
      | none => none))
  l.foldl (fun a e => match a with
    | none => some e
    | some m => if e.1 < m.1 then some e else some m) none

/-- A memory-path job with no frame in progress begins its next full buffer, unless it is stopping. The frame start of a
memory-path frame is the DTIME at which the dispatcher begins it (log entry 30). -/
def State.memNext (s : State) (id : Nat) : State :=
  match s.job id with
  | none => s
  | some j =>
    if j.inline || j.session || j.state != .running || j.stopping || j.frames.any (fun x => !x.closed) then s
    else
      match s.fullBufs j with
      | none => s
      | some (_, n, b) =>
        let c := s.inCtx (coreOf n)
        match c.bufs[b]? with
        | none => s
        | some v =>
          let s := s.setInCtx (coreOf n) { c with bufs := setNth c.bufs b { v with taken := true }, histM := [] }
          s.beginFrame id n v.src s.time.now v.h (depthOf v.dt) v.flags (some b)

/-- A frame of a job is in progress: a band is not over, or its last rows are still at the Edge engine (R325). -/
def State.frameOpen (s : State) (j : Job) (x : JFrame) : Bool :=
  !x.closed || j.edgeWork x || s.edge.run.any (fun r => r.job == j.id && r.frame == x.no)

/-- A STOP ends once no frame of the job is in progress (R544): LOADED, with its completions. A stop of an orderly power-down
has none (R630). -/
def State.stopDone (s : State) (id : Nat) : State :=
  match s.job id with
  | none => s
  | some j =>
    if !j.stopping || j.state != .running || j.frames.any (s.frameOpen j) || j.stepAt.isSome then s
    else
      let s := s.haltJob id
      let s := s.setJob { j with state := .loaded, stopping := false, startTag := none, frames := [] }
      let s := j.cores.foldl (fun s k => s.setHalted k j.ctxNo 1) s
      let s := if j.session then s.setF F.AD_STATUS_RUNNING 0 else s
      s.settleDev.stopReply id (leBytes 1 0)

/-- A STOP, or the stop of an orderly power-down, of a running job is accepted (R544): a frame of a memory-path job of which
no stripe has started does not begin, and its buffer is not taken. -/
def State.askStop (s : State) (id : Nat) : State :=
  match s.job id with
  | none => s
  | some j =>
    let unbegun (x : JFrame) : Bool := !j.inline && !j.session && !x.closed && x.bands.all (fun r => r.started.isEmpty)
    let s := (j.frames.filter unbegun).foldl (fun s x =>
      let c := s.inCtx (coreOf x.ctx)
      let free (b : Nat) (v : InBuf) : InBuf := if x.buf = some b then { v with taken := false } else v
      s.setInCtx (coreOf x.ctx) { c with bufs := ((upFrom 0 c.bufs.length).zip c.bufs).map (fun e => free e.1 e.2) }) s
    (s.modJob id (fun j => { j with stopping := true, frames := j.frames.filter (fun x => !unbegun x) })).stopDone id

/-- NMS_BUSY (Table MP-6): boxes of some frame wait for their suppression. -/
def State.showNms (s : State) : State :=
  let due := s.jobs.any (fun j => j.frames.any (fun x => j.nmsDue x
    && !s.edge.run.any (fun r => r.post && r.job == j.id && r.frame == x.no)))
  s.setF F.EDGE_STATUS_NMS_BUSY (if due then 1 else 0)

/-- A band is over, or the Edge engine has done its work of one: the frame may be, and with it a STOP or the wait of the next
memory-path frame. -/
def State.bandOver (s : State) (id : Nat) : State := ((s.showNms).stopDone id).memNext id

/-- The frame start of Intake context `ctx` reaches the in-line job it feeds (R103, R544, R554, R374). -/
def State.inlineStart (s : State) (ctx src fs h depth : Nat) : State :=
  match s.jobs.find? (fun j => j.inline && j.inctx == ctx) with
  | none => s
  | some j =>
    -- R374: a flush band with no stream is due at this frame start
    let s := j.frames.foldl (fun s x =>
      let n := j.lastBand x.h
      if (x.band n).any (fun r => r.deadline.isNone && (r.ready.isSome || (s.deadline j x n).isNone)) then
        (s.modJob j.id (fun j => j.modBand x.no n (fun r => { r with deadline := some fs }))).settleBand j.id x.no n
      else s) s
    let s :=
      -- R554: a STOP accepted since the last frame start wins over every START
      if j.stopped then s.modJob j.id (fun j => { j with stopped := false, startPend := none })
      else if j.startPend.isSome then s.activate j.id else s
    match s.job j.id with
    | none => s
    | some j =>
      if j.state == .running && !j.stopping then
        s.beginFrame j.id ctx src fs h depth 0 none
      else s

/-! ### Session steps (R350) -/

/-- A session step begins: its one stripe is ready at its start. -/
def State.beginStep (s : State) (id : Nat) : State :=
  let t := s.time.now
  let s := s.modJob id (fun j => { j with frame := j.steps })
  let s := s.beginFrame id 0xFF 0 t 1 16 0 none
  -- AD_CFG comes into force at the start of a step's stripe (R21)
  let s := (s.modJob id (fun j => { j with stepAt := some t, lastStep := t })).takeForce F.AD_CFG_GATE.off
  match s.job id with
  | none => s
  | some j => s.stripeReady id (j.frame - 1) 0

end Sys2Proof.Machine
end

