-- ==== Sys2Proof/Machine/Crc.lean ====
section
/-! DEFINITION. The cyclic codes of the part: CRC-32 of link flits (Table TH-7), CRC-16 of CSI-2 and CRC-64 of digests. -/

namespace Sys2Proof.Machine

/-- The bits of a number, least significant first. -/
def bitsLow : Nat → Nat → List Bool
  | 0, _ => []
  | n + 1, v => (v % 2 == 1) :: bitsLow n (v / 2)

/-- One step of a reflected CRC. -/
def crcStep (w poly : Nat) (c : Nat) (b : Bool) : Nat :=
  let x := c % 2 != (if b then 1 else 0)
  if x then (c / 2) ^^^ poly % 2 ^ w else c / 2

/-- CRC-32 of IEEE 802.3 over bits in order: reflected, ones at the start, complemented at the end. -/
def crc32 (l : List Bool) : Nat := (l.foldl (crcStep 32 0xEDB88320) 0xFFFFFFFF) ^^^ 0xFFFFFFFF

/-- CRC-64 of R279 over bytes in order: ECMA-182, reflected, ones at the start, complemented at the end. -/
def crc64 (l : List Byte) : Nat :=
  ((l.flatMap (fun b => bitsLow 8 b.toNat)).foldl (crcStep 64 0xC96C5795D7870F42) 0xFFFFFFFFFFFFFFFF) ^^^
    0xFFFFFFFFFFFFFFFF

end Sys2Proof.Machine
end

