-- ==== Sys2Proof/Machine/UnitRun.lean ====
section
/-! DEFINITION. What a unit does with an instruction of its queue: the rows it reads (R181, R183, R198, R438), its result, its
transfers (R266–R274), outbound rows of paired cores (R165, R167), and its completion (R142, R145). -/

namespace Sys2Proof.Machine

/-! ### Rows that an instruction reads -/

/-- Drawer rows of an operand: of its data rows, or of the rows of a BB stream. -/
def Desc.drawers (d : Desc) (m : Rd) : List Nat :=
  if d.etype != 2 then []
  else if d.layout = 3 then upFrom d.drrow (((d.bbRows m).length + 15) / 16) else d.drawerRows

/-- The shelf list row. -/
def Desc.shelfRow (d : Desc) : List Nat := if d.shelfn = 0 then [] else [d.shrow]

/-- Rows of DA's shelf, its drawers, DB and DD that XFIX reads (R257). -/
def xfixReads (m : Rd) (o : OpC) (dd da db : Desc) : List (Bool × Nat) :=
  let sp (l : List Nat) : List (Bool × Nat) := l.map (fun r => (false, r))
  let own (d : Desc) : List (Bool × Nat) := d.rows.map (fun r => (d.space, r))
  own dd ++ (if dd.etype = 9 then sp (db.scaleTab (db.d3 * (db.d2 / db.g))) else [])
    ++ (if o = .xfixShelf then sp (db.shelfRows true) ++ sp (da.shelfRows false)
        else own da ++ sp (da.drawers m) ++ db.weightRows m ++ sp (db.drawers m) ++ sp db.shelfRow)

/-- The rows an instruction of the array, vector or quantise unit reads, as (awning, row). -/
def tensorReads (m : Rd) (e : UEnv) (o : OpC) (i : UInst) : List (Bool × Nat) :=
  let dd := descOf i.dd
  let da := descOf i.da
  let db := descOf i.db
  let aux := fAux i.word
  let acc := bitsOf aux 8 1 == 1
  let sp (l : List Nat) : List (Bool × Nat) := l.map (fun r => (false, r))
  let own (d : Desc) : List (Bool × Nat) := d.rows.map (fun r => (d.space, r))
  let val (d : Desc) : List (Bool × Nat) := own d ++ sp (d.drawers m)
  let full (d : Desc) : List (Bool × Nat) := if d.layout = 3 then d.weightRows m ++ sp (d.drawers m) else val d
  let sx := i.sx % 131072
  match o with
  | .conv | .mmul =>
    own da ++ (if o = .conv then da.haloRows e else []) ++ db.weightRows m ++ (if db.layout = 3 then sp db.shelfRow else [])
      ++ (if acc then own dd else []) ++ (if bitsOf aux 9 1 = 1 then sp (db.scaleTab (db.d3 * (db.d2 / db.g))) else [])
  | .wino => own da ++ da.haloRows e ++ own db ++ (if acc then own dd else [])
  | .bwdDgrad => own da ++ own db
  | .bwdWgrad => own da ++ own db ++ db.haloRows e ++ own dd
  | .dwconv => val da ++ da.haloRows e ++ val db
  | .ewise => val da ++ (if fSub i.word ≤ 4 ∨ fSub i.word = 7 ∨ fSub i.word = 8 then val db else [])
  | .lutDirect | .lutPwl => own da ++ [(false, sx)]
  | .pool => val da ++ da.haloRows e
  | .resize => val da ++ (if fSub i.word = 1 ∧ aux % 2 = 0 then da.haloRows e else [])
  | .argmax => val da
  | .dcmpCompare => val da ++ val db ++ [(false, sx)]
  | .dcmpForce => val da ++ val db
  | .dmrgMerge | .dmrgAdd => val da ++ val dd ++ sp (upFrom (aux % 131072) da.maskRows)
  | .dmrgDilate => sp (upFrom (aux % 131072) da.maskRows)
  | .opt =>
    own da ++ own db ++ own dd ++ sp (da.scaleTab (da.d0 * da.d1)) ++ sp (db.scaleTab (2 * da.d0 * da.d1))
      ++ sp (dd.scaleTab (da.d0 * da.d1))
  | .xfixShelf | .xfixDrawer => xfixReads m o dd da db
  | .qstatCurrent => full da ++ sp dd.shelfRow
  | .qstatHistory =>
    (if histFalls m dd da aux i.sx then full da else []) ++ (histSlots i.sx (2 ^ bitsOf aux 0 3)).flatMap (fun q =>
      sp (upFrom (dd.scrow + (q + 1) * histRows da.scaleRows) (histRows da.scaleRows))) ++ sp dd.shelfRow
  | .quant => val da ++ sp (dd.scaleTab da.scaleRows) ++ sp dd.shelfRow
  | .deqFloat => own da ++ sp (da.scaleTab da.scaleRows) ++ sp (db.scaleTab da.d2)
  | .deqIntmul => own da ++ sp (upFrom sx ((da.d2 + 255) / 256))
  | .qcvt => val da
  | _ => own da

/-- The result of an instruction of the array, vector or quantise unit (Tables IT-4 and IT-7). -/
def tensorEval (m : Rd) (e : UEnv) (o : OpC) (i : UInst) : UOut :=
  let dd := descOf i.dd
  let da := descOf i.da
  let db := descOf i.db
  let aux := fAux i.word
  let sub := fSub i.word
  let acc := bitsOf aux 8 1 == 1
  let grs := bitsOf aux 9 1 == 1
  let mr := aux % 131072
  let draws := srDraws (drawsOf o i.word da) i.srN i.sr
  match o with
  | .conv => evalConv m e dd da db (convP aux) acc grs
  | .mmul => evalConv m e dd { da with hl := 0, hr := 0, arows := 0 } db oneP acc grs
  | .wino => evalWino m e dd da db sub acc
  | .bwdDgrad | .bwdWgrad => evalBwd m e dd da db sub (convP aux)
  | .dwconv => evalDwconv m e dd da db (convP aux)
  | .ewise => evalEwise m e dd da db sub i.sx
  | .lutDirect => evalLutDirect m dd da (i.sx % 131072)
  | .lutPwl => evalLutPwl m e dd da i.sx i.sy
  | .pool => evalPool m e dd da sub aux
  | .resize => evalResize m e dd da sub aux
  | .argmax => evalArgmax m dd da
  | .dcmpCompare => evalDcmp m e dd da db false mr i.sx
  | .dcmpForce => { evalDcmp m e dd da db true mr i.sx with scene := none }
  | .dmrgMerge => evalDmrg m e dd da false mr
  | .dmrgAdd => evalDmrg m e dd da true mr
  | .dmrgDilate => evalDilate m da mr (bitsOf aux 17 3) i.sx
  | .opt => evalOpt m e dd da db (optP i.dc.toNat) draws
  | .xfixShelf => evalShelf m dd da db
  | .xfixDrawer => evalDrawer m dd da db
  | .qstatCurrent => evalQstat m dd da false aux 0
  | .qstatHistory => evalQstat m dd da true aux i.sx
  | .quant =>
    evalQuant m e dd da (sub == 1) (bitsOf aux 0 1 == 1) draws (if fSx i.word = 0 then none else some (i.sx % 16))
  | .deqFloat => evalDeqFloat m e dd da db
  | .deqIntmul => evalDeqInt m e dd da (bitsOf aux 0 6) i.sx
  | .qcvt => evalQcvt m e dd da (sub == 1) draws
  | _ => UOut.none

/-- What the lanes check of an array instruction's cells; they check CONV, MMUL, WINO and BWD, under a checksum mode other than off
(R442). -/
def tensorCells (m : Rd) (e : UEnv) (o : OpC) (i : UInst) : List (FV × FV) :=
  let dd := descOf i.dd
  let da := descOf i.da
  let db := descOf i.db
  let aux := fAux i.word
  let acc := bitsOf aux 8 1 == 1
  let grs := bitsOf aux 9 1 == 1
  let conv (da : Desc) (p : ConvP) : List (FV × FV) :=
    let sh := db.shelf m
    let ws := (upFrom 0 db.d3).map (fun o => db.weights m sh o)
    cellsOf dd (convCell m e dd da db p acc grs ws)
  if i.ck % 4 = 0 then []
  else
    match o with
    | .conv => conv da (convP aux)
    | .mmul => conv { da with hl := 0, hr := 0, arows := 0 } oneP
    | .wino => cellsOf dd (winoCell m e da db (fSub i.word))
    | .bwdDgrad | .bwdWgrad => cellsOf dd (bwdCell m e dd da db (fSub i.word) (convP aux))
    | _ => []

/-! ### Reading rows -/

/-- A way to read a core's rows without acting on syndromes; the words of `hits` are poisoned (R438). -/
def State.peek (s : State) (k : Fin 8) (hits : List (Bool × Nat × Nat)) : Rd := fun awn r i =>
  let c := s.core k
  let q := readWord (mget zeroWord (if awn then c.awn else c.sp) (r * 64 + i))
  (q.2.1, q.1.isPoison || hits.contains (awn, r, i))

/-- A unit of a context may access a local row: its job's rows, or in the test context the rows its slot has saved (R198,
R487). -/
def State.unitAllowed (s : State) (k : Fin 8) (x : Fin 3) (id : Nat) (awn : Bool) (r : Nat) (write : Bool) : Bool :=
  if x = 2 then
    match s.slotOn k with
    | none => false
    | some t => !awn && t.savedRows.any (fun e => e.1 / 64 == r)
  else s.localAllowed id k.val awn r write

/-- Unit ID of a queue of a core (Table PC-3); the Winograd unit for WINO. -/
def unitId (k u : Nat) (o : OpC) : Nat := coreUnit k (if o = .wino then 3 else nth 0 [1, 2, 4, 5, 6] u)

/-- The ROW_PROTECT record of a row that a unit may not access (R198). -/
def State.unitProtect (s : State) (id k uid r : Nat) : State :=
  s.reportAft { mkRec s.time.aft uid 0x03 with job := id, addr := spLoc k (r % 131072), akind := 2 }

/-- The firmware repairs the segment of a poisoned WEIGHT row from its replicas at once (R462). -/
def State.weightPoison (s : State) (k r : Nat) : State :=
  match s.pkgs.find? (fun p => p.cores.contains k && decide (p.first ≤ r) && decide (r < p.first + p.rows)) with
  | none => s
  | some p => s.digestSeg p ((r - p.first) / 256)

/-- A unit of a job has read a poisoned WEIGHT row (R472). -/
def State.taint (s : State) (job : Nat) (k : Fin 8) (rows : List Nat) : State :=
  let pois (r : Nat) : Bool :=
    (upFrom 0 64).any (fun i => (readWord (mget zeroWord (s.core k).sp (r * 64 + i))).1.isPoison)
  let hit (p : Pkg) : Bool :=
    p.cores.contains k.val && rows.any (fun r => decide (p.first ≤ r) && decide (r < p.first + p.rows) && pois r)
  let new := ((s.pkgs.filter hit).map (fun p => (job, p.id))).filter (fun e => !s.flt.taints.contains e)
  if job = 0 then s else { s with flt := { s.flt with taints := s.flt.taints ++ new } }

/-- Reads rows of a core, acting on every word's syndrome (R181): the state, and whether some word is poisoned. -/
def State.readAll (s : State) (k : Fin 8) : List (Bool × Nat) → State × Bool
  | [] => (s, false)
  | (awn, r) :: l =>
    let (ws, s) := if awn then s.getAwn k r else s.getRow k r
    let s := if !awn && rowPoisoned ws then s.weightPoison k.val r else s
    let (s, p) := State.readAll s k l
    (s, rowPoisoned ws || p)

/-- Corrected words of a row as it stands. -/
def State.correctedIn (s : State) (k : Fin 8) (awn : Bool) (r : Nat) : Nat :=
  let m := if awn then (s.core k).awn else (s.core k).sp
  ((upFrom 0 64).filter (fun i => (readWord (mget zeroWord m (r * 64 + i))).1 == .corrected)).length

/-- What a stripe gives a unit (R249, Table NN-6). -/
def State.unitEnv (s : State) (k : Fin 8) (x : Fin 3) (i : UInst) : UEnv :=
  let c := { s.ctx k x with stripe := i.stripe }
  let f := match s.job i.job with
    | some j => infoJob j c k.val 7
    | none => 0
  { left := bitsOf f 0 1 == 1, right := bitsOf f 1 1 == 1, top := bitsOf f 2 1 == 1, flush := bitsOf f 3 1 == 1,
    aborted := c.prevAborted,
    e5inf := if x = 0 then s.forceF (F.NUM_CTL_E5M2_INF0 k) == 1
      else if x = 1 then s.forceF (F.NUM_CTL_E5M2_INF1 k) == 1 else false }

/-! ### Array, vector and quantise instructions -/

/-- Effects of a result. -/
def UOut.effs (o : UOut) (core : Nat) (sets : Bool) : List UEff :=
  let b (p : Bool) (n : Nat) : List UEff := if p then [UEff.status n] else []
  o.rows.map (fun r => UEff.row core r.1 r.2.1 r.2.2)
    ++ (if o.sat = 0 then [] else [UEff.sat o.sat]) ++ b o.nonfin 2 ++ b o.drawerBad 4 ++ b o.histFb 6 ++ b o.shelfBad 8
    ++ (if o.arr = 0 then [] else [UEff.perf o.arr o.dense])
    ++ (match o.scene with
      | .none => []
      | .some (c, t) => [UEff.scene c t sets])

/-- Starts an instruction of the array, vector or quantise unit: its rows are read and its result formed. A refused row, or a
refusal of the Winograd unit, leaves its rows unwritten (R145, R157, R198). -/
def State.runTensor (s : State) (k : Fin 8) (x : Fin 3) (u : Nat) (o : OpC) (i : UInst)
    (par : List (Bool × Nat × Nat)) : State × UInst :=
  let uid := unitId k u o
  if o = .wino ∧ winoRefused (fSub i.word) (descOf i.da) (descOf i.db) then (s, { i with cause := excWinograd })
  else
    let rows := (tensorReads (s.peek k []) (s.unitEnv k x i) o i).dedup
    let bad := rows.filter (fun r => !s.unitAllowed k x i.job r.1 r.2 false)
    if !bad.isEmpty then
      (bad.foldl (fun s r => s.unitProtect i.job k.val uid r.2) s, { i with cause := excAddrUnmapped })
    else
      let hits := par.filter (fun h => rows.contains (h.1, h.2.1))
      let m := s.peek k hits
      let out := tensorEval m (s.unitEnv k x i) o i
      let s := s.taint i.job k ((rows.filter (fun r => !r.1)).map (·.2))
      let (s, p) := s.readAll k rows
      let s := hits.foldl (fun s _ => s.pathParity k uid i) s
      let badW := out.rows.filter (fun r => !s.unitAllowed k x i.job r.1 r.2.1 true)
      if !badW.isEmpty then
        (badW.foldl (fun s r => s.unitProtect i.job k.val uid r.2.1) s, { i with cause := excAddrUnmapped })
      else
        (s, { i with effs := out.effs k.val (o == .dcmpCompare), cause := if p || !hits.isEmpty then excUnitPoison else 0,
                     satB := out.satBlocks, cells := tensorCells m (s.unitEnv k x i) o i })

/-! ### Outbound rows (R165, R167, R273, R466–R470) -/

/-- The commit of an RXFER or PSEND at the Aft gate: whether it goes on. -/
def State.aftGate (s : State) (id : Nat) (poison holds : Bool) (a akind : Nat) : State × Bool :=
  if id = 0 then (s, true)
  else if s.gateDrops id 0 then (s, false)
  else if poison then (s.poisonCommit id 0 0x10 a akind, holds)
  else (s, true)

/-- A row leaves a core in context `y`: the exception of the access, and the state. Band results cross to the Edge engine, and are
dropped while the bridge is down (R28, R55). -/
def State.landOut (s : State) (k : Fin 8) (y : Nat) (id : Nat) (tag : Nat) (frame stripe : Nat) : UEff → Nat × State
  | .dev a ws commit => s.devWrite (.dma id k.val y) a (bytesOfRow ws) commit
  | .remote b r ws arrive =>
    let ob : OutBind := vget s.lnk.ob ⟨b % 32, Nat.mod_lt _ (by decide)⟩
    let (s, ok) := s.aftGate id (rowPoisoned ws) true
      (0x020000000000 + ob.chip * 0x100000000 + ob.win * 0x8000000 + r * 512) 1
    if !ok then (0, s)
    else
      let msg := { mkLink 0 0 tag (s.getF F.LNK_CFG_CHIP) ob.chip with
        win := ob.win, len := 16, arrive := arrive, row := r, key := ob.key, pmask := pmaskOfRow ws, data := flitsOfRow ws }
      match s.linkSend msg with
      | some s => (0, s)
      | none => (excAddrUnmapped, { s with lnk := { s.lnk with waits := s.lnk.waits.filter (fun w => w.tag != tag) } })
  | .result t xx _ last ws =>
    let (s, ok) := s.aftGate id (rowPoisoned ws) false 0 0
    (0, if !ok || !s.brgUp then s
        else s.modJob id (fun j => j.modFrame frame (fun f =>
          if (f.bands.any (fun r => r.k == stripe && !r.aborted)) then
            { f with res := f.res ++ [{ k := stripe, t := t, core := k.val, x := xx, last := last, ws := ws }] }
          else f)))
  | _ => (0, s)

/-- The effect with its row poisoned in every word. -/
def UEff.poisoned (c : Nat) : UEff → UEff
  | .dev a _ commit => .dev a (poisonRow c) commit
  | .remote b r _ arrive => .remote b r (poisonRow c) arrive
  | .result t xx j last _ => .result t xx j last (poisonRow c)
  | e => e

/-- The words of an outbound row. -/
def UEff.words : UEff → Row
  | .dev _ ws _ => ws
  | .remote _ _ ws _ => ws
  | .result _ _ _ _ ws => ws
  | _ => []

/-- Takes the next sequence number of an outbound row of a context. It begins again at each stripe, so that an abort leaves no
later row out of step (R165). -/
def State.nextSeq (s : State) (k : Fin 8) (x : Fin 3) : Nat × State :=
  let c := s.core k
  let ord := (s.ctx k x).ord
  let v := mget (dflt 0) c.outSeq x.val
  let n := if v / 2 ^ 20 = ord then v else ord * 2 ^ 20
  (n * 2 + x.val % 2, s.setCore k { c with outSeq := mset (dflt 0) c.outSeq x.val (n + 1) })

/-- A held row goes on, as it is or poisoned. -/
def State.releaseRow (s : State) (k : Fin 8) (h : HeldRow) (poison : Bool) : State :=
  let s := s.setCore k { s.core k with pairHeld := (s.core k).pairHeld.filter (fun r => r.seq != h.seq) }
  let e := if poison then h.eff.poisoned s.free else h.eff
  let s := if poison then s.drawn 64 else s
  let (cause, s) := s.landOut k h.ctx h.job h.tag h.frame h.stripe e
  s.transCause k ⟨h.ctx % 3, Nat.mod_lt _ (by decide)⟩ cause

/-- The digest of a row (R279). -/
def rowDigest (ws : Row) : BitVec 64 := BitVec.ofNat 64 (crc64 (rowBytes ws))

/-- A pair event (R167, R464): the record, and the digest of both cores' weight replicas. -/
def State.pairEvent (s : State) (k : Fin 8) (h : HeldRow) (cls : Nat) : State :=
  let s := s.reportAft
    { mkRec s.time.aft 0x10 cls with
      job := h.job, poison := true, core := some k.val, stripe := h.frame * 65536 + h.stripe }
  (s.sweepCore k).sweepCore (coreOf (k.val + 1))

/-- A digest meets the held row of its number (R167). -/
def State.comparePair (s : State) (k : Fin 8) (h : HeldRow) (d : BitVec 64) : State :=
  if rowDigest h.eff.words = d then s.releaseRow k h false
  else (s.releaseRow k h true).pairEvent k h 0x25

/-- An outbound row of a core (R165, R167): it leaves at once, is held for its pair's digest, is released unchecked while the
secondary is quarantined and DEGRADE is 1, or on a secondary gives its digest alone. -/
def State.outbound (s : State) (k : Fin 8) (x : Fin 3) (i : UInst) (tag : Nat) (e : UEff) : State :=
  match s.job i.job with
  | none =>
    let (cause, s) := s.landOut k x.val i.job tag i.frame i.stripe e
    s.transCause k x cause
  | some j =>
    if j.secondary (s.ctx k x) k.val then
      let (n, s) := s.nextSeq k x
      s.setCore k { s.core k with pairDig := (s.core k).pairDig ++ [(n, rowDigest e.words)] }
    else if j.paired then
      let (n, s) := s.nextSeq k x
      let h : HeldRow := { seq := n, ctx := x.val, job := i.job, eff := e, since := s.time.aft, tag := tag, frame := i.frame,
                           stripe := i.stripe }
      if s.flag (F.CORE_STATUS_QUAR (k.val + 1)) && s.forceF (F.CORE_PAIR_DEGRADE k) == 1 then
        (s.setF (F.CORE_STATUS_PAIR_DEGRADED k) 1).releaseRow k h false
      else
        let s := s.setCore k { s.core k with pairHeld := (s.core k).pairHeld ++ [h] }
        match (s.core k).pairDig.find? (fun d => d.1 == n) with
        | some d => (s.setCore k { s.core k with pairDig := (s.core k).pairDig.filter (fun q => q.1 != n) }).comparePair k h d.2
        | none => s
    else
      let (cause, s) := s.landOut k x.val i.job tag i.frame i.stripe e
      s.transCause k x cause

/-! ### Transfers -/

/-- The running transfer of a context: what it has gathered. -/
structure Xfer where
  effs : List UEff
  cause : Nat
deriving DecidableEq, Repr

/-- Keeps the first exception. -/
def Xfer.exc (t : Xfer) (c : Nat) : Xfer := if t.cause = 0 then { t with cause := c } else t

/-- Adds an effect. -/
def Xfer.add (t : Xfer) (e : UEff) : Xfer := { t with effs := t.effs ++ [e] }

/-- Reads one local row for a transfer: none where the row is refused (R198). Poison is noted (R183). -/
def State.xferRow (s : State) (k : Fin 8) (x : Fin 3) (i : UInst) (par : List (Bool × Nat × Nat)) (awn : Bool) (r : Nat) :
    Option Row × Nat × State :=
  let uid := coreUnit k 5
  if !s.unitAllowed k x i.job awn r false then (none, excAddrUnmapped, s.unitProtect i.job k.val uid r)
  else
    let (ws, s) := if awn then s.getAwn k r else s.getRow k r
    let s := if !awn && rowPoisoned ws then (s.taint i.job k [r]).weightPoison k.val r else s
    let hit (n : Nat) : Bool := par.contains (awn, r, n)
    let ws : Row := ((upFrom 0 ws.length).zip ws).map (fun e => (e.2.1, e.2.2 || hit e.1))
    let s := (par.filter (fun h => h.1 == awn && h.2.1 == r)).foldl (fun s _ => s.pathParity k uid i) s
    (some ws, if rowPoisoned ws then excUnitPoison else 0, s)

/-- A local row that a transfer writes: refused, or an effect (R198). -/
def State.xferPut (s : State) (k : Fin 8) (x : Fin 3) (i : UInst) (awn : Bool) (r : Nat) (ws : Row) (t : Xfer) :
    Xfer × State :=
  if !s.unitAllowed k x i.job awn r true then (t.exc excAddrUnmapped, s.unitProtect i.job k.val (coreUnit k 5) r)
  else (t.add (.row k.val awn r ws), s)

/-- External address of the `n`-th row of a DMA (R267). -/
def dmaAddr (i : UInst) (n : Nat) : Nat :=
  bitsOf (fAux i.word) 0 10 * 2 ^ 38 + i.sx * 64 + n * (if i.sy = 0 then 512 else i.sy * 64)

/-- The rows of a list with their places. -/
def numbered (l : List Nat) : List (Nat × Nat) := (upFrom 0 l.length).zip l

/-- The outbound binding that an RXFER of a job finds (R514). -/
def State.bindingOf (s : State) (id c w : Nat) : Option (Fin 32) :=
  allWins.find? (fun n => let b := vget s.lnk.ob n; b.open_ && b.chip == c && b.win == w && b.job == id)

/-- Folds a transfer over its rows. -/
def State.xferFold (f : Nat × Nat → Xfer × State → Xfer × State) (rows : List Nat) (s : State) : Xfer × State :=
  (numbered rows).foldl (fun a e => f e a) (⟨[], 0⟩, s)

/-- Starts an RXFER (R268, R514, R516): without a binding its token faults; a write sends its rows and a read its requests,
and each waits for the owner. -/
def State.runRxfer (s : State) (k : Fin 8) (x : Fin 3) (i : UInst) (write : Bool) (par : List (Bool × Nat × Nat)) :
    State × UInst :=
  let da := descOf i.da
  let aux := fAux i.word
  match s.bindingOf i.job (bitsOf aux 0 3) (bitsOf aux 3 8) with
  | none => (s, { i with cause := excWindowClosed })
  | some b =>
    let ob : OutBind := vget s.lnk.ob b
    let tag := s.lnk.nextTag
    let rows := numbered da.rows
    let ok := rows.filter (fun e => s.unitAllowed k x i.job da.space e.2 (!write))
    let bad := rows.filter (fun e => !s.unitAllowed k x i.job da.space e.2 (!write))
    let sec := (s.job i.job).elim false (fun j => j.secondary (s.ctx k x) k.val)
    let s := { s with lnk := { s.lnk with nextTag := (tag + 1) % 4096 } }
    let wait : RxWait := { core := k.val, ctx := x.val, tok := i.tok, tag := tag, bind := b.val, chip := ob.chip,
                           read := !write, rows := if write then ok.map (fun e => i.sx + e.1) else ok.map (·.2),
                           awn := da.space, who := none, lo := 0, n := 0 }
    let s := if ok.isEmpty || (write && sec) then s else { s with lnk := { s.lnk with waits := s.lnk.waits ++ [wait] } }
    let s := bad.foldl (fun s e => s.unitProtect i.job k.val (coreUnit k 5) e.2) s
    let i := if bad.isEmpty then i else { i with cause := excAddrUnmapped }
    let c := s.ctx k x
    let s := s.setCtx k x (c.setQueue 3 ({ i with started := true } :: (c.queue 3).drop 1))
    let last := (ok.getLast?.map (·.1)).getD 0
    let s := ok.foldl (fun s e =>
      if write then
        let (ws, cause, s) := s.xferRow k x i par da.space e.2
        (s.transCause k x cause).outbound k x i tag
          (.remote b.val (i.sx + e.1) (ws.getD []) (bitsOf aux 11 1 == 1 && e.1 == last))
      else
        let msg := { mkLink 1 0 tag (s.getF F.LNK_CFG_CHIP) ob.chip with
          win := ob.win, row := i.sx + e.1, key := ob.key, inl := 512 }
        match s.linkSend msg with
        | some s => s
        | none => s.failWaits excAddrUnmapped (fun w => w.tag == tag)) s
    (s, match (s.ctx k x).queue 3 with
      | q :: _ => q
      | [] => i)

/-- Flips of the `n`-th row of a DMA in its buffers (R440). -/
def flipsOf (h : UnitHits) (n : Nat) : List Flip := (h.flips.filter (fun f => f.1 == n)).map (·.2)

/-- One outbound row of a transfer: the effect its words make. -/
def State.xferOut (k : Fin 8) (x : Fin 3) (i : UInst) (par : UnitHits) (n : Nat × Nat) (e : Row → UEff)
    (a : Xfer × State) : Xfer × State :=
  let (ws, cause, s) := a.2.xferRow k x i par.rows (descOf i.da).space n.2
  match ws with
  | none => (a.1.exc cause, s)
  | some ws =>
    let (ws, s) := s.hop k n.2 (flipsOf par n.1) ws
    ((a.1.exc (if rowPoisoned ws then excUnitPoison else cause)).add (e ws), s)

/-- One row of a transfer (Table IT-6): its number in the row set and the row. -/
def State.xferStep (k : Fin 8) (x : Fin 3) (o : OpC) (i : UInst) (par : UnitHits) (n : Nat × Nat)
    (a : Xfer × State) : Xfer × State :=
  let da := descOf i.da
  let dd := descOf i.dd
  if o = .dmaRead then
    let (bs, cause, s) := a.2.devRead (.dma i.job k.val x.val) (dmaAddr i n.1) 512
    let (ws, s) := s.hop k n.2 (flipsOf par n.1) (rowOfBytes bs)
    if cause ≠ 0 then (a.1.exc cause, s)
    else s.xferPut k x i da.space n.2 ws (a.1.exc (if rowPoisoned ws then excUnitPoison else 0))
  else if o = .dmaWrite then
    State.xferOut k x i par n (fun ws => .dev (dmaAddr i n.1) ws (bitsOf (fAux i.word) 10 1 == 1)) a
  else if o = .psend then
    let j := n.1 % da.pitch
    State.xferOut k x i par n (fun ws => .result (fAux i.word % 16) da.d0 j (j + 1 == da.pitch) ws) a
  else if o = .rcopy then
    let (ws, cause, s) := a.2.xferRow k x i par.rows da.space n.2
    match ws with
    | none => (a.1.exc cause, s)
    | some ws => s.xferPut k x i dd.space (nth 0 dd.rows n.1) ws (a.1.exc cause)
  else if o = .smld then
    let (ws, cause, s) := a.2.xferRow k x i par.rows da.space n.2
    match ws with
    | none => (a.1.exc cause, s)
    | some ws => if cause = 0 then (a.1.add (.smem (i.sx + 512 * n.1) (rowBytes ws)), s) else (a.1.exc cause, s)
  else
    let bs := (a.2.smemGet k (i.sx + 512 * n.1) 512).map (fun b => (b, false))
    let hits := par.smem.filter (fun w => decide ((i.sx + 512 * n.1) / 8 ≤ w) && decide (w < (i.sx + 512 * n.1) / 8 + 64))
    let ws : Row := ((upFrom 0 64).zip (rowOfBytes bs)).map (fun e => (e.2.1, e.2.2 || hits.contains ((i.sx + 512 * n.1) / 8 + e.1)))
    let s := hits.foldl (fun s _ => s.pathParity k (coreUnit k 5) i) a.2
    s.xferPut k x i da.space n.2 ws (a.1.exc (if hits.isEmpty then 0 else excUnitPoison))

/-- Starts a transfer (Table IT-6). Rows move in row-set order (R272); an outbound row goes through `outbound`. -/
def State.runTransfer (s : State) (k : Fin 8) (x : Fin 3) (o : OpC) (i : UInst) (par : UnitHits) :
    State × UInst :=
  let (t, s) := State.xferFold (State.xferStep k x o i par) (descOf i.da).rows s
  (s, { i with effs := t.effs, cause := t.cause })

/-! ### DIGEST and PTEST (R279, R280) -/

/-- Starts DIGEST or PTEST: neither ends FAULT on poison (R280). -/
def State.runCheck (s : State) (k : Fin 8) (x : Fin 3) (o : OpC) (i : UInst) (par : List (Bool × Nat × Nat)) :
    State × UInst :=
  let da := descOf i.da
  let rows := da.rows
  let bad := rows.filter (fun r => !s.unitAllowed k x i.job da.space r false)
  if !bad.isEmpty then
    (bad.foldl (fun s r => s.unitProtect i.job k.val (coreUnit k 6) r) s, { i with cause := excAddrUnmapped })
  else
    let hits := par.filter (fun h => h.1 == da.space && rows.contains h.2.1)
    let m := s.peek k hits
    let words (r : Nat) : Row := (upFrom 0 64).map (fun n => m da.space r n)
    let pois := rows.map (fun r => ((words r).filter (·.2)).length)
    let bytes :=
      if o = .digest then
        let ce := (rows.map (fun r => s.correctedIn k da.space r)).foldl (· + ·) 0
        let st := (if pois.any (0 < ·) then 1 else 0) + min ce 65535 * 65536
        leBytes 8 (crc64 (rows.flatMap (fun r => rowBytes (words r)))) ++ leBytes 8 st
      else
        let first := (numbered pois).find? (fun e => 0 < e.2)
        leBytes 4 (pois.foldl (· + ·) 0) ++ leBytes 4 ((first.map (·.1)).getD 0xFFFFFFFF)
    let (s, _) := s.readAll k (rows.map (fun r => (da.space, r)))
    let s := hits.foldl (fun s _ => s.pathParity k (coreUnit k 6) i) s
    (s, { i with effs := [.smem i.sx bytes] })

/-! ### Start and completion -/

/-- The units of a core run: it is powered and no initialisation or wake pass holds its rows (R192, R194). -/
def State.unitReady (s : State) (k : Fin 8) : Bool :=
  !s.off && decide (s.pstate k < 2) && !(s.core k).initing && !(s.core k).waking

/-- What an instruction writes when a word of its queue entry fails parity (R438, R183): its rows are poisoned, and SMEM, which
holds no poison, is not written. -/
def UInst.spoiled (i : UInst) (c : Nat) : UInst :=
  { i with cause := if i.cause = 0 then excUnitPoison else i.cause,
           effs := i.effs.filterMap (fun e => match e with
             | .smem _ _ => none
             | .row k awn r ws => some (.row k awn r (ws.map (fun w => (w.1, true))))
             | e => some (e.poisoned c)) }

/-- Starts the front instruction of a unit queue. An RXFER whose queue entry fails parity sends nothing (R438). -/
def State.startUnit (s : State) (k : Fin 8) (x : Fin 3) (u : Nat) (i : UInst) (par : UnitHits) :
    State × UInst :=
  match opOf i.word with
  | none => (s, i)
  | some o =>
    let done : State × UInst :=
      match o with
      | .rxferRead => if par.entry.isEmpty then s.runRxfer k x i false par.rows else (s, i)
      | .rxferWrite => if par.entry.isEmpty then s.runRxfer k x i true par.rows else (s, i)
      | .dmaRead | .dmaWrite | .rcopy | .smld | .smst | .psend => s.runTransfer k x o i par
      | .digest | .ptest => s.runCheck k x o i par.rows
      | _ => s.runTensor k x u o i par.rows
    if par.entry.isEmpty then done
    else ((par.entry.foldl (fun s _ => s.pathParity k (unitId k u o) i) done.1).drawn 64, done.2.spoiled done.1.free)

/-- Effects that leave the core go through pairing when it starts the transfer; those of an unpaired core land at the end. -/
def State.sendPaired (s : State) (k : Fin 8) (x : Fin 3) (i : UInst) : State × UInst :=
  let isOut (e : UEff) : Bool := match e with
    | .dev _ _ _ => true
    | .result _ _ _ _ _ => true
    | _ => false
  if !((s.job i.job).elim false (fun j => j.paired)) then (s, i)
  else
    let s := (i.effs.filter isOut).foldl (fun s e => s.outbound k x i 0 e) s
    let i' : UInst := match (s.ctx k x).queue 3 with
      | q :: _ => { i with cause := if i.cause = 0 then q.cause else i.cause }
      | [] => i
    (s, { i' with effs := i.effs.filter (fun e => !isOut e) })

/-- A device address lies beyond the bridge for a core. -/
def State.crosses (s : State) (a : Nat) : Bool :=
  match s.region a with
  | .sp _ _ _ => false
  | .win _ _ _ _ => false
  | _ => true

/-- The first row that a DMA read finds held at its core (R192, R194). -/
def State.readHeld (s : State) (i : UInst) : Option (Fin 8 × Nat) :=
  ((numbered (descOf i.da).rows).filterMap (fun n => match s.region (dmaAddr i n.1) with
    | .sp c r _ =>
      if s.spHeld (coreOf c) && decide (s.pstate (coreOf c) < 2) && s.rowAllowed i.job c r false then some (coreOf c, r) else none
    | _ => none)).head?

/-- A transfer cannot start yet: one that crosses a bridge which retrains (R54), a DMA read or, in a paired job, a transfer whose
rows leave as it starts; or a DMA read whose rows are held at their core, where it then waits (R192, R194). -/
def State.startWait (s : State) (k : Fin 8) (x : Fin 3) (u : Nat) (i : UInst) : Option State :=
  let paired := (s.job i.job).elim false (fun j => j.paired)
  let far := s.brgBusy && (numbered (descOf i.da).rows).any (fun n => s.crosses (dmaAddr i n.1))
  if u ≠ 3 then none
  else if opOf i.word = some .dmaWrite then (if paired && far then some s else none)
  else if opOf i.word = some .psend then (if paired && s.brgBusy then some s else none)
  else if opOf i.word ≠ some .dmaRead then none
  else if far then some s
  else if i.late then none
  else (s.readHeld i).map (fun h => s.holdRead h.1 (64 + 4 * k.val + x.val) h.2 i.pc i.tok)

/-- The DMA engine takes the contexts' transfers in turn, context 0 first in a tie (R161). -/
def State.turn (s : State) (k : Fin 8) (x : Fin 3) (u : Nat) : Bool :=
  if u ≠ 3 ∨ x = 2 then true
  else
    let y : Fin 3 := if x = 0 then 1 else 0
    match (s.ctx k y).queue 3 with
    | [] => true
    | i :: _ =>
      i.started || (s.ctx k y).lastX || (x == 0 && !(s.ctx k x).lastX) || (s.startWait k y 3 i).isSome

/-- Notes which context's transfer the DMA engine started last (R161). -/
def State.tookTurn (s : State) (k : Fin 8) (x : Fin 3) (u : Nat) : State :=
  if u ≠ 3 ∨ x = 2 then s
  else
    let y : Fin 3 := if x = 0 then 1 else 0
    let s := s.setCtx k x { s.ctx k x with lastX := true }
    s.setCtx k y { s.ctx k y with lastX := false }

/-- UNIT_INSTRUCTION_START (R140): the front instruction of a unit's queue starts. `par` are the words that fail
path parity and the flips in its buffers (R438, R440), `conf` the cycles in which requests of the core waited for a bank since they were last counted (R178). -/
def execUnitInstructionStart (k : Fin 8) (x : Fin 3) (u : Fin 5) (par : UnitHits) (conf : Nat) (s : State) :
    Out :=
  match (s.ctx k x).queue u.val with
  | [] => .next s
  | i :: _ =>
    if i.started || !s.unitReady k || !s.turn k x u.val then .next s
    else
      match s.startWait k x u.val i with
      | some s' => .next s'
      | none =>
        let s := (s.bumpWrap (F.CORE_SP_CONFLICT k) conf).tookTurn k x u.val
        let c := s.ctx k x
        let s := s.setCtx k x (c.setQueue u.val ({ i with started := true } :: (c.queue u.val).drop 1))
        let (s, j) := s.startUnit k x u.val i par
        let (s, j) := if u.val = 3 then s.sendPaired k x j else (s, j)
        .next (s.setCtx k x ((s.ctx k x).setQueue u.val ({ j with started := true } :: ((s.ctx k x).queue u.val).drop 1)))

/-- Sets a NUM_STATUS flag of a context (Table NN-7); the test context has none. -/
def State.numStatus (s : State) (k : Fin 8) (x : Fin 3) (bit : Nat) : State :=
  if x = 2 then s else s.setF ⟨(F.NUM_STATUS_SAT0 k).off, bit + x.val, 1⟩ 1

/-- SCENE of a context (R338): the mode is DELTA and more than RHO per mille of the positions changed. The stripe counts once
in DX_SCENE. -/
def State.noteScene (s : State) (k : Fin 8) (x : Fin 3) (i : UInst) (changed total : Nat) : State :=
  let mode := if x = 0 then s.getF (F.CORE_DX0_MODE k) else s.getF (F.CORE_DX1_MODE k)
  let rho := if x = 0 then s.getF (F.CORE_DX0_RHO k) else s.getF (F.CORE_DX1_RHO k)
  if x = 2 ∨ mode ≠ 0 then s
  else
    let s := s.modJob i.job (fun j => { j with dxChanged := (j.dxChanged + changed) % 2 ^ 32,
                                               dxPos := (j.dxPos + total) % 2 ^ 32 })
    if rho * total < changed * 1000 then
      let s := if x = 0 then s.setF (F.CORE_DX0_SCENE k) 1 else s.setF (F.CORE_DX1_SCENE k) 1
      s.modJob i.job (fun j =>
        let seen := j.frames.any (fun f => f.no == i.frame && f.bands.any (fun r => r.k == i.stripe && r.scene))
        let j := j.modBand i.frame i.stripe (fun r => { r with scene := true })
        if seen then j else { j with dxScene := satAdd 32 j.dxScene 1 })
    else s

/-- One effect of an instruction that finishes. -/
def State.landEff (s : State) (k : Fin 8) (x : Fin 3) (i : UInst) (e : UEff) : State :=
  match e with
  | .row c awn r ws => if awn then s.putAwn (coreOf c) r ws else s.putRow (coreOf c) r ws
  | .smem a bs => s.smemPut k a bs
  | .dev _ _ _ | .remote _ _ _ _ | .result _ _ _ _ _ => s.outbound k x i 0 e
  | .sat n => (s.bump (F.CORE_SAT k) n).numStatus k x 0
  | .scene c t set => if set then s.noteScene k x i c t else s
  | .status b => s.numStatus k x b
  | .perf a d => (s.bumpWrap (F.CORE_PERF_ARR k) a).bumpWrap (F.CORE_PERF_DENSE k) d
  | .record r => s.reportAft r

/-- Words of a result that fail parity on the result bus (R438): those of a row are poisoned; SMEM holds no poison, and DESIGN
CHOICE a result whose word fails does not reach it (log entry 125). -/
def UEff.hit (par : List (Bool × Nat × Nat)) (smem : List Nat) : UEff → UEff
  | .row c awn r ws =>
    .row c awn r (((upFrom 0 ws.length).zip ws).map (fun e => (e.2.1, e.2.2 || par.contains (awn, r, e.1))))
  | .smem a bs => if smem.any (fun w => decide (a / 8 ≤ w) && decide (8 * w < a + bs.length)) then .smem a [] else .smem a bs
  | e => e

/-- The words of SMEM results that a list of parity hits names. -/
def smemHits (effs : List UEff) (smem : List Nat) : List Nat :=
  smem.filter (fun w => effs.any (fun e => match e with
    | .smem a bs => decide (a / 8 ≤ w) && decide (8 * w < a + bs.length)
    | _ => false))

/-- The result rows that a list of parity hits names. -/
def resultHits (effs : List UEff) (par : List (Bool × Nat × Nat)) : List (Bool × Nat × Nat) :=
  par.filter (fun h => effs.any (fun e => match e with
    | .row _ awn r _ => awn == h.1 && r == h.2.1
    | _ => false))

/-- Rows of a context's DMA write wait at their core (R192, R194). -/
def State.writesHeld (s : State) (k : Fin 8) (x : Fin 3) : Bool :=
  allCores.any (fun c => (s.core c).held.any (fun h => h.write && h.who == 16 + 4 * k.val + x.val))

/-- What an instruction sends over the bridge waits while it retrains (R54). -/
def State.mustWait (s : State) (i : UInst) : Bool :=
  s.brgBusy && i.effs.any (fun e => match e with
    | .dev a _ _ => s.crosses a
    | .result _ _ _ _ _ => true
    | _ => false)

/-- The check blocks of an instruction's result that the lanes check (R441, R442): channel / 16, position / 16. -/
def UInst.blocks (i : UInst) : List (Nat × Nat) :=
  let dd := descOf i.dd
  if i.cells.isEmpty then []
  else (upFrom 0 ((dd.d2 + 15) / 16)).flatMap (fun o => (upFrom 0 ((dd.d0 * dd.d1 * dd.d3 + 15) / 16)).map (fun p => (o, p)))

/-- Every check block has been compared, or the lanes are off (R441, R442). -/
def State.allChecked (s : State) (k : Fin 8) (i : UInst) : Bool :=
  s.forceF (F.CK_CTRL_ENABLE k) == 0 || i.blocks.all (fun b => i.checked.contains b)

/-- An instruction can finish: its check blocks have been compared, no replay is pending (R452), and its outbound rows have left,
landed or been acknowledged (R272, R516). -/
def State.canFinish (s : State) (k : Fin 8) (x : Fin 3) (u : Nat) (i : UInst) : Bool :=
  i.started && i.replay.isNone && s.allChecked k i && s.unitReady k
    && (u != 3 || (!(s.core k).pairHeld.any (fun h => h.ctx == x.val) && !s.writesHeld k x && !s.mustWait i
      && !s.lnk.waits.any (fun w => w.who.isNone && w.core == k.val && w.ctx == x.val && w.tok == i.tok)))

/-- Notes the unit that found the exception of a token in a test slot (R496). -/
def State.testFault (s : State) (k : Fin 8) (tok uid : Nat) : State :=
  { s with flt := { s.flt with slots := s.flt.slots.map (fun q =>
      if q.core = k.val then { q with fails := (tok, uid) :: q.fails.filter (fun e => e.1 != tok) } else q) } }

/-- UNIT_INSTRUCTION_COMPLETE (R142, R145): the results of a started instruction land and its token becomes DONE or FAULT.
`par` are words that fail parity on the result bus (R438). Rows of a DMA write that wait at their core keep the token BUSY until
they are visible there (R272). Context 1 that waits at a barrier gives the core up once its last
token is done (R76, R138). -/
def execUnitInstructionComplete (k : Fin 8) (x : Fin 3) (u : Fin 5) (par : UnitHits) (s : State) : Out :=
  match (s.ctx k x).queue u.val with
  | [] => .next s
  | i :: _ =>
    if !s.canFinish k x u.val i then .next s
    else
      let hits := resultHits i.effs par.rows
      let sm := smemHits i.effs par.smem
      let uid := match opOf i.word with
        | some o => unitId k u.val o
        | none => coreUnit k 0
      let s := (List.replicate (hits.length + sm.length) ()).foldl (fun s _ => s.pathParity k uid i) s
      let s := i.effs.foldl (fun s e => s.landEff k x i (e.hit hits sm)) s
      let c := s.ctx k x
      let late := (match c.queue u.val with
        | q :: _ => q.cause
        | [] => 0)
      let cause := if i.cause ≠ 0 then i.cause else if late ≠ 0 then late else if !hits.isEmpty || !sm.isEmpty then excUnitPoison else 0
      if u = 3 ∧ s.writesHeld k x then
        .next (s.setCtx k x (c.setQueue u.val ({ i with effs := [], cause := cause } :: (c.queue u.val).drop 1)))
      else
        let s := if x = 2 ∧ cause ≠ 0 then s.testFault k i.tok uid else s
        .next ((s.setCtx k x ((c.setQueue u.val ((c.queue u.val).drop 1)).finishToken i.tok cause)).settle k)

end Sys2Proof.Machine
end

