-- ==== Sys2Proof/Machine/CoreUnits.lean ====
section
/-! DEFINITION. Commands of a core block: CORE_CTRL (R146, Table CO-5), pairing (R167), scrubbing (R184–R188), initialisation
and wake (R189–R195), WEIGHT writes (R199), inbound rows (R200) and SP_CLR. -/

namespace Sys2Proof.Machine

/-! ### CORE_CTRL -/

/-- HALTc: the context halts at its next instruction boundary. -/
def State.askHalt (s : State) (k : Fin 8) (x : Fin 3) : State :=
  if (s.ctx k x).halted then s else (s.setCtx k x { s.ctx k x with haltReq := true }).takeHalt k x

/-- RESUMEc: a halted context goes on. A program that HALT ended does not (R228), nor does one whose job does not run. -/
def State.resume (s : State) (k : Fin 8) (x : Fin 3) : State :=
  let c := s.ctx k x
  let runs := (c.job.bind s.job).elim false (fun j => j.state == .running)
  if c.halted && !c.ended && runs then
    ((s.setCtx k x { c with halted := false, haltReq := false }).setHalted k x 0).settle k
  else s

/-- A write of CORE_CTRL: its bits act in ascending order. -/
def State.coreCtrlWrite (s : State) (k : Fin 8) (m : Master) (v : Word) : State :=
  s.regWrite false m (F.CORE_CTRL_HALT0 k).off v.toNat (fun s =>
    let b (n : Nat) : Bool := bitsOf v.toNat n 1 == 1
    let s := if b 0 then s.askHalt k 0 else s
    let s := if b 1 then s.askHalt k 1 else s
    let s := if b 2 then s.resume k 0 else s
    let s := if b 3 then s.resume k 1 else s
    let s := if b 4 then s.setF (F.CORE_SAT k) 0 else s
    if b 5 then
      (((s.setF (F.CORE_PERF_CYC k) 0).setF (F.CORE_PERF_ARR k) 0).setF (F.CORE_PERF_DENSE k) 0).setF (F.CORE_PERF_STALL k) 0
    else s)

/-- CORE_HALT (R146). -/
def execCoreHalt (k : Fin 8) (x : Fin 2) (m : Master) (v : Word) (s : State) : Out :=
  .next (s.coreCtrlWrite k m (v ||| BitVec.ofNat 32 (2 ^ x.val)))

/-- CORE_RESUME (R146). -/
def execCoreResume (k : Fin 8) (x : Fin 2) (m : Master) (v : Word) (s : State) : Out :=
  .next (s.coreCtrlWrite k m (v ||| BitVec.ofNat 32 (2 ^ (2 + x.val))))

/-- CLR_SAT (R159). -/
def execClrSat (k : Fin 8) (m : Master) (v : Word) (s : State) : Out := .next (s.coreCtrlWrite k m (v ||| 16#32))

/-- CLR_PERF (R155). -/
def execClrPerf (k : Fin 8) (m : Master) (v : Word) (s : State) : Out := .next (s.coreCtrlWrite k m (v ||| 32#32))

/-! ### Pairing (R167) -/

/-- The primary and the secondary of a pair. -/
def primaryOf (p : Fin 4) : Fin 8 := coreOf (2 * p.val)
def secondaryOf (p : Fin 4) : Fin 8 := coreOf (2 * p.val + 1)

/-- A digest of the secondary arrives at the Aft fabric: it meets its row, waits for a row still to come, or finds the row gone
(R167). -/
def State.pairArrive (s : State) (p : Fin 4) (d : Nat × BitVec 64) : State :=
  let k := primaryOf p
  let c := s.core k
  match c.pairHeld.find? (fun h => h.seq == d.1) with
  | some h => s.comparePair k h d.2
  | none =>
    if mget (dflt 0) c.outSeq (d.1 % 2) ≤ d.1 / 2 then s.setCore k { c with pairDig := c.pairDig ++ [d] } else s

/-- A held row would cross a bridge that retrains, and waits (R54). -/
def State.rowWaits (s : State) (h : HeldRow) : Bool :=
  s.brgBusy && (match h.eff with
    | .dev a _ _ => s.crosses a
    | .result _ _ _ _ _ => true
    | _ => false)

/-- PAIR_DIGEST (R167): the oldest digest that the secondary has sent arrives. -/
def execPairDigest (p : Fin 4) (s : State) : Out :=
  let q := s.core (secondaryOf p)
  match q.pairDig with
  | [] => .next s
  | d :: l =>
    if (s.core (primaryOf p)).pairHeld.any (fun h => h.seq == d.1 && s.rowWaits h) then .next s
    else .next ((s.setCore (secondaryOf p) { q with pairDig := l }).pairArrive p d)

/-- PAIR_TIMEOUT (R167): the oldest held row of a primary whose digest has not come within CORE_PAIR.WINDOW goes on
poisoned. -/
def execPairTimeout (p : Fin 4) (s : State) : Out :=
  let k := primaryOf p
  match (s.core k).pairHeld with
  | [] => .next s
  | h :: _ =>
    if s.rowWaits h then .next s
    else if h.since + 100 * s.forceF (F.CORE_PAIR_WINDOW k) ≤ s.time.aft then
      .next ((s.releaseRow k h true).pairEvent k h 0x26)
    else .next s

/-! ### Scrubbing (R184–R188) -/

/-- The scrubber runs: the core is powered and no initialisation runs. -/
def State.scrubs (s : State) (k : Fin 8) : Bool := !s.off && decide (s.pstate k < 2) && !(s.core k).initing

/-- A pass starts at row 0; corrected errors per row are counted anew (R186, R188). -/
def State.startScrub (s : State) (k : Fin 8) : State :=
  (s.setCore k { s.core k with scrubbing := true, scrubDue := false, scrubPos := 0, scrubCe := [] }).setF
    (F.SP_STATUS_SCRUB_BUSY k) 1

/-- SCRUB_PASS_START (R186): every SP_SCRUB.PERIOD milliseconds; a pass still running counts LATE and the next one waits. -/
def execScrubPassStart (k : Fin 8) (s : State) : Out :=
  let c := s.core k
  let per := s.getF (F.SP_SCRUB_PERIOD k) * 1000000
  if !s.scrubs k || per == 0 || decide (s.time.aft < c.scrubAt + per) then .next s
  else
    let s := s.setCore k { c with scrubAt := s.time.aft }
    if c.scrubbing then .next ((s.setCore k { s.core k with scrubDue := true }).bump (F.SP_SCRUB_LATE k) 1)
    else .next (s.startScrub k)

/-- The words that a scrub writes back in a row: corrected words clean, uncorrectable words with the poison marker. -/
def scrubWords (m : SMap SpWord) (c r : Nat) : List (Nat × SpWord) :=
  (upFrom 0 64).filterMap (fun i =>
    let q := readWord (mget zeroWord m (r * 64 + i))
    match q.1 with
    | .corrected => some (r * 64 + i, cleanWord q.2.1)
    | .bad => some (r * 64 + i, poisonWord (Config.freeWord (c + i)))
    | _ => none)

/-- Reads a row for the scrubber and, unless another write of it came between, writes it back (R184, R185). -/
def State.scrubOne (s : State) (k : Fin 8) (r : Nat) (wrote : Bool) : State :=
  let fix := scrubWords (s.core k).sp s.free r
  let (ws, s) := s.getRow k r
  let s := if rowPoisoned ws then s.weightPoison k.val r else s
  let c := s.core k
  let c := { c with scrubQ := c.scrubQ.filter (· != r) }
  if wrote then s.setCore k c
  else (s.setCore k { c with sp := msets zeroWord c.sp fix }).drawn 64

/-- SCRUB_ROW (R184, R185, R187): the scrubber visits its next row, one queued by a corrected read ahead of the pass order. -/
def execScrubRow (k : Fin 8) (e : ScrubTurn) (s : State) : Out :=
  let c := s.core k
  if !s.scrubs k || c.waking then .next s
  else
    let s := s.bumpWrap (F.CORE_SP_CONFLICT k) e.conf
    match c.scrubQ with
    | r :: _ => .next (s.scrubOne k r e.wrote)
    | [] =>
      if !c.scrubbing then .next s
      else
        let s := s.scrubOne k c.scrubPos e.wrote
        let c := s.core k
        if c.scrubPos + 1 < 131072 then .next (s.setCore k { c with scrubPos := c.scrubPos + 1 })
        else
          let s := (s.setCore k { c with scrubbing := false }).setF (F.SP_STATUS_SCRUB_BUSY k) 0
          if c.scrubDue then .next (s.startScrub k) else .next s

/-! ### Initialisation and wake (R189–R195) -/

/-- A held access completes on the rows as they are now (R192). A requester that asks again reads them then. -/
def State.finishHeld (s : State) (k : Fin 8) (h : HeldAcc) : State :=
  if h.write then s.putRow k h.row h.ws
  else if 8 ≤ h.who then s
  else
    let (ws, s) := s.getRow k h.row
    let l := ((bytesOfRow ws).drop h.lo).take h.n
    s.emit (.answer h.who (leNat (l.map (·.1))) (l.any (·.2)))

/-- A host path's read is held: its answer has the bridge to cross. -/
def HeldAcc.hostRead (h : HeldAcc) : Bool := !h.write && decide (h.who < 8)

/-- Every held access of a core completes, once the core's initialisation and wake pass are over; a host path's read waits for a
bridge that is not up (R28, R54). Stripes whose rows EMIT had sent are now there (R73). -/
def State.releaseHeld (s : State) (k : Fin 8) : State :=
  if s.spHeld k then s
  else
    let go := (s.core k).held.filter (fun h => s.brgUp || !h.hostRead)
    let s := s.setCore k { s.core k with held := (s.core k).held.filter (fun h => !(s.brgUp || !h.hostRead)) }
    (go.foldl (fun s h => s.finishHeld k h) s).landed

/-- Held reads of the host paths complete poisoned: the bridge is down (R55). -/
def State.failHeld (s : State) (k : Fin 8) : State :=
  let go := (s.core k).held.filter (·.hostRead)
  let s := s.setCore k { s.core k with held := (s.core k).held.filter (fun h => !h.hostRead) }
  go.foldl (fun s h => (s.draw).2.emit (.answer h.who (bitsOf (s.draw).1.toNat 0 (8 * h.n)) true)) s

/-- Remaps rows that failed to free spares of their banks: spares, rows remapped, and whether a bank had none (R189, R191).
DESIGN CHOICE: a row is named once in an initialisation, so that a spare that fails its own read-back takes no second one there (log
entry 126); one that failed at an earlier initialisation takes another. -/
def remapRows : List Nat → List Nat × List Nat × Bool → List Nat × List Nat × Bool
  | [], a => a
  | r :: rs, (sp, rm, bad) =>
    let n := nth 0 sp (r % 8)
    if n = 0 then remapRows rs (sp, rm, true)
    else remapRows rs (setNth sp (r % 8) (n - 1), if rm.contains r then rm else r :: rm, bad)

/-- Copies of a package that a segment of core `k` can be copied from, nearest by ring distance first, then lower number
(R460). -/
def nearFirst (k : Nat) (l : List Nat) : List Nat :=
  let d (i : Nat) : Nat := min ((k + 8 - i) % 8) ((i + 8 - k) % 8)
  (upFrom 0 5).flatMap (fun n => (upFrom 0 8).filter (fun i => l.contains i && d i == n))

/-- The firmware begins to write `n` WEIGHT rows of a core from row `r` on (R199). -/
def State.beginWeights (s : State) (k r n : Nat) : State :=
  s.setCore (coreOf k) { s.core (coreOf k) with weightWrite := (s.core (coreOf k)).weightWrite ++ [(r, n)] }

/-! ### Adapter regions (R357, R360) -/

/-- The ledger record of a package. -/
def State.ledger (s : State) (pkg : Nat) : Option StoObj := s.sto.objs.find? (fun o => o.target == 3 && o.id == pkg)

/-- Writes rows of bytes into a core from a row on. -/
def State.putRows (k : Fin 8) (first : Nat) (l : List Byte) : Nat → State → State
  | 0, s => s
  | n + 1, s => State.putRows k (first + 1) (l.drop 512) n (s.putRow k first (rowOfBytes ((l.take 512).map (fun b => (b, false)))))

/-- The firmware writes rows of bytes into a core; they are held while its scratchpad is initialised (R192), and dropped while the
bridge is down (R28). -/
def State.fwRows (s : State) (k : Fin 8) (first n : Nat) (l : List Byte) : State :=
  if !s.brgUp then s
  else if s.spHeld k then
    (upFrom 0 n).foldl (fun s i =>
      s.holdWrite k 0 (first + i) (rowOfBytes (((l.drop (512 * i)).take 512).map (fun b => (b, false))))) s
  else State.putRows k first l n (s.waited k)

/-- Digests of segments whose rows are being written begin again: what they saw is gone (R459). -/
def State.redigest (s : State) (p : Pkg) (first n : Nat) : State :=
  let segs := (upFrom 0 p.segs).filter (fun g => decide (256 * g < first + n) && decide (first < 256 * g + 256))
  let mine (r : DigReq) : Bool := r.pkg == p.id && segs.contains r.seg
  let busy := segs.filter (fun g => s.dig.todo.any (fun r => r.pkg == p.id && r.seg == g)
    || s.dig.vals.any (fun v => v.req.pkg == p.id && v.req.seg == g))
  let s := { s with dig := { s.dig with todo := s.dig.todo.filter (fun r => !mine r), vals := s.dig.vals.filter (fun v => !mine v.req) } }
  s.addDigests ((s.pkgDigests p).filter (fun r => busy.contains r.seg))

/-- Writes export rows into the adapter region of one replica (R199). -/
def State.putAdapterOn (s : State) (p : Pkg) (k : Nat) (l : List Byte) : State :=
  ((s.redigest p p.adapt p.export_).beginWeights k (p.first + p.adapt) p.export_).fwRows (coreOf k) (p.first + p.adapt) p.export_ l

/-- The adapter regions of a core that a write did not reach are written now (R357 step 5). -/
def State.payAdapters (s : State) (k : Fin 8) : State :=
  let due := s.pkgs.filter (fun p => p.owed.contains k.val)
  let s := due.foldl (fun s p => s.putAdapterOn p k.val p.owedRows) s
  { s with pkgs := s.pkgs.map (fun q => { q with owed := q.owed.filter (· != k.val) }) }

/-- First row and rows of a segment. -/
def Pkg.segRows (p : Pkg) (g : Nat) : Nat × Nat := (p.first + 256 * g, min 256 (p.rows - 256 * g))

/-- Begins a repair or a restoration of a segment from the nearest of the copies given (R460); none to copy from: nothing. -/
def State.beginRepair (s : State) (pkg seg k : Nat) (good : List Nat) (want : Option (BitVec 64)) : State :=
  match nearFirst k good with
  | [] => s
  | src :: rest =>
    let r : DigRep := { pkg := pkg, seg := seg, core := k, src := src, good := rest, attempt := 0, want := want }
    let s := { s with dig := { s.dig with repairs := s.dig.repairs ++ [r] } }
    match s.pkgs.find? (fun p => p.id == pkg) with
    | none => s
    | some p => s.beginWeights k (p.segRows seg).1 (p.segRows seg).2

/-- The replicas on a core are restored from healthy cores (R195). -/
def State.restoreCore (s : State) (k : Fin 8) : State :=
  (s.pkgs.filter (fun p => p.cores.contains k.val)).foldl (fun s p =>
    let good := p.cores.filter (fun i => i != k.val && !s.spHeld (coreOf i) && decide (s.pstate (coreOf i) < 2))
    (upFrom 0 p.segs).foldl (fun s g => s.beginRepair p.id g k.val good none) s) s

/-- SCRATCHPAD_INIT_DONE (R189–R192): every row reads zero with valid check bits, rows that failed are remapped, and held
accesses complete. `fails` are the rows that fail the read of the second pass, beyond those whose repairs are made again (R190). -/
def execScratchpadInitDone (k : Fin 8) (fails : List Nat) (s : State) : Out :=
  if !(s.core k).initing || decide (2 ≤ s.pstate k) then .next s
  else
    let (sp, rm, bad) := remapRows (fails.filter (· < 131072)).dedup ((s.core k).spares, (s.core k).remapped, false)
    let s := s.setCore k { s.core k with
      sp := [], awn := [], spares := sp, remapped := rm, initing := false, scrubQ := [], scrubCe := [] }
    let s := s.setF (F.SP_STATUS_SPARE k) (sp.foldl min 32)
    let s := (s.setF (F.SP_STATUS_INIT_DONE k) 1).setF (F.SP_STATUS_INIT_FAIL k) (if bad then 1 else 0)
    let r := { mkRec s.time.aft (coreUnit k 7) 0x12 with core := some k.val }
    let s := if bad then s.reportAft r else s
    -- Table DX-2: scratchpad initialised
    .next ((((s.staleOnCore k).releaseHeld k).payAdapters k).restoreCore k)

/-- The requester of a held read that asks again has waited 5 ms: what it asks for completes poisoned (R192). -/
def State.setLate (s : State) (h : HeldAcc) : State :=
  if 16 ≤ h.who ∧ h.who < 48 then
    let p : Fin 2 := ⟨(h.who / 16 - 1) % 2, Nat.mod_lt _ (by decide)⟩
    s.setPort p { s.port p with late := h.who % 16 :: (s.port p).late }
  else if h.who = 10 then { s with brg := { s.brg with f2a := { s.brg.f2a with late := true } } }
  else if h.who = 11 then { s with brg := { s.brg with a2f := { s.brg.a2f with late := true } } }
  else
    let k := coreOf ((h.who - 64) / 4)
    let x : Fin 3 := ⟨h.who % 4 % 3, Nat.mod_lt _ (by decide)⟩
    let c := s.ctx k x
    match c.queue 3 with
    | i :: l => if !i.started && i.pc == h.lo && i.tok == h.n then s.setCtx k x (c.setQueue 3 ({ i with late := true } :: l)) else s
    | [] => s

/-- HELD_ACCESS_TIMEOUT (R192): the oldest access held for 5 ms completes poisoned: a read carries the flag. DESIGN CHOICE: a write
is dropped, and the token of a DMA write ends FAULT with UNIT_POISON (log entry 105). -/
def execHeldAccessTimeout (k : Fin 8) (s : State) : Out :=
  let c := s.core k
  match c.held with
  | [] => .next s
  | h :: l =>
    if h.since + 5000000 ≤ s.time.now then
      let s := s.setCore k { c with held := l }
      if h.write then
        let s := if 16 ≤ h.who then
            s.transCause (coreOf ((h.who - 16) / 4)) ⟨h.who % 4 % 3, Nat.mod_lt _ (by decide)⟩ excUnitPoison else s
        .next s.landed
      else if 8 ≤ h.who then .next (s.setLate h)
      else
        let v := bitsOf (s.draw).1.toNat 0 (8 * h.n)
        .next ((s.draw).2.emit (.answer h.who v true))
    else .next s

/-- WAKE_PASS_DONE (R194): the scrubber has read every row once, and the contexts may issue. Rows that hold nothing but zeros
need no visit. -/
def execWakePassDone (k : Fin 8) (s : State) : Out :=
  let c := s.core k
  if !c.waking || c.initing then .next s
  else
    let rows := (c.sp.map (fun e => e.1 / 64)).dedup
    let s := rows.foldl (fun s r => s.scrubOne k r false) s
    let s := (s.setCore k { s.core k with waking := false }).setF (F.SP_STATUS_SCRUB_BUSY k) (if c.scrubbing then 1 else 0)
    .next ((s.releaseHeld k).payAdapters k)

/-! ### WEIGHT writes and inbound rows -/

/-- Nothing writes WEIGHT rows of a core any more: no repair, and no row that is held there (R192). -/
def State.weightsDone (s : State) (k : Nat) : Bool :=
  let c := s.core (coreOf k)
  !s.dig.repairs.any (fun r => r.core == k)
    && !c.held.any (fun h => h.write && c.weightWrite.any (fun w => decide (w.1 ≤ h.row) && decide (h.row < w.1 + w.2)))

/-- WEIGHT_WRITE_END (R199): the writes of a core's WEIGHT rows end, and every job that nothing holds any more goes on. -/
def execWeightWriteEnd (k : Fin 8) (s : State) : Out :=
  if (s.core k).weightWrite.isEmpty || !s.weightsDone k.val then .next s
  else
    let s := s.setCore k { s.core k with weightWrite := [] }
    .next (s.forCores (fun i s => (s.setCore i { s.core i with
      ctx := (s.core i).ctx.map (fun x => { x with held := x.held && s.weightHold x }) }).settle i))

/-- What a row that arrives at a core reads as, word by word from word `i` on: Table SP-2 is applied to each (R440). -/
def State.arrived (k : Fin 8) (r i : Nat) : List (BitVec 64 × BitVec 8) → State → Row × State
  | [], s => ([], s)
  | w :: ws, s =>
    let q := readWord ⟨w.1, w.2⟩
    let (l, s) := State.arrived k r (i + 1) ws (s.noteWord k r i q)
    ((q.2.1, q.1.isPoison) :: l, s)

/-- INBOUND_ROW_WRITE (R198, R200, R440): a row arrives at a core for a job (0x000 for firmware and host traffic). It lands
whole, is held while the rows are initialised, or is refused. -/
def execInboundRowWrite (k : Fin 8) (job r : Nat) (e : RowArrival) (s : State) : Out :=
  let rec_ (cls : Nat) : FRec :=
    { mkRec s.time.aft (coreUnit k 7) cls with job := job, addr := spLoc k (r % 131072), akind := 2 }
  if s.off || decide (2 ≤ s.pstate k) then .next s
  else if e.ws.length ≠ 64 then .next (s.reportAft (rec_ 0x02))
  else if 131072 ≤ r ∨ !s.rowAllowed job k.val r true then .next (s.reportAft (rec_ 0x03))
  else
    let (row, s) := State.arrived k r 0 e.ws (s.bumpWrap (F.CORE_SP_CONFLICT k) e.conf)
    if s.spHeld k then .next (s.holdWrite k 0 r row) else .next (s.putRow k r row)

/-- A write of SP_CLR (Table SP-5). -/
def State.spClrWrite (s : State) (k : Fin 8) (m : Master) (v : Word) : State :=
  s.regWrite false m (F.SP_CLR_CLR k).off v.toNat (fun s =>
    if v.toNat % 2 = 1 then
      (((s.setF (F.CORE_SP_CE k) 0).setF (F.CORE_SP_UE k) 0).setF (F.CORE_SP_CONFLICT k) 0).setF (F.SP_SCRUB_LATE k) 0
    else s)

/-- SP_CLR (R178). -/
def execSpClr (k : Fin 8) (m : Master) (v : Word) (s : State) : Out := .next (s.spClrWrite k m (v ||| 1#32))

end Sys2Proof.Machine
end

