-- ==== Sys2Proof/Machine/Checks.lean ====
section
/-! DEFINITION. Checksums in the array and replay (R441–R452, Table SE-2), the digest engine and the firmware's judgement of
weight replicas (R456–R462). -/

namespace Sys2Proof.Machine

/-! ### Check blocks (R441–R446) -/

/-- The instruction has integer check lines: integer operands and no group rescale (R443, R444). -/
def UInst.intPath (i : UInst) : Bool :=
  etInt (descOf i.da).etype && (etInt (descOf i.db).etype || opOf i.word == some .wino)
    && !((opOf i.word == some .conv || opOf i.word == some .mmul) && bitsOf (fAux i.word) 9 1 == 1)

/-- τ of R444. -/
def UInst.tau (i : UInst) : FV := if i.ck % 4 = 2 then fp16.decode (i.ck / 4 % 65536) else .fin false 1 (-12)

/-- The address field of a mismatch (R446). -/
def mismatchAddr (o p : Nat) (bad : List (Bool × Nat)) : Nat :=
  match bad.filter (·.1), bad.filter (fun l => !l.1) with
  | [r], [c] => (16 * o + r.2) % 65536 + (16 * p + c.2) % 65536 * 65536
  | _, _ => 0xFFFFFFFF

/-- Row, word, and bit of a cell of a check block, if the block has it. -/
def cellAt (dd : Desc) (o p : Nat) (oo pp : Nat) : Option (Nat × Nat) :=
  let c := 16 * o + oo
  let n := 16 * p + pp
  if 16 ≤ oo ∨ 16 ≤ pp ∨ dd.d2 ≤ c ∨ dd.d0 * dd.d1 * dd.d3 ≤ n then none
  else
    let (x, y, z) := dd.posOf n
    let (j, b) := dd.place x c
    some (dd.rowAt y z + j + b / 4096, b % 4096)

/-- Changes the words of a row in a list of effects. -/
def patchRow (awn : Bool) (r : Nat) (f : Row → Row) (l : List UEff) : List UEff :=
  l.map (fun e => match e with
    | .row c a q ws => if a = awn ∧ q = r then .row c a q (f ws) else .row c a q ws
    | e => e)

/-- Puts wrong cells into the result of a check block. -/
def patchCells (dd : Desc) (o p : Nat) (errs : List CellErr) (l : List UEff) : List UEff :=
  errs.foldl (fun l e =>
    match cellAt dd o p e.o e.p with
    | none => l
    | some (r, b) =>
      patchRow dd.space r (fun ws =>
        let w : BitVec 64 × Bool := nth (0, false) ws (b / 64)
        let v := w.1.toNat
        let old := bitsOf v (b % 64) dd.bits
        setNth ws (b / 64) (BitVec.ofNat 64 (v - old * 2 ^ (b % 64) + e.code % 2 ^ dd.bits * 2 ^ (b % 64)), w.2)) l) l

/-- The cells of a check block. -/
def blockCells (dd : Desc) (o p : Nat) : List (Nat × Nat) :=
  (upFrom 0 16).flatMap (fun oo => (upFrom 0 16).filterMap (fun pp => cellAt dd o p oo pp))

/-! ### Check lines (R441, R443–R445) -/

/-- The code of a cell of a check block in a list of effects. -/
def codeAt (dd : Desc) (o p oo pp : Nat) (l : List UEff) : Option Nat :=
  match cellAt dd o p oo pp with
  | none => none
  | some (r, b) => l.findSome? (fun e => match e with
      | .row _ a q ws => if a = dd.space ∧ q = r then some (bitsOf (nth (0#64, false) ws (b / 64)).1.toNat (b % 64) dd.bits) else none
      | _ => none)

/-- What the lanes were given of a cell: its exact sum and the sum of absolute values. -/
def UInst.cellSum (i : UInst) (o p oo pp : Nat) : FV × FV :=
  let dd := descOf i.dd
  nth (fvInt 0, fvInt 0) i.cells ((16 * o + oo) * (dd.d0 * dd.d1 * dd.d3) + (16 * p + pp))

/-- What a cell of the array holds: its code; on WINO its tile's products, off by what an error of them made of the code (R445). -/
def UInst.cellHeld (i : UInst) (o p : Nat) (errs : List CellErr) (oo pp : Nat) : FV :=
  let dd := descOf i.dd
  if opOf i.word = some .wino then
    match errs.find? (fun e => e.o == oo && e.p == pp && !e.late), codeAt dd o p oo pp i.effs with
    | some e, some c =>
      fvAdd (i.cellSum o p oo pp).1 (fvMul (fvInt 4) (fvAdd (etDecode dd.etype (e.code % 2 ^ dd.bits)) (etDecode dd.etype c).minus))
    | _, _ => (i.cellSum o p oo pp).1
  else etDecode dd.etype ((codeAt dd o p oo pp (patchCells dd o p errs i.effs)).getD 0)

/-- The cells of a check line that the result has, as channel and position in the block. -/
def lineCells (dd : Desc) (o p : Nat) (l : Bool × Nat) : List (Nat × Nat) :=
  ((upFrom 0 16).map (fun n => if l.1 then (l.2, n) else (n, l.2))).filter (fun c => (cellAt dd o p c.1 c.2).isSome)

/-- A check line mismatches: on integer paths in 48 bits (R443), on float paths by more than τ × M (R444). -/
def UInst.badLine (i : UInst) (o p : Nat) (lines : List LineSum) (errs : List CellErr) (l : Bool × Nat) : Bool :=
  let cs := lineCells (descOf i.dd) o p l
  let held := (cs.map (fun c => i.cellHeld o p errs c.1 c.2)).foldl fvAdd (fvInt 0)
  let sums := cs.map (fun c => i.cellSum o p c.1 c.2)
  let exact := (sums.map (·.1)).foldl fvAdd (fvInt 0)
  let own := lines.find? (fun e => e.row == l.1 && e.i.val == l.2)
  if i.intPath then
    (fvToInt held - fvToInt exact - (own.map (fun e => e.d.toInt)).getD 0) % 2 ^ 48 != 0
  else
    let lane := (own.map (fun e => fpVal (e.d.toNat % 2 ^ 32))).getD exact
    (fvMul i.tau ((sums.map (·.2)).foldl fvAdd (fvInt 0))).lt (fvAdd held lane.minus).abs

/-- The check lines of a block that mismatch: row lines, then column lines. -/
def UInst.badLines (i : UInst) (o p : Nat) (lines : List LineSum) (errs : List CellErr) : List (Bool × Nat) :=
  ((upFrom 0 16).map (fun n => (true, n)) ++ (upFrom 0 16).map (fun n => (false, n))).filter (fun l =>
    !(lineCells (descOf i.dd) o p l).isEmpty && i.badLine o p lines errs l)

/-- Poisons the destination words of a check block (R451), or every word of its destination rows (Table SE-2). -/
def poisonBlock (dd : Desc) (o p : Nat) (whole : Bool) (l : List UEff) : List UEff :=
  (blockCells dd o p).foldl (fun l e =>
    patchRow dd.space e.1 (fun ws =>
      if whole then ws.map (fun w => (w.1, true))
      else
        let w : BitVec 64 × Bool := nth (0, false) ws (e.2 / 64)
        setNth ws (e.2 / 64) (w.1, true)) l) l

/-- Replaces the front instruction of the array queue. -/
def State.setArray (s : State) (k : Fin 8) (x : Fin 3) (i : UInst) : State :=
  let c := s.ctx k x
  s.setCtx k x (c.setQueue 0 (i :: (c.queue 0).drop 1))

/-- A check record of a core: unit 1 array or 6 check (R448). -/
def ckRec (t k u cls : Nat) (i : UInst) (addr : Nat) (poison : Bool) : FRec :=
  { mkRec t (coreUnit k u) cls with
    job := i.job, poison := poison, opc := i.pc, addr := addr, akind := 3, core := some k }

/-- CHECK_BLOCK_DONE (R441–R447, R451): the check block at channel 16·o and position 16·p of the array instruction in progress
ends. `errs` are its cells that came out wrong and `lines` the check lines whose lanes formed another sum than the exact one. -/
def execCheckBlockDone (k : Fin 8) (x : Fin 3) (o p : Nat) (lines : List LineSum) (errs : List CellErr)
    (s : State) : Out :=
  match (s.ctx k x).queue 0 with
  | [] => .next s
  | i :: _ =>
    let dd := descOf i.dd
    let there := !(blockCells dd o p).isEmpty && !i.checked.contains (o, p)
    if !i.started || i.replay.isSome || !there then .next s
    else
      let i := { i with checked := (o, p) :: i.checked }
      let bad := i.badLines o p lines errs
      let asIs := { i with effs := patchCells dd o p errs i.effs }
      if i.cells.isEmpty ∨ s.forceF (F.CK_CTRL_ENABLE k) = 0 then .next (s.setArray k x asIs)
      else if i.intPath ∧ i.satB.contains (o, p) then .next ((s.setArray k x asIs).bump (F.CK_SKIP k) 1)
      else if bad.isEmpty then .next (s.setArray k x asIs)
      else
        let addr := mismatchAddr o p bad
        let s := s.setF (F.CK_LAST_ADDR k) addr
        if s.forceF (F.CK_CTRL_REPLAY_MAX k) ≤ (s.ctx k x).replays then
          let s := s.setArray k x { i with effs := poisonBlock dd o p false i.effs }
          let s := s.setF (F.CK_STATUS_STORM k) 1
          .next (s.reportAft (ckRec s.time.aft k 1 0x24 i addr true))
        else
          let s := s.setArray k x { i with replay := some { o := o, p := p, errs := errs, addr := addr } }
          .next (s.setCtx k x { s.ctx k x with replays := (s.ctx k x).replays + 1 })

/-- REPLAY_DONE (R448, R449, Table SE-2): the replay of the check block ends. `errs` are its wrong cells and `lines` the check
lines whose lanes formed another sum than the exact one. -/
def execReplayDone (k : Fin 8) (x : Fin 3) (lines : List LineSum) (errs : List CellErr) (s : State) : Out :=
  match (s.ctx k x).queue 0 with
  | [] => .next s
  | i :: _ =>
    match i.replay with
    | none => .next s
    | some r =>
      let dd := descOf i.dd
      let orig := patchCells dd r.o r.p r.errs i.effs
      let rep := patchCells dd r.o r.p errs i.effs
      let bad := !(i.badLines r.o r.p lines errs).isEmpty
      let i := { i with replay := none }
      let rec_ (u cls : Nat) (p : Bool) : FRec := ckRec s.time.aft k u cls i r.addr p
      if orig = rep then
        let s := (s.setArray k x { i with effs := orig }).bump (F.CK_CHECKER k) 1
        if bad then
          .next (((s.setF (F.CK_STATUS_CHECKER_SUSPECT k) 1).reportAft (rec_ 6 0x20 false)).suspect k i.job i.ord)
        else .next (s.reportAft (rec_ 6 0x21 false))
      else if bad then
        let i := { i with effs := poisonBlock dd r.o r.p true i.effs, cause := if i.cause = 0 then excUnitPoison else i.cause }
        .next ((((s.setArray k x i).bump (F.CK_PERSISTENT k) 1).reportAft (rec_ 1 0x23 true)).suspect k i.job i.ord)
      else
        .next ((((s.setArray k x { i with effs := rep }).bump (F.CK_TRANSIENT k) 1).reportAft (rec_ 1 0x22 false)).suspect
          k i.job i.ord)

/-- A write of CK_CTRL (Table SE-5); CLR clears the registers at +0x208 to +0x224. -/
def State.ckCtrlWrite (s : State) (k : Fin 8) (m : Master) (v : Word) : State :=
  let off := (F.CK_CTRL_CLR k).off
  s.regWrite false m off v.toNat (fun s =>
    if bitsOf v.toNat 9 1 = 1 then (upFrom 0 8).foldl (fun s n => s.setReg (off + 8 + 4 * n) 0#32) s else s)

/-- CK_CLR (R441). -/
def execCkClr (k : Fin 8) (m : Master) (v : Word) (s : State) : Out := .next (s.ckCtrlWrite k m (v ||| 0x200#32))

/-! ### Digests (R456) -/

/-- Reads a list of rows of a core. -/
def State.copyRows (s : State) (k : Fin 8) : List Nat → List Row × State
  | [] => ([], s)
  | r :: l =>
    let (ws, s) := s.getRow k r
    let (rest, s) := State.copyRows s k l
    (ws :: rest, s)

/-- The digest of a run of rows, read as CHK: value, poison seen. Words that fail path parity as they are read are poison to it
(R438). -/
def State.digestRows (s : State) (k : Fin 8) (first n : Nat) (par : List (Nat × Nat) := []) : BitVec 64 × Bool × State :=
  let rows := upFrom first (min n (131072 - first))
  let m := s.peek k []
  let bytes := rows.flatMap (fun r => rowBytes ((upFrom 0 64).map (fun i => m false r i)))
  let hits := par.filter (fun h => rows.contains h.1)
  let (l, s) := s.copyRows k rows
  let s := hits.foldl (fun s h => (s.bump (F.CK_PARITY k) 1).reportAft { mkRec s.time.aft (coreUnit k 6) 0x14 with
    poison := true, addr := spLoc k h.1, akind := 2, word := h.2 % 64, core := some k.val }) s
  (BitVec.ofNat 64 (crc64 bytes), l.any rowPoisoned || !hits.isEmpty, s)

/-- A write of DIG_GO (Table SE-5): only the firmware writes it, and GO is dropped while BUSY. -/
def State.digGoWrite (s : State) (k : Fin 8) (m : Master) (v : Word) : State :=
  if m ≠ .lcp then s.notMine m (F.DIG_GO_GO k).off
  else
    s.regWrite true m (F.DIG_GO_GO k).off v.toNat (fun s =>
      let c := s.core k
      if v.toNat % 2 = 1 ∧ !c.digBusy then
        (s.setCore k { c with digBusy := true, digRow := s.getF (F.DIG_ROW_FIRST k),
                              digCnt := s.getF (F.DIG_CNT_COUNT k) }).setF (F.DIG_GO_BUSY k) 1
      else s)

/-- DIG_GO (R456). -/
def execDigGo (k : Fin 8) (m : Master) (v : Word) (s : State) : Out := .next (s.digGoWrite k m (v ||| 1#32))

/-- The digest registers show a result. -/
def State.digShow (s : State) (k : Fin 8) (v : BitVec 64) (p : Bool) : State :=
  let s := s.setCore k { s.core k with digBusy := false, digHi := BitVec.ofNat 32 (v.toNat / 2 ^ 32) }
  let s := (s.setF (F.DIG_RES_LO k) (v.toNat % 2 ^ 32)).setF (F.DIG_GO_BUSY k) 0
  s.setF (F.DIG_GO_POISON k) (if p then 1 else 0)

/-! ### Judgement (R458–R461) -/

/-- Value held by more than half of the copies, by clean copies (R458). -/
def majority (l : List DigVal) : Option (BitVec 64) :=
  ((l.filter (fun v => !v.poison)).find? (fun v =>
    decide (l.length < 2 * ((l.filter (fun w => !w.poison && w.val == v.val)).length)))).map (·.val)

/-- Digest values of a segment of a package and round. -/
def DigSt.of (d : DigSt) (pkg seg round : Nat) : List DigVal :=
  d.vals.filter (fun v => v.req.pkg == pkg && v.req.seg == seg && v.req.round == round)

/-- Forgets the digests of a segment. -/
def State.forget (s : State) (pkg seg : Nat) : State :=
  { s with dig := { s.dig with vals := s.dig.vals.filter (fun v => !(v.req.pkg == pkg && v.req.seg == seg)) } }

/-- Every job that names a package is halted with WEIGHT_DIVERGE (R458, R461). -/
def State.diverge (s : State) (pkg : Nat) : State :=
  let s := s.bump F.DIG_DIVERGE 1
  (s.jobs.filter (fun j => j.models.any (fun m => m.pkg == pkg))).foldl (fun s j =>
    s.report { mkRec s.time.now 0x02 0x2A with job := j.id, kill := true }) s

/-- Blames the digest engine of a core (R459, R461). DESIGN CHOICE: a record that names two cores names the second by its unit in OPC
(log entry 127). -/
def State.blame (s : State) (p : Pkg) (g k : Nat) (also : Option Nat) : State :=
  let r := { mkRec s.time.aft (coreUnit k 6) 0x27 with
    addr := spLoc k (p.segRows g).1, akind := 2, core := some k, also := also, opc := also.elim 0 (coreUnit · 6) }
  let s := (s.bump F.DIG_BLAMES 1).report r
  if also.isNone then s.setF (F.CK_STATUS_DIGEST_SUSPECT k) 1 else s

/-- Judges a segment whose digests asked for are all made (R458–R461). -/
def State.judge (s : State) (p : Pkg) (g : Nat) : State :=
  let second := s.dig.of p.id g 2
  let base := if second.isEmpty then s.dig.of p.id g 1 else second
  let again (l : List DigVal) (n : Nat) (s : State) : State :=
    s.addDigests (l.map (fun v => { v.req with round := n }))
  match base with
  | [] => s
  | [_] => (s.bump F.DIG_SINGLE 1).forget p.id g
  | _ =>
    match majority base with
    | none => if second.isEmpty then again base 2 s else (s.diverge p.id).forget p.id g
    | some d =>
      if base.length = 2 then
        -- R461: after a disagreement that is gone, one DIGEST_FAULT record charges both cores
        if second.isEmpty then s.forget p.id g
        else
          let ks := base.map (fun v => v.req.core)
          (s.blame p g (nth 0 ks 0) (ks[1]?)).forget p.id g
      else
        let bad := base.filter (fun v => v.poison || v.val != d)
        let good := (base.filter (fun v => !v.poison && v.val == d)).map (fun v => v.req.core)
        let third := s.dig.of p.id g 3
        let todo := bad.filter (fun v => !v.poison && !third.any (fun w => w.req.core == v.req.core))
        if !todo.isEmpty then again todo 3 s
        else
          let s := (bad.filter (fun v => third.any (fun w => w.req.core == v.req.core && w.val != v.val))).foldl
            (fun s v => s.blame p g v.req.core none) s
          (bad.foldl (fun s v => s.beginRepair p.id g v.req.core good (some d)) s).forget p.id g

/-- Judges a segment once no digest of it is to come. -/
def State.judgeWhenDone (s : State) (pkg seg : Nat) : State :=
  if s.dig.todo.any (fun r => r.pkg == pkg && r.seg == seg) then s
  else
    match s.pkgs.find? (fun p => p.id == pkg) with
    | none => s.forget pkg seg
    | some p => (s.judge p seg).settlePkg pkg

/-- DIGEST_DONE (R456–R461): the digest that DIG_GO started on a core ends, or else the next one that the firmware makes there; the
firmware's waits while the bridge is not up (R28). `e` is what the digest engine misreads. A core that sleeps or is in quarantine is
left out, and a package that is being written waits (R457). -/
def execDigestDone (k : Fin 8) (e : DigRead) (s : State) : Out :=
  let s0 := s
  let c := s.core k
  let awake := !s.off && decide (s.pstate k < 2)
  if s.spHeld k then .next s
  else if c.digBusy then
    if !awake then .next s
    else
      let (v, p, s) := s.digestRows k c.digRow c.digCnt e.par
      .next (s.digShow k (v ^^^ e.err) p)
  else if !s.brgUp then .next s
  else
    match s.dig.todo.find? (fun r => r.core == k.val) with
    | none => .next s
    | some r =>
      let s := { s with dig := { s.dig with todo := s.dig.todo.filter (fun q => q != r) } }
      match s.pkgs.find? (fun p => p.id == r.pkg) with
      | none => .next (s.judgeWhenDone r.pkg r.seg)
      | some p =>
        if s.pkgWriting p then .next s0
        else if !awake || s.flag (F.CORE_STATUS_QUAR k) then .next (s.judgeWhenDone r.pkg r.seg)
        else
          let (first, n) := p.segRows r.seg
          let s := (s.setF (F.DIG_ROW_FIRST k) first).setF (F.DIG_CNT_COUNT k) n
          let (v, q, s) := s.digestRows k first n e.par
          let s := s.digShow k (v ^^^ e.err) q
          let d : DigVal := { req := r, val := v ^^^ e.err, poison := q }
          let old := s.dig.vals.filter (fun w => w.req != r)
          let s := { s with dig := { s.dig with vals := old ++ [d] } }
          .next (s.judgeWhenDone r.pkg r.seg)

/-! ### Repair (R460) -/

/-- A range that is repaired taints no job any more, but one whose poison is on its way to the fault manager (R472). -/
def State.untaint (s : State) (pkg : Nat) : State :=
  let told (id : Nat) : Bool := (s.flt.fore ++ s.flt.aft).any (fun r => r.cls == 0x50 && r.job == id)
  { s with flt := { s.flt with taints := s.flt.taints.filter (fun e => e.2 != pkg || told e.1) } }

/-- Removes a repair; a restoration that ends makes the digests of the package (R457). -/
def State.endRepair (s : State) (r : DigRep) : State :=
  let s := ({ s with dig := { s.dig with repairs := s.dig.repairs.filter (fun q => q != r) } }).untaint r.pkg
  if r.want.isNone && !s.dig.repairs.any (fun q => q.pkg == r.pkg && q.core == r.core) then
    match s.pkgs.find? (fun p => p.id == r.pkg) with
    | some p => s.addDigests (s.pkgDigests p)
    | none => s
  else s.settlePkg r.pkg

/-- A repair tries again from its next copy, or fails (R460). -/
def State.nextCopy (s : State) (p : Pkg) (r : DigRep) (attempt : Nat) : State :=
  match r.good with
  | src :: rest =>
    if attempt < 2 then
      let r' := { r with src := src, good := rest, attempt := attempt }
      { s with dig := { s.dig with repairs := s.dig.repairs.map (fun q => if q = r then r' else q) } }
    else
      (s.report { mkRec s.time.now 0x02 0x29 with
        addr := spLoc r.core (p.segRows r.seg).1, akind := 2, core := some r.core }).endRepair r
  | [] =>
    (s.report { mkRec s.time.now 0x02 0x29 with
      addr := spLoc r.core (p.segRows r.seg).1, akind := 2, core := some r.core }).endRepair r

/-- REPAIR_COPY_DONE (R460): the oldest repair copy into a core ends. A poisoned or sleeping source abandons it for another copy; the
repaired copy is digested (`e` is what the digest engine misreads) and accepted, retried once, or given up with REPAIR_FAIL. It waits
while the bridge is not up (R28) and while the rows of either core are held (R192, R194). -/
def execRepairCopyDone (k : Fin 8) (e : DigRead) (s : State) : Out :=
  match s.dig.repairs.find? (fun r => r.core == k.val) with
  | none => .next s
  | some r =>
    match s.pkgs.find? (fun p => p.id == r.pkg) with
    | none => .next (s.endRepair r)
    | some p =>
      if s.spHeld k || decide (2 ≤ s.pstate k) || !s.brgUp || s.spHeld (coreOf r.src) then .next s
      else if 2 ≤ s.pstate (coreOf r.src) then .next (s.nextCopy p r r.attempt)
      else
        let (first, n) := p.segRows r.seg
        let rows := upFrom first n
        let (l, s) := s.copyRows (coreOf r.src) rows
        if l.any rowPoisoned then .next (s.nextCopy p r r.attempt)
        else
          let s := (rows.zip l).foldl (fun s e => s.putRow k e.1 e.2) s
          match r.want with
          | none => .next (s.endRepair r)
          | some d =>
            let (v, q, s) := s.digestRows k first n e.par
            if v ^^^ e.err = d ∧ !q then
              let s := s.bump F.DIG_REPAIRS 1
              .next ((s.report { mkRec s.time.now 0x02 0x28 with addr := spLoc k first, akind := 2 }).endRepair r)
            else .next (s.nextCopy p r (r.attempt + 1))

/-! ### Sweeps (R457) -/

/-- DIGEST_SWEEP (R457): a sweep falls due every DIG_CTRL.PERIOD milliseconds. -/
def execDigestSweep (s : State) : Out :=
  let per := s.getF F.DIG_CTRL_PERIOD * 1000000
  if per = 0 ∨ s.time.now < s.dig.lastSweep + per then .next s
  else
    let s := { s with dig := { s.dig with lastSweep := s.time.now } }
    .next s.startSweep

/-- A write of DIG_CTRL (Table SE-6). -/
def State.digCtrlWrite (s : State) (m : Master) (v : Word) : State :=
  s.regWrite false m F.DIG_CTRL_SWEEP_NOW.off v.toNat (fun s =>
    if bitsOf v.toNat 16 1 = 1 then s.startSweep else s)

/-- SWEEP_NOW (R457). -/
def execSweepNow (m : Master) (v : Word) (s : State) : Out := .next (s.digCtrlWrite m (v ||| 0x10000#32))

end Sys2Proof.Machine
end

