-- ==== Sys2Proof/Machine/Dispatcher.lean ====
section
/-! DEFINITION. The stripe dispatcher's own commands (rows 17–19, 25, 174–176): stripe starts (R225, R332), aborts (R79, R80,
R227), bands that complete (R73), session steps (R350–R353), and the stripe and delta registers (Table ST-4, Table DX-4). -/

namespace Sys2Proof.Machine

/-! ### Stripe start -/

/-- A band waits to start on a core: it is not over, and it has neither started nor finished there. -/
def StripeRec.waits (r : StripeRec) (k : Nat) : Bool := !r.over && !r.started.any (fun e => e.1 == k)

/-- The first band of a job that a core has neither finished nor skipped (R78), among the frames whose tile map gives it work
(R67): frame, band. None while a band that started there has not finished. -/
def Job.nextBand (j : Job) (k : Fin 8) : Option (JFrame × StripeRec) :=
  let l := (j.frames.filter (fun x => (j.coresIn x).contains k)).flatMap (fun x =>
    (x.bands.filter (fun r => !r.over && !r.finished.contains k.val)).map (fun r => (x, r)))
  match l with
  | [] => none
  | e :: _ => if e.2.ready.isSome && e.2.waits k.val then some e else none

/-- Every package of a job has been digested since it was loaded (R457). -/
def State.modelsOk (s : State) (j : Job) : Bool :=
  j.models.all (fun m => s.pkgs.all (fun p => p.id != m.pkg || p.judged))

/-- A job may start its next stripe on a core now, but for the precedence of in-line jobs (R78, R225, R227, R228, R485,
R457). -/
def State.canStart (s : State) (j : Job) (k : Fin 8) : Bool :=
  let c := s.ctx k j.ctxNo
  !s.off && j.state == .running && c.job == some j.id && !c.running && !c.halted && !c.ended && c.crWait.isNone
    && c.greqs.all (fun g => !g.send || g.got == 0) && decide (s.pstate k ≤ 1) && !(s.core k).initing && !(s.core k).waking && !s.flag (F.CORE_STATUS_QUAR k)
    && !(s.core k).quarPending && (s.slotOn k).isNone && c.queues.all (fun q => q.isEmpty) && (j.nextBand k).isSome
    && s.modelsOk j

/-- The mode of a stripe on a core (R332, R333, Table DX-1). -/
def Job.mode (j : Job) (x : JFrame) (k core : Nat) : Nat :=
  let pr := bitsOf j.dxForce 1 8
  if j.dxForce % 2 = 0 then 3
  else if mget (dflt false) j.stale (staleKey x.ctx k core) then 2
  else if pr ≠ 0 ∧ k % pr = x.src % pr then 1 else 0

/-- Counts a stripe in the counter of the mode of highest precedence among those its cores were given (R345); that of a stripe
aborted before it started on any is the one they would have been given. -/
def Job.countMode (j : Job) (x : JFrame) (r : StripeRec) : Job :=
  let k := r.k
  let m := if r.started.isEmpty then ((j.coresIn x).map (fun c => j.mode x k c.val)).foldl max 0 else r.topMode
  (j.modBand x.no k (fun r => { r with counted := true })).countIn m

/-- Counts a stripe once no core that has not ended its program is still to start it, or at its end (R345). -/
def State.countStripe (s : State) (id no k : Nat) (atEnd : Bool) : State :=
  s.modJob id (fun j =>
    match (j.frameNo no).bind (fun x => (x.band k).map (fun r => (x, r))) with
    | none => j
    | some (x, r) =>
      let all := (j.coresIn x).all (fun c => r.started.any (fun e => e.1 == c.val) || (s.ctx c j.ctxNo).ended || s.leftOut j c)
      if !r.counted && (atEnd || all) then j.countMode x r else j)

/-- The band before a band of a job was aborted (R80). -/
def Job.afterAbort (j : Job) (no k : Nat) : Bool :=
  if k ≠ 0 then ((j.frameNo no).bind (fun x => x.band (k - 1))).elim false (fun r => r.aborted)
  else (j.frames.filter (fun x => x.no + 1 == no)).any (fun x => x.bands.getLast?.elim false (fun r => r.aborted))

/-- The flags of a frame as they stand (R125): those of the open frame of an in-line context. -/
def State.flagsOf (s : State) (j : Job) (x : JFrame) : Nat :=
  match (s.inCtx (coreOf x.ctx)).cur with
  | some f => if j.inline ∧ f.fs = x.fs then f.flags else x.flags
  | none => x.flags

/-- Drops and counts the guyline rows of earlier stripes of a context (CORE_GDROP). -/
def State.dropRows (s : State) (k : Fin 8) (x : Fin 3) : State :=
  let c := s.core k
  let o := (s.ctx k x).ord
  let old (g : GRow) : Bool := g.ctx == x.val && decide (g.stripe < o)
  (s.setCore k { c with ring := c.ring.filter (fun g => !old g) }).bump (F.CORE_GDROP k) (c.ring.filter old).length

/-- MODE and SCENE of CORE_DXc at a stripe start (Table DX-5). -/
def State.setMode (s : State) (k : Fin 8) (x : Fin 3) (m : Nat) : State :=
  if x = 0 then (s.setF (F.CORE_DX0_MODE k) m).setF (F.CORE_DX0_SCENE k) 0
  else (s.setF (F.CORE_DX1_MODE k) m).setF (F.CORE_DX1_SCENE k) 0

/-- A context at a stripe start (R225): PC at ENTRY, handler flag clear, tokens FREE, barrier count zero, and the values
INFO reports; S, P and D keep their values. -/
def Ctx.startStripe (c : Ctx) (entry stripe frame dk now : Nat) (aborted flags : Bool) (tiles : List Nat) (n : Nat) : Ctx :=
  { c with tiles := tiles, nStr := n, pc := entry, handler := false, tok := Vector.replicate 16 ⟨.free, 0⟩, bars := 0, atBar := false, held := false, stalled := none,
           stallG := none, crWait := none, running := true, stripe := stripe, frame := frame, prevAborted := aborted,
           frameFlags := flags, dk := dk % 2 ^ 32, startAt := now, replays := 0 }

/-- Starts the next stripe of a job on a core (R225, R332). -/
def State.startStripe (s : State) (j : Job) (k : Fin 8) : State :=
  match j.nextBand k with
  | none => s
  | some (x, r) =>
    let n := j.ctxNo
    let m := j.mode x r.k k.val
    let j' := j.modBand x.no r.k (fun r => { r with started := r.started ++ [(k.val, m)] })
    let c := (s.ctx k n).startStripe j.entry r.k x.no (r.deadline.getD 0) s.time.aft (j.afterAbort x.no r.k)
      (s.flagsOf j x != 0) x.tiles (j.lastBand x.h)
    let s := (((s.setJob j').setCtx k n c).countStripe j.id x.no r.k false).takeForce (F.CK_CTRL_ENABLE k).off
    let s := (s.setMode k n m).dropRows k n
    (s.log k n.val 0 0x10 (j.id + r.k * 4096 + m * 2 ^ 28)).settle k

/-- The cores that start a stripe together: in a paired job a primary and its secondary (R166). -/
def Job.pairOf (j : Job) (k : Fin 8) : List (Fin 8) :=
  if j.paired then [coreOf (k.val / 2 * 2), coreOf (k.val / 2 * 2 + 1)] else [k]

/-- STRIPE_START (R225): the dispatcher starts the next ready stripe of a job on a core, with its pair's other core in a paired
job (R166) unless its program has ended or it is a quarantined secondary; an in-line job first (R75). -/
def execStripeStart (id : Nat) (k : Fin 8) (s : State) : Out :=
  match s.job id with
  | none => .next s
  | some j =>
    let both := (j.pairOf k).filter (fun c => !(s.ctx c j.ctxNo).ended && !s.leftOut j c)
    let inlineFirst := !j.inline && s.jobs.any (fun i => i.inline && both.any (s.canStart i))
    if !both.isEmpty && both.all (s.canStart j) && !inlineFirst then
      .next (both.foldl (fun s c => match s.job id with
        | some j => s.startStripe j c
        | none => s) s)
    else .next s

/-! ### Abort -/

/-- The abort point of a band has passed (R79): the later of D_k and R_(k+1); D_n for the flush band, but that of a memory-path
job, which is written complete (R81, R380; log entry 100). -/
def State.abortDue (s : State) (j : Job) (x : JFrame) (r : StripeRec) : Bool :=
  let d := r.deadline <|> s.deadline j x r.k
  let next := x.band (r.k + 1)
  !r.over && !j.session && (match d, next with
    | some d, none => j.inline && decide (d ≤ s.time.now)
    | some d, some n => (match n.ready with
      | some t => decide (max d t ≤ s.time.now)
      | none => false)
    | none, _ => false)

/-- Stops the context of a core that runs a stripe being aborted (R79, R227): queued instructions that have not started are
discarded; a register access on its way, a send part-way through and started instructions finish, and their held rows go on. -/
def State.stopStripe (s : State) (id : Nat) (x : Fin 3) (no k : Nat) (c : Fin 8) : State :=
  let cx := s.ctx c x
  if cx.job = some id ∧ cx.running ∧ cx.frame = no ∧ cx.stripe = k then
    let s := s.setCtx c x { cx with running := false, atBar := false, held := false, stalled := none, stallG := none,
                                    greqs := cx.greqs.filter (fun g => g.send && decide (0 < g.got)),
                                    queues := cx.queues.map (fun q => q.filter (fun u => u.started)) }
    (s.log c x.val 0 0x12 (id + k * 4096)).settle c
  else s

/-- The guyline rows of an aborted stripe are discarded in every ring stop (R227). -/
def State.dropStripe (s : State) (id ord : Nat) : State :=
  s.forCores (fun k s => s.setCore k { s.core k with ring := (s.core k).ring.filter (fun g => g.job != id || g.stripe != ord) })

/-- A joined row of an aborted band that the Edge engine runs goes no further (R327). -/
def State.dropRun (s : State) (id no k : Nat) : State :=
  match s.edge.run with
  | none => s
  | some r =>
    if r.post && r.job == id && r.frame == no && r.band == k then
      ({ s with edge := { s.edge with run := none, busy := (r.start, s.time.now) :: s.edge.busy } }).setF F.EDGE_STATUS_BUSY 0
    else s

/-- Aborts band `k` of a frame of a job (R79, R80): its candidates are absent too (R327). -/
def State.abortBand (s : State) (id : Nat) (x : JFrame) (k : Nat) : State :=
  let s := (s.countStripe id x.no k true).modJob id (fun j =>
    let j := j.modFrame x.no (fun x => { x.modBand k (fun r => { r with aborted := true }) with
      res := x.res.filter (fun e => e.k != k), cands := x.cands.filter (fun c => c.band != k) })
    { (j.setStale [x.ctx] [k] ((j.coresIn x).map (·.val))) with abort := satAdd 32 j.abort 1 })
  let s := ((s.missBand id k).dropRun id x.no k).dropStripe id (x.no * 65536 + k)
  match s.job id with
  | none => s
  | some j => ((allCores.foldl (fun s c => s.stopStripe id j.ctxNo x.no k c) s).dropBandRows j x.no k).bandOver id

/-- STRIPE_ABORT (R79): the first unfinished stripe of a job whose abort point has passed. -/
def execStripeAbort (id : Nat) (s : State) : Out :=
  match s.job id with
  | none => .next s
  | some j =>
    match (j.frames.flatMap (fun x => x.bands.map (fun r => (x, r)))).find? (fun e => s.abortDue j e.1 e.2) with
    | none => .next s
    | some (x, r) => if j.state = .running then .next (s.abortBand id x r.k) else .next s

/-! ### Completion of a band -/

/-- A core has finished its part of a band, runs no program any more (R226, R228), or takes no part. -/
def State.finishedOn (s : State) (j : Job) (r : StripeRec) (c : Fin 8) : Bool :=
  r.finished.contains c.val || (s.ctx c j.ctxNo).ended || (s.leftOut j c && !(s.ctx c j.ctxNo).running)

/-- BAND_COMPLETE (R73): the last result flit of the first unfinished band of a job reaches the Edge engine, every core
having reported its part. A session's step ends (R350). -/
def execBandComplete (id : Nat) (s : State) : Out :=
  match s.job id with
  | none => .next s
  | some j =>
    match (j.frames.flatMap (fun x => x.bands.map (fun r => (x, r)))).find? (fun e => !e.2.over) with
    | none => .next s
    | some (x, r) =>
      if j.state = .running ∧ r.ready.isSome ∧ (j.coresIn x).all (fun c => s.finishedOn j r c) then
        let t := s.time.now
        let s := (s.countStripe id x.no r.k true).modJob id (fun j => j.modBand x.no r.k (fun r => { r with done := some t }))
        let s := s.settleBand id x.no r.k
        let s :=
          match j.stepAt with
          | none => s
          | some b =>
            let s := s.modJob id (fun j => { j with stepAt := none, steps := satAdd 32 j.steps 1 })
            (s.bump F.AD_STEPS 1).setF F.AD_LASTSTEP_NS (t - b)
        .next (s.bandOver id)
      else .next s

/-! ### Session steps (R350–R353) -/

/-- An in-line stripe is ready or running on a core (R352), whatever keeps a ready one from starting. -/
def State.inlineBusy (s : State) (k : Fin 8) : Bool :=
  (s.ctx k 0).running || s.jobs.any (fun i => i.inline && i.state == .running && !(s.ctx k 0).ended && (i.nextBand k).isSome)

/-- A job has completed its flush band of the frame that started at `fs`, the latest of its Intake context (R352, R489); an
aborted one does not complete. -/
def Job.flushed (j : Job) (fs : Nat) : Bool :=
  match j.frames.find? (fun x => x.no + 1 == j.frame) with
  | some x => x.fs == fs && j.frames.all (·.closed) && (x.band (j.lastBand x.h)).elim false (fun r => r.done.isSome && !r.aborted)
  | none => false

/-- The frames of an Intake context repeat: its next frame start, by the interval between the last two (R352, R489). -/
def InCtx.nextFs (c : InCtx) : Option Nat := if 2 ≤ c.starts then some (c.fs + (c.fs - c.fsPrev)) else none

/-- The in-line job that a context feeds has completed its flush band for the latest frame start (R352); without such a job none
has. -/
def State.flushDone (s : State) (n : Nat) : Bool :=
  let on := s.jobs.filter (fun j => j.inline && j.inctx == n && j.state == .running)
  (s.inCtx (coreOf n)).cur.isNone && !on.isEmpty && on.all (fun j => j.flushed (s.inCtx (coreOf n)).fs)

/-- The conditions of R489 on the jobs of a core for a slot now. -/
def State.slotRoom (s : State) (k : Fin 8) : Bool :=
  let on := s.jobs.filter (fun j => j.cores.contains k && j.state == .running)
  (on.filter (·.inline)).all (fun j =>
      j.flushed (s.inCtx (coreOf j.inctx)).fs
      && (let c := s.inCtx (coreOf j.inctx)
          c.cur.isNone && c.nextFs.elim false (fun f => decide (s.time.now + 300000 + s.getF F.FLT_TCFG_GUARD * 1000 ≤ f))))
    && !s.inlineBusy k
    && (on.filter (fun j => !j.inline && !j.session)).all (fun j => decide (600000 ≤ j.leastSlack))

/-- Context 1 of a core is at a barrier with its tokens done, where it yields to a slot (R76, R489): it waits there, or stands at the
BAR instruction itself. -/
def State.atBarrier (s : State) (k : Fin 8) : Bool :=
  let c := s.ctx k 1
  c.quiet && (c.atBar || opOf (mget (dflt 0) (s.core k).imem c.pc) == some .bar)

/-- The conditions of R489 for a slot on a core now. -/
def State.slotFits (s : State) (k : Fin 8) : Bool := s.slotRoom k && (!(s.ctx k 1).running || s.atBarrier k)

/-- The next piece of work of the oldest request that names a core: pack, pattern, when it was accepted. -/
def State.testFor (s : State) (k : Nat) : Option (Nat × Nat × Nat) :=
  (s.flt.tests.flatMap (fun r => r.todo.map (fun w => (w, r.at_)))).find? (fun e => e.1.1 == k)
    |>.map (fun e => (e.1.2.1, e.1.2.2, e.2))

/-- A slot is due on a core, which its memory-path job lets go at its next barrier (R489). -/
def State.slotDue (s : State) (k : Fin 8) : Bool :=
  (s.testFor k.val).isSome && (s.slotOn k).isNone && decide (s.flt.slots.length < s.getF F.FLT_TCFG_PAR)
    && (s.dev == devReady || s.dev == devRun) && s.slotRoom k

/-! ### Barriers (R76, R138, R220, R489) -/

/-- Context 1 gives the core to a ready in-line stripe (R76, R138). -/
def State.yield_ (s : State) (k : Fin 8) (x : Fin 3) : State :=
  if x = 1 ∧ s.ready0 k then
    (s.setF (F.CORE_STATUS_ACTIVE k) 0).log k 1 0 0x13 ((s.ctx k 1).pc * 2)
  else s

/-- BAR (R220): a yield point; JOB also waits for every core of the job. Context 1 stands at it while a test slot is due (R489). -/
def execBar (k : Fin 8) (x : Fin 3) (s : State) : Out :=
  .next (s.instr k x .bar (fun w s =>
    let c := s.ctx k x
    if s.weightHold c then
      let s := s.setCtx k x { c with held := true }
      if c.quiet then s.yield_ k x else s
    else if x = 1 && ((s.ready0 k && !c.quiet) || (s.slotDue k && !s.ready0 k)) then s
    else
      let s := s.advance k x
      let c := s.ctx k x
      if fMode w = 0 then s.yield_ k x
      else
        let s := s.setCtx k x { c with bars := c.bars + 1, atBar := true }
        (s.yield_ k x).releaseBars (c.job.getD 0)))

/-- The gate of R352 on a session's step. A test slot that is due on a core of the session and could open goes first. -/
def State.stepGate (s : State) (j : Job) : Bool :=
  let n := s.getF F.AD_CFG_GATE_CTX
  s.flushDone n
    && j.cores.all (fun k => !s.inlineBusy k && (s.slotOn k).isNone && !((s.testFor k.val).isSome && s.slotFits k))
    && (s.inCtx (coreOf n)).nextFs.elim false (fun f =>
      decide (s.time.now + j.dlBase ≤ f + s.getF F.AD_CFG_LEAD * 1000))

/-- SESSION_STEP_START (R352, R353). -/
def execSessionStepStart (s : State) : Out :=
  match s.jobs.find? (fun j => j.session && j.state == .running) with
  | none => .next s
  | some j =>
    let free := j.stepAt.isNone && !j.stopping && s.modelsOk j
    if free && (!s.flag F.AD_CFG_GATE || s.stepGate j) then .next (s.beginStep j.id) else .next s

/-! ### Registers -/

/-- A write of ST_CTRL; CLR clears the figures of the selected job (Table ST-4). -/
def State.stCtrlWrite (s : State) (m : Master) (v : Word) : State :=
  s.regWrite false m F.ST_CTRL_CLR.off v.toNat (fun s =>
    if v.toNat % 2 = 1 then
      s.modJob (s.getF F.ST_SEL_JOB) (fun j => { j with slackLast := 0, slackMin := 2147483647, miss := 0, abort := 0 })
    else s)

/-- ST_CLR. -/
def execStClr (m : Master) (v : Word) (s : State) : Out := .next (s.stCtrlWrite m (v ||| 1#32))

/-- A write of DX_CTRL: it is the selected job's, in force from its next frame start (Table DX-4). -/
def State.dxCtrlWrite (s : State) (m : Master) (v : Word) : State :=
  let id := s.getF F.ST_SEL_JOB
  let off := F.DX_CTRL_ENABLE.off
  match s.refuseWrite false m off with
  | some s' => s'
  | none =>
    match s.job id with
    | none => (s.storeFields off v.toNat).setReg off 0#32
    | some j =>
      let s := (s.setReg off (BitVec.ofNat 32 j.dxCtrl)).storeFields off v.toNat
      let x := (s.getReg off).toNat
      s.modJob id (fun j => { j with dxCtrl := x, dxInval := j.dxInval || bitsOf v.toNat 19 1 == 1 })

/-- DX_INVALIDATE (Table DX-2): every stale bit of the job is set at its next frame start. -/
def execDxInvalidate (m : Master) (v : Word) (s : State) : Out := .next (s.dxCtrlWrite m (v ||| 0x80000#32))

/-- A write of DX_CLR. -/
def State.dxClrWrite (s : State) (m : Master) (v : Word) : State :=
  s.regWrite false m F.DX_CLR_CLR.off v.toNat (fun s =>
    if v.toNat % 2 = 1 then
      s.modJob (s.getF F.ST_SEL_JOB) (fun j => { j with dxDelta := 0, dxRefresh := 0, dxStaleN := 0, dxOff := 0,
                                                        dxScene := 0, dxChanged := 0, dxPos := 0 })
    else s)

/-- DX_CLR (R345). -/
def execDxClr (m : Master) (v : Word) (s : State) : Out := .next (s.dxClrWrite m (v ||| 1#32))

end Sys2Proof.Machine
end

