-- ==== Sys2Proof/Machine/FaultOps.lean ====
section
/-! DEFINITION. The fault manager: records and their rings (R475–R480), margin events and steps (R481–R484), quarantine and
redistribution (R485, R486), shared poison (R472), and wakes of sleeping cores (R560). -/

namespace Sys2Proof.Machine

/-! ### Waking a core -/

/-- Asks a sleeping core to wake, with a reason of Table PW-7; a core whose Logbook still flushes stays awake (R560). -/
def State.askWake (s : State) (k : Fin 8) (why : Nat) : State :=
  if 2 ≤ s.pstate k then
    let i := s.isl k
    if i.wakeWhy.isSome then s else s.setIsl k { i with wakeWhy := some why }
  else s.setCore k { s.core k with logFlush := false }

/-! ### Records (R475, Table PC-2) -/

/-- The unit of a core that a unit ID names. -/
def unitCore (u : Nat) : Option (Fin 8) := if 0x20 ≤ u ∧ u < 0x60 then some (coreOf ((u - 0x20) / 8)) else none

/-- TEMP: the sensor nearest the unit; for a unit that chapter 19 gives none, which one is not stated (log entry 22). -/
def State.unitTemp (s : State) (u : Nat) : Nat :=
  match unitCore u with
  | some k => s.getF (F.PWR_TEMP_VAL (4 + k.val))
  | none =>
    s.getF (F.PWR_TEMP_VAL (match u with
      | 0x02 => 0
      | 0x08 => 1
      | 0x07 => 2
      | 0x03 => 3
      | _ => Config.openOp 52 [u] % 12))

/-- VOLT: the supply of the unit's island (Table PW-1). -/
def State.unitVolt (s : State) (u : Nat) : Nat :=
  match unitCore u with
  | some k => s.getF (F.PWR_ISL_ST_V_SET k)
  | none =>
    if u = 0x00 ∨ u = 0x01 ∨ u = 0x0B then s.getF (F.PWR_RAIL_VAL_MV 2)
    else if u < 0x10 then s.getF (F.PWR_RAIL_VAL_MV 1) else s.getF (F.PWR_RAIL_VAL_MV 0)

/-- FREQ: the clock of the unit's island (Table PW-1); where it gives none, a free value (log entry 22). -/
def State.unitFreq (s : State) (u : Nat) : Nat :=
  match unitCore u with
  | some k => s.getF (F.PWR_ISL_ST_F_SET k)
  | none =>
    match u with
    | 0x00 => 1000
    | 0x0B => 1000
    | 0x01 => 200
    | 0x02 => 1000
    | 0x04 => 600
    | 0x06 => 800
    | 0x07 => 1000
    | 0x10 => 1000
    | 0x11 => 1000
    | 0x12 => 1000
    | 0x13 => 1000
    | _ => Config.openOp 53 [u] % 65536

/-- Margin step of the unit's island. -/
def State.unitStep (s : State) (u : Nat) : Nat :=
  match unitCore u with
  | some k => s.getF (F.FLT_CORE_STEP k)
  | none => 0

/-- A plausibility trap code (R454). -/
def plausCode (r : FRec) : Bool := r.cls == 0x31 && decide (0xE000 ≤ r.opc) && decide (r.opc ≤ 0xEFFF) && r.core.isSome

/-- The class is marked M (Table PC-4). -/
def FRec.isM (r : FRec) : Bool := [0x11, 0x14, 0x15, 0x20, 0x23, 0x24, 0x25, 0x26, 0x27, 0x58].contains r.cls || plausCode r

/-- The class is marked Q. -/
def FRec.isQ (r : FRec) : Bool := r.cls == 0x12 || r.cls == 0x29

/-- The class is marked "check unit" (R483). -/
def FRec.isCheck (r : FRec) : Bool := r.cls == 0x20 || r.cls == 0x27

/-- A record as 32 bytes. -/
def State.recBytes (s : State) (r : FRec) (seq : Nat) : List Byte :=
  let j := r.job % 4096 + (if r.poison then 4096 else 0) + (if r.kill then 8192 else 0) + (if r.isM then 16384 else 0)
  leBytes 8 r.dtime ++ leBytes 1 r.unit ++ leBytes 1 r.cls ++ leBytes 2 j ++ leBytes 4 r.opc ++ leBytes 6 r.addr
    ++ leBytes 1 (r.akind % 4 + r.word % 64 * 4) ++ leBytes 1 r.synd ++ leBytes 2 (s.unitTemp r.unit)
    ++ leBytes 2 (s.unitVolt r.unit) ++ leBytes 2 (s.unitFreq r.unit) ++ leBytes 1 (s.unitStep r.unit % 8) ++ leBytes 1 seq

/-! ### Rings (R478, R479) -/

/-- Writes a record to the AON ring, over its oldest entry. -/
def State.aonPut (s : State) (bs : List Byte) : State :=
  let h := s.getF F.FLT_STATUS_AON_HEAD
  let s := (upFrom 0 8).foldl (fun s i =>
    s.setReg (F.FLT_AON (8 * h + i)).off (BitVec.ofNat 32 (leNat ((bs.drop (4 * i)).take 4)))) s
  s.setF F.FLT_STATUS_AON_HEAD ((h + 1) % 64)

/-- Entries of the DRAM ring. -/
def State.ringSize (s : State) : Nat := 2 ^ s.getF F.FLT_RING_CFG_SIZE

/-- The DRAM ring is full: HEAD + 1 = TAIL. -/
def State.ringFull (s : State) : Bool :=
  (s.getF F.FLT_RING_HEAD + 1) % s.ringSize == s.getF F.FLT_RING_TAIL % s.ringSize

/-- FLT_STATUS.RING_FULL. -/
def State.showRing (s : State) : State :=
  s.setF F.FLT_STATUS_RING_FULL (if s.flag F.FLT_RING_CFG_ENABLE && s.ringFull then 1 else 0)

/-- Writes a record to the DRAM ring, and raises cause 2; a full ring loses it (R479). The ring's address is one
of R29's map, and a write that it refuses writes a record of its own (R30; log entry 114). -/
def State.dramRingPut (s : State) (bs : List Byte) : State :=
  if !s.flag F.FLT_RING_CFG_ENABLE then s
  else if s.ringFull then
    (s.bump F.FLT_LOST 1).showRing |> fun s => { s with flt := { s.flt with lostPending := s.flt.lostPending + 1 } }
  else
    let h := s.getF F.FLT_RING_HEAD
    let t := s.fwPut ((s.getReg F.FLT_RING_BASE.off).toNat * 256 + h * 32) bs
    ((t.setF F.FLT_RING_HEAD ((h + 1) % s.ringSize)).raiseCause 2).showRing

/-- Gives a record its SEQ and writes it to both rings (R478, R480). -/
def State.writeRec (s : State) (r : FRec) : State :=
  let bs := s.recBytes r s.flt.seq
  let s := { s with flt := { s.flt with seq := (s.flt.seq + 1) % 256 } }
  (s.aonPut bs).dramRingPut bs

/-- Once the DRAM ring has space again, a RECORDS_LOST record goes ahead of the next record (R479). -/
def State.tellLost (s : State) : State :=
  if 0 < s.flt.lostPending && s.flag F.FLT_RING_CFG_ENABLE && !s.ringFull then
    let r := { mkRec s.time.now 0x02 0x55 with opc := s.flt.lostPending }
    { s with flt := { s.flt with lostPending := 0 } }.writeRec r
  else s

/-! ### Field test requests that a step queues (R491) -/

/-- Stored Field Pattern Packs in index order. -/
def State.packs (s : State) : List StoObj := s.sto.objs.filter (fun o => o.target == 2)

/-- NPAT of a pack, and the entry of a pattern (R494). -/
def StoObj.npat (o : StoObj) : Nat := fieldNat o.bytes 6 2
where fieldNat (l : List Byte) (o n : Nat) : Nat := leNat ((l.drop o).take n)
def StoObj.pattern (o : StoObj) (p : Nat) : List Byte := (o.bytes.drop (128 + 64 * p)).take 64

/-- What a request of cores, a pack and a pattern (none for all of them) has to run: patterns whose core mask names the core. -/
def State.testWork (s : State) (mask : Nat) (pack pat : Option Nat) : List (Nat × Nat × Nat) :=
  allCores.flatMap (fun k =>
    if bitsOf mask k.val 1 = 0 then []
    else
      ((upFrom 0 s.packs.length).zip s.packs).flatMap (fun e =>
        if pack.any (· != e.1) then []
        else (upFrom 0 e.2.npat).filterMap (fun p =>
          if pat.any (· != p) || bitsOf (leNat ((e.2.pattern p).take 1)) k.val 1 == 0 then none else some (k.val, e.1, p))))

/-- Queues a test request. -/
def State.queueTest (s : State) (todo : List (Nat × Nat × Nat)) (urgent : Bool) : State :=
  if todo.isEmpty then s
  else { s with flt := { s.flt with tests := s.flt.tests ++ [{ todo := todo, urgent := urgent, at_ := s.time.now,
                                                               deferred := false }] } }

/-! ### Margin steps, quarantine, redistribution -/

/-- A core takes a margin step: FLT_COREk, the loop at its next tick, the MARGIN_STEP record, a ROUTINE test of the core when a
pack is installed (R484, R491). -/
def State.setStep (s : State) (k : Fin 8) (n : Nat) : State :=
  let s := (s.setF (F.FLT_CORE_STEP k) n).setIsl k { s.isl k with newStep := true }
  let s := s.report { mkRec s.time.aft (coreUnit k 0) 0x53 with opc := n }
  s.queueTest (s.testWork (2 ^ k.val) none none) false

/-- A core of a job leaves its tile map: the job's maps with the core's width given to its neighbours (R486); a core that an
urgent borrow has taken out stays out. -/
def Job.without (j : Job) (k : Nat) : Option Job :=
  let give (t : List Nat) : Option (List Nat) := if nth 0 t k = 0 then some t else giveAway t k
  match give (j.tilesNext.getD j.tiles) with
  | none => none
  | some t => some { j with tilesNext := some t, tilesBack := j.tilesBack.bind give }

/-- Redistribution of one job after the quarantine of a core (R486). In a paired job the pair leaves together: its tile is the
even core's. -/
def State.redistribute (s : State) (k : Fin 8) (j : Job) : State :=
  let c := if j.paired then k.val / 2 * 2 else k.val
  let named := 0 < j.tile c || (j.tilesNext.any (fun t => 0 < nth 0 t c)) || (j.tilesBack.any (fun t => 0 < nth 0 t c))
  if !named || j.state == .dead then s
  else if j.tile c = 0 then
    match j.without c with
    | some j' => s.setJob j'
    | none => s
  else
    match (if s.fits j then j.without c else none) with
    | some j' => s.setJob j'
    | none => s.report { mkRec s.time.now 0x02 0x52 with job := j.id, kill := true }

/-- Step 4: quarantine (R484–R486). -/
def State.quarantine (s : State) (k : Fin 8) : State :=
  if s.flag (F.CORE_STATUS_QUAR k) || (s.core k).quarPending then s
  else
    let s := if s.getF (F.FLT_CORE_STEP k) = 4 then s else s.setStep k 4
    let s := s.report (mkRec s.time.aft (coreUnit k 0) 0x54)
    let s := (s.setCore k { s.core k with quarPending := true }).settle k
    -- R485: a sleeping core is brought to IDLE, and its wake pass or initialisation goes over its scratchpad (log entry 128)
    let s := if 2 ≤ s.pstate k then s.askWake k 4 else s
    s.jobs.foldl (fun s j => s.redistribute k j) s

/-- Checks are switched off on a core, with a MARGIN_STEP record and so a ROUTINE test (R483, R491). -/
def State.checksOff (s : State) (k : Fin 8) : State :=
  if s.flag (F.FLT_CORE_CHK_OFF k) then s
  else
    let s := (s.setF (F.FLT_CORE_CHK_OFF k) 1).setF (F.CK_CTRL_ENABLE k) 0
    let s := (s.takeForce (F.CK_CTRL_ENABLE k).off).report { mkRec s.time.aft (coreUnit k 0) 0x53 with opc := 4 }
    s.queueTest (s.testWork (2 ^ k.val) none none) false

/-- A margin event charged to a core (R481, R483, R484). -/
def State.marginEvent (s : State) (k : Fin 8) (check : Bool) : State :=
  let t := s.time.now
  let win := s.getF F.FLT_MCFG_WINDOW * 1000000
  let ev := (s.flt.events.filter (fun e => decide (t < e.2 + win))) ++ [(k.val, t)]
  let n := (ev.filter (fun e => e.1 == k.val)).length
  let s := { s with flt := { s.flt with events := ev } }
  if n < s.getF F.FLT_MCFG_THRESH then s
  else
    let s := { s with flt := { s.flt with events := ev.filter (fun e => e.1 != k.val) } }
    let next := s.getF (F.FLT_CORE_STEP k) + 1
    if s.getF F.FLT_MCFG_MAXSTEP < next ∨ 4 < next then s
    else if next < 4 then s.setStep k next
    else if check then s.checksOff k else s.quarantine k

/-- Cores that a record of class M is charged to (R481, R461, R464). -/
def State.charged (s : State) (r : FRec) : List (Fin 8) :=
  match r.core with
  | none => []
  | some c =>
    if r.cls = 0x25 ∨ r.cls = 0x26 then
      let hit (k : Nat) : Bool := s.dig.suspects.contains (k, r.job, r.stripe)
      if hit c && !hit (c + 1) then [coreOf c]
      else if hit (c + 1) && !hit c then [coreOf (c + 1)] else [coreOf c, coreOf (c + 1)]
    else coreOf c :: (match r.also with
      | some d => [coreOf d]
      | none => [])

/-- The margin event of a record: to its cores, or counted in FLT_FOREEV (R482). -/
def State.chargeRec (s : State) (r : FRec) : State :=
  let ks := s.charged r
  if ks.isEmpty then s.bump F.FLT_FOREEV 1 else ks.foldl (fun s k => s.marginEvent k r.isCheck) s

/-! ### Kills and poison -/

/-- Poison of a shared WEIGHT range kills every other job that names the range (R472). -/
def State.sharedPoison (s : State) (id : Nat) : State :=
  let ps := (s.flt.taints.filter (fun e => e.1 == id)).map (·.2)
  (s.jobs.filter (fun j => j.id != id && j.state != .dead && j.models.any (fun m => ps.contains m.pkg))).foldl (fun s j =>
    (s.killJob j.id 0x51).report { mkRec s.time.now 0x02 0x51 with job := j.id, kill := true, poison := true }) s

/-- What the fault manager does with a record it has accepted. -/
def State.actOnRec (s : State) (r : FRec) : State :=
  let s := match r.core with
    | some k => if plausCode r then s.bump (F.CK_PLAUS k) 1 else s
    | none => s
  let s := if r.isM then s.chargeRec r else s
  let s := if r.isQ then
      match r.core with
      | some k => s.quarantine (coreOf k)
      | none => s
    else s
  let s := if r.cls = 0x10 ∧ r.akind = 2 then s.weightPoison (r.addr / 131072 % 8) (r.addr % 131072) else s
  let s := if r.kill ∧ r.job ≠ 0 then s.killJob r.job r.cls else s
  if r.cls = 0x50 then s.sharedPoison r.job else s

/-- The fault manager accepts a record (R480). -/
def State.acceptRec (s : State) (r : FRec) : State := (s.tellLost.writeRec r).actOnRec r

end Sys2Proof.Machine
end

