-- ==== Sys2Proof/Machine/Faults.lean ====
section
/-! DEFINITION. Fault records, kill notices, margin-step registers (rows 217–220) and field test (rows 221–226: R487–R496). -/

namespace Sys2Proof.Machine

/-- FAULT_RECORD (R480): the fault manager accepts the next record of the Fore units, or of the Aft units across the bridge.
Records that the Aft fabric lost while the bridge was down are told of once (R58). A POISON_COMMIT record leaves its gate when its
cycle is over, since another gate may find poison of the job in it (R473). -/
def execFaultRecord (aft : Bool) (s : State) : Out :=
  if aft then
    if !s.brgUp then .next s
    else
      let s := if 0 < s.flt.aftLost then
          { s.report { mkRec s.time.aft 0x10 0x55 with opc := s.flt.aftLost } with
            flt := { (s.report { mkRec s.time.aft 0x10 0x55 with opc := s.flt.aftLost }).flt with aftLost := 0 } }
        else s
      match s.flt.aft with
      | [] => .next s
      | r :: l => if s.foundNow r then .next s else .next ({ s with flt := { s.flt with aft := l } }.acceptRec r)
  else
    match s.flt.fore with
    | [] => .next s
    | r :: l => if s.foundNow r then .next s else .next ({ s with flt := { s.flt with fore := l } }.acceptRec r)

/-- KILL_NOTICE (R470): the oldest kill notice on its way to a gate reaches it. -/
def execKillNotice (g : Fin 6) (s : State) : Out :=
  match s.flt.notices.find? (fun n => n.2 == g.val) with
  | none => .next s
  | some n =>
    let s := { s with flt := { s.flt with notices := s.flt.notices.erase n } }
    .next (s.modJob n.1 (fun j => j.learn g.val s.time.now))

/-- RELAX lowers a core's step by one; leaving step 4 ends its quarantine (R484, R485). -/
def State.relax (s : State) (k : Fin 8) : State :=
  let n := s.getF (F.FLT_CORE_STEP k)
  if n = 0 then s
  else
    let s := (s.setF (F.FLT_CORE_STEP k) (n - 1)).setIsl k { s.isl k with newStep := true }
    let s := s.report { mkRec s.time.aft (coreUnit k 0) 0x53 with opc := n - 1 }
    if n = 4 then (s.setCore k { s.core k with quarPending := false }).setF (F.CORE_STATUS_QUAR k) 0 else s

/-- A write of FLT_COREk (Table PC-7). -/
def State.fltCoreWrite (s : State) (k : Fin 8) (m : Master) (v : Word) : State :=
  s.regWrite false m (F.FLT_CORE_RELAX k).off v.toNat (fun s =>
    let s := if bitsOf v.toNat 8 1 = 1 then s.relax k else s
    if bitsOf v.toNat 9 1 = 1 then s.quarantine k else s)

/-- RELAX (R484). -/
def execRelax (k : Fin 8) (m : Master) (v : Word) (s : State) : Out := .next (s.fltCoreWrite k m (v ||| 0x100#32))

/-- FORCE_Q (R485). -/
def execForceQ (k : Fin 8) (m : Master) (v : Word) (s : State) : Out := .next (s.fltCoreWrite k m (v ||| 0x200#32))

/-! ### Test requests (R491) -/

/-- TEST_PERIOD (R491): every PERIOD seconds a ROUTINE request for every core and every installed pattern is queued. -/
def execTestPeriod (s : State) : Out :=
  let per := s.getF F.FLT_TCFG_PERIOD * 1000000000
  if per = 0 ∨ s.time.now < s.flt.lastPeriodic + per then .next s
  else
    let s := { s with flt := { s.flt with lastPeriodic := s.time.now } }
    .next (s.queueTest (s.testWork 0xFF none none) false)

/-! ### Slots (R487–R490, R496) -/

/-- The core has been lent to an urgent request, and the frame without it has begun (R493). -/
def State.lent (s : State) (k : Fin 8) : Bool :=
  s.flt.borrow.any (fun b => b.1 == k.val) && s.jobs.all (fun j => j.tile (tileOwner j.paired k.val) == 0 || j.state != .running)
    && !(s.ctx k 0).running && !(s.ctx k 1).running

/-- A slot can open on a core now (R489, R493). -/
def State.slotOpens (s : State) (k : Fin 8) : Bool :=
  !s.off && (s.dev == devReady || s.dev == devRun) && decide (s.pstate k ≤ 1) && !s.spHeld k && (s.slotOn k).isNone
    && decide (s.flt.slots.length < s.getF F.FLT_TCFG_PAR) && (s.slotFits k || s.lent k)

/-- The wait in µs that the firmware predicts for a request that names the cores of a mask: the least of theirs (R492). DESIGN CHOICE:
a core opens for each piece of work that waits for it in turn, once a frame period of the in-line jobs on it, and this period begins
with one unless a slot can open now (log entry 128). -/
def State.testWait (s : State) (mask : Nat) : Nat :=
  let one (k : Fin 8) : Nat :=
    let ahead := (s.flt.tests.flatMap (·.todo)).filter (fun w => w.1 == k.val)
    let on := s.jobs.filter (fun j => j.inline && j.cores.contains k && j.state == .running)
    let period := on.foldl (fun p j => let c := s.inCtx (coreOf j.inctx); max p ((c.nextFs.getD c.fs - c.fs) / 1000)) 0
    (ahead.length + (if s.slotOpens k then 0 else 1)) * period
  match (allCores.filter (fun k => bitsOf mask k.val 1 == 1)).map one with
  | [] => 0
  | w :: l => l.foldl min w

/-- TESTREQ (R491): queues a request; its completion reports the predicted wait in µs (R492). -/
def execTestreq (b : Fin 2) (s : State) : Out :=
  match s.nextCmd b 0x0C with
  | none => .next s
  | some e =>
    let pack := e.par 9 1
    let pat := e.par 10 1
    let n := ((s.packs[pack]?).map (fun o => o.npat)).getD 0
    let bad := !e.unusedZero [(8, 11)] || decide (1 < e.par 11 1) || (s.packs[pack]?).isNone
      || (pat != 0xFF && decide (n ≤ pat))
    if bad then .next (s.finish b e cmdBadField [])
    else
      let todo := s.testWork (e.par 8 1) (some pack) (if pat = 0xFF then none else some pat)
      let w := s.testWait (e.par 8 1)
      .next ((s.queueTest todo (e.par 11 1 == 1)).finish b e 0 (leBytes 4 w))

/-- Takes a piece of work out of the requests. -/
def dropWork (w : Nat × Nat × Nat) : List TestReq → List TestReq
  | [] => []
  | r :: rs =>
    if r.todo.contains w then
      let t := r.todo.erase w
      if t.isEmpty then rs else { r with todo := t } :: rs
    else r :: dropWork w rs

/-- Cores from the turn of the rotation on (R492). -/
def rotation (from_ : Nat) : List (Fin 8) := (upFrom from_ 8).map coreOf

/-- FLT_TSTAT.BUSY. -/
def State.showSlots (s : State) : State := s.setF F.FLT_TSTAT_BUSY (if s.flt.slots.isEmpty then 0 else 1)

/-- Words that a pattern loads: the spec does not say where in a pack they lie (log entry 22): 0 instructions, 1 SMEM bytes, 2
row words. -/
def patWord (o : StoObj) (pat kind i : Nat) : Nat := Config.openOp 60 [o.id, o.version, pat, kind, i]

/-- A row's stored words. -/
def Core.rowRaw (c : Core) (r : Nat) : List (Nat × BitVec 64 × BitVec 8) :=
  (upFrom (r * 64) 64).map (fun a => let w := mget zeroWord c.sp a; (a, w.data, w.chk))

/-- Where a slot of a core saves in the save area (R487, R488). DESIGN CHOICE: a MiB a core, with the instruction words at 0, the SMEM
bytes at 64 KiB and the rows at 128 KiB (log entry 129). -/
def State.saveAt (s : State) (k : Fin 8) : Nat := (s.inForce F.FLT_SAVE_BASE.off).toNat * 256 + k.val * 1048576

/-- Writes what a slot saves to the save area (R487). -/
def State.saveSlot (s : State) (k : Fin 8) (t : TestSlot) : State :=
  let a := s.saveAt k
  let rows := t.savedRows.map (fun e => readWord ⟨e.2.1, e.2.2⟩)
  let s := (s.dramPut a (t.savedImem.flatMap (fun e => leBytes 8 e.2.toNat))).dramPut (a + 65536) (t.savedSmem.map (·.2))
  let s := s.dramPut (a + 131072) (rows.flatMap (fun q => leBytes 8 q.2.1.toNat))
  s.dramMark (a + 131072) (rows.flatMap (fun q => List.replicate 8 q.1.isPoison))

/-- Opens a slot: saves what the pattern names, loads it, and starts the test context (R487). -/
def State.openSlot (s : State) (k : Fin 8) (o : StoObj) (pack pat : Nat) : State :=
  let e := o.pattern pat
  let f (a n : Nat) : Nat := fieldAt e a n
  let c := s.core k
  let slot : TestSlot := {
    core := k.val, pack := pack, pat := pat, entry := e, start := s.time.now,
    savedImem := (upFrom (f 4 2) (f 6 2)).map (fun a => (a, mget (dflt 0) c.imem a)),
    savedSmem := (upFrom (f 8 2) (f 10 2)).map (fun a => (a, mget (dflt 0) c.smem a)),
    savedRows := (upFrom (f 20 2) (f 22 2)).flatMap (fun r => c.rowRaw r) }
  let code := (upFrom 0 (f 6 2)).map (fun i => (f 4 2 + i, BitVec.ofNat 64 (patWord o pat 0 i)))
  let data := (upFrom 0 (f 10 2)).map (fun i => (f 8 2 + i, BitVec.ofNat 8 (patWord o pat 1 i)))
  let rows := (upFrom 0 (f 14 2 * 64)).map (fun i => (f 12 2 * 64 + i, cleanWord (BitVec.ofNat 64 (patWord o pat 2 i))))
  let t := { Ctx.reset with pc := f 4 2, halted := false, running := true, sr := srSeed (f 36 4), startAt := s.time.now }
  let s := s.saveSlot k slot
  let s := s.setCore k { c with
    imem := msets (dflt 0) c.imem code, smem := msets (dflt 0) c.smem data, sp := msets zeroWord c.sp rows,
    ctx := vset c.ctx 2 t }
  let turn := (k.val + 1) % 8
  let s := { s with flt := { s.flt with slots := s.flt.slots ++ [slot], rotor := turn } }
  ((s.log k 0 0 0x60 (1 + pat * 2)).showSlots).settle k

/-- TEST_SLOT_OPEN (R487, R489, R492, R560): a slot opens on the core whose turn it is. A core in NAP is woken first. -/
def execTestSlotOpen (k : Fin 8) (s : State) : Out :=
  match s.testFor k.val with
  | none => .next s
  | some (pack, pat, at_) =>
    if s.pstate k = 2 then .next (s.askWake k 4)
    else
      let first := (rotation s.flt.rotor).find? (fun c => (s.testFor c.val).isSome && s.slotOpens c)
      match s.packs[pack]? with
      | none => .next { s with flt := { s.flt with tests := dropWork (k.val, pack, pat) s.flt.tests } }
      | some o =>
        if first ≠ some k then .next s
        else
          let s := { s with flt := { s.flt with tests := dropWork (k.val, pack, pat) s.flt.tests } }
          let wait := (s.time.now - at_) / 1000
          let s := s.setF F.FLT_TSTAT_MAXWAIT (max (s.getF F.FLT_TSTAT_MAXWAIT) (min wait (2 ^ 24 - 1)))
          .next (s.openSlot k o pack pat)

/-- Restores what a slot saved and returns its core (R487, R490). -/
def State.closeSlot (s : State) (k : Fin 8) (t : TestSlot) (pass : Bool) : State :=
  let c := s.core k
  let s := s.setCore k { c with
    imem := msets (dflt 0) c.imem t.savedImem, smem := msets (dflt 0) c.smem t.savedSmem,
    sp := msets zeroWord c.sp (t.savedRows.map (fun e => (e.1, ⟨e.2.1, e.2.2⟩))), ctx := vset c.ctx 2 Ctx.reset }
  let kept : Option (Nat × Nat) := if s.flt.borrow.any (fun b => b.1 == k.val) then none else s.flt.borrow
  let s := { s with flt := { s.flt with slots := s.flt.slots.filter (fun q => q.core != k.val), borrow := kept } }
  ((s.log k 0 0 0x60 (t.pat * 2 + (if pass then 128 else 0))).showSlots).settle k

/-- Keeps a pattern's result for FLT_TRES (R496). -/
def State.keepResult (s : State) (k : Nat) (pack pat : Nat) (pass : Bool) : State :=
  let rest := s.flt.results.filter (fun r => !(r.1 == pack && r.2.1 == pat))
  let old := s.flt.results.find? (fun r => r.1 == pack && r.2.1 == pat)
  let p := (old.map (fun r => r.2.2.1)).getD 0
  let n := (old.map (fun r => r.2.2.2)).getD 0
  let put (x : Nat) (b : Bool) : Nat := x - bitsOf x k 1 * 2 ^ k + (if b then 2 ^ k else 0)
  let l : List (Nat × Nat × Nat × Nat) := (pack, pat, put p pass, put n true) :: rest
  { s with flt := { s.flt with results := l } }

/-- TEST_SLOT_DONE (R487, R496): the pattern of a slot has halted, after `cycles` core cycles. Its result rows are digested and
judged, and the core is returned. -/
def execTestSlotDone (k : Fin 8) (cycles : Nat) (s : State) : Out :=
  match s.slotOn k with
  | none => .next s
  | some t =>
    let x := s.ctx k 2
    if x.running && !x.halted then .next s
    else
      let f (a n : Nat) : Nat := fieldAt t.entry a n
      let (v, p, s) := s.digestRows k (f 16 2) (f 18 2)
      let cause := x.ecause.toNat % 256
      let pass := x.ended && cause == 0 && decide (cycles ≤ f 24 4) && !p && v.toNat == f 28 8
      let s := (s.closeSlot k t pass).keepResult k.val t.pack t.pat pass
      let s := s.raiseCause 27
      -- the unit that found the exception of the token that ECAUSE names (Table IS-7)
      let e := x.ecause.toNat
      let named := if bitsOf e 12 1 = 1 then (t.fails.find? (fun q => q.1 == bitsOf e 8 4)).map (·.2) else none
      if pass then .next s
      else .next (s.reportAft { mkRec s.time.aft (named.getD (coreUnit k 0)) 0x58 with opc := t.pat, core := some k.val })

/-- TEST_SLOT_TIMEOUT (R490): a slot that has lasted 300 µs. -/
def execTestSlotTimeout (k : Fin 8) (s : State) : Out :=
  match s.slotOn k with
  | none => .next s
  | some t =>
    if s.time.now < t.start + 300000 then .next s
    else .next ((s.closeSlot k t false).reportAft { mkRec s.time.aft (coreUnit k 0) 0x59 with opc := t.pat })

/-! ### Urgent requests (R493) -/

/-- A job lets a core go for one frame: its least slack is at least a fifth of its least window, and R486 passes. -/
def State.lends (s : State) (j : Job) (k : Nat) : Bool :=
  decide (j.leastWindow ≤ j.leastSlack * 5) && s.fits j && (giveAway j.tiles k).isSome

/-- URGENT_BORROW (R493): the oldest urgent request that URGENT_MS has not served borrows its core for one frame, or waits as
ROUTINE. -/
def execUrgentBorrow (s : State) : Out :=
  let due (r : TestReq) : Bool :=
    r.urgent && !r.deferred && decide (r.at_ + s.getF F.FLT_TCFG2_URGENT_MS * 1000000 ≤ s.time.now)
  match s.flt.tests.find? due, s.flt.borrow with
  | some r, none =>
    let k := ((r.todo.head?).map (·.1)).getD 0
    -- in a paired job the pair leaves together (R486)
    let on := s.jobs.filter (fun j => decide (0 < j.tile (tileOwner j.paired k)) && j.state == .running)
    if on.all (fun j => j.tilesNext.isNone && s.lends j (tileOwner j.paired k)) && !on.isEmpty then
      let s := on.foldl (fun s j =>
        s.setJob { j with tilesNext := giveAway j.tiles (tileOwner j.paired k), tilesBack := some j.tiles }) s
      .next { s with flt := { s.flt with borrow := some (k, s.time.now) } }
    else
      let l := s.flt.tests.map (fun q => if q = r then { q with deferred := true } else q)
      .next ({ s with flt := { s.flt with tests := l } }.setF F.FLT_TSTAT_URG_DEFER 1)
  | _, _ => .next s

end Sys2Proof.Machine
end

