-- ==== Sys2Proof/Machine/Intake.lean ====
section
/-! DEFINITION. Camera Intake (chapter 03): receive contexts, the two pixel pipelines, defect correction, statistics and the
raw taps T0 and T1. -/

namespace Sys2Proof.Machine

/-! ### Unpacking (R109; log entry 31) -/

/-- Bytes per pixel of a type passed as bytes: YUV422 2, RGB888 3, embedded data and user types 1; none for a RAW type. DESIGN
CHOICE: embedded data and user-defined types are bytes too, one to a pixel, and pass the pixel stages as YUV and RGB do (log entry
135). -/
def rawBytes (dt : Nat) : Option Nat :=
  if 0x2A ≤ dt ∧ dt ≤ 0x2E then none
  else if dt = 0x1E then some 2 else if dt = 0x24 then some 3 else some 1

/-- The data types of Table IN-1. -/
def dtKnown (dt : Nat) : Bool :=
  (decide (0x2A ≤ dt) && decide (dt ≤ 0x2E)) || dt == 0x1E || dt == 0x24 || dt == 0x12
    || (decide (0x30 ≤ dt) && decide (dt ≤ 0x37))

/-- Bytes as numbers, in order. -/
def natBytes (l : List Byte) : List Nat := l.map BitVec.toNat

/-- Four pixels of a RAW10 group, two of RAW12, four of RAW14, one of RAW8 and RAW16, in CSI-2 packing. -/
def unpackGroup (dt : Nat) (g : List Nat) : List Nat :=
  let b (i : Nat) : Nat := nth 0 g i
  match dt with
  | 0x2A => [b 0]
  | 0x2B => (upFrom 0 4).map (fun i => b i * 4 + bitsOf (b 4) (2 * i) 2)
  | 0x2C => [b 0 * 16 + b 2 % 16, b 1 * 16 + b 2 / 16]
  | 0x2D =>
    let low := b 4 + b 5 * 256 + b 6 * 65536
    (upFrom 0 4).map (fun i => b i * 64 + bitsOf low (6 * i) 6)
  | _ => [b 0 * 256 + b 1]

/-- Bytes of a packing group. -/
def groupBytes (dt : Nat) : Nat :=
  match dt with
  | 0x2A => 1
  | 0x2B => 5
  | 0x2C => 3
  | 0x2D => 7
  | _ => 2

/-- Unpacks whole groups of a payload; a part group at its end gives no pixel. -/
def unpackRaw (dt : Nat) : Nat → List Nat → List Nat
  | 0, _ => []
  | n + 1, l =>
    let k := groupBytes dt
    if l.length < k then [] else unpackGroup dt (l.take k) ++ unpackRaw dt n (l.drop k)

/-- Groups of `k` bytes, little-endian. -/
def groupLe (k : Nat) : Nat → List Nat → List Nat
  | 0, _ => []
  | n + 1, l =>
    if k = 0 ∨ l.length < k then []
    else (l.take k).foldr (fun b a => b + 256 * a) 0 :: groupLe k n (l.drop k)

/-- The pixels of a payload (R109). -/
def unpack (dt : Nat) (p : List Byte) : List Nat :=
  match rawBytes dt with
  | none => unpackRaw dt p.length (natBytes p)
  | some k => groupLe k p.length (natBytes p)

/-- Bytes of a pixel in memory: 16 bits after unpack, RGB888 unchanged (R104, R109). -/
def pixelBytes (dt : Nat) : Nat := if dt = 0x24 then 3 else 2

/-- A pixel as a tap writes it, in 16 bits (R115). Which 16 of the 24 bits of RGB888 those are is not stated: a free value (log entry
107). -/
def tapPixel (dt v : Nat) : Nat := if dt = 0x24 then Config.openOp 62 [v] % 65536 else v

/-- The width of a line made good (R119): padded with its last pixel of the same phase, or truncated. An empty line has no
such pixel and is padded with zeros, and a line of one pixel with that pixel in both phases (DESIGN CHOICE, log entry 32). -/
def fitWidth (w : Nat) (l : List Nat) : List Nat :=
  let n := l.length
  (upFrom 0 w).map (fun x =>
    if x < n then nth 0 l x
    else if n = 0 then 0
    else if (n - 1) % 2 = x % 2 then nth 0 l (n - 1)
    else if n = 1 then nth 0 l 0 else nth 0 l (n - 2))

/-! ### Pixel stages (R110–R114) -/

/-- BL[p] and GAIN[p] in force. -/
def State.blackOf (s : State) (n p : Nat) : Nat × Nat :=
  match p with
  | 0 => (s.forceF (F.IN_CTX_BL0_BL n), s.forceF (F.IN_CTX_BL0_GAIN n))
  | 1 => (s.forceF (F.IN_CTX_BL1_BL n), s.forceF (F.IN_CTX_BL1_GAIN n))
  | 2 => (s.forceF (F.IN_CTX_BL2_BL n), s.forceF (F.IN_CTX_BL2_GAIN n))
  | _ => (s.forceF (F.IN_CTX_BL3_BL n), s.forceF (F.IN_CTX_BL3_GAIN n))

/-- The black level of a pixel before the clip at 2^B - 1 (R110). -/
def blackRaw (bl gain x : Nat) : Nat := ((x - bl) * gain + 8192) / 16384

/-- Black level of line `y` of a context (R110): the pixels, and whether one clipped. -/
def State.blackLine (s : State) (n y depth : Nat) (l : List Nat) : List Nat × Bool :=
  let even := s.blackOf n (y % 2 * 2)
  let odd := s.blackOf n (y % 2 * 2 + 1)
  let v := (l.zip (upFrom 0 l.length)).map (fun e =>
    let b := if e.2 % 2 = 0 then even else odd
    blackRaw b.1 b.2 e.1)
  let top := 2 ^ depth - 1
  (v.map (fun x => min top x), v.any (fun x => decide (top < x)))

/-- A defect entry (Table IN-2): row, column, method. -/
structure Defect where
  row : Nat
  col : Nat
  method : Nat
deriving DecidableEq, Repr

/-- Decodes a defect entry. -/
def defectOf (w : Word) : Defect := ⟨bitsOf w.toNat 13 13, bitsOf w.toNat 0 13, bitsOf w.toNat 26 2⟩

/-- The active bank (R113). -/
def State.defBank (s : State) : SMap Word := if s.intake.active then s.intake.bank1 else s.intake.bank0

/-- The entries in ascending order up to the first that is out of order (R111). -/
def goodDefects (prev : Option (Nat × Nat)) : List Defect → List Defect
  | [] => []
  | d :: l =>
    if prev.all (fun p => decide (p.1 < d.row) || (p.1 == d.row && decide (p.2 < d.col))) then
      d :: goodDefects (some (d.row, d.col)) l
    else []

/-- The table of a context: the entries of the active bank when IN_DEF_CTRL names the context. -/
def State.defTable (s : State) (n : Nat) : List Defect :=
  if s.forceF F.IN_DEF_CTRL_CTX = n then
    (upFrom 0 (min 16384 (s.forceF F.IN_DEF_CTRL_COUNT))).map (fun i => defectOf (mget (dflt 0#32) s.defBank i))
  else []

/-- Columns and methods listed for a row. -/
def defectsIn (t : List Defect) (y : Nat) : List (Nat × Nat) := (t.filter (fun d => d.row == y)).map (fun d => (d.col, d.method))

/-- The nearest pixel of the same phase to the left that is not listed, or 0 (R112). -/
def leftGood (listed : List Nat) (l : List Nat) : Nat → Nat → Nat
  | 0, _ => 0
  | n + 1, c =>
    if c < 2 then 0
    else if listed.contains (c - 2) then leftGood listed l n (c - 2) else nth 0 l (c - 2)

/-- One corrected pixel (R112). What method 11b gives is not stated: log entry 22. -/
def defectPixel (w : Nat) (cur up : List (Nat × Nat)) (l : List Nat) (above : Option (List Nat)) (depth c m : Nat) : Nat :=
  let listed := cur.map (·.1)
  if m = 2 then 0
  else if m = 3 then Config.openOp 41 [c, nth 0 l c] % 2 ^ depth
  else
    let side := (if 2 ≤ c then [c - 2] else []) ++ (if c + 2 < w then [c + 2] else [])
    let a := ((side.filter (fun x => !listed.contains x)).map (fun x => nth 0 l x))
      ++ (match above with
        | some u => if m = 1 ∧ !(up.map (·.1)).contains c then [nth 0 u c] else []
        | none => [])
    if a.isEmpty then leftGood listed l (c + 1) c else (2 * a.foldl (· + ·) 0 + a.length) / (2 * a.length)

/-- A line after defect correction. -/
def defectLine (t : List Defect) (w depth y : Nat) (l : List Nat) (above : Option (List Nat)) : List Nat :=
  let cur := defectsIn t y
  let up := if 2 ≤ y then defectsIn t (y - 2) else []
  cur.foldl (fun acc e => if e.1 < w then setNth acc e.1 (defectPixel w cur up l above depth e.1 e.2) else acc) l

/-- No statistics yet. -/
def zeroStat : ZoneStat := ⟨0, 0, 0, false⟩

/-- Zone of an index along a side of `n` in a grid of `z` (R114): boundaries at floor(i × n / z). -/
def zoneOf (n z i : Nat) : Nat := if n = 0 then 0 else ((i + 1) * z - 1) / n

/-- Context, ZX, ZY and SATLVL of a word of IN_STAT_CFG (Table IN-6). -/
def statCtx (cfg : Nat) : Nat := bitsOf cfg 0 3
def statZx (cfg : Nat) : Nat := bitsOf cfg 3 5 + 1
def statZy (cfg : Nat) : Nat := bitsOf cfg 8 5 + 1
def statLvl (cfg : Nat) : Nat := bitsOf cfg 13 16

/-- Adds a corrected line to the statistics under the configuration of its frame (R114); row 0 begins them anew. `p` marks a line that
a poisoned word went into: what is derived from it is poisoned (R467). -/
def State.statLine (s : State) (cfg n w h y : Nat) (l : List Nat) (p : Bool) : State :=
  if statCtx cfg ≠ n then s
  else
    let zx := statZx cfg
    let zy := statZy cfg
    let lvl := statLvl cfg
    let s := if y = 0 then { s with intake := { s.intake with stat := [] } } else s
    let m := (l.zip (upFrom 0 l.length)).foldl (fun m e =>
      let key := (zoneOf h zy y * zx + zoneOf w zx e.2) * 4 + (y % 2 * 2 + e.2 % 2)
      let v := mget (dflt zeroStat) m key
      mset (dflt zeroStat) m key
        ⟨satAdd 32 v.sum e.1, max v.max e.1, if lvl ≤ e.1 then satAdd 16 v.sat 1 else v.sat, v.pois || p⟩) s.intake.stat
    { s with intake := { s.intake with stat := m } }

/-- Bytes of the statistics record (R114), with the poison of its zones and phases. -/
def statBytes (fs src flags zx zy : Nat) (m : SMap ZoneStat) : List (Byte × Bool) :=
  (leBytes 8 fs ++ leBytes 4 src ++ leBytes 4 flags ++ leBytes 2 zx ++ leBytes 2 zy ++ leBytes 44 0).map (fun b => (b, false))
    ++ (upFrom 0 (zx * zy * 4)).flatMap (fun i =>
      let v := mget (dflt zeroStat) m i
      (leBytes 4 v.sum ++ leBytes 2 v.max ++ leBytes 2 v.sat).map (fun b => (b, v.pois)))

/-! ### Writes to memory by a unit -/

/-- A Fore unit writes DRAM for itself: bytes, each poisoned or not. An address outside DRAM, or in the key regions or save
area, writes a record and nothing else (R30, R418, R488). -/
def State.unitPut (s : State) (unit a : Nat) (bs : List (Byte × Bool)) : State :=
  let n := bs.length
  if s.ddrSize < a + n then s.report { mkRec s.time.now unit 0x01 with addr := a, akind := 1 }
  else
    match s.dramDenied a n with
    | some cls => s.report { mkRec s.time.now unit cls with addr := a, akind := 1 }
    | none => (s.dramPut a (bs.map (·.1))).dramMark a (bs.map (·.2))

/-- A Fore unit reads DRAM for itself. -/
def State.unitGet (s : State) (unit a n : Nat) : List (Byte × Bool) × State :=
  if s.ddrSize < a + n then s.refuseRead n { mkRec s.time.now unit 0x01 with addr := a, akind := 1 }
  else
    match s.dramDenied a n with
    | some cls => s.refuseRead n { mkRec s.time.now unit cls with addr := a, akind := 1 }
    | none => s.dramGet a n

/-- Bytes of pixels. -/
def pixelRow (k : Nat) (l : List Nat) : List (Byte × Bool) := l.flatMap (fun v => (leBytes k v).map (fun b => (b, false)))

/-! ### Taps T0 and T1 (R115, R116) -/

/-- A tap. -/
def State.inTap (s : State) (t : Fin 2) : TapSt := vget s.intake.taps t

/-- State with a tap replaced. -/
def State.setInTap (s : State) (t : Fin 2) (x : TapSt) : State :=
  { s with intake := { s.intake with taps := vset s.intake.taps t x } }

/-- The first free buffer of a ring of `n`, from `b` on. -/
def freeBuf (full : List Bool) (n b : Nat) : Option Nat :=
  ((upFrom 0 n).map (fun i => (b + i) % n)).find? (fun i => !(nth true full i))

/-- A frame starts at a tap of a context: the next free buffer, or a drop (R105, R116). -/
def State.tapStart (s : State) (t : Fin 2) (n : Nat) : State :=
  let s := if s.getF (F.IN_TAP_CTX t) = n then s.takeForces [(F.IN_TAP_ENABLE t).off, (F.IN_TAP_BASE t).off, (F.IN_TAP_PITCH t).off]
    else s
  let x := s.inTap t
  if s.forceF (F.IN_TAP_CTX t) ≠ n then s
  else if s.forceF (F.IN_TAP_ENABLE t) = 0 then s.setInTap t { x with buf := none }
  else
    let k := s.forceF (F.IN_TAP_NBUF t) + 1
    match freeBuf x.full k x.nextBuf with
    | none => s.setInTap t { x with buf := none, drops := x.drops + 1 }
    | some b => s.setInTap t { x with buf := some b, nextBuf := (b + 1) % k }

/-- A tap writes line `y` of a frame of height `h`. -/
def State.tapLine (s : State) (t : Fin 2) (n h y : Nat) (bs : List (Byte × Bool)) : State :=
  if s.forceF (F.IN_TAP_ENABLE t) = 0 ∨ s.forceF (F.IN_TAP_CTX t) ≠ n then s
  else
    match (s.inTap t).buf with
    | none => s
    | some b =>
      let pitch := s.forceF (F.IN_TAP_PITCH t)
      s.unitPut 0x04 (s.forceF (F.IN_TAP_BASE t) * 256 + b * pitch * h + y * pitch) bs

/-- The frame of a tap ends: its buffer is full, and cause 11 is raised. -/
def State.tapEnd (s : State) (t : Fin 2) (n : Nat) : State :=
  if s.forceF (F.IN_TAP_CTX t) ≠ n then s
  else
    let x := s.inTap t
    match x.buf with
    | none => s
    | some b => (s.setInTap t { x with buf := none, full := setNth x.full b true }).raiseCause 11

/-! ### Lines -/

/-- Flag bits of a frame (Table IN-5). -/
def flShort : Nat := 1
def flLong : Nat := 2
def flCrc : Nat := 4
def flWidth : Nat := 8
def flNofe : Nat := 16
def flDrop : Nat := 32
def flClip : Nat := 64
def flOrder : Nat := 128

/-- Changes the open frame of a context. -/
def State.modIn (s : State) (n : Fin 8) (f : InFrame → InFrame) : State :=
  let c := s.inCtx n
  s.setInCtx n { c with cur := c.cur.map f }

/-- Sets a flag of the open frame. -/
def State.flagIn (s : State) (n : Fin 8) (b : Nat) : State := s.modIn n (fun f => { f with flags := f.flags ||| b })

/-- A corrected line two rows above, in a history. -/
def corAbove (h : List InLine) (y : Nat) : Option InLine := if 2 ≤ y then h.find? (fun e => e.y + 2 == y) else none

/-- Keeps a line with the one before it. -/
def keepLine (h : List InLine) (e : InLine) : List InLine := (h ++ [e]).drop ((h.length + 1) - 3)

/-- Hands a corrected line of CTX0 to the Edge engine, or counts it in NOJOB while no in-line job is loaded (R102). -/
def State.lineToEdge (s : State) (l : List Nat) (p : Bool) : State :=
  match s.jobs.find? (fun j => j.inline && j.inctx == 0) with
  | none => s.bump (F.IN_CTX_NOJOB 0) 1
  | some j =>
    let fs := ((s.inCtx 0).cur.map (·.fs)).getD 0
    s.modJob j.id (fun j =>
      { j with frames := j.frames.map (fun x => if x.fs = fs ∧ x.ctx = 0 ∧ !x.ended then { x with lines := x.lines ++ [(l, p)] } else x) })

/-- How a line is made: as received, from the line two rows above, or zeros (R118). -/
inductive LineFill where
  | keep | two | zero
deriving DecidableEq, Repr

/-- The fill of a line that BADLINE rules (R118, R120). A line not received under BADLINE 00b has nothing received to keep:
zeros (log entry 32). -/
def badFill (b : Nat) (received : Bool) : LineFill :=
  if b = 1 then .two else if b = 2 then .zero else if received then .keep else .zero

/-- The address of line `y` of the open frame's buffer (R104). -/
def InFrame.addr (f : InFrame) (b y : Nat) : Nat := f.base + b * f.pitch * f.h + y * f.pitch

/-- The row of a frame that is made, not received: zeros, or the corrected line two rows above, zeros in rows 0 and 1 (R118). -/
def madeLine (w y : Nat) (two : Bool) (up : Option InLine) : InLine :=
  match two, up with
  | true, some u => { u with y := y }
  | _, _ => ⟨y, List.replicate w 0, List.replicate w 0⟩

/-- The in-line path accepts RAW10, RAW12, RAW14 and RAW16 (R97). -/
def inlineType (dt : Nat) : Bool := decide (0x2B ≤ dt) && decide (dt ≤ 0x2E)

/-- Places line `y` of the open frame of a context: pipeline L for the in-line path, unpacked pixels to the buffer for the
memory path (R102, R104). Types that are not RAW bypass the stages (R109), and a type that the in-line path does not accept goes to
the taps alone (R97). -/
def State.placeLine (s : State) (n : Fin 8) (f : InFrame) (y : Nat) (l : List Nat) (fill : LineFill) : State :=
  let s := if fill = .keep then s else s.modIn n (fun g => { g with made := g.made ++ [(y, fill == .two)] })
  if f.inline then
    let up := corAbove f.hist y
    let depth := depthOf f.dt
    let raw := (rawBytes f.dt).isNone
    let (e, clip) : InLine × Bool :=
      if fill ≠ .keep then (madeLine f.w y (fill == .two) up, false)
      else if raw then
        let (b, c) := s.blackLine n.val y depth l
        (⟨y, b, defectLine (goodDefects none (s.defTable n.val)) f.w depth y b (up.map (·.blk))⟩, c)
      else (⟨y, l, l⟩, false)
    let s := if clip then s.flagIn n flClip else s
    let s := s.modIn n (fun f => { f with hist := keepLine f.hist e })
    let s := if raw then s.statLine f.stat.1 n.val f.w f.h y e.cor false else s
    let s := s.tapLine 1 n.val f.h y (pixelRow 2 (e.cor.map (tapPixel f.dt)))
    if inlineType f.dt then s.lineToEdge e.cor false else s
  else
    match f.buf with
    | none => s
    | some b =>
      let k := pixelBytes f.dt
      match fill with
      | .keep => s.unitPut 0x04 (f.addr b y) (pixelRow k l)
      | .two =>
        if y < 2 then s.unitPut 0x04 (f.addr b y) (pixelRow k (List.replicate f.w 0))
        else
          let (bs, s) := s.unitGet 0x04 (f.addr b (y - 2)) (f.w * k)
          s.unitPut 0x04 (f.addr b y) bs
      | .zero => s.unitPut 0x04 (f.addr b y) (pixelRow k (List.replicate f.w 0))

/-- Places lines of one fill from row `y` on. -/
def State.fillLines (n : Fin 8) (f : InFrame) (fill : LineFill) : Nat → Nat → State → State
  | 0, _, s => s
  | k + 1, y, s =>
    let f := ((s.inCtx n).cur).getD f
    State.fillLines n f fill k (y + 1) (s.placeLine n f y [] fill)

/-- A received line of the open frame (R118–R120, R122). -/
def State.takeLine (s : State) (n : Fin 8) (f : InFrame) (payload : List Byte) (crcOk : Bool) : State :=
  let row := if f.numbered then f.lnum.getD f.next else f.next
  let s := s.modIn n (fun f => { f with last := s.time.now, lnum := none })
  let s := if crcOk then s else (s.bump (F.IN_CTX_CNT_CRC n) 1).flagIn n flCrc
  if f.h ≤ row then s.flagIn n flLong
  else
    let px := unpack f.dt payload
    let s := if px.length < f.w then s.flagIn n flWidth else s
    let l := fitWidth f.w px
    let fill := if crcOk then .keep else badFill f.badline true
    -- R115: T0 takes the pixels after unpack, or the payload as received
    let t0 := if s.forceF (F.IN_TAP_PACKED 0) = 1 then payload.map (fun b => (b, false)) else pixelRow 2 (l.map (tapPixel f.dt))
    let s := s.tapLine 0 n.val f.h row t0
    if row < f.next then
      -- a line numbered behind one already passed: pipeline L cannot take it back (log entry 33)
      -- pipeline M takes the line received, not the fill that stood in for it
      if f.inline then s
      else (s.modIn n (fun f => { f with made := f.made.filter (fun q => q.1 != row) })).placeLine n f row l fill
    else
      let s := State.fillLines n f (badFill f.badline false) (row - f.next) f.next s
      let g := ((s.inCtx n).cur).getD f
      (s.placeLine n g row l fill).modIn n (fun f => { f with next := row + 1 })

/-! ### Packets -/

/-- What a packet header's ECC finds (R117): 0 no error, 1 a single-bit error, 2 an uncorrectable one. Answers whether the
packet goes on. -/
def State.headerEcc (s : State) (p : Fin 2) (ecc : Nat) : State × Bool :=
  if 2 ≤ ecc then (s.bump (F.IN_PORT_ERR_ECC2 p) 1, false)
  else if ecc = 1 then (s.bump (F.IN_PORT_ERR_ECC1 p) 1, true) else (s, true)

/-- A virtual channel as a port decodes it: VC 0–3 on port A, VC 0–15 on port B (Table IN-1). -/
def vcOf (p : Fin 2) (vc : Nat) : Nat := if p = 0 then vc % 4 else vc % 16

/-- A port receives: its PHY is enabled. -/
def State.portOn (s : State) (p : Fin 2) : Bool := !s.off && s.flag (F.IN_PORT_CFG_ENABLE p)

/-- The lowest-numbered enabled context that matches (R100). -/
def State.matchCtx (s : State) (p : Fin 2) (vc dt : Nat) : Option (Fin 8) :=
  allCores.find? (fun (n : Fin 8) => s.forceF (F.IN_CTX_ENABLE n) == 1 && s.forceF (F.IN_CTX_PORT n) == p.val
    && s.forceF (F.IN_CTX_VC n) == vc && s.forceF (F.IN_CTX_DT n) == dt)

/-- LONG_PACKET (R100): port, virtual channel, data type, header ECC result, whether the CRC holds, and payload. DESIGN CHOICE: a
packet of an enabled context with no open frame is discarded and counted nowhere (log entry 107). -/
def execLongPacket (p : Fin 2) (vc dt ecc : Nat) (crcOk : Bool) (payload : List Byte) (s : State) : Out :=
  if !s.portOn p then .next s
  else
    let (s, go) := s.headerEcc p ecc
    if !go then .next s
    else if !dtKnown dt then .next (s.bump (F.IN_PORT_STAT_IGNORED p) 1)
    else
      match s.matchCtx p (vcOf p vc) dt with
      | none => .next (s.bump (F.IN_PORT_STAT_UNMATCHED p) 1)
      | some n =>
        match (s.inCtx n).cur with
        | none => .next s
        | some f => .next (s.takeLine n f payload crcOk)

/-- Contexts with an open frame that arrives on a port and virtual channel. -/
def State.openOn (s : State) (p : Fin 2) (vc : Nat) : List (Fin 8) :=
  allCores.filter (fun (n : Fin 8) => (s.inCtx n).cur.isSome && s.forceF (F.IN_CTX_PORT n) == p.val && s.forceF (F.IN_CTX_VC n) == vc)

/-- LINE_START_PACKET (R120): the line that follows goes to the number it carries; the first line of a frame is line 1. -/
def execLineStartPacket (p : Fin 2) (vc ecc line : Nat) (s : State) : Out :=
  if !s.portOn p then .next s
  else
    let (s, go) := s.headerEcc p ecc
    if !go || line == 0 then .next s
    else .next ((s.openOn p (vcOf p vc)).foldl (fun s n => s.modIn n (fun f => { f with lnum := some (line - 1) })) s)

/-- Writes the statistics record of a frame, under its own configuration and base, and raises its interrupt (R114). Record b lies at
IN_STAT_BASE plus b records (log entry 34). -/
def State.statEnd (s : State) (n : Fin 8) (fs src flags : Nat) (st : Nat × Nat) : State :=
  if statCtx st.1 ≠ n.val then s
  else
    let bs := statBytes fs src flags (statZx st.1) (statZy st.1) s.intake.stat
    let s := s.unitPut 0x04 (st.2 * 256 + s.intake.statNext * bs.length) bs
    ({ s with intake := { s.intake with stat := [], statNext := 1 - s.intake.statNext } }).raiseCause (12 + n.val)

/-- The frame of a context ends (R104, R121, R125): missing lines, buffer full, statistics and taps, the in-line job's input
complete. DESIGN CHOICE: rows that no line pair was received for, where there is no last pair to repeat, are zeros (log entry
135). -/
def State.endFrame (s : State) (n : Fin 8) (nofe : Bool) : State :=
  match (s.inCtx n).cur with
  | none => s
  | some f =>
    let s := if nofe then s.flagIn n flNofe else s
    let s := if f.next < f.h then (State.fillLines n f .two (f.h - f.next) f.next s).flagIn n flShort else s
    let f := ((s.inCtx n).cur).getD f
    let c := s.inCtx n
    let bufs := match f.buf with
      | none => c.bufs
      | some b => setNth c.bufs b ⟨true, false, f.fs, f.src, f.w, f.h, f.dt, f.base, f.pitch, f.flags, f.made, f.stat⟩
    let s := s.setInCtx n { c with cur := none, bufs := bufs, fe := s.time.now }
    let s := (s.setF (F.IN_CTX_STAT_FLAGS n) f.flags).bumpWrap (F.IN_CTX_STAT_FRAMES n) 1
    let s := s.tapEnd 0 n.val
    let s := ([0, 1] : List (Fin 2)).foldl (fun s (m : Fin 2) =>
      if s.forceF (F.IN_I2C_CTRL_FL_CTX m) = n.val then
        { s with intake := { s.intake with i2c := vset s.intake.i2c m { vget s.intake.i2c m with ran := false } } }
      else s) s
    if f.inline then
      let s := (s.statEnd n f.fs f.src f.flags f.stat).tapEnd 1 n.val
      { s with jobs := s.jobs.map (fun (j : Job) => if j.inline && j.inctx == n.val then
          { j with frames := j.frames.map (fun (x : JFrame) => if x.fs = f.fs then { x with ended := true, flags := f.flags } else x) }
        else j) }
    else (s.jobs.filter (fun (j : Job) => j.inctxs.contains n.val)).foldl (fun s j => s.memNext j.id) s

/-- FRAME_END_PACKET (R104). -/
def execFrameEndPacket (p : Fin 2) (vc ecc : Nat) (s : State) : Out :=
  if !s.portOn p then .next s
  else
    let (s, go) := s.headerEcc p ecc
    if !go then .next s else .next ((s.openOn p (vcOf p vc)).foldl (fun s n => s.endFrame n false) s)

/-- The registers of a context whose effect point is its frame start. -/
def inRegs (n : Nat) : List Nat :=
  [(F.IN_CTX_ENABLE n).off, (F.IN_CTX_SIZE_WIDTH n).off, (F.IN_CTX_BASE n).off, (F.IN_CTX_PITCH n).off,
   (F.IN_CTX_BL0_BL n).off, (F.IN_CTX_BL1_BL n).off, (F.IN_CTX_BL2_BL n).off, (F.IN_CTX_BL3_BL n).off]

/-- An exchange of the defect banks asked for takes effect at the context's frame start (R113), and the order of the
entries is checked (R111). -/
def State.defectStart (s : State) (n : Fin 8) : State :=
  if s.getF F.IN_DEF_CTRL_CTX ≠ n.val then s
  else
    let s := s.takeForce F.IN_DEF_CTRL_CTX.off
    let s := if s.intake.swap then
        { s with intake := { s.intake with swap := false, active := !s.intake.active } } else s
    let t := s.defTable n.val
    let g := goodDefects none t
    if g.length < t.length then
      ((s.setF F.IN_DEF_CTRL_DEFECT_ORDER 1).setF F.IN_DEF_SKIP (t.length - g.length)).flagIn n flOrder
    else s.setF F.IN_DEF_SKIP 0

/-- Counts a frame of the session's gating context in whose blanking, from its end `fe` to the next frame start, no step started
while the session was running (R354). AD_CFG is in force from the start of the last step (R21). -/
def State.adSkip (s : State) (n : Fin 8) (fe : Nat) : State :=
  if s.forceF F.AD_CFG_GATE_CTX = n.val ∧ s.jobs.any (fun j => j.session && j.state == .running && decide (j.lastStep < fe))
      ∧ 1 < (s.inCtx n).starts then s.bump F.AD_SKIP 1 else s

/-- A late frame list (R130): it has not finished at the frame start of its context. -/
def State.i2cLate (s : State) (n : Nat) : State :=
  ([0, 1] : List (Fin 2)).foldl (fun s (m : Fin 2) =>
    if s.forceF (F.IN_I2C_CTRL_FL_CTX m) = n ∧ (vget s.intake.i2c m).run = .frame then s.setF (F.IN_I2C_STAT_LATE m) 1 else s) s

/-- Opens a frame of a context whose values have just come into force (R103–R105). -/
def State.openFrame (s : State) (n : Fin 8) (p : Fin 2) : State :=
  let c := s.inCtx n
  let t := s.time.now
  let inline := n == 0 && s.forceF (F.IN_CTX_PATH n) == 1
  let nb := s.forceF (F.IN_CTX_NBUF n) + 1
  let buf := if inline then none else freeBuf (c.bufs.map (·.full)) nb c.nextBuf
  let drop := !inline && buf.isNone
  let dt := s.forceF (F.IN_CTX_DT n)
  let h := s.forceF (F.IN_CTX_SIZE_HEIGHT n)
  let f : InFrame :=
    { fs := t, src := c.count, w := s.forceF (F.IN_CTX_SIZE_WIDTH n), h := h, dt := dt,
      inline := inline, badline := s.forceF (F.IN_CTX_BADLINE n), timeout := s.forceF (F.IN_CTX_TIMEOUT n),
      numbered := s.forceF (F.IN_PORT_CFG_LNUM p) == 1, base := s.forceF (F.IN_CTX_BASE n) * 256,
      pitch := s.forceF (F.IN_CTX_PITCH n), flags := if drop then flDrop else 0, next := 0, lnum := none, last := t,
      buf := buf, hist := [], made := [], stat := (0, 0) }
  let nxt := buf.elim c.nextBuf (fun b => (b + 1) % nb)
  let s := s.setInCtx n { c with cur := some f, nextBuf := nxt, count := (c.count + 1) % 2 ^ 32, fsPrev := c.fs, fs := t, starts := c.starts + 1 }
  let s := s.setF (F.IN_CTX_FS n) t
  let s := if drop then s.bump (F.IN_CTX_CNT_DROP n) 1 else s
  let s := s.defectStart n
  let s := if s.getF F.IN_STAT_CFG_CTX = n.val then s.takeForces [F.IN_STAT_CFG_CTX.off, F.IN_STAT_BASE.off] else s
  let st := ((s.inForce F.IN_STAT_CFG_CTX.off).toNat, (s.inForce F.IN_STAT_BASE.off).toNat)
  let s := s.modIn n (fun f => { f with stat := st })
  let s := s.tapStart 0 n.val
  let s := if inline then s.tapStart 1 n.val else s
  let s := ([0, 1] : List (Fin 2)).foldl (fun s (m : Fin 2) =>
    if s.getF (F.IN_I2C_CTRL_FL_CTX m) = n.val then s.takeForce (F.IN_I2C_CTRL_FL_EN m).off else s) s
  let s := s.adSkip n c.fe
  if inline && inlineType dt then s.inlineStart n.val c.count t h (depthOf dt) else s

/-- A frame start reaches a context named by the values last written (R22, R98, R103, R123). -/
def State.startFrame (s : State) (n : Fin 8) (p : Fin 2) : State :=
  let s := (s.endFrame n true).i2cLate n.val
  let s := s.takeForces (inRegs n.val)
  if s.forceF (F.IN_CTX_ENABLE n) = 0 then s
  else if badSize (s.forceF (F.IN_CTX_SIZE_WIDTH n)) || badSize (s.forceF (F.IN_CTX_SIZE_HEIGHT n)) then
    -- R98: refused, and disabled
    ((s.setF (F.IN_CTX_ENABLE n) 0).takeForce (F.IN_CTX_ENABLE n).off).glbError F.GLB_STATUS_BAD_ENCODING
  else s.openFrame n p

/-- FRAME_START_PACKET (R103). -/
def execFrameStartPacket (p : Fin 2) (vc ecc : Nat) (s : State) : Out :=
  if !s.portOn p then .next s
  else
    let (s, go) := s.headerEcc p ecc
    if !go then .next s
    else
      let s := s.takeForce (F.IN_PORT_CFG_LNUM p).off
      let l := allCores.filter (fun (n : Fin 8) => s.getF (F.IN_CTX_PORT n) == p.val && s.getF (F.IN_CTX_VC n) == vcOf p vc)
      -- R123: a frame open under the values in force ends, whatever has been written since
      let s := (s.openOn p (vcOf p vc)).foldl (fun s n => s.endFrame n true) s
      .next (l.foldl (fun s n => s.startFrame n p) s)

/-- FRAME_TIMEOUT (R124): TIMEOUT µs since the last line, or since the frame start when no line has come. -/
def execFrameTimeout (n : Fin 8) (s : State) : Out :=
  match (s.inCtx n).cur with
  | none => .next s
  | some f =>
    if f.timeout ≠ 0 ∧ f.last + f.timeout * 1000 ≤ s.time.now then .next (s.endFrame n true) else .next s

/-- GENERIC_SHORT_PACKET (R96): ignored and counted. -/
def execGenericShortPacket (p : Fin 2) (s : State) : Out :=
  if s.portOn p then .next (s.bump (F.IN_PORT_STAT_IGNORED p) 1) else .next s

/-- ULPS (R96): the lanes of a port enter or leave it. -/
def execUlps (p : Fin 2) (on : Bool) (s : State) : Out :=
  .next (s.setF (F.IN_PORT_STAT_ULPS p) (if on then 1 else 0))

/-! ### Deskew (R107, R108) -/

/-- The mismatch in 0.1 mm of a skew in steps of 1/64 UI at a rate in Mb/s, rounded RNA (R107). With PROP 0 it is not
stated. -/
def skewMm (prop rate : Nat) (steps : Int) : Int :=
  let d := rate * 64 * prop
  if d = 0 then (Config.openOp 44 [prop, rate, unsigned 8 steps] % 65536 : Nat)
  else
    let m : Nat := (2 * steps.natAbs * 160000000 + d) / (2 * d)
    if steps < 0 then -(m : Int) else m

/-- SKEW registers of a port and lane. -/
def skewRegs (p : Fin 2) (n : Nat) : Fld × Fld :=
  if p = 0 then (F.IN_PORTA_SKEW_STEPS n, F.IN_PORTA_SKEW_MM n) else (F.IN_PORTB_SKEW_STEPS n, F.IN_PORTB_SKEW_MM n)

/-- DESKEW_BURST (R107, R108): the lane rate in Mb/s and the skew of each lane in steps. -/
def execDeskewBurst (p : Fin 2) (rate : Nat) (steps : List Int) (s : State) : Out :=
  if !s.portOn p then .next s
  else
    let prop := s.getF (F.IN_PORT_CFG_PROP p)
    .next (((steps.take 4).zip (upFrom 0 4)).foldl (fun s e =>
      let (fs, fm) := skewRegs p e.2
      let s := (s.setF fs (unsigned 8 e.1)).setF fm (unsigned 16 (skewMm prop rate e.1))
      let s := if 24 < e.1.natAbs then s.setF (F.IN_PORT_STAT_SKEW_WARN p) 1 else s
      if 32 < e.1.natAbs then s.setF (F.IN_PORT_STAT_SKEW_RANGE p) 1 else s) s)

/-! ### Pipeline M (R106) -/

/-- Line `y` of a job's memory-path frame from its buffer through the pixel stages: the line and its poison. -/
def State.lineM (s : State) (n : Fin 8) (b : Nat) (v : InBuf) (y : Nat) : (List Nat × Bool) × State :=
  let k := pixelBytes v.dt
  let s := if y = 0 then s.tapStart 1 n.val else s
  let (bs, s) := s.unitGet 0x04 (v.base + b * v.pitch * v.h + y * v.pitch) (v.w * k)
  let px := groupLe k v.w (bs.map (fun e => e.1.toNat))
  let p := bs.any (·.2)
  let (l, s) : List Nat × State :=
    if (rawBytes v.dt).isSome then (px, s)
    else
      let depth := depthOf v.dt
      let c := s.inCtx n
      let up := corAbove c.histM y
      let (e, clip) : InLine × Bool :=
        match v.made.find? (fun q => q.1 == y) with
        | some q => (madeLine v.w y q.2 up, false)
        | none =>
          let (bl, clip) := s.blackLine n.val y depth px
          (⟨y, bl, defectLine (goodDefects none (s.defTable n.val)) v.w depth y bl (up.map (·.blk))⟩, clip)
      let bufs := if clip then setNth c.bufs b { v with flags := v.flags ||| flClip } else c.bufs
      let s := s.setInCtx n { c with histM := keepLine c.histM e, bufs := bufs }
      let s := if clip then s.setF (F.IN_CTX_STAT_FLAGS n) (s.getF (F.IN_CTX_STAT_FLAGS n) ||| flClip) else s
      (e.cor, s.statLine v.stat.1 n.val v.w v.h y e.cor p)
  -- R467: what is derived from a poisoned word is poisoned
  let s := s.tapLine 1 n.val v.h y ((pixelRow 2 (l.map (tapPixel v.dt))).map (fun b => (b.1, p)))
  let s := if y + 1 = v.h then
      let flags := ((s.inCtx n).bufs[b]?.getD v).flags
      (s.statEnd n v.fs v.src flags v.stat).tapEnd 1 n.val
    else s
  ((l, p), s)

/-! ### Releases and the defect table -/

/-- A write of IN_CTXn_RELEASE frees a full buffer (R105). -/
def State.inReleaseWrite (s : State) (n : Fin 8) (m : Master) (v : Word) : State :=
  s.regWrite false m (F.IN_CTX_RELEASE_IDX n).off v.toNat (fun s =>
    let c := s.inCtx n
    let b := v.toNat % 8
    match c.bufs[b]? with
    | none => s
    | some e => if e.full then s.setInCtx n { c with bufs := setNth c.bufs b { e with full := false, taken := false } } else s)

/-- IN_CTX_RELEASE (R105). -/
def execInCtxRelease (n : Fin 8) (m : Master) (v : Word) (s : State) : Out := .next (s.inReleaseWrite n m v)

/-- A write of an Intake tap's release register (R115). -/
def State.inTapReleaseWrite (s : State) (t : Fin 2) (m : Master) (v : Word) : State :=
  s.regWrite false m (F.IN_TAP_RELEASE_IDX t).off v.toNat (fun s =>
    let x := s.inTap t
    s.setInTap t { x with full := setNth x.full (v.toNat % 8) false })

/-- A write of IN_DEF_CTRL; SWAP asks for an exchange at the context's next frame start (R113). -/
def State.defCtrlWrite (s : State) (m : Master) (v : Word) : State :=
  s.regWrite false m F.IN_DEF_CTRL_SWAP.off v.toNat (fun s =>
    if v.toNat % 2 = 1 then { s with intake := { s.intake with swap := true } } else s)

/-- DEFECT_SWAP (R113). -/
def execDefectSwap (m : Master) (v : Word) (s : State) : Out := .next (s.defCtrlWrite m (v ||| 1#32))

/-- A write of word `w` of the window IN_DEF_TABLE: entry PAGE × 4,096 + w of the inactive bank (R113). -/
def State.defTableWrite (s : State) (m : Master) (w v : Nat) : State :=
  s.regWrite false m (0x048000 + 4 * w) v (fun s =>
    let e := s.getF F.IN_DEF_CTRL_PAGE * 4096 + w
    let x := BitVec.ofNat 32 v
    if s.intake.active then { s with intake := { s.intake with bank0 := mset (dflt 0#32) s.intake.bank0 e x } }
    else { s with intake := { s.intake with bank1 := mset (dflt 0#32) s.intake.bank1 e x } })

end Sys2Proof.Machine
end

