-- ==== Sys2Proof/Machine/Lines.lean ====
section
/-! DEFINITION. Outfeed's source store (R383) and the taps T2 and T3 (R382): what a row from the Edge engine is, which
stream lines still read it, and where the taps copy it. -/

namespace Sys2Proof.Machine

/-! ### Edge outputs -/

/-- Two ECONV records, the first right after the second, form one layer split by output channels (Table MP-1, R315): the same SRC,
DST and kernel size. The channels of the later one follow those of the earlier in DST (log entry 101). -/
def splitPart (r p : EdgeRec) : Bool :=
  recB r 0 1 == 2 && recB p 0 1 == 2 && recB r 1 1 == recB p 1 1 && recB r 2 1 == recB p 2 1 && recB r 6 1 == recB p 6 1

/-- Channels that an ECONV record and the parts of its layer ahead of it give; those records newest first. -/
def splitChannels (r : EdgeRec) : List EdgeRec → Nat
  | [] => recB r 5 1
  | p :: rs => recB r 5 1 + (if splitPart r p then splitChannels p rs else 0)

/-- Channels of an Edge buffer, and whether it holds labels: its writer among records in reverse (Table MP-3). -/
def bufInfo : List EdgeRec → Nat → Option (Nat × Bool)
  | [], _ => none
  | r :: rs, b =>
    if recB r 2 1 ≠ b then bufInfo rs b
    else
      match recB r 0 1 with
      | 1 => some (4, false)
      | 2 => some (splitChannels r rs, false)
      | 4 => some (recB r 5 1, false)
      | 5 => some (recB r 4 1, false)
      | 6 => some (1, true)
      | _ => bufInfo rs b

/-- Channels of an Edge output of a job, and whether it holds labels; none when no OUT record names it. -/
def Job.outInfo (j : Job) (o : Nat) : Option (Nat × Bool) :=
  match j.edge.recs.find? (fun r => recB r 0 1 == 9 && recB r 4 1 == o) with
  | none => none
  | some r => bufInfo j.edge.recs.reverse (recB r 1 1)

/-- Columns of an Edge output. -/
def Job.outCols (j : Job) (o : Nat) : Nat := j.width * j.outScale o / j.outDown o

/-- Bytes of a row of an Edge output in the source store (R383). -/
def Job.outBytes (j : Job) (o : Nat) : Nat :=
  match j.outInfo o with
  | none => 0
  | some (c, label) => j.outCols o * (if label then c else 2 * c)

/-! ### Streams -/

/-- A stream. -/
def State.stream (s : State) (n : Fin 6) : StreamSt := vget s.out.st n

/-- State with a stream replaced. -/
def State.setStream (s : State) (n : Fin 6) (x : StreamSt) : State := { s with out := { s.out with st := vset s.out.st n x } }

/-- All streams. -/
def allStreams : List (Fin 6) := [0, 1, 2, 3, 4, 5]

/-- The job that claims a stream (R546). -/
def State.feeder (s : State) (n : Nat) : Option Job := s.jobs.find? (fun j => j.streams.contains n)

/-- Line time of a line of a frame (R371). -/
def OutFrame.lineTime (x : OutFrame) (i : Nat) : Nat := x.ref + x.cfg.offset + i * x.cfg.line

/-- The format has chroma planes at half resolution: a line and its pair are made together (R367). -/
def StreamGeo.half (g : StreamGeo) : Bool := decide (g.fmt ≤ 1)

/-- First line whose source rows a frame may still read. -/
def OutFrame.firstLine (x : OutFrame) : Nat :=
  -- a chroma line reads its pair's rows
  if x.cfg.geo.half then x.line / 2 * 2 else x.line

/-- A frame of a stream still reads a source row: a line that is not yet made reads it, and it was not missing at its
check (R375, R383). -/
def OutFrame.reads (x : OutFrame) (q : Nat) : Bool :=
  (upFrom x.firstLine (x.cfg.geo.oh - x.firstLine)).any (fun i =>
    !x.missing.contains i && (x.cfg.geo.rowsOf x.sh i).contains q)

/-- Some stream still reads a row of a frame of a job's Edge output (R383), or may: a stream on a generator's edges takes a
later frame at a later edge. A detection stream reads none (R378). -/
def State.rowWanted (s : State) (j : Job) (no o q : Nat) : Bool :=
  allStreams.any (fun n =>
    let x := s.stream n
    j.streams.contains n.val && (match x.cur with
      | some f => !f.cfg.mem && f.cfg.geo.fmt != 4 && f.cfg.src == o && f.job == j.id && f.frame == some no && f.reads q
      | none => false) ||
    (j.streams.contains n.val && s.streamOn n && s.forceF (F.OF_CFG_SRC_KIND n) == 0 && s.forceF (F.OF_CFG_SRC n) == o
      && (s.geo n).fmt != 4 && s.forceF (F.OF_CFG_TIMEREF n) != 0 && (match x.bound with
        | some (b, f) => b != j.id || decide (f < no)
        | none => true)))

/-- Drops the source rows that no stream reads any more (R383). -/
def State.pruneStore (s : State) : State :=
  { s with out := { s.out with store := s.out.store.filter (fun r =>
      match s.job r.job with
      | none => false
      | some j => s.rowWanted j r.frame r.out r.row) } }

/-- Bytes of the source store in use. -/
def State.storeUsed (s : State) : Nat :=
  s.out.store.foldl (fun a r => a + (match s.job r.job with
    | none => 0
    | some j => j.outBytes r.out)) 0

/-- Size of the source store (R383). -/
def storeSize : Nat := 4194304

/-! ### Taps T2 and T3 (R382) -/

/-- A tap: 0 for T2, 1 for T3. -/
def State.outTap (s : State) (t : Fin 2) : OutTap := vget s.out.taps t

/-- State with a tap replaced. -/
def State.setOutTap (s : State) (t : Fin 2) (x : OutTap) : State :=
  { s with out := { s.out with taps := vset s.out.taps t x } }

/-- The frame of a tap ends: its buffer is full and cause 11 is raised. -/
def State.tapClose (s : State) (t : Fin 2) : State :=
  let x := s.outTap t
  let s' := s.setOutTap t { x with buf := none, frame := none, full := match x.buf with
    | some b => setNth x.full b true
    | none => x.full }
  if x.buf.isSome then s'.raiseCause 11 else s'

/-- A tap turns to a frame of a job (Table OF-6): the frame it took ends, and the registers in force are those of the new
frame's start. -/
def State.tapTurn (s : State) (t : Fin 2) (job no : Nat) : State :=
  if (s.outTap t).frame = some (job, no) then s
  else
    let s := s.tapClose t
    let x := s.outTap t
    let c := ((x.shots.find? (fun e => e.1 == (job, no))).map (·.2)).getD { x.cfg with on := false }
    s.setOutTap t { x with frame := some (job, no), cfg := c, asked := false }

/-- A tap takes the next free buffer for its frame, or drops the frame (R105, R382). -/
def State.tapOpen (s : State) (t : Fin 2) : State :=
  let x := s.outTap t
  if x.asked then s
  else
    match freeBuf x.full x.cfg.nbuf x.nextBuf with
    | none => (s.setOutTap t { x with asked := true }).bump (F.OF_TAP_DROPS t) 1
    | some b => s.setOutTap t { x with asked := true, buf := some b, nextBuf := (b + 1) % x.cfg.nbuf }

/-- A tap takes row `y` of `h` rows of its frame: elements of `k` bytes, with their poison. The last row ends the frame. -/
def State.tapRow (s : State) (t : Fin 2) (h y k : Nat) (vals : List (List Nat)) (pois : List Bool) : State :=
  let s := s.tapOpen t
  let x := s.outTap t
  let bs := (vals.zip pois).flatMap (fun e => e.1.flatMap (fun v => (leBytes k v).map (fun b => (b, e.2))))
  match x.buf with
  | none => s
  | some b =>
    let s := s.unitPut 0x05 (x.cfg.base + b * x.cfg.pitch * h + y * x.cfg.pitch) bs
    if y + 1 = h then
      let x := s.outTap t
      (s.setOutTap t { x with buf := none, full := setNth x.full b true }).raiseCause 11
    else s

/-! ### A row arrives (R361, R383) -/

/-- Crop window of a stream for a frame of a job, and the Edge output it reads: those of its open frame, or else in force. -/
def State.tapStream (s : State) (j : Job) (no n : Nat) : StreamGeo × Option Nat :=
  match (s.stream ⟨n % 6, Nat.mod_lt _ (by decide)⟩).cur with
  | some f =>
    if f.job = j.id ∧ f.frame = some no then (f.cfg.geo, if f.cfg.mem then none else some f.cfg.src)
    else (s.geo n, if s.forceF (F.OF_CFG_SRC_KIND n) = 0 then some (s.forceF (F.OF_CFG_SRC n)) else none)
  | none => (s.geo n, if s.forceF (F.OF_CFG_SRC_KIND n) = 0 then some (s.forceF (F.OF_CFG_SRC n)) else none)

/-- The Edge engine hands row `q` of an Edge output to Outfeed: the taps copy it, and the store keeps it while a stream
reads it (R375: a row that comes after the checks of its lines is discarded). -/
def State.storeRow (s : State) (j : Job) (x : JFrame) (o q : Nat) (vals : List (List Nat)) (pois : List Bool) : State :=
  let no := x.no
  let label := (j.outInfo o).elim false (·.2)
  let k := if label then 1 else 2
  let s := if j.taps.contains 2 then s.tapTurn 0 j.id no else s
  let a := (s.outTap 0).cfg
  let s := if j.taps.contains 2 && a.on && a.src == o then s.tapRow 0 (j.rowsAt o x.h) q k vals pois else s
  let s := if j.taps.contains 3 then s.tapTurn 1 j.id no else s
  let b := (s.outTap 1).cfg
  let g := (s.tapStream j no b.src).1
  let s :=
    if j.taps.contains 3 && b.on && j.streams.contains b.src && (s.tapStream j no b.src).2 == some o
        && decide (g.cy ≤ q) && decide (q < g.cy + g.ch) then
      s.tapRow 1 g.ch (q - g.cy) k ((vals.drop g.cx).take g.cw) ((pois.drop g.cx).take g.cw)
    else s
  if s.rowWanted j no o q then
    let r : SrcRow := { job := j.id, frame := no, out := o, row := q, vals := vals, pois := pois }
    { s with out := { s.out with store := s.out.store ++ [r] } }
  else s

end Sys2Proof.Machine
end

