-- ==== Sys2Proof/Machine/Time.lean ====
section
/-! DEFINITION. Device time and the frame-sync generators (chapter 02, R83–R94; hold-over R520). -/

namespace Sys2Proof.Machine

/-! ### DTIME -/

/-- A DTIME value stays a 64-bit count. -/
def wrap64 (i : Int) : Nat := unsigned 64 i

/-- Aligns the Aft replica with the master's value `t`: a forward correction above 64 ns is a single step, any other is
slewed (R85). TSYNC reads 1 once no more than 2 ns are left (R84). -/
def State.alignAft (s : State) (t : Nat) : State :=
  let d : Int := (t : Int) - s.time.aft
  if 64 < d then { s.setF F.BRG_STATUS_TSYNC 1 with time := { s.time with aft := t, aftSlew := 0, syncing := false } }
  else
    let near := decide (-2 ≤ d) && decide (d ≤ 2)
    { s.setF F.BRG_STATUS_TSYNC (if near then 1 else 0) with time := { s.time with aftSlew := d, syncing := !near } }

/-- The Aft replica takes a step of DTIME that it has not taken yet (R86). -/
def State.aftStep (s : State) : State :=
  match s.time.stepPending with
  | none => s
  | some d =>
    { s.setF F.TIME_STATUS_STEPPING 0 with
      time := { s.time with aft := wrap64 (s.time.aft + d), stepPending := none } }

/-- The Aft replica takes a time message: the Fore DTIME it carries plus BRG_TDELAY (R47). While a step of DTIME is still to be taken
it aligns nothing: the message may have left before the step (R86). -/
def State.timeMessage (s : State) (t : Nat) : State :=
  if s.time.stepPending.isSome then s else s.alignAft ((t + s.getF F.BRG_STATUS_TDELAY) % 2 ^ 64)

/-- A core's cycle counters over `dt` ns: CORE_PERF_CYC in RUN at F_SET, and CORE_PERF_STALL while the issuing context
stands at a full queue (R139). -/
def State.cycles (dt : Nat) (k : Fin 8) (s : State) : State :=
  if s.pstate k ≠ 0 then s
  else
    let f := s.getF (F.PWR_ISL_ST_F_SET k)
    -- R575: a stretched clock runs at half rate
    let a := (s.core k).cycAcc + dt * (if (vget s.pwr.isl k).stretched then f / 2 else f)
    let x : Fin 3 := if s.getF (F.CORE_STATUS_ACTIVE k) = 0 then 0 else 1
    let st := (s.ctx k x).stalled.isSome || (s.ctx k x).stallG.isSome
    let s := (s.bumpWrap (F.CORE_PERF_CYC k) (a / 1000)).setCore k { s.core k with cycAcc := a % 1000 }
    if st then s.bumpWrap (F.CORE_PERF_STALL k) (a / 1000) else s

/-- One nanosecond of device time, with the rate trim of TIME_SLEW (R88) and the slewing of the Aft replica (R85).
DTIME stands still in OFF (R83). Log entry 2. -/
def State.tick (s : State) : State :=
  if s.off then s
  else
    let acc := s.time.trim + signed 24 (s.getF F.TIME_SLEW_PPB)
    let (dt, acc) : Nat × Int :=
      if 1000000000 ≤ acc then (2, acc - 1000000000) else if acc ≤ -1000000000 then (0, acc + 1000000000) else (1, acc)
    let edge := s.time.now / 1000 != (s.time.now + dt) / 1000
    let trim (dt : Nat) (left : Int) : Nat × Int :=
      if edge ∧ 0 < left then (dt + 1, left - 1) else if edge ∧ left < 0 ∧ 0 < dt then (dt - 1, left + 1) else (dt, left)
    let (dm, ms) := trim dt s.time.slew
    -- R84: a replica that is aligned, or being aligned, goes with the master's own slewing
    let (da, sl) := trim (if s.flag F.BRG_STATUS_TSYNC || s.time.syncing then dm else dt) s.time.aftSlew
    let near := s.time.syncing && decide (-2 ≤ sl) && decide (sl ≤ 2)
    let s := s.forCores (State.cycles dm)
    let s := if near then s.setF F.BRG_STATUS_TSYNC 1 else s
    { s with time := { s.time with now := (s.time.now + dm) % 2 ^ 64, aft := (s.time.aft + da) % 2 ^ 64, trim := acc,
                                   slew := ms, aftSlew := sl, syncing := s.time.syncing && !near } }

/-- Steps DTIME to a value (R86): the master and the Fore replicas at once, the Aft replica when the bridge has carried the
step. -/
def State.stepTime (s : State) (t : Nat) : State :=
  let d : Int := (t : Int) - s.time.now
  let p := s.time.stepPending.getD 0 + d
  { s.setF F.TIME_STATUS_STEPPING 1 with time := { s.time with now := t % 2 ^ 64, stepPending := some p } }

/-- TIME_CTRL.SET (R88): a step in READY, else refused. -/
def State.timeSetAct (s : State) (v : Word) : State :=
  if v.toNat % 2 = 0 then s
  else if s.off = false ∧ s.dev = devReady then s.stepTime (s.pair F.TIME_SET_LO_SET_LO.off F.TIME_SET_HI_SET_HI.off)
  else s.setF F.TIME_STATUS_STEP_REFUSED 1

/-- A write of TIME_CTRL. -/
def State.timeCtrlWrite (s : State) (m : Master) (v : Word) : State :=
  s.regWrite false m F.TIME_CTRL_SET.off v.toNat (fun s => s.timeSetAct v)

/-- TIME_SET (R88). -/
def execTimeSet (m : Master) (v : Word) (s : State) : Out := .next (s.timeCtrlWrite m (v ||| 1#32))

/-- DTIME_STEP_DONE (R86): every replica has taken the step. It crosses in the time class, behind the time messages already received
(R48). DESIGN CHOICE: while the bridge is not up nothing carries the step to the Aft half, and it stays pending (log entry 93). -/
def execDtimeStepDone (s : State) : Out := .next (if s.brgUp && (nth [] s.brg.f2a.rx 4).isEmpty then s.aftStep else s)

/-- TIME_SLEW_WRITE (R88): the value is clipped as `adjust` says. -/
def execTimeSlewWrite (m : Master) (v : Word) (s : State) : Out :=
  .next (s.regWrite false m F.TIME_SLEW_PPB.off v.toNat id)

/-! ### Frame-sync generators -/

/-- A generator. -/
def State.gen (s : State) (n : Fin 4) : FsgSt := vget s.fsg n

/-- State with a generator replaced. -/
def State.setGen (s : State) (n : Fin 4) (g : FsgSt) : State := { s with fsg := vset s.fsg n g }

/-- The registers of a generator whose effect point is its next edge. -/
def fsgRegs (n : Nat) : List Nat :=
  [(F.FSG_CTRL_ENABLE n).off, (F.FSG_START_LO n).off, (F.FSG_START_HI n).off, (F.FSG_PERIOD n).off, (F.FSG_FRAC n).off,
   (F.FSG_WIDTH n).off]

/-- START in force. -/
def State.fsgStart (s : State) (n : Nat) : Nat := s.forceF (F.FSG_START_LO n) + s.forceF (F.FSG_START_HI n) * 2 ^ 32

/-- PERIOD and FRAC in force, in units of 1/65,536 ns. -/
def State.fsgStep (s : State) (n : Nat) : Nat := s.forceF (F.FSG_PERIOD n) * 65536 + s.forceF (F.FSG_FRAC n)

/-- E_m = START + m × PERIOD + floor(m × FRAC / 65,536) (R92). -/
def State.fsgEdgeTime (s : State) (n m : Nat) : Nat := s.fsgStart n + m * s.fsgStep n / 65536

/-- The smallest m, from `m0` on, whose E_m lies in the future; none when the edges never get there. -/
def State.fsgNext (s : State) (n m0 : Nat) : Option Nat :=
  if s.time.now < s.fsgEdgeTime n m0 then some m0
  else
    let p := s.fsgStep n
    if p = 0 then none
    else some (max m0 (((s.time.now + 1 - s.fsgStart n) * 65536 + p - 1) / p))

/-- Takes the values of a generator into force and finds its next edge from index `m0` on. ONESHOT has edge 0 only. -/
def State.fsgLoad (s : State) (n : Fin 4) (m0 : Nat) : State :=
  let s := s.takeForces (fsgRegs n.val)
  let mode := s.forceF (F.FSG_CTRL_MODE n)
  (s.fsgNext n.val m0).elim (s.setGen n { s.gen n with armed := false })
    (fun m => s.setGen n { s.gen n with next := m, armed := mode == 0 || (mode == 1 && m == 0) })

/-- The time master sends every chip it reaches the DTIME of edge `m` of a generator (R520). -/
def State.sendEdgeTime (s : State) (n : Fin 4) (m : Nat) : State :=
  let me := s.getF F.LNK_CFG_CHIP
  ((upFrom 0 8).filter (fun c => c != me)).foldl (fun s c =>
    (s.linkSend { mkLink 3 lnkEdge 0 me c with win := n.val, inl := s.fsgEdgeTime n m % 2 ^ 64 }).getD s) s

/-- Sends the times of a generator's edges from index `sent` on, up to DTIME `t`. -/
def State.sendEdges (n : Fin 4) (t : Nat) : Nat → State → State
  | 0, s => s
  | fuel + 1, s =>
    let g := s.gen n
    if t < s.fsgEdgeTime n g.sent then s
    else State.sendEdges n t fuel ((s.sendEdgeTime n g.sent).setGen n { g with sent := g.sent + 1 })

/-- The time master sends the times of a generator's edges at least 10 µs ahead (R520). DESIGN CHOICE: at each edge, and when the
generator starts, the next edge's and those up to 10 µs behind it, at which the others can still be sent in time (log entry 117). A
ONESHOT generator has edge 0 only. -/
def State.sendEdge (s : State) (n : Fin 4) : State :=
  let g := s.gen n
  if s.flag F.LNK_CFG_TMASTER && s.flag (F.FSG_CTRL_ENABLE n) && g.armed then
    let s := s.setGen n { g with sent := max g.sent g.next }
    if s.forceF (F.FSG_CTRL_MODE n) = 1 then
      if g.sent ≤ g.next then (s.sendEdgeTime n g.next).setGen n { s.gen n with sent := g.next + 1 } else s
    else State.sendEdges n (s.fsgEdgeTime n g.next + 10000) 10002 s
  else s

/-- What a write of FSG_CTRL does: setting ENABLE starts the generator with its count at zero (R92). -/
def State.fsgCtrlAct (n : Fin 4) (was : Bool) (s : State) : State :=
  let on := s.flag (F.FSG_CTRL_ENABLE n)
  if on && !was then
    let s := s.setF (F.FSG_COUNT n) 0
    let s := s.setGen n { s.gen n with linkEdges := [], sent := 0, holdover := 0, lastEdge := 0, prevEdge := 0 }
    -- R92: a START that is not in the past gives edge 0
    let s := s.takeForces (fsgRegs n.val)
    (if s.time.now ≤ s.fsgStart n then
      s.setGen n { s.gen n with next := 0, armed := s.forceF (F.FSG_CTRL_MODE n) != 2 }
    else s.fsgLoad n 0).sendEdge n
  else if !on then s.setGen n { s.gen n with armed := false, level := false } else s

/-- The DTIME of the next edge of an enabled generator: its own (R92), the time master's (R94), or a hold-over edge at
its last period (R520). The Boolean says that it is a hold-over edge. -/
def State.fsgDue (s : State) (n : Fin 4) : Option (Nat × Bool) :=
  let g := s.gen n
  if !s.flag (F.FSG_CTRL_ENABLE n) then none
  else if s.forceF (F.FSG_CTRL_MODE n) = 2 then
    match g.linkEdges with
    | t :: _ => some (t, false)
    | [] =>
      if g.holdover < 4 ∧ g.prevEdge < g.lastEdge ∧ 0 < g.prevEdge then some (2 * g.lastEdge - g.prevEdge, true) else none
  else if g.armed then some (s.fsgEdgeTime n g.next, false) else none

/-- The registers of a trigger, which come into force at an edge of its generator. -/
def trigRegs (t : Nat) : List Nat := [(F.IN_TRIG_ENABLE t).off, (F.IN_TRIG_DELAY t).off, (F.IN_TRIG_WIDTH t).off]

/-- Triggers that follow a generator take an edge of it, due DELAY ns later (R133). -/
def State.trigEdges (s : State) (n : Fin 4) (e : Nat) : State :=
  ([0, 1] : List (Fin 2)).foldl (fun s (t : Fin 2) =>
    let s := if s.getF (F.IN_TRIG_GEN t) = n.val then s.takeForces (trigRegs t) else s
    if s.forceF (F.IN_TRIG_ENABLE t) = 1 ∧ s.forceF (F.IN_TRIG_GEN t) = n.val then
      let x := vget s.intake.trig t
      let d := (e + s.forceF (F.IN_TRIG_DELAY t), s.forceF (F.IN_TRIG_WIDTH t))
      { s with intake := { s.intake with trig := vset s.intake.trig t { x with due := x.due ++ [d] } } }
    else s) s

/-- The edge itself (R92, R93): the count, the pulse, and the times that triggers and references read. -/
def State.fsgFire (s : State) (n : Fin 4) (t : Nat) : State :=
  let s := s.bumpWrap (F.FSG_COUNT n) 1
  let w := s.forceF (F.FSG_WIDTH n)
  -- R94: PERIOD is ignored in SLAVE mode
  let bad := w = 0 ∨ (s.forceF (F.FSG_CTRL_MODE n) ≠ 2 ∧ s.forceF (F.FSG_PERIOD n) ≤ w)
  let s := if bad then s.setF (F.FSG_CTRL_BAD_WIDTH n) 1 else s
  (s.setGen n { s.gen n with prevEdge := (s.gen n).lastEdge, lastEdge := t, level := !bad, pulseEnd := t + w }).trigEdges n t

/-- FSG_EDGE (R92): the next edge of the generator is due. Values written since take effect at it (R22). -/
def execFsgEdge (n : Fin 4) (s : State) : Out :=
  match s.fsgDue n with
  | none => .next s
  | some (t, hold) =>
    if s.time.now < t then .next s
    else
      let m := (s.gen n).next
      let s := s.takeForces (fsgRegs n.val)
      let s := s.fsgFire n t
      let g := s.gen n
      .next (
        if hold then (((s.setGen n { g with holdover := g.holdover + 1 }).setF F.LNK_TIME_SYNC_HOLD 1).raiseCause 26)
        else if s.forceF (F.FSG_CTRL_MODE n) = 2 then s.setGen n { g with linkEdges := g.linkEdges.drop 1, holdover := 0, armed := false }
        else if s.forceF (F.FSG_CTRL_MODE n) = 1 then s.setGen n { g with armed := false }
        else
          match s.fsgNext n (m + 1) with
          | none => s.setGen n { g with armed := false }
          | some m' => (s.setGen n { g with next := m', armed := true }).sendEdge n)

/-- FSG_PULSE_END (R93). -/
def execFsgPulseEnd (n : Fin 4) (s : State) : Out :=
  let g := s.gen n
  if g.level ∧ g.pulseEnd ≤ s.time.now then .next (s.setGen n { g with level := false }) else .next s

end Sys2Proof.Machine
end

