-- ==== Sys2Proof/Machine/Link.lean ====
section
/-! DEFINITION. The Shaelo link (chapter 17): ports, groups, messages, windows, close, shared time and frame sync, partner loss.
The values of OPC within a class are the model's own (log entry 51). -/

namespace Sys2Proof.Machine

/-! ### Messages (Tables SL-1 to SL-3) -/

/-- The header flit of a message (Table SL-1). -/
def lnkHeader (m : LinkMsg) : BitVec 256 :=
  let r := m.resv
  BitVec.ofNat 256 (m.cls % 8 + r % 2 * 2 ^ 3 + m.opc % 16 * 2 ^ 4 + m.tag % 4096 * 2 ^ 8 + m.srcc % 8 * 2 ^ 20
    + r / 2 % 2 * 2 ^ 23 + m.dstc % 8 * 2 ^ 24 + r / 4 % 2 * 2 ^ 27 + m.win % 256 * 2 ^ 28 + m.len % 32 * 2 ^ 36
    + (if m.arrive then 2 ^ 41 else 0) + m.vc % 2 * 2 ^ 42 + r / 8 % 32 * 2 ^ 43 + m.row % 2 ^ 18 * 2 ^ 48
    + r / 256 % 2 ^ 14 * 2 ^ 66 + m.key % 65536 * 2 ^ 80 + m.pmask % 65536 * 2 ^ 96 + r / 2 ^ 22 % 65536 * 2 ^ 112
    + m.inl % 2 ^ 128 * 2 ^ 128)

/-- Reads a header flit; its reserved bits are kept in `resv`. -/
def lnkOfHeader (h : BitVec 256) (data : List (BitVec 256)) : LinkMsg :=
  let n := h.toNat
  { cls := bitsOf n 0 3, opc := bitsOf n 4 4, tag := bitsOf n 8 12, srcc := bitsOf n 20 3, dstc := bitsOf n 24 3,
    win := bitsOf n 28 8, len := bitsOf n 36 5, arrive := bitsOf n 41 1 == 1, vc := bitsOf n 42 1, row := bitsOf n 48 18,
    key := bitsOf n 80 16, pmask := bitsOf n 96 16, inl := bitsOf n 128 128,
    resv := bitsOf n 3 1 + bitsOf n 23 1 * 2 + bitsOf n 27 1 * 4 + bitsOf n 43 5 * 8 + bitsOf n 66 14 * 256
      + bitsOf n 112 16 * 2 ^ 22,
    data := data }

/-- A header with a reserved CLASS, a reserved LEN or non-zero reserved bits (R500). -/
def lnkBad (m : LinkMsg) : Bool := decide (6 ≤ m.cls) || decide (16 < m.len) || m.resv != 0

/-- The flits of a message. -/
def lnkFlits (m : LinkMsg) : List (BitVec 256) := lnkHeader m :: m.data.take m.len

/-- Slots 0–126 of a group as a number; empty slots are zero. -/
def lnkSlotBits (flits : List (BitVec 256)) : Nat :=
  ((upFrom 0 127).zip (flits.take 127)).foldl (fun a e => a + e.2.toNat * 2 ^ (256 * e.1)) 0

/-- CRC of a group: slots 0–126 and bits [75:0] of the link flit (Table SL-2). -/
def lnkCrc (g : FlitGroup) : Nat :=
  crc32 (bitsLow 32512 (lnkSlotBits g.flits) ++ bitsLow 76 (g.link.toNat % 2 ^ 76))

/-- A link flit (Table SL-2) with its CRC over the given message flits. -/
def lnkLinkFlit (flits : List (BitVec 256)) (seq ack : Nat) (nak : Bool) (cred : List Nat) : BitVec 256 :=
  let credits := ((upFrom 0 6).zip cred).foldl (fun a e => a + e.2 % 256 * 2 ^ (28 + 8 * e.1)) 0
  let low := 7 + seq % 4096 * 2 ^ 3 + ack % 4096 * 2 ^ 15 + (if nak then 2 ^ 27 else 0) + credits
  BitVec.ofNat 256 (low + lnkCrc ⟨flits, BitVec.ofNat 256 low, 0⟩ * 2 ^ 76)

/-! ### Ports -/

/-- The port is up. -/
def State.portUp (s : State) (p : Fin 2) : Bool := s.flag (F.LNK_STAT_UP p)

/-- The port is up for class 5 only: its partner has this chip's number (R504). -/
def State.shut (s : State) (p : Fin 2) : Bool := s.flag (F.LNK_STAT_DUP_CHIP p)

/-- Buffer sizes of Table SL-3 by class. -/
def lnkBuf (c : Nat) : Nat := nth 0 [256, 32, 256, 8, 8, 16] c

/-- Credits of a class and buffer set. -/
def LinkPort.credit (x : LinkPort) (v c : Nat) : Nat := nth 0 (nth [] x.credits v) c

/-- Sets the credits of a class and buffer set. -/
def LinkPort.setCredit (x : LinkPort) (v c n : Nat) : LinkPort :=
  { x with credits := setNth x.credits v (setNth (nth [] x.credits v) c n) }

/-- Returned credits of a class: the first buffer set fills up first (log entry 51). -/
def LinkPort.credBack (x : LinkPort) (c n : Nat) : LinkPort :=
  let a := x.credit 0 c
  let d := min n (lnkBuf c - a)
  (x.setCredit 0 c (a + d)).setCredit 1 c (min (lnkBuf c) (x.credit 1 c + (n - d)))

/-- Groups after the last acknowledged one. -/
def LinkPort.unacked (x : LinkPort) : List (Nat × FlitGroup) :=
  x.replay.filter (fun e => decide ((e.1 + 4096 - x.acked) % 4096 < 2048) && e.1 != x.acked)

/-- A link flit with its credit returns taken out. -/
def lnkPlain (n : Nat) : BitVec 256 := BitVec.ofNat 256 (n - bitsOf n 28 48 * 2 ^ 28)

/-- Flits that the receiver holds of a class. -/
def LinkPort.holds (x : LinkPort) (c : Nat) : Nat := (nth [] x.rx c).length + (nth [] x.rx (8 + c)).length

/-- A port after training: sequence numbers from 0 (Table SL-4); groups not acknowledged go out again under new numbers (log entry
17). The receiver announces each class's buffers less what it holds, and the transmitter waits for its partner's count (R49,
R502). -/
def LinkPort.trained (x : LinkPort) (now : Nat) : LinkPort :=
  let lost := x.unacked
  let again := ((upFrom 0 lost.length).zip lost).map (fun e => (e.1, FlitGroup.mk e.2.2.flits (lnkPlain e.2.2.link.toNat) 0))
  { x with credits := LinkPort.reset.credits, seq := again.length, acked := 4095, replay := again, resend := again, expect := 0,
           naks := 0, nakIn := 0, nakOut := false, credOut := (upFrom 0 6).map (fun c => nth 0 lnkSizes c - x.holds c),
           training := false, isDown := false, lastFlit := now, good := 0, bad := 0, locks := 0, retrains := 0 }

/-! ### Capability words (Table SL-5, R504) -/

/-- The capability words this part sends. -/
def State.capWords (s : State) : Nat × Nat :=
  let id := s.seeReg F.GLB_ID1_STEPPING.off
  (0x0880 + bitsOf id.toNat 0 8 * 2 ^ 16 + bitsOf id.toNat 8 4 * 2 ^ 24 + 2 ^ 28,
   s.getF F.LNK_CFG_CHIP + s.getF F.LNK_CFG_TMASTER * 2 ^ 3 + s.getF F.LNK_CFG_TOPO * 2 ^ 4 + s.getF F.LNK_TIME_LOCKED * 2 ^ 6
     + 28 * 2 ^ 8 + 32 * 2 ^ 16)

/-- Capability words that changed go to the partner of every port that is up, in class 5 (Table SL-3). -/
def State.sendCaps (s : State) : State :=
  let w := s.capWords
  ([0, 1] : List (Fin 2)).foldl (fun s p =>
    if s.portUp p then
      s.portQueue p { mkLink 5 lnkCaps 0 (s.getF F.LNK_CFG_CHIP) (s.getF (F.LNK_STAT_PEER p)) with inl := w.1 + w.2 * 2 ^ 32 }
    else s) s

/-- Both partners of a port claim TMASTER (R521). -/
def State.timeClash (s : State) (p : Fin 2) : State :=
  if s.portUp p && s.flag F.LNK_CFG_TMASTER && bitsOf (s.getF (F.LNK_CAP1 p)) 3 1 == 1 then s.setF F.LNK_TIME_TIME_CONFLICT 1 else s

/-- A partner's capability words arrive: CAP0 in [31:0], CAP1 in [63:32]. -/
def State.partnerCaps (s : State) (p : Fin 2) (w : Nat) : State :=
  ((s.setF (F.LNK_CAP0 p) (bitsOf w 0 32)).setF (F.LNK_CAP1 p) (bitsOf w 32 32)).timeClash p

/-- What a write of LNK_CFG does; `was` is TMASTER before it. -/
def State.lnkCfgAct (was : Bool) (s : State) : State :=
  if s.flag F.LNK_CFG_TMASTER = was then s else ((s.sendCaps).timeClash 0).timeClash 1

/-- TRAIN: training of a port starts (Table SL-4). -/
def State.lnkTrain (s : State) (p : Fin 2) : State :=
  let x := s.port p
  (s.setF (F.LNK_STAT_UP p) 0).setPort p { x with training := true, trainAt := s.time.now }

/-- A write of LNK_Pp_CTRL. -/
def State.lnkCtrlWrite (s : State) (p : Fin 2) (m : Master) (v : Word) : State :=
  s.regWrite false m (F.LNK_CTRL_TRAIN p).off v.toNat (fun s =>
    if v.toNat % 2 = 1 then s.lnkTrain p else s)

/-- LNK_TRAIN (R503). -/
def execLnkTrain (p : Fin 2) (m : Master) (v : Word) (s : State) : Out := .next (s.lnkCtrlWrite p m (v ||| 1#32))

/-- Training of a port fails (R503): FAIL. -/
def State.lnkFail (s : State) (p : Fin 2) : State :=
  (s.setF (F.LNK_STAT_FAIL p) 1).setPort p { s.port p with training := false, failAt := s.time.now }

/-- Number of lanes set in a mask of four. -/
def lanes4 (m : Nat) : Nat := bitsOf m 0 1 + bitsOf m 1 1 + bitsOf m 2 1 + bitsOf m 3 1

/-- After adaptation a port reports its channel loss per lane, in 0.25 dB; above 26 dB LOSS_WARN is set (R505). -/
def State.lossReport (s : State) (p : Fin 2) (loss : BitVec 32) : State :=
  let s := s.setF (F.LNK_LOSS p) loss.toNat
  if (upFrom 0 4).any (fun i => decide (104 < bitsOf loss.toNat (8 * i) 8)) then (s.setF (F.LNK_STAT_LOSS_WARN p) 1).raiseCause 22 else s

/-- LNK_TRAINING_DONE (R503–R505, R521): 1,669.2 µs to 5 ms after TRAIN (Table SL-4), training ends with the lanes found good, the lane order, the channel loss per lane in
0.25 dB, and the partner's capability words. -/
def execLnkTrainingDone (p : Fin 2) (good : BitVec 4) (rev : Bool) (loss : BitVec 32) (cap0 cap1 : BitVec 32) (s : State) :
    Out :=
  let x := s.port p
  let n := lanes4 good.toNat
  if !x.training || decide (n < 2) || decide (s.time.now < x.trainAt + 1669200) || decide (x.trainAt + 5000000 < s.time.now) then
    .next s
  else
    let c0 := cap0.toNat
    let c1 := cap1.toNat
    let s := s.emit (.caps p.val s.capWords.1 s.capWords.2)
    let s := ((s.lossReport p loss).setF (F.LNK_CAP0 p) c0).setF (F.LNK_CAP1 p) c1
    let s := (s.setF (F.LNK_STAT_REVERSED p) (if rev then 1 else 0)).setF (F.LNK_STAT_PEER p) (bitsOf c1 0 3)
    if bitsOf c0 28 4 ≠ 1 ∨ bitsOf c0 0 16 ≠ 0x0880 then .next (s.lnkFail p)
    else
      let dup := bitsOf c1 0 3 == s.getF F.LNK_CFG_CHIP
      let s := (s.setF (F.LNK_STAT_UP p) 1).setF (F.LNK_STAT_WIDTH p) (if n = 4 then 0 else 1)
      let s := (s.setF (F.LNK_STAT_FAIL p) 0).setF (F.LNK_STAT_DUP_CHIP p) (if dup then 1 else 0)
      .next ((s.setPort p ((s.port p).trained s.time.now)).timeClash p)

/-- LNK_TRAINING_FAIL (R503, R505): fewer than two good lanes once the width is chosen (Table SL-4), or the 5 ms limit. The loss is
reported all the same. -/
def execLnkTrainingFail (p : Fin 2) (e : LaneReport) (s : State) : Out :=
  let x := s.port p
  if x.training && ((decide (lanes4 e.good.toNat < 2) && decide (x.trainAt + 1649200 ≤ s.time.now))
      || decide (x.trainAt + 5000000 < s.time.now)) then .next ((s.lossReport p e.loss).lnkFail p)
  else .next s

/-- LINK_RETRAIN_TIMER (R503): 1 ms after a failed training the firmware retrains, up to RETRY_MAX times. -/
def execLinkRetrainTimer (p : Fin 2) (s : State) : Out :=
  let x := s.port p
  if s.flag (F.LNK_STAT_FAIL p) && !s.portUp p && !x.training && decide (x.retrains < s.getF (F.LNK_CTRL_RETRY_MAX p))
      && decide (x.failAt + 1000000 ≤ s.time.now) then
    .next ((s.setPort p { x with retrains := x.retrains + 1 }).lnkTrain p)
  else .next s

/-- A port goes down (R523): the firmware retrains it while HOLD runs. -/
def State.portDown (s : State) (p : Fin 2) : State :=
  let s := (s.setF (F.LNK_STAT_UP p) 0).bump (F.LNK_STAT_DOWNS p) 1
  (s.setPort p { s.port p with isDown := true, downAt := s.time.now, retrains := 0, resend := [] }).lnkTrain p

/-- LINK_NAK_LIMIT (R501): eight consecutive NAKs for one group, returned or received. -/
def execLinkNakLimit (p : Fin 2) (s : State) : Out :=
  if s.portUp p && decide (8 ≤ max (s.port p).naks (s.port p).nakIn) then .next (s.portDown p) else .next s

/-- LINK_FLIT_TIMEOUT (R523): no link flit for 10 µs. -/
def execLinkFlitTimeout (p : Fin 2) (s : State) : Out :=
  if s.portUp p && decide ((s.port p).lastFlit + 10000 ≤ s.time.now) then .next (s.portDown p) else .next s

/-- LINK_LOCK_LOSS (R523): block lock is lost on some lane. -/
def execLinkLockLoss (p : Fin 2) (s : State) : Out := if s.portUp p then .next (s.portDown p) else .next s

/-- Sets or clears LOCKED; a change raises cause 26, and the partners are told (TLOCK, Table SL-5). -/
def State.setLock (s : State) (b : Bool) : State :=
  if s.flag F.LNK_TIME_LOCKED = b then s else ((s.setF F.LNK_TIME_LOCKED (if b then 1 else 0)).raiseCause 26).sendCaps

/-! ### Partner lost (R524) -/

/-- A chip is routed through a port. -/
def State.viaPort (s : State) (p : Fin 2) (c : Nat) : Bool := s.routeTo c == some p

/-- Inbound windows and outbound bindings to a lost partner close with poison at once. -/
def State.closeVia (s : State) (p : Fin 2) : State :=
  let hit (w : InWin) : Bool := (upFrom 0 8).any (fun c => bitsOf w.srcMask c 1 == 1 && s.viaPort p c)
  let wins := allWins.filter (fun n => hit (vget s.lnk.iw n))
  let obs := allWins.filter (fun n => (vget s.lnk.ob n).open_ && s.viaPort p (vget s.lnk.ob n).chip)
  let s' := wins.foldl (fun s n => s.closeWinNow n) s
  let s' := obs.foldl (fun s n => s.setOb n { vget s.lnk.ob n with open_ := false }) s'
  s'.failWaits excWindowClosed (fun w => s.viaPort p w.chip)

/-- What a port still had for a lost partner is discarded, and nothing more is expected of its chips (log entry 118). -/
def State.dropPort (s : State) (p : Fin 2) : State :=
  let x := s.port p
  let s := s.setPort p { x with isDown := false, queue := [], slots := [], replay := [], resend := [], rx := List.replicate 16 [],
                                rxLeft := 0, late := [] }
  allWins.foldl (fun s n => s.setIw n { vget s.lnk.iw n with dead := (vget s.lnk.iw n).dead.filter (fun x => !s.viaPort p x.src) }) s

/-- SLAVE generators go over to hold-over: no edge time is left (R520, R524). -/
def State.holdOver (s : State) : State :=
  ([0, 1, 2, 3] : List (Fin 4)).foldl (fun (s : State) (n : Fin 4) =>
    if s.forceF (F.FSG_CTRL_MODE n.val) = 2 then s.setGen n { s.gen n with linkEdges := [] } else s) s

/-- PARTNER_LOST (R524): a port not up again within HOLD. -/
def execPartnerLost (p : Fin 2) (s : State) : Out :=
  let x := s.port p
  if !x.isDown || s.portUp p || decide (s.time.now < x.downAt + s.getF (F.LNK_CTRL_HOLD p) * 1000000) then .next s
  else
    let jobs := (allWins.filter (fun n => (vget s.lnk.ob n).open_ && s.viaPort p (vget s.lnk.ob n).chip)).map
      (fun n => (vget s.lnk.ob n).job)
    let s := s.closeVia p
    let s := (s.jobs.filter (fun j => jobs.contains j.id && j.state != .dead)).foldl (fun s j =>
      (s.killJob j.id 0x34).reportAft { mkRec s.time.aft (0x12 + p.val) 0x34 with job := j.id, kill := true }) s
    let s := if s.flag F.LNK_TIME_LOCKED && s.getF F.LNK_TIME_PATH == p.val then
        (({ s with time := { s.time with slew := 0 } }).setLock false).holdOver
      else s
    .next (((s.dropPort p).setF (F.LNK_STAT_LOST p) 1).raiseCause 22)

/-! ### Groups (R497, R501, R502) -/

/-- The first waiting message of a class in a buffer set. -/
def LinkPort.first (x : LinkPort) (v c : Nat) : Option LinkMsg := x.queue.find? (fun m => m.cls == c && m.vc == v)

/-- The message of a class that can start: the first of a buffer set that has 1 + LEN credits (R502). A full set does not hold up
the other (R508). -/
def LinkPort.ready (x : LinkPort) (c : Nat) : Option LinkMsg :=
  [0, 1].findSome? (fun v => (x.first v c).filter (fun m => decide (1 + m.len ≤ x.credit v c)))

/-- A message of a class can start. -/
def LinkPort.canStart (x : LinkPort) (c : Nat) : Bool := (x.ready c).isSome

/-- Starts the message of a class that can. -/
def LinkPort.start (x : LinkPort) (c : Nat) : LinkPort :=
  match x.ready c with
  | none => x
  | some m =>
    { (x.setCredit m.vc c (x.credit m.vc c - (1 + m.len))) with
      queue := x.queue.eraseP (fun q => q.cls == c && q.vc == m.vc), slots := x.slots ++ lnkFlits m }

/-- Round-robin weights of classes 0 to 2 (Table SL-3). DESIGN CHOICE: a turn is one message (log entry 123). -/
def lnkWeight (c : Nat) : Nat := nth 1 [2, 1, 2] c

/-- The next class of the round-robin that can start; a class with none gives up its turn. -/
def LinkPort.pickRr (x : LinkPort) : Nat → Option (Nat × Nat)
  | 0 => none
  | fuel + 1 =>
    if 0 < x.rrLeft ∧ x.canStart x.rrCls then some (x.rrCls, x.rrLeft)
    else LinkPort.pickRr { x with rrCls := (x.rrCls + 1) % 3, rrLeft := lnkWeight ((x.rrCls + 1) % 3) } fuel

/-- Fills the slots of one group: time, fault and control before the round-robin of the other classes (Table SL-3). -/
def LinkPort.fill : Nat → LinkPort → LinkPort
  | 0, x => x
  | fuel + 1, x =>
    if 127 ≤ x.slots.length then x
    else if x.canStart 3 then LinkPort.fill fuel (x.start 3)
    else if x.canStart 4 then LinkPort.fill fuel (x.start 4)
    else if x.canStart 5 then LinkPort.fill fuel (x.start 5)
    else
      match x.pickRr 4 with
      | none => x
      | some (c, left) => LinkPort.fill fuel { x.start c with rrCls := c, rrLeft := left - 1 }

/-- The highest-numbered chip of the ring: of this chip and those it has a route to. -/
def State.topChip (s : State) : Nat :=
  ((upFrom 0 8).filter (fun c => (s.routeTo c).isSome || c == s.getF F.LNK_CFG_CHIP)).foldl max 0

/-- The port's link crosses the dateline of the ring (R508). -/
def State.dateline (s : State) (p : Fin 2) : Bool :=
  let me := s.getF F.LNK_CFG_CHIP
  let you := s.getF (F.LNK_STAT_PEER p)
  let top := s.topChip
  s.getF F.LNK_CFG_TOPO == 2 && ((me == top && you == 0) || (me == 0 && you == top))

/-- Credit returns of a link flit (Table SL-2). -/
def lnkCred (n : Nat) : List Nat := (upFrom 0 6).map (fun c => bitsOf n (28 + 8 * c) 8)

/-- A group sent again (R501): its flits, SEQ and credits, with the acknowledgement and NAK due now. It returns its NAK again while
the group asked for (`lack`) has not come. -/
def lnkAgain (g : FlitGroup) (seq ack : Nat) (nak lack : Bool) : FlitGroup :=
  { g with link := lnkLinkFlit g.flits seq ack (nak || (lack && bitsOf g.link.toNat 27 1 == 1)) (lnkCred g.link.toNat) }

/-- Before every 128th group the port queues a time message for its partner (R518). -/
def State.startExchange (s : State) (p : Fin 2) : State :=
  if (s.port p).seq % 128 = 0 ∧ s.flag (F.LNK_STAT_DUP_CHIP p) = false then
    s.portQueue p { mkLink 3 lnkExchange 0 (s.getF F.LNK_CFG_CHIP) (s.getF (F.LNK_STAT_PEER p)) with inl := s.time.now % 2 ^ 64 }
  else s

/-- Sends one group on a port: a group to be replayed first; else its slots are filled. Credits due now wait for the next new
group, which carries at most 255 of a class. -/
def State.sendLinkGroup (s : State) (p : Fin 2) : State :=
  let x := s.port p
  let ack := (x.expect + 4095) % 4096
  match x.resend with
  | (q, g) :: rest =>
    (s.setPort p { x with resend := rest, nakOut := false }).emit (.link p.val q (lnkAgain g q ack x.nakOut (decide (0 < x.naks))))
  | [] =>
    let x := LinkPort.fill 128 x
    let flits := x.slots.take 127
    let g : FlitGroup := ⟨flits, lnkLinkFlit flits x.seq ack x.nakOut (x.credOut.map (min 255)), 0⟩
    let all := x.replay ++ [(x.seq, g)]
    (s.setPort p { x with slots := x.slots.drop 127, seq := (x.seq + 1) % 4096, replay := all.drop (all.length - 8),
                          nakOut := false, credOut := x.credOut.map (· - 255) }).emit (.link p.val x.seq g)

/-- LINK_MESSAGE_SEND (R502, R508): messages of other chips that wait at a port cross the dateline on VC 1, one's own leave on VC 0,
and one group is filled and sent. A port up for class 5 only keeps the others waiting (R504). -/
def execLinkMessageSend (p : Fin 2) (s : State) : Out :=
  if !s.portUp p then .next s
  else
    let s := s.startExchange p
    let x := s.port p
    let me := s.getF F.LNK_CFG_CHIP
    let q := if s.dateline p then x.queue.map (fun m => if m.srcc = me then m else { m with vc := 1 }) else x.queue
    if s.flag (F.LNK_STAT_DUP_CHIP p) then
      let keep := q.filter (fun m => m.cls != 5)
      let s := (s.setPort p { x with queue := q.filter (fun m => m.cls == 5) }).sendLinkGroup p
      .next (s.setPort p { s.port p with queue := keep ++ (s.port p).queue })
    else .next ((s.setPort p { x with queue := q }).sendLinkGroup p)

/-- The receiver takes a message flit: a header opens a message, and its data flits follow it into the buffer of its class and
buffer set (R502, R508). -/
def LinkPort.feed (x : LinkPort) (f : BitVec 256) : LinkPort :=
  if x.rxLeft = 0 then
    let b := bitsOf f.toNat 42 1 * 8 + bitsOf f.toNat 0 3
    { x with rx := setNth x.rx b (nth [] x.rx b ++ [f]), rxBuf := b, rxLeft := bitsOf f.toNat 36 5 }
  else { x with rx := setNth x.rx x.rxBuf (nth [] x.rx x.rxBuf ++ [f]), rxLeft := x.rxLeft - 1 }

/-- The acknowledgement and NAK of a link flit: the port resends from ACKSEQ + 1 (R501). -/
def State.lnkTakeAck (s : State) (p : Fin 2) (n : Nat) : State :=
  let x := s.port p
  let nak := bitsOf n 27 1 = 1
  let y := { x with acked := bitsOf n 15 12, nakIn := if nak then (if bitsOf n 15 12 = x.acked then x.nakIn + 1 else 1) else 0 }
  if nak then (s.setPort p { y with resend := y.unacked }).bump (F.LNK_RETRY p) y.unacked.length else s.setPort p y

/-- LINK_GROUP_RECEIVE (R501): a port takes a group. `flits` holds its occupied message slots (log entry 91). Of a good group out of
order only the acknowledgement and the NAK count. -/
def execLinkGroupReceive (p : Fin 2) (g : FlitGroup) (s : State) : Out :=
  if !s.portUp p then .next s
  else
    let n := g.link.toNat
    let x := { s.port p with lastFlit := s.time.now }
    if lnkCrc g ≠ bitsOf n 76 32 ∨ 127 < g.flits.length then
      .next (s.setPort p { x with naks := x.naks + 1, nakOut := true })
    else if bitsOf n 3 12 ≠ x.expect then .next ((s.setPort p x).lnkTakeAck p n)
    else
      let x := { g.flits.foldl LinkPort.feed x with expect := (x.expect + 1) % 4096, naks := 0 }
      let x := (upFrom 0 6).foldl (fun (x : LinkPort) c => x.credBack c (bitsOf n (28 + 8 * c) 8)) x
      .next ((s.setPort p x).lnkTakeAck p n)

/-! ### Messages received -/

/-- The first whole message of a receive buffer of a port, and the state without it. Its credits go back. -/
def State.takeMsg (s : State) (p : Fin 2) (b : Nat) : Option (LinkMsg × State) :=
  let x := s.port p
  match nth [] x.rx b with
  | [] => none
  | h :: rest =>
    let m := lnkOfHeader h (rest.take (bitsOf h.toNat 36 5))
    if rest.length < m.len then none
    else
      let co := setNth x.credOut m.cls (nth 0 x.credOut m.cls + 1 + m.len)
      some (m, s.setPort p { x with rx := setNth x.rx b (rest.drop m.len), credOut := co })

/-- The message is for this chip. -/
def State.forMe (s : State) (m : LinkMsg) : Bool := m.dstc == s.getF F.LNK_CFG_CHIP

/-- A message for another chip that came by port `p` (R507): it leaves on its route's port, on VC 1 once it has crossed the dateline
(R508), or is discarded and completes refused. A port up for class 5 only passes nothing else on (R504). -/
def State.lnkForward (s : State) (p : Fin 2) (m : LinkMsg) : State :=
  match if s.shut p && m.cls != 5 then none else s.linkSend (if s.dateline p then { m with vc := 1 } else m) with
  | some s => { s with lnk := { s.lnk with forwarded := m :: s.lnk.forwarded } }
  | none => if m.cls = 0 ∨ m.cls = 1 then s.lnkRefuse m lnkDenied else s

/-- A message with reserved values is discarded and counted, as R40 says (R500). -/
def State.lnkProtocol (s : State) (p : Fin 2) : State :=
  (s.bump F.BRG_ERRCNT 1).reportAft (mkRec s.time.aft (0x12 + p.val) 0x33)

/-! ### Inbound windows (R512, R513, R517) -/

/-- An inbound window by number. -/
def State.iw (s : State) (n : Nat) : InWin := vget s.lnk.iw ⟨n % 32, Nat.mod_lt _ (by decide)⟩

/-- Number of a window as an index. -/
def winOf (n : Nat) : Fin 32 := ⟨n % 32, Nat.mod_lt _ (by decide)⟩

/-- A transfer that a window has accepted. -/
def InWin.knows (w : InWin) (m : LinkMsg) : Bool :=
  w.xfers.any (fun x => x.src == m.srcc && x.tag == m.tag && x.read == (m.cls == 1))

/-- What the check of R512 finds: none when the access is allowed, else the refusal. A closing window lets the transfers it has
accepted go on (Table SL-7). -/
def State.winCheck (s : State) (p : Fin 2) (m : LinkMsg) : Option Nat :=
  let w := s.iw m.win
  let live := decide (m.win < 32) && (w.st == .open_ || (w.st == .closing && w.knows m))
  let perm := bitsOf w.perm (if m.cls = 1 then 0 else 1) 1 == 1
  let rows := if m.cls = 1 then max 1 ((m.inl + 511) / 512) else max 1 (m.len / 16)
  if s.flag (F.LNK_STAT_DUP_CHIP p) then some lnkDenied
  else if !live then some lnkClosed
  else if bitsOf w.srcMask m.srcc 1 = 0 ∨ w.key ≠ m.key ∨ !perm ∨ w.count < m.row + rows then some lnkDenied else none

/-- The state of an accepted transfer after one of its rows: `rest` are the rows still to come. -/
def InWin.progress (w : InWin) (m : LinkMsg) (rest : List Nat) : InWin :=
  let l := w.xfers.filter (fun x => !(x.src == m.srcc && x.tag == m.tag && x.read == (m.cls == 1)))
  { w with xfers := if rest.isEmpty then l else l ++ [{ src := m.srcc, tag := m.tag, rows := rest, read := m.cls == 1 }] }

/-- A closing window whose accepted transfers have drained becomes CLOSED (R517). -/
def State.drainWin (s : State) (n : Fin 32) : State :=
  let w := vget s.lnk.iw n
  if w.st = .closing ∧ w.xfers.isEmpty then s.closeWinNow n else s

/-- The message belongs to a transfer that a close has ended: `rest` as in WINDOW_MESSAGE. -/
def InWin.ended (w : InWin) (m : LinkMsg) : Bool :=
  w.dead.any (fun x => x.src == m.srcc && x.tag == m.tag && x.read == (m.cls == 1) && x.rows.contains m.row)

/-- A window without one row of an ended transfer. -/
def InWin.bury (w : InWin) (m : LinkMsg) : InWin :=
  { w with dead := (w.dead.map (fun x => if x.src == m.srcc && x.tag == m.tag && x.read == (m.cls == 1) then
      { x with rows := x.rows.erase m.row } else x)).filter (fun x => !x.rows.isEmpty) }

/-- A core's rows cannot be read or written now: it sleeps, or they are held (R192, R194). DESIGN CHOICE: a window access waits for a
sleeping core as for a held one (log entry 92). -/
def State.winBusy (s : State) (k : Fin 8) : Bool := decide (2 ≤ s.pstate k) || s.spHeld k

/-- The row of a window access that waits at its core (R192, R194); `b` is the message's buffer. -/
def State.winHeld (s : State) (p : Fin 2) (b : Nat) (m : LinkMsg) : Option (Fin 8 × Nat) :=
  let w := s.iw m.win
  let k := coreOf w.core
  if (m.cls = 0 ∨ m.cls = 1) ∧ s.winCheck p m = none ∧ s.winBusy k ∧ !(s.port p).late.contains b then
    some (k, w.first + m.row) else none

/-- The rows of a window that a read asks for, each answered by a completion, poisoned when the core cannot answer within 5 ms
(R192). -/
def State.winRows (s : State) (m : LinkMsg) (k : Fin 8) (first : Nat) : State :=
  (upFrom 0 (max 1 ((m.inl + 511) / 512))).foldl (fun s i =>
    let (ws, s) := if s.winBusy k then (poisonRow s.free, s.drawn 64) else (s.waited k).getRow k (first + m.row + i)
    s.lnkReply { m with row := m.row + i } lnkData (flitsOfRow ws) (pmaskOfRow ws)) s

/-- A window message for this chip (R512, R513). A write that has waited its 5 ms lands nowhere and is refused (log entry 105). -/
def State.winMessage (s : State) (p : Fin 2) (m : LinkMsg) (rest : List Nat) : State :=
  if (s.iw m.win).ended m && decide (m.win < 32) then s.setIw (winOf m.win) ((s.iw m.win).bury m)
  else
  match s.winCheck p m with
  | some opc => (s.bump F.LNK_DENY 1).lnkRefuse m opc
  | none =>
    let n := winOf m.win
    let w := s.iw m.win
    let k := coreOf w.core
    let s := s.setIw n (w.progress m rest)
    if m.cls = 1 then (s.winRows m k w.first).drainWin n
    else if s.winBusy k then (s.lnkReply m lnkLate [] 0).drainWin n
    else
      -- R513: the count rises after the row has landed
      let s := (s.waited k).putRow k (w.first + m.row) (rowOfFlits m.data m.pmask)
      let s := if m.arrive then
          s.setIw n { vget s.lnk.iw n with arrivals := (vget s.lnk.iw n).arrivals + 1#32 } else s
      (s.lnkReply m lnkAck [] 0).drainWin n

/-- WINDOW_MESSAGE (R507, R512): the next message of a buffer of a port, when it has reserved values, is for another chip, or is a
window access. `rest` are the window rows of the same transfer that are still on their way. An access to rows that are held waits
at the front of its buffer. -/
def execWindowMessage (b : LinkBuf) (rest : List Nat) (s : State) : Out :=
  match s.takeMsg b.port b.buf.val with
  | none => .next s
  | some (m, s') =>
    if lnkBad m then .next (s'.lnkProtocol b.port)
    else if !s.forMe m then .next (s'.lnkForward b.port m)
    else if m.cls = 0 ∨ m.cls = 1 then
      match s.winHeld b.port b.buf.val m with
      | some (k, r) => .next (s.holdRead k (16 + 16 * b.port.val + b.buf.val) r 0 512)
      | none => .next ((s'.setPort b.port { s'.port b.port with late := (s'.port b.port).late.filter (· != b.buf.val) }).winMessage b.port m rest)
    else .next s

/-! ### RXFER acknowledgements (R516) -/

/-- One row of a read has come: it is written to the first row still to come. -/
def State.readBack (s : State) (w : RxWait) (ws : Row) : State :=
  match w.who, w.rows with
  | some m, _ =>
    let l := ((bytesOfRow ws).drop w.lo).take w.n
    s.emit (.answer m (leNat (l.map (·.1))) (l.any (·.2)))
  | none, r :: _ => if w.awn then s.putAwn (coreOf w.core) r ws else s.putRow (coreOf w.core) r ws
  | none, [] => s

/-- A row that an RXFER_READ brings passes the core's DMA unit: the words that fail parity there are poisoned, each with its record
(R438). -/
def State.unitTakes (s : State) (w : RxWait) (par : List Nat) (ws : Row) : Row × State :=
  let k := coreOf w.core
  match ((s.ctx k ⟨w.ctx % 3, Nat.mod_lt _ (by decide)⟩).queue 3).find? (fun i => i.tok == w.tok) with
  | none => (ws, s)
  | some i =>
    if w.who.isSome then (ws, s)
    else
      let hits := par.filter (· < ws.length)
      (((upFrom 0 ws.length).zip ws).map (fun e => (e.2.1, e.2.2 || hits.contains e.1)),
       hits.foldl (fun s _ => s.pathParity k (coreUnit k 5) i) s)

/-- Removes a wait, or one of its rows. -/
def State.stepWait (s : State) (w : RxWait) (rows : List Nat) (all : Bool) : State :=
  let upd (q : RxWait) : Option RxWait :=
    if q ≠ w then some q else if all || rows.isEmpty then none else some { w with rows := rows }
  { s with lnk := { s.lnk with waits := s.lnk.waits.filterMap upd } }

/-- A refusal ends the RXFER: its token FAULT, the rows of a read that have not come poisoned (R512). -/
def State.refused (s : State) (w : RxWait) (cause : Nat) : State := (s.stepWait w [] true).failWait cause w

/-- The exception of a refusal by its OPC (R512, log entry 105); none for data and acknowledges. -/
def refusalOf (opc : Nat) : Option Nat :=
  if opc = lnkClosed then some excWindowClosed
  else if opc = lnkDenied then some excAddrUnmapped
  else if opc = lnkLate then some excUnitPoison else none

/-- RXFER_ACK (R516, R512): the next completion of a buffer set of a port, when it is for this chip. -/
def execRxferAck (b : LinkSet) (s : State) : Out :=
  match s.takeMsg b.port (8 * b.set.val + 2) with
  | none => .next s
  | some (m, s') =>
    if lnkBad m || !s.forMe m then .next s
    else if s.shut b.port then .next s'
    else
      match s'.lnk.waits.find? (fun w => w.tag == m.tag && w.chip == m.srcc) with
      | none => .next s'
      | some w =>
        match refusalOf m.opc with
        | some cause => .next (s'.refused w cause)
        | none =>
          if m.opc = lnkAck then .next (s'.stepWait w (w.rows.erase m.row) false)
          else
            let (ws, s') := s'.unitTakes w b.par (rowOfFlits m.data m.pmask)
            let s' := s'.readBack w ws
            let s' := if rowPoisoned ws && w.who.isNone then
                s'.transCause (coreOf w.core) ⟨w.ctx % 3, Nat.mod_lt _ (by decide)⟩ excUnitPoison else s'
            .next (s'.stepWait w (w.rows.drop 1) (w.who.isSome))

/-! ### Shared time (R518–R521) -/

/-- The time master's chip number: a partner that claims TMASTER, or the chip that the last edge time came from. DEDUCED: no
register names it (log entry 116). -/
def State.masterChip (s : State) : Option Nat :=
  match ([0, 1] : List (Fin 2)).find? (fun q => s.portUp q && bitsOf (s.getF (F.LNK_CAP1 q)) 3 1 == 1) with
  | some q => some (s.getF (F.LNK_CAP1 q) % 8)
  | none => s.lnk.master

/-- The port that LNK_ROUTE names for the time master (R518). DEDUCED: until the master is known, the first port whose partner is
locked (log entry 116). -/
def State.towardMaster (s : State) (p : Fin 2) : Bool :=
  !s.flag F.LNK_CFG_TMASTER && !s.shut p &&
    (match s.masterChip with
    | some c => s.routeTo c == some p
    | none => ([0, 1] : List (Fin 2)).find? (fun q => s.portUp q && bitsOf (s.getF (F.LNK_CAP1 q)) 6 1 == 1) == some p)

/-- A half of an integer, toward zero. -/
def half (i : Int) : Int := Int.tdiv i 2

/-- The time messages of the partner that a port has received leave their buffers. -/
def State.dropExchange (s : State) (p : Fin 2) : State :=
  [3, 11].foldl (fun s b =>
    match s.takeMsg p b with
    | some (m, s') => if m.opc = lnkExchange && s.forMe m && !lnkBad m then s' else s
    | none => s) s

/-- LINK_TIME_EXCHANGE (R518, R519): a port exchanges timestamps: t1 sent here, t2 taken and t3 sent by the partner, t4 taken
here. -/
def execLinkTimeExchange (p : Fin 2) (t1 t2 t3 t4 : BitVec 64) (s : State) : Out :=
  if !s.portUp p || s.shut p then .next s
  else
    let s := s.dropExchange p
    let i (t : BitVec 64) : Int := t.toNat
    let delay := half ((i t4 - i t1) - (i t3 - i t2))
    let off := half ((i t2 - i t1) + (i t3 - i t4))
    let s := s.setF F.LNK_TDELAY_DELAY (unsigned 16 (max 0 (min 65535 delay)))
    if !s.towardMaster p then .next s
    else
      let s := (s.setF F.LNK_TIME_OFFSET (unsigned 16 (max (-32768) (min 32767 off)))).setF F.LNK_TIME_PATH p.val
      let x := s.port p
      let good := if off.natAbs ≤ 4 then x.good + 1 else 0
      let bad := if 8 < off.natAbs then x.bad + 1 else 0
      let s := s.setPort p { x with good := good, bad := bad, locks := x.locks + 1 }
      let s := if 16 ≤ good then s.setLock true else if 4 ≤ bad then s.setLock false else s
      let target := wrap64 ((s.time.now : Int) + off)
      if x.locks = 0 ∧ s.dev = devReady ∧ off ≠ 0 then .next (s.stepTime target)
      -- R84: a single step leaves the Aft replicas behind until their next time message
      else if 64 < off then
        .next ({ s with time := { s.time with now := target, slew := 0, aftSlew := 0, syncing := false } }.setF F.BRG_STATUS_TSYNC 0)
      else .next { s with time := { s.time with slew := off } }

/-- An edge time of the time master, chip `c`, for a generator comes by a port (R520, R521). -/
def State.takeEdge (s : State) (p : Fin 2) (c : Nat) (n : Fin 4) (t : Nat) : State :=
  let s := { s with lnk := { s.lnk with master := some c } }
  if s.portUp p && s.towardMaster p && !s.flag F.LNK_TIME_TIME_CONFLICT && s.flag (F.FSG_CTRL_ENABLE n)
      && s.forceF (F.FSG_CTRL_MODE n) == 2 then
    s.setGen n { s.gen n with linkEdges := (s.gen n).linkEdges.filter (· != t) ++ [t], holdover := 0 }
  else s

/-- SYNC_EDGE_TIME (R520): the next class 3 message of a buffer set, when it is an edge time for this chip and generator
`n`: WIN names the generator and INLINE [63:0] its edge (log entry 51). -/
def execSyncEdgeTime (p v : Fin 2) (n : Fin 4) (s : State) : Out :=
  match s.takeMsg p (8 * v.val + 3) with
  | none => .next s
  | some (m, s') =>
    if lnkBad m || !s.forMe m || m.opc != lnkEdge || m.win % 4 != n.val then .next s
    else .next (if s.shut p then s' else s'.takeEdge p m.srcc n (m.inl % 2 ^ 64))

/-! ### The window command (R511, R514, R517) -/

/-- A WINDOW command of a ring with a given op. -/
def State.winCmd (s : State) (b : Fin 2) (op : Nat) : Option InFlight :=
  match s.nextCmd b 0x08 with
  | some e => if e.par 8 1 = op then some e else none
  | none => none

/-- Bytes of the entry that a WINDOW command of an inbound window, and of an outbound binding, uses (Table HO-7): the others are
zero. -/
def inDesc : List (Nat × Nat) := [(8, 8), (16, 47)]
def outDesc : List (Nat × Nat) := [(8, 8), (16, 21)]

/-- The descriptor of Table SL-6 is in rule. -/
def winDescGood (e : InFlight) (chip : Nat) : Bool :=
  decide (e.par 16 1 ≤ 31) && decide (e.par 17 1 ≤ 7) && decide (e.par 18 1 ≤ 3) && e.par 19 1 == 0
    && decide (1 ≤ e.par 24 4) && decide (e.par 24 4 ≤ 131072) && bitsOf (e.par 28 1) chip 1 == 0 && e.par 29 1 == 0
    && zeroAt e.pars 26 39

/-- The code of opening an inbound window (R511). -/
def State.winOpenCode (s : State) (e : InFlight) : Nat :=
  let n := e.par 16 1
  let w := s.iw n
  if !winDescGood e (s.getF F.LNK_CFG_CHIP) then 0x51
  else
    match s.job (e.par 32 2) with
    | none => 0x54
    | some j =>
      let inside := (j.on (e.par 17 1)).rows.any (fun g => g.cls == 3 && decide (g.first ≤ e.par 20 4)
        && decide (e.par 20 4 + e.par 24 4 ≤ g.last + 1))
      let mine := j.windows.any (fun v => v.2.1 == n && v.2.2 == 0)
      let other := s.jobs.any (fun i => i.id != j.id && i.windows.any (fun v => v.2.1 == n && v.2.2 == 0))
      if !inside then 0x52
      else if w.st ≠ .closed ∨ other then 0x53 else if !mine then 0x54 else 0x50

/-- WINDOW_OPEN_INBOUND (R511, R513). -/
def execWindowOpenInbound (b : Fin 2) (s : State) : Out :=
  match s.winCmd b 0 with
  | none => .next s
  | some e =>
    let code := if e.unusedZero inDesc then s.winOpenCode e else cmdBadField
    if code ≠ 0x50 then .next (s.finish b e code [])
    else
      let n := e.par 16 1
      let w : InWin := { st := .open_, core := e.par 17 1, perm := e.par 18 1, first := e.par 20 4, count := e.par 24 4,
                         srcMask := e.par 28 1, key := e.par 30 2, job := e.par 32 2, arrivals := 0, closeAt := 0,
                         xfers := [], dead := (s.iw n).dead, closer := none }
      .next ((s.setIw (winOf n) w).finish b e 0x50 (leBytes 1 n))

/-- Starts closing an inbound window (Table SL-7): CLOSING, and a close notice to every chip of SRCMASK. -/
def State.beginClose (s : State) (n : Fin 32) (closer : Option (Nat × Nat)) : State :=
  let w := vget s.lnk.iw n
  if w.st ≠ .open_ then s
  else
    ((s.setIw n { w with st := .closing, closeAt := s.time.now, closer := closer }).closeNotices n).drainWin n

/-- WINDOW_CLOSE_INBOUND (R517). A window that is closed already completes at once. -/
def execWindowCloseInbound (b : Fin 2) (s : State) : Out :=
  match s.winCmd b 1 with
  | none => .next s
  | some e =>
    let n := e.par 16 1
    let w := s.iw n
    if !e.unusedZero inDesc then .next (s.finish b e cmdBadField [])
    else if 31 < n then .next (s.finish b e 0x51 [])
    else
      match w.st with
      | .closed => .next (s.finish b e 0x50 (leBytes 1 n))
      | .closing =>
        if w.closer.isSome then .next (s.finish b e 0x53 [])
        else .next ((s.accept b).setIw (winOf n) { w with closer := some (b.val, e.tag) })
      | .open_ => .next ((s.accept b).beginClose (winOf n) (some (b.val, e.tag)))

/-- The first outbound binding that is free. -/
def State.freeBinding (s : State) : Option (Fin 32) := allWins.find? (fun n => !(vget s.lnk.ob n).open_)

/-- WINDOW_OPEN_OUTBOUND (R511, R514). -/
def execWindowOpenOutbound (b : Fin 2) (s : State) : Out :=
  match s.winCmd b 2 with
  | none => .next s
  | some e =>
    let c := e.par 16 1
    let w := e.par 17 1
    if !e.unusedZero outDesc then .next (s.finish b e cmdBadField [])
    else if decide (7 < c) || decide (31 < w) || c == s.getF F.LNK_CFG_CHIP then
      .next (s.finish b e 0x51 [])
    else
      let claim := (s.job (e.par 20 2)).elim false (fun j => j.windows.contains (c, w, 1))
      let up := (s.routeTo c).elim false (fun p => s.portUp p && !s.flag (F.LNK_STAT_DUP_CHIP p))
      if !claim then .next (s.finish b e 0x54 [])
      else if !up then .next (s.finish b e 0x55 [])
      else
        match s.freeBinding with
        | none => .next (s.finish b e 0x53 [])
        | some n =>
          let o : OutBind := { open_ := true, chip := c, win := w, key := e.par 18 2, job := e.par 20 2 }
          .next ((s.setOb n o).finish b e 0x50 (leBytes 1 n.val))

/-- WINDOW_CLOSE_OUTBOUND (R514). -/
def execWindowCloseOutbound (b : Fin 2) (s : State) : Out :=
  match s.winCmd b 3 with
  | none => .next s
  | some e =>
    let o : OutBind := { open_ := true, chip := e.par 16 1, win := e.par 17 1, key := e.par 18 2, job := e.par 20 2 }
    if !e.unusedZero outDesc then .next (s.finish b e cmdBadField [])
    else match allWins.find? (fun n => vget s.lnk.ob n == o) with
    | none => .next (s.finish b e 0x51 [])
    | some n => .next ((s.setOb n { o with open_ := false }).finish b e 0x50 (leBytes 1 n.val))

/-- CLOSE_NOTICE (R517): the next class 4 message of a buffer set, when it is for this chip: a close notice closes the bindings for
the window. -/
def execCloseNotice (b : LinkSet) (s : State) : Out :=
  match s.takeMsg b.port (8 * b.set.val + 4) with
  | none => .next s
  | some (m, s') =>
    if lnkBad m || !s.forMe m then .next s
    else if m.opc ≠ lnkCloseNotice || s.shut b.port then .next s'
    else
      let hit := allWins.filter (fun n => (vget s'.lnk.ob n).open_ && (vget s'.lnk.ob n).chip == m.srcc
        && (vget s'.lnk.ob n).win == m.win)
      .next (hit.foldl (fun s n => s.setOb n { vget s.lnk.ob n with open_ := false }) s')

/-- WINDOW_CLOSE_DEADLINE (R517): 50 µs after the close was asked for, unfinished rows are poisoned, their originators refused,
and the window closes. -/
def execWindowCloseDeadline (n : Fin 32) (s : State) : Out :=
  let w := vget s.lnk.iw n
  if w.st ≠ .closing ∨ s.time.now < w.closeAt + 50000 then .next s else .next (s.closeWinNow n)

end Sys2Proof.Machine
end

