-- ==== Sys2Proof/Machine/Bridge.lean ====
section
/-! DEFINITION. The Imdun bridge (chapter 01, R34–R58): training, lanes, groups, messages, credits, and what the part
does when the bridge goes down. -/

namespace Sys2Proof.Machine

/-! ### Directions -/

/-- One direction of the bridge. -/
def State.dir (s : State) : Dir → BrgDir
  | .f2a => s.brg.f2a
  | .a2f => s.brg.a2f

/-- State with a direction replaced. -/
def State.setDir (s : State) (d : Dir) (x : BrgDir) : State :=
  match d with
  | .f2a => { s with brg := { s.brg with f2a := x } }
  | .a2f => { s with brg := { s.brg with a2f := x } }

/-- The other direction. -/
def dirOther : Dir → Dir
  | .f2a => .a2f
  | .a2f => .f2a

/-- Number of a direction on the model's wire record: 0 F2A, 1 A2F. -/
def dirNum : Dir → Nat
  | .f2a => 0
  | .a2f => 1

/-- The physical lanes of a direction marked bad, as a mask. -/
def State.badLanes (s : State) (d : Dir) : Nat :=
  match d with
  | .f2a => s.getF F.BRG_BAD_F2A0 + s.getF F.BRG_BAD_F2A1 * 2 ^ 32
  | .a2f => s.getF F.BRG_BAD_A2F0 + s.getF F.BRG_BAD_A2F1 * 2 ^ 32

/-- Sets the mask of bad lanes of a direction. -/
def State.setBad (s : State) (d : Dir) (m : Nat) : State :=
  match d with
  | .f2a => (s.setF F.BRG_BAD_F2A0 (m % 2 ^ 32)).setF F.BRG_BAD_F2A1 (m / 2 ^ 32)
  | .a2f => (s.setF F.BRG_BAD_A2F0 (m % 2 ^ 32)).setF F.BRG_BAD_A2F1 (m / 2 ^ 32)

/-- The free-spare count of a direction. -/
def spareFld : Dir → Fld
  | .f2a => F.BRG_STATUS_SPARE_F2A
  | .a2f => F.BRG_STATUS_SPARE_A2F

/-- The good physical lanes among a list. -/
def goodLanes (m : Nat) (l : List Nat) : List Nat := l.filter (fun i => bitsOf m i 1 == 0)

/-- Number of bad lanes among the 50. -/
def badCount (m : Nat) : Nat := 50 - (goodLanes m (upFrom 0 50)).length

/-- The lane map at full width: a bad lane is replaced by a spare (R50). DESIGN CHOICE: the bad lane of lowest number takes the free
spare of lowest number (log entry 94). -/
def fullMap (m : Nat) : List Nat → List Nat → List Nat
  | [], _ => []
  | l :: ls, sp =>
    if bitsOf m l 1 = 0 then l :: fullMap m ls sp
    else
      match sp with
      | x :: sp => x :: fullMap m ls sp
      | [] => l :: fullMap m ls []

/-- The lane map at half width (R51). DESIGN CHOICE: logical lanes 0–23 run on the first 24 good lanes (log entry 94); logical lane
24 + i shows the lane of logical lane i (log entry 16). -/
def halfMap (m : Nat) : List Nat :=
  let g := goodLanes m (upFrom 0 50)
  (upFrom 0 48).map (fun i => nth 0 g (i % 24))

/-! ### Training (Table TH-9, R49–R52, R58) -/

/-- TRAIN: training starts, and no flit moves until it ends. -/
def State.brgTrain (s : State) : State :=
  { s.setF F.BRG_STATUS_UP 0 with brg := { s.brg with training := true, trainAt := s.time.now } }

/-- What a write of BRG_CTRL does. -/
def State.brgCtrlAct (v : Word) (s : State) : State :=
  let s := if bitsOf v.toNat 12 1 = 1 then (s.setF F.BRG_ERRCNT 0).setF F.BRG_RETRY 0 else s
  if bitsOf v.toNat 0 1 = 1 then s.brgTrain else s

/-- A write of BRG_CTRL. -/
def State.brgCtrlWrite (s : State) (m : Master) (v : Word) : State :=
  s.regWrite false m F.BRG_CTRL_TRAIN.off v.toNat (State.brgCtrlAct v)

/-- BRG_TRAIN (R50). -/
def execBrgTrain (m : Master) (v : Word) (s : State) : Out := .next (s.brgCtrlWrite m (v ||| 1#32))

/-- BRG_CLR_CNT (R40). -/
def execBrgClrCnt (m : Master) (v : Word) (s : State) : Out := .next (s.brgCtrlWrite m (v ||| 4096#32))

/-- Groups after the last acknowledged one. -/
def BrgDir.unacked (x : BrgDir) : List (Nat × FlitGroup) :=
  x.replay.filter (fun e => decide ((e.1 + 4096 - x.acked) % 4096 < 2048) && e.1 != x.acked)

/-- The receiver takes a message flit: a header opens a message, and its data flits follow it into the buffer of its class
(R38, R45). -/
def BrgDir.feed (x : BrgDir) (f : BitVec 256) : BrgDir :=
  if x.rxLeft = 0 then
    let c := bitsOf f.toNat 0 3
    { x with rx := setNth x.rx c (nth [] x.rx c ++ [f]), rxCls := c, rxLeft := bitsOf f.toNat 32 5 }
  else { x with rx := setNth x.rx x.rxCls (nth [] x.rx x.rxCls ++ [f]), rxLeft := x.rxLeft - 1 }

/-- The receiver takes the flits of a group: first a time message that goes ahead of an unfinished one (R46). -/
def BrgDir.feedGroup (x : BrgDir) (g : FlitGroup) : BrgDir :=
  let y := (g.flits.take g.lead).foldl BrgDir.feed { x with rxLeft := if g.lead = 0 then x.rxLeft else 0 }
  (g.flits.drop g.lead).foldl BrgDir.feed (if g.lead = 0 then y else { y with rxCls := x.rxCls, rxLeft := x.rxLeft })

/-- A link flit with its credit returns and swap taken out. -/
def plainLink (n : Nat) : BitVec 256 :=
  BitVec.ofNat 256 (n - bitsOf n 28 56 * 2 ^ 28 - bitsOf n 164 8 * 2 ^ 164)

/-- A link flit with credit returns set. -/
def withCred (n : Nat) (l : List Nat) : BitVec 256 :=
  BitVec.ofNat 256 (n - bitsOf n 28 56 * 2 ^ 28 + ((upFrom 0 7).zip l).foldl (fun a e => a + e.2 % 256 * 2 ^ (28 + 8 * e.1)) 0)

/-- A direction after training: sequence numbers from 0 (Table TH-9). Groups sent and not received go out again under new numbers
(log entry 17). The receiver announces each class's buffer less what it holds and what is still to come of messages that have
begun, and the transmitter waits for that count (R49). -/
def BrgDir.trained (x : BrgDir) (lmap : List Nat) : BrgDir :=
  let lost := x.unacked.filter (fun e => decide ((e.1 + 4096 - x.expect) % 4096 < 2048))
  let again := ((upFrom 0 lost.length).zip lost).map (fun e => (e.1, FlitGroup.mk e.2.2.flits (plainLink e.2.2.link.toNat) e.2.2.lead))
  let fed := x.slots.foldl BrgDir.feed (again.foldl (fun y e => y.feedGroup e.2) x)
  { x with lmap := lmap, credits := [0, 0, 0, 0, 0, 0, 0], seq := again.length, acked := 4095, replay := again,
           resend := again, expect := 0, naks := 0, nakOut := false,
           credOut := (upFrom 0 7).map (fun c => nth 0 brgSizes c - (nth [] fed.rx c).length), lpar := [],
           swapLane := none, swapOut := [] }

/-- Lane map and free spares of one direction after training with bad-lane mask `m`. -/
def State.mapLanes (s : State) (d : Dir) (m : Nat) (half : Bool) : State :=
  let x := s.dir d
  let bad := badCount m
  let spares := goodLanes m [48, 49]
  let s := s.setDir d (x.trained (if half then halfMap m else fullMap m (upFrom 0 48) spares))
  (s.setBad d m).setF (spareFld d) (if half ∧ 2 < bad then 0 else 2 - bad)

/-- The first link flit of a direction after training announces the receive buffers of the other one (R49): the first new group
carries the count, or else the first group that goes out again. -/
def State.announce (s : State) (d : Dir) : State :=
  let x := s.dir d
  let y := s.dir (dirOther d)
  match x.resend with
  | [] => s
  | (q, g) :: l =>
    let h : FlitGroup := { g with link := withCred g.link.toNat y.credOut }
    let s := s.setDir d { x with resend := (q, h) :: l, replay := (q, h) :: x.replay.drop 1 }
    s.setDir (dirOther d) { s.dir (dirOther d) with credOut := [0, 0, 0, 0, 0, 0, 0] }

/-- After a retrain that follows a bridge-down (R58): every replica is digested again, and no job starts before its package has
been judged; held records are then accepted. Adapter regions that could not be reached are written (R357). -/
def State.afterDown (s : State) : State :=
  let s := { s with pkgs := s.pkgs.map (fun (p : Pkg) => { p with judged := false }) }
  let s := s.forCores (fun k s => if s.pstate k < 2 then s.payAdapters k else s)
  let s := s.addDigests (s.pkgs.flatMap (fun p => s.pkgDigests p))
  let s := s.pkgs.foldl (fun s p => s.settlePkg p.id) s
  { s with brg := { s.brg with wasUp := false, retrains := 0 } }

/-- After a retrain that was no bridge-down the replicas are digested too (R457). -/
def State.afterRetrain (s : State) : State := s.addDigests ((s.pkgs.filter (fun p => !s.pkgWriting p)).flatMap (fun p => s.pkgDigests p))

/-- Training can end with the bridge up: at least 24 good lanes each way, between 300 µs and 2 ms after TRAIN. -/
def State.brgCanTrain (s : State) (f a : Nat) : Bool :=
  s.brg.training && decide (s.brg.trainAt + 300000 ≤ s.time.now) && decide (s.time.now ≤ s.brg.trainAt + 2000000)
    && decide (badCount f ≤ 26) && decide (badCount a ≤ 26)

/-- The lanes of a direction that training finds bad: those found now, and after R54 those marked before it. -/
def State.foundBad (s : State) (d : Dir) (m : BitVec 50) : Nat :=
  if s.brg.keepBad then m.toNat ||| s.badLanes d else m.toNat

/-- BRG_TRAINING_DONE (R51): lanes found bad in each direction, and the measured BRG_TDELAY. -/
def execBrgTrainingDone (badF badA : BitVec 50) (tdelay : BitVec 8) (s : State) : Out :=
  let f := s.foundBad .f2a badF
  let a := s.foundBad .a2f badA
  if !s.brgCanTrain f a then .next s
  else
    let half := 2 < badCount f ∨ 2 < badCount a
    let s := { s with brg := { s.brg with training := false, keepBad := false } }
    let s := (((s.mapLanes .f2a f half).mapLanes .a2f a half).announce .f2a).announce .a2f
    let s := (s.setF F.BRG_STATUS_UP 1).setF F.BRG_STATUS_WIDTH (if half then 1 else 0)
    let s := (s.setF F.BRG_STATUS_FAIL 0).setF F.BRG_STATUS_TDELAY tdelay.toNat
    let s := s.raiseCause 23
    .next ((if s.brg.wasUp then s.afterDown else s.afterRetrain).forCores (fun k s => s.releaseHeld k))

/-! ### Bridge down (R55) -/

/-- Data of a message as the receiver writes it: four words a flit, with the poison marker in all four where PMASK marks the
flit (R39). The data bits under a marker are not defined (R182). -/
def brgWords (m : BrgMsg) (c : Nat) : List SpWord :=
  ((upFrom 0 m.len).zip m.data).flatMap (fun e => (upFrom 0 4).map (fun i =>
    if bitsOf m.pmask e.1 1 = 1 then poisonWord (Config.freeWord (c + 4 * e.1 + i))
    else cleanWord (BitVec.ofNat 64 (bitsOf e.2.toNat (64 * i) 64))))

/-- A poisoned completion of a read request (R55). DESIGN CHOICE: INLINE gives the length in bytes (log entry 95). -/
def poisonedCpl (c : Nat) (m : BrgMsg) : BrgMsg :=
  let n := min 16 ((m.inl + 31) / 32)
  { m with cls := 2, len := n, pmask := 2 ^ n - 1, srcu := m.dstu, dstu := m.srcu,
           data := (upFrom 0 n).map (fun i => (Config.freeWord (c + i)).setWidth 256) }

/-- A message handed to a unit of the receiving half of a direction. -/
def State.handOver (s : State) (d : Dir) (m : BrgMsg) : State :=
  (s.setDir d { s.dir d with delivered := (m, brgWords m s.free) :: (s.dir d).delivered }).drawn 64

/-- An endpoint completes the reads its half asked for, poisoned, and discards what it had queued (R55). DESIGN CHOICE: flits that
the other endpoint holds and has not delivered are discarded too (log entry 95). -/
def State.dropDir (s : State) (d : Dir) : State :=
  let x := s.dir d
  let s := x.reads.foldl (fun s m => (s.handOver (dirOther d) (poisonedCpl s.free m)).drawn 16) s
  s.setDir d { s.dir d with queue := [], slots := [], replay := [], resend := [], reads := [],
                            rx := [[], [], [], [], [], [], [], []], rxLeft := 0 }

/-- Every core stops at its next instruction boundary, in IDLE (R55). -/
def State.stopCore (s : State) (k : Fin 8) : State :=
  let c := s.core k
  let s := s.setCore k { c with ctx := c.ctx.map (fun x => { x with running := false, atBar := false }) }
  if s.pstate k = 0 then (s.setF (F.CORE_STATUS_PSTATE k) 1).setCore k { s.core k with idleSince := s.time.now } else s

/-- The bridge goes down (R55, R43, R52). -/
def State.bridgeDown (s : State) : State :=
  let s := (s.dropDir .f2a).dropDir .a2f
  let s := (s.setF F.BRG_STATUS_UP 0).setF F.BRG_STATUS_TSYNC 0
  let s := (s.bump F.BRG_STATUS_DOWNS 1).raiseCause 23
  let s := { s with brg := { s.brg with training := false, wasUp := true, downAt := s.time.now, keepBad := false },
                     time := { s.time with aftSlew := 0, syncing := false } }
  let hit := s.jobs.filter (fun j => !j.cores.isEmpty && j.state != .dead)
  let s := hit.foldl (fun s j =>
    (s.killJob j.id 0x32).report { mkRec s.time.now 0x09 0x32 with job := j.id, kill := true }) s
  let s := if hit.isEmpty then s.report (mkRec s.time.now 0x09 0x32) else s
  let s := s.forCores (fun k s => (s.stopCore k).failHeld k)
  let s := allWins.foldl (fun s n => s.closeWinNow n) s
  let s := allWins.foldl (fun s n => s.setOb n { (vget s.lnk.ob n) with open_ := false }) s
  s.failWaits excWindowClosed (fun _ => true)

/-- BRG_TRAINING_FAIL (R52): too few good lanes, or the 2 ms limit. After a bridge-up the failed retrain is a
bridge-down. -/
def execBrgTrainingFail (badF badA : BitVec 50) (s : State) : Out :=
  let f := s.foundBad .f2a badF
  let a := s.foundBad .a2f badA
  if s.brg.training ∧ (26 < badCount f ∨ 26 < badCount a ∨ s.brg.trainAt + 2000000 < s.time.now) then
    let first := s.brg.f2a.seq = 0 ∧ s.getF F.BRG_STATUS_DOWNS = 0 ∧ s.dev = devBoot
    let s := { s with brg := { s.brg with training := false, keepBad := false } }
    let s := ((s.setBad .f2a f).setBad .a2f a).setF F.BRG_STATUS_FAIL 1
    .next (if first ∨ s.brg.wasUp then { s.raiseCause 23 with brg := { s.brg with downAt := s.time.now } }
      else s.bridgeDown)
  else .next s

/-- BRIDGE_RETRAIN_TIMER (R58): 1 ms after the bridge went down or a retrain failed, the firmware retrains. -/
def execBridgeRetrainTimer (s : State) : Out :=
  if s.brg.wasUp ∧ !s.brgUp ∧ !s.brg.training ∧ s.brg.retrains < s.getF F.BRG_CTRL_RETRY_MAX
      ∧ s.brg.downAt + 1000000 ≤ s.time.now then
    .next { s.brgTrain with brg := { s.brgTrain.brg with retrains := s.brg.retrains + 1 } }
  else .next s

/-- BRIDGE_NAK_LIMIT (R43): eight consecutive NAKs for one group. -/
def execBridgeNakLimit (d : Dir) (s : State) : Out :=
  if s.brgUp ∧ 8 ≤ (s.dir d).naks then .next s.bridgeDown else .next s

/-- BRIDGE_LOCK_LOSS (R55): lanes that lost lock at once in a direction, as a mask; three or more take the bridge
down. -/
def execBridgeLockLoss (d : Dir) (lanes : BitVec 50) (s : State) : Out :=
  if s.brgUp ∧ 3 ≤ 50 - (goodLanes lanes.toNat (upFrom 0 50)).length then
    let _ := d
    .next s.bridgeDown
  else .next s

/-! ### Lane repair (R53, R54) -/

/-- The free spare of a direction: the lowest-numbered good lane of 48 and 49 that carries no logical lane, while SPARE counts any. -/
def State.freeSpare (s : State) (d : Dir) : Option Nat :=
  if s.getF (spareFld d) = 0 then none
  else [48, 49].find? (fun l => bitsOf (s.badLanes d) l 1 == 0 && !(s.dir d).lmap.contains l)

/-- Both ends change the map and replay from the last acknowledged group (R53). -/
def State.doSwap (s : State) (d : Dir) (lane : Nat) : State :=
  match s.freeSpare d with
  | none => s.setDir d { s.dir d with swapLane := none }
  | some sp =>
    let x := s.dir d
    let old := nth 0 x.lmap lane
    let again := x.unacked
    let s := s.setDir d { x with lmap := setNth x.lmap lane sp, resend := again, swapLane := none,
                                 lpar := mset (dflt 0) x.lpar lane 0 }
    let s := (s.setBad d (s.badLanes d ||| 2 ^ old)).bump F.BRG_RETRY again.length
    s.setF (spareFld d) (s.getF (spareFld d) - 1)

/-- A logical lane has more LPAR mismatches within 1 ms than LANE_LIMIT allows. -/
def State.laneBad (s : State) (d : Dir) (lane : Nat) : Bool :=
  decide (s.getF F.BRG_CTRL_LANE_LIMIT < mget (dflt 0) (s.dir d).lpar lane)

/-- LANE_SWAP (R53), step 1: the receiver asks for the swap in the next link flit it sends. The map changes when the transmitter's
acknowledge arrives. One swap is asked for at a time. -/
def execLaneSwap (d : Dir) (lane : Nat) (s : State) : Out :=
  let o := dirOther d
  if s.brgUp ∧ lane < 48 ∧ s.laneBad d lane ∧ (s.freeSpare d).isSome ∧ (s.dir d).swapLane = none then
    let s := s.setDir d { s.dir d with swapLane := some lane }
    .next (s.setDir o { s.dir o with swapOut := (s.dir o).swapOut ++ [(1, lane)] })
  else .next s

/-- LANE_FAIL_NO_SPARE (R54): the bridge retrains with the lane marked bad; R51 then gives half width. -/
def execLaneFailNoSpare (d : Dir) (lane : Nat) (s : State) : Out :=
  if s.brgUp ∧ lane < 48 ∧ s.laneBad d lane ∧ (s.freeSpare d).isNone then
    let s := (s.setBad d (s.badLanes d ||| 2 ^ (nth 0 (s.dir d).lmap lane))).brgTrain
    .next { s with brg := { s.brg with keepBad := true } }
  else .next s

/-! ### Flits and groups (R35–R44) -/

/-- The header flit of a message (Table TH-6). -/
def brgHeader (m : BrgMsg) : BitVec 256 :=
  let r := m.resv
  BitVec.ofNat 256 (m.cls % 8 + r % 2 * 8 + m.opc % 16 * 2 ^ 4 + m.tag % 4096 * 2 ^ 8 + m.job % 4096 * 2 ^ 20
    + m.len % 32 * 2 ^ 32 + r / 2 % 8 * 2 ^ 37 + m.srcu % 256 * 2 ^ 40 + m.dstu % 256 * 2 ^ 48 + r / 16 % 256 * 2 ^ 56
    + m.addr % 2 ^ 48 * 2 ^ 64 + m.pmask % 65536 * 2 ^ 112 + m.inl % 2 ^ 128 * 2 ^ 128)

/-- Reads a header flit (Table TH-6); the reserved bits are kept in `resv`. -/
def brgOfHeader (h : BitVec 256) (data : List (BitVec 256)) : BrgMsg :=
  let n := h.toNat
  { cls := bitsOf n 0 3, opc := bitsOf n 4 4, tag := bitsOf n 8 12, job := bitsOf n 20 12, len := bitsOf n 32 5,
    srcu := bitsOf n 40 8, dstu := bitsOf n 48 8, addr := bitsOf n 64 48, pmask := bitsOf n 112 16,
    inl := bitsOf n 128 128, resv := bitsOf n 3 1 + bitsOf n 37 3 * 2 + bitsOf n 56 8 * 16, data := data }

/-- A header with a reserved CLASS, a reserved LEN or non-zero reserved bits (R40). -/
def brgBad (m : BrgMsg) : Bool := m.cls == 7 || decide (16 < m.len) || m.resv != 0

/-- The 2,816 bits of slots 0–10 as a number: bit j of the group is bit j (R35). DESIGN CHOICE: empty slots carry zeros (log
entry 91). -/
def slotBits (flits : List (BitVec 256)) : Nat :=
  ((upFrom 0 11).zip (flits.take 11)).foldl (fun a e => a + e.2.toNat * 2 ^ (256 * e.1)) 0

/-- LPAR: the parity of each logical lane's bits, bit j being on lane j mod 48 (R35, Table TH-7). -/
def lparOf (n : Nat) : Nat :=
  -- fold the 2,816 bits, 48 at a time
  (upFrom 0 59).foldl (fun a i => a ^^^ (n / 2 ^ (48 * i) % 2 ^ 48)) 0

/-- CRC of a group: slots 0–10 and bits [131:0] of the link flit (Table TH-7). -/
def groupCrc (g : FlitGroup) : Nat :=
  crc32 (bitsLow 2816 (slotBits g.flits) ++ bitsLow 132 (g.link.toNat % 2 ^ 132))

/-- A link flit (Table TH-7) with its CRC over the given message flits. -/
def mkLinkFlit (flits : List (BitVec 256)) (seq ack : Nat) (nak : Bool) (cred : List Nat) (swap : Nat × Nat) :
    BitVec 256 :=
  let credits := ((upFrom 0 7).zip cred).foldl (fun a e => a + e.2 % 256 * 2 ^ (28 + 8 * e.1)) 0
  let low := 7 + seq % 4096 * 2 ^ 3 + ack % 4096 * 2 ^ 15 + (if nak then 2 ^ 27 else 0) + credits
    + lparOf (slotBits flits) * 2 ^ 84
  let g : FlitGroup := ⟨flits, BitVec.ofNat 256 low, 0⟩
  BitVec.ofNat 256 (low + groupCrc g * 2 ^ 132 + swap.1 % 4 * 2 ^ 164 + swap.2 % 64 * 2 ^ 166)

/-- Credits of a class. -/
def BrgDir.credit (x : BrgDir) (c : Nat) : Nat := nth 0 x.credits c

/-- The first waiting message of a class. -/
def BrgDir.first (x : BrgDir) (c : Nat) : Option BrgMsg := x.queue.find? (fun m => m.cls == c)

/-- The first message of a class can start: it holds 1 + LEN credits (R44). -/
def BrgDir.canStart (x : BrgDir) (c : Nat) : Bool :=
  match x.first c with
  | none => false
  | some m => decide (1 + m.len ≤ x.credit c)

/-- Poison seen in the data a sender reads sets the PMASK bit (R39): the message as offered carries it. -/
def brgFlits (m : BrgMsg) : List (BitVec 256) := brgHeader m :: m.data.take m.len

/-- A time message as it leaves: INLINE [63:0] is the DTIME of that moment (R47). DESIGN CHOICE: toward the Fore half it is the Aft
replica's (log entry 93). -/
def brgStamp (m : BrgMsg) (now : Nat) : BrgMsg :=
  if m.cls = 4 then { m with inl := m.inl - m.inl % 2 ^ 64 + now % 2 ^ 64 } else m

/-- Starts the first message of a class: its flits enter the slots, its credits are spent (R44). -/
def BrgDir.start (x : BrgDir) (now c : Nat) : BrgDir :=
  match x.first c with
  | none => x
  | some m =>
    { x with queue := x.queue.eraseP (fun q => q.cls == c),
             credits := setNth x.credits c (x.credit c - (1 + m.len)), slots := x.slots ++ brgFlits (brgStamp m now) }

/-- A pending time message takes slot 0 of the group, ahead of an unfinished message (R46); how many slots it takes there. -/
def BrgDir.frontTime (x : BrgDir) (now : Nat) : BrgDir × Nat :=
  if x.canStart 4 then
    let y := BrgDir.start { x with slots := [] } now 4
    ({ y with slots := y.slots ++ x.slots }, if x.slots.isEmpty then 0 else y.slots.length)
  else (x, 0)

/-- Round-robin weights of classes 0–3 (Table TH-8). DESIGN CHOICE: a turn is one message (log entry 123). -/
def rrWeight (c : Nat) : Nat := nth 1 [2, 2, 4, 8] c

/-- The next class of the weighted round-robin that can start; a class with none gives up its turn (R46). -/
def BrgDir.pickRr (x : BrgDir) : Nat → Option (Nat × Nat)
  | 0 => none
  | fuel + 1 =>
    if 0 < x.rrLeft ∧ x.canStart x.rrCls then some (x.rrCls, x.rrLeft)
    else BrgDir.pickRr { x with rrCls := (x.rrCls + 1) % 4, rrLeft := rrWeight ((x.rrCls + 1) % 4) } fuel

/-- Fills the slots of one group (R46): behind a time message, an unfinished message goes on in consecutive slots (R38); then
classes 5 and 6, then the round-robin. Fewer than 11 slots stay filled only when nothing more can start. DESIGN CHOICE: a turn of
the weighted round-robin is one message started (log entry 123). -/
def BrgDir.fill (now : Nat) : Nat → BrgDir → BrgDir
  | 0, x => x
  | fuel + 1, x =>
    if 11 ≤ x.slots.length then x
    else if x.canStart 5 then BrgDir.fill now fuel (x.start now 5)
    else if x.canStart 6 then BrgDir.fill now fuel (x.start now 6)
    else
      match x.pickRr 5 with
      | none => x
      | some (c, left) => BrgDir.fill now fuel { x.start now c with rrCls := c, rrLeft := left - 1 }

/-- The last group received good in the other direction. -/
def BrgDir.lastGood (x : BrgDir) : Nat := (x.expect + 4095) % 4096

/-- Credit returns of a link flit (Table TH-7). -/
def linkCred (n : Nat) : List Nat := (upFrom 0 7).map (fun c => bitsOf n (28 + 8 * c) 8)

/-- A group sent again (R42): its flits, SEQ, credits and swap, with the acknowledgement and NAK due now. It returns its NAK again
while the group asked for (`lack`) has not come. -/
def groupAgain (g : FlitGroup) (seq ack : Nat) (nak lack : Bool) : FlitGroup :=
  let n := g.link.toNat
  { g with link := mkLinkFlit g.flits seq ack (nak || (lack && bitsOf n 27 1 == 1)) (linkCred n) (bitsOf n 164 2, bitsOf n 166 6) }

/-- The DTIME that a direction's transmitter reads (R47). -/
def State.dirNow (s : State) : Dir → Nat
  | .f2a => s.time.now
  | .a2f => s.time.aft

/-- Sends one group of a direction: a group to be replayed goes first; else 11 message slots are filled, and the group is
kept in the 64-group replay buffer (R42). Credits and a swap due now wait for the next new group. -/
def State.sendGroup (s : State) (d : Dir) : State :=
  let o := dirOther d
  let y := s.dir o
  match (s.dir d).resend with
  | (q, g) :: rest =>
    let s := s.setDir d { s.dir d with resend := rest }
    (s.setDir o { s.dir o with nakOut := false }).emit (.group (dirNum d) q (groupAgain g q y.lastGood y.nakOut (decide (0 < y.naks))))
  | [] =>
    let (x, lead) := (s.dir d).frontTime (s.dirNow d)
    let x := BrgDir.fill (s.dirNow d) 16 x
    let flits := x.slots.take 11
    let g : FlitGroup := ⟨flits, mkLinkFlit flits x.seq y.lastGood y.nakOut y.credOut (x.swapOut.headD (0, 0)), lead⟩
    let all := x.replay ++ [(x.seq, g)]
    let s := s.setDir d { x with slots := x.slots.drop 11, seq := (x.seq + 1) % 4096,
                                 replay := all.drop (all.length - 64), swapOut := x.swapOut.drop 1 }
    (s.setDir o { s.dir o with nakOut := false, credOut := [0, 0, 0, 0, 0, 0, 0] }).emit (.group (dirNum d) x.seq g)

/-- BRIDGE_MESSAGE_SEND (R44): messages offered to the transmitter of a direction join its queue, and one group is filled
and sent. A read request stays outstanding until its completion (R55). -/
def execBridgeMessageSend (d : Dir) (offered : List BrgMsg) (s : State) : Out :=
  if !s.brgUp then .next s
  else
    let x := s.dir d
    let s := s.setDir d { x with queue := x.queue ++ offered, reads := x.reads ++ offered.filter (fun m => m.cls == 1) }
    .next (s.sendGroup d)

/-- Counts LPAR mismatches per logical lane, within the present millisecond (R53). -/
def State.countLpar (s : State) (d : Dir) (g : FlitGroup) : State :=
  let x := s.dir d
  let x := if x.lparSince + 1000000 ≤ s.time.now then { x with lpar := [], lparSince := s.time.now } else x
  let diff := lparOf (slotBits g.flits) ^^^ bitsOf g.link.toNat 84 48
  let l := (upFrom 0 48).foldl (fun l i =>
    if bitsOf diff i 1 = 1 then mset (dflt 0) l i (mget (dflt 0) l i + 1) else l) x.lpar
  s.setDir d { x with lpar := l }

/-- The acknowledgement and NAK of a link flit of direction `d`: the other direction resends from ACKSEQ + 1 (R42). -/
def State.takeAck (s : State) (d : Dir) (n : Nat) : State :=
  let o := dirOther d
  let y := { s.dir o with acked := bitsOf n 15 12 }
  if bitsOf n 27 1 = 1 then (s.setDir o { y with resend := y.unacked }).bump F.BRG_RETRY y.unacked.length else s.setDir o y

/-- What the link flit of a group taken in order in direction `d` says about the other direction: acknowledgement, NAK and replay
(R42), credit returns (R44), lane swap (R53). -/
def State.takeLink (s : State) (d : Dir) (n : Nat) : State :=
  let o := dirOther d
  let s := s.takeAck d n
  let y := s.dir o
  let s := s.setDir o { y with credits := (upFrom 0 7).map (fun c => y.credit c + bitsOf n (28 + 8 * c) 8) }
  match bitsOf n 164 2 with
  | 1 =>
    -- request, step 2: the transmitter of the other direction answers with an acknowledge
    s.setDir o { s.dir o with swapOut := (s.dir o).swapOut ++ [(2, bitsOf n 166 6)] }
  | 2 =>
    -- acknowledge, step 3: both ends of this direction change the map
    match (s.dir d).swapLane with
    | none => s
    | some lane => s.doSwap d lane
  | _ => s

/-- BRIDGE_GROUP_RECEIVE (R42): the receiver of a direction takes a group. `flits` holds its occupied message slots (log
entry 91). Of a good group out of order, a replay of one it has, only the acknowledgement and the NAK count. -/
def execBridgeGroupReceive (d : Dir) (g : FlitGroup) (s : State) : Out :=
  if !s.brgUp then .next s
  else
    let s := s.countLpar d g
    let n := g.link.toNat
    let x := s.dir d
    if groupCrc g ≠ bitsOf n 132 32 ∨ 11 < g.flits.length then
      .next (s.setDir d { x with naks := x.naks + 1, nakOut := true })
    else if bitsOf n 3 12 ≠ x.expect then .next (s.takeAck d n)
    else
      let s := s.setDir d { x.feedGroup g with expect := (x.expect + 1) % 4096, naks := 0 }
      .next (s.takeLink d n)

/-! ### Messages received (R39, R40, R48) -/

/-- Bytes of the data flits with their poison (R39). -/
def brgBytes (m : BrgMsg) : List (Byte × Bool) :=
  ((upFrom 0 m.len).zip m.data).flatMap (fun e =>
    (leBytes 32 e.2.toNat).map (fun b => (b, bitsOf m.pmask e.1 1 == 1)))

/-- PMASK and data flits of bytes being sent (R39). -/
def flitsOfBytes (l : List (Byte × Bool)) : List (BitVec 256) × Nat :=
  let n := (l.length + 31) / 32
  let part (i : Nat) : List (Byte × Bool) := (l.drop (32 * i)).take 32
  ((upFrom 0 n).map (fun i => BitVec.ofNat 256 (leNat ((part i).map (·.1)))),
   (upFrom 0 n).foldl (fun a i => if (part i).any (·.2) then a + 2 ^ i else a) 0)

/-- Returns the credits of a message taken by its endpoint (R44). -/
def BrgDir.drain (x : BrgDir) (c n : Nat) : BrgDir := { x with credOut := setNth x.credOut c (nth 0 x.credOut c + n) }

/-- What the receiving half does with a message, by class (Table TH-8). A read longer than its completion can carry is cut to 512
bytes, but for a scratchpad, where only a whole row is read (R31). Pixel rows toward the Aft half land in the scratchpad row they
name. -/
def State.deliver (s : State) (d : Dir) (m : BrgMsg) : State :=
  let o := dirOther d
  let s := s.handOver d m
  let row : Bool := match s.region m.addr with
    | .sp _ _ _ => true
    | _ => false
  match m.cls with
  | 0 => (s.devWrite (.brg m.job) m.addr (brgBytes m) false).2
  | 1 =>
    let (l, _, s) := s.devRead (.brg m.job) m.addr (min (if row then 513 else 512) m.inl)
    let (data, pm) := flitsOfBytes (l.take 512)
    let c : BrgMsg := { m with cls := 2, len := data.length, pmask := pm, srcu := m.dstu, dstu := m.srcu, data := data }
    s.setDir o { s.dir o with queue := (s.dir o).queue ++ [c] }
  | 2 => s.setDir o { s.dir o with reads := (s.dir o).reads.eraseP (fun q => q.tag == m.tag) }
  | 3 => if d = .f2a ∧ row then (s.devWrite (.brg m.job) m.addr (brgBytes m) false).2 else s
  | 4 => if d = .f2a then s.timeMessage (m.inl % 2 ^ 64) else s
  | _ => s

/-- The row of a read request that waits at its core (R192, R194). -/
def State.brgHeld (s : State) (d : Dir) (m : BrgMsg) : Option (Fin 8 × Nat) :=
  match s.region m.addr with
  | .sp k r b =>
    if m.cls = 1 ∧ b = 0 ∧ m.inl = 512 ∧ !brgBad m ∧ s.rowAllowed m.job k r false ∧ s.pstate (coreOf k) < 2 ∧ s.spHeld (coreOf k)
        ∧ !(s.dir d).late then some (coreOf k, r) else none
  | _ => none

/-- BRIDGE_MESSAGE_RECEIVE (R39): the receiver of a direction takes the first whole message of a class's buffer (R45). -/
def execBridgeMessageReceive (b : BrgBuf) (s : State) : Out :=
  let x := s.dir b.dir
  match nth [] x.rx b.cls.val with
  | [] => .next s
  | h :: rest =>
    let m := brgOfHeader h (rest.take (bitsOf h.toNat 32 5))
    if rest.length < m.len then .next s
    else match s.brgHeld b.dir m with
    | some (k, r) => .next (s.holdRead k (10 + dirNum b.dir) r 0 512)
    | none =>
      let s := s.setDir b.dir ({ x with rx := setNth x.rx b.cls.val (rest.drop m.len), late := x.late && m.cls != 1 }.drain b.cls.val (1 + m.len))
      if brgBad m then
        let s := s.bump F.BRG_ERRCNT 1
        .next (match b.dir with
          | .f2a => s.reportAft (mkRec s.time.aft 0x11 0x33)
          | .a2f => s.report (mkRec s.time.now 0x09 0x33))
      else .next (s.deliver b.dir m)

/-- BRIDGE_TIME_MESSAGE (R47): a time message crosses in a direction. The Aft half takes one that left the Fore half BRG_TDELAY ago;
one toward the Fore half, whose DTIME is the part's own (R84), aligns nothing. -/
def execBridgeTimeMessage (d : Dir) (s : State) : Out :=
  .next (if s.brgUp ∧ d = .f2a then s.timeMessage ((s.time.now + (2 ^ 64 - s.getF F.BRG_STATUS_TDELAY)) % 2 ^ 64) else s)

end Sys2Proof.Machine
end

