-- ==== Sys2Proof/Machine/StoreOps.lean ====
section
/-! DEFINITION. Objects the part verifies (boot images R597, packages Table BS-6, Field Pattern Packs R495), the anti-rollback
counters (R602–R604), and the persistent store (chapter 21): sectors, anchors, retirement, the hold-up check, and the steps of
a write. -/

namespace Sys2Proof.Machine

/-! ### Fuses -/

/-- Registers that show fuses (Table BS-14, Table SC-8). -/
def State.showFuses (s : State) : State :=
  let s := ((s.setF F.SEC_ARB_ARB0 (s.arb 0)).setF F.SEC_ARB_ARB1 (s.arb 1)).setF F.SEC_ARB_LATCH (s.latchCount % 32)
  let s := s.setF F.SEC_STATUS_LATCHED (if s.latched then 1 else 0)
  let s := (s.setF F.SEC_HOLDUP_C_C (s.fuse 10 0)).setF F.SEC_HOLDUP_V_VMIN (s.fuse 11 0)
  (s.setF F.SEC_HOLDUP_V_RATIO (s.fuse 12 0)).setF F.GLB_ID1_GRADE (s.fuse 8 0)

/-- Programs bits of a fuse word; a programmed bit stays (R602). -/
def State.addFuse (s : State) (f w v : Nat) : State :=
  let n := f * 256 + w
  { s with sec := { s.sec with fuses := mset (dflt 0) s.sec.fuses n (mget (dflt 0) s.sec.fuses n ||| BitVec.ofNat 32 v) } }

/-- The next clear bit of `n` fuse words of a field from word `w` on. -/
def State.clearBit (s : State) (f w n : Nat) : Option (Nat × Nat) :=
  (((upFrom w n).flatMap (fun i => (upFrom 0 32).map (fun b => (i, b)))).find? (fun e => bitsOf (s.fuse f e.1) e.2 1 == 0))

/-- Blows the next bit of a counter field; a full field stays. -/
def State.blow (s : State) (f w n : Nat) : State :=
  match s.clearBit f w n with
  | none => s
  | some (i, b) => s.addFuse f i (2 ^ b)

/-- Blows bits until a counter stands at its target. -/
def State.blowTo (c target : Nat) : Nat → State → State
  | 0, s => s
  | n + 1, s => if s.arb c < target then State.blowTo c target n (s.blow 3 (2 * c) 2) else s

/-- An object of SVN `svn` is accepted by counter `c` (R604): the counter is raised when ARB_COMMIT is 1. -/
def State.acceptSvn (s : State) (c svn : Nat) (commit : Bool) : State :=
  let s := if commit then State.blowTo c (min svn 64) 64 s else s
  let s := if s.arb c = 64 ∧ 64 < svn then s.setF (if c = 0 then F.SEC_STATUS_ARB0_END else F.SEC_STATUS_ARB1_END) 1 else s
  s.showFuses

/-! ### Objects -/

/-- Judges a boot image (R597): 0, or the code of Table BS-3. -/
def State.bootCheck (s : State) (l : List Byte) : Nat :=
  let len := fieldAt l 8 4
  let l := l.take len
  let form := fieldAt l 0 4 == 0x4942384E && fieldAt l 4 2 == 1 && decide (fieldAt l 7 1 < 2) && decide (len ≤ 458752)
    && decide (128 ≤ len) && l.length == len && fieldAt l 20 4 % 8 == 0 && zeroAt l 40 127
    && decide (fieldAt l 12 4 < len) && decide (fieldAt l 16 4 + fieldAt l 20 4 ≤ len)
    && decide (fieldAt l 32 4 + fieldAt l 36 4 ≤ len) && fieldAt l 36 4 == 256
  if !form then 0x06
  else if s.checkSig l (fieldAt l 32 4) len (some 0) 0 != .good then 0x07
  else if fieldAt l 6 1 < s.arb 0 then 0x08 else 0

/-- Fields of a model package header (Table BS-6). -/
def pkgSvn (l : List Byte) : Nat := fieldAt l 6 1
def pkgCommit (l : List Byte) : Bool := fieldAt l 7 1 == 1
def pkgId (l : List Byte) : Nat := fieldAt l 8 4
def pkgVersion (l : List Byte) : Nat := fieldAt l 12 8
def pkgFirst (l : List Byte) : Nat := fieldAt l 20 4
def pkgRows (l : List Byte) : Nat := fieldAt l 24 4
def pkgAdapt (l : List Byte) : Nat := fieldAt l 28 4
def pkgExport (l : List Byte) : Nat := fieldAt l 32 2
def pkgShadow (l : List Byte) : Nat := fieldAt l 34 2
def pkgRcpt (l : List Byte) : Nat := fieldAt l 36 4
def pkgRcptN (l : List Byte) : Nat := fieldAt l 40 2
def pkgPay (l : List Byte) : Nat := fieldAt l 104 4
def pkgSig (l : List Byte) : Nat := fieldAt l 112 4

/-- The format of a model package, and room for its ledger record in 2,048 rows (R358; log entry 112). -/
def pkgForm (l : List Byte) : Bool :=
  fieldAt l 0 4 == 0x504D384E && fieldAt l 4 2 == 1 && decide (fieldAt l 7 1 < 2) && zeroAt l 42 43 && zeroAt l 120 127
    && decide (128 ≤ l.length) && decide (1 ≤ pkgRcptN l) && decide (pkgRcptN l ≤ 64)
    && decide (pkgRcpt l + 96 + 48 * pkgRcptN l ≤ l.length) && fieldAt l 108 4 == pkgRows l * 512
    && decide (pkgPay l + pkgRows l * 512 + 16 ≤ l.length) && fieldAt l 116 4 == 256 && pkgSig l + 256 == l.length
    && decide (pkgAdapt l + pkgExport l ≤ pkgRows l) && decide (pkgShadow l ≤ pkgRows l)
    && decide (1 + pkgShadow l + pkgExport l ≤ 2048)

/-- `[a, a + n)` lies within `[b, b + m)`. -/
def rangeIn (a n b m : Nat) : Bool := n == 0 || (decide (b ≤ a) && decide (a + n ≤ b + m))

/-- A pattern entry keeps to R487 and R495. Its result rows and input rows lie within its saved rows. -/
def patGood (e : List Byte) : Bool :=
  let f (a : Nat) : Nat := fieldAt e a 2
  zeroAt e 1 3 && zeroAt e 40 63 && decide (f 6 ≤ 8192) && decide (f 4 + f 6 ≤ 32768) && decide (f 10 ≤ 16384)
    && decide (f 8 + f 10 ≤ 65536) && decide (f 22 ≤ 1024) && rangeIn (f 12) (f 14) (f 20) (f 22)
    && rangeIn (f 16) (f 18) (f 20) (f 22)

/-- A Field Pattern Pack is accepted (R495). -/
def State.packGood (s : State) (l : List Byte) : Bool :=
  let n := fieldAt l 6 2
  let grade := s.getF F.GLB_ID1_GRADE
  let old := s.sto.objs.find? (fun o => o.target == 2 && o.id == fieldAt l 8 4)
  fieldAt l 0 4 == 0x5046384E && fieldAt l 4 2 == 1 && decide (1 ≤ n) && decide (n ≤ 64) && zeroAt l 22 23 && zeroAt l 32 127
    && decide (128 + 64 * n ≤ fieldAt l 24 4) && fieldAt l 28 4 == 256 && fieldAt l 24 4 + 256 == l.length
    && s.checkSig l (fieldAt l 24 4) l.length (some 3) 0 == .good
    && (fieldAt l 20 1 == 0xFF || fieldAt l 20 1 == s.getF F.GLB_ID1_STEPPING)
    && (if grade = 1 then fieldAt l 21 1 % 2 == 1 else if grade = 2 then fieldAt l 21 1 / 2 % 2 == 1 else false)
    && old.all (fun o => decide (o.version ≤ fieldAt l 12 8))
    && (upFrom 0 n).all (fun p => patGood ((l.drop (128 + 64 * p)).take 64))

/-! ### Sectors (Table PS-2, R623) -/

/-- Physical sector of a logical one. -/
def State.physSector (s : State) (l : Nat) : Nat := ((s.sto.remap.find? (fun e => e.1 == l)).map (·.2)).getD l

/-- Erase count of a logical sector. -/
def State.eraseCount (s : State) (l : Nat) : Nat := mget (dflt 0) s.sto.erases (s.physSector l)

/-- A sector has reached its limit. -/
def State.worn (s : State) (l : Nat) : Bool := decide (s.getF F.STO_CFG_ERASE_LIMIT ≤ s.eraseCount l)

/-- Counts an erase of a logical sector. -/
def State.countErase (s : State) (l : Nat) : State :=
  let n := s.eraseCount l + 1
  let s := { s with sto := { s.sto with erases := mset (dflt 0) s.sto.erases (s.physSector l) n } }
  s.setF F.STO_MAXERASE_COUNT (max (s.getF F.STO_MAXERASE_COUNT) n)

/-- Spare sectors that are free. -/
def State.freeSpares (s : State) : List Nat :=
  (upFrom (s.sto.sectors - 64) 64).filter (fun p => !s.sto.remap.any (fun e => e.2 == p) && !s.sto.retired.contains p)

/-- STO_STATUS.SPARES, BUSY and MOUNTED. -/
def State.showStore (s : State) : State :=
  let s := (s.setF F.STO_STATUS_SPARES s.freeSpares.length).setF F.STO_STATUS_BUSY (if s.sto.cur.isSome then 1 else 0)
  s.setF F.STO_STATUS_MOUNTED (if s.sto.formatted then 1 else 0)

/-- Index of the anchor that the firmware uses: the valid one with the higher SEQ (R615). -/
def State.anchorNow (s : State) : Option (Nat × Nat × Nat × Bool) :=
  match nth none s.sto.anchors 0, nth none s.sto.anchors 1 with
  | none, none => none
  | some a, none => some (0, a)
  | none, some b => some (1, b)
  | some a, some b => if a.1 < b.1 then some (1, b) else some (0, a)

/-- The boot copy that is active (R616). -/
def State.activeCopy (s : State) : Nat := match s.anchorNow with
  | none => 0
  | some (_, _, c, _) => c % 2

/-- The sector that an anchor update erases. -/
def State.anchorTarget (s : State) : Nat := match s.anchorNow with
  | none => 0
  | some (i, _) => 1 - i

/-- Writes the other anchor with SEQ one higher (R615). A sector at its limit is not erased. -/
def State.writeAnchor (s : State) (active : Nat) (worn : Bool) : State :=
  let i := s.anchorTarget
  if s.worn i then s
  else
    let q := match s.anchorNow with
      | none => 1
      | some (_, q, _) => q + 1
    let s := s.countErase i
    { s with sto := { s.sto with anchors := setNth s.sto.anchors i (some (q, active, worn)) } }

/-- Records a journal sector holds before its index: the index's size is not stated (log entry 22). -/
def State.journalRoom (s : State) : Nat := 255 - Config.openOp 54 [s.sto.objs.length, s.sto.sectors] % 255

/-- Retires a logical sector (R623): a free spare takes its number, or the store is worn. -/
def State.retireSector (s : State) (l : Nat) : State :=
  let p := s.physSector l
  let s := { s with sto := { s.sto with retired := p :: s.sto.retired } }
  match s.freeSpares with
  | q :: _ =>
    let m := (l, q) :: s.sto.remap.filter (fun e => e.1 != l)
    let s := { s with sto := { s.sto with remap := m, seq := s.sto.seq + 1 } }
    let s := s.writeAnchor s.activeCopy (s.flag F.STO_STATUS_WORN)
    (s.report { mkRec s.time.now 0x0A 0x66 with addr := p }).showStore
  | [] =>
    let s := (s.setF F.STO_STATUS_WORN 1).writeAnchor s.activeCopy true
    ((s.report { mkRec s.time.now 0x0A 0x65 with addr := p }).raiseCause 28).showStore

/-- The journal sector `j` is erased, or, at its limit with no spare left, one of the `n` after it; a sector at its limit is retired first. -/
def State.nextJournal : Nat → Nat → State → Nat × State
  | 0, j, s => (j, s)
  | n + 1, j, s =>
    let l := 18 + j
    let s := if s.worn l && !s.sto.retired.contains (s.physSector l) then s.retireSector l else s
    if s.worn l then State.nextJournal n ((j + 1) % 8) s else (j, s.countErase l)

/-- Writes a journal record (R621): a full sector gives way to the next one, which is erased, or retired at its limit (R623). -/
def State.journal (s : State) : State :=
  let s := { s with sto := { s.sto with seq := s.sto.seq + 1, formatted := true } }
  let n := s.sto.jpos % 256
  if n + 1 < s.journalRoom then { s with sto := { s.sto with jpos := s.sto.jpos + 1 } }
  else
    let (j, s) := State.nextJournal 8 ((s.sto.jpos / 256 + 1) % 8) s
    { s with sto := { s.sto with jpos := j * 256 } }

/-- Sectors of a list of extents. -/
def extSectors (l : List (Nat × Nat)) : List Nat := l.flatMap (fun e => upFrom e.1 e.2)

/-- Data sectors that no object holds and that may be erased. -/
def State.freeSectors (s : State) : List Nat :=
  let used := s.sto.objs.flatMap (fun o => extSectors o.ext)
  let mine := match s.sto.cur with
    | none => []
    | some w => extSectors w.obj.ext
  (upFrom 26 (s.sto.sectors - 90)).filter (fun l =>
    !used.contains l && !mine.contains l && !s.sto.retired.contains (s.physSector l) && !s.worn l)

/-- Inserts a sector in order of erase count, then number. -/
def insertSector (s : State) (x : Nat) : List Nat → List Nat
  | [] => [x]
  | y :: l =>
    if s.eraseCount x < s.eraseCount y ∨ (s.eraseCount x = s.eraseCount y ∧ x < y) then x :: y :: l else y :: insertSector s x l

/-- The `n` free sectors that a write takes (R618): lowest erase count first, ties to the lower number. -/
def State.pickSectors (s : State) (n : Nat) : List Nat := ((s.freeSectors.foldl (fun l x => insertSector s x l) []).take n)

/-- Inserts a number into a rising list. -/
def insertNat (x : Nat) : List Nat → List Nat
  | [] => [x]
  | y :: l => if x < y then x :: y :: l else y :: insertNat x l

/-- Extents of a rising list of sectors. -/
def extentsOf : List Nat → List (Nat × Nat)
  | [] => []
  | x :: l =>
    match extentsOf l with
    | (a, n) :: r => if x + 1 = a then (x, n + 1) :: r else (x, 1) :: (a, n) :: r
    | [] => [(x, 1)]

/-! ### Hold-up energy (R624, R625) -/

/-- The mean of the last four samples of channel 9, times four. -/
def State.holdSum (s : State) : Nat := (s.pwr.hold.take 4).foldl (· + ·) 0

/-- Capacitor voltage V = M × RATIO / 256, in mV, rounded down (log entry 55). -/
def State.capVolt (s : State) : Nat := s.holdSum * s.getF F.SEC_HOLDUP_V_RATIO / 1024

/-- E × 2 × 10⁹ and E_op × 16 × 10⁶, in those units of 1 mJ. -/
def State.energyE (s : State) : Nat :=
  let v := s.capVolt
  let m := s.getF F.SEC_HOLDUP_V_VMIN
  s.getF F.SEC_HOLDUP_C_C * (v * v - m * m)
def State.energyOp (s : State) : Nat :=
  s.getF F.STO_HOLD_P_HOLD * (s.getF F.STO_HOLD_T_ERASE * 1000 + 2 * s.getF F.STO_TPROG_T_PROG) * (16 + s.getF F.STO_CFG_MARGIN)

/-- The hold-up check: passed or not, with STO_ENERGY shown. -/
def State.energyCheck (s : State) : Bool × State :=
  if s.getF F.SEC_HOLDUP_C_C = 0 ∧ s.flag F.STO_CFG_UNPROT then (true, s.setF F.STO_STATUS_UNPROT 1)
  else
    let e := s.energyE
    let o := s.energyOp
    let s := (s.setF F.STO_ENERGY_E (min (e / 2000000000) 65535)).setF F.STO_ENERGY_E_OP (min (o / 16000000) 65535)
    if s.getF F.SEC_HOLDUP_C_C ≠ 0 ∧ o * 2000000000 ≤ e * 16000000 then (true, s)
    else (false, s.setF F.STO_STATUS_ENERGY_REFUSED 1)

/-! ### Ledger (R357–R360) -/

/-- The rows of a run as bytes. -/
def State.rowRun (s : State) (k : Fin 8) (first n : Nat) : List Byte :=
  let m := s.peek k []
  (upFrom first n).flatMap (fun r => rowBytes ((upFrom 0 64).map (fun i => m false r i)))

/-- Writes the export rows of a record into the adapter region of every replica, as WEIGHT writes (R199): of a core that sleeps or
that the bridge cuts off, once it can be reached. -/
def State.putAdapter (s : State) (p : Pkg) (l : List Byte) : State :=
  let now (k : Nat) : Bool := decide (s.pstate (coreOf k) < 2) && s.brgUp
  let s := (p.cores.filter now).foldl (fun s k => s.putAdapterOn p k l) s
  { s with pkgs := s.pkgs.map (fun q => if q.id = p.id then { q with owed := p.cores.filter (fun k => !now k), owedRows := l } else q) }

/-- Session rows that a commit reads: first row of the first STATE range on a core (R348). -/
def Job.stateRow (j : Job) (k : Nat) : Option RowRange := (j.on k).rows.find? (fun g => g.cls == 1)

/-- The package of a session. -/
def State.sessionPkg (s : State) (j : Job) : Option Pkg :=
  match j.models with
  | [] => none
  | m :: _ => s.pkgs.find? (fun p => p.id == m.pkg && p.version == m.version && p.digest % 2 ^ 128 == m.digest)

/-- Every context of a session halted under R228 (R357). -/
def State.sessionDone (s : State) (j : Job) : Bool :=
  j.session && j.state == .halted && j.cores.all (fun k => (s.ctx k j.ctxNo).ended)

/-- What a ledger commit has digested on a core: the core, the value, poison seen. -/
abbrev Copy := Fin 8 × BitVec 64 × Bool

/-- Digests the copies of the shadow and export rows that lie at the given cores and rows; `errs` are what the digest engines
misread, one a digest. -/
def State.digestCopies (n : Nat) : List (Fin 8 × Nat) → List (BitVec 64) → State → List Copy × List (BitVec 64) × State
  | [], errs, s => ([], errs, s)
  | (k, r) :: l, errs, s =>
    let (v, po, s) := s.digestRows k r n
    let (rest, errs', s) := State.digestCopies n l (errs.drop 1) s
    ((k, v ^^^ nth 0 errs 0, po) :: rest, errs', s)

/-- The value that more than half of the copies have (R458). -/
def agreed (l : List Copy) : Option (BitVec 64) :=
  (l.find? (fun e => decide (l.length < 2 * (l.filter (fun f => f.2.1 == e.2.1)).length))).map (·.2.1)

/-- A DIGEST_FAULT record that blames the digest engines of a core, or of two cores (R459, R461). -/
def State.blameAt (s : State) (row k : Nat) (also : Option Nat) : State :=
  let r := { mkRec s.time.aft (coreUnit k 6) 0x27 with addr := spLoc k row, akind := 2, core := some k, also := also,
                                                        opc := also.elim 0 (coreUnit · 6) }
  let s := (s.bump F.DIG_BLAMES 1).report r
  if also.isNone then s.setF (F.CK_STATUS_DIGEST_SUSPECT (coreOf k)) 1 else s

/-- Copies `n` rows from a core and row to another. -/
def State.copyRun (n : Nat) (src dst : Fin 8 × Nat) (s : State) : State :=
  (upFrom 0 n).foldl (fun s i =>
    let (ws, s) := s.getRow src.1 (src.2 + i)
    s.putRow dst.1 (dst.2 + i) ws) s

/-- Repairs a minority copy from the agreed copies, nearest first, at most twice (R460). -/
def State.repairCopy (n : Nat) (d : BitVec 64) (dst : Fin 8 × Nat) :
    List (Fin 8 × Nat) → Nat → List (BitVec 64) → State → List (BitVec 64) × State
  | src :: l, t + 1, errs, s =>
    let s := s.copyRun n src dst
    let (v, po, s) := s.digestRows dst.1 dst.2 n
    if v ^^^ nth 0 errs 0 = d ∧ !po then
      (errs.drop 1, (s.bump F.DIG_REPAIRS 1).report { mkRec s.time.now 0x02 0x28 with addr := spLoc dst.1.val dst.2, akind := 2 })
    else State.repairCopy n d dst l t (errs.drop 1) s
  | _, _, errs, s =>
    (errs, s.report { mkRec s.time.now 0x02 0x29 with addr := spLoc dst.1.val dst.2, akind := 2, core := some dst.1.val })

/-- Minority copies are digested again, their engines blamed where the second digest differs, and repaired (R459, R460). -/
def State.mendCopies (n : Nat) (d : BitVec 64) (rows good : List (Fin 8 × Nat)) :
    List Copy → List (BitVec 64) → State → List (BitVec 64) × State
  | [], errs, s => (errs, s)
  | e :: l, errs, s =>
    match rows.find? (fun q => q.1 == e.1) with
    | none => State.mendCopies n d rows good l errs s
    | some q =>
      let (v, _, s) := s.digestRows q.1 q.2 n
      let s := if v ^^^ nth 0 errs 0 = e.2.1 then s else s.blameAt q.2 q.1.val none
      let near := (nearFirst q.1.val (good.map (fun g => g.1.val))).filterMap (fun i => good.find? (fun g => g.1.val == i))
      let (errs, s) := s.repairCopy n d q near 2 (errs.drop 1)
      State.mendCopies n d rows good l errs s

/-- The agreed copy of a session's rows (R357 step 3, R463): AD_POISON, AD_DIVERGE, or the core that holds it. -/
def State.agree (s : State) (j : Job) (p : Pkg) (errs : List (BitVec 64)) : (Nat ⊕ Fin 8) × State :=
  let n := p.shadow + p.export_
  let rows := j.cores.filterMap (fun k => (j.stateRow k.val).map (fun g => (k, g.first)))
  let (l, errs, s) := State.digestCopies n rows errs s
  let mend (l : List Copy) (d : BitVec 64) (errs : List (BitVec 64)) (s : State) : (Nat ⊕ Fin 8) × State :=
    let good := (l.filter (fun e => e.2.1 == d)).map (·.1)
    let (_, s) := s.mendCopies n d rows (rows.filter (fun q => good.contains q.1)) (l.filter (fun e => e.2.1 != d)) errs
    (match good with
     | k :: _ => .inr k
     | [] => .inl 0x22, s)
  if l.any (fun e => e.2.2) then (.inl 0x21, s)
  else if l.length = 1 then (match l with
    | e :: _ => .inr e.1
    | [] => .inl 0x22, s)
  else
    match agreed l with
    | some d => mend l d errs s
    | none =>
      let (l, errs, s) := State.digestCopies n rows errs s
      match agreed l with
      | none => (.inl 0x22, s)
      | some d =>
        if l.length = 2 then
          match rows with
          | a :: b :: _ => (.inr a.1, s.blameAt a.2 a.1.val (some b.1.val))
          | _ => (.inl 0x22, s)
        else mend l d errs s

/-- A ledger record (R358): header row, shadow rows, export rows. -/
def ledgerBytes (p : Pkg) (version steps t seq : Nat) (rows : List Byte) : List Byte :=
  let h := leBytes 4 0x474C384E ++ leBytes 4 p.id ++ leBytes 8 p.version ++ leBytes 16 p.digest ++ leBytes 8 version
    ++ leBytes 4 steps ++ leBytes 2 p.shadow ++ leBytes 2 p.export_ ++ leBytes 8 t ++ leBytes 4 seq ++ leBytes 4 0
    ++ leBytes 8 (crc64 rows)
  (h ++ List.replicate 512 0).take 512 ++ rows

/-- The checks of a ledger commit (R357 steps 1–3, R359): a code of Table AD-2, or the record. -/
def State.ledgerCheck (s : State) (r : StoReq) : (Nat ⊕ StoObj) × State :=
  match s.job r.job with
  | none => (.inl 0x20, s)
  | some j =>
    if !s.sessionDone j then (.inl 0x20, s)
    else
      match s.sessionPkg j with
      | none => (.inl 0x23, s)
      | some p =>
        let (q, s) := s.agree j p r.errs
        match q with
        | .inl c => (.inl c, s)
        | .inr k =>
          if (s.ledger p.id).isNone ∧ 16 ≤ (s.sto.objs.filter (fun o => o.target == 3)).length then (.inl 0x24, s)
          else
            let first := ((j.stateRow k.val).map (·.first)).getD 0
            let seq := (s.sto.adSeq + 1) % 2 ^ 32
            let bytes := ledgerBytes p j.version j.steps s.time.now seq (s.rowRun k first (p.shadow + p.export_))
            (.inr { target := 3, id := p.id, version := p.version, bytes := bytes, ext := [] }, s)

/-- What follows the write of a ledger record (R357 steps 5–7): the replicas of the version it was made of, where that is still
loaded, and COMMITTED all the same. -/
def State.ledgerDone (s : State) (o : StoObj) : State :=
  let p := s.pkgs.find? (fun p => p.id == o.id && p.version == fieldAt o.bytes 8 8 && p.digest % 2 ^ 128 == fieldAt o.bytes 16 16)
  let s := match p with
    | none => s
    | some p =>
      let s := s.putAdapter p (o.bytes.drop (512 + 512 * p.shadow))
      { s with jobs := s.jobs.map (fun (j : Job) => if j.models.any (fun m => m.pkg == p.id) then { j with dxInval := true } else j) }
  ((s.setF F.AD_STATUS_COMMITTED 1).setF F.AD_STATUS_LAST_CODE 0).setF F.AD_SEQ_SEQ (fieldAt o.bytes 56 4)

/-! ### Steps of a write (R617–R620) -/

/-- Completes a store command. -/
def State.stoReply (s : State) (r : StoReq) (code : Nat) : State :=
  let s := if r.target = 3 ∧ r.len ≠ 0 then s.setF F.AD_STATUS_LAST_CODE code else s
  s.complete (bankOf r.bank) r.tag 0x0D code []

/-- The object that a request reads and its verification: a code of Table PS-5 or AD-2, or the object. -/
def State.stoObject (s : State) (r : StoReq) : (Nat ⊕ StoObj) × State :=
  if r.target = 3 then s.ledgerCheck r
  else
    let (l, s) := s.source r.src r.len
    match l with
    | none => (.inl cmdSrcPoison, s)
    | some l =>
      if r.target = 0 then
        if s.bootCheck l != 0 || fieldAt l 8 4 != l.length then (.inl 0x42, s)
        else (.inr { target := 0, id := 1 - s.activeCopy, version := fieldAt l 24 8, bytes := l, ext := [] }, s)
      else if r.target = 1 then
        let ok := pkgForm l && s.checkSig l (pkgSig l) l.length (some 1) 0 == .good && decide (s.arb 1 ≤ pkgSvn l)
        if ok then (.inr { target := 1, id := pkgId l, version := pkgVersion l, bytes := l, ext := [] }, s) else (.inl 0x42, s)
      else if s.packGood l then
        (.inr { target := 2, id := fieldAt l 8 4, version := fieldAt l 12 8, bytes := l, ext := [] }, s)
      else (.inl 0x42, s.report { mkRec s.time.now 0x02 0x5A with opc := fieldAt l 8 4 })

/-- Most objects of a target (R620). -/
def stoLimit (target : Nat) : Nat := if target = 1 then 32 else 16

/-- The checks of a write (R618 step 1): a code, or the write that starts. -/
def State.stoCheck (s : State) (r : StoReq) : (Nat ⊕ StoWrite) × State :=
  if 3 < r.target ∨ (r.target = 0 ∧ r.len = 0) then (.inl 0x41, s)
  else
    let energy (w : StoWrite) (s : State) : (Nat ⊕ StoWrite) × State :=
      if s.flag F.STO_STATUS_WORN then (.inl 0x45, s)
      else if w.req.target = 0 ∧ ((upFrom (2 + 8 * w.obj.id) ((w.obj.bytes.length + 65535) / 65536)).any s.worn
          || s.worn s.anchorTarget) then (.inl 0x46, s)
      else
        let (ok, s) := s.energyCheck
        if ok then (.inr w, s) else (.inl 0x44, s)
    if r.len = 0 then
      match s.sto.objs.find? (fun o => o.target == r.target && o.id == r.src % 2 ^ 32) with
      | none => (.inl 0x48, s)
      | some o => energy { req := r, obj := o, remove := true, phase := .commit, idx := 0, bad := false } s
    else
      let (q, s) := s.stoObject r
      match q with
      | .inl c => (.inl c, s)
      | .inr o =>
        if o.target = 0 then energy { req := r, obj := o, remove := false, phase := .intent, idx := 0, bad := false } s
        else
          let have_ := s.sto.objs.any (fun q => q.target == o.target && q.id == o.id)
          let n := (o.bytes.length + 65535) / 65536
          let l := s.pickSectors n
          let ext := extentsOf (l.foldl (fun a x => insertNat x a) [])
          if (!have_ && stoLimit o.target ≤ (s.sto.objs.filter (fun q => q.target == o.target)).length) || decide (l.length < n)
            || decide (16 < ext.length) then (.inl 0x43, s)
          else energy { req := r, obj := { o with ext := ext }, remove := false, phase := .intent, idx := 0, bad := false } s

/-- What a write reads is held at a core that initialises or wakes, or lies beyond a bridge that is not up (R54, R192, R194). -/
def State.stoHeld (s : State) (r : StoReq) : Bool :=
  if r.target = 3 then
    r.len != 0 && (s.job r.job).elim false (fun j => s.sessionDone j && (s.brgBusy || j.cores.any (fun k =>
      s.spHeld k && decide (s.time.now < (s.core k).initAt + 5000000))))
  else r.len != 0 && s.fwHeld r.src r.len

/-- Starts the next write that waits, completing those that fail their checks (R617). -/
def State.stoNext : Nat → State → State
  | 0, s => s
  | n + 1, s =>
    match s.sto.cur, s.sto.queue with
    | none, r :: l =>
      if s.stoHeld r then s.showStore
      else
      let s := { s with sto := { s.sto with queue := l } }
      let (q, s) := s.stoCheck r
      match q with
      | .inl c => State.stoNext n (s.stoReply r c)
      | .inr w => { s with sto := { s.sto with cur := some w } }.showStore
    | _, _ => s.showStore

/-- Runs the waiting writes. -/
def State.stoRun (s : State) : State := State.stoNext (s.sto.queue.length + 1) s

/-- Sets the running write. -/
def State.setCur (s : State) (w : Option StoWrite) : State := { s with sto := { s.sto with cur := w } }

/-- Sectors that a write programs. -/
def StoWrite.sectors (w : StoWrite) : List Nat :=
  if w.obj.target = 0 then upFrom (2 + 8 * w.obj.id) ((w.obj.bytes.length + 65535) / 65536) else extSectors w.obj.ext

/-- An object takes the place of the one with its target and identifier, or comes last. -/
def putObj (o : StoObj) : List StoObj → List StoObj
  | [] => [o]
  | q :: l => if q.target = o.target ∧ q.id = o.id then o :: l else q :: putObj o l

/-- Test results of the pack at index `i` are forgotten (Table PC-7: RUN counts since load). When it leaves the store, the packs behind
it move up, in results and requests. -/
def State.packOut (s : State) (i : Nat) (leaves : Bool) : State :=
  let move (p : Nat) : Nat := if leaves && decide (i < p) then p - 1 else p
  let res := (s.flt.results.filter (fun r => r.1 != i)).map (fun r => (move r.1, r.2))
  let tests := if leaves then
      (s.flt.tests.map (fun t => { t with todo := (t.todo.filter (fun w => w.2.1 != i)).map (fun w => (w.1, move w.2.1, w.2.2)) })).filter
        (fun t => !t.todo.isEmpty)
    else s.flt.tests
  { s with flt := { s.flt with results := res, tests := tests } }

/-- The commit point of a write (R619, R620): the object replaces the one before it, or leaves. -/
def State.stoCommit (s : State) (w : StoWrite) : State :=
  let same (o : StoObj) : Bool := o.target == w.obj.target && o.id == w.obj.id
  if w.obj.target = 0 then s
  else
    let seq := if w.obj.target = 3 ∧ !w.remove then fieldAt w.obj.bytes 56 4 else s.sto.adSeq
    let s := if w.obj.target = 2 then
        ((s.sto.objs.filter (fun o => o.target == 2)).findIdx? same).elim s (fun i => s.packOut i w.remove)
      else s
    let objs := if w.remove then s.sto.objs.filter (fun o => !same o) else putObj w.obj s.sto.objs
    { s with sto := { s.sto with objs := objs, adSeq := seq } }

/-- Sectors that a commit frees: those of the object before it. -/
def State.stoFreed (s : State) (w : StoWrite) : List Nat :=
  match s.sto.objs.find? (fun o => o.target == w.obj.target && o.id == w.obj.id) with
  | none => []
  | some o => extSectors o.ext

/-- One sector of a boot copy is programmed. -/
def State.putCopy (s : State) (c i : Nat) (l : List Byte) : State :=
  let old := nth [] s.sto.copies c
  let new := l.take ((i + 1) * 65536) ++ old.drop ((i + 1) * 65536)
  { s with sto := { s.sto with copies := setNth s.sto.copies c new } }

/-- A write ends. -/
def State.stoEnd (s : State) (w : StoWrite) (code : Nat) : State :=
  let s := s.setCur none
  let s := if code = 0 ∧ w.obj.target = 3 ∧ !w.remove then s.ledgerDone w.obj else s
  (s.stoReply w.req code).stoRun

/-- After the commit point: sectors at their limit that it freed are retired (R618 step 5, R623). -/
def State.stoAfter (s : State) (w : StoWrite) (freed : List Nat) : State :=
  let old := freed.filter s.worn
  (old.foldl (fun s l => s.retireSector l) s).stoEnd w 0

/-- A read-back mismatch (R623): the sector is retired and its data moves to another, once. A boot copy's sector is never retired: it is
erased and programmed again. -/
def State.stoMismatch (s : State) (w : StoWrite) (l : Nat) : State :=
  if w.obj.target = 0 then
    if w.bad then s.stoEnd w 0x47
    else if s.worn l then s.stoEnd w 0x46
    else (s.countErase l).setCur (some { w with bad := true })
  else
    let s := s.retireSector l
    if w.bad then s.stoEnd w 0x47
    else
      match s.pickSectors 1 with
      | [] => s.stoEnd w 0x43
      | x :: _ =>
        let ext := extentsOf ((extSectors w.obj.ext).map (fun y => if y = l then x else y))
        if 16 < ext.length then s.stoEnd w 0x43
        else (s.countErase x).setCur (some { w with bad := true, obj := { w.obj with ext := ext } })

/-- The flash operation in progress ends (R618): `bad` says that the sector just programmed reads back wrong. With none in progress a
write that waited for rows to be free begins, if they are (R192). -/
def State.flashDone (s : State) (bad : Bool) : State :=
  match s.sto.cur with
  | none => s.stoRun
  | some w =>
    match w.phase with
    | .intent =>
      let s := w.sectors.foldl (fun s l => s.countErase l) s.journal
      s.setCur (some { w with phase := .program })
    | .program =>
      let l := nth 0 w.sectors w.idx
      if bad then s.stoMismatch w l
      else
        let s := if w.obj.target = 0 then s.putCopy w.obj.id w.idx w.obj.bytes else s
        if w.idx + 1 < w.sectors.length then s.setCur (some { w with idx := w.idx + 1 })
        else s.setCur (some { w with phase := .commit })
    | .commit =>
      let freed := s.stoFreed w
      let s := s.journal.stoCommit w
      if w.obj.target = 0 then s.setCur (some { w with phase := .anchor }) else s.stoAfter w freed
    | .anchor => (s.writeAnchor w.obj.id (s.flag F.STO_STATUS_WORN)).stoEnd w 0

/-- An interruption (Table PS-6): the flash operation in progress finishes; the rest of the write, and the writes that wait, are
lost with their commands. -/
def State.stoCut (s : State) : State :=
  let s := match s.sto.cur with
    | none => s
    | some w =>
      match w.phase with
      | .intent => w.sectors.foldl (fun s l => s.countErase l) s.journal
      | .program =>
        if w.obj.target = 0 then s.putCopy w.obj.id w.idx w.obj.bytes else s
      | .commit => s.journal.stoCommit w
      | .anchor => s.writeAnchor w.obj.id (s.flag F.STO_STATUS_WORN)
  { s with sto := { s.sto with cur := none, queue := [] } }

end Sys2Proof.Machine
end

