-- ==== Sys2Proof/Machine/Resets.lean ====
section
/-! DEFINITION. What the resets and the loss of power leave (Table BS-1, Table PS-6, R193, R580, R629), and the entry into
BOOT and TAMPER_HOLD. -/

namespace Sys2Proof.Machine

/-! ### Registers over a reset -/

/-- The PCIe link is down: the endpoint's configuration space and BARs are as PCIe resets them (R555). -/
def State.dropLink (s : State) : State :=
  let s := s.setF F.HOST_STATUS_LINK_UP 0
  { s with host := { s.host with bars := Vector.replicate 6 0, cfg := {} } }

/-- Bits of a register that AON keeps over every reset (Tables PW-9, PC-7, BS-14, PS-7). -/
def aonMask (off : Nat) : Nat :=
  if off = F.PWR_STATUS_TRIPPED.off then 0x1F0
  else if off = F.PWR_TMAX.off then 0xFFFF
  else if off = F.FLT_STATUS_AON_HEAD.off then 0x3F
  else if 0x080800 ≤ off ∧ off < 0x081000 then 0xFFFFFFFF
  else if off = F.SEC_TAMPER_STAT_EVENTS.off then 0xFF00
  else if off = F.STO_STATUS_PFAIL.off then 0x20 else 0

/-- Bits of a register that a warm reset leaves (R193, Table SP-5, R588, R613). -/
def warmMask (off : Nat) : Nat :=
  if off = F.HOST_STATUS_LINK_UP.off then 1
  else if off = F.SEC_STATUS_DEBUG.off then 0x10
  else if off = F.SEC_BOOT_STRAP.off then 0x7000
  -- R484: a margin step is held until cold reset, and with it CHK_OFF (R483)
  else if 0x080020 ≤ off ∧ off < 0x080040 then 0x87
  else if 0x100000 ≤ off ∧ off % 65536 = 0x100 then 0x3F3
  else if 0x100000 ≤ off ∧ off % 65536 = 0x108 then 0xFFFFFFFF else 0

/-- The RWL fields and the lock bit of a register. -/
def rwlMask (off : Nat) : Nat :=
  let lock := if off = F.GLB_PIN_LOCK_LOCK.off then 1
    else if off = F.SEC_TAMPER_CFG_LOCK.off ∨ off = F.STO_CFG_LOCK.off then 0x80000000 else 0
  match regAt off with
  | none => lock
  | some r => r.fields.foldl (fun a f => if f.acc = .rwl then a + (2 ^ f.w - 1) * 2 ^ f.lo else a) lock

/-- Bits of a register that a warm reset leaves because its block is locked: only cold reset clears a lock bit (Table SC-2).
DESIGN CHOICE: the fields it locks keep their values with it (log entry 97). -/
def State.lockMask (s : State) (off : Nat) : Nat := if s.lockSet off then rwlMask off else 0

/-- Bits of a register on the supplies that stay up in STANDBY: AON and SEC (Table PW-1). -/
def standbyMask (off : Nat) : Nat :=
  if blockOf off = 9 then 0xFFFFFFFF
  else if blockOf off = 1 ∧ ¬ (0x010100 ≤ off ∧ off < 0x010180 ∧ off % 16 = 4) then 0xFFFFFFFF
  else if 0x020000 ≤ off ∧ off < 0x020020 then 0xFFFFFFFF else 0

/-- Registers at their reset values but for the bits a mask keeps. -/
def keepRegs (mask : Nat → Nat) (m : SMap Word) : SMap Word :=
  m.foldl (fun a e =>
    let k := BitVec.ofNat 32 (mask e.1)
    mset resetWord a e.1 ((e.2 &&& k) ||| (resetWord e.1 &&& ~~~k))) []

/-! ### What stays -/

/-- The block with every volatile part at its reset value; the clock, fuses, flash, wires and host memory stay. DESIGN CHOICE: the
Aft replica of DTIME stands at the master's value at once (log entry 134). -/
def State.bare (s : State) (mask : Nat → Nat) : State :=
  let s := s.stoCut
  { State.reset with
    pending := s.pending, regs := keepRegs mask s.regs, off := s.off, time := { State.reset.time with now := s.time.now, aft := s.time.now },
    pwr := { State.reset.pwr with trip := s.pwr.trip },
    sec := { State.reset.sec with fuses := s.sec.fuses, resetLow := s.sec.resetLow, strap := s.sec.strap },
    sto := s.sto, ddrSize := s.ddrSize, hostMem := s.hostMem, free := s.free, wire := s.wire }

/-- A context over a warm reset: its registers are kept (Table PS-6). -/
def Ctx.warm (c : Ctx) : Ctx := { Ctx.reset with s := c.s, p := c.p, d := c.d }

/-- A core over a warm reset: memories are kept (R193); a core that was dark initialises and one that napped makes its wake pass
when it is powered again, or initialises when its rows are lost (R190, R192, R194, R195). -/
def Core.warm (c : Core) (pstate : Nat) : Core :=
  { Core.reset with
    ctx := c.ctx.map Ctx.warm, imem := c.imem, imemBad := c.imemBad, smem := c.smem, smemBad := c.smemBad, sp := c.sp,
    awn := c.awn, spares := if pstate == 3 then Core.reset.spares else c.spares,
    remapped := if pstate == 3 then [] else c.remapped, retLost := c.retLost,
    initing := c.initing || c.retLost || pstate == 3,
    waking := (c.waking || pstate == 2) && !(c.initing || c.retLost) }

/-- Temperature thresholds of grade I (R572); those of grade C are the reset values. -/
def State.gradeLimits (s : State) : State :=
  if s.fuse 8 0 = 2 then
    (upFrom 0 12).foldl (fun s n => (s.setF (F.PWR_TEMP_TH_WARN n) 100).setF (F.PWR_TEMP_TH_HOT n) 110) s
  else s

/-- Warm reset (R587, R594): what it leaves. -/
def State.warmClear (s : State) : State :=
  let b := s.bare (fun o => aonMask o ||| warmMask o ||| s.lockMask o)
  let cores := Vector.ofFn (fun k : Fin 8 => (s.core k).warm (s.pstate k))
  State.gradeLimits { b with
    fwLocks := s.fwLocks, cores := cores, dram := s.dram, dramPoison := s.dramPoison, dramBad := s.dramBad,
    cof := { State.reset.cof with sram := s.cof.sram }, sec := { b.sec with debugFails := s.sec.debugFails } }

/-- Cold reset (R587, R588): the straps are sampled and DTIME is set to 0. -/
def State.coldClear (s : State) (strap : Nat) (por : Bool) : State :=
  let b := s.bare aonMask
  let b := { b with time := State.reset.time, sec := { b.sec with strap := strap % 8, resetLow := false } }
  ((b.setF F.SEC_BOOT_STRAP (strap % 8)).setF F.SEC_STATUS_POR (if por then 1 else 0)).showFuses.gradeLimits

/-- Every domain but AON and SEC is switched off (R571, R580, R627, R630). -/
def State.powerLost (s : State) : State :=
  let b := s.bare (fun o => aonMask o ||| standbyMask o)
  { b with sec := { b.sec with debugFails := s.sec.debugFails }, time := { b.time with trim := s.time.trim, slew := s.time.slew } }

/-- The part enters STANDBY with its volatile contents lost. -/
def State.toStandby (s : State) : State := s.powerLost.setF F.PWR_DEV_STATE devStandby

/-- Boot begins (R590). -/
def State.toBoot (s : State) (warm : Bool) : State :=
  let s := (s.setF F.PWR_DEV_STATE devBoot).setF F.SEC_BOOT_STEP 1
  s.setF F.SEC_BOOT_WARM (if warm then 1 else 0)

/-- A warm reset (R594). It does not leave TAMPER_HOLD (R609). -/
def State.warmReset (s : State) : State :=
  if s.off || s.dev == devTamper || s.dev == devStandby then s else s.warmClear.toBoot true

/-- A cold reset from inside the part (SEC_RESET.COLD): the straps are sampled again. -/
def State.coldReset (s : State) (strap : Nat) : State :=
  if s.off || s.dev == devTamper || s.pwr.trip then s else (s.coldClear strap false).toBoot false

/-- The part enters TAMPER_HOLD (R609): nothing runs, and the PCIe link is held in Detect. -/
def State.toTamper (s : State) : State :=
  let s := (s.setF F.PWR_DEV_STATE devTamper).dropLink
  { s with sec := { s.sec with romMode := false, wdogOn := false } }

/-- Blows the next LATCH bit: a tamper when the count is even, a clearance when it is odd (R610). -/
def State.latchBlow (s : State) (odd : Bool) : State :=
  if s.latched = odd ∧ s.latchCount < 31 then (s.blow 4 0 1).showFuses else s

end Sys2Proof.Machine
end

