-- ==== Sys2Proof/Machine/PowerOps.lean ====
section
/-! DEFINITION. The Logbook and the trace funnel (R582–R586), and the sleep and wake of a core (R560–R562, R194, R195). -/

namespace Sys2Proof.Machine

/-! ### Trace funnel (R583) -/

/-- A Logbook packet as 16 bytes (R582). -/
def LogPkt.bytes (p : LogPkt) : List Byte := leBytes 8 p.time ++ leBytes 1 p.typ ++ leBytes 1 p.src ++ leBytes 6 p.val

/-- Bytes of the trace ring. -/
def State.trcSize (s : State) : Nat := 2 ^ s.getF F.TRC_SIZE

/-- The trace ring is full: rows up to TAIL, 2^SIZE bytes of them (R583; log entry 120). -/
def State.trcFull (s : State) : Bool := s.flag F.TRC_STATUS_FULL

/-- The funnel drains: the sink is on, the bridge is up, and the ring is not full under MODE STOP. -/
def State.trcDrains (s : State) : Bool :=
  s.flag F.TRC_CTRL_SINK_EN && s.brgUp && !(s.flag F.TRC_CTRL_MODE && s.trcFull)

/-- Writes the row the funnel has gathered to the ring (R583); a full ring under WRAP loses its oldest row. -/
def State.trcRow (s : State) (l : List LogPkt) : State :=
  let full := s.trcFull
  let h := s.getF F.TRC_HEAD
  let s := s.fwPut ((s.getReg F.TRC_BASE.off).toNat * 256 + h) (l.flatMap LogPkt.bytes)
  let h := (h + 512) % s.trcSize
  let s := s.setF F.TRC_HEAD h
  let s := if full then s.setF F.TRC_STATUS_WRAPPED 1 else s
  let s := if h = s.getF F.TRC_TAIL % s.trcSize then s.setF F.TRC_STATUS_FULL 1 else s
  { s with trc := { s.trc with row := [], since := s.time.aft } }

/-- The funnel takes a packet: a row of 32 is written. -/
def State.trcTake (s : State) (p : LogPkt) : State :=
  let l := s.trc.row ++ [p]
  let since := if s.trc.row.isEmpty then s.time.aft else s.trc.since
  let s := { s with trc := { s.trc with row := l, since := since } }
  if 32 ≤ l.length then s.trcRow l else s

/-- Completes a row with PAD packets and writes it (R583), where the funnel drains. -/
def State.trcPad (s : State) : State :=
  let l := s.trc.row
  if l.isEmpty || !s.trcDrains then s else s.trcRow ((l ++ List.replicate 32 (⟨0, 0, s.time.aft, 0⟩ : LogPkt)).take 32)

/-- The funnel drains the whole Logbook of a core. -/
def State.drainLog (s : State) (k : Fin 8) : State :=
  (s.core k).log.foldl (fun s p =>
    if s.trcDrains then (s.setCore k { s.core k with log := (s.core k).log.drop 1 }).trcTake p else s) s

/-! ### Packets of a core's state (R584, R586) -/

/-- Writes SYNC, STATE and JOB. -/
def State.syncTriple (s : State) (k : Fin 8) : State :=
  let t := s.getF (F.PWR_TEMP_VAL (4 + k.val))
  let job (x : Fin 3) : Nat := (s.ctx k x).job.getD 0
  let x : Fin 3 := if s.flag (F.CORE_STATUS_ACTIVE k) then 1 else 0
  let mode := if x = 0 then s.getF (F.CORE_DX0_MODE k) else s.getF (F.CORE_DX1_MODE k)
  let stripe := (s.ctx k x).stripe
  let s := s.log k 0 0 0x01 (s.pstate k + s.getF (F.FLT_CORE_STEP k) * 4 + s.getF (F.CORE_STATUS_QUAR k) * 32)
  let s := s.log k 0 0 0x02 (s.getF (F.PWR_ISL_ST_V_SET k) + s.getF (F.PWR_ISL_ST_F_SET k) * 2 ^ 16 + t * 2 ^ 32)
  let s := s.log k 0 0 0x03 (job 0 + job 1 * 2 ^ 12 + stripe * 2 ^ 24 + mode * 2 ^ 40)
  s.setCore k { s.core k with logSince := 0, logFirst := false }

/-! ### Sleep and wake of a core -/

/-- Power states of a core (Table CO-6). -/
def psRun : Nat := 0
def psIdle : Nat := 1
def psNap : Nat := 2
def psDark : Nat := 3

/-- A job names rows of a core. -/
def State.rowsNamed (s : State) (k : Nat) : Bool := s.jobs.any (fun j => !(j.on k).rows.isEmpty)

/-- A core may go to NAP (R560): awake, and held by no running job and no test slot; a session that steps is a running job. -/
def State.napOk (s : State) (k : Fin 8) : Bool :=
  decide (s.pstate k ≤ 1) && !s.jobs.any (fun j => j.state == .running && j.cores.contains k) && (s.slotOn k).isNone

/-- A core may go to DARK (R561). -/
def State.darkOk (s : State) (k : Fin 8) : Bool := !s.rowsNamed k.val && !s.flag (F.CORE_STATUS_QUAR k)

/-- A core begins to go to sleep (R585): the SLEEP packet, and the flush of its Logbook. -/
def State.beginSleep (s : State) (k : Fin 8) (target why : Nat) : State :=
  let s := s.log k 0 0 0x40 (target + why * 4)
  s.setCore k { s.core k with logFlush := true, logFlushAt := s.time.aft, sleepTo := target }

/-- The core's logic is switched off (R585, R558): packets not drained are lost. An initialisation that it breaks off is made when
the core wakes. -/
def State.powerCore (s : State) (k : Fin 8) : State :=
  let c := s.core k
  let n := c.log.length
  let dark := c.sleepTo = psDark
  let at_ := if s.pstate k < psNap then s.time.aft else (s.isl k).sleepAt
  let c := { c with log := [], logLost := c.logLost + n, logFlush := false, waking := false }
  let c := if dark then { c with sp := [], awn := [], scrubQ := [], scrubCe := [], scrubbing := false } else c
  let s := (s.setCore k c).bump (F.CORE_LOGDROP k) n
  let s := (s.setF (F.CORE_STATUS_PSTATE k) c.sleepTo).setF (F.PWR_ISL_ST_F_SET k) 0
  let s := s.setF (F.PWR_ISL_ST_V_SET k) (if dark then 0 else s.getF F.PWR_RET_MV)
  s.setIsl k { s.isl k with sleepAt := at_, wakeWhy := none, clipAt := none, clipTold := false, shortAt := none,
                            stretched := false }

/-- A core goes from NAP to DARK: its SLEEP packet is drained as far as the funnel drains, and the retention supply goes (R585). -/
def State.napToDark (s : State) (k : Fin 8) (why : Nat) : State := ((s.beginSleep k psDark why).drainLog k).powerCore k

/-- A core is woken (R586, R194, R192, R195): its packets, then the wake pass or the initialisation of its scratchpad. -/
def State.wakeCore (s : State) (k : Fin 8) (why : Nat) : State :=
  let left := s.pstate k
  let i := s.isl k
  let us := (s.time.aft - i.sleepAt) / 1000
  let s := s.setIsl k { i with wakeWhy := none }
  let s := (s.setF (F.CORE_STATUS_PSTATE k) psIdle).setF (F.PWR_ISL_ST_F_SET k) i.f
  let s := s.setF (F.PWR_ISL_ST_V_SET k) (i.v + i.off)
  let c := s.core k
  let lost := c.logLost
  let s := if 0 < lost then s.log k 0 0 0x42 (lost % 2 ^ 32) else s
  let s := s.setCore k { s.core k with logLost := 0, idleSince := s.time.now }
  let s := (s.log k 0 0 0x41 (left + why * 4 + us % 2 ^ 40 * 256)).syncTriple k
  let init (s : State) : State :=
    (s.setCore k { s.core k with initing := true, initAt := s.time.now, retLost := false }).setF (F.SP_STATUS_INIT_DONE k) 0
  -- R190: repairs are not held over a DARK exit
  let s := if left = psDark then s.setCore k { s.core k with spares := Core.reset.spares, remapped := [] } else s
  if c.retLost then
    let s := (init s).setF (F.SP_STATUS_RET_LOST k) 1
    (s.reportAft (mkRec s.time.aft (coreUnit k 7) 0x13)).staleOnCore k
  else if left = psDark || c.initing then init s
  else (s.setCore k { s.core k with waking := true }).setF (F.SP_STATUS_SCRUB_BUSY k) 1

/-- A START that is pending is cancelled (R544, R554): its command has completed when it was accepted. -/
def State.cancelStart (s : State) (j : Job) : State := s.setJob { j with startPend := none }

end Sys2Proof.Machine
end

