-- ==== Sys2Proof/Machine/Loader.lean ====
section
/-! DEFINITION. The loader: program images (Table IS-12, R233, R234), resource manifests (Table IS-13), Edge programs (R314–R316),
the checks of Table IS-14 in their order (R236–R238), and what an accepted image takes. -/

namespace Sys2Proof.Machine

/-! ### Registers that show what is loaded -/

/-- EDGE_STATUS.PROGS, EDGE_MEM (Table MP-6) and AD_STATUS.LOADED. -/
def State.showLoaded (s : State) : State :=
  let rows := s.jobs.foldl (fun a j => a + j.edge.lrows) 0
  let cons := s.jobs.foldl (fun a j => a + j.edge.consts.length) 0
  let s := (s.setF F.EDGE_STATUS_PROGS s.jobs.length).setF F.EDGE_MEM_LFREE (4096 - rows)
  (s.setF F.EDGE_MEM_CFREE ((131072 - cons) / 1024)).setF F.AD_STATUS_LOADED (if s.jobs.any (·.session) then 1 else 0)

/-- GLB_PIN_USE. -/
def State.showPins (s : State) : State :=
  s.setF F.GLB_PIN_USE_USE ((upFrom 0 16).foldl (fun a n => a + s.pinUse n * 4 ^ n) 0)

/-! ### Image and manifest -/

/-- The `n` records of `w` bytes from an offset of an object. -/
def recsAt (l : List Byte) (o w : Nat) : Nat → List (List Byte)
  | 0 => []
  | n + 1 => (l.drop o).take w :: recsAt l (o + w) w n

/-- Section entries and manifest entries of an image. -/
def imgSecs (l : List Byte) : List (List Byte) := recsAt l (fieldAt l 20 4) 16 (fieldAt l 24 2)
def imgEnts (l : List Byte) : List (List Byte) := recsAt l (fieldAt l 12 4) 32 (fieldAt l 16 4 / 32)

/-- Manifest entries of a TYPE. -/
def entsOf (l : List Byte) (t : Nat) : List (List Byte) := (imgEnts l).filter (fun e => fieldAt e 0 1 == t)

/-- Bytes of a section. -/
def secBytes (l e : List Byte) : List Byte := (l.drop (fieldAt e 4 4)).take (fieldAt e 8 4)

/-- The section of the Edge program: the one CODE section with no core (R314). -/
def edgeSecs (l : List Byte) : List (List Byte) := (imgSecs l).filter (fun e => fieldAt e 0 1 == 1 && fieldAt e 1 1 == 0)

/-- For a manifest TYPE: most entries in a manifest (none: counted per core), whether CORES is used, and the byte ranges of its
fields (Table IS-13). -/
def manRule (t : Nat) : Option (Option Nat × Bool × List (Nat × Nat)) :=
  match t with
  | 0x01 => some (some 1, false, [(2, 9), (12, 24)])
  | 0x02 => some (some 1, false, [(4, 19)])
  | 0x03 => some (none, true, [(4, 7)])
  | 0x04 => some (none, true, [(4, 11)])
  | 0x05 => some (none, true, [(2, 2), (4, 12)])
  | 0x06 => some (none, true, [(4, 7)])
  | 0x07 => some (some 4, false, [(4, 31)])
  | 0x08 => some (some 4, false, [(4, 4)])
  | 0x09 => some (some 16, false, [(4, 6)])
  | 0x0A => some (some 6, false, [(4, 4)])
  | 0x0B => some (some 4, false, [(4, 4)])
  | 0x0C => some (some 8, false, [(4, 4)])
  | 0x0D => some (some 2, false, [(4, 4)])
  | 0x0E => some (some 4, false, [(4, 4)])
  | 0x0F => some (some 16, false, [(4, 6)])
  | 0x10 => some (some 16, false, [(4, 12)])
  | _ => none

/-- Bytes of a record from `a` to `n - 1` are zero outside the given ranges. -/
def zeroBut (e : List Byte) (a n : Nat) (used : List (Nat × Nat)) : Bool :=
  (upFrom a (n - a)).all (fun i => used.any (fun u => decide (u.1 ≤ i) && decide (i ≤ u.2)) || fieldAt e i 1 == 0)

/-- A manifest entry follows Table IS-13. -/
def entGood (l e : List Byte) : Bool :=
  match manRule (fieldAt e 0 1) with
  | none => false
  | some (most, cores, used) =>
    (match most with
      | none => true
      | some n => decide ((entsOf l (fieldAt e 0 1)).length ≤ n))
    && zeroBut e (if cores then 2 else 1) 32 used

/-- Entries of a TYPE that name a core. -/
def entsOn (l : List Byte) (t k : Nat) : List (List Byte) := (entsOf l t).filter (fun e => bitsOf (fieldAt e 1 1) k 1 == 1)

/-- JOBCFG (Table IS-13). -/
def jobCfg (l : List Byte) : List Byte := nth [] (entsOf l 1) 0

/-- Its fields: in-line, session, PAIRED, S, A, Intake context. -/
def imgInline (l : List Byte) : Bool := fieldAt (jobCfg l) 2 1 == 0
def imgSession (l : List Byte) : Bool := fieldAt (jobCfg l) 2 1 == 1 && fieldAt (jobCfg l) 24 1 == 0xFF
def imgPaired (l : List Byte) : Bool := fieldAt (jobCfg l) 3 1 == 1
def imgS (l : List Byte) : Nat := fieldAt (jobCfg l) 4 1
def imgA (l : List Byte) : Nat := fieldAt (jobCfg l) 5 1
def imgCtx (l : List Byte) : Nat := fieldAt (jobCfg l) 24 1

/-- The plane width that the Intake context of an image is written to have. -/
def State.imgPlane (s : State) (l : List Byte) : Nat := s.getF (F.IN_CTX_SIZE_WIDTH (imgCtx l % 8)) / 2

/-- The tile map of an image (R65): the manifest's, or the default one of the plane width that its Intake context is written to
have. None where there is no width to divide, or it cannot be tiled. -/
def State.imgTiles (s : State) (l : List Byte) : Option (List Nat) :=
  match entsOf l 2 with
  | e :: _ => some ((upFrom 0 8).map (fun k => fieldAt e (4 + 2 * k) 2))
  | [] =>
    if imgCtx l = 0xFF then none
    else
      let w := s.imgPlane l
      if w % 16 = 0 then some (defaultTiles (imgPaired l) w) else none

/-- The cores that tiles use in a job, secondaries among them (R66, R166). -/
def usedCores (tiles : List Nat) (paired : Bool) : List Nat :=
  (upFrom 0 8).filter (fun k => decide (0 < nth 0 tiles k) || (paired && k % 2 == 1 && decide (0 < nth 0 tiles (k - 1))))

/-! ### Edge programs (R314–R316) -/

/-- Byte ranges that the parameters of an Edge record use (Table MP-3). -/
def edgeRule (op : Nat) : Option (List (Nat × Nat)) :=
  match op with
  | 0x01 => some []
  | 0x02 => some [(4, 15)]
  | 0x03 => some [(4, 4), (8, 18), (20, 23)]
  | 0x04 => some [(4, 6), (8, 11)]
  | 0x05 => some [(4, 4)]
  | 0x06 => some [(4, 4)]
  | 0x07 => some [(4, 13), (16, 19)]
  | 0x08 => some [(4, 4), (6, 7)]
  | 0x09 => some [(4, 4)]
  | 0x0A => some []
  | _ => none

/-- The records of the section of an Edge program. -/
def edgeRecs (q : List Byte) : List EdgeRec := recsAt q 32 32 (fieldAt q 0 2)

/-- Format of an Edge program: header and record areas, known OPs, zero bytes, one END that stands last (R315, R316). -/
def edgeForm (q : List Byte) : Bool :=
  let n := fieldAt q 0 2
  let rs := edgeRecs q
  decide (32 ≤ q.length) && decide (1 ≤ n) && decide (n ≤ 64) && zeroAt q 2 3 && zeroAt q 14 31 && fieldAt q 4 4 % 32 == 0
    && decide (32 + 32 * n ≤ q.length) && decide (fieldAt q 4 4 + fieldAt q 8 4 ≤ q.length)
    && rs.all (fun r => match edgeRule (recB r 0 1) with
      | none => false
      | some u => recB r 3 1 == 0 && zeroBut r 4 32 u)
    && recB (rs.getLast?.getD []) 0 1 == 0x0A && (rs.filter (fun r => recB r 0 1 == 0x0A)).length == 1

/-- The loaded form of an Edge program. -/
def edgeProgOf (q : List Byte) : EdgeProg :=
  { recs := edgeRecs q, consts := (q.drop (fieldAt q 4 4)).take (fieldAt q 8 4), lrows := fieldAt q 12 2 }

/-- A row lies in a WORK range of a list. -/
def inWork (rows : List RowRange) (r : Nat) : Bool := rows.any (fun g => g.cls == 2 && decide (g.first ≤ r) && decide (r ≤ g.last))

/-- One Edge record keeps to the limits of Table MP-3: `before` are the records ahead of it, newest first, `cl` the bytes of
constants, `rows` the row ranges of every core of the job. -/
def edgeRecGood (before : List EdgeRec) (cl : Nat) (rows : List (List RowRange)) (r : EdgeRec) : Bool :=
  let b (i n : Nat) : Nat := recB r i n
  let const (off n : Nat) : Bool := decide (off + n ≤ cl)
  let src := bufInfo before (b 1 1)
  let ch := (src.map (·.1)).getD 0
  decide (b 1 1 ≤ 15) && decide (b 2 1 ≤ 15) &&
  match b 0 1 with
  | 0x01 => true
  | 0x02 =>
    let ci := b 4 1
    let co := b 5 1
    let k := b 6 1
    src.isSome && decide (1 ≤ ci) && decide (ci ≤ 64) && decide (1 ≤ co) && decide (co ≤ 64) && (decide (ci ≤ 8) || decide (co ≤ 8))
      && (k == 1 || k == 3) && decide (b 7 1 ≤ 1) && const (b 8 4) (2 * co * k * k * ci) && const (b 12 4) (2 * co)
  | 0x03 =>
    src.isSome && [0, 3, 5].contains (b 4 1) && decide (b 18 1 ≤ 7) && const (b 8 4) (2 * ch)
      && rows.all (fun g => inWork g (b 12 4) && inWork g (b 20 4))
  | 0x04 =>
    decide (b 4 1 ≤ 15) && decide (1 ≤ b 5 1) && decide (b 5 1 ≤ 64) && [0, 5].contains (b 6 1)
      && (b 6 1 != 0 || const (b 8 4) (2 * b 5 1)) && !before.any (fun q => recB q 0 1 == 4 && recB q 4 1 == b 4 1)
  | 0x05 => src.isSome && decide (1 ≤ b 4 1) && decide (b 4 1 ≤ 16) && ch == 4 * b 4 1
  | 0x06 => src.isSome && decide (2 ≤ b 4 1) && decide (b 4 1 ≤ 64)
  | 0x07 =>
    let na := b 4 1
    let nc := b 5 1
    src.isSome && decide (1 ≤ na) && decide (na ≤ 8) && decide (1 ≤ nc) && decide (nc ≤ 60) && decide (na * (4 + nc) ≤ 64)
      && const (b 16 4) (4 * na)
  | 0x08 =>
    decide (1 ≤ b 4 1) && decide (b 4 1 ≤ 255) && decide (1 ≤ b 6 2) && decide (b 6 2 ≤ 256)
      && before.any (fun q => recB q 0 1 == 7) && !before.any (fun q => recB q 0 1 == 8)
  | 0x09 => src.isSome && decide (b 4 1 ≤ 7)
  | _ => true

/-- Every record of an Edge program keeps to its limits. -/
def edgeGood (cl : Nat) (rows : List (List RowRange)) : List EdgeRec → List EdgeRec → Bool
  | _, [] => true
  | before, r :: rs => edgeRecGood before cl rows r && edgeGood cl rows (r :: before) rs

/-! ### LOAD_BAD_FORMAT -/

/-- Section entries follow R234. -/
def secGood (l e : List Byte) : Bool :=
  (fieldAt e 0 1 == 1 || fieldAt e 0 1 == 2) && zeroAt e 2 3 && decide (fieldAt e 4 4 + fieldAt e 8 4 ≤ l.length)
    && (fieldAt e 0 1 == 2 || fieldAt e 8 4 % 8 == 0)

/-- Header, sections, Edge program and manifest follow R233–R235 and R314–R316; counts follow Table IS-13. DESIGN CHOICE: a reserved
KIND of JOBCFG, and a MODEL index beyond the list, are format errors (0x01); reserved codes of other entries are errors of range
(0x03; log entry 133). -/
def State.imgForm (s : State) (l : List Byte) : Bool :=
  let head := decide (128 ≤ l.length) && fieldAt l 0 4 == 0x5053384E && fieldAt l 4 2 == 1 && fieldAt l 6 2 == 1
    && fieldAt l 8 4 == l.length && fieldAt l 12 4 % 32 == 0 && fieldAt l 16 4 % 32 == 0 && fieldAt l 20 4 % 16 == 0
    && decide (1 ≤ fieldAt l 24 2) && decide (fieldAt l 24 2 ≤ 64) && zeroAt l 26 27 && zeroAt l 44 127
    && decide (fieldAt l 12 4 + fieldAt l 16 4 ≤ l.length) && decide (fieldAt l 20 4 + 16 * fieldAt l 24 2 ≤ l.length)
  if !head then false
  else
    let edge := match edgeSecs l with
      | [e] => fieldAt e 12 4 == 0 && edgeForm (secBytes l e)
      | _ => false
    let used := match s.imgTiles l with
      | none => []
      | some t => usedCores t (imgPaired l)
    (imgSecs l).all (secGood l) && edge && (imgEnts l).all (entGood l) && (entsOf l 1).length == 1
      && decide (fieldAt (jobCfg l) 2 1 ≤ 1) && decide (fieldAt (jobCfg l) 3 1 ≤ 1)
      && (upFrom 0 8).all (fun k => decide ((entsOn l 3 k).length ≤ 1) && decide ((entsOn l 4 k).length ≤ 1)
          && decide ((entsOn l 5 k).length ≤ 16) && decide ((entsOn l 6 k).length ≤ 1))
      && used.all (fun k => (entsOn l 3 k).length == 1 && (entsOn l 4 k).length == 1)
      && (entsOf l 5).all (fun e =>
          if fieldAt e 2 1 = 0 then decide (fieldAt e 12 1 < (entsOf l 7).length) else fieldAt e 12 1 == 0)

/-! ### The job an image describes -/

/-- What the manifest takes on a core. -/
def imgShare (l : List Byte) (used : List Nat) (k : Nat) : CoreShare :=
  let im := nth [] (entsOn l 3 k) 0
  let sm := nth [] (entsOn l 4 k) 0
  let aw := nth [] (entsOn l 6 k) 0
  { used := used.contains k, imemFirst := fieldAt im 4 2, imemCount := fieldAt im 6 2, smemFirst := fieldAt sm 4 4,
    smemCount := fieldAt sm 8 4, awnFirst := fieldAt aw 4 2, awnCount := fieldAt aw 6 2,
    rows := (entsOn l 5 k).map (fun e =>
      { cls := fieldAt e 2 1, first := fieldAt e 4 4, last := fieldAt e 8 4, model := fieldAt e 12 1 }) }

/-- Numbers that the entries of a TYPE name in byte 4, each once. -/
def imgNums (l : List Byte) (t : Nat) : List Nat := ((entsOf l t).map (fun e => fieldAt e 4 1)).dedup

/-- The word DX_CTRL has at load: its reset values (R345, Table DX-4). -/
def dxReset : Nat := 1 + 16 * 2 + 600 * 512

/-- The job an image describes, with an ID and its tile map. A job holds the Intake context of JOBCFG beside those of its
INCTX entries. -/
def State.imgJob (s : State) (l : List Byte) (id : Nat) (tiles : List Nat) : Job :=
  let c := jobCfg l
  let used := usedCores tiles (imgPaired l)
  let session := imgSession l
  { id := id, version := fieldAt l 28 8, inline := imgInline l, session := session, paired := imgPaired l, s := imgS l, a := imgA l,
    entry := fieldAt c 6 2, handler := fieldAt c 8 2, tail := fieldAt c 12 4, dlBase := fieldAt c 16 4, dlStep := fieldAt c 20 4,
    inctx := imgCtx l, width := tiles.foldl (· + ·) 0,
    height := if session then imgS l else s.getF (F.IN_CTX_SIZE_HEIGHT (imgCtx l % 8)),
    tiles := tiles, tilesNext := none, tilesBack := none, share := (upFrom 0 8).map (imgShare l used),
    models := (entsOf l 7).map (fun e => { pkg := fieldAt e 4 4, version := fieldAt e 8 8, digest := fieldAt e 16 16 }),
    fsgs := imgNums l 8, pins := (entsOf l 9).map (fun e => (fieldAt e 4 2, fieldAt e 6 1)), streams := imgNums l 10,
    taps := imgNums l 11, inctxs := (if session then imgNums l 12 else (imgNums l 12 ++ [imgCtx l]).dedup), i2cs := imgNums l 13,
    keysets := imgNums l 14, covers := [], windows := (entsOf l 15).map (fun e => (fieldAt e 4 1, fieldAt e 5 1, fieldAt e 6 1)),
    grants := (entsOf l 16).map (fun e => { first := fieldAt e 4 4, last := fieldAt e 8 4, acc := fieldAt e 12 1 }),
    edge := edgeProgOf (secBytes l (nth [] (edgeSecs l) 0)),
    smemInit := ((imgSecs l).filter (fun e => fieldAt e 0 1 == 2)).map (fun e => (fieldAt e 1 1, fieldAt e 12 4, secBytes l e)),
    state := .loaded, killCls := 0, startPend := none, startTag := none, stopping := false, frame := 0, frames := [], fs := 0,
    fsPrev := 0, prevAborted := false, slackLast := 0, slackMin := 2147483647, miss := 0, abort := 0, recent := [],
    dxCtrl := dxReset, dxForce := dxReset, dxInval := false, dxDelta := 0, dxRefresh := 0, dxStaleN := 0, dxOff := 0, dxScene := 0,
    dxChanged := 0, dxPos := 0, stale := [], span := 0, points := [], stepAt := none, lastStep := 0, steps := 0 }

/-! ### LOAD_RANGE -/

/-- A tile map keeps to R65 and R164: multiples of 16, some width, no more than a plane can have (R98), and none on an odd core
of a paired job. -/
def tilesGood (paired : Bool) (t : List Nat) : Bool :=
  let w := t.foldl (· + ·) 0
  t.all (fun x => x % 16 == 0) && decide (0 < w) && decide (w ≤ 4096)
    && (!paired || [1, 3, 5, 7].all (fun k => nth 0 t k == 0))

/-- A tile map divides the plane width of the image's Intake context (R65). A context whose width has not been written has none to
hold the map against (log entry 103). -/
def State.tilesFit (s : State) (l : List Byte) (t : List Nat) : Bool :=
  imgCtx l == 0xFF || s.imgPlane l == 0 || t.foldl (· + ·) 0 == s.imgPlane l

/-- Offset ranges of the registers of what a manifest claims (R237): generators, streams with their coefficients, taps, Intake
contexts, I2C masters, the blocks of its cores, inbound windows. -/
def Job.claims (j : Job) (used : List Nat) : List (Nat × Nat) :=
  j.fsgs.map (fun n => (0x020100 + 0x20 * n, 0x02011F + 0x20 * n))
    ++ j.streams.flatMap (fun n => [(0x050100 + 0x80 * n, 0x05017F + 0x80 * n), (0x054000 + 0x800 * n, 0x0547FF + 0x800 * n)])
    ++ j.taps.map (fun t => if t < 2 then (0x040420 + 0x10 * t, 0x04042F + 0x10 * t)
        else (0x050940 + 0x20 * (t - 2), 0x05095F + 0x20 * (t - 2)))
    ++ j.inctxs.map (fun n => (0x040100 + 0x40 * n, 0x04013F + 0x40 * n))
    ++ j.i2cs.map (fun m => (0x041000 + 0x400 * m, 0x0413FF + 0x400 * m))
    ++ used.map (fun k => (0x100000 + 0x10000 * k, 0x10FFFF + 0x10000 * k))
    ++ (j.windows.filter (fun w => w.2.2 == 0)).map (fun w => (0x0B0400 + 16 * w.2.1, 0x0B040F + 16 * w.2.1))

/-- `[a, b]` is covered by ranges: each step moves past one of them. -/
def covered (l : List (Nat × Nat)) (b : Nat) : Nat → Nat → Bool
  | 0, _ => false
  | n + 1, a =>
    match l.find? (fun r => decide (r.1 ≤ a) && decide (a ≤ r.2)) with
    | none => false
    | some r => decide (b ≤ r.2) || covered l b n (r.2 + 1)

/-- Sections fit their ranges on every core they name (R234). -/
def secFits (l : List Byte) (j : Job) (e : List Byte) : Bool :=
  let code := fieldAt e 0 1 == 1
  let n := fieldAt e 12 4 + (if code then fieldAt e 8 4 / 8 else fieldAt e 8 4)
  (upFrom 0 8).all (fun k => bitsOf (fieldAt e 1 1) k 1 == 0 ||
    (!(entsOn l (if code then 3 else 4) k).isEmpty && decide (n ≤ if code then (j.on k).imemCount else (j.on k).smemCount)))

/-- Every value of the image keeps to the limits of LOAD_RANGE (Table IS-14). -/
def State.imgRange (s : State) (l : List Byte) : Bool :=
  match s.imgTiles l with
  | none => false
  | some tiles =>
    let j := s.imgJob l 0 tiles
    let used := usedCores tiles j.paired
    let all (t lim : Nat) : Bool := (imgNums l t).all (fun n => decide (n ≤ lim))
    let pc (k a : Nat) : Bool := decide ((j.on k).imemFirst ≤ a) && decide (a < (j.on k).imemFirst + (j.on k).imemCount)
    decide (8 ≤ j.s) && decide (j.s ≤ 64) && j.s % 8 == 0 && decide (j.a ≤ j.s) && j.a % 2 == 0
      && (if imgCtx l = 0xFF then j.session && !j.paired else decide (imgCtx l ≤ 7))
      && tilesGood j.paired tiles && s.tilesFit l tiles
      && (entsOf l 3).all (fun e => decide (fieldAt e 4 2 + fieldAt e 6 2 ≤ 32768))
      && (entsOf l 4).all (fun e => decide (fieldAt e 4 4 + fieldAt e 8 4 ≤ 65536))
      && (entsOf l 5).all (fun e => decide (fieldAt e 2 1 ≤ 3) && decide (fieldAt e 4 4 ≤ fieldAt e 8 4) && decide (fieldAt e 8 4 < 131072))
      && used.all (fun k => pc k j.entry && (j.handler == 0xFFFF || pc k j.handler))
      && ((imgSecs l).filter (fun e => fieldAt e 1 1 != 0)).all (secFits l j)
      && all 8 3 && all 10 5 && all 11 3 && all 12 7 && all 13 1 && all 14 3
      && j.pins.all (fun p => decide (p.1 < 16) && (p.2 == 1 || p.2 == 2))
      && j.windows.all (fun w => decide (w.1 ≤ 7) && decide (w.2.1 ≤ 31) && decide (w.2.2 ≤ 1))
      && j.grants.all (fun g => decide (g.first ≤ g.last) && decide (1 ≤ g.acc) && decide (g.acc ≤ 3)
          && covered (j.claims used) g.last ((j.claims used).length + 1) g.first)
      && decide (j.edge.consts.length ≤ 131072) && decide (1 ≤ j.edge.lrows) && decide (j.edge.lrows ≤ 4096)
      && edgeGood j.edge.consts.length (used.map (fun k => (j.on k).rows)) [] j.edge.recs

/-! ### LOAD_NO_MODEL and LOAD_CONFLICT -/

/-- Every MODEL entry names a loaded package with its version and digest. -/
def State.imgModels (s : State) (j : Job) : Bool :=
  j.models.all (fun m => s.pkgs.any (fun p => p.id == m.pkg && p.version == m.version && p.digest % 2 ^ 128 == m.digest))

/-- Two ranges [a, a + n) and [b, b + m) share something. -/
def overlaps (a n b m : Nat) : Bool := decide (0 < n) && decide (0 < m) && decide (a < b + m) && decide (b < a + n)

/-- Two lists share an element. -/
def share (a b : List Nat) : Bool := a.any (fun x => b.contains x)

/-- The row ranges `g` of job `j` and `h` of job `i` break Table IS-15: they overlap, and are not both WEIGHT of one package. -/
def rowsClash (j i : Job) (g h : RowRange) : Bool :=
  overlaps g.first (g.last + 1 - g.first) h.first (h.last + 1 - h.first)
    && !(g.cls == 0 && h.cls == 0 && (j.models[g.model]? == i.models[h.model]?))

/-- A row range takes rows of a loaded package it is not a WEIGHT range of (R600, Table IS-15). -/
def State.pkgClash (s : State) (j : Job) (k : Nat) (g : RowRange) : Bool :=
  s.pkgs.any (fun p => p.cores.contains k && overlaps g.first (g.last + 1 - g.first) p.first p.rows
    && !(g.cls == 0 && (j.models[g.model]?).any (fun m => m.pkg == p.id)))

/-- Row ranges of one manifest clash among themselves. -/
def selfClash (j : Job) : List RowRange → Bool
  | [] => false
  | g :: l => l.any (fun h => rowsClash j j g h) || selfClash j l

/-- Edge outputs that the streams and taps of a job read, by their registers as written: an image stream or tap T3 the source of
its stream, tap T2 its own. -/
def State.outsRead (s : State) (j : Job) : List Nat :=
  let edge (n : Nat) : List Nat := if s.getF (F.OF_CFG_SRC_KIND n) = 0 ∧ s.getF (F.OF_CFG_FORMAT n) ≠ 4 then [s.getF (F.OF_CFG_SRC n)] else []
  let t3 := s.getF (F.OF_TAP_SRC 1)
  (j.streams.flatMap edge ++ (if j.taps.contains 2 then [s.getF (F.OF_TAP_SRC 0)] else [])
    ++ (if j.taps.contains 3 && decide (t3 < 6) then edge t3 else [])).dedup

/-- Bytes that a job needs in the source store (R383): (2S + 8) rows of each Edge output that its streams or taps read. -/
def State.storeNeed (s : State) (j : Job) : Nat :=
  (s.outsRead j).foldl (fun a o => a + (2 * j.s + 8) * j.outBytes o) 0

/-- Two WINDOW entries claim the same window (R238, R511): an inbound window is one of this chip's 32, whatever byte 4 says; an
outbound one is a window of another chip. -/
def sameWindow (a b : Nat × Nat × Nat) : Bool := a.2 == b.2 && (a.2.2 == 0 || a.1 == b.1)

/-- The awning rows that an image names on a core exceed 2,048, or overlap those of a loaded job (R68). -/
def State.awningClash (s : State) (k : Nat) (h : CoreShare) : Bool :=
  decide (2048 < h.awnFirst + h.awnCount)
    || s.jobs.any (fun i => overlaps h.awnFirst h.awnCount (i.on k).awnFirst (i.on k).awnCount)

/-- The image claims something that a loaded job or the board holds (Tables IS-14 and IS-15, R68). -/
def State.imgConflict (s : State) (j : Job) : Bool :=
  let used := usedCores j.tiles j.paired
  let core (k : Nat) : Bool :=
    let h := j.on k
    -- R136, R593, R485, R191
    (used.contains k && s.jobs.any (fun i => i.ctxNo == j.ctxNo && i.cores.contains (coreOf k)))
      || (used.contains k && (s.flag F.SEC_STATUS_AFT_OFF || s.flag (F.CORE_STATUS_QUAR k) || s.flag (F.SP_STATUS_INIT_FAIL k)))
      || s.jobs.any (fun i =>
        let g := i.on k
        overlaps h.imemFirst h.imemCount g.imemFirst g.imemCount || overlaps h.smemFirst h.smemCount g.smemFirst g.smemCount
          || h.rows.any (fun a => g.rows.any (fun b => rowsClash j i a b)))
      || h.rows.any (fun g => s.pkgClash j k g) || selfClash j h.rows
      || s.awningClash k h
      || decide (16 < (h.rows.foldl (addRange j.id) (s.ranges k)).length)
  (upFrom 0 8).any core
    || (j.session && s.jobs.any (·.session))
    || s.jobs.any (fun i => share j.fsgs i.fsgs || share j.streams i.streams || share j.taps i.taps || share j.inctxs i.inctxs
        || share j.i2cs i.i2cs || share j.keysets i.keysets || j.windows.any (fun w => i.windows.any (sameWindow w)))
    || j.pins.any (fun p => s.pinUse p.1 != 0)
    || decide (8 ≤ s.jobs.length)
    || decide (4096 < s.jobs.foldl (fun a i => a + i.edge.lrows) j.edge.lrows)
    || decide (131072 < s.jobs.foldl (fun a i => a + i.edge.consts.length) j.edge.consts.length)
    || decide (storeSize < s.jobs.foldl (fun a i => a + s.storeNeed i) (s.storeNeed j))

/-! ### Load and unload -/

/-- Writes the CODE sections of an image into instruction memory (R234). -/
def State.loadCode (s : State) (l : List Byte) (j : Job) : State :=
  ((imgSecs l).filter (fun e => fieldAt e 0 1 == 1 && fieldAt e 1 1 != 0)).foldl (fun s e =>
    let b := secBytes l e
    s.forCores (fun k s =>
      if bitsOf (fieldAt e 1 1) k.val 1 = 1 then
        let a := (j.on k.val).imemFirst + fieldAt e 12 4
        let ws := (upFrom 0 (b.length / 8)).map (fun i => (a + i, BitVec.ofNat 64 (fieldAt b (8 * i) 8)))
        let c := s.core k
        s.setCore k { c with imem := msets (dflt 0#64) c.imem ws,
                             imemBad := msets (dflt false) c.imemBad (ws.map (fun w => (w.1, false))) }
      else s)) s

/-- The lowest job ID that no loaded job has; 0x000 is never given (R465). -/
def State.freeJob (s : State) : Nat := ((upFrom 1 4095).find? (fun i => (s.job i).isNone)).getD 1

/-- CORE_PAIR.ROLE of a core: from the paired jobs loaded on it (Table CO-7). -/
def State.showRole (s : State) (k : Fin 8) : State :=
  let here := s.jobs.any (fun j => j.paired && j.cores.contains k)
  s.setF (F.CORE_PAIR_ROLE k) (if !here then 0 else if k.val % 2 = 0 then 1 else 2)

/-- Judges an image (R236, R237): the code of Table IS-14, the ID of the job it becomes, and the state. -/
def State.loadImage (s : State) (l : List Byte) : Nat × Nat × State :=
  let id := s.freeJob
  if !s.imgForm l then (1, 0, s)
  else if s.checkSig l (fieldAt l 36 4) l.length (some 2) 0 != .good || fieldAt l 40 4 != 256 then (2, 0, s)
  else if !s.imgRange l then (3, 0, s)
  else
    let j := s.imgJob l id ((s.imgTiles l).getD [])
    if !s.imgModels j then (4, 0, s)
    else if s.imgConflict j then (5, 0, s)
    else
      let s := { s.loadCode l j with jobs := s.jobs ++ [j] }
      -- Table AD-4: the status of a session counts from its load
      let s := if j.session then
          ((s.setF F.AD_STATUS_COMMITTED 0).setF F.AD_STATUS_DONE 0).setF F.AD_STATUS_KILLED 0 else s
      (0, id, (s.forCores (fun k s => s.showRole k)).showLoaded.showPins)

/-- LOADIMG (R236, R237): one image at a time, checked whole. -/
def execLoadimg (b : Fin 2) (s : State) : Out :=
  match s.nextCmd b 0x03 with
  | none => .next s
  | some e =>
    if !e.unusedZero [(8, 19)] then .next (s.finish b e cmdBadField [])
    -- R192: the read waits for rows that are held
    else if s.fwHeld (e.par 8 8) (e.par 16 4) then .next s
    else
      let (l, s) := s.source (e.par 8 8) (e.par 16 4)
      match l with
      | none => .next (s.finish b e cmdSrcPoison [])
      | some l =>
        let (code, id, s) := s.loadImage l
        .next (s.finish b e code (if code = 0 then leBytes 2 id else []))

/-- A job leaves the part (R239): its contexts are free, its windows close (chapter 17), its outbound bindings are closed, and
what it held is free. -/
def State.removeJob (s : State) (j : Job) : State :=
  let s := s.forCores (fun k s =>
    let c := s.core k
    let drop (x : Ctx) : Ctx := if x.job = some j.id then { x with job := none, running := false, ended := false } else x
    s.setCore k { c with ctx := c.ctx.map drop, pairHeld := c.pairHeld.filter (fun h => h.job != j.id),
                         ring := c.ring.filter (fun g => g.job != j.id) })
  let s := allWins.foldl (fun s n => if (vget s.lnk.iw n).job = j.id then s.beginClose n none else s) s
  let s := allWins.foldl (fun s n =>
    let o := vget s.lnk.ob n
    if o.open_ && o.job == j.id then s.setOb n { o with open_ := false } else s) s
  let s := { s with jobs := s.jobs.filter (fun i => i.id != j.id),
                    flt := { s.flt with notices := s.flt.notices.filter (fun x => x.1 != j.id),
                                        taints := s.flt.taints.filter (fun x => x.1 != j.id) } }
  (s.forCores (fun k s => (s.showRole k).settle k)).showLoaded.showPins.pruneStore

/-- UNLOAD (R239). -/
def execUnload (b : Fin 2) (s : State) : Out :=
  match s.nextCmd b 0x04 with
  | none => .next s
  | some e =>
    if !e.unusedZero [(8, 9)] then .next (s.finish b e cmdBadField [])
    else
      match s.job (e.par 8 2) with
      | none => .next (s.finish b e cmdNoJob [])
      | some j =>
        if j.state == .running || j.startPend.isSome then .next (s.finish b e cmdJobState [])
        else .next ((s.removeJob j).finish b e 0 [])

end Sys2Proof.Machine
end

