-- ==== Sys2Proof/Machine/Edge.lean ====
section
/-! DEFINITION. The Edge engine (chapter 09): plane rows (R321), its records (R315–R324), box decoding and suppression
(R323–R326). -/

namespace Sys2Proof.Machine

/-! ### Programs and buffers -/

/-- FP16 constant `i` from a constant offset on. -/
def Job.fpConst (j : Job) (off i : Nat) : Nat := leNat ((j.edge.consts.drop (off + 2 * i)).take 2)

/-- Its value. -/
def Job.constF (j : Job) (off i : Nat) : FV := fp16.decode (j.fpConst off i)

/-- Plane rows of a stripe. -/
def Job.spr (j : Job) : Nat := j.s / 2

/-- Stripes of a frame (R60). -/
def Job.stripes (j : Job) (x : JFrame) : Nat := j.lastBand x.h

/-- A row of an Edge buffer of a frame. -/
def JFrame.rowOf (x : JFrame) (b : Nat) (q : Int) : Option ERow := (x.bufs.find? (fun e => e.1 == b && e.2.q == q)).map (·.2)

/-- Puts a row into an Edge buffer; the rows of that buffer more than `keep` behind it go. -/
def JFrame.putRow (x : JFrame) (keep b : Nat) (r : ERow) : JFrame :=
  { x with bufs := x.bufs.filter (fun e => e.1 != b || (e.2.q != r.q && decide (r.q < e.2.q + keep))) ++ [(b, r)] }

/-- Adds the channels of a row to the row of the same number in an Edge buffer. -/
def JFrame.widenRow (x : JFrame) (b : Nat) (r : ERow) : JFrame :=
  { x with bufs := x.bufs.map (fun e => if e.1 = b ∧ e.2.q = r.q then
      (e.1, { e.2 with vals := (e.2.vals.zip r.vals).map (fun v => v.1 ++ v.2), pois := (e.2.pois.zip r.pois).map (fun v => v.1 || v.2) })
    else e) }

/-- Rows of a buffer that lie in the frame, padded to whole stripes (R60), at the scale of that buffer. -/
def Job.rowLimit (j : Job) (x : JFrame) (ptr b : Nat) : Int :=
  (j.stripes x * j.spr * bufScale (j.edge.recs.take ptr).reverse b 1 : Nat)

/-- Row above or beneath the frame that an Edge layer gives: the edge rule of an Edge layer is not stated (log entry 22). -/
def outsideRow (q : Int) (w ch : Nat) : ERow :=
  { q := q, vals := (upFrom 0 w).map (fun x => (upFrom 0 ch).map (fun c =>
      Config.openOp 45 [unsigned 32 q, x, c] % 65536)), pois := List.replicate w false }

/-- The record at which the Edge engine stands, if it is one of operation `op`, with its run, job and frame. -/
def State.edgeRec (s : State) (op : Nat) : Option (EdgeRun × Job × JFrame × EdgeRec) :=
  match s.edge.run with
  | none => none
  | some r =>
    match s.job r.job with
    | none => none
    | some j =>
      match j.frameNo r.frame, j.edge.recs[r.ptr]? with
      | some x, some e => if recB e 0 1 = op then some (r, j, x, e) else none
      | _, _ => none

/-- Goes to the next record with the rows that a buffer received. -/
def State.edgeNext (s : State) (fresh : List (Nat × Int)) : State :=
  { s with edge := { s.edge with run := s.edge.run.map (fun (r : EdgeRun) =>
      { r with ptr := r.ptr + 1, fresh := r.fresh ++ fresh }) } }

/-- Puts rows into a buffer of the run's frame and goes to the next record. -/
def State.edgePut (s : State) (r : EdgeRun) (b : Nat) (rows : List ERow) : State :=
  let s := s.modJob r.job (fun j => j.modFrame r.frame (fun x => rows.foldl (fun x e => x.putRow (4 * j.spr + 8) b e) x))
  s.edgeNext (rows.map (fun e => (b, e.q)))

/-- The rows that a buffer received in this step. -/
def EdgeRun.rowsIn (r : EdgeRun) (x : JFrame) (b : Nat) : List ERow :=
  (r.fresh.filter (fun e => e.1 == b)).filterMap (fun e => x.rowOf b e.2)

/-! ### Plane rows (R60, R63, R106, R321) -/

/-- An input plane row of a job can run: its frame and its number. -/
def Job.preWork (j : Job) : Option JFrame :=
  if j.session || j.spr == 0 then none
  else
    match j.frames.find? (fun x => decide (x.nextQ < (j.stripes x + 1) * j.spr)) with
    | none => none
    | some x =>
      let q := x.nextQ
      let k := q / j.spr
      let asked := j.inline || k == 0 || (x.band (k - 1)).elim true (·.over)
      let input :=
        if j.stripes x * j.spr ≤ q then x.ended || !j.inline
        else if x.h / 2 ≤ q then true
        else !j.inline || decide (2 ≤ x.lines.length)
      if asked && input then some x else none

/-- A joined row can run: its frame, band and result tensor. -/
def Job.postWork (j : Job) : Option (JFrame × Nat × Nat) :=
  j.frames.findSome? (fun x => (j.joined x).map (fun e => (x, e.1, e.2)))

/-- In-line input waits at the Edge engine (R321). -/
def State.inlineWaits (s : State) : Bool :=
  s.jobs.any (fun j => j.inline && (j.preWork.isSome || j.postWork.isSome))

/-- Starts a run. -/
def State.edgeStart (s : State) (r : EdgeRun) : State :=
  ({ s with edge := { s.edge with run := some r } }).setF F.EDGE_STATUS_BUSY 1

/-- The line pair of the next input plane row: from the lines at the Edge engine, from pipeline M, repeated below a short
last stripe (R60), or nothing beneath the frame (R63). -/
def State.edgePair (s : State) (j : Job) (x : JFrame) : List (List Nat × Bool) × State :=
  let q := x.nextQ
  if j.stripes x * j.spr ≤ q then ([], s)
  else if x.h / 2 ≤ q then (x.lastPair, s)
  else if j.inline then
    (x.lines.take 2, s.modJob j.id (fun j => j.modFrame x.no (fun x => { x with lines := x.lines.drop 2 })))
  else
    let n := coreOf x.ctx
    match (s.inCtx n).bufs[x.buf.getD 0]? with
    | none => ([], s)
    | some v =>
      let (a, s) := s.lineM n (x.buf.getD 0) v (2 * q)
      let (b, s) := s.lineM n (x.buf.getD 0) v (2 * q + 1)
      -- R125, Table IN-5: what pipeline M finds is a flag of the frame
      let found := ((s.inCtx n).bufs[x.buf.getD 0]?).elim 0 (·.flags)
      ([a, b], s.modJob j.id (fun j => j.modFrame x.no (fun x => { x with flags := x.flags ||| found })))

/-- A position of a row of line memory is poisoned. -/
def ERow.spoil (r : ERow) (x : Nat) : ERow := { r with pois := setNth r.pois x true }

/-- Words of line memory turn out uncorrectable (R467, class EDGE_UE): the row that holds one is poisoned there, with its record. -/
def State.edgeUe (s : State) (id : Nat) (ue : List (Nat × Int × Nat)) : State :=
  ue.foldl (fun s e =>
    let here (b : Nat × ERow) : Bool := b.1 == e.1 && b.2.q == e.2.1 && decide (e.2.2 < b.2.pois.length)
    match s.job id with
    | none => s
    | some j =>
      if !j.frames.any (fun x => x.bufs.any here) then s
      else
        let s := s.modJob id (fun j => { j with frames := j.frames.map (fun x =>
          { x with bufs := x.bufs.map (fun b => if here b then (b.1, b.2.spoil e.2.2) else b) }) })
        s.report { mkRec s.time.now 0x06 0x17 with job := id, poison := true }) s

/-- EDGE_PLANE_ROW_START (R321): an input plane row of a job, or a row of results joined by TAKE. -/
def execEdgePlaneRowStart (id : Nat) (turn : EdgeTurn) (s : State) : Out :=
  let s := s.edgeUe id turn.ue
  match s.job id with
  | none => .next s
  | some j =>
    if s.off || s.edge.run.isSome || (!j.inline && s.inlineWaits) then .next s
    else if turn.post then
      match j.postWork with
      | none => .next s
      | some (x, k, t) =>
        .next (s.edgeStart { job := id, frame := x.no, post := true, band := k, row := ⟨0, [], []⟩, t := t, ptr := 0,
                             fresh := [], held := false, start := s.time.now })
    else
      match j.preWork with
      | none => .next s
      | some x =>
        let (pair, s) := s.edgePair j x
        let q := x.nextQ
        let s := s.modJob id (fun j => j.modFrame x.no (fun x => { x with nextQ := q + 1, lastPair := pair }))
        .next (s.edgeStart { job := id, frame := x.no, post := false, band := q / j.spr,
                             row := ⟨(q : Int), pair.map (·.1), pair.map (·.2)⟩, t := 0, ptr := 0, fresh := [],
                             held := false, start := s.time.now })

/-- EDGE_END (R315): the last record ends the plane row; so does the end of its job or frame. A program without EMIT
reaches R_k when the last row of the stripe ends. -/
def execEdgeEnd (s : State) : Out :=
  match s.edge.run with
  | none => .next s
  | some r =>
    let gone := match s.job r.job with
      | none => true
      | some j => (j.frameNo r.frame).isNone
    match s.edgeRec 10 with
    | none => if gone then .next ({ s with edge := { s.edge with run := none } }.setF F.EDGE_STATUS_BUSY 0) else .next s
    | some (_, j, _, _) =>
      let t := s.time.now
      let b := (r.start, t) :: s.edge.busy.filter (fun e => decide (t < e.2 + 16384000))
      let s := { s with edge := { s.edge with run := none, busy := b } }.setF F.EDGE_STATUS_BUSY 0
      let s := if !r.post && (r.row.q.toNat + 1) % j.spr == 0 && !j.edge.recs.any (fun e => recB e 0 1 == 3) then
        s.stripeReady r.job r.frame r.band else s
      .next (s.bandOver r.job)

/-- EDGE_LOAD: the busy fraction of the last 16.384 ms, in 1/1,024; a wholly busy window reads 1,023. -/
def State.edgeLoad (s : State) : Nat :=
  let t := s.time.now
  let lo := t - 16384000
  let l := s.edge.busy ++ (match s.edge.run with
    | some r => [(r.start, t)]
    | none => [])
  min 1023 ((l.foldl (fun a e => a + (min e.2 t - max e.1 lo)) 0) * 1024 / 16384000)

/-! ### PACK, ECONV, SHUFFLE, ARGMAX -/

/-- An FP16 code rounded RNA from an exact value over another, and whether it overflowed (R291). -/
def toF16 (x y : FV) : Nat × Bool :=
  let c := convert 5 rna x y
  (c.code, c.sat)

/-- PACK (R318): channel p of a position is Bayer phase p as x / 2^B. A position past the line received is not stated. -/
def packPair (depth w : Nat) (a b : List Nat) (q : Int) (p : Bool) : ERow :=
  let px (l : List Nat) (x : Nat) : Nat :=
    match l[x]? with
    | some v => (toF16 (.fin false v (-(depth : Int))) fvOne).1
    | none => Config.openOp 49 [x] % 65536
  { q := q, vals := (upFrom 0 w).map (fun x => [px a (2 * x), px a (2 * x + 1), px b (2 * x), px b (2 * x + 1)]),
    pois := List.replicate w p }

/-- PACK. -/
def execPack (s : State) : Out :=
  match s.edgeRec 1 with
  | none => .next s
  | some (r, j, x, e) =>
    if r.post then .next (s.edgeNext [])
    else
      let w := j.width
      let row := match r.row.vals with
        | a :: b :: _ => packPair x.depth w a b r.row.q (r.row.pois.any id)
        | _ => outsideRow r.row.q w 4
      .next (s.edgePut r (recB e 2 1) [row])

/-- One tap of ECONV: the channel values at a row and column, with poison, under the edge rule that an Edge layer leaves
open: zero or replicated (log entry 22). -/
def econvTap (x : JFrame) (b : Nat) (lim : Int) (w ch : Nat) (y c : Int) : List FV × Bool :=
  let inside := decide (0 ≤ y) && decide (y < lim) && decide (0 ≤ c) && decide (c < (w : Int))
  let zeros := (List.replicate ch (fvInt 0), false)
  let at_ (y c : Int) : List FV × Bool :=
    match x.rowOf b y with
    | none => zeros
    | some r => ((nth [] r.vals c.toNat).map (fun v => fp16.decode v), nth false r.pois c.toNat)
  if inside then at_ y c
  else if Config.openOp 40 [] % 2 = 0 then zeros
  else at_ (clampTo 0 (lim - 1) y) (clampTo 0 ((w : Int) - 1) c)

/-- One ECONV output (R317): FP32 sum in raster order of kernel positions and ascending input channels, bias, ACT, FP16. -/
def econvOut (j : Job) (e : EdgeRec) (taps : List (List FV)) (o : Nat) : Nat × Bool :=
  let cin := recB e 4 1
  let k := recB e 6 1
  let xs := taps.flatMap id
  let n := cin * k * k
  let acc := (xs.zip (upFrom 0 n)).foldl (fun a v => fadd a (fvMul v.1 (j.constF (recB e 8 4) (o * n + v.2)))) (fvInt 0)
  let v := fadd acc (j.constF (recB e 12 4) o)
  let v := if recB e 7 1 = 1 ∧ v.lt (fvInt 0) then fvInt 0 else v
  toF16 v fvOne

/-- A row of ECONV at row `y`: the row and its overflows. -/
def econvRow (j : Job) (x : JFrame) (e : EdgeRec) (lim : Int) (w : Nat) (y : Int) : ERow × Nat :=
  let k := recB e 6 1
  let h : Int := ((k - 1) / 2 : Nat)
  let cells := (upFrom 0 w).map (fun (c : Nat) =>
    let taps := (upFrom 0 k).flatMap (fun (a : Nat) => (upFrom 0 k).map (fun (b : Nat) =>
      econvTap x (recB e 1 1) lim w (recB e 4 1) (y + a - h) ((c : Int) + b - h)))
    ((upFrom 0 (recB e 5 1)).map (econvOut j e (taps.map (·.1))), taps.any (·.2)))
  ({ q := y, vals := cells.map (fun c => c.1.map (·.1)), pois := cells.map (·.2) },
   cells.foldl (fun a c => a + (c.1.filter (·.2)).length) 0)

/-- ECONV (R317, R313). -/
def execEconv (s : State) : Out :=
  match s.edgeRec 2 with
  | none => .next s
  | some (r, j, x, e) =>
    let b := recB e 1 1
    let lim := j.rowLimit x r.ptr b
    let h : Int := ((recB e 6 1 - 1) / 2 : Nat)
    let out := (r.rowsIn x b).map (fun v =>
      let y := v.q - h
      if y < 0 ∨ lim ≤ y then (outsideRow y v.vals.length (recB e 5 1), 0) else econvRow j x e lim v.vals.length y)
    let s := s.bump F.EDGE_SAT (out.foldl (fun a v => a + v.2) 0)
    -- the next part of a layer split by output channels adds its channels to the row (log entry 101)
    let part := decide (0 < r.ptr) && (j.edge.recs[r.ptr - 1]?).any (splitPart e)
    if part then
      .next ((s.modJob r.job (fun j => j.modFrame r.frame (fun x =>
        (out.map (·.1)).foldl (fun x v => x.widenRow (recB e 2 1) v) x))).edgeNext [])
    else .next (s.edgePut r (recB e 2 1) (out.map (·.1)))

/-- SHUFFLE (R315): output (2x + i, 2y + j) of channel c is input channel 4c + 2j + i. -/
def shuffleRow (cout : Nat) (v : ERow) (i : Nat) : ERow :=
  { q := 2 * v.q + i,
    vals := v.vals.flatMap (fun px => (upFrom 0 2).map (fun b => (upFrom 0 cout).map (fun c => nth 0 px (4 * c + 2 * i + b)))),
    pois := v.pois.flatMap (fun p => [p, p]) }

/-- SHUFFLE. -/
def execShuffle (s : State) : Out :=
  match s.edgeRec 5 with
  | none => .next s
  | some (r, _, x, e) =>
    .next (s.edgePut r (recB e 2 1)
      ((r.rowsIn x (recB e 1 1)).flatMap (fun v => [shuffleRow (recB e 4 1) v 0, shuffleRow (recB e 4 1) v 1])))

/-- Index of the largest channel: ties to the lowest, NaN below every number (R322). -/
def argmaxOf : List FV → Nat → Nat → FV → Nat
  | [], _, b, _ => b
  | v :: l, i, b, m =>
    if v ≠ FV.nan ∧ (m = FV.nan ∨ m.lt v = true) then argmaxOf l (i + 1) i v else argmaxOf l (i + 1) b m

/-- ARGMAX of the Edge engine (R322). -/
def execEdgeArgmax (s : State) : Out :=
  match s.edgeRec 6 with
  | none => .next s
  | some (r, _, x, e) =>
    .next (s.edgePut r (recB e 2 1) ((r.rowsIn x (recB e 1 1)).map (fun v =>
      { v with vals := v.vals.map (fun px => [argmaxOf (px.map (fun c => fp16.decode c)) 0 0 .nan]) })))

/-! ### EMIT (R319, R166) -/

/-- A run of 512-byte rows from positions of `step` bits each, their elements `bits` wide; `n` rows. -/
def packCells (bits step : Nat) (cells : List (List Nat × Bool)) (n : Nat) : List Row :=
  let l := cells.zip (upFrom 0 cells.length)
  let v := l.foldl (fun a e => a + (e.1.1.zip (upFrom 0 e.1.1.length)).foldl
    (fun b c => b + c.1 % 2 ^ bits * 2 ^ (e.2 * step + c.2 * bits)) 0) 0
  (upFrom 0 n).map (fun i => (upFrom (64 * i) 64).map (fun w =>
    (BitVec.ofNat 64 (v / 2 ^ (64 * w)),
     l.any (fun e => e.1.2 && decide (64 * w < e.2 * step + e.1.1.length * bits) && decide (e.2 * step < 64 * w + 64)))))

/-- A pixel-stream row lands in a core: written, or held while its scratchpad initialises or wakes (R192, R194). -/
def State.landRow (s : State) (k : Fin 8) (r : Nat) (ws : Row) : State :=
  if !s.brgUp then s
  else if s.spHeld k then s.holdWrite k 7 r ws
  else (s.waited k).putRow k r ws

/-- Codes of a row under the channel scales: codes with poison, and saturations. A row outside the frame has no stated
values. -/
def emitCodes (j : Job) (e : EdgeRec) (lim : Int) (v : ERow) : List (List Nat × Bool) × Nat :=
  let t := recB e 4 1
  if v.q < 0 ∨ lim ≤ v.q then
    ((v.vals.zip (upFrom 0 v.vals.length)).map (fun p => ((upFrom 0 p.1.length).map (fun c =>
      Config.openOp 45 [unsigned 32 v.q, p.2, c, t] % 2 ^ etBits t), false)), 0)
  else
    let l := (v.vals.zip v.pois).map (fun p => ((p.1.zip (upFrom 0 p.1.length)).map (fun c =>
      convert t rna (fp16.decode c.1) (j.constF (recB e 8 4) c.2)), p.2))
    (l.map (fun p => (p.1.map (·.code), p.2)), l.foldl (fun a p => a + (p.1.filter (·.sat)).length) 0)

/-- The tile rows of plane row `y` for a core. -/
def emitTile (e : EdgeRec) (c0 w y : Nat) (codes : List (List Nat × Bool)) : List (Nat × Row) :=
  let bits := etBits (recB e 4 1)
  let ch := (nth ([], false) codes 0).1.length
  let step := pmBytes ch bits
  let per := 512 / step
  let n := (w + per - 1) / per
  let cells := (codes.drop c0).take w
  (upFrom 0 n).flatMap (fun i =>
    (packCells bits (step * 8) ((cells.drop (i * per)).take per) 1).map (fun r => (recB e 12 4 + y * recB e 16 2 + i, r)))

/-- The halo blocks of a core's tile from the codes of the stripe's plane rows, none beyond a frame edge. -/
def emitHalo (e : EdgeRec) (c0 w wide : Nat) (rows : List (List (List Nat × Bool))) : List (Nat × Row) :=
  let h := recB e 18 1
  let bits := etBits (recB e 4 1)
  let ch := (nth ([], false) (nth [] rows 0) 0).1.length
  let n := (h * rows.length * ch * bits + 4095) / 4096
  let block (x base : Nat) : List (Nat × Row) :=
    let cells := rows.flatMap (fun r => (r.drop x).take h)
    (upFrom base n).zip (packCells bits (ch * bits) cells n)
  (if h ≤ c0 then block (c0 - h) (recB e 20 4) else []) ++ (if c0 + w + h ≤ wide then block (c0 + w) (recB e 20 4 + n) else [])

/-- The plane rows of the stripe up to the row being emitted, as codes. -/
def stripeCodes (j : Job) (x : JFrame) (e : EdgeRec) (lim : Int) (last : ERow) (n : Nat) : List (List (List Nat × Bool)) :=
  (upFrom 0 n).map (fun (y : Nat) =>
    let q := last.q - ((n : Int) - 1) + y
    let v := (x.rowOf (recB e 1 1) q).getD
      (outsideRow (-1) last.vals.length (nth [] last.vals 0).length)
    (emitCodes j e lim v).1)

/-- The last row of a stripe has been sent (R73, R319): R_k now, or, when a core holds some of its rows, once they have landed. -/
def State.stripeSent (s : State) (j : Job) (x : JFrame) (k : Nat) : State :=
  if s.rowsHeld j x then { s with edge := { s.edge with landing := s.edge.landing ++ [(j.id, x.no, k)] } }
  else s.stripeReady j.id x.no k

/-- EMIT (R319): rows and halo blocks into every core of the job in the frame; R_k once the last row has landed (R73). Rows wait
while the bridge retrains, which loses none (R54). After a TAKE there is no stripe, and nothing is written. -/
def execEmit (s : State) : Out :=
  match s.edgeRec 3 with
  | none => .next s
  | some (r, j, x, e) =>
    if r.post then .next (s.edgeNext [])
    else if s.brgBusy then .next s
    else
      let b := recB e 1 1
      let lim := j.rowLimit x r.ptr b
      let rows := r.rowsIn x b
      let f := rows.length
      let s := (rows.zip (upFrom 0 f)).foldl (fun s v =>
        let y := r.row.q.toNat % j.spr * f + v.2
        let (codes, sat) := emitCodes j e lim v.1
        let s := s.bump F.EDGE_SAT sat
        let last := y + 1 == j.spr * f
        let all := if last ∧ recB e 18 1 ≠ 0 then stripeCodes j x e lim v.1 (j.spr * f) else []
        x.primaries.foldl (fun s k =>
          let c0 := firstCol x.tiles k
          let w := nth 0 x.tiles k
          let out := emitTile e c0 w y codes ++ (if all.isEmpty then [] else emitHalo e c0 w codes.length all)
          let dst := if j.paired then [k, k + 1] else [k]
          dst.foldl (fun s k => out.foldl (fun s o => s.landRow (coreOf k) o.1 o.2) s) s) s) s
      let more := (j.edge.recs.drop (r.ptr + 1)).any (fun e => recB e 0 1 == 3)
      let s := s.edgeNext []
      if (r.row.q.toNat + 1) % j.spr == 0 && !more then .next (s.stripeSent j x r.band) else .next s

/-! ### TAKE (R320, R383, R469) -/

/-- The lower halos of the layers that a TAKE feeds, along its longest chain, in frame rows of 1 / 2^64 (R309): `bufs` are the
buffers that hold results of it, each with the frame rows that one of its rows stands for and the halos so far. -/
def takeHalo (bufs : List (Nat × Nat × Nat)) (most : Nat) : List EdgeRec → Nat
  | [] => most
  | r :: rs =>
    match bufs.find? (fun b => b.1 == recB r 1 1) with
    | none => takeHalo bufs most rs
    | some (_, f, a) =>
      let put (f a : Nat) : List (Nat × Nat × Nat) := (recB r 2 1, f, a) :: bufs.filter (fun b => b.1 != recB r 2 1)
      match recB r 0 1 with
      | 2 =>
        let a := a + (recB r 6 1 - 1) / 2 * f
        takeHalo (put f a) (max most a) rs
      | 5 => takeHalo (put (f / 2) a) most rs
      | 6 => takeHalo (put f a) most rs
      | _ => takeHalo bufs most rs

/-- Plane row of the first row that a TAKE joins of a band, when one of its rows stands for `f` plane rows: results leave shifted
up by A, and the layers after TAKE bring a row to its band's place by their own lower halos (R62, R309). The flush band's place
is H - A (R63). -/
def Job.takeRow (j : Job) (x : JFrame) (k t f : Nat) : Int :=
  let l := j.edge.recs.dropWhile (fun r => !(recB r 0 1 == 4 && recB r 4 1 == t))
  let halo := takeHalo [(recB (nth [] l 0) 2 1, 2 * f * 2 ^ 64, 0)] 0 (l.drop 1)
  let base := if k = j.stripes x then x.h else k * j.s
  ((base * 2 ^ 64 : Nat) - ((j.a * 2 ^ 64 : Nat) - (halo : Int))) / ((2 * f * 2 ^ 64 : Nat) : Int)

/-- The positions of a core's spatial row: channel codes with poison (layout PM). -/
def takeCells (ch bits : Nat) (rows : List ResRow) : List (List Nat × Bool) :=
  let step := pmBytes ch bits
  let per := 512 / step
  let x := (rows.head?.map (·.x)).getD 0
  (upFrom 0 x).map (fun i =>
    let ws : Row := ((rows[i / per]?).map (·.ws)).getD []
    let b (c : Nat) : Nat := i % per * step * 8 + c * bits
    ((upFrom 0 ch).map (fun c => bitsOf (nth (0, false) ws (b c / 64)).1.toNat (b c % 64) bits),
     (upFrom 0 ch).any (fun c => (nth (0, false) ws (b c / 64)).2)))

/-- Plane rows that one row of a result tensor covers: the tile width over the row's positions. -/
def JFrame.coverOf (x : JFrame) (c : Nat) (rows : List ResRow) : Nat :=
  max 1 (nth 0 x.tiles c / max 1 ((rows.head?.map (·.x)).getD 1))

/-- Plane rows of a band and tensor that rows taken so far cover. -/
def JFrame.covered (x : JFrame) (k t : Nat) : Nat := ((x.taken.find? (fun e => e.1 == k && e.2.1 == t)).map (·.2.2)).getD 0

/-- Takes the first spatial row of every core of a band and tensor out of the results. -/
def JFrame.takeRows (x : JFrame) (k t f : Nat) : JFrame :=
  let res := x.primaries.foldl (fun l c =>
    let mine (r : ResRow) : Bool := r.k == k && r.t == t && r.core == c
    let n := ((l.filter mine).takeWhile (fun r => !r.last)).length + 1
    l.filter (fun r => !mine r) ++ (l.filter mine).drop n) x.res
  { x with res := res, taken := (k, t, x.covered k t + f) :: x.taken.filter (fun e => !(e.1 == k && e.2.1 == t)) }

/-- Bytes that the OUT records of a job may hand over for one row (R383). -/
def Job.outNeed (j : Job) : Nat :=
  (j.edge.recs.filter (fun r => recB r 0 1 == 9)).foldl (fun a r => a + j.outBytes (recB r 4 1) * j.outScale (recB r 4 1)) 0

/-- TAKE (R320): the rows of the run's band and tensor, joined. Held back while the source store has no room (R383);
poison is recorded and discarded (R469). -/
def execTake (s : State) : Out :=
  match s.edgeRec 4 with
  | none => .next s
  | some (r, j, x, e) =>
    if !r.post ∨ recB e 4 1 ≠ r.t then .next (s.edgeNext [])
    else if storeSize < s.storeUsed + j.outNeed then
      .next { s with edge := { s.edge with run := some { r with held := true } } }
    else
      let ch := recB e 5 1
      let bits := etBits (recB e 6 1)
      let parts := x.primaries.map (fun c => (c, (x.firstRow r.band r.t c).getD []))
      let f := (parts.head?.map (fun p => x.coverOf p.1 p.2)).getD 1
      let y := x.covered r.band r.t / f
      let cells := parts.flatMap (fun p => takeCells ch bits p.2)
      let s := s.modJob r.job (fun j =>
        { j.modFrame r.frame (fun x => x.takeRows r.band r.t f) with
          covers := (r.t, f) :: j.covers.filter (fun e => e.1 != r.t) })
      let s := { s with edge := { s.edge with run := some { r with held := false } } }
      if s.gateDrops r.job 1 then .next (s.edgeNext [])
      else if cells.any (·.2) then .next ((s.poisonCommit r.job 1 0x06 r.band 3).edgeNext [])
      else
        let val (c v : Nat) : Nat :=
          if recB e 6 1 = 0 then (toF16 (fvMul (etDecode 0 v) (j.constF (recB e 8 4) c)) fvOne).1 else v
        let q : Int := j.takeRow x r.band r.t f + y
        let row : ERow := { q := q, vals := cells.map (fun p => (p.1.zip (upFrom 0 ch)).map (fun v => val v.2 v.1)),
                            pois := cells.map (fun _ => false) }
        -- rows past the band's own belong to the flush band (log entry 98)
        if r.band < j.stripes x ∧ j.takeRow x (j.stripes x) r.t f ≤ q then .next (s.edgeNext []) else .next (s.edgePut r (recB e 2 1) [row])

/-- OUT (R361): rows of the source buffer go to Outfeed; rows outside the frame do not. -/
def execOutRec (s : State) : Out :=
  match s.edgeRec 9 with
  | none => .next s
  | some (r, j, x, e) =>
    let o := recB e 4 1
    let rows := (r.rowsIn x (recB e 1 1)).filter (fun v => decide (0 ≤ v.q) && decide (v.q < ((j.rowsAt o x.h : Nat) : Int)))
    .next ((rows.foldl (fun s v => s.storeRow j x o v.q.toNat v.vals v.pois) s).edgeNext [])

/-! ### BOXDEC (R323, R324) -/

/-- Sum of the series of e^(X / 2^300), in 1 / 2^300, from term `n` on. -/
def expSum (x : Nat) : Nat → Nat → Nat → Nat
  | 0, _, _ => 0
  | k + 1, n, t => t + expSum x k (n + 1) (t * x / 2 ^ 300 / (n + 1))

/-- FP32 exp, correctly rounded (R323): by its series to 300 binary places. -/
def fexp : FV → FV
  | .nan => .nan
  | .inf n => if n then .fin false 0 0 else .inf false
  | .fin n m e =>
    let x := m * pow2 (e + 300) / pow2 (-e - 300)
    if n ∧ 110 * 2 ^ 300 < x then .fin false 0 0
    else
      let y := expSum x 700 0 (2 ^ 300)
      if n then fpVal (convFloat 9 fp32 rna false (2 ^ 300) y 0).code else fpVal (convFloat 9 fp32 rna false y (2 ^ 300) 0).code

/-- The lesser of a value and 8; of a NaN it is not stated. -/
def least8 (v : FV) : FV := if v = FV.nan then openF32 15 [v] else if (fvInt 8).lt v then fvInt 8 else v

/-- A value kept within a side of the output frame. -/
def clipSide (w : Nat) (v : FV) : FV := if v.lt (fvInt 0) then fvInt 0 else if (fvInt w).lt v then fvInt w else v

/-- RNA(4 × value) as UINT16. -/
def quarter (v : FV) : Nat := (convert 0xB rna (fvMul v (fvInt 4)) fvOne).code

/-- A half. -/
def fvHalf : FV := .fin false 1 (-1)

/-- The box of an anchor at a position (R323): clipped corners, or none for zero area. -/
def boxOf (j : Job) (e : EdgeRec) (wide high x y a : Nat) (t : List FV) : Option (Nat × Nat × Nat × Nat) :=
  let stride := fvInt (recB e 6 2)
  let vxy := fp16.decode (recB e 10 2)
  let vwh := fp16.decode (recB e 12 2)
  let aw := j.constF (recB e 16 4) (2 * a)
  let ah := j.constF (recB e 16 4) (2 * a + 1)
  let tv (i : Nat) : FV := nth (fvInt 0) t i
  let acx := fmul (fadd (fvInt x) fvHalf) stride
  let acy := fmul (fadd (fvInt y) fvHalf) stride
  let cx := fadd acx (fmul (fmul (tv 0) vxy) aw)
  let cy := fadd acy (fmul (fmul (tv 1) vxy) ah)
  let w := fmul aw (fexp (least8 (fmul (tv 2) vwh)))
  let h := fmul ah (fexp (least8 (fmul (tv 3) vwh)))
  let x0 := clipSide wide (fsub cx (fmul w fvHalf))
  let x1 := clipSide wide (fadd cx (fmul w fvHalf))
  let y0 := clipSide high (fsub cy (fmul h fvHalf))
  let y1 := clipSide high (fadd cy (fmul h fvHalf))
  if x0.lt x1 && y0.lt y1 then some (quarter x0, quarter y0, quarter x1, quarter y1) else none

/-- One candidate goes before another: higher score, then lower index (R324). -/
def Cand.before (a b : Cand) : Bool :=
  let x := fp16.decode a.score
  let y := fp16.decode b.score
  y.lt x || (!x.lt y && decide (a.index < b.index))

/-- Places a candidate in a list in that order. -/
def insertCand (c : Cand) : List Cand → List Cand
  | [] => [c]
  | d :: l => if c.before d then c :: d :: l else d :: insertCand c l

/-- A candidate joins the frame's list of 1,024 (R324): the frame, and whether one was dropped. -/
def JFrame.addCand (x : JFrame) (c : Cand) : JFrame × Bool :=
  let l := insertCand c x.cands
  let x := { x with seen := x.seen + 1 }
  if 1024 < l.length then ({ x with cands := l.take 1024, overflow := true }, true) else ({ x with cands := l }, false)

/-- Candidates of one row of a band (R323, R324). -/
def boxCands (j : Job) (x : JFrame) (e : EdgeRec) (k : Nat) (v : ERow) : List Cand :=
  let na := recB e 4 1
  let nc := recB e 5 1
  let thr := fp16.decode (recB e 8 2)
  let w := v.vals.length
  let y := v.q.toNat
  (v.vals.zip (upFrom 0 w)).flatMap (fun p => (upFrom 0 na).flatMap (fun a =>
    let t := ((p.1.drop (a * (4 + nc))).take (4 + nc))
    let good := (upFrom 0 nc).filter (fun c =>
      let sc := fp16.decode (nth 0 t (4 + c))
      sc ≠ FV.nan && thr ≠ FV.nan && !sc.lt thr)
    if good.isEmpty then []
    else
      match boxOf j e (2 * j.width) x.h p.2 y a (t.map (fun c => fp16.decode c)) with
      | none => []
      | some (x0, y0, x1, y1) => good.map (fun c =>
          { index := ((y * w + p.2) * na + a) * nc + c, score := nth 0 t (4 + c), cls := c, anchor := a, x0 := x0, y0 := y0,
            x1 := x1, y1 := y1, px := p.2, py := y, band := k })))

/-- BOXDEC (R323, R324). -/
def execBoxdec (s : State) : Out :=
  match s.edgeRec 7 with
  | none => .next s
  | some (r, j, x, e) =>
    let rows := (r.rowsIn x (recB e 1 1)).filter (fun v => decide (0 ≤ v.q) && decide (v.q.toNat * recB e 6 2 < x.h))
    let cs := rows.flatMap (boxCands j x e r.band)
    let (x', n) := cs.foldl (fun (a : JFrame × Nat) c =>
      let (y, d) := a.1.addCand c
      (y, a.2 + (if d then 1 else 0))) (x, 0)
    -- R467: candidates of a row that carries poison are derived from it
    let bad := rows.any (fun v => v.pois.any id)
    let s := s.modJob r.job (fun j => j.modFrame r.frame (fun x =>
      { x with cands := x'.cands, seen := x'.seen, overflow := x'.overflow, boxPois := x.boxPois || bad }))
    .next ((s.bump F.EDGE_DET_DROP n).edgeNext [])

/-! ### NMS (R325–R327) -/

/-- Length of the overlap of two intervals. -/
def overlapOf (a0 a1 b0 b1 : Nat) : Nat := min a1 b1 - max a0 b0

/-- A kept box suppresses another of its class: 256 × inter > IOU_T × union. -/
def Cand.suppresses (a b : Cand) (iou : Nat) : Bool :=
  let inter := overlapOf a.x0 a.x1 b.x0 b.x1 * overlapOf a.y0 a.y1 b.y0 b.y1
  let area (c : Cand) : Nat := (c.x1 - c.x0) * (c.y1 - c.y0)
  a.cls == b.cls && decide (iou * (area a + area b - inter) < 256 * inter)

/-- Visits candidates in order and keeps at most `n`: the kept ones, and whether candidates remain unvisited. -/
def keepBoxes (iou : Nat) : Nat → List Cand → List Cand → List Cand × Bool
  | _, [], kept => (kept, false)
  | 0, _ :: _, kept => (kept, true)
  | n + 1, c :: l, kept =>
    if kept.any (fun k => k.suppresses c iou) then keepBoxes iou (n + 1) l kept else keepBoxes iou n l (kept ++ [c])

/-- A box entry (Table MP-5). -/
def Cand.bytes (c : Cand) : List Byte :=
  leBytes 2 c.x0 ++ leBytes 2 c.y0 ++ leBytes 2 c.x1 ++ leBytes 2 c.y1 ++ leBytes 2 c.score ++ leBytes 1 c.cls
    ++ leBytes 1 c.anchor ++ leBytes 4 (c.px % 8192 + c.py % 8192 * 8192)

/-- The detection packet of a frame (Tables MP-4, MP-5). -/
def detPacket (fs src flags : Nat) (kept : List Cand) (seen : Nat) (overflow trunc incomplete : Bool) : List Byte :=
  leBytes 8 fs ++ leBytes 4 src ++ leBytes 4 flags ++ leBytes 2 kept.length ++ leBytes 2 (min 65535 seen)
    ++ leBytes 1 ((if overflow then 1 else 0) + (if trunc then 2 else 0) + (if incomplete then 4 else 0)) ++ leBytes 11 0
    ++ kept.flatMap (·.bytes)

/-- Suppression over the candidates of a frame; the packet goes to Outfeed. -/
def State.suppress (s : State) (j : Job) (x : JFrame) (e : EdgeRec) : State :=
  let (kept, trunc) := keepBoxes (recB e 4 1) (recB e 6 2) x.cands []
  let bs := detPacket x.fs x.src (s.flagsOf j x) kept x.seen x.overflow trunc (x.bands.any (·.aborted))
  let s := s.modJob j.id (fun j => j.modFrame x.no (fun x => { x with suppressed := true, cands := [] }))
  let old := s.out.dets.filter (fun d => d.job != j.id || decide (x.no < d.frame + 4))
  { s with out := { s.out with dets := old ++ [({ job := j.id, frame := x.no, bytes := bs, pois := x.boxPois, done := [] } : DetPkt)] } }

/-- A frame whose boxes can be suppressed while no joined row of it runs: job, frame and record. -/
def State.nmsWork (s : State) : Option (Job × JFrame × EdgeRec) :=
  s.jobs.findSome? (fun j => j.nmsRec.bind (fun e =>
    (j.frames.find? (fun x => j.nmsDue x && !s.edge.run.any (fun r => r.post && r.job == j.id && r.frame == x.no))).map
      (fun x => (j, x, e))))

/-- NMS (R325, R327): once TAKE has completed for the flush band, at the record in its last row or, where that row has ended, by
the post-processing unit alone. -/
def execNms (s : State) : Out :=
  match s.edgeRec 8 with
  | some (r, j, x, e) =>
    if r.post && j.nmsDue x then .next (((s.suppress j x e).edgeNext []).bandOver j.id) else .next (s.edgeNext [])
  | none =>
    match s.nmsWork with
    | none => .next s
    | some (j, x, e) => .next ((s.suppress j x e).bandOver j.id)

/-! ### Registers -/

/-- A write of EDGE_CTRL (R317). -/
def State.edgeCtrlWrite (s : State) (m : Master) (v : Word) : State :=
  s.regWrite false m F.EDGE_CTRL_CLR.off v.toNat (fun s =>
    if v.toNat % 2 = 1 then (s.setF F.EDGE_SAT 0).setF F.EDGE_DET_DROP 0 else s)

/-- EDGE_CLR. -/
def execEdgeClr (m : Master) (v : Word) (s : State) : Out := .next (s.edgeCtrlWrite m (v ||| 1#32))

end Sys2Proof.Machine
end

