-- ==== Sys2Proof/Machine/Outfeed.lean ====
section
/-! DEFINITION. Outfeed (chapter 12): stream references and shadows (R363, R384), line checks (R375), lines sent or written
(R362–R372), trailers (R379), detection packets (R378), CUT (R385), releases, and load sense (R381). -/

namespace Sys2Proof.Machine

/-! ### Configuration in force -/

/-- Registers of a stream whose effect point is its REF. -/
def ofRegs (n : Nat) : List Nat :=
  [(F.OF_CFG_ENABLE n).off, (F.OF_CROP_XY_X n).off, (F.OF_CROP_WH_W n).off, (F.OF_OUT_WH_W n).off, (F.OF_BASE n).off,
   (F.OF_PITCH n).off, (F.OF_FILL_Y n).off, (F.OF_OFFSET n).off, (F.OF_LINE n).off, (F.OF_MEMSRC n).off,
   (F.OF_MEMPITCH n).off]

/-- The coefficient table of a stream. -/
def coefRegs (n : Nat) : List Nat := (upFrom 0 448).map (fun i => 0x054000 + n * 0x800 + 4 * i)

/-- The configuration in force of a stream. -/
def State.streamCfg (s : State) (n : Nat) : StreamCfg :=
  { geo := s.geo n, src := s.forceF (F.OF_CFG_SRC n), mem := s.forceF (F.OF_CFG_SRC_KIND n) == 1,
    csc := s.forceF (F.OF_CFG_CSC n), sinkMem := s.forceF (F.OF_CFG_SINK n) == 1, vc := s.forceF (F.OF_CFG_VC n),
    timeref := s.forceF (F.OF_CFG_TIMEREF n), base := s.forceF (F.OF_BASE n) * 256, pitch := s.forceF (F.OF_PITCH n),
    fillY := s.forceF (F.OF_FILL_Y n), fillU := s.forceF (F.OF_FILL_U n), fillV := s.forceF (F.OF_FILL n),
    offset := s.forceF (F.OF_OFFSET n), line := s.forceF (F.OF_LINE n), memsrc := s.forceF (F.OF_MEMSRC n) * 256,
    mempitch := s.forceF (F.OF_MEMPITCH n),
    coef := s.force.filter (fun e => decide (0x054000 + n * 0x800 ≤ e.1) && decide (e.1 < 0x054700 + n * 0x800)) }

/-- Size of a stream's source: an Edge output, or a memory frame, whose size is not given and is taken to end with the crop
window. -/
def State.srcSize (s : State) (c : StreamCfg) (n : Nat) : Nat × Nat :=
  if c.mem then (c.geo.cx + c.geo.cw, c.geo.cy + c.geo.ch)
  else
    match s.feeder n with
    | none => (0, 0)
    | some j => (j.outCols c.src, j.outRows c.src)

/-- A size that a crop or output may not have. -/
def badSide (v : Nat) : Bool := v == 0 || decide (8192 < v)

/-- The configuration in force of a stream breaks R363. A detection stream has no geometry. -/
def State.streamBad (s : State) (n : Nat) : Bool :=
  let c := s.streamCfg n
  let g := c.geo
  let j := s.feeder n
  let (w, h) := s.srcSize c n
  let ref := c.timeref == 0 && (c.mem || j.elim false (fun j => !j.inline))
  let chans : Bool :=
    if g.fmt = 4 then !c.mem && j.elim false (fun j => j.edge.recs.any (fun e => recB e 0 1 == 8))
    else c.mem || (match j.bind (fun j => j.outInfo c.src) with
      | none => false
      | some (k, label) => label == (g.fmt == 3) && k == (if g.fmt = 3 then 1 else 3))
  let shape := g.fmt != 4 &&
    (badSide g.cw || badSide g.ch || badSide g.ow || badSide g.oh || decide (w < g.cx + g.cw) || decide (h < g.cy + g.ch)
      || decide (g.cw < g.ow) || decide (16 * g.ow < g.cw) || decide (g.ch < g.oh) || decide (16 * g.oh < g.ch)
      || (g.half && (g.ow % 2 == 1 || g.oh % 2 == 1)))
  let vc := !c.sinkMem && (upFrom 0 n).any (fun m => s.streamOn m && s.forceF (F.OF_CFG_SINK m) == 0
    && s.forceF (F.OF_CFG_VC m) == c.vc)
  ref || !chans || shape || vc

/-- Loads the shadow of a stream at its REF (R363, R384); a stop written since the last one wins over a start (R554). -/
def State.loadStream (s : State) (n : Fin 6) : State :=
  let x := s.stream n
  let s := if x.stop then s.setF (F.OF_CFG_ENABLE n) 0 else s
  let t := s.takeForces (ofRegs n ++ coefRegs n)
  let bad := t.streamOn n && t.streamBad n
  let u := if bad then (s.setF (F.OF_STAT_CFG_REJECT n) 1) else t
  let u := u.setF (F.OF_ACT n) (u.inForce (F.OF_CFG_ENABLE n).off).toNat
  u.setStream n { x with live := true, rejected := bad, stop := false }

/-! ### References (R371, R376, R377, R384, R387) -/

/-- The latest reference of a kind for a stream: the frame start of its job, of a memory-path one too, whose stream with TIMEREF 0
is rejected at it (R363, R373); or an edge of a generator. -/
def State.refOf (s : State) (n tr : Nat) : Option Nat :=
  if tr = 0 then
    match s.feeder n with
    | none => none
    | some j =>
      if j.state == .running then j.frames.getLast?.map (·.fs)
      else if j.inline && j.state == .dead then
        let c := s.inCtx (coreOf j.inctx)
        if c.starts = 0 then none else some c.fs
      else none
  else if tr ≤ 4 then
    let g : FsgSt := vget s.fsg ⟨(tr - 1) % 4, Nat.mod_lt _ (by decide)⟩
    if g.lastEdge = 0 then none else some g.lastEdge
  else none

/-- The job frame that a stream takes at a REF: the job's latest frame for TIMEREF 0, else the oldest that it has not taken
(log entry 40). -/
def StreamSt.takeFrame (x : StreamSt) (c : StreamCfg) (j : Job) : Option JFrame :=
  if c.timeref = 0 then j.frames.getLast?
  else
    j.frames.find? (fun f => match x.bound with
      | some (b, no) => b != j.id || decide (no < f.no)
      | none => true)

/-- A new output frame (R368, R371, R376). -/
def newOutFrame (c : StreamCfg) (job ref : Nat) (f : Option JFrame) (size : Nat × Nat × Nat) (src flags : Nat) (buf : Option Nat)
    (tx : Nat) : OutFrame :=
  { cfg := c, job := job, frame := f.map (·.no), sw := size.1, sh := size.2.1, fh := size.2.2, fs := (f.map (·.fs)).getD ref, src := (f.map (·.src)).getD src,
    flags := flags, ref := ref, line := 0, checked := 0, missing := [], filled := 0, firstFilled := 0xFFFF, buf := buf,
    txNo := tx, cut := false, killed := false, miss := f.elim false (fun f => f.bands.any (·.aborted)), lastAt := 0 }

/-- Tap T3 copies the cropped source of a memory-frame stream as its frame begins (R382). -/
def State.tapMemory (s : State) (n : Fin 6) (c : StreamCfg) (ref : Nat) : State :=
  let held := (s.feeder n).any (fun j => j.taps.contains 3)
  if !held || s.getF (F.OF_TAP_SRC 1) != n.val || !s.flag (F.OF_TAP_ENABLE 1) || !c.mem then s
  else
    let k := if c.geo.fmt = 3 then 1 else 6
    (upFrom 0 c.geo.ch).foldl (fun s y =>
      let (bs, s) := s.unitGet 0x05 (c.memsrc + (c.geo.cy + y) * c.mempitch + c.geo.cx * k) (c.geo.cw * k)
      s.tapRow 1 c.geo.ch y 1 (bs.map (fun b => [b.1.toNat])) (bs.map (·.2))) ((s.tapShot 1 0 ref).tapTurn 1 0 ref)

/-- Begins an output frame of a stream at a REF. No frame begins when its job has none, or no buffer is free (R368). -/
def State.beginOut (s : State) (n : Fin 6) (ref : Nat) : State :=
  let x := s.stream n
  let c := s.streamCfg n
  let size (f : Option JFrame) : Nat × Nat × Nat :=
    let (w, h) := s.srcSize c n
    match f, s.feeder n with
    | some f, some j => (w, j.rowsAt c.src f.h, f.h)
    | _, some j => (w, h, j.height)
    | _, none => (w, h, h)
  let go (s : State) (job : Nat) (f : Option JFrame) (src flags : Nat) (dead : Bool) : State :=
    let x := { s.stream n with bound := match f with
      | some f => some (job, f.no)
      | none => x.bound }
    if c.sinkMem then
      let k := s.forceF (F.OF_CFG_NBUF n) + 1
      match freeBuf x.full k x.nextBuf with
      | none => (s.setStream n x).bump (F.OF_CNT_DROP n) 1
      | some b =>
        s.setStream n { x with cur := some { newOutFrame c job ref f (size f) src flags (some b) 0 with killed := dead },
                               nextBuf := (b + 1) % k }
    else
      let no := nth 0 s.out.frameNo c.vc % 65535 + 1
      let s := { s with out := { s.out with frameNo := setNth s.out.frameNo c.vc no } }
      s.setStream n { x with cur := some { newOutFrame c job ref f (size f) src flags none no with killed := dead } }
  if c.mem then go (s.tapMemory n c ref) ((s.feeder n).elim 0 (·.id)) none 0 0 false
  else
    match s.feeder n with
    | none => s
    | some j =>
      match j.state with
      | .running =>
        match x.takeFrame c j with
        | none => s
        | some f => go s j.id (some f) f.src f.flags false
      | .dead => go s j.id none ((s.inCtx (coreOf j.inctx)).count - 1) 0 true
      | _ => s

/-- A REF finds the frame before it still going on (R377): the frame it would begin is skipped and its source rows are discarded. -/
def State.skipFrame (s : State) (n : Fin 6) : State :=
  let x := s.stream n
  let c := s.streamCfg n
  let f := if c.mem then none else (s.feeder n).bind (fun j => (x.takeFrame c j).map (fun f => (j.id, f.no)))
  (s.bump (F.OF_CNT_OVERRUN n) 1).setStream n { x with overrun := true, bound := f <|> x.bound }

/-- A stream on a generator's edges that a REF enables sends no partial frame (R387): the frames of which rows have gone by while
it was off are passed over. -/
def State.passOver (s : State) (n : Fin 6) : State :=
  let x := s.stream n
  match s.feeder n with
  | none => s
  | some j =>
    if s.forceF (F.OF_CFG_TIMEREF n) = 0 then s
    else
      match (j.frames.filter (fun f => f.closed || f.nextQ != 0 || !f.taken.isEmpty)).getLast? with
      | none => s
      | some f => s.setStream n { x with bound := match x.bound with
          | some (b, no) => if b = j.id then some (b, max no f.no) else some (j.id, f.no)
          | none => some (j.id, f.no) }

/-- STREAM_FRAME_START (R384): a REF of a stream. The reference is the one its configuration in force names, or the one its
shadow names while it is disabled. -/
def execStreamFrameStart (n : Fin 6) (s : State) : Out :=
  let on := s.streamOn n
  let tr := if on then s.forceF (F.OF_CFG_TIMEREF n) else s.getF (F.OF_CFG_TIMEREF n)
  match s.refOf n tr with
  | none => .next s
  | some r =>
    if s.off || (s.stream n).lastRef == some r then .next s
    else
      let s := s.loadStream n
      let s := s.setStream n { s.stream n with lastRef := some r }
      if !s.streamOn n || s.forceF (F.OF_CFG_TIMEREF n) != tr then .next s.pruneStore
      else if (s.stream n).cur.isSome then .next (s.skipFrame n).pruneStore
      else .next ((if on then s else s.passOver n).beginOut n r).pruneStore

/-! ### Ready check (R375, R376) -/

/-- The job of an output frame has died, or is loaded no more. -/
def State.outDead (s : State) (x : OutFrame) : Bool :=
  !x.cfg.mem && (match s.job x.job with
    | none => true
    | some j => j.state == .dead)

/-- A source row of a frame in the store. -/
def State.storedRow (s : State) (x : OutFrame) (q : Nat) : Option SrcRow :=
  s.out.store.find? (fun r => r.job == x.job && some r.frame == x.frame && r.out == x.cfg.src && r.row == q)

/-- A source row of a frame belongs to an aborted band (R327, R375). -/
def State.rowLost (s : State) (x : OutFrame) (q : Nat) : Bool :=
  match s.job x.job, x.frame with
  | some j, some no => (j.bandsOfRow x.cfg.src x.fh q).any (fun k =>
      ((j.frameNo no).bind (fun f => f.band k)).elim false (·.aborted))
  | _, _ => false

/-- Every source row of a line is there, and none belongs to an aborted band (R375). -/
def State.lineReady (s : State) (x : OutFrame) (i : Nat) : Bool :=
  x.cfg.mem || (!s.outDead x && x.frame.isSome &&
    (x.cfg.geo.rowsOf x.sh i).all (fun q => (s.storedRow x q).isSome && !s.rowLost x q))

/-- LINE_READY_CHECK (R375): the next line of a TIMEREF 0 stream, from 1,000 ns before its line time. -/
def execLineReadyCheck (n : Fin 6) (s : State) : Out :=
  let st := s.stream n
  match st.cur with
  | none => .next s
  | some x =>
    let i := x.checked
    if x.cfg.timeref ≠ 0 ∨ x.cfg.geo.fmt = 4 ∨ x.cfg.geo.oh ≤ i ∨ s.time.now + 1000 < x.lineTime i then .next s
    else
      let ok := s.lineReady x i
      let x := { x with checked := i + 1, missing := if ok then x.missing else x.missing ++ [i], miss := x.miss || (!ok && !s.outDead x) }
      .next (s.setStream n { st with cur := some x }).pruneStore

/-! ### Scaler (R362–R366) -/

/-- A source row as a line reads it: channel values per pixel, poison per pixel. -/
structure LineRow where
  q : Nat
  vals : List (List Nat)
  pois : List Bool
deriving DecidableEq, Repr

/-- The source rows of a line, from the store or from memory (Table OF-1). -/
def State.lineRows (s : State) (x : OutFrame) (i : Nat) : List LineRow × State :=
  let w := x.sw
  (x.cfg.geo.rowsOf x.sh i).foldl (fun (a : List LineRow × State) q =>
    if x.cfg.mem then
      let k := if x.cfg.geo.fmt = 3 then 1 else 6
      let (bs, s) := a.2.unitGet 0x05 (x.cfg.memsrc + q * x.cfg.mempitch) (w * k)
      let px (p : Nat) : List (Byte × Bool) := (bs.drop (p * k)).take k
      let vals := (upFrom 0 w).map (fun p =>
        if k = 1 then (px p).map (fun b => b.1.toNat)
        else (upFrom 0 3).map (fun c => leNat (((px p).drop (2 * c)).take 2 |>.map (·.1))))
      (a.1 ++ [⟨q, vals, (upFrom 0 w).map (fun p => (px p).any (·.2))⟩], s)
    else
      match a.2.storedRow x q with
      | none => a
      | some r => (a.1 ++ [⟨q, r.vals, r.pois⟩], a.2)) ([], s)

/-- The channels of a source pixel, and its poison; outside the frame the nearest one inside (R364). -/
def pixelAt (rows : List LineRow) (w q : Nat) (c : Int) : List Nat × Bool :=
  let i := (clampTo 0 ((w : Int) - 1) c).toNat
  match rows.find? (fun r => r.q == q) with
  | none => ([], false)
  | some r => (nth [] r.vals i, nth false r.pois i)

/-- A scaler coefficient: signed 12 bits, 1,024 is unity (R365). -/
def StreamCfg.tap (c : StreamCfg) (n off t : Nat) : FV :=
  let w := (mget resetWord c.coef (0x054000 + n * 0x800 + off + t / 2 * 4)).toNat
  let v := signed 12 (bitsOf w (if t % 2 = 0 then 0 else 16) 12)
  .fin (decide (v < 0)) v.natAbs (-10)

/-- FP32 sum of coefficients times values, every addition rounded (R365). -/
def tapSum (l : List (FV × FV)) : FV := l.foldl (fun a e => fadd a (fvMul e.1 e.2)) (fvInt 0)

/-- Channel `ch` of output pixel (j, i) of a frame, with the poison of what it reads (R362, R364, R365). -/
def scalePixel (c : StreamCfg) (n w h : Nat) (rows : List LineRow) (i j ch : Nat) : FV × Bool :=
  let g := c.geo
  let sx := scaleStep g.cw g.ow
  let sy := scaleStep g.ch g.oh
  let px (q : Nat) (x : Int) : FV × Bool :=
    let p := pixelAt rows w q x
    (fp16.decode (nth 0 p.1 ch), p.2)
  if sx = 65536 ∧ sy = 65536 then px (g.cy + i) ((g.cx + j : Nat) : Int)
  else
    let xs := scaleAt g.cx sx j
    let ys := scaleAt g.cy sy i
    let phase (v : Int) : Nat := (v % 65536).toNat / 1024
    let across (q : Nat) : FV × Bool :=
      let l := (upFrom 0 8).map (fun (t : Nat) => (c.tap n (phase xs * 16) t, px q (xs / 65536 - 3 + t)))
      (tapSum (l.map (fun e => (e.1, e.2.1))), l.any (fun e => e.2.2))
    let l := (upFrom 0 6).map (fun (t : Nat) =>
      (c.tap n (0x400 + phase ys * 12) t, across (clampTo 0 ((h : Int) - 1) (ys / 65536 - 2 + t)).toNat))
    (tapSum (l.map (fun e => (e.1, e.2.1))), l.any (fun e => e.2.2))

/-- Label of output pixel (j, i) (R366). A value that is not from ARGMAX has no stated label. -/
def labelPixel (c : StreamCfg) (w h : Nat) (rows : List LineRow) (isLabel : Bool) (i j : Nat) : Nat × Bool :=
  let g := c.geo
  let x := scaleAt g.cx (scaleStep g.cw g.ow) j / 65536
  let y := (clampTo 0 ((h : Int) - 1) (scaleAt g.cy (scaleStep g.ch g.oh) i / 65536)).toNat
  let p := pixelAt rows w (if scaleStep g.ch g.oh = 65536 ∧ scaleStep g.cw g.ow = 65536 then g.cy + i else y) x
  let v := nth 0 p.1 0
  (if isLabel then v % 256 else Config.openOp 48 [v] % 256, p.2)

/-! ### Colour conversion (R367) -/

/-- The FP32 value of a decimal a / 10,000. -/
def dec4 (a : Nat) : FV := fpVal (convert 9 rna (fvInt a) (fvInt 10000)).code

/-- KR, KG, KB and the divisors of Cb and Cr of the standard that CSC names. -/
def cscOf (csc : Nat) : FV × FV × FV × FV × FV :=
  if csc ≤ 1 then (dec4 2126, dec4 7152, dec4 722, dec4 18556, dec4 15748)
  else if csc = 2 then (dec4 2990, dec4 5870, dec4 1140, dec4 17720, dec4 14020)
  else (dec4 2627, dec4 6780, dec4 593, dec4 18814, dec4 14746)

/-- Y′, Cb and Cr of R′G′B′ in FP32. -/
def yccOf (csc : Nat) (r g b : FV) : FV × FV × FV :=
  let (kr, kg, kb, db, dr) := cscOf csc
  let y := fadd (fadd (fmul kr r) (fmul kg g)) (fmul kb b)
  (y, fdiv (fsub b y) db, fdiv (fsub r y) dr)

/-- An output code of `b` bits: rounded RNA and clamped to its range; the second part says that it was clamped. -/
def outCode (b : Nat) : FV → Nat × Bool
  | .nan => (Config.openOp 47 [b] % 2 ^ b, false)
  | .inf n => (if n then 0 else 2 ^ b - 1, true)
  | .fin n m e =>
    let r := roundTo m 1 e 0 none
    if n && r != 0 then (0, true) else if 2 ^ b - 1 < r then (2 ^ b - 1, true) else (r, false)

/-- Code of Y′ (R367). -/
def lumaCode (b csc : Nat) (y : FV) : Nat × Bool :=
  let full := csc == 1 || csc == 2
  let (o, k) := if full then (0, if b = 8 then 255 else 1023) else if b = 8 then (16, 219) else (64, 876)
  outCode b (fvAdd (fvInt o) (fvMul (fvInt k) y))

/-- Code of a chroma value (R367). -/
def chromaCode (b csc : Nat) (c : FV) : Nat × Bool :=
  let full := csc == 1 || csc == 2
  let k : Int := if full then (if b = 8 then 255 else 1023) else if b = 8 then 224 else 896
  outCode b (fvAdd (fvInt (if b = 8 then 128 else 512)) (fvMul (fvInt k) c))

/-- The exact average of four values. -/
def avg4 (a b c d : FV) : FV := fvMul (fvAdd (fvAdd a b) (fvAdd c d)) (.fin false 1 (-2))

/-! ### Lines -/

/-- A line as codes: luma (or R, G, B in turn, or labels) and, on odd lines of 4:2:0, U and V in turn. -/
structure LineCodes where
  main : List Nat
  uv : List Nat
deriving DecidableEq, Repr

/-- Bits of a code. -/
def StreamGeo.codeBits (g : StreamGeo) : Nat := if g.fmt = 1 then 10 else 8

/-- Numbers `a` and `b` in turn. -/
def inTurn : List Nat → List Nat → List Nat
  | a :: l, b :: m => a :: b :: inTurn l m
  | _, _ => []

/-- The fill line of a stream (R375, Table OF-5). -/
def fillCodes (c : StreamCfg) (i : Nat) : LineCodes :=
  let g := c.geo
  let v (x : Nat) : Nat := if g.fmt = 1 then x else x / 4
  if g.fmt = 2 then ⟨(List.replicate g.ow [v c.fillY, v c.fillU, v c.fillV]).flatMap id, []⟩
  else ⟨List.replicate g.ow (v c.fillY),
        if g.half && i % 2 == 1 then (List.replicate (g.ow / 2) [v c.fillU, v c.fillV]).flatMap id else []⟩

/-- The codes of line `i`: codes, clamps, poison, state. The chroma of an odd line whose pair is missing is not stated. -/
def State.lineCodes (s : State) (n : Nat) (x : OutFrame) (i : Nat) : LineCodes × Nat × Bool × State :=
  let c := x.cfg
  let g := c.geo
  let w := x.sw
  let h := x.sh
  let isLabel := c.mem || ((s.feeder n).bind (fun j => j.outInfo c.src)).elim false (·.2)
  let (rows, s) := s.lineRows x i
  if g.fmt = 3 then
    let l := (upFrom 0 g.ow).map (labelPixel c w h rows isLabel i)
    (⟨l.map (·.1), []⟩, 0, l.any (·.2), s)
  else
    let rgb (rows : List LineRow) (i j : Nat) : List (FV × Bool) := (upFrom 0 3).map (scalePixel c n w h rows i j)
    let here := (upFrom 0 g.ow).map (rgb rows i)
    let poison := here.any (fun p => p.any (·.2))
    let v (p : List (FV × Bool)) (k : Nat) : FV := (nth (fvInt 0, false) p k).1
    if g.fmt = 2 then
      let l := here.flatMap (fun p => (upFrom 0 3).map (fun k => outCode 8 (fvMul (fvInt 255) (v p k))))
      (⟨l.map (·.1), []⟩, (l.filter (·.2)).length, poison, s)
    else
      let b := g.codeBits
      let ycc (p : List (FV × Bool)) : FV × FV × FV := yccOf c.csc (v p 0) (v p 1) (v p 2)
      let cur := here.map ycc
      let ys := cur.map (fun p => lumaCode b c.csc p.1)
      if i % 2 = 0 then (⟨ys.map (·.1), []⟩, (ys.filter (·.2)).length, poison, s)
      else
        let (rows0, s) := s.lineRows x (i - 1)
        let pairOk := rows0.length == (g.rowsOf h (i - 1)).length && !x.missing.contains (i - 1)
        let up0 := (upFrom 0 g.ow).map (rgb rows0 (i - 1))
        let up := up0.map ycc
        let at_ (l : List (FV × FV × FV)) (k : Nat) : FV × FV × FV := nth (fvInt 0, fvInt 0, fvInt 0) l k
        let uv := (upFrom 0 (g.ow / 2)).flatMap (fun k =>
          let four (f : FV × FV × FV → FV) : FV := avg4 (f (at_ up (2 * k))) (f (at_ up (2 * k + 1))) (f (at_ cur (2 * k)))
            (f (at_ cur (2 * k + 1)))
          if pairOk then [chromaCode b c.csc (four (fun p => p.2.1)), chromaCode b c.csc (four (fun p => p.2.2))]
          else [(Config.openOp 46 [i, 2 * k] % 2 ^ b, false), (Config.openOp 46 [i, 2 * k + 1] % 2 ^ b, false)])
        (⟨ys.map (·.1), uv.map (·.1)⟩, (ys.filter (·.2)).length + (uv.filter (·.2)).length,
         poison || (pairOk && up0.any (fun p => p.any (·.2))), s)

/-- Four 10-bit codes in five bytes, as CSI-2 packs them: the high bytes, then the low bits (log entry 31). -/
def pack10 : Nat → List Nat → List Byte
  | 0, _ => []
  | n + 1, l =>
    if l.isEmpty then []
    else
      let v (i : Nat) : Nat := nth 0 l i
      (upFrom 0 4).flatMap (fun i => leBytes 1 (v i / 4))
        ++ leBytes 1 ((upFrom 0 4).foldl (fun a i => a + v i % 4 * 4 ^ i) 0) ++ pack10 n (l.drop 4)

/-- R, G, B in turn as CSI-2 sends them: B first (log entry 31). -/
def bgr : List Nat → List Nat
  | r :: g :: b :: l => b :: g :: r :: bgr l
  | l => l

/-- U, Y, V, Y in turn of an odd line of 4:2:0 (log entry 31). -/
def uyvy : List Nat → List Nat → List Nat
  | u :: v :: uv, a :: b :: l => u :: a :: v :: b :: uyvy uv l
  | _, _ => []

/-- Payload of a line on the transmit port. -/
def txPayload (g : StreamGeo) (l : LineCodes) : List Byte :=
  let seq := if l.uv.isEmpty then (if g.fmt = 2 then bgr l.main else l.main) else uyvy l.uv l.main
  if g.fmt = 1 then pack10 seq.length seq else seq.flatMap (fun v => leBytes 1 v)

/-- CSI-2 data type of a format (Table OF-1). -/
def dataType (fmt : Nat) : Nat :=
  match fmt with
  | 0 => 0x18
  | 1 => 0x19
  | 2 => 0x24
  | 3 => 0x2A
  | _ => 0x31

/-- Bytes of codes in memory: 10-bit codes lie in [15:6] of 16 bits. -/
def memBytes (g : StreamGeo) (l : List Nat) : List (Byte × Bool) :=
  (l.flatMap (fun v => if g.fmt = 1 then leBytes 2 (v * 64) else leBytes 1 v)).map (fun b => (b, false))

/-- STRIDE of a stream's buffers (R368). -/
def StreamCfg.stride (c : StreamCfg) : Nat :=
  if c.geo.fmt = 4 then 4224 else c.pitch * (c.geo.oh + (if c.geo.half then c.geo.oh / 2 else 0)) + 256

/-- First byte of a frame's buffer. -/
def OutFrame.bufAt (x : OutFrame) : Nat := x.cfg.base + x.buf.getD 0 * x.cfg.stride

/-- Bits of a packet header that each bit of its ECC is the parity of (CSI-2's Hamming code; log entry 102). -/
def eccRows : List (List Nat) :=
  [[0, 1, 2, 4, 5, 7, 10, 11, 13, 16, 20, 21, 22, 23], [0, 1, 3, 4, 6, 8, 10, 12, 14, 17, 20, 21, 22, 23],
   [0, 2, 3, 5, 6, 9, 11, 12, 15, 18, 20, 21, 22], [1, 2, 3, 7, 8, 9, 13, 14, 15, 19, 20, 21, 23],
   [4, 5, 6, 7, 8, 9, 16, 17, 18, 19, 20, 22, 23], [10, 11, 12, 13, 14, 15, 16, 17, 18, 19, 21, 22, 23]]

/-- The header of a packet (Table OF-2): virtual channel and data type, a 16-bit field, and the ECC over those 24 bits. -/
def txHeader (vc dt v : Nat) : List Byte :=
  let h := vc % 4 * 64 + dt % 64 + v % 65536 * 256
  let ecc := (eccRows.zip (upFrom 0 6)).foldl (fun a r => a + (r.1.foldl (fun b i => b + bitsOf h i 1) 0) % 2 * 2 ^ r.2) 0
  leBytes 3 h ++ leBytes 1 ecc

/-- CRC-16 of a long packet's payload (Table OF-2), low bit first: one more bit (log entry 102). -/
def crc16Bit (c : Nat) (b : Nat) : Nat := if (c + b) % 2 = 1 then c / 2 ^^^ 0x8408 else c / 2

/-- CRC-16 of a payload. -/
def crc16 (bs : List Byte) : Nat := (bs.flatMap (fun b => (upFrom 0 8).map (fun i => bitsOf b.toNat i 1))).foldl crc16Bit 0xFFFF

/-- The data lanes in use (Table OF-2). -/
def State.txLanes (s : State) : Nat := 2 ^ s.getF F.OF_TX_CFG_LANES

/-- What each physical data lane carries of a packet (Table OF-2, OF_TX_CFG.LMAP, LPOL): byte i goes to logical lane i mod the
lane count (log entry 102). -/
def State.onLanes (s : State) (bs : List Byte) : List (Nat × Bool × List Byte) :=
  let n := s.txLanes
  (upFrom 0 n).map (fun l =>
    let p := bitsOf (s.getF F.OF_TX_CFG_LMAP) (2 * l) 2
    (p, bitsOf (s.getF F.OF_TX_CFG_LPOL) p 1 == 1,
      ((bs.zip (upFrom 0 bs.length)).filter (fun e => e.2 % n == l)).map (·.1)))

/-- The transmit port sends a packet. -/
def State.txSend (s : State) (n i : Nat) (bs : List Byte) : State :=
  if s.flag F.OF_TX_CFG_ENABLE then s.emit (.tx n i bs (s.onLanes bs) (s.flag F.OF_TX_CFG_CLKMODE)) else s

/-- A short packet of a stream's virtual channel. -/
def State.txShort (s : State) (n vc dt i v : Nat) : State := s.txSend n i (txHeader vc dt v)

/-- A long packet of a stream's virtual channel: header with the word count, payload, CRC-16. -/
def State.txLong (s : State) (n vc dt i : Nat) (bs : List Byte) : State :=
  s.txSend n i (txHeader vc dt bs.length ++ bs ++ leBytes 2 (crc16 bs))

/-- Periodic skew calibration, in the vertical blanking after every DSK_PER frames sent (Table OF-2). -/
def State.txDeskew (s : State) : State :=
  let p := s.getF F.OF_TX_CFG_DSK_PER
  if s.flag F.OF_TX_CFG_ENABLE && p != 0 && s.getF F.OF_TX_STAT_FRAMES % p == 0 then s.emit (.deskew false) else s

/-- A write of OF_TX_CFG: at enable above 1.5 Gb/s the port sends its initial skew calibration (Table OF-2). -/
def State.txCfgWrite (s : State) (m : Master) (off : Nat) (v : Word) : State :=
  let was := s.flag F.OF_TX_CFG_ENABLE
  s.regWrite false m off v.toNat (fun s =>
    if !was && s.flag F.OF_TX_CFG_ENABLE && decide (1500 < s.getF F.OF_TX_RATE_MBPS) then s.emit (.deskew true) else s)

/-- Sends or writes a line (R368, R371). -/
def State.putLine (s : State) (n : Nat) (x : OutFrame) (i : Nat) (l : LineCodes) : State :=
  let g := x.cfg.geo
  if x.cfg.sinkMem then
    let s := s.unitPut 0x05 (x.bufAt + i * x.cfg.pitch) (memBytes g l.main)
    if l.uv.isEmpty then s else s.unitPut 0x05 (x.bufAt + (g.oh + i / 2) * x.cfg.pitch) (memBytes g l.uv)
  else
    let s := if i = 0 then s.txShort n x.cfg.vc 0x00 0 x.txNo else s
    s.txLong n x.cfg.vc (dataType g.fmt) i (txPayload g l)

/-! ### Trailers (R379) -/

/-- Slacks of the bands of a frame's source. -/
def State.outSlacks (s : State) (x : OutFrame) : List Int :=
  match s.job x.job, x.frame with
  | some j, some no => (j.recent.filter (fun e => e.1 == no)).map (fun e => e.2.1)
  | _, _ => []

/-- The 32 flag bits of a trailer. -/
def State.outFlags (s : State) (n : Fin 6) (x : OutFrame) (cut incomplete : Bool) : Nat :=
  let st := s.stream n
  let miss := x.miss || (s.outSlacks x).any (fun v => decide (v < 0))
  (if miss then 1 else 0) + (if x.killed then 2 else 0) + (if cut then 4 else 0) + (if incomplete then 8 else 0)
    + (if st.overrun then 16 else 0) + (if st.rejected then 32 else 0)

/-- The Intake flags of a frame's source as they stand. -/
def State.srcFlags (s : State) (x : OutFrame) : Nat :=
  match s.job x.job with
  | none => x.flags
  | some j => match x.frame.bind j.frameNo with
    | some f => s.flagsOf j f
    | none => x.flags

/-- The trailer (Table OF-3). -/
def State.trailer (s : State) (n : Fin 6) (x : OutFrame) (fl lines : Nat) : List Byte :=
  let sl := leastInt 2147483647 (s.outSlacks x)
  let sl := max (-2147483648) (min 2147483647 sl)
  let h := leBytes 8 x.fs ++ leBytes 4 x.src ++ leBytes 4 (s.srcFlags x) ++ leBytes 1 n.val ++ leBytes 1 x.cfg.vc
    ++ leBytes 2 0 ++ leBytes 4 fl ++ leBytes 2 x.filled ++ leBytes 2 x.firstFilled ++ leBytes 2 lines ++ leBytes 2 0
    ++ leBytes 4 (unsigned 32 sl) ++ leBytes 2 x.job ++ leBytes 2 0 ++ leBytes 8 x.lastAt ++ leBytes 8 0
    ++ leBytes 4 ((s.stream n).seq + 1)
  h ++ leBytes 4 (crc32 (h.flatMap (fun b => bitsLow 8 b.toNat)))

/-- Ends a frame: the trailer, the buffer full with its interrupt (R369), or the trailing line and frame end (R371). -/
def State.endOut (s : State) (n : Fin 6) (x : OutFrame) (cut incomplete : Bool) : State :=
  let fl := s.outFlags n x cut incomplete
  let t := s.trailer n x fl x.line
  let at_ := if x.cfg.geo.fmt = 4 then x.bufAt + 4160 else x.bufAt + x.cfg.stride - 256
  let s := if x.cfg.sinkMem then s.unitPut 0x05 at_ (t.map (fun b => (b, false)))
    else (((s.txLong n x.cfg.vc 0x12 x.line t).txShort n x.cfg.vc 0x01 x.line x.txNo).bumpWrap F.OF_TX_STAT_FRAMES
      (if s.flag F.OF_TX_CFG_ENABLE then 1 else 0)).txDeskew
  let st := s.stream n
  let full := match x.buf with
    | some b => setNth st.full b true
    | none => st.full
  let s := s.setStream n { st with cur := none, full := full, seq := (st.seq + 1) % 2 ^ 32, overrun := false }
  let s := (s.setF (F.OF_STAT_FLAGS n) fl).bumpWrap (F.OF_STAT_FRAMES n) 1
  (s.raiseCause (5 + n.val)).pruneStore

/-! ### Line times (R371, R372, R380) -/

/-- Band of a line: that of the source row it stands for (R385); a memory frame has none, and every line ends one. -/
def State.lineBand (s : State) (x : OutFrame) (i : Nat) : Nat :=
  if x.cfg.mem then i
  else
    match s.job x.job with
    | none => i
    | some j =>
      let l := x.cfg.geo.rowsOf x.sh i
      (j.bandsOfRow x.cfg.src x.fh (nth 0 l (if l.length = 6 then 2 else 0))).foldl min 65535

/-- A frame to be cut stands at a band boundary (R385). -/
def State.atCut (s : State) (x : OutFrame) : Bool :=
  x.cut && (x.line == 0 || x.line == x.cfg.geo.oh || s.lineBand x (x.line - 1) != s.lineBand x x.line)

/-- A source row of a memory-path job that is not there can still come: its bands are written complete, while the lines of an
in-line job are filled at their time (R81, R380). -/
def State.canCome (s : State) (x : OutFrame) : Bool :=
  match s.job x.job, x.frame with
  | some j, some no => !j.inline && j.state == .running && (j.frameNo no).elim false (fun f => !f.closed || s.edge.run.isSome || !f.res.isEmpty)
  | _, _ => false

/-- The next line of a frame is due and can be made now. -/
def State.lineDue (s : State) (x : OutFrame) : Bool :=
  let i := x.line
  decide (x.lineTime i ≤ s.time.now) && x.cfg.geo.fmt != 4 && !s.atCut x &&
    (i == x.cfg.geo.oh || x.cfg.mem || (if x.cfg.timeref = 0 then decide (i < x.checked)
      else s.lineReady x i || !s.canCome x))

/-- Another transmit stream has a line due before this one (R372). -/
def State.txBefore (s : State) (n : Fin 6) (x : OutFrame) : Bool :=
  allStreams.any (fun (m : Fin 6) => m != n && (match (s.stream m).cur with
    | none => false
    | some y =>
      let a := y.lineTime y.line
      let b := x.lineTime x.line
      !y.cfg.sinkMem && s.lineDue y && (decide (a < b) || (a == b && decide (y.cfg.vc < x.cfg.vc)))))

/-- Makes the next line of a frame: its codes, or the fill value where it is missing or a gate discards it (R375, R376,
R469, R470). -/
def State.makeLine (s : State) (n : Fin 6) (x : OutFrame) : State :=
  let i := x.line
  let dead := s.outDead x || (!x.cfg.mem && x.frame.isNone)
  let lost := dead || x.missing.contains i || (x.cfg.timeref != 0 && !s.lineReady x i)
  let (l, clips, poison, s) := if lost then (fillCodes x.cfg i, 0, false, s) else s.lineCodes n x i
  let drop := !lost && s.gateDrops x.job 2
  let s := if poison && !drop then s.poisonCommit x.job 2 0x05 i 3 else s
  let fill := lost || drop || poison
  let s := if fill then s else s.bump (F.OF_CLIP n) clips
  let s := if fill then s.bump (F.OF_CNT_FILLED n) 1 else s
  let s := s.putLine n x i (if fill then fillCodes x.cfg i else l)
  let x := { x with line := i + 1, lastAt := s.time.now, killed := x.killed || dead,
                    miss := x.miss || (lost && !dead), filled := if fill then x.filled + 1 else x.filled,
                    firstFilled := if fill && x.firstFilled == 0xFFFF then i else x.firstFilled }
  (s.setStream n { s.stream n with cur := some x }).pruneStore

/-- The packet of a frame without boxes (R378): N = 0 and INCOMPLETE. -/
def State.noBoxes (s : State) (x : OutFrame) : List Byte := detPacket x.fs x.src (s.srcFlags x) [] 0 false false true

/-- The detection packet of a frame, when it is ready, and whether it is poisoned; for a dead job, or one whose kill has reached the
Outfeed gate, which drops the packet (R466, R470), one without boxes (R378). -/
def State.detReady (s : State) (n : Fin 6) (x : OutFrame) : Option (List Byte × Bool × Bool) :=
  if s.outDead x || x.frame.isNone || s.gateDrops x.job 2 then some (s.noBoxes x, true, false)
  else
    (s.out.dets.find? (fun d => d.job == x.job && some d.frame == x.frame && !d.done.contains n.val)).map
      (fun d => (d.bytes, bitsOf ((d.bytes[20]?.map BitVec.toNat).getD 0) 2 1 == 1, d.pois))

/-- Sends or writes a detection packet with its trailer (R378). -/
def State.putDet (s : State) (n : Fin 6) (x : OutFrame) (bs : List Byte) (incomplete : Bool) : State :=
  let dead := s.outDead x || s.gateDrops x.job 2
  let s := if x.cfg.sinkMem then s.unitPut 0x05 x.bufAt (bs.map (fun b => (b, false)))
    else (s.txShort n x.cfg.vc 0x00 0 x.txNo).txLong n x.cfg.vc (dataType 4) 0 bs
  let s := { s with out := { s.out with dets := s.out.dets.map (fun (d : DetPkt) =>
    if d.job = x.job ∧ some d.frame = x.frame then { d with done := d.done ++ [n.val] } else d) } }
  s.endOut n { x with line := x.line + 1, lastAt := s.time.now, killed := x.killed || dead } false incomplete

/-- OUTFEED_LINE_TIME (R371): the next line of a stream falls due, or its trailing line at the time line OUT_H would have;
a detection stream sends its packet once it is ready. -/
def execOutfeedLineTime (n : Fin 6) (s : State) : Out :=
  match (s.stream n).cur with
  | none => .next s
  | some x =>
    if x.cfg.geo.fmt = 4 then
      match s.detReady n x with
      | none => .next s
      | some (bs, inc, pois) =>
        -- R469: Outfeed discards a poisoned commit and tells of it; the packet of the job it kills has no boxes
        if pois then .next ((s.poisonCommit x.job 2 0x05 0 0).putDet n x (s.noBoxes x) true) else .next (s.putDet n x bs inc)
    else if !s.lineDue x || (!x.cfg.sinkMem && s.txBefore n x) then .next s
    else if x.line = x.cfg.geo.oh then .next (s.endOut n x false false)
    else .next (s.makeLine n x)

/-! ### CUT, release (R385, R386, R368, R382) -/

/-- A write of OF_Sn_CTRL. -/
def State.ofCtrlWrite (s : State) (n : Fin 6) (m : Master) (v : Word) : State :=
  s.regWrite false m (F.OF_CTRL_CUT n).off v.toNat (fun s =>
    let s :=
      if bitsOf v.toNat 0 1 = 0 then s
      else
        let st := s.stream n
        match st.cur with
        | none => if s.streamOn n && s.forceF (F.OF_CFG_SINK n) == 0 then s.setF (F.OF_STAT_CUT_REFUSED n) 1 else s
        | some x =>
          if x.cfg.sinkMem then s.setStream n { st with cur := some { x with cut := true } }
          else s.setF (F.OF_STAT_CUT_REFUSED n) 1
    if bitsOf v.toNat 1 1 = 1 then
      let st := s.stream n
      s.setStream n { st with full := setNth st.full (bitsOf v.toNat 2 3) false }
    else s)

/-- CUT (R385). -/
def execCut (n : Fin 6) (m : Master) (v : Word) (s : State) : Out := .next (s.ofCtrlWrite n m (v ||| 1#32))

/-- CUT_CLOSE (R385): at the band boundary the trailer is written with CUT set and the lines written so far. -/
def execCutClose (n : Fin 6) (s : State) : Out :=
  match (s.stream n).cur with
  | none => .next s
  | some x => if s.atCut x then .next (s.endOut n x true false) else .next s

/-- STREAM_RELEASE (R368). -/
def execStreamRelease (n : Fin 6) (m : Master) (v : Word) (s : State) : Out := .next (s.ofCtrlWrite n m (v ||| 2#32))

/-- A write of a tap's release register (R382). -/
def State.ofTapReleaseWrite (s : State) (t : Fin 2) (m : Master) (v : Word) : State :=
  s.regWrite false m (F.OF_TAP_RELEASE_IDX t).off v.toNat (fun s =>
    let x := s.outTap t
    s.setOutTap t { x with full := setNth x.full (v.toNat % 8) false })

/-- TAP_RELEASE (R115, R382): taps T0 and T1 of Intake, T2 and T3 of Outfeed. -/
def execTapRelease (t : Fin 4) (m : Master) (v : Word) (s : State) : Out :=
  if t.val < 2 then .next (s.inTapReleaseWrite ⟨t.val % 2, Nat.mod_lt _ (by decide)⟩ m v)
  else .next (s.ofTapReleaseWrite ⟨t.val % 2, Nat.mod_lt _ (by decide)⟩ m v)

/-! ### Load sense (R381) -/

/-- A write of OF_TX_SENSE: GO starts a measurement while the port is disabled. -/
def State.txSenseWrite (s : State) (m : Master) (v : Word) : State :=
  s.regWrite false m F.OF_TX_SENSE_GO.off v.toNat (fun s =>
    if v.toNat % 2 = 0 then s
    else if s.flag F.OF_TX_CFG_ENABLE then s.setF F.OF_TX_STAT_SENSE_BUSY 1
    else ({ s with out := { s.out with sense := some s.time.now } }).setF F.OF_TX_SENSE_DONE 0)

/-- LOAD_SENSE_GO (R381). -/
def execLoadSenseGo (m : Master) (v : Word) (s : State) : Out := .next (s.txSenseWrite m (v ||| 1#32))

/-- What the measurement finds on a lane pair (R381): open, terminated, shorted, or any other value. -/
def senseCode (ohms : Nat) (low : Bool) : Nat :=
  if low || decide (ohms < 20) then 2 else if 200 < ohms then 0 else if 80 ≤ ohms ∧ ohms ≤ 125 then 1 else 3

/-- LOAD_SENSE_DONE (R381): the resistance in ohms of data lanes 0–3 and the clock lane, and whether a wire is below
0.1 V. -/
def execLoadSenseDone (lanes : List (Nat × Bool)) (s : State) : Out :=
  match s.out.sense with
  | none => .next s
  | some _ =>
    let v := (upFrom 0 5).foldl (fun a i =>
      let l := nth (1000, false) lanes i
      a + senseCode l.1 l.2 * 4 ^ i) 0
    .next ((({ s with out := { s.out with sense := none } }).setF F.OF_TX_SENSE_CODES v).setF F.OF_TX_SENSE_DONE 1)

/-- SOURCE_STORE_SPACE (R383): rows that no stream reads any more go, and a held TAKE may go on. -/
def execSourceStoreSpace (s : State) : Out :=
  let s := s.pruneStore
  .next { s with edge := { s.edge with run := s.edge.run.map (fun (r : EdgeRun) =>
    match s.job r.job with
    | none => { r with held := false }
    | some j => { r with held := r.held && decide (storeSize < s.storeUsed + j.outNeed) }) } }

end Sys2Proof.Machine
end

