-- ==== Sys2Proof/Machine/Power.lean ====
section
/-! DEFINITION. Power states, monitors, the margin loop, the power cap and the thermal trip (rows 278–296), and the trace funnel
(rows 297–300): chapter 19. -/

namespace Sys2Proof.Machine

/-! ### Core states (R559–R562) -/

/-- REQ of PWR_ISLk: 1 NAP, 2 DARK, 3 RUN. -/
def State.islReq (s : State) (k : Fin 8) (q : Nat) : State :=
  let refuse (s : State) : State := s.setF (F.PWR_ISL_CLIP_REQ_REFUSED k) 1
  if q = 1 then
    if 2 ≤ s.pstate k then s else if s.napOk k then s.beginSleep k psNap 1 else refuse s
  else if q = 2 then
    if s.pstate k = psDark then s
    else if !s.darkOk k then refuse s
    else if s.pstate k = psNap then s.napToDark k 1
    else s.beginSleep k psDark 1
  else if q = 3 then s.askWake k 1 else s

/-- A write of PWR_ISLk. -/
def State.pwrIslWrite (s : State) (k : Fin 8) (m : Master) (v : Word) : State :=
  s.regWrite false m (F.PWR_ISL_REQ k).off v.toNat (fun s => s.islReq k (bitsOf v.toNat 21 2))

/-- NAP_REQUEST (R560). -/
def execNapRequest (k : Fin 8) (m : Master) (v : Word) (s : State) : Out :=
  .next (s.pwrIslWrite k m (putBits v 21 2 1))

/-- DARK_REQUEST (R561). -/
def execDarkRequest (k : Fin 8) (m : Master) (v : Word) (s : State) : Out :=
  .next (s.pwrIslWrite k m (putBits v 21 2 2))

/-- RUN_REQUEST (R560). -/
def execRunRequest (k : Fin 8) (m : Master) (v : Word) (s : State) : Out :=
  .next (s.pwrIslWrite k m (putBits v 21 2 3))

/-- The START of a job that uses a core is pending: it wins over AUTO_NAP (chapter 19, corner cases). -/
def State.startsOn (s : State) (k : Fin 8) : Bool := s.jobs.any (fun j => j.startPend.isSome && j.cores.contains k)

/-- AUTO_NAP (R560): a core IDLE for 1 ms. -/
def execAutoNap (k : Fin 8) (s : State) : Out :=
  let c := s.core k
  if !s.off && s.flag (F.PWR_ISL_AUTO_NAP k) && s.pstate k == psIdle && !c.logFlush && s.napOk k && !s.startsOn k
      && decide (c.idleSince + 1000000 ≤ s.time.now) then
    .next (s.beginSleep k psNap 2)
  else .next s

/-- LOGBOOK_FLUSH_DONE (R585): the Logbook of a core that goes to sleep is empty. -/
def execLogbookFlushDone (k : Fin 8) (s : State) : Out :=
  if (s.core k).logFlush && (s.core k).log.isEmpty then .next (s.powerCore k) else .next s

/-- NAP_FLUSH_TIMEOUT (R585): 20 µs after the SLEEP packet. -/
def execNapFlushTimeout (k : Fin 8) (s : State) : Out :=
  if (s.core k).logFlush && decide ((s.core k).logFlushAt + 20000 ≤ s.time.aft) then .next (s.powerCore k) else .next s

/-- CORE_WAKE (R560, R561, R586): a core that has been asked to wake, in READY or RUN: the FAB domain is off in the other states. -/
def execCoreWake (k : Fin 8) (s : State) : Out :=
  match (s.isl k).wakeWhy with
  | none => .next s
  | some why => if 2 ≤ s.pstate k ∧ s.served then .next (s.wakeCore k why) else .next s

/-! ### Device states (R563–R566) -/

/-- A core goes to sleep with the part (R564). -/
def State.sleepOne (k : Fin 8) (s : State) : State :=
  let dark := !s.rowsNamed k.val && s.flag F.PWR_SLEEP_DARK_FREE && !s.flag (F.CORE_STATUS_QUAR k)
  if 2 ≤ s.pstate k then
    let s := s.setIsl k { s.isl k with wakeWhy := none }
    if s.pstate k = psNap && dark then s.napToDark k 3 else s
  else
    ((s.beginSleep k (if dark then psDark else psNap) 3).drainLog k).powerCore k

/-- Entry into SLEEP (R564). -/
def State.enterSleep (s : State) : State :=
  let s := (s.forCores State.sleepOne).trcPad
  let s := (s.dropLink.setF F.BRG_STATUS_UP 0).setF F.BRG_STATUS_TSYNC 0
  let s := (s.setF (F.LNK_STAT_UP 0) 0).setF (F.LNK_STAT_UP 1) 0
  s.setF F.PWR_DEV_STATE devSleep

/-- A running job is stopped at the end of its frame in progress, as by STOP (R630). -/
def State.stopForPower (s : State) (j : Job) : State :=
  let s := s.cancelStart j
  if j.state = .running ∧ !j.stopping then s.askStop j.id
  else s

/-- REQ of PWR_DEV: 1 SLEEP, 2 POWERDOWN. A request in another state is dropped, with REFUSED (R563; log entry 57). The
other codes are reserved (Table PW-9). -/
def State.devReq (s : State) (q : Nat) : State :=
  if q = 1 then
    if s.off = false ∧ s.dev = devReady then s.enterSleep else s.setF F.PWR_DEV_REFUSED 1
  else if q = 2 then
    if s.served then
      let s := { s with pwr := { s.pwr with powerdown := true } }
      s.jobs.foldl (fun s j => s.stopForPower j) s
    else s.setF F.PWR_DEV_REFUSED 1
  else s

/-- A write of PWR_DEV. -/
def State.pwrDevWrite (s : State) (m : Master) (v : Word) : State :=
  s.regWrite false m F.PWR_DEV_REQ.off v.toNat (fun s => s.devReq (bitsOf v.toNat 4 2))

/-- SLEEP_REQUEST (R563, R564). -/
def execSleepRequest (m : Master) (v : Word) (s : State) : Out := .next (s.pwrDevWrite m (putBits v 4 2 1))

/-- POWERDOWN_REQUEST (R566, R630). -/
def execPowerdownRequest (m : Master) (v : Word) (s : State) : Out := .next (s.pwrDevWrite m (putBits v 4 2 2))

/-- A wake source is enabled and has happened: 0 WAKE_N low, 1 DTIME at PWR_WAKE_AT, 2 CS_N falling (R565). -/
def State.wakes (s : State) (src : Fin 3) : Bool :=
  match src.val with
  | 0 => s.flag F.PWR_SLEEP_WAKE_PIN
  | 1 => s.flag F.PWR_SLEEP_WAKE_TIMER && decide (s.pair F.PWR_WAKE_AT_LO.off F.PWR_WAKE_AT_HI.off ≤ s.time.now)
  | _ => s.flag F.PWR_SLEEP_WAKE_HSP

/-- A core of a part that leaves SLEEP. -/
def State.wakeOne (k : Fin 8) (s : State) : State := if s.pstate k = psNap then s.wakeCore k 5 else s

/-- WAKE_EVENT (R565): the part returns to READY; after a tamper event during SLEEP it zeroes every scratchpad and enters
TAMPER_HOLD (Table BS-10, R196). -/
def execWakeEvent (src : Fin 3) (s : State) : Out :=
  if s.off || s.dev != devSleep || !s.wakes src then .next s
  else if s.latched then
    let s := s.forCores (fun k s =>
      (s.setCore k { s.core k with sp := [], awn := [] }).setF (F.CORE_STATUS_PSTATE k) psDark)
    .next s.toTamper
  else
    let s := s.setF F.PWR_DEV_STATE devReady
    let s := (s.forCores State.wakeOne).brgTrain
    let s := { s.startSweep with jobs := s.startSweep.jobs.map (fun j => { j with dxInval := true }) }
    .next s

/-! ### Rails (R567–R571, R624, R627) -/

/-- Counts a sample beyond a threshold; answers whether it is the third in a row (R568). -/
def State.railCross (s : State) (ix : Nat) (beyond : Bool) : Bool × State :=
  let n := if beyond then min (mget (dflt 0) s.pwr.railRun ix + 1) 4 else 0
  (n == 3, { s with pwr := { s.pwr with railRun := mset (dflt 0) s.pwr.railRun ix n } })

/-- A warning crossing (R569). -/
def State.railWarn (s : State) (n : Nat) : State :=
  let s := (s.setF (F.PWR_RAIL_FLAG_WARN n) 1).setF F.PWR_STATUS_RAIL_WARN 1
  (s.report { mkRec s.time.now 0x00 0x62 with opc := n }).raiseCause 24

/-- Jobs that are loaded and not dead are killed with a class. -/
def State.killAll (s : State) (cls : Nat) : State := s.jobs.foldl (fun s j => s.killJob j.id cls) s

/-- A stop crossing on an external rail (R571): every job is killed, the record, STANDBY. -/
def State.railStop (s : State) (n : Nat) : State :=
  let s := (s.setF (F.PWR_RAIL_FLAG_STOP n) 1).killAll 0x63
  (s.writeRec { mkRec s.time.now 0x00 0x63 with opc := n }).toStandby

/-- Thresholds of channel `n` apply now, and their values: warning low and high, stop low and high. -/
def State.railLimits (s : State) (n : Nat) : Option (Nat × Nat) × Option (Nat × Nat) :=
  if n < 9 then
    if s.served then
      (some (s.getF (F.PWR_RAIL_WARN_LO n), s.getF (F.PWR_RAIL_WARN_HI n)),
       some (s.getF (F.PWR_RAIL_STOP_LO n), s.getF (F.PWR_RAIL_STOP_HI n)))
    else (none, none)
  else if n < 10 then (none, none)
  else
    let k := coreOf (n - 10)
    let v := s.getF (F.PWR_ISL_ST_V_SET k)
    if !(s.served || s.dev == devSleep) then (none, none)
    else if s.pstate k ≤ 1 then (some (v - 30, 65536), some (v - 60, 65536))
    else if s.pstate k = psNap then (none, some (s.getF F.PWR_RET_MV - 40, 65536)) else (none, none)

/-- One channel's sample. -/
def State.railOne (s : State) (n v : Nat) : State :=
  let s := s.setF (F.PWR_RAIL_VAL_MV n) v
  let l := s.railLimits n
  let out (r : Option (Nat × Nat)) : Bool := r.any (fun r => decide (v < r.1) || decide (r.2 < v))
  let (w, s) := s.railCross (2 * n) (out l.1)
  let s := if w then s.railWarn n else s
  let (x, s) := s.railCross (2 * n + 1) (out l.2)
  if !x then s
  else if n < 10 then s.railStop n
  else
    let k := coreOf (n - 10)
    let s := s.setF (F.PWR_RAIL_FLAG_STOP n) 1
    if s.pstate k = psNap then s.setCore k { s.core k with retLost := true }
    else (s.report { mkRec s.time.aft (coreUnit k 0) 0x63 with opc := n }).quarantine k

/-- The capacitor falls below STO_PFAIL during a store write (R627). -/
def State.powerFail (s : State) : State :=
  if s.sto.cur.isSome ∧ s.getF F.STO_PFAIL_MV ≠ 0 ∧ s.capVolt < s.getF F.STO_PFAIL_MV then
    (s.setF F.STO_STATUS_PFAIL 1).toStandby
  else s

/-- What channel `n` reads: HOLDUP_SENSE at most 1,800 mV (R644). -/
def railRead (vals : List Nat) (n : Nat) : Nat := if n = 9 then min (nth 0 vals n) 1800 else nth 0 vals n % 65536

/-- RAIL_SAMPLE (R568): the values of channels 0–17, in mV. -/
def execRailSample (vals : List Nat) (s : State) : Out :=
  if s.off then .next s
  else
    let s := { s with pwr := { s.pwr with hold := railRead vals 9 :: s.pwr.hold.take 3 } }
    let s := (upFrom 0 18).foldl (fun s n => s.railOne n (railRead vals n)) s
    .next s.powerFail

/-! ### Temperature (R572, R580, R581) -/

/-- One sensor's report. The class of the WARN record is not stated (log entry 22). -/
def State.tempOne (s : State) (n : Nat) (v : Int) : State :=
  let old := signed 16 (s.getF (F.PWR_TEMP_VAL n))
  let warn : Int := (s.getF (F.PWR_TEMP_TH_WARN n) * 16 : Nat)
  let hot : Int := (s.getF (F.PWR_TEMP_TH_HOT n) * 16 : Nat)
  let s := s.setF (F.PWR_TEMP_VAL n) (unsigned 16 v)
  let s := if signed 16 (s.getF F.PWR_TMAX) < v then s.setF F.PWR_TMAX (unsigned 16 v) else s
  let s := s.setF ⟨F.PWR_TEMP_FLAG_HOT.off, 12 + n, 1⟩ (if hot ≤ v then 1 else 0)
  if warn ≤ v ∧ old < warn then
    let s := (s.setF ⟨F.PWR_TEMP_FLAG_WARN.off, n, 1⟩ 1).setF F.PWR_STATUS_TEMP_WARN 1
    (s.report { mkRec s.time.now 0x00 (Config.openOp 55 [n] % 256) with opc := n }).raiseCause 25
  else s

/-- TEMP_SAMPLE (R572): the twelve sensors, in 1/16 °C. -/
def execTempSample (vals : List Int) (s : State) : Out :=
  if s.off then .next s else .next ((upFrom 0 12).foldl (fun s n => s.tempOne n (nth 0 vals n)) s)

/-- THERM_TRIP (R580): sensor `n` reaches 125 °C. The trip is latched, the record stands in the AON ring, and every domain but AON
and SEC is switched off; TAMPER_HOLD is not left. -/
def execThermTrip (n : Fin 12) (s : State) : Out :=
  if s.off || s.pwr.trip then .next s
  else
    let hold := s.dev = devTamper
    let s := (s.setF F.PWR_STATUS_TRIP_SENSOR n.val).writeRec { mkRec s.time.now 0x00 0x61 with opc := n.val }
    let s := { s with pwr := { s.pwr with trip := true } }.toStandby
    .next (if hold then s.toTamper else s)

/-! ### The margin loop (R573–R576, R579, R635) -/

/-- Table PW-5: off, sf and conversion of a margin step at voltage `v` (R576). -/
def State.stepEffect (s : State) (k : Fin 8) (v : Nat) (i : Island) : Island :=
  let n := s.getF (F.FLT_CORE_STEP k)
  let fd := s.getF F.FLT_MCFG_FDROP
  let fits (o : Nat) : Bool := decide (v + o ≤ s.getF (F.PWR_ISL_V_MAX k))
  let take (o good bad : Nat) : Island :=
    if fits o then { i with off := o, sf := good, conv := false } else { i with off := 0, sf := bad, conv := true }
  match n with
  | 0 => { i with off := 0, sf := 64, conv := false }
  | 1 => take (s.getF F.FLT_MCFG_V1) 64 (64 - fd)
  | 2 => take (s.getF F.FLT_MCFG2_V2) 64 (64 - fd)
  | 3 => take (s.getF F.FLT_MCFG2_V2) (64 - fd) (64 - 2 * fd)
  | _ => i

/-- Voltage limit of an island: V_MAX, bounded by VDD_AFT − 15 mV (R635). -/
def State.vLimit (s : State) (k : Fin 8) : Nat :=
  let m := s.getF (F.PWR_ISL_V_MAX k)
  -- before the first sample there is no V_in
  if s.getF (F.PWR_RAIL_VAL_MV 0) = 0 then m else min m (s.getF (F.PWR_RAIL_VAL_MV 0) - 15)

/-- f_cap and f_hot of an island; no cap while PWR_CAP is 0 (R577). -/
def State.fCap (s : State) (k : Fin 8) : Nat :=
  if s.getF F.PWR_CAP_CAP = 0 then s.getF (F.PWR_ISL_F_TARGET k) else (s.isl k).cap

/-- One step of the loop (R573): the island's v and f, and whether it wanted a higher voltage than the limit. -/
def loopStep (margin mn mx v f off vmax ft flim : Nat) : Nat × Nat × Bool :=
  let df := ft / 64
  if vmax < v + off then
    -- corner: V_MAX below the present V_SET. DEDUCED: both fall at each tick (log entry 121)
    (max 580 (v - 5), max 200 (f - df), true)
  else if margin < mn then
    if v + 5 + off ≤ vmax then (v + 5, f, false) else (v, max 200 (f - df), true)
  else if flim < f then (v, max flim (f - df), false)
  else if mx < margin then
    if f < flim then (v, min flim (f + df), false) else if 580 ≤ v - 5 then (v - 5, f, false) else (v, f, false)
  else (v, f, false)

/-- MARGIN_LOOP_TICK (R573): the loop of an awake core island, with its worst margin in ps. -/
def execMarginLoopTick (k : Fin 8) (margin : Nat) (s : State) : Out :=
  if s.off || decide (2 ≤ s.pstate k) then .next s
  else
    let i0 := s.isl k
    let i := if i0.newStep then { s.stepEffect k i0.v i0 with newStep := false } else i0
    let ft := s.getF (F.PWR_ISL_F_TARGET k)
    let cap := s.fCap k
    let flim := min (ft * i.sf / 64) (min cap i.hot)
    let vmax := s.vLimit k
    let mn := s.getF F.PWR_LOOP_MARGIN_MIN
    let (v, f, met) := loopStep margin mn (s.getF F.PWR_LOOP_MARGIN_MAX) i.v i.f i.off vmax ft flim
    let short := decide (margin < mn) && f == 200 && decide (vmax < v + i.off + 5)
    let since := if short then some (i.shortAt.getD s.time.now) else none
    let clipped := decide (f < ft) || met || i.conv
    let start := clipped && i.clipAt.isNone
    let clipAt := if clipped then some (i.clipAt.getD s.time.now) else none
    let i := { i with v := v, f := f, shortAt := since, stretched := i.stretched && decide (margin ≤ mn), clipAt := clipAt,
                      clipTold := i.clipTold && clipped }
    let s := s.setIsl k i
    let s := ((s.setF (F.PWR_ISL_ST_V_SET k) (v + i.off)).setF (F.PWR_ISL_ST_F_SET k) f).setF (F.PWR_ISL_ST_MARGIN k) (min margin 255)
    let why (b : Bool) (fld : Fld) (s : State) : State := if b then s.setF fld 1 else s
    let s := why met (F.PWR_ISL_CLIP_V_AT_MAX k) s
    let s := why (decide (cap < ft)) (F.PWR_ISL_CLIP_CAP k) s
    let s := why (decide (margin < mn) && met) (F.PWR_ISL_CLIP_MARGIN k) s
    let s := why i.conv (F.PWR_ISL_CLIP_STEP_CONV k) s
    let s := why (decide (i.hot < ft)) (F.PWR_ISL_CLIP_HOT k) s
    let s := if i0.newStep then
        s.log k 0 0 0x30 (s.getF (F.FLT_CORE_STEP k) + (if i.conv then 8 else 0) + (v + i.off) * 16 + f * 2 ^ 20) else s
    if !start then .next s
    else
      let r := (s.getReg (F.PWR_ISL_CLIP_V_AT_MAX k).off).toNat % 64
      let s := (s.setF F.PWR_STATUS_POLICY_CLIPPED 1).log k 0 0 0x31 r
      .next (s.report { mkRec s.time.aft (coreUnit k 0) 0x64 with opc := r })

/-- CLOCK_STRETCH (R575): a sensor's margin falls below MARGIN_HARD and the island's clock runs at half rate. -/
def execClockStretch (k : Fin 8) (s : State) : Out :=
  if s.off || decide (2 ≤ s.pstate k) || (s.isl k).stretched then .next s
  else .next ((s.setIsl k { s.isl k with stretched := true }).bump (F.PWR_ISL_STRETCH k) 1)

/-- MARGIN_SHORTFALL_LIMIT (R575): a shortfall that has remained at 200 MHz and the voltage limit for 100 µs. -/
def execMarginShortfallLimit (k : Fin 8) (s : State) : Out :=
  match (s.isl k).shortAt with
  | none => .next s
  | some t =>
    if t + 100000 ≤ s.time.now then .next ((s.setIsl k { s.isl k with shortAt := none }).quarantine k) else .next s

/-- f_cap and f_hot of one island at a tick of the power manager (R577, R578). -/
def State.capIsl (est : Nat) (k : Fin 8) (s : State) : State :=
  let i := s.isl k
  let ft := s.getF (F.PWR_ISL_F_TARGET k)
  let df := ft / 64
  let cap := s.getF F.PWR_CAP_CAP
  let c :=
    if cap = 0 then ft
    else if cap < est then (if s.pstate k = psRun then max 200 (min i.cap ft - df) else i.cap)
    else if est * 100 < cap * 95 then min ft (i.cap + df) else i.cap
  let t := signed 16 (s.getF (F.PWR_TEMP_VAL (4 + k.val)))
  let hot : Int := (s.getF (F.PWR_TEMP_TH_HOT (4 + k.val)) * 16 : Nat)
  let h := if hot ≤ t then max 200 (min i.hot ft - df) else if t < hot - 32 then min ft (i.hot + df) else i.hot
  s.setIsl k { i with cap := c, hot := h }

/-- POWER_CAP_TICK (R577, R578): every 100 µs, with the estimate of device power in 10 mW. -/
def execPowerCapTick (est : Nat) (s : State) : Out :=
  if s.off then .next s
  else
    let s := s.setF F.PWR_EST_EST (min est 65535)
    let s := s.forCores (State.capIsl est)
    let cap := s.getF F.PWR_CAP_CAP
    let run := allCores.filter (fun k => s.pstate k == psRun)
    let unmet := cap != 0 && decide (cap < est) && !run.isEmpty && run.all (fun k => (s.isl k).cap == 200)
    .next (s.setF F.PWR_STATUS_CAP_UNMET (if unmet then 1 else 0))

/-- CLIP_EPISODE_TIMER (R579): a clipped episode has lasted 1 ms. -/
def execClipEpisodeTimer (k : Fin 8) (s : State) : Out :=
  let i := s.isl k
  match i.clipAt with
  | none => .next s
  | some t =>
    if !i.clipTold && decide (t + 1000000 ≤ s.time.now) then
      .next ((s.setIsl k { i with clipTold := true }).raiseCause 24)
    else .next s

/-! ### Trace (R583, R584) -/

/-- TRACE_FUNNEL_PACKET (R583): the funnel takes the oldest packet of the next Logbook that holds one. -/
def execTraceFunnelPacket (s : State) : Out :=
  if s.off || !s.trcDrains then .next s
  else
    match (rotation s.trc.turn).find? (fun k => !(s.core k).log.isEmpty) with
    | none => .next s
    | some k =>
      match (s.core k).log with
      | [] => .next s
      | p :: l =>
        let s := s.setCore k { s.core k with log := l }
        .next ({ s with trc := { s.trc with turn := (k.val + 1) % 8 } }.trcTake p)

/-- TRACE_ROW_PAD (R583): a row left partly filled for 10 µs. -/
def execTraceRowPad (s : State) : Out :=
  if s.trcDrains && !s.trc.row.isEmpty && decide (s.trc.since + 10000 ≤ s.time.aft) then .next s.trcPad else .next s

/-- SYNC_TRIPLE (R584): after SYNC_PER × 64 packets of a core, and at its first packet after SINK_EN is set. -/
def execSyncTriple (k : Fin 8) (s : State) : Out :=
  let c := s.core k
  if !s.off && decide (s.pstate k < 2)
      && (decide (s.getF F.TRC_CTRL_SYNC_PER * 64 ≤ c.logSince) || (c.logFirst && decide (0 < c.logSince))) then
    .next (s.syncTriple k)
  else .next s

/-- A write of TRC_CTRL. -/
def State.trcCtrlWrite (s : State) (m : Master) (v : Word) : State :=
  let was := s.flag F.TRC_CTRL_SINK_EN
  s.regWrite false m F.TRC_CTRL_CLR.off v.toNat (fun s =>
    let s := if s.flag F.TRC_CTRL_SINK_EN && !was then
        s.forCores (fun k s => s.setCore k { s.core k with logFirst := true, logSince := 0 }) else s
    if bitsOf v.toNat 10 1 = 1 then
      (s.forCores (fun k s => s.setF (F.CORE_LOGDROP k) 0)).setF F.TRC_HEAD 0 |>.setF F.TRC_STATUS_FULL 0
    else s)

/-- TRC_CLR (R583). -/
def execTrcClr (m : Master) (v : Word) (s : State) : Out := .next (s.trcCtrlWrite m (v ||| 0x400#32))

end Sys2Proof.Machine
end

