-- ==== Sys2Proof/Machine/Commands.lean ====
section
/-! DEFINITION. The command rings (R540–R542) and the commands of Table HO-7 that no other family holds: packages (R600, R601,
R360), START and STOP (R544, R348), ROUTE (R546), store writes (R617), block ownership (R552). -/

namespace Sys2Proof.Machine

/-! ### Rings -/

/-- Entries of a submission ring. -/
def State.sqSize (s : State) (b : Fin 2) : Nat := 2 ^ s.getF (F.RING_CFG_SQ_SIZE b)

/-- A doorbell takes effect (R540): a value that passes SQ_HEAD by more than the ring size sets RING_ERR and is ignored. DESIGN
CHOICE: any other is taken modulo the ring size (log entry 130). -/
def State.ringBell (s : State) (b : Fin 2) (v : Nat) : State :=
  if s.getF (F.SQ_HEAD b) + s.sqSize b < v then s.setF (F.RING_CTRL_RING_ERR b) 1 else s.setF (F.SQ_TAIL b) (v % s.sqSize b)

/-- Every Bulk write of a master is visible (R539): its channel has drained, no row buffer gathers for it, and no row of it is held
at a core. -/
def State.bulkSeen (s : State) (c : Fin 2) : Bool :=
  let x := vget s.host.bulk c
  x.buf.isEmpty && x.wait.isEmpty && !s.host.rows.any (fun r => r.src == c.val)
    && !allCores.any (fun k => (s.core k).held.any (fun h => h.write && h.who == 9 + c.val))

/-- A doorbell that waited takes effect once every Bulk write before it is visible (R539). -/
def State.bellDue (s : State) (c : Fin 2) : State :=
  let r := s.ring c
  match r.bell with
  | none => s
  | some v => if s.bulkSeen c then (s.setRing c { r with bell := none }).ringBell c v else s

/-- A write of SQ_TAIL: the doorbell waits for the Bulk writes that the same master made before it (R539). -/
def State.sqTailWrite (s : State) (b : Fin 2) (m : Master) (v : Word) : State :=
  let old := s.getF (F.SQ_TAIL b)
  s.regWrite false m (F.SQ_TAIL b).off v.toNat (fun s =>
    let new := s.getF (F.SQ_TAIL b)
    let s := s.setF (F.SQ_TAIL b) old
    if s.bulkSeen b then s.ringBell b new else s.setRing b { s.ring b with bell := some new })

/-- SQ_DOORBELL (R539, R540). -/
def execSqDoorbell (b : Fin 2) (m : Master) (v : Word) (s : State) : Out := .next (s.sqTailWrite b m v)

/-- Address of the entry at SQ_HEAD. -/
def State.sqAt (s : State) (b : Fin 2) : Nat :=
  s.pair (F.SQ_BASE_LO b).off (F.SQ_BASE_HI b).off + s.getF (F.SQ_HEAD b) * 64

/-- The firmware may fetch from a ring: enabled, not stopping, its path up, fewer than 16 in flight, no completion held, and the
entry can be read (R540, R542, R555, R192). -/
def State.mayFetch (s : State) (b : Fin 2) : Bool :=
  let r := s.ring b
  s.served && s.flag (F.RING_CTRL_ENABLE b) && !s.pwr.powerdown && r.held.isEmpty && !s.cqFull b
    && decide (r.inflight.length < 16) && s.getF (F.SQ_HEAD b) != s.getF (F.SQ_TAIL b) && !s.fwHeld (s.sqAt b) 64
    && (b == 1 || (s.flag F.HOST_STATUS_LINK_UP && !s.host.lost))

/-- Highest OPC of Table HO-7. -/
def lastOpc : Nat := 0x0E

/-- What the fetch of an entry finds wrong (Table HO-5, Table HO-8): poison, a reserved opcode, a reserved byte that is not zero, a
WINDOW operation that is none. -/
def entryBad (l : List (Byte × Bool)) : Option Nat :=
  let e := l.map (·.1)
  if l.any (·.2) then some cmdSrcPoison
  else if lastOpc < fieldAt e 0 1 then some cmdBadOpc
  else if 2 ≤ fieldAt e 1 1 ∨ !zeroAt e 4 7 ∨ (fieldAt e 0 1 = 0x08 ∧ 3 < fieldAt e 8 1) then some cmdBadField
  else none

/-- COMMAND_FETCH (R540, R541): the entry at SQ_HEAD is read; one that is wrong is refused in its turn. A doorbell that waited takes
effect first (R539). -/
def execCommandFetch (b : Fin 2) (s : State) : Out :=
  let s := s.bellDue b
  if !s.mayFetch b then .next s
  else
    let (l, s) := s.fwGet (s.sqAt b) 64
    let s := s.setF (F.SQ_HEAD b) ((s.getF (F.SQ_HEAD b) + 1) % s.sqSize b)
    let e := l.map (·.1)
    let c : InFlight := { tag := fieldAt e 2 2, opc := fieldAt e 0 1, irq := fieldAt e 1 1 % 2 == 1, pars := e.drop 8,
                          begun := false, bad := entryBad l }
    let r := s.ring b
    .next (State.refuseNext b 16 (s.setRing b { r with inflight := r.inflight ++ [c] }))

/-- Posts the completions that a ring holds while it has space (R542). -/
def State.postHeld (b : Fin 2) : Nat → State → State
  | 0, s => s
  | n + 1, s =>
    let r := s.ring b
    match r.held with
    | [] => s
    | c :: l => if s.cqFull b || (b == 0 && s.host.lost) then s else State.postHeld b n ((s.setRing b { r with held := l }).cqWrite b c)

/-- A write of CQ_HEAD. -/
def State.cqHeadWrite (s : State) (b : Fin 2) (m : Master) (v : Word) : State :=
  s.regWrite false m (F.CQ_HEAD b).off v.toNat (fun s => State.postHeld b 64 s)

/-- CQ_HEAD_WRITE (R542). -/
def execCqHeadWrite (b : Fin 2) (m : Master) (v : Word) (s : State) : Out := .next (s.cqHeadWrite b m v)

/-- A write of HOST_IMASK: vectors unmasked while their cause is set send their message (R547). -/
def State.imaskWrite (s : State) (m : Master) (v : Word) : State :=
  let old := s.getF F.HOST_IMASK
  s.regWrite false m F.HOST_IMASK.off v.toNat (fun s =>
    let new := s.getF F.HOST_IMASK
    let cause := s.getF F.HOST_ICAUSE
    ((upFrom 0 32).filter (fun n => s.flag F.HOST_STATUS_LINK_UP && bitsOf old n 1 == 1 && bitsOf new n 1 == 0 && bitsOf cause n 1 == 1)).foldl
      (fun s n => s.emit (.msix n)) s)

/-- HOST_IMASK_WRITE (R547). -/
def execHostImaskWrite (m : Master) (v : Word) (s : State) : Out := .next (s.imaskWrite m v)

/-- NOP (Table HO-7). -/
def execNop (b : Fin 2) (s : State) : Out :=
  match s.nextCmd b 0x00 with
  | none => .next s
  | some e => .next (s.finish b e (if e.unusedZero [] then 0 else cmdBadField) [])

/-! ### Model packages (R600, R601) -/

/-- The content key of a package for this device (R600 steps 4 and 5): a code of Table BS-7, or the key. -/
def State.contentKey (s : State) (l : List Byte) : Nat ⊕ List Byte :=
  let dev := s.pair F.SEC_DEVID_LO.off F.SEC_DEVID_HI.off
  let o := pkgRcpt l
  match (recsAt l (o + 96) 48 (pkgRcptN l)).find? (fun e => fieldAt e 0 8 == dev) with
  | none => .inl 0x64
  | some e =>
    let z := Config.ecdh ((l.drop o).take 96)
    let kek := (Config.hkdf z ((l.drop 8).take 12) [0x4E#8, 0x38#8, 0x50#8, 0x4B#8, 0x47#8] 32).take 32
    match Config.keyUnwrap kek ((e.drop 8).take 40) with
    | none => .inl 0x65
    | some k => .inr k

/-- Cores that are powered and can be reached: those a package is written into. -/
def State.poweredCores (s : State) : List (Fin 8) := if s.brgUp then allCores.filter (fun k => decide (s.pstate k ≤ 1)) else []

/-- The rows of a package lie within the scratchpad and are free (R600 step 6). -/
def State.rowsFree (s : State) (first n : Nat) : Bool :=
  decide (first + n ≤ 131072) && s.poweredCores.all (fun k =>
    s.pkgs.all (fun p => !p.cores.contains k.val || !overlaps first n p.first p.rows)
      && s.jobs.all (fun j => (j.on k.val).rows.all (fun g => !overlaps first n g.first (g.last + 1 - g.first))))

/-- Zeroes the rows that a load has written (R601, Table BS-10). -/
def State.zeroRows (s : State) (ks : List (Fin 8)) (first n : Nat) : State :=
  ks.foldl (fun s k => s.fwRows k first n (List.replicate (512 * n) 0)) s

/-- The ledger at the load of a package (R360). -/
def State.applyLedger (s : State) (p : Pkg) : State :=
  match s.ledger p.id with
  | none => s
  | some o =>
    let rows := o.bytes.drop 512
    if fieldAt o.bytes 8 8 == p.version && fieldAt o.bytes 16 16 == p.digest % 2 ^ 128 && fieldAt o.bytes 64 8 == crc64 rows then
      s.putAdapter p (rows.drop (512 * p.shadow))
    else s.report (mkRec s.time.now 0x02 0x36)

/-- The checks and actions of a package load (R600, R601): the code of Table BS-7 and the state. `cut` is the number of rows that
have been written when a tamper event aborts it (Table BS-10). -/
def State.loadPkg (s : State) (l : List Byte) (cut : Option Nat) : Nat × State :=
  if s.flag F.SEC_STATUS_DEBUG then (0x6B, s)
  else if !pkgForm l then (0x60, s)
  else if s.pkgs.any (fun p => p.id == pkgId l) then (0x6A, s)
  else
    match s.checkSig l (pkgSig l) l.length (some 1) 0 with
    | .bad => (0x61, s)
    | .revoked => (0x62, s)
    | .good =>
      if pkgSvn l < s.arb 1 then (0x63, s)
      else
        match s.contentKey l with
        | .inl c => (c, s)
        | .inr key =>
          let first := pkgFirst l
          let n := pkgRows l
          if !s.rowsFree first n then (0x66, s)
          else
            let ks := s.poweredCores
            let body := (l.drop (pkgPay l)).take (512 * n)
            let iv := (l.drop 44).take 12
            let plain := (Config.gcmPlain key iv (l.take 128) body ++ List.replicate (512 * n) 0).take (512 * n)
            let s := ks.foldl (fun s k => s.beginWeights k.val first n) s
            match cut with
            | some m => (0x69, s.zeroRows ks first (min m n))
            | none =>
              let s := ks.foldl (fun s k => s.fwRows k first n plain) s
              if Config.gcmTag key iv (l.take 128) body != (l.drop (pkgPay l + 512 * n)).take 16 then (0x67, s.zeroRows ks first n)
              else if Config.sha384 plain != fieldAt l 56 48 then (0x68, s.zeroRows ks first n)
              else
                let s := s.acceptSvn 1 (pkgSvn l) (pkgCommit l)
                let p : Pkg :=
                  { id := pkgId l, version := pkgVersion l, digest := fieldAt l 56 48, svn := pkgSvn l, first := first, rows := n,
                    cores := ks.map (·.val), adapt := pkgAdapt l, export_ := pkgExport l, shadow := pkgShadow l, judged := false,
                    owed := [] }
                let s := ({ s with pkgs := s.pkgs ++ [p] }).applyLedger p
                (0, (s.addDigests (s.pkgDigests p)).settlePkg p.id)

/-- LOADPKG (R600). -/
def execLoadpkg (b : Fin 2) (cut : Option Nat) (s : State) : Out :=
  match s.nextCmd b 0x01 with
  | none => .next s
  | some e =>
    if !e.unusedZero [(8, 19)] then .next (s.finish b e cmdBadField [])
    -- R192: the read waits for rows that are held
    else if s.fwHeld (e.par 8 8) (e.par 16 4) then .next s
    else
      let (l, s) := s.source (e.par 8 8) (e.par 16 4)
      match l with
      | none => .next (s.finish b e cmdSrcPoison [])
      | some l =>
        let (code, s) := s.loadPkg l cut
        .next (s.finish b e code (if code = 0 then leBytes 4 (pkgId l) ++ leBytes 8 (pkgVersion l) else []))

/-- UNLOADPKG (Table HO-7, PKG_IN_USE). -/
def execUnloadpkg (b : Fin 2) (s : State) : Out :=
  match s.nextCmd b 0x02 with
  | none => .next s
  | some e =>
    let id := e.par 8 4
    if !e.unusedZero [(8, 11)] || s.pkgs.all (fun p => p.id != id) then .next (s.finish b e cmdBadField [])
    else if s.jobs.any (fun j => j.models.any (fun m => m.pkg == id)) then .next (s.finish b e pkgInUse [])
    else
      let s := { s with pkgs := s.pkgs.filter (fun p => p.id != id),
                        dig := { s.dig with todo := s.dig.todo.filter (fun r => r.pkg != id),
                                            vals := s.dig.vals.filter (fun v => v.req.pkg != id),
                                            repairs := s.dig.repairs.filter (fun r => r.pkg != id) } }
      .next (s.finish b e 0 [])

/-! ### START and STOP (R544) -/

/-- The starting shadow of a session on a core (R348): the ledger record's, or the package's own. -/
def State.startShadow (s : State) (p : Pkg) (k : Fin 8) : List Byte :=
  match s.ledger p.id with
  | some o => (o.bytes.drop 512).take (512 * p.shadow)
  | none =>
    let usable (i : Fin 8) : Bool := p.cores.contains i.val && decide (s.pstate i ≤ 1) && !s.spHeld i
    let src := if usable k then k else (allCores.find? usable).getD k
    s.rowRun src (p.first + p.rows - p.shadow) p.shadow

/-- The start of a session (R348): AD_NO_ROOM, or the starting shadow is written on every core. A core that sleeps is woken
first. -/
def State.startSession (s : State) (j : Job) : Nat × State :=
  match s.sessionPkg j with
  | none => (0, s)
  | some p =>
    let room (k : Fin 8) : Nat := ((j.stateRow k.val).map (fun g => g.last + 1 - g.first)).getD 0
    if j.cores.any (fun k => decide (room k < p.shadow + p.export_)) then (0x25, s)
    else
      let s := j.cores.foldl (fun s k => if 2 ≤ s.pstate k then s.wakeCore k 4 else s) s
      (0, j.cores.foldl (fun s k =>
        s.fwRows k (((j.stateRow k.val).map (·.first)).getD 0) p.shadow (s.startShadow p k)) s)

/-- START (R544, R560): a job that is LOADED, or DEAD and started again (R465). DEDUCED: Table HO-8 names LOADED alone (log entry
137). -/
def execStart (b : Fin 2) (s : State) : Out :=
  match s.nextCmd b 0x05 with
  | none => .next s
  | some e =>
    if !e.unusedZero [(8, 9)] then .next (s.finish b e cmdBadField [])
    else
      match s.job (e.par 8 2) with
      | none => .next (s.finish b e cmdNoJob [])
      | some j =>
        if !(j.state == .loaded || j.state == .dead) || j.startPend.isSome then .next (s.finish b e cmdJobState [])
        else
          let (code, s) := if j.session then s.startSession j else (0, s)
          let s := if j.session then s.setF F.AD_STATUS_LAST_CODE code else s
          if code ≠ 0 then .next (s.finish b e code [])
          else
            let s := j.cores.foldl (fun s k => s.askWake k 4) s
            let s := s.modJob j.id (fun j => { j with startPend := some (b.val, e.tag) })
            let s := s.finish b e 0 []
            .next (if j.inline then s else (s.activate j.id).memNext j.id)

/-- STOP (R544, R554). One that cancels a pending START also wins over a START that follows it before the next frame start. -/
def execStop (b : Fin 2) (s : State) : Out :=
  match s.nextCmd b 0x06 with
  | none => .next s
  | some e =>
    if !e.unusedZero [(8, 9)] then .next (s.finish b e cmdBadField [])
    else
      match s.job (e.par 8 2) with
      | none => .next (s.finish b e cmdNoJob [])
      | some j =>
        if j.startPend.isSome then
          .next ((s.modJob j.id (fun j => { j with startPend := none, state := .loaded, stopped := true })).finish b e 0 (leBytes 1 0))
        else if j.state != .running then .next (s.finish b e cmdJobState [])
        else .next ((s.accept b).askStop j.id)

/-! ### ROUTE (R546) -/

/-- What a write of OF_Sn_CFG does at once: a stop is remembered until the next REF (R554). -/
def State.ofCfgAct (n : Fin 6) (v : Nat) (s : State) : State :=
  if v % 2 = 0 then s.setStream n { s.stream n with stop := true } else s

/-- ROUTE: the nine values are written to the stream's shadow as one unit. -/
def execRoute (b : Fin 2) (s : State) : Out :=
  match s.nextCmd b 0x07 with
  | none => .next s
  | some e =>
    let n := e.par 8 1
    if !e.unusedZero [(8, 8), (12, 47)] || decide (5 < n) then .next (s.finish b e cmdBadField [])
    else if (s.feeder n).isNone then .next (s.finish b e cmdNotClaimed [])
    else
      let s := (upFrom 0 9).foldl (fun s i => s.regWrite true .lcp (nth 0 (ofRegs n) i) (e.par (12 + 4 * i) 4) id) s
      .next ((State.ofCfgAct ⟨n % 6, Nat.mod_lt _ (by decide)⟩ (e.par 12 4) s).finish b e 0 [])

/-! ### STOREWR (R617) -/

/-- STOREWR: accepted in its turn; it completes when its write ends. -/
def execStorewr (c : StoreCmd) (s : State) : Out :=
  match s.nextCmd c.ring 0x0D with
  | none => .next s
  | some e =>
    let t := e.par 8 1
    let len := e.par 24 4
    if !e.unusedZero [(8, 8), (10, 11), (16, 27)] || ((t != 3 || len == 0) && e.par 10 2 != 0) then .next (s.finish c.ring e cmdBadField [])
    else
      let r : StoReq := { bank := c.ring.val, tag := e.tag, target := t, job := e.par 10 2, src := e.par 16 8, len := len,
                           errs := c.errs }
      let s := s.accept c.ring
      .next { s with sto := { s.sto with queue := s.sto.queue ++ [r] } }.stoRun

/-! ### CLAIM (R552) -/

/-- Blocks of a CLAIM mask, numbered as in GLB_OWN0–2. -/
def claimBlocks (mask : Nat) : List Nat := (upFrom 0 24).filter (fun i => bitsOf mask i 1 == 1)

/-- Blocks that an owner holds, as a mask. -/
def State.ownedMask (s : State) (o : Nat) : Nat := (upFrom 0 24).foldl (fun a i => if s.owner i = o then a + 2 ^ i else a) 0

/-- The mask of a CLAIM names blocks that exist, and its other bytes are zero. -/
def claimGood (e : InFlight) : Bool :=
  e.unusedZero [(8, 12)] && decide (e.par 12 1 ≤ 1) && bitsOf (e.par 8 4) 15 1 == 0 && bitsOf (e.par 8 4) 24 8 == 0

/-- CLAIM (R552). -/
def execClaim (b : Fin 2) (s : State) : Out :=
  match s.nextCmd b 0x0E with
  | none => .next s
  | some e =>
    if e.par 12 1 % 2 = 1 then .next s
    else if !claimGood e then .next (s.finish b e cmdBadField [])
    else
      let me := b.val + 2
      let l := claimBlocks (e.par 8 4)
      let free (i : Nat) : Bool := [0, me].contains (s.owner i) || (s.owner i == 2 && !s.flag F.HOST_STATUS_LINK_UP)
      if !l.all free then .next (s.finish b e cmdNotOwner [])
      else
        let s := l.foldl (fun s i => s.setOwner i me) s
        .next (s.finish b e 0 (leBytes 4 (s.ownedMask me)))

/-- CLAIM_RELEASE (R552). -/
def execClaimRelease (b : Fin 2) (s : State) : Out :=
  match s.nextCmd b 0x0E with
  | none => .next s
  | some e =>
    if e.par 12 1 % 2 = 0 then .next s
    else if !claimGood e then .next (s.finish b e cmdBadField [])
    else
      let me := b.val + 2
      let l := claimBlocks (e.par 8 4)
      let s := l.foldl (fun s i => if s.owner i = me then s.setOwner i 0 else s) s
      .next (s.finish b e 0 (leBytes 4 (s.ownedMask me)))

end Sys2Proof.Machine
end

