-- ==== Sys2Proof/Machine/SecOps.lean ====
section
/-! DEFINITION. The security block: resets from SEC_RESET (R587, R594), the watchdog (R589), the fuse programmer (R602), tamper
events (R606–R610), unlock and debug tokens (R611–R613), and the staging of an image in ROM mode (R595). -/

namespace Sys2Proof.Machine

/-! ### SEC_RESET and the watchdog -/

/-- A write of SEC_RESET: COLD goes before WARM. `strap` is what BOOT[2:0] reads when a cold reset samples it. -/
def State.secResetWrite (s : State) (m : Master) (strap : Nat) (v : Word) : State :=
  s.regWrite false m F.SEC_RESET_WARM.off v.toNat (fun s =>
    if bitsOf v.toNat 1 1 = 1 then s.coldReset strap else if v.toNat % 2 = 1 then s.warmReset else s)

/-- SEC_RESET_WARM (R594). -/
def execSecResetWarm (m : Master) (v : Word) (s : State) : Out :=
  .next (s.secResetWrite m 0 (putBits (v ||| 1#32) 1 1 0))

/-- SEC_RESET_COLD (R587). -/
def execSecResetCold (m : Master) (v : Word) (strap : Nat) (s : State) : Out :=
  .next (s.secResetWrite m strap (v ||| 2#32))

/-- A write of SEC_WDOG; KICK restarts the watchdog (R589). -/
def State.wdogWrite (s : State) (m : Master) (v : Word) : State :=
  s.regWrite false m F.SEC_WDOG_TIMEOUT.off v.toNat (fun s =>
    if bitsOf v.toNat 16 1 = 1 then { s with sec := { s.sec with wdogAt := s.time.now } } else s)

/-- WATCHDOG_KICK (R589). -/
def execWatchdogKick (m : Master) (v : Word) (s : State) : Out := .next (s.wdogWrite m (v ||| 0x10000#32))

/-- The watchdog runs: armed, not disabled, in BOOT, READY or RUN (R589). -/
def State.wdogRuns (s : State) : Bool :=
  !s.off && s.sec.wdogOn && s.getF F.SEC_WDOG_TIMEOUT != 0 && [devBoot, devReady, devRun].contains s.dev

/-- WATCHDOG_EXPIRY (R589): TIMEOUT ms without a kick make a warm reset, and SEC_BOOT.WDOG is set. -/
def execWatchdogExpiry (s : State) : Out :=
  if s.wdogRuns && decide (s.sec.wdogAt + s.getF F.SEC_WDOG_TIMEOUT * 1000000 ≤ s.time.now) then
    .next (s.warmReset.setF F.SEC_BOOT_WDOG 1)
  else .next s

/-! ### Fuses (R602) -/

/-- Words of a fuse field, and the bits of a word that exist (Table BS-8, rows in table order). -/
def fuseWords (f : Nat) : Nat := nth 0 [48, 1, 1, 4, 1, 1, 1, 1, 1, 128, 1, 1, 1] f
def fuseMask (f : Nat) : Nat :=
  nth 0 [0xFFFFFFFF, 0xFFFFFF, 0xF, 0xFFFFFFFF, 0x7FFFFFFF, 3, 3, 3, 0xF, 0xFFFFFFFF, 0xFFFF, 0xFFFF, 0xFFFF] f

/-- Width of the parts of a word that are programmed once each: a KEYUSE of 6 bits, JTAG_DIS and BSCAN_EN of one bit, else the
word. -/
def fusePart (f : Nat) : Nat := if f = 1 then 6 else if f = 7 then 1 else 32

/-- Programs bits of a fuse word: a part that is set refuses, but in REVOKE, ARB0, ARB1 and LATCH, where a bit may be added. -/
def State.fuseProgram (s : State) (f w v : Nat) : State :=
  if fuseWords f ≤ w then s
  else
    let old := s.fuse f w
    let v := v &&& fuseMask f
    let p := fusePart f
    let clash := (upFrom 0 (32 / p)).any (fun i => bitsOf old (p * i) p != 0 && bitsOf v (p * i) p != 0)
    if clash && !([2, 3, 4] : List Nat).contains f then s.setF F.SEC_BOOT_FUSE_REFUSED 1
    else (s.addFuse f w v).showFuses

/-- The firmware applies the board section: boot step 4, where entries for the SEC block are written (R596). -/
def State.boardWrites (s : State) (m : Master) : Bool := m == .lcp && s.dev == devBoot && s.getF F.SEC_BOOT_STEP == 4

/-- A write of SEC_FUSEPROG; only a board-section entry programs fuses (R602). -/
def State.fuseWrite (s : State) (m : Master) (v : Word) : State :=
  let go := s.boardWrites m
  s.regWrite false m F.SEC_FUSEPROG_FIELD.off v.toNat (fun s =>
    if go then s.fuseProgram (bitsOf v.toNat 0 4) (bitsOf v.toNat 8 8) s.sec.fuseData.toNat else s)

/-- FUSE_PROGRAM (R602). -/
def execFuseProgram (m : Master) (v : Word) (s : State) : Out := .next (s.fuseWrite m v)

/-! ### Tamper (R606–R610) -/

/-- Sources that are armed (R606): 2, 3 and 6 always; an input only when its TPIN_EN fuse claims the ball. -/
def State.tamperArmed (s : State) (src : Nat) : Nat :=
  src &&& s.getF F.SEC_TAMPER_CFG_EN &&& (0x7C + s.fuse 6 0 % 4)

/-- TAMPER_HOLD with code TAMPER. -/
def State.tamperBoot (s : State) : State := s.toTamper.setF F.SEC_BOOT_CODE 0x0C

/-- A tamper event of armed sources: latched, recorded, and answered by Table BS-10. -/
def State.tamper (s : State) (src : Nat) : State :=
  let s := (s.setF F.SEC_TAMPER_STAT_SRC src).bump F.SEC_TAMPER_STAT_EVENTS 1
  let s := (s.setF F.SEC_TAMPER_T_LO (s.time.now % 2 ^ 32)).setF F.SEC_TAMPER_T_HI (s.time.now / 2 ^ 32)
  let s := s.writeRec { mkRec s.time.now 0x01 0x60 with opc := src }
  if s.dev = devTamper then s
  else if s.dev = devBoot then (s.latchBlow false).tamperBoot
  else if s.dev = devStandby ∨ s.dev = devSleep then s.latchBlow false
  else
    let level := s.getF F.SEC_TAMPER_CFG_LEVEL
    if level ≤ 1 then s
    else
      let s := ((s.killAll 0x60).latchBlow false)
      if level = 2 then s.toTamper else s.powerLost.toTamper

/-- TAMPER_EVENT (R607): the sources that fire, by the bits of Table BS-9. -/
def execTamperEvent (src : BitVec 7) (s : State) : Out :=
  let a := s.tamperArmed src.toNat
  if s.off || a == 0 then .next s else .next (s.tamper a)

/-! ### Tokens (R611–R613) -/

/-- The token buffer as bytes. -/
def State.tokenBytes (s : State) : List Byte :=
  (upFrom 0 128).flatMap (fun i => leBytes 4 (mget (dflt 0) s.sec.token i).toNat)

/-- SEC_NONCE as a number. -/
def State.nonce (s : State) : Nat := (upFrom 0 4).foldl (fun a i => a + s.getF (F.SEC_NONCE i) * 2 ^ (32 * i)) 0

/-- A token passes R612 for a use: 4 unlock, 5 debug. -/
def State.tokenGood (s : State) (l : List Byte) (use : Nat) : Bool :=
  fieldAt l 8 8 == s.pair F.SEC_DEVID_LO.off F.SEC_DEVID_HI.off && fieldAt l 16 16 == s.nonce
    && (use != 4 || (s.latched && fieldAt l 6 1 == s.latchCount)) && s.checkSig l 32 288 (some use) 0 == .good

/-- A debug token fails: the eighth in a row is a tamper event of source 5 (Table BS-9). -/
def State.debugFail (s : State) : State :=
  let n := s.sec.debugFails + 1
  let s := { s with sec := { s.sec with debugFails := if 8 ≤ n then 0 else n } }
  if 8 ≤ n ∧ s.tamperArmed 0x20 ≠ 0 then s.tamper 0x20 else s

/-- Boot step 3 begins: with BOOT = 001 or 010 the ROM enters ROM mode (R595). -/
def State.startRom (s : State) : State :=
  let s := s.setF F.SEC_BOOT_STEP 3
  { s with sec := { s.sec with romMode := s.sec.strap == 1 || s.sec.strap == 2, stage := [], image := [] } }

/-- An unlock token is accepted in unlock mode: the next LATCH bit is blown, and boot continues at step 3 (R611). -/
def State.unlock (s : State) : State :=
  let s := (s.latchBlow true).setF F.SEC_STATUS_UNLOCK_MODE 0
  ((s.setF F.PWR_DEV_STATE devBoot).setF F.SEC_BOOT_CODE 0).startRom

/-- SEC verifies the token buffer. -/
def State.tokenVerify (s : State) : State :=
  let l := s.tokenBytes.take 288
  let magic := fieldAt l 0 4
  let s := s.setF F.SEC_TOKEN_CTRL_OK 0
  let fail (s : State) : State := s.setF F.SEC_TOKEN_CTRL_FAIL 1
  if magic = 0x5455384E then
    if s.flag F.SEC_STATUS_UNLOCK_MODE && s.tokenGood l 4 then (s.setF F.SEC_TOKEN_CTRL_OK 1).unlock else fail s
  else if magic = 0x5444384E then
    if s.tokenGood l 5 then
      let s := { s with sec := { s.sec with debugFails := 0 } }
      (s.setF F.SEC_TOKEN_CTRL_OK 1).setF F.SEC_STATUS_DEBUG 1
    else (fail s).debugFail
  else fail s

/-- A write of SEC_TOKEN_CTRL. -/
def State.tokenWrite (s : State) (m : Master) (v : Word) : State :=
  s.regWrite false m F.SEC_TOKEN_CTRL_GO.off v.toNat (fun s => if v.toNat % 2 = 1 then s.tokenVerify else s)

/-- TOKEN_VERIFY (R612). -/
def execTokenVerify (m : Master) (v : Word) (s : State) : Out := .next (s.tokenWrite m (v ||| 1#32))

/-- A write of a word of the token buffer: it reads as zero and is held (Table BS-14). -/
def State.tokenPut (s : State) (m : Master) (i : Nat) (v : Word) : State :=
  s.regWrite false m (F.SEC_TOKEN i).off v.toNat (fun s =>
    { s with sec := { s.sec with token := mset (dflt 0) s.sec.token i v } })

/-- A write of SEC_FUSEDATA. -/
def State.fuseDataWrite (s : State) (m : Master) (v : Word) : State :=
  s.regWrite false m F.SEC_FUSEDATA.off v.toNat (fun s => { s with sec := { s.sec with fuseData := v } })

/-! ### ROM mode (R595) -/

/-- Bytes of the ROM staging area. -/
def stageSize : Nat := 524288

/-- Boot path of ROM mode: PCIe, or the host serial port for BOOT = 010. -/
def State.romPath (s : State) : Nat := if s.sec.strap = 2 then 1 else 0

/-- The ROM verifies the staged image: one that passes is the boot image; a failure writes its code, and the ROM waits for
another image. -/
def State.stageVerify (s : State) (len : Nat) : State :=
  let l := s.sec.stage.take len
  let c := s.bootCheck l
  let s := s.setF F.SEC_BOOT_CODE c
  if c = 0 then { s with sec := { s.sec with romMode := false, stage := [], image := l } }
  else { s with sec := { s.sec with stage := [] } }

/-- A write of SEC_STAGE_LEN. -/
def State.stageWrite (s : State) (m : Master) (v : Word) : State :=
  s.regWrite false m F.SEC_STAGE_LEN_LEN.off v.toNat (fun s =>
    if s.sec.romMode then s.stageVerify (bitsOf v.toNat 0 19) else s)

/-- STAGE_VERIFY (R595). -/
def execStageVerify (m : Master) (v : Word) (s : State) : Out := .next (s.stageWrite m v)

end Sys2Proof.Machine
end

