-- ==== Sys2Proof/Machine/HostOps.lean ====
section
/-! DEFINITION. What the host paths share: row buffers (R530), reads of device space (R529, R530, R533), the registers of a Bulk
channel (R535–R537), and the restart of the HOST rings (R556). -/

namespace Sys2Proof.Machine

/-- The master of a host path: 0 the HOST, 1 the HSP. -/
def pathMaster (c : Fin 2) : Master := if c = 0 then .host else .hsp

/-- Runs within 512-byte rows of a range of device addresses. -/
def rowRuns : Nat → Nat → Nat → List (Nat × Nat)
  | 0, _, _ => []
  | fuel + 1, a, n =>
    if n = 0 then []
    else
      let m := min n (512 - a % 512)
      (a, m) :: rowRuns fuel (a + m) (n - m)

/-- Bytes of a range with their places, in runs of one row. -/
def rowPuts (a : Nat) (bs : List Byte) : List RowPut :=
  (rowRuns bs.length a bs.length).map (fun r => (⟨r.1, (bs.drop (r.1 - a)).take r.2⟩ : RowPut))

/-- The device address is gathered in row buffers: a scratchpad, here or behind a window. -/
def State.gathers (s : State) (a : Nat) : Bool :=
  match s.region a with
  | .sp _ _ _ => true
  | .win _ _ _ _ => true
  | _ => false

/-! ### Bulk channels -/

/-- A Bulk channel. -/
def State.bulk (s : State) (c : Fin 2) : BulkSt := vget s.host.bulk c

/-- State with a Bulk channel replaced; DRAINING shows its buffer. -/
def State.setBulk (s : State) (c : Fin 2) (x : BulkSt) : State :=
  let s := { s with host := { s.host with bulk := vset s.host.bulk c x } }
  s.setF (F.BULK_STATUS_DRAINING c) (if x.buf.isEmpty then 0 else 1)

/-- An access of source `src` (a Bulk channel, or 2 for BAR4) fails (R538). -/
def State.bulkErr (s : State) (src : Nat) : State := if src < 2 then s.setF (F.BULK_STATUS_ERR src) 1 else s

/-! ### Row buffers -/

/-- Puts bytes at places of a row, the new ones over the old. -/
def mergePlaces (old : List (Nat × Byte)) (new : List (Nat × Byte)) : List (Nat × Byte) :=
  old.filter (fun e => !new.any (fun n => n.1 == e.1)) ++ new

/-- The bytes of a whole row buffer, in order. -/
def RowBuf.row (b : RowBuf) : List (Byte × Bool) :=
  (upFrom 0 512).map (fun i => (((b.bytes.find? (fun e => e.1 == i)).map (·.2)).getD 0, false))

/-- Writes a whole row for a host path. -/
def State.rowOut (s : State) (b : RowBuf) : State :=
  let (cause, s) := s.devWrite (.host (if b.src = 1 then 2 else 1)) b.addr b.row false
  if cause ≠ 0 then s.bulkErr b.src else s

/-- Gathers bytes of one row; none when all 8 buffers hold other rows. -/
def State.rowPut (s : State) (src : Nat) (p : RowPut) : Option State :=
  let row := p.addr / 512 * 512
  let new := (upFrom (p.addr % 512) p.bytes.length).zip p.bytes
  match s.host.rows.find? (fun b => b.addr == row) with
  | some b =>
    let b := { b with bytes := mergePlaces b.bytes new, src := if src < 2 then src else b.src }
    if 512 ≤ b.bytes.length then
      some ({ s with host := { s.host with rows := s.host.rows.filter (fun q => q.addr != row) } }.rowOut b)
    else some { s with host := { s.host with rows := s.host.rows.map (fun q => if q.addr = row then b else q) } }
  | none =>
    let b : RowBuf := { addr := row, bytes := mergePlaces [] new, since := s.time.now, src := src }
    if 512 ≤ b.bytes.length then some (s.rowOut b)
    else if 8 ≤ s.host.rows.length then none
    else some { s with host := { s.host with rows := s.host.rows ++ [b] } }

/-- Gathers the runs of a write in order, as far as buffers are free: the runs that must wait, and the state. -/
def State.rowPutAll (src : Nat) : List RowPut → State → List RowPut × State
  | [], s => ([], s)
  | p :: l, s =>
    match s.rowPut src p with
    | none => (p :: l, s)
    | some s' => State.rowPutAll src l s'

/-- Writes through BAR4 that waited for a buffer go on (R530). -/
def State.rowRetry (s : State) : State :=
  let l := s.host.rowWait
  let (rest, s) := State.rowPutAll 2 l { s with host := { s.host with rowWait := [] } }
  { s with host := { s.host with rowWait := rest ++ s.host.rowWait } }

/-- Discards row buffers, each with a ROW_ALIGN record (R530, R31). -/
def State.rowDiscard (s : State) (p : RowBuf → Bool) : State :=
  let l := s.host.rows.filter p
  let s := { s with host := { s.host with rows := s.host.rows.filter (fun b => !p b) } }
  let s := l.foldl (fun s b =>
    (s.report { mkRec s.time.now 0x03 0x02 with addr := b.addr, akind := 1 }).bulkErr b.src) s
  if l.isEmpty then s else (s.rowRetry.bellDue 0).bellDue 1

/-- A FLUSH: every incomplete row buffer is discarded. -/
def State.rowFlush (s : State) : State := s.rowDiscard (fun _ => true)

/-- ROW_BUFFER_TIMEOUT (R530): buffers that are incomplete 100 µs after their first byte are discarded. -/
def execRowBufferTimeout (s : State) : Out :=
  .next (s.rowDiscard (fun b => decide (b.since + 100000 ≤ s.time.now)))

/-! ### Reads of device space -/

/-- A read of this run cannot be answered at once: a window, a core whose scratchpad is being initialised (R192, R194), or a bridge
that retrains (R54). -/
def State.runWaits (s : State) (rank a : Nat) : Bool :=
  match s.region a with
  | .sp k _ _ => s.spReach (.host rank) (coreOf k) && s.rowsWait (.host rank) (coreOf k)
  | .win c w _ _ => (s.brgUp || s.brgBusy) && (s.anyBinding c w).isSome && (s.routeTo c).isSome
  | _ => false

/-- A 32-bit read of a control register by a master (R33, R591), with the values that are computed when read and the latches
of R87 and R456. -/
def State.ctlRead (s : State) (m : Master) (off : Nat) : Word × State :=
  let k := coreOfOff off
  if !s.pathOpen m off false || (aftBlock off && !s.brgUp) then s.regRead m off
  else if off = F.TIME_NOW_LO_NOW_LO.off then
    (BitVec.ofNat 32 s.time.now, s.setReg F.TIME_NOW_HI_NOW_HI.off (BitVec.ofNat 32 (s.time.now / 2 ^ 32)))
  else if off = F.EDGE_LOAD_LOAD.off then (BitVec.ofNat 32 s.edgeLoad, s)
  else if 0x048000 ≤ off ∧ off < 0x04C000 then
    let e := s.getF F.IN_DEF_CTRL_PAGE * 4096 + (off - 0x048000) / 4
    (mget (dflt 0#32) (if s.intake.active then s.intake.bank0 else s.intake.bank1) e, s)
  else if 0x100000 ≤ off ∧ off < 0x180000 ∧ off = (F.DIG_RES_LO k).off then
    (s.seeReg off, s.setReg (F.DIG_RES_HI k).off (s.core k).digHi)
  else s.regRead m off

/-- Reads control registers for a host path through device space: whole words. -/
def State.regBytes (s : State) (m : Master) (off : Nat) : Nat → List (Byte × Bool) × State
  | 0 => ([], s)
  | n + 1 =>
    let (v, s) := s.ctlRead m off
    let (l, s) := State.regBytes s m (off + 4) n
    ((leBytes 4 v.toNat).map (fun b => (b, false)) ++ l, s)

/-- Reads one run for a host path: the bytes, or none when the answer comes later; and whether it failed. -/
def State.readRun (s : State) (m : Master) (a n : Nat) : Option (List (Byte × Bool)) × Bool × State :=
  let rank := masterRank m
  match s.region a with
  | .sp k r b =>
    if s.runWaits rank a then (none, false, s.holdRead (coreOf k) rank r b n)
    else let (l, cause, s) := s.devRead (.host rank) a n; (some l, cause != 0, s)
  | .win c w r b =>
    match if s.brgUp || s.brgBusy then s.winRead rank c w r b n else none with
    | some s => (none, false, s)
    | none => let (l, cause, s) := s.devRead (.host rank) a n; (some l, cause != 0, s)
  | .regs off =>
    if off % 4 = 0 ∧ n % 4 = 0 then let (l, s) := s.regBytes m off (n / 4); (some l, false, s)
    else (some (List.replicate n (0, false)), false, s.glbError F.GLB_STATUS_BAD_WIDTH)
  | _ => let (l, cause, s) := s.devRead (.host rank) a n; (some l, cause != 0, s)

/-- Reads a range for a host path, run by run. -/
def State.readRuns (m : Master) : List (Nat × Nat) → State → List (Option (List (Byte × Bool))) × Bool × State
  | [], s => ([], false, s)
  | r :: l, s =>
    let (x, bad, s) := s.readRun m r.1 r.2
    let (xs, bad', s) := State.readRuns m l s
    (x :: xs, bad || bad', s)

/-- The runs that a read of `n` bytes from an address is made in: rows of scratchpads and windows, else the whole. -/
def State.runsOf (s : State) (a n : Nat) : List (Nat × Nat) := if s.gathers a then rowRuns n a n else [(a, n)]

/-- Answers a master with bytes. -/
def State.answer (s : State) (m : Master) (l : List (Byte × Bool)) : State :=
  s.emit (.answer (masterRank m) (leNat (l.map (·.1))) (l.any (·.2)))

/-- Answers a master with the results of its runs: at once when all are there, else each that is there, the others later. -/
def State.answerRuns (s : State) (m : Master) (l : List (Option (List (Byte × Bool)))) : State :=
  if l.all (·.isSome) then s.answer m (l.flatMap (·.getD []))
  else l.foldl (fun s x => match x with
    | some b => s.answer m b
    | none => s) s

/-! ### Pointer of a Bulk channel -/

/-- The pointer (R535). -/
def State.bulkPtr (s : State) (c : Fin 2) : Nat := s.pair (F.BULK_ADDR_LO c).off (F.BULK_ADDR_HI c).off % 2 ^ 48

/-- The pointer after an access of `n` bytes from `p` (Table HO-4). A WRAP length of 0 is reserved and stands at reset: what it
gives is not stated (log entry 22). -/
def State.bulkNext (s : State) (c : Fin 2) (p n : Nat) : Nat :=
  let base := s.pair (F.BULK_BASE_LO c).off (F.BULK_BASE_HI c).off % 2 ^ 48
  let wrap := s.getF (F.BULK_WRAP c)
  match s.getF (F.BULK_CTRL_MODE c) with
  | 0 => (p + n) % 2 ^ 48
  | 2 =>
    if wrap = 0 then Config.openOp 61 [p, n, base] % 2 ^ 48
    else (base + (((p : Int) - (base : Int) + (n : Int)) % (wrap : Int)).toNat) % 2 ^ 48
  | _ => p

/-- Sets the pointer. -/
def State.setPtr (s : State) (c : Fin 2) (p : Nat) : State :=
  (s.setF (F.BULK_ADDR_LO c) (p % 2 ^ 32)).setF (F.BULK_ADDR_HI c) (p / 2 ^ 32)

/-- Addresses of the next `n` bytes from a pointer, as accesses of 4 bytes would take them. -/
def State.bulkAhead (s : State) (c : Fin 2) : Nat → Nat → List Nat
  | 0, _ => []
  | n + 1, p => upFrom p 4 ++ State.bulkAhead s c n (s.bulkNext c p 4)

/-- A byte can be prefetched: memory that a read finds at once. -/
def State.fetchable (s : State) (rank a : Nat) : Bool :=
  match s.region a with
  | .dram => true
  | .sp k _ _ => s.spReach (.host rank) (coreOf k) && !s.rowsWait (.host rank) (coreOf k)
  | .cof _ => true
  | .host _ => s.flag F.HOST_STATUS_LINK_UP
  | _ => false

/-- Fetches the bytes at given addresses ahead (R537): those already there stay, the others are read as memory holds them now. -/
def State.prefetch (s : State) (m : Master) (old : List (Nat × Byte × Bool)) : List Nat → State × List (Nat × Byte × Bool)
  | [] => (s, [])
  | a :: l =>
    match old.find? (fun e => e.1 == a) with
    | some e => let (s, r) := State.prefetch s m old l; (s, e :: r)
    | none =>
      if s.fetchable (masterRank m) a then
        let (x, _, s) := s.devRead (.host (masterRank m)) a 1
        let (s, r) := State.prefetch s m old l
        (s, x.map (fun b => (a, b.1, b.2)) ++ r)
      else (s, [])

/-- A data read of a drained channel: its runs' results, whether it failed, and the pointer moved. -/
def State.bulkRead (s : State) (c : Fin 2) (n ahead : Nat) : List (Option (List (Byte × Bool))) × Bool × State :=
  let m := pathMaster c
  let x := s.bulk c
  let p := s.bulkPtr c
  let hit := ((upFrom p n).map (fun a => x.pre.find? (fun e => e.1 == a))).takeWhile (·.isSome)
  let h := hit.length
  let (l, bad, s) := if h = n then ([], false, s) else State.readRuns m (s.runsOf (p + h) (n - h)) s
  let l := if h = 0 then l else some (hit.filterMap (fun e => e.map (·.2))) :: l
  let s := if bad then s.bulkErr c.val else s
  let q := s.bulkNext c p n
  let mode := s.getF (F.BULK_CTRL_MODE c)
  let on := s.flag (F.BULK_CTRL_PREFETCH c) && (mode == 0 || mode == 2)
  let old := x.pre.filter (fun e => !(decide (p ≤ e.1) && decide (e.1 < p + n)))
  let (s, new) := if on then State.prefetch s m old (s.bulkAhead c (min ahead 1024 / 4) q) else (s, [])
  -- what was fetched stays until a write to the channel
  let pre := new ++ old.filter (fun e => !new.any (fun f => f.1 == e.1))
  (l, bad, (s.setBulk c { s.bulk c with pre := pre }).setPtr c q)

/-! ### Registers of a Bulk channel -/

/-- Carries out a register write of a channel that need not wait any more; FLUSH discards the row buffers. -/
def State.bulkRegNow (s : State) (c : Fin 2) (m : Master) (off v : Nat) : State :=
  s.regWrite false m off v (fun s =>
    let s := s.setBulk c { s.bulk c with pre := [] }
    if off = (F.BULK_CTRL_MODE c).off ∧ bitsOf v 3 1 = 1 then s.rowFlush else s)

/-- A write of a register of a channel: of the pointer, MODE or FLUSH it waits until the buffer has drained (R536); any write
discards prefetched data (R537). -/
def State.bulkRegWrite (s : State) (c : Fin 2) (m : Master) (off : Nat) (v : Word) : State :=
  match s.refuseWrite false m off with
  | some s' => s'
  | none =>
    let x := s.bulk c
    let waits := off = (F.BULK_ADDR_LO c).off ∨ off = (F.BULK_ADDR_HI c).off ∨ off = (F.BULK_CTRL_MODE c).off
    if waits ∧ !(x.buf.isEmpty && x.wait.isEmpty) then
      s.setBulk c { x with pre := [], wait := x.wait ++ [.reg off v.toNat] }
    else s.bulkRegNow c m off v.toNat

/-- BULK_POINTER_WRITE (R536): a write of the pointer's low word (0), its high word (1), or the mode register (2). -/
def execBulkPointerWrite (c : Fin 2) (reg : Fin 3) (m : Master) (v : Word) (s : State) : Out :=
  let off := match reg.val with
    | 0 => (F.BULK_ADDR_LO c).off
    | 1 => (F.BULK_ADDR_HI c).off
    | _ => (F.BULK_CTRL_MODE c).off
  .next (s.bulkRegWrite c m off v)

/-- BULK_FLUSH (R530, R536). -/
def execBulkFlush (c : Fin 2) (m : Master) (v : Word) (s : State) : Out :=
  .next (s.bulkRegWrite c m (F.BULK_CTRL_FLUSH c).off (v ||| 8#32))

/-! ### Rings after a link loss (R556) -/

/-- Sets the heads and tails of both HOST rings and their phase to zero, and posts the held completions with REPLAYED set. -/
def State.ringRestart (s : State) : State :=
  let s := ((s.setF (F.SQ_HEAD 0) 0).setF (F.SQ_TAIL 0) 0).setF (F.CQ_HEAD 0) 0
  let s := (s.setF (F.CQ_TAIL_TAIL 0) 0).setF (F.CQ_TAIL_PHASE 0) 0
  let r := s.ring 0
  let s := s.setRing 0 { r with held := r.held.map (fun e => { e with replayed := true }), bell := none }
  State.postHeld 0 64 { s with host := { s.host with lost := false } }

/-- A write of RING_CTRL of a bank. -/
def State.ringCtrlWrite (s : State) (b : Fin 2) (m : Master) (v : Word) : State :=
  s.regWrite false m (F.RING_CTRL_ENABLE b).off v.toNat (fun s =>
    if b = 0 ∧ v.toNat % 2 = 1 ∧ s.host.lost ∧ s.flag F.HOST_STATUS_LINK_UP then s.ringRestart else s)

/-- RING_ENABLE (R556). -/
def execRingEnable (b : Fin 2) (m : Master) (v : Word) (s : State) : Out := .next (s.ringCtrlWrite b m (v ||| 1#32))

/-! ### Orderly power-down (R630) -/

/-- Everything that an orderly power-down waits for has drained (R630, Table PS-6). -/
def State.drained (s : State) : Bool :=
  s.jobs.all (fun j => j.state != .running) && s.sto.cur.isNone && s.sto.queue.isEmpty && s.cof.run.isNone
    && s.flt.fore.isEmpty && (s.flt.aft.isEmpty || !s.brgUp) && s.host.bulk.toList.all (fun b => b.buf.isEmpty && b.wait.isEmpty)
    && s.host.rowWait.isEmpty

/-- POWERDOWN_DRAIN_DONE (R630): the row buffers are flushed, and the part enters STANDBY. -/
def execPowerdownDrainDone (s : State) : Out :=
  if s.pwr.powerdown && s.drained then .next (s.rowFlush.trcPad.toStandby) else .next s

end Sys2Proof.Machine
end

