-- ==== Sys2Proof/Machine/Sensors.lean ====
section
/-! DEFINITION. Sensor control (chapter 03): the I2C masters and their two lists (R126–R130), the probe list (R131, R132),
trigger outputs (R133) and SENSOR_RST_N (R134). -/

namespace Sys2Proof.Machine

/-! ### I2C masters -/

/-- An I2C master. -/
def State.i2cOf (s : State) (m : Fin 2) : I2cSt := vget s.intake.i2c m

/-- State with an I2C master replaced. -/
def State.setI2c (s : State) (m : Fin 2) (x : I2cSt) : State :=
  { s with intake := { s.intake with i2c := vset s.intake.i2c m x } }

/-- Offset of word `w` of a list: immediate at +0x100, frame at +0x200 (Table IN-6). -/
def listWord (m : Nat) (frame : Bool) (w : Nat) : Nat := 0x041000 + 0x400 * m + (if frame then 0x200 else 0x100) + 4 * w

/-- Offset of the read bytes of a descriptor: RDI or RDF (R129). -/
def readWordOff (m : Nat) (frame : Bool) (d : Nat) : Nat := 0x041000 + 0x400 * m + (if frame then 0x300 else 0x080) + 4 * d

/-- An I2C descriptor (Table IN-3). -/
def State.i2cDesc (s : State) (m : Nat) (frame : Bool) (d : Nat) : Nat :=
  (s.getReg (listWord m frame (2 * d))).toNat + (s.getReg (listWord m frame (2 * d + 1))).toNat * 2 ^ 32

/-- NW, NR and the ADDR of a descriptor. -/
def descNw (d : Nat) : Nat := bitsOf d 7 3
def descNr (d : Nat) : Nat := bitsOf d 10 3
def descAddr (d : Nat) : Nat := bitsOf d 0 7

/-- A descriptor stops its list before any bus activity (R128). -/
def descBad (d : Nat) : Bool := (descNw d == 0 && descNr d == 0) || decide (4 < descNw d) || decide (4 < descNr d)

/-- A list ends: a status bit is set, INDEX names the descriptor, cause 20 is raised, and the master is idle. -/
def State.i2cEnd (s : State) (m : Fin 2) (bit : Fld) (d : Nat) : State :=
  let s := ((s.setF bit 1).setF (F.IN_I2C_STAT_INDEX m) d).raiseCause 20
  s.setI2c m { s.i2cOf m with run := .idle, idx := 0 }

/-- Begins a descriptor of a list. `sda` says what the master finds before the start: 0 SDA high, 1 SDA low and freed by the
nine clocks and stop, 2 still low after the one retry (R127). -/
def State.i2cBegin (s : State) (m : Fin 2) (frame : Bool) (d sda : Nat) : State :=
  if descBad (s.i2cDesc m frame d) then s.i2cEnd m (F.IN_I2C_STAT_BAD_DESC m) d
  else if 2 ≤ sda then s.i2cEnd m (F.IN_I2C_STAT_BUS_STUCK m) d
  else s.setI2c m { s.i2cOf m with run := if frame then .frame else .imm, idx := d }

/-- What an idle master does next: the frame list that is due, then, when that has ended, the immediate list that waits (R130). -/
def State.i2cNext (s : State) (m : Fin 2) (sda : Nat) : State :=
  let x := s.i2cOf m
  let s := if x.run = .idle ∧ x.due then (s.setI2c m { x with due := false, ran := true }).i2cBegin m true 0 sda else s
  let x := s.i2cOf m
  if x.run ≠ .idle then s
  else
    match x.wait with
    | some d => (s.setI2c m { x with wait := none }).i2cBegin m false d sda
    | none => s

/-- A write of IN_I2Cm_CTRL; GO starts the immediate list, or lets it wait for the frame list (R130). -/
def State.i2cCtrlWrite (s : State) (m : Fin 2) (sda : Nat) (mm : Master) (v : Word) : State :=
  s.regWrite false mm (F.IN_I2C_CTRL_GO m).off v.toNat (fun s =>
    let x := s.i2cOf m
    if v.toNat % 2 = 0 ∨ x.run = .imm then s
    else (s.setI2c m { x with wait := some 0 }).i2cNext m sda)

/-- I2C_GO (R130). -/
def execI2cGo (m : Fin 2) (sda : Nat) (mm : Master) (v : Word) (s : State) : Out :=
  .next (s.i2cCtrlWrite m sda mm (v ||| 1#32))

/-- I2C_FRAME_LIST_START (R130): in the vertical blanking of its context, once a frame. -/
def execI2cFrameListStart (m : Fin 2) (sda : Nat) (s : State) : Out :=
  let x := s.i2cOf m
  let n := coreOf (s.forceF (F.IN_I2C_CTRL_FL_CTX m))
  if s.forceF (F.IN_I2C_CTRL_FL_EN m) = 0 ∨ x.ran ∨ x.run = .frame ∨ (s.inCtx n).cur.isSome then .next s
  else .next ((s.setI2c m { x with due := true }).i2cNext m sda)

/-- Bus speed of a master in kHz (R126). -/
def State.i2cKhz (s : State) (m : Nat) : Nat := nth 0 [100, 400, 1000] (s.getF (F.IN_I2C_CFG_SPEED m))

/-- What a master drives: after the start the address with the write bit and the bytes it writes, when it writes any; then, after a
start or repeated start, the address with the read bit, when it reads any (R126, Table IN-3). -/
def State.i2cDrive (s : State) (m addr : Nat) (wr : List Byte) (reads : Bool) : State :=
  let a (b : Nat) : Byte := BitVec.ofNat 8 (2 * addr + b)
  let s := if wr.isEmpty then s else s.emit (.i2c m (s.i2cKhz m) (a 0 :: wr))
  if reads then s.emit (.i2c m (s.i2cKhz m) [a 1]) else s

/-- I2C_DESCRIPTOR_DONE (R129, R130): the descriptor in progress ends with an acknowledge and its read bytes, or a NAK, which
stops the list. `sda` is what the next start finds. -/
def execI2cDescriptorDone (m : Fin 2) (ack : Bool) (bytes : List Byte) (sda : Nat) (s : State) : Out :=
  let x := s.i2cOf m
  if x.run = .idle then .next s
  else
    let fr := x.run == .frame
    let d := s.i2cDesc m fr x.idx
    let s := s.i2cDrive m.val (descAddr d) (leBytes (descNw d) (bitsOf d 16 32)) (descNr d != 0)
    if !ack then .next ((s.i2cEnd m (F.IN_I2C_STAT_NAK m) x.idx).i2cNext m sda)
    else
      let s := if descNr d = 0 then s
        else s.setReg (readWordOff m fr x.idx) (BitVec.ofNat 32 (leNat (bytes.take (descNr d))))
      if bitsOf d 13 1 = 1 ∨ 31 ≤ x.idx then .next ((s.i2cEnd m (F.IN_I2C_STAT_DONE m) x.idx).i2cNext m sda)
      else if !fr && x.due then
        .next ((s.setI2c m { x with run := .idle, wait := some (x.idx + 1) }).i2cNext m sda)
      else
        let s := s.i2cBegin m fr (x.idx + 1) sda
        .next (s.i2cNext m sda)

/-- I2C_STRETCH_TIMEOUT (R127): the transaction in progress has been stretched for `e.us` µs; beyond STRETCH_MAX it is aborted. -/
def execI2cStretchTimeout (m : Fin 2) (e : I2cStretch) (s : State) : Out :=
  let x := s.i2cOf m
  if x.run = .idle ∨ e.us ≤ s.getF (F.IN_I2C_CFG_STRETCH_MAX m) then .next s else .next ((s.i2cEnd m (F.IN_I2C_STAT_TIMEOUT m) x.idx).i2cNext m e.sda)

/-! ### Probe list (R131, R132) -/

/-- The fields of a probe entry (R131): bus, address, whether its register address has 16 bits, register address, expected value and
mask. Table IN-6 names them in one word and gives no places: opaque functions of it (log entry 35). -/
def probeBus (cfg : Nat) : Nat := Config.openOp 63 [cfg] % 2
def probeAddr (cfg : Nat) : Nat := Config.openOp 64 [cfg] % 128
def probeWide (cfg : Nat) : Bool := Config.openOp 65 [cfg] % 2 == 1
def probeReg (cfg : Nat) : Nat := Config.openOp 66 [cfg] % 65536
def probeMask (cfg : Nat) : Nat := Config.openOp 42 [cfg] % 65536
def probeWant (cfg : Nat) : Nat := Config.openOp 43 [cfg] % 65536

/-- The register address of a probe entry as bytes, high byte first. -/
def probeBytes (cfg : Nat) : List Byte :=
  let r := probeReg cfg
  if probeWide cfg then [BitVec.ofNat 8 (r / 256), BitVec.ofNat 8 r] else [BitVec.ofNat 8 r]

/-- The probe list runs: each entry writes its register address and reads two bytes, high byte first (R131). Per entry, whether
the sensor acknowledged and the bytes read. DESIGN CHOICE: an entry that is not acknowledged shows VALUE 0 and MATCH 0 (log entry
135). -/
def State.probeRun (s : State) (res : List (Bool × Byte × Byte)) : State :=
  let s := (res.take 8).zip (upFrom 0 8) |>.foldl (fun s e =>
    let cfg := (s.getReg (F.IN_PROBE_CFG e.2).off).toNat
    let s := s.i2cDrive (probeBus cfg) (probeAddr cfg) (probeBytes cfg) true
    let v := if e.1.1 then e.1.2.1.toNat * 256 + e.1.2.2.toNat else 0
    let s := (s.setF (F.IN_PROBE_RES_ACK e.2) (if e.1.1 then 1 else 0)).setF (F.IN_PROBE_RES_VALUE e.2) v
    s.setF (F.IN_PROBE_RES_MATCH e.2) (if e.1.1 ∧ v &&& probeMask cfg = probeWant cfg then 1 else 0)) s
  s.setF F.IN_PROBE_CTRL_DONE 1

/-- Some receive context is enabled (R21: ENABLE in force). -/
def State.anyCtxOn (s : State) : Bool := allCores.any (fun (n : Fin 8) => s.forceF (F.IN_CTX_ENABLE n) == 1)

/-- A write of IN_PROBE_CTRL; GO runs the list, or is refused while a context is enabled (R132). -/
def State.probeCtrlWrite (s : State) (res : List (Bool × Byte × Byte)) (m : Master) (v : Word) : State :=
  s.regWrite false m F.IN_PROBE_CTRL_GO.off v.toNat (fun s =>
    if v.toNat % 2 = 0 then s
    else if s.anyCtxOn then s.setF F.IN_PROBE_CTRL_PROBE_BUSY 1 else s.probeRun res)

/-- PROBE_GO (R131, R132). -/
def execProbeGo (res : List (Bool × Byte × Byte)) (m : Master) (v : Word) (s : State) : Out :=
  .next (s.probeCtrlWrite res m (v ||| 1#32))

/-! ### Triggers and reset (R133, R134) -/

/-- A trigger output. -/
def State.trig (s : State) (t : Fin 2) : TrigSt := vget s.intake.trig t

/-- State with a trigger output replaced. -/
def State.setTrig (s : State) (t : Fin 2) (x : TrigSt) : State :=
  { s with intake := { s.intake with trig := vset s.intake.trig t x } }

/-- Drives a pulse of `w` ns. -/
def State.trigPulse (s : State) (t : Fin 2) (w : Nat) : State :=
  s.setTrig t { s.trig t with level := decide (0 < w), pulseEnd := s.time.now + w }

/-- A write of IN_TRIGt; FIRE drives the pulse at once, at the width in force (R133, R21). -/
def State.trigWrite (s : State) (t : Fin 2) (m : Master) (v : Word) : State :=
  s.regWrite false m (F.IN_TRIG_FIRE t).off v.toNat (fun s =>
    if bitsOf v.toNat 3 1 = 1 then s.trigPulse t (s.forceF (F.IN_TRIG_WIDTH t)) else s)

/-- TRIG_FIRE (R133). -/
def execTrigFire (t : Fin 2) (m : Master) (v : Word) (s : State) : Out := .next (s.trigWrite t m (v ||| 8#32))

/-- TRIGGER_EDGE (R133): the oldest edge that the trigger has taken from its generator falls due. -/
def execTriggerEdge (t : Fin 2) (s : State) : Out :=
  let x := s.trig t
  match x.due with
  | [] => .next s
  | d :: l => if d.1 ≤ s.time.now then .next ((s.setTrig t { x with due := l }).trigPulse t d.2) else .next s

/-- TRIGGER_PULSE_END (R133). -/
def execTriggerPulseEnd (t : Fin 2) (s : State) : Out :=
  let x := s.trig t
  if x.level ∧ x.pulseEnd ≤ s.time.now then .next (s.setTrig t { x with level := false }) else .next s

/-- SENSOR_RST_N (R134): high-impedance until boot step 4 has enabled the CAM domain, then low until RST_RELEASE; a warm reset drives
it low at once. -/
def State.sensorRst (s : State) : Option Bool :=
  let on := !s.off && (s.dev == devReady || s.dev == devRun || (s.dev == devBoot && (decide (4 ≤ s.getF F.SEC_BOOT_STEP) || s.flag F.SEC_BOOT_WARM)))
  if on then some (s.flag F.IN_SENS_RST_RELEASE) else none

/-- RST_RELEASE (R134): SENSOR_RST_N is driven high. -/
def execRstRelease (m : Master) (v : Word) (s : State) : Out :=
  .next (s.regWrite false m F.IN_SENS_RST_RELEASE.off (v ||| 1#32).toNat id)

end Sys2Proof.Machine
end

