-- ==== Sys2Proof/Machine/RegActions.lean ====
section
/-! DEFINITION. A register access with everything it starts: widths (R14–R16), writes of one cycle (R553), the answers to a
program's CRR and CRW (R232), and accesses of a remote chip (R522). -/

namespace Sys2Proof.Machine

/-! ### What a write starts, by block -/

/-- A number taken as one of two, four or six units. -/
def two (n : Nat) : Fin 2 := ⟨n % 2, Nat.mod_lt _ (by decide)⟩
def four (n : Nat) : Fin 4 := ⟨n % 4, Nat.mod_lt _ (by decide)⟩
def six (n : Nat) : Fin 6 := ⟨n % 6, Nat.mod_lt _ (by decide)⟩

/-- Which unit of a family of registers an offset names: `base` + i × `stride`, i below `n`. -/
def unitAt (off base stride n : Nat) : Option Nat :=
  if base ≤ off ∧ (off - base) % stride = 0 ∧ (off - base) / stride < n then some ((off - base) / stride) else none

/-- A write with no action of its own. -/
def State.plainWrite (s : State) (m : Master) (off : Nat) (v : Word) : State := s.regWrite false m off v.toNat id

/-- PWR and TIME. -/
def State.pwrWrite (s : State) (m : Master) (off : Nat) (v : Word) : State :=
  if off = F.PWR_DEV_REQ.off then s.pwrDevWrite m v
  -- R558: a core in NAP holds the level of PWR_RET
  else if off = F.PWR_RET_MV.off then s.regWrite false m off v.toNat (fun s => s.forCores (fun k s =>
    if s.pstate k = psNap then s.setF (F.PWR_ISL_ST_V_SET k) (s.getF F.PWR_RET_MV) else s))
  else
    match unitAt off 0x010100 0x10 8 with
    | some k => s.pwrIslWrite (coreOf k) m v
    | none => s.plainWrite m off v

def State.timeWrite (s : State) (m : Master) (off : Nat) (v : Word) : State :=
  if off = F.TIME_CTRL_SET.off then s.timeCtrlWrite m v
  else if off = F.ST_CTRL_CLR.off then s.stCtrlWrite m v
  else if off = F.DX_CTRL_ENABLE.off then s.dxCtrlWrite m v
  else if off = F.DX_CLR_CLR.off then s.dxClrWrite m v
  else if off = F.DIG_CTRL_PERIOD.off then s.digCtrlWrite m v
  else
    match unitAt off (F.FSG_CTRL_ENABLE 0).off 0x20 4 with
    | some n =>
      let was := s.flag (F.FSG_CTRL_ENABLE (four n))
      s.regWrite false m off v.toNat (State.fsgCtrlAct (four n) was)
    | none => s.plainWrite m off v

/-- HOST: rings and Bulk channels of bank `b`, and the rest. -/
def State.hostWrite (s : State) (m : Master) (off : Nat) (v : Word) : State :=
  if off = F.HOST_IMASK.off then s.imaskWrite m v
  -- Table HO-12: HOST_MBOX_OUT is written by the firmware, and raises cause 29
  else if off = F.HOST_MBOX_OUT.off ∧ m = .lcp then (s.setReg off v).raiseCause 29
  else
    let b := two ((off - 0x030000) / 256)
    if 0x030200 ≤ off then s.plainWrite m off v
    else if off = (F.SQ_TAIL b).off then s.sqTailWrite b m v
    else if off = (F.CQ_HEAD b).off then s.cqHeadWrite b m v
    else if off = (F.RING_CTRL_ENABLE b).off then s.ringCtrlWrite b m v
    else if 0x40 ≤ off % 256 ∧ off % 256 < 0x5C then s.bulkRegWrite b m off v
    else s.plainWrite m off v

/-- A write of a context's IN_CTXn: a PATH or PORT that R99 refuses stays as it was, with BAD_ENCODING. -/
def State.inCtxWrite (s : State) (n : Nat) (m : Master) (v : Word) : State :=
  let off := (F.IN_CTX_ENABLE n).off
  let x := v.toNat
  let bad := bitsOf x 12 1 = 1 ∧ (n ≠ 0 ∨ bitsOf x 1 1 = 1)
  if !bad then s.plainWrite m off v
  else
    let keep := mergeBits (0xFFFFFFFF - 0x1002) x (s.getReg off).toNat
    s.regWrite false m off keep (fun s => s.glbError F.GLB_STATUS_BAD_ENCODING)

/-- IN. -/
def State.inWrite (s : State) (e : WriteEnv) (m : Master) (off : Nat) (v : Word) : State :=
  if 0x048000 ≤ off then s.defTableWrite m ((off - 0x048000) / 4) v.toNat
  else if off = F.IN_DEF_CTRL_SWAP.off then s.defCtrlWrite m v
  else if off = F.IN_PROBE_CTRL_GO.off then s.probeCtrlWrite e.probe m v
  else
    match unitAt off 0x040100 0x40 8, unitAt off 0x040120 0x40 8, unitAt off 0x04042C 0x10 2, unitAt off 0x041004 0x400 2,
        unitAt off 0x040A00 0x10 2 with
    | some n, _, _, _, _ => s.inCtxWrite n m v
    | _, some n, _, _, _ => s.inReleaseWrite (coreOf n) m v
    | _, _, some t, _, _ => s.inTapReleaseWrite (two t) m v
    | _, _, _, some i, _ => s.i2cCtrlWrite (two i) e.sda m v
    | _, _, _, _, some t => s.trigWrite (two t) m v
    | _, _, _, _, _ => s.plainWrite m off v

/-- OF. -/
def State.ofWrite (s : State) (m : Master) (off : Nat) (v : Word) : State :=
  if off = F.OF_TX_SENSE_GO.off then s.txSenseWrite m v
  else if off = F.OF_TX_CFG_ENABLE.off then s.txCfgWrite m off v
  else
    match unitAt off 0x050100 0x80 6, unitAt off 0x05012C 0x80 6, unitAt off 0x05094C 0x20 2 with
    | some n, _, _ => s.regWrite false m off v.toNat (State.ofCfgAct (six n) v.toNat)
    | _, some n, _ => s.ofCtrlWrite (six n) m v
    | _, _, some t => s.ofTapReleaseWrite (two t) m v
    | _, _, _ => s.plainWrite m off v

/-- FLT, SEC, TRC, LNK. -/
def State.fltWrite (s : State) (m : Master) (off : Nat) (v : Word) : State :=
  match unitAt off (F.FLT_CORE_STEP 0).off 4 8 with
  | some k => s.fltCoreWrite (coreOf k) m v
  | none =>
    if off = F.FLT_RING_TAIL.off ∨ off = F.FLT_RING_CFG_ENABLE.off then s.regWrite false m off v.toNat State.showRing
    else s.plainWrite m off v

def State.secWrite (s : State) (e : WriteEnv) (m : Master) (off : Nat) (v : Word) : State :=
  if off = F.SEC_RESET_WARM.off then s.secResetWrite m e.strap v
  else if off = F.SEC_WDOG_TIMEOUT.off then s.wdogWrite m v
  else if off = F.SEC_TOKEN_CTRL_GO.off then s.tokenWrite m v
  else if off = F.SEC_STAGE_LEN_LEN.off then s.stageWrite m v
  else if off = F.SEC_FUSEPROG_FIELD.off then s.fuseWrite m v
  else if off = F.SEC_FUSEDATA.off then s.fuseDataWrite m v
  else
    match unitAt off 0x090100 4 128 with
    | some i => s.tokenPut m i v
    | none => s.plainWrite m off v

def State.trcWrite (s : State) (m : Master) (off : Nat) (v : Word) : State :=
  if off = F.TRC_CTRL_CLR.off then s.trcCtrlWrite m v
  else if off = F.TRC_TAIL.off then s.regWrite false m off v.toNat (fun s => s.setF F.TRC_STATUS_FULL 0)
  else s.plainWrite m off v

def State.lnkWrite (s : State) (m : Master) (off : Nat) (v : Word) : State :=
  match unitAt off (F.LNK_CTRL_TRAIN 0).off 0x40 2 with
  | some p => s.lnkCtrlWrite (two p) m v
  | none =>
    if off = F.LNK_CFG_CHIP.off then s.regWrite false m off v.toNat (State.lnkCfgAct (s.flag F.LNK_CFG_TMASTER))
    else s.plainWrite m off v

/-- A core's block. Only the firmware writes DIG_ROW, DIG_CNT and DIG_GO (Table SE-5). -/
def State.coreWrite (s : State) (m : Master) (off : Nat) (v : Word) : State :=
  let k := coreOfOff off
  if off = (F.CORE_CTRL_HALT0 k).off then s.coreCtrlWrite k m v
  else if off = (F.SP_CLR_CLR k).off then s.spClrWrite k m v
  else if off = (F.CK_CTRL_ENABLE k).off then s.ckCtrlWrite k m v
  else if off = (F.DIG_GO_GO k).off then s.digGoWrite k m v
  else if (off = (F.DIG_ROW_FIRST k).off ∨ off = (F.DIG_CNT_COUNT k).off) ∧ m ≠ .lcp then s.notMine m off
  else s.plainWrite m off v

/-- A whole 32-bit register write with what it starts. -/
def State.ctlWrite (s : State) (e : WriteEnv) (m : Master) (off : Nat) (v : Word) : State :=
  match blockOf off with
  | 1 => s.pwrWrite m off v
  | 2 => s.timeWrite m off v
  | 3 => s.hostWrite m off v
  | 4 => s.inWrite e m off v
  | 5 => s.ofWrite m off v
  | 6 => if off = F.EDGE_CTRL_CLR.off then s.edgeCtrlWrite m v else s.plainWrite m off v
  | 7 => if off = F.COF_CTRL_CANCEL.off then s.cofCtrlWrite m v else s.plainWrite m off v
  | 8 => s.fltWrite m off v
  | 9 => s.secWrite e m off v
  | 10 => s.trcWrite m off v
  | 11 => s.lnkWrite m off v
  | 14 => if off = F.BRG_CTRL_TRAIN.off then s.brgCtrlWrite m v else s.plainWrite m off v
  | 0 | 12 | 13 => s.plainWrite m off v
  | b => if 16 ≤ b ∧ b < 24 then s.coreWrite m off v else s

/-! ### Widths (R14–R16) -/

/-- A write of `width` bytes: whole aligned words are written, two for a 64-bit access, lower address first; every other is
dropped with BAD_WIDTH. -/
def State.accWrite (s : State) (e : WriteEnv) (w : RegWrite) : State :=
  if w.off % 4 = 0 ∧ w.width = 4 then s.ctlWrite e w.m w.off (BitVec.ofNat 32 w.val)
  else if w.off % 4 = 0 ∧ w.width = 8 then
    (s.ctlWrite e w.m w.off (BitVec.ofNat 32 w.val)).ctlWrite e w.m (w.off + 4) (BitVec.ofNat 32 (w.val / 2 ^ 32))
  else if s.pathOpen w.m w.off true then s.glbError F.GLB_STATUS_BAD_WIDTH else s

/-- A read of `width` bytes: the bytes of a word, two words for a 64-bit access; a refused one reads zero, with BAD_WIDTH. -/
def State.accRead (s : State) (m : Master) (off width : Nat) : Nat × State :=
  if width = 8 ∧ off % 4 = 0 then
    let (a, s) := s.ctlRead m off
    let (b, s) := s.ctlRead m (off + 4)
    (a.toNat + b.toNat * 2 ^ 32, s)
  else if width ≤ 4 ∧ 0 < width ∧ off % 4 + width ≤ 4 then
    let (a, s) := s.ctlRead m (off - off % 4)
    (bitsOf a.toNat (8 * (off % 4)) (8 * width), s)
  else (0, s.glbError F.GLB_STATUS_BAD_WIDTH)

/-! ### Writes of one cycle (R553) -/

/-- Writes of one cycle in the order in which they apply. -/
def cycleOrder (l : List RegWrite) : List RegWrite :=
  [Master.lcp, Master.host, Master.hsp, Master.link].flatMap (fun m => l.filter (fun w => w.m == m))

/-- The whole 32-bit writes that an access is: a 64-bit one is two, the lower address first (R14). -/
def RegWrite.words (w : RegWrite) : List RegWrite :=
  if w.off % 4 = 0 ∧ w.width = 8 then
    [{ w with width := 4, val := w.val % 2 ^ 32 }, { w with off := w.off + 4, width := 4, val := w.val / 2 ^ 32 }]
  else [w]

/-- The bits of a write that ask for an action which an earlier write `u` of the cycle has asked for: equal requests of WO fields of
at most three bits. -/
def sameAction (off u v : Nat) : Nat :=
  match regAt off with
  | none => 0
  | some r => r.fields.foldl (fun a f =>
    if f.acc = .wo ∧ f.w ≤ 3 ∧ bitsOf u f.lo f.w = bitsOf v f.lo f.w then a ||| (bitsOf v f.lo f.w * 2 ^ f.lo) else a) 0

/-- The register at an offset stores nothing: its fields are actions and status bits. -/
def actsOnly (off : Nat) : Bool := (regAt off).elim false (fun r => r.fields.all (fun f => f.acc != .rw && f.acc != .rwl))

/-- Applies writes of one cycle in order; `done` holds those that have landed, by offset. An action asked for again is not performed
again, and a write that asks for nothing else does nothing. -/
def State.cycleWrites (e : WriteEnv) : List RegWrite → List (Nat × Nat) → State → State
  | [], _, s => s
  | w :: l, done, s =>
    let ran := done.foldl (fun a d => if d.1 = w.off then a ||| sameAction w.off d.2 w.val else a) 0
    let v := w.val - (w.val &&& ran)
    let lands := (s.refuseWrite false w.m w.off).isNone
    let again := actsOnly w.off && (done.contains (w.off, w.val) || (ran != 0 && v == 0))
    let s := if lands && again then s else s.accWrite e { w with val := v }
    State.cycleWrites e l (if lands then (w.off, w.val) :: done else done) s

/-- Two masters write one register in a cycle. -/
def collides (l : List RegWrite) : Bool :=
  l.any (fun a => l.any (fun b => a.m != b.m && a.off / 4 == b.off / 4))

/-- REGISTER_WRITE (R20): the writes of one cycle, each by a master. -/
def execRegisterWrite (e : WriteEnv) (l : List RegWrite) (s : State) : Out :=
  let l := l.flatMap RegWrite.words
  let t := State.cycleWrites e (cycleOrder l) [] s
  .next (if collides l then t.glbError F.GLB_STATUS_COLLIDE else t)

/-- REGISTER_READ (R14–R18). -/
def execRegisterRead (m : Master) (off width : Nat) (s : State) : Out :=
  let (v, s) := s.accRead m off width
  .next (s.emit (.answer (masterRank m) v false))

/-- TIME_NOW_LO_READ (R87). -/
def execTimeNowLoRead (m : Master) (s : State) : Out :=
  let (v, s) := s.ctlRead m F.TIME_NOW_LO_NOW_LO.off
  .next (s.emit (.answer (masterRank m) v.toNat false))

/-- DIG_RES_LO_READ (R456). -/
def execDigResLoRead (k : Fin 8) (m : Master) (s : State) : Out :=
  let (v, s) := s.ctlRead m (F.DIG_RES_LO k).off
  .next (s.emit (.answer (masterRank m) v.toNat false))

/-- HOST_MBOX_IN (R553): writes of the shared doorbell in one cycle; the last value that lands stands. -/
def execHostMboxIn (l : List (Master × Word)) (s : State) : Out :=
  let ws := l.map (fun w => (⟨w.1, F.HOST_MBOX_IN.off, 4, w.2.toNat⟩ : RegWrite))
  let t := (cycleOrder ws).foldl (fun s w => s.plainWrite w.m w.off (BitVec.ofNat 32 w.val)) s
  .next (if collides ws then t.glbError F.GLB_STATUS_COLLIDE else t)

/-! ### Accesses of programs and of remote chips -/

/-- An access of the Aft fabric to a core's own block is made within the Aft half: it does not need the bridge (R232). -/
def State.withinAft (s : State) (f : State → State) : State :=
  if s.brgUp then f s else (f (s.setF F.BRG_STATUS_UP 1)).setF F.BRG_STATUS_UP 0

/-- A program's CRW: an LCP write (R549), which ignores a register that only the firmware itself writes. -/
def State.crWrite (s : State) (e : WriteEnv) (off : Nat) (v : Word) : State :=
  if off = F.HOST_MBOX_OUT.off then s.plainWrite .lcp off v else s.ctlWrite e .lcp off v

/-- CONTROL_REGISTER_ANSWER (R232): the access that a context waits for is performed: in its own block by the Aft fabric, any
other by the Lantern as master LCP, which needs the bridge. -/
def execControlRegisterAnswer (k : Fin 8) (x : Fin 3) (e : WriteEnv) (s : State) : Out :=
  let c := s.ctx k x
  match c.crWait with
  | none => .next s
  | some w =>
    let own := blockOf w.off == 16 + k.val
    if !own && !s.brgUp then .next s
    else
      let s := s.setCtx k x { c with crWait := none }
      let s :=
        if w.write then (if own then s.withinAft (fun s => s.ctlWrite e .lcp w.off w.val) else s.crWrite e w.off w.val).regOp k x id
        else
          let (v, s) := if own && !s.brgUp then (s.seeReg w.off, s) else s.ctlRead .lcp w.off
          s.regOp k x (fun c => c.ws w.rd v)
      .next (s.takeHalt k x)

/-- An offset lies in LNK_RGRANT0 or LNK_RGRANT1. -/
def State.remoteGranted (s : State) (off : Nat) : Bool :=
  (upFrom 0 2).any (fun g => decide (s.getF (F.LNK_RGRANT_FIRST g) ≤ off) && decide (off ≤ s.getF (F.LNK_RGRANT_LAST g)))

/-- REMOTE_REGISTER_ACCESS (R522): the next class 5 message of a buffer set: an access of another chip, or its capability words
(Table SL-3). INLINE holds the offset in [20:0] and the value in [63:32] (log entry 51). -/
def execRemoteRegisterAccess (b : LinkSet) (e : WriteEnv) (s : State) : Out :=
  match s.takeMsg b.port (8 * b.set.val + 5) with
  | none => .next s
  | some (m, s') =>
    if lnkBad m || !s.forMe m then .next s
    else if m.opc = lnkCaps then .next (s'.partnerCaps b.port m.inl)
    else
      let off := bitsOf m.inl 0 21 / 4 * 4
      let reply (s : State) (x : Nat) : State :=
        let r := { mkLink 2 lnkData m.tag m.dstc m.srcc with inl := x * 2 ^ 32 + off }
        (s.linkSend r).getD s
      if !s'.flag F.LNK_CFG_REMOTE_EN || !s'.remoteGranted off then
        let s' := s'.reportAft { mkRec s'.time.aft (0x12 + b.port.val) 0x04 with addr := off, akind := 3 }
        .next (reply s' 0)
      -- a register of the Fore half is out of reach until the bridge is up again (R28)
      else if !aftBlock off && !s.brgUp then .next s
      else if m.opc = lnkRegWrite then .next (reply (s'.ctlWrite e .link off (BitVec.ofNat 32 (bitsOf m.inl 32 32))) 0)
      else
        let (x, s') := s'.ctlRead .link off
        .next (reply s' x.toNat)

end Sys2Proof.Machine
end

