-- ==== Sys2Proof/Machine/Boot.lean ====
section
/-! DEFINITION. Power-on and resets from outside (R581, R587, R588), the boot sequence (R590–R597), the load of stored packages
after it (R622), and the end of a flash operation (R618). -/

namespace Sys2Proof.Machine

/-! ### Power-on and cold reset -/

/-- The part with VDD_AON gone: fuses, flash, host memory and the wires are all that is left. `torn` says that a flash operation
in progress did not finish. -/
def State.dark (s : State) (torn : Bool) : State :=
  let s := if torn then { s with sto := { s.sto with cur := none, queue := [] } } else s.stoCut
  { State.reset with
    pending := s.pending, off := true, sec := { State.reset.sec with fuses := s.sec.fuses }, sto := s.sto, ddrSize := s.ddrSize,
    hostMem := s.hostMem, free := s.free, wire := s.wire }

/-- AON_POWER_LOSS (Table PW-3): the part enters OFF. -/
def execAonPowerLoss (torn : Bool) (s : State) : Out := if s.off then .next s else .next (s.dark torn)

/-- POWER_ON (R588): VDD_AON is good, the part enters STANDBY, and BOOT[2:0] is sampled. -/
def execPowerOn (strap : Nat) (s : State) : Out :=
  if !s.off then .next s
  else
    let s := { s with off := false, sec := { s.sec with strap := strap % 8, resetLow := true } }
    .next (s.setF F.SEC_BOOT_STRAP (strap % 8)).showFuses.gradeLimits

/-- COLD_RESET (R581, R587, R588): RESET_N ends a low period of at least 1 µs, BOOT[2:0] is sampled, and boot begins. After a
thermal trip every sensor must read below 105 °C. TAMPER_HOLD is not left (R609). -/
def execColdReset (strap : Nat) (temps : List Int) (s : State) : Out :=
  let cool := (upFrom 0 12).all (fun n => decide (nth 0 temps n < (1680 : Int)))
  if s.off || s.dev == devTamper || (s.pwr.trip && !cool) then .next s
  else
    let b := s.coldClear strap s.sec.resetLow
    let b := if s.pwr.trip then
        { b with pwr := { b.pwr with trip := false } }.setF F.PWR_STATUS_TRIPPED 1 else b
    .next (b.toBoot false)

/-- RESET_N_SHORT_PULSE (R588): ignored. -/
def execResetNShortPulse (s : State) : Out := .next s

/-! ### Boot image and board section (R595, R596) -/

/-- The copies of the boot image in the order in which the ROM tries them (R616). -/
def State.bootOrder (s : State) : List Nat := [s.activeCopy, 1 - s.activeCopy]

/-- The first copy that passes R597, or the code of the last one tried. -/
def State.chooseCopy (s : State) : List Nat → Nat → Nat ⊕ List Byte
  | [], c => .inl c
  | i :: l, _ =>
    let b := nth [] s.sto.copies i
    match s.bootCheck b with
    | 0 => .inr (b.take (fieldAt b 8 4))
    | c => s.chooseCopy l c

/-- Entries of a board section: register offset and value, up to the end mark. -/
def boardEntries : Nat → List Byte → List (Nat × Nat)
  | 0, _ => []
  | n + 1, l =>
    let o := fieldAt l 0 4
    if l.length < 8 ∨ o = 0xFFFFFFFF then [] else (o, fieldAt l 4 4) :: boardEntries n (l.drop 8)

/-- The board section of the running image. -/
def State.board (s : State) : List (Nat × Nat) :=
  let n := fieldAt s.sec.image 20 4
  boardEntries (n / 8) ((s.sec.image.drop (fieldAt s.sec.image 16 4)).take n)

/-- One entry as an LCP write; a refused one is skipped and counted. A reset that the entry makes stands. -/
def State.boardOne (s : State) (e : WriteEnv) (off v : Nat) : State :=
  let st := F.GLB_STATUS_BAD_WIDTH.off
  if off % 4 ≠ 0 then s.bump F.SEC_BOOT_SKIP 1
  else
    let g := s.getReg st
    let t := (s.setReg st 0#32).ctlWrite e .lcp off (BitVec.ofNat 32 v)
    if t.getF F.SEC_BOOT_STEP ≠ s.getF F.SEC_BOOT_STEP then t
    else
      let refused := t.getReg st != 0#32
      let t := t.setReg st (g ||| t.getReg st)
      if refused then t.bump F.SEC_BOOT_SKIP 1 else t

/-- Applies entries in order while the boot step stays. -/
def State.boardApply (e : WriteEnv) (step : Nat) : List (Nat × Nat) → State → State
  | [], s => s
  | x :: l, s => if s.getF F.SEC_BOOT_STEP = step then State.boardApply e step l (s.boardOne e x.1 x.2) else s

/-- Applies the entries of a group of blocks. -/
def State.boardGroup (s : State) (e : WriteEnv) (p : Nat → Bool) : State :=
  State.boardApply e (s.getF F.SEC_BOOT_STEP) (s.board.filter (fun x => p x.1)) s

/-- Board claims of balls come into force; a claim that a tamper use pre-empts is dropped, with LOCKED_WRITE (R633). -/
def State.takePins (s : State) : State :=
  let off := F.GLB_PIN_BOARD_SYNC.off
  let v := (s.getReg off).toNat
  let gone := (upFrom 0 2).foldl (fun a t =>
    if bitsOf (s.fuse 6 0) t 1 = 1 then a + 2 ^ (14 + t) + 2 ^ (30 + t) else a) 0
  let s := s.setForce off (BitVec.ofNat 32 (v - (v &&& gone)))
  let s := if v &&& gone ≠ 0 then s.glbError F.GLB_STATUS_LOCKED_WRITE else s
  s.showPins

/-! ### Steps (Table BS-2) -/

/-- Boot ends in a failure (R591): the code, with the Aft half unpowered. -/
def State.bootFail (s : State) (code : Nat) : State :=
  let s := s.setF F.SEC_BOOT_CODE code
  let s := s.forCores (fun k s => s.setF (F.CORE_STATUS_PSTATE k) psDark)
  { s.setF F.BRG_STATUS_UP 0 with brg := { s.brg with training := false } }

/-- Sets the boot step in progress. -/
def State.atStep (s : State) (n : Nat) : State := s.setF F.SEC_BOOT_STEP n

/-- The public key and the device ID (R605). -/
def State.showKey (s : State) : State :=
  let s := (upFrom 0 24).foldl (fun s i => s.setF (F.SEC_DEVPUB i) (fieldAt Config.devPub (4 * i) 4)) s
  let h := Config.sha384 Config.devPub
  (s.setF F.SEC_DEVID_LO (h % 2 ^ 32)).setF F.SEC_DEVID_HI (h / 2 ^ 32 % 2 ^ 32)

/-- Step 2 ends (R605, R610, R611): the fuses and the device key are shown; a part whose latch is set stops in TAMPER_HOLD, after
power-on in unlock mode with a fresh nonce. -/
def State.endSelfCheck (s : State) : State :=
  let s := s.showFuses.showKey
  if !s.latched then s.startRom
  else
    let s := s.tamperBoot
    if s.flag F.SEC_STATUS_POR then
      ((upFrom 0 4).foldl (fun s i => (s.draw).2.setF (F.SEC_NONCE i) ((s.draw).1.toNat % 2 ^ 32)) s).setF F.SEC_STATUS_UNLOCK_MODE 1
    else s

/-- Step 4 begins: the watchdog is armed, the board section is applied to Fore blocks, and the probe list runs (R131, R589,
R596). -/
def State.startRails (s : State) (e : WriteEnv) (image : List Byte) : State :=
  let s := { s with sec := { s.sec with image := image, romMode := false, wdogOn := true, wdogAt := s.time.now } }
  let s := (s.atStep 4).boardGroup e (fun o => !aftBlock o && blockOf o != 12)
  if s.getF F.SEC_BOOT_STEP = 4 then (s.probeRun e.probe).takePins else s

/-- Step 3 ends (R595): a copy from flash passes, or the staged image has passed; BOOT = 011 falls back to ROM mode. -/
def State.endRom (s : State) (e : WriteEnv) : State :=
  if s.sec.romMode then s
  else if !s.sec.image.isEmpty then s.startRails e s.sec.image
  else if s.sec.strap = 0 ∨ s.sec.strap = 3 then
    match s.chooseCopy s.bootOrder 0 with
    | .inr l => s.startRails e l
    | .inl c =>
      if s.sec.strap = 0 then s.bootFail c
      else { s with sec := { s.sec with romMode := true } }.setF F.SEC_BOOT_RECOVERY 1
  else s

/-- The journal is mounted, or the data area is taken as empty (R621). -/
def State.mount (s : State) : State :=
  let s := s.setF F.STO_STATUS_WORN (match s.anchorNow with
    | some (_, _, _, w) => if w then 1 else 0
    | none => 0)
  if s.sto.formatted then s.showStore
  else ({ s with sto := { s.sto with objs := [] } }.setF F.STO_STATUS_MOUNT_ERR 1).showStore

/-- Step 5 ends (R417, R488, R596, R604, R608, R621, R633). -/
def State.endSecure (s : State) (e : WriteEnv) : State :=
  let s := s.acceptSvn 0 (fieldAt s.sec.image 6 1) (fieldAt s.sec.image 7 1 == 1)
  let level := max (s.getF F.SEC_TAMPER_CFG_LEVEL) (max 1 (s.fuse 5 0 % 4))
  let s := ((s.setF F.SEC_TAMPER_CFG_LEVEL level).setF F.SEC_STATUS_LEVEL level).setF F.SEC_TAMPER_CFG_LOCK 1
  let s := (s.setF F.STO_CFG_LOCK 1).setF F.GLB_PIN_LOCK_LOCK 1
  let s := s.setReg F.COF_KBASE_KBASE.off (BitVec.ofNat 32 ((s.ddrSize - 768 * 1048576) / 256))
  let s := s.setReg F.FLT_SAVE_BASE.off (BitVec.ofNat 32 ((s.ddrSize - 776 * 1048576) / 256))
  let s := { s.takeForces [F.COF_KBASE_KBASE.off, F.FLT_SAVE_BASE.off] with fwLocks := [7, 8] }
  ((s.mount.setF F.SEC_STATUS_SB_DONE 1).atStep 6).boardGroup e (fun o => blockOf o == 12)

/-- A core is powered in step 8: IDLE. What its loop starts from is not stated: free values within the island's ranges. -/
def State.powerUp (k : Fin 8) (s : State) : State :=
  let (x, s) := s.draw
  let (y, s) := s.draw
  let step := s.getF (F.FLT_CORE_STEP k)
  -- R484: a step held over a warm reset is in force again, step 4 as quarantine
  let i := { s.isl k with v := 580 + 5 * (x.toNat % 41), f := 200 + y.toNat % 1201, newStep := decide (0 < step) }
  let s := if step = 4 then s.setF (F.CORE_STATUS_QUAR k) 1 else s
  let s := if s.flag (F.FLT_CORE_CHK_OFF k) then (s.setF (F.CK_CTRL_ENABLE k) 0).takeForce (F.CK_CTRL_ENABLE k).off else s
  let s := (s.setIsl k i).setF (F.CORE_STATUS_PSTATE k) psIdle
  let s := (s.setF (F.PWR_ISL_ST_V_SET k) i.v).setF (F.PWR_ISL_ST_F_SET k) i.f
  let c := s.core k
  let s := s.setCore k { c with initAt := s.time.now, idleSince := s.time.now }
  let s := if c.initing then s.setF (F.SP_STATUS_INIT_DONE k) 0 else s
  -- R195: a dip of the retention supply was latched before the reset
  let s := if c.retLost then
      (((s.setCore k { s.core k with retLost := false }).setF (F.SP_STATUS_RET_LOST k) 1).reportAft
        (mkRec s.time.aft (coreUnit k 7) 0x13)).staleOnCore k else s
  if c.waking then s.setF (F.SP_STATUS_SCRUB_BUSY k) 1 else s

/-- A core's scratchpad begins to be initialised (R189). -/
def State.startInit (k : Fin 8) (s : State) : State :=
  (s.setCore k { s.core k with initing := true, initAt := s.time.now }).setF (F.SP_STATUS_INIT_DONE k) 0

/-- Step 8 ends: the board section's Aft entries; a cold boot then initialises every scratchpad, and a warm one goes on at step
10 (R594). -/
def State.endAft (s : State) (e : WriteEnv) : State :=
  let s := (s.forCores State.powerUp).boardGroup e (fun o => aftBlock o)
  if s.getF F.SEC_BOOT_STEP ≠ 8 then s
  else if s.flag F.SEC_BOOT_WARM then s.atStep 10 else (s.forCores State.startInit).atStep 9

/-- Owners after BOOT (R551). -/
def State.setOwners (s : State) : State :=
  let o := if s.sec.strap = 1 ∨ s.sec.strap = 3 then 2 else if s.sec.strap = 2 then 3 else 0
  (upFrom 0 24).foldl (fun s b => if b = 15 then s else s.setOwner b (if b = 9 then 1 else o)) s

/-- Step 10 ends: configuration requests are answered, and the part is READY. -/
def State.endBoot (s : State) : State :=
  let s := { s with host := { s.host with cfgUp := true }, sec := { s.sec with autoload := true } }
  ((s.setOwners).atStep 11).setF F.PWR_DEV_STATE devReady

/-- BOOT_STEP_COMPLETE (R590): the step in progress has done its work within its limit. -/
def execBootStepComplete (e : WriteEnv) (s : State) : Out :=
  if s.off || s.dev != devBoot || (s.getF F.SEC_BOOT_CODE != 0 && !s.sec.romMode) then .next s
  else
    .next (match s.getF F.SEC_BOOT_STEP with
      | 1 => if 4 ≤ s.sec.strap then s.bootFail 0x01 else s.atStep 2
      | 2 => s.endSelfCheck
      | 3 => s.endRom e
      | 4 => s.atStep 5
      | 5 => s.endSecure e
      | 6 => (s.atStep 7).brgTrain
      | 7 =>
        if s.brgUp then s.atStep 8
        else if s.brg.training then s else (s.setF F.SEC_STATUS_AFT_OFF 1).atStep 10
      | 8 => s.endAft e
      | 9 => if allCores.any (fun k => (s.core k).initing) then s else s.atStep 10
      | 10 => s.endBoot
      | _ => s)

/-- BOOT_STEP_TIMEOUT (R591): the step in progress fails with a code of Table BS-3, or exceeds its limit. ROM mode has none. -/
def execBootStepTimeout (code : Nat) (s : State) : Out :=
  if s.off || s.dev != devBoot || s.getF F.SEC_BOOT_CODE != 0 || s.sec.romMode then .next s
  else .next (s.bootFail (if 1 ≤ code ∧ code ≤ 0x0A then code else 0x0B))

/-! ### After READY -/

/-- Stored packages in ascending PACKAGE_ID. -/
def insertObj (o : StoObj) : List StoObj → List StoObj
  | [] => [o]
  | p :: l => if o.id < p.id then o :: p :: l else p :: insertObj o l

/-- PACKAGE_AUTOLOAD (R622): every stored model package is loaded, and the results are counted. `cut` names a package whose load a
tamper event aborts, and the rows written by then. -/
def execPackageAutoload (cut : Option (Nat × Nat)) (s : State) : Out :=
  if !s.served || !s.sec.autoload then .next s
  else
    let l := (s.sto.objs.filter (fun o => o.target == 1)).foldl (fun a o => insertObj o a) []
    let s := { s with sec := { s.sec with autoload := false } }
    .next (l.foldl (fun s o =>
      let c := match cut with
        | some (id, n) => if id = o.id then some n else none
        | none => none
      let (code, s) := s.loadPkg o.bytes c
      if code = 0 then s.bump F.STO_LOAD_OK 1 else s.bump F.STO_LOAD_FAIL 1) s)

/-- FLASH_OPERATION_DONE (R618): `bad` says that the sector just programmed reads back wrong. -/
def execFlashOperationDone (bad : Bool) (s : State) : Out := .next (s.flashDone bad)

end Sys2Proof.Machine
end

