-- ==== Sys2Proof/Machine/Host.lean ====
section
/-! DEFINITION. The host paths: BAR4 (R529, R530), the Bulk Port (R535–R539), the host serial port (R531–R533), configuration
requests (R592), and the PCIe link (R526, R555, R587). -/

namespace Sys2Proof.Machine

/-! ### Writes to device space -/

/-- Writes whole words to control registers through device space. -/
def State.regPuts (e : WriteEnv) (m : Master) (off : Nat) : List Byte → State → State
  | a :: b :: c :: d :: l, s => State.regPuts e m (off + 4) l (s.ctlWrite e m off (BitVec.ofNat 32 (leNat [a, b, c, d])))
  | _, s => s

/-- A write of bytes that is no scratchpad write: registers, or any other device address; a failure sets ERR of its channel. -/
def State.hostPutOne (s : State) (e : WriteEnv) (m : Master) (src a : Nat) (bs : List Byte) : State :=
  match s.region a with
  | .regs off =>
    if off % 4 = 0 ∧ bs.length % 4 = 0 then State.regPuts e m off bs s
    else s.accWrite e { m := m, off := off, width := bs.length, val := leNat bs }
  | _ =>
    let (cause, s) := s.devWrite (.host (masterRank m)) a (bs.map (fun b => (b, false))) false
    if cause ≠ 0 then s.bulkErr src else s

/-! ### BAR4 -/

/-- BAR4_ACCESS (R529): a write of the bytes given, or a read of `n` bytes, at an offset of BAR4. -/
def execBar4Access (off n : Nat) (data : Option (List Byte)) (e : WriteEnv) (s : State) : Out :=
  let w := off / 2 ^ 30 % 8
  let a := s.getF (F.HOST_W4_BASE w) * 2 ^ 30 + off % 2 ^ 30
  let on := s.flag (F.HOST_W4_ENABLE w)
  let unmapped := { mkRec s.time.now 0x03 0x01 with addr := off, akind := 1 }
  match data with
  | some bs =>
    if !s.pathOpen .host (F.HOST_W4_BASE w).off true then .next s
    else if !on then .next (s.report unmapped)
    else if s.gathers a then
      if s.host.rowWait.isEmpty then
        let (rest, s) := State.rowPutAll 2 (rowPuts a bs) s
        -- R530: a row that it completed frees its buffer
        .next { s with host := { s.host with rowWait := rest } }.rowRetry
      else .next { s with host := { s.host with rowWait := s.host.rowWait ++ rowPuts a bs } }
    else .next (s.hostPutOne e .host 2 a bs)
  | none =>
    if !s.pathOpen .host (F.HOST_W4_BASE w).off false then .next (s.answer .host (List.replicate n (0xFF, false)))
    else if !on then
      let (l, s) := s.refuseRead n unmapped
      .next (s.answer .host l)
    else
      match s.region a with
      | .regs r =>
        if n ≤ 8 then
          let (v, s) := s.accRead .host r n
          .next (s.emit (.answer 1 v false))
        else if r % 4 ≠ 0 ∨ n % 4 ≠ 0 then
          .next ((s.glbError F.GLB_STATUS_BAD_WIDTH).answer .host (List.replicate n (0, false)))
        else
          let (l, s) := s.regBytes .host r (n / 4)
          .next (s.answer .host l)
      | _ =>
        let (l, _, s) := State.readRuns .host (s.runsOf a n) s
        .next (s.answerRuns .host l)

/-! ### Bulk Port -/

/-- An access of a channel that breaks R535: it is dropped, with BAD_WIDTH. -/
def State.bulkBad (s : State) (c : Fin 2) : State :=
  let s := s.glbError F.GLB_STATUS_BAD_WIDTH
  if c = 1 then { s with host := { s.host with hspBad := true } } else s

/-- Bytes posted in a channel and not drained. -/
def BulkSt.held (x : BulkSt) : Nat := x.buf.foldl (fun a e => a + e.2.length) 0

/-- A data write has room in the 4 KiB buffer. -/
def BulkSt.room (x : BulkSt) (n : Nat) : Bool := x.buf.isEmpty || decide (x.held + n ≤ 4096)

/-- Posts a data write at the pointer (R535, R536). -/
def State.bulkPost (s : State) (c : Fin 2) (bs : List Byte) : State :=
  let p := s.bulkPtr c
  if bs.length % 4 ≠ 0 ∨ p % 4 ≠ 0 then s.bulkBad c
  else if bs.isEmpty then s
  else (s.setBulk c { s.bulk c with buf := (s.bulk c).buf ++ [(p, bs)], pre := [] }).setPtr c (s.bulkNext c p bs.length)

/-- Sets LATE or BAD of the HSP. -/
def State.hspLate (s : State) : State := { s with host := { s.host with hspLate := true } }
def State.hspBad (s : State) : State := { s with host := { s.host with hspBad := true } }

/-- A data write by a host path: staged in ROM mode (R595), posted, or kept waiting; a refused frame of the HSP sets BAD. -/
def State.bulkWrite (s : State) (c : Fin 2) (bs : List Byte) : State :=
  if s.off then s
  else if s.sec.romMode && s.dev == devBoot then
    if c.val ≠ s.romPath then (if c = 1 then s.hspBad else s)
    else if bs.length % 4 ≠ 0 then s.bulkBad c
    else { s with sec := { s.sec with stage := (s.sec.stage ++ bs).take stageSize } }
  else if !s.pathOpen (pathMaster c) (F.BULK_ADDR_LO c).off true then (if c = 1 then s.hspBad else s)
  else
    let x := s.bulk c
    if x.wait.isEmpty && x.room bs.length then s.bulkPost c bs
    else s.setBulk c { x with wait := x.wait ++ [.put bs], pre := [] }

/-- BULK_DATA_WRITE (R535, R536). -/
def execBulkDataWrite (c : Fin 2) (bs : List Byte) (s : State) : Out := .next (s.bulkWrite c bs)

/-- What the HSP returns: bytes. -/
def State.hspOut (s : State) (l : List Byte) : State := s.emit (.hsp l)

/-- A data read of a drained channel: answered on PCIe, or returned on the HSP, where what is not ready is zero with LATE and
what failed is zero with BAD (R533, R538). -/
def State.bulkReadNow (s : State) (c : Fin 2) (n ahead : Nat) : State :=
  let p := s.bulkPtr c
  let m := pathMaster c
  if n % 4 ≠ 0 ∨ p % 4 ≠ 0 then
    let s := s.bulkBad c
    if c = 0 then s.answer m (List.replicate n (0, false)) else s.hspOut (List.replicate n 0)
  else if c = 0 then
    let (l, _, s) := s.bulkRead c n ahead
    s.answerRuns m l
  else if (s.runsOf p n).any (fun r => s.runWaits 2 r.1) then
    ((s.setPtr c (s.bulkNext c p n)).hspLate).hspOut (List.replicate n 0)
  else
    let (l, bad, s) := s.bulkRead c n ahead
    let b := l.flatMap (·.getD [])
    if bad || b.any (·.2) then s.hspBad.hspOut (List.replicate n 0) else s.hspOut (b.map (·.1))

/-- A data read of the HSP whose zeros have been returned with LATE is performed once the channel has drained: its pointer moves, and
what it reads goes nowhere (R533, R535). A misaligned one was dropped. -/
def State.bulkReadLate (s : State) (c : Fin 2) (n ahead : Nat) : State :=
  let p := s.bulkPtr c
  if n % 4 ≠ 0 ∨ p % 4 ≠ 0 then s.bulkBad c
  else if (s.runsOf p n).any (fun r => s.runWaits 2 r.1) then s.setPtr c (s.bulkNext c p n)
  else (s.bulkRead c n ahead).2.2

/-- BULK_DATA_READ (R536, R537): `ahead` is how many bytes beyond the last one read the channel fetches, at most 1 KiB. A read waits
for the drain; on the HSP it returns zero with LATE meanwhile. A frame that is refused sets BAD. -/
def execBulkDataRead (c : Fin 2) (n ahead : Nat) (s : State) : Out :=
  let x := s.bulk c
  let m := pathMaster c
  if s.off then .next s
  else if !s.pathOpen m (F.BULK_ADDR_LO c).off false then
    .next (if c = 0 then s.answer m (List.replicate n (0xFF, false)) else s.hspBad.hspOut (List.replicate n 0xFF))
  else if x.buf.isEmpty && x.wait.isEmpty then .next (s.bulkReadNow c n ahead)
  else if c = 0 then .next (s.setBulk c { x with wait := x.wait ++ [.get n ahead] })
  else .next ((s.setBulk c { x with wait := x.wait ++ [.late n ahead] }).hspLate.hspOut (List.replicate n 0))

/-- Writes posted bytes to their destinations in order, as far as row buffers are free: what is left, and the state. -/
def State.drainBulk (e : WriteEnv) (c : Fin 2) : List (Nat × List Byte) → State → List (Nat × List Byte) × State
  | [], s => ([], s)
  | w :: l, s =>
    if s.gathers w.1 then
      let (rest, s) := State.rowPutAll c.val (rowPuts w.1 w.2) s
      if rest.isEmpty then State.drainBulk e c l s else (rest.map (fun p => (p.addr, p.bytes)) ++ l, s)
    else State.drainBulk e c l (s.hostPutOne e (pathMaster c) c.val w.1 w.2)

/-- Accesses that waited for the drain go on in order, until one must wait again: those left, and the state. -/
def State.bulkRelease (c : Fin 2) : List BulkAcc → State → List BulkAcc × State
  | [], s => ([], s)
  | .put bs :: l, s =>
    if (s.bulk c).room bs.length then State.bulkRelease c l (s.bulkPost c bs) else (.put bs :: l, s)
  | .reg off v :: l, s =>
    if (s.bulk c).buf.isEmpty then State.bulkRelease c l (s.bulkRegNow c (pathMaster c) off v) else (.reg off v :: l, s)
  | .get n ahead :: l, s =>
    if (s.bulk c).buf.isEmpty then State.bulkRelease c l (s.bulkReadNow c n ahead) else (.get n ahead :: l, s)
  | .late n ahead :: l, s =>
    if (s.bulk c).buf.isEmpty then State.bulkRelease c l (s.bulkReadLate c n ahead) else (.late n ahead :: l, s)

/-- BULK_DRAIN (R536, R539). -/
def execBulkDrain (c : Fin 2) (e : WriteEnv) (s : State) : Out :=
  let x := s.bulk c
  let (left, s) := State.drainBulk e c x.buf (s.setBulk c { x with buf := [] })
  -- R530: rows that it completed have freed their buffers
  let s := (s.setBulk c { s.bulk c with buf := left }).rowRetry
  if !left.isEmpty then .next s
  else
    let w := (s.bulk c).wait
    let (rest, s) := State.bulkRelease c w (s.setBulk c { s.bulk c with wait := [] })
    .next ((s.setBulk c { s.bulk c with wait := rest }).bellDue c)

/-! ### Host serial port -/

/-- The HSP answers frames: not in OFF, STANDBY and SLEEP, and in TAMPER_HOLD only in unlock mode (R611). -/
def State.hspAlive (s : State) : Bool :=
  !s.off && s.dev != devStandby && s.dev != devSleep && (s.dev != devTamper || s.flag F.SEC_STATUS_UNLOCK_MODE)

/-- Writes the words of a frame from an offset, noting a refused one. -/
def State.hspPuts (e : WriteEnv) (off : Nat) : List Byte → State → State
  | a :: b :: c :: d :: l, s =>
    let o := off % 2 ^ 21
    let s := if o % 4 ≠ 0 || (s.refuseWrite false .hsp o).isSome then s.hspBad else s
    State.hspPuts e (off + 4) l (s.accWrite e { m := .hsp, off := o, width := 4, val := leNat [a, b, c, d] })
  | _, s => s

/-- HSP_WRITE_FRAME (R531): the address phase and the data. -/
def execHspWriteFrame (addr : BitVec 32) (data : List Byte) (e : WriteEnv) (s : State) : Out :=
  if !s.hspAlive then .next s
  else
    let s := { s with host := { s.host with hspBad := false } }
    let a := addr.toNat
    if bitsOf a 31 1 = 1 ∨ 4096 < data.length then .next s.hspBad
    else if bitsOf a 30 1 = 1 then .next (s.bulkWrite 1 data)
    else
      let s := State.hspPuts e (bitsOf a 0 21) data s
      if data.length % 4 = 0 then .next s else .next (s.glbError F.GLB_STATUS_BAD_WIDTH).hspBad

/-- A register read of the HSP is refused: misaligned (R16), behind a closed path (R591), or in the Aft half while the bridge is down
(R33). -/
def State.hspRefuses (s : State) (off : Nat) : Bool :=
  off % 4 != 0 || !s.pathOpen .hsp off false || (aftBlock off && !s.brgUp)

/-- Reads the words of a frame: word `i` on; one named in `late` is returned as zero. A refused one sets BAD (R532). -/
def State.hspGets (late : List Nat) (off : Nat) : Nat → Nat → State → List Byte × State
  | 0, _, s => ([], s)
  | n + 1, i, s =>
    let s := if s.hspRefuses (off % 2 ^ 21) then s.hspBad else s
    let (v, s) := s.accRead .hsp (off % 2 ^ 21) 4
    let s := if late.contains i then s.hspLate else s
    let (l, s) := State.hspGets late (off + 4) n (i + 1) s
    (leBytes 4 (if late.contains i then 0 else v) ++ l, s)

/-- HSP_READ_FRAME (R533): the address phase and how many bytes are read; the words that are not ready by the end of the dummy
phase, none when DUMMY covers every block. A Bulk read may fetch `ahead` bytes. -/
def execHspReadFrame (addr : BitVec 32) (n ahead : Nat) (late : List Nat) (s : State) : Out :=
  if !s.hspAlive then .next s
  else
    let s := { s with host := { s.host with hspBad := false } }
    let a := addr.toNat
    if bitsOf a 31 1 = 1 ∨ 4096 < n then .next s.hspBad
    else if bitsOf a 30 1 = 1 then execBulkDataRead 1 n ahead s
    else
      let late := if s.getF F.HSP_CFG_DUMMY < 16 then late else []
      let (l, s) := State.hspGets late (bitsOf a 0 21) (n / 4) 0 s
      let s := s.hspOut l
      if n % 4 = 0 then .next s else .next (s.glbError F.GLB_STATUS_BAD_WIDTH).hspBad

/-- HSP_STATUS_FRAME (R532). -/
def execHspStatusFrame (s : State) : Out :=
  if !s.hspAlive then .next s
  else
    let b (x : Bool) (n : Nat) : Nat := if x then n else 0
    let v := b (!(s.bulk 1).buf.isEmpty) 1 + b s.host.hspLate 2 + b s.irqLow 4 + b s.host.hspBad 8
    .next ({ s with host := { s.host with hspLate := false, hspBad := false } }.hspOut (leBytes 1 v))

/-! ### PCIe endpoint -/

/-- The PCIe link goes down, or the endpoint is reset: its configuration space is reset, and in READY or RUN the loss is
recorded (R555). -/
def State.linkDown (s : State) : State :=
  if !s.flag F.HOST_STATUS_LINK_UP then s
  else
    let s := s.dropLink
    if !s.served then s
    else
      let s := (s.report (mkRec s.time.now 0x03 0x35)).setF F.HOST_STATUS_LINK_LOST 1
      { s with host := { s.host with lost := true } }.raiseCause 31

/-- PCIE_LINK_DOWN (R555). -/
def execPcieLinkDown (s : State) : Out := .next s.linkDown

/-- ENDPOINT_RESET (R587): only the endpoint is reset, as at a link loss. -/
def execEndpointReset (s : State) : Out := .next s.linkDown

/-- PCIE_LINK_UP (R547): the link trains while the HOST domain is powered, at a width and a generation of Table HO-1; it is held in
Detect in TAMPER_HOLD. -/
def execPcieLinkUp (width speed : BitVec 4) (s : State) : Out :=
  if !([1, 2, 4].contains width.toNat) || !([1, 2, 3, 4].contains speed.toNat) then .next s
  else if s.off || [devStandby, devSleep, devTamper].contains s.dev || s.flag F.HOST_STATUS_LINK_UP then .next s
  else
    let s := (s.setF F.HOST_STATUS_WIDTH width.toNat).setF F.HOST_STATUS_SPEED speed.toNat
    .next ((s.setF F.HOST_STATUS_LINK_UP 1).raiseCause 31)

/-- HOST_READ_FAIL (R526): reads of bus addresses [lo, lo + n) time out or err from now on, or again complete. -/
def execHostReadFail (lo n : Nat) (fails : Bool) (s : State) : Out :=
  let l := s.host.failing.filter (fun f => f != (lo, lo + n))
  .next { s with host := { s.host with failing := if fails then (lo, lo + n) :: l else l } }

/-- Which bits of a BAR dword hold an address, and what its other bits read as: BAR0 2 MiB, BAR2 64 KiB and BAR4 8 GiB, each 64-bit,
BAR4 prefetchable (Table HO-2). -/
def barForm (i : Fin 6) : Nat × Nat :=
  let top (w : Nat) : Nat := 2 ^ 32 - 2 ^ w
  (#v[(top 21, 4), (top 0, 0), (top 16, 4), (top 0, 0), (0, 12), (top 1, 0)] : Vector (Nat × Nat) 6)[i]

/-- The BAR dword at an offset of the configuration space. -/
def barAt (off : Nat) : Option (Fin 6) :=
  let i := off / 4
  if h : 4 ≤ i ∧ i < 10 then some ⟨i - 4, by omega⟩ else none

/-! The configuration space has the registers that PCI Express gives a function with the options of Table HO-1. PRESUMED: their
layout; DESIGN CHOICE: the order of the capabilities; what lies between them is free (log entry 131). A dword is given as its fixed part and a mask of the bits that
the spec leaves open, which a read answers free. -/

/-- Lengths in dwords of the capabilities: 0 power management, 1 PCIe, 2 MSI-X, 3 Advanced Error Reporting, 4 device serial number,
5 LTR. -/
def capLen (i : Nat) : Nat := nth 0 [2, 15, 3, 11, 3, 2] i

/-- The dword at which a capability begins: three behind the header, and from dword 64 on the extended ones. -/
def capAt (i : Nat) : Nat :=
  let g (i : Nat) : Nat := Config.capGap i % 10
  nth 0 [16 + g 0, 18 + g 0 + g 1, 33 + g 0 + g 1 + g 2, 64, 75 + g 4, 78 + g 4 + g 5] i

/-- The capability a dword lies in, and its place there. -/
def capOf (d : Nat) : Option (Nat × Nat) :=
  ((upFrom 0 6).find? (fun i => decide (capAt i ≤ d ∧ d < capAt i + capLen i))).map (fun i => (i, d - capAt i))

/-- What a host wrote last in a dword that `CfgSpace.words` holds. -/
def State.cfgHeld (s : State) (d : Nat) : Nat := (mget (dflt 0#32) s.host.cfg.words d).toNat

/-- A dword of the type 0 header: Table SC-6, the BARs of Table HO-2, a capability list, no expansion ROM and no INTx pin. -/
def State.headWord (s : State) (d : Nat) : Nat × Nat :=
  match d with
  | 0 => (0x1F3C + 0x0880 * 65536, 0)
  | 1 => (s.host.cfg.cmd + 2 ^ 20, 0xFF000000)
  | 2 => (s.getF F.GLB_ID1_STEPPING + 0x120000 * 256, 0)
  | 3 => (s.cfgHeld 3, 0)
  | 11 => (0x1F3C + (if s.getF F.GLB_ID1_GRADE = 2 then 2 else 1) * 65536, 0)
  | 13 => (4 * capAt 0, 0)
  | 15 => (s.cfgHeld 15, 0)
  | _ => (((barAt (4 * d)).map (fun i => s.host.bars[i] + (barForm i).2)).getD 0, 0)

/-- Dword `j` of capability `i` (Table HO-1): D1 and D2 absent; payload up to 256 bytes and 8-bit extended tags; ×4 at Gen4 and ASPM
L1; completion timeout ranges A and B, not to be disabled; LTR; 32 MSI-X vectors, the table at 0x03_F000 and the PBA at 0x03_F800 of
BAR0; the device serial number. -/
def State.capWord (s : State) (i j : Nat) : Nat × Nat :=
  let c := s.host.cfg
  let next (k : Nat) : Nat := 4 * capAt k
  match i, j with
  | 0, 0 => (0x01 + next 1 * 2 ^ 8 + 3 * 2 ^ 16, 0)
  | 0, _ => (8 + c.pmcsr, 0)
  | 1, 0 => (0x10 + next 2 * 2 ^ 8 + 2 * 2 ^ 16, 0)
  | 1, 1 => (0x8021, 0x0FFC0FC0)
  | 1, 2 => (c.devCtl, 0x003F0000)
  | 1, 3 => (4 + 4 * 2 ^ 4 + 2 * 2 ^ 10, 0xFFFFF000)
  | 1, 4 => (s.cfgHeld (capAt 1 + 4) + s.getF F.HOST_STATUS_SPEED * 2 ^ 16 + s.getF F.HOST_STATUS_WIDTH * 2 ^ 20, 0xFC000000)
  | 1, 9 => (3 + 2 ^ 11, 0)
  | 1, 10 => (c.devCtl2, 0)
  | 1, 11 => (0x1E, 0)
  | 1, 12 => (s.cfgHeld (capAt 1 + 12), 0xFFFF0000)
  | 1, _ => (0, 0)
  | 2, 0 => (0x11 + 31 * 2 ^ 16 + c.msix * 2 ^ 16, 0)
  | 2, 1 => (0x03F000, 0)
  | 2, _ => (0x03F800, 0)
  | 3, 0 => (0x0001 + 2 * 2 ^ 16 + next 4 * 2 ^ 20, 0)
  | 3, _ =>
    let v := s.cfgHeld (capAt 3 + j)
    (v, if v = 0 then 0xFFFFFFFF else 0)
  | 4, 0 => (0x0003 + 2 ^ 16 + next 5 * 2 ^ 20, 0)
  | 4, 1 => (s.getF F.SEC_DEVID_LO, 0)
  | 4, _ => (s.getF F.SEC_DEVID_HI, 0)
  | _, 0 => (0x0018 + 2 ^ 16, 0)
  | _, _ => (s.cfgHeld (capAt 5 + 1), 0)

/-- A dword of the configuration space: its fixed part, and the bits that are open. -/
def State.cfgWord (s : State) (d : Nat) : Nat × Nat :=
  if d < 16 then s.headWord d
  else match capOf d with
    | some (i, j) => s.capWord i j
    | none => (0, 0xFFFFFFFF)

/-- State with its configuration space replaced. -/
def State.setCfg (s : State) (c : CfgSpace) : State := { s with host := { s.host with cfg := c } }

/-- A field of a configuration register takes a value that is supported; any other leaves it as it was. -/
def cfgField (old new lo w : Nat) (ok : List Nat) : Nat := (if ok.contains (bitsOf new lo w) then bitsOf new lo w else bitsOf old lo w) * 2 ^ lo

/-- A write of dword `j` of capability `i`: no D1 or D2, payload and read request sizes, timeout ranges and ASPM states of Table HO-1
only. -/
def State.capWrite (s : State) (i j v : Nat) : State :=
  let c := s.host.cfg
  let keep (m : Nat) : State := s.setCfg { c with words := mset (dflt 0#32) c.words (capAt i + j) (BitVec.ofNat 32 (v &&& m)) }
  match i, j with
  | 0, 1 => s.setCfg { c with pmcsr := cfgField c.pmcsr v 0 2 [0, 3] }
  | 1, 2 =>
    s.setCfg { c with devCtl := (v &&& 0x091F) + cfgField c.devCtl v 5 3 [0, 1] + cfgField c.devCtl v 12 3 [0, 1, 2] }
  | 1, 4 => keep (if [0, 2].contains (v % 4) then 0xCA else 0xC8)
  | 1, 10 => s.setCfg { c with devCtl2 := (v &&& 0x0400) + cfgField c.devCtl2 v 0 4 [0, 1, 2, 5, 6] }
  | 1, 12 => keep 0xF
  | 2, 0 => s.setCfg { c with msix := (v / 2 ^ 16) &&& 0xC000 }
  | 3, 2 => keep 0xFFFFFFFF
  | 3, 3 => keep 0xFFFFFFFF
  | 3, 5 => keep 0xFFFFFFFF
  | 3, 6 => keep 0xFFFFFFFF
  | 5, 1 => keep 0xFFFFFFFF
  | _, _ => s

/-- A write of a dword of the configuration space. -/
def State.cfgWrite (s : State) (d v : Nat) : State :=
  let c := s.host.cfg
  match barAt (4 * d) with
  | some i => { s with host := { s.host with bars := s.host.bars.set i (v &&& (barForm i).1) } }
  | none =>
    if d = 1 then s.setCfg { c with cmd := v &&& 0x0546 }
    else if d = 3 ∨ d = 15 then s.setCfg { c with words := mset (dflt 0#32) c.words d (BitVec.ofNat 32 (v % 256)) }
    else if d < 16 then s
    else match capOf d with
      | some (i, j) => s.capWrite i j v
      | none => s

/-- CONFIGURATION_REQUEST (R525, R592): a read (no value) or a write of a dword of the configuration space. -/
def execConfigurationRequest (off : Nat) (val : Option Word) (s : State) : Out :=
  if s.off || !s.flag F.HOST_STATUS_LINK_UP then .next s
  else
    let rom := s.dev == devBoot && s.sec.romMode
    let failed := s.dev == devBoot && s.getF F.SEC_BOOT_CODE != 0
    if !(s.host.cfgUp || rom || failed) then .next (s.emit .cfgRetry)
    else
      match val with
      | some v => .next (s.cfgWrite (off / 4) v.toNat)
      | none =>
        let (v, open_) := s.cfgWord (off / 4)
        if open_ = 0 then .next (s.emit (.cfg v))
        else .next ((s.draw).2.emit (.cfg (v + ((s.draw).1.toNat &&& open_))))

end Sys2Proof.Machine
end

