-- ==== Sys2Proof/Machine/Dispatch.lean ====
section
/-! DEFINITION. Which meaning each command has: one arm per constructor of `Instr`. -/

namespace Sys2Proof.Machine

/-- The effect of a command on everything but the queue. -/
def exec (i : Instr) (s : State) : Host.Outcome State Fault Refusal :=
  match i with
  | .registerWrite e l => Sys2Proof.Machine.execRegisterWrite e l s
  | .timeNowLoRead m => Sys2Proof.Machine.execTimeNowLoRead m s
  | .digResLoRead k m => Sys2Proof.Machine.execDigResLoRead k m s
  | .brgTrain m v => Sys2Proof.Machine.execBrgTrain m v s
  | .brgTrainingDone badF badA tdelay => Sys2Proof.Machine.execBrgTrainingDone badF badA tdelay s
  | .brgTrainingFail badF badA => Sys2Proof.Machine.execBrgTrainingFail badF badA s
  | .brgClrCnt m v => Sys2Proof.Machine.execBrgClrCnt m v s
  | .bridgeGroupReceive d g => Sys2Proof.Machine.execBridgeGroupReceive d g s
  | .bridgeMessageSend d offered => Sys2Proof.Machine.execBridgeMessageSend d offered s
  | .bridgeMessageReceive b => Sys2Proof.Machine.execBridgeMessageReceive b s
  | .bridgeTimeMessage d => Sys2Proof.Machine.execBridgeTimeMessage d s
  | .bridgeNakLimit d => Sys2Proof.Machine.execBridgeNakLimit d s
  | .bridgeLockLoss d lanes => Sys2Proof.Machine.execBridgeLockLoss d lanes s
  | .laneSwap d lane => Sys2Proof.Machine.execLaneSwap d lane s
  | .laneFailNoSpare d lane => Sys2Proof.Machine.execLaneFailNoSpare d lane s
  | .bridgeRetrainTimer => Sys2Proof.Machine.execBridgeRetrainTimer s
  | .stripeStart id k => Sys2Proof.Machine.execStripeStart id k s
  | .stripeAbort id => Sys2Proof.Machine.execStripeAbort id s
  | .bandComplete id => Sys2Proof.Machine.execBandComplete id s
  | .timeSet m v => Sys2Proof.Machine.execTimeSet m v s
  | .dtimeStepDone => Sys2Proof.Machine.execDtimeStepDone s
  | .timeSlewWrite m v => Sys2Proof.Machine.execTimeSlewWrite m v s
  | .fsgEdge n => Sys2Proof.Machine.execFsgEdge n s
  | .fsgPulseEnd n => Sys2Proof.Machine.execFsgPulseEnd n s
  | .stClr m v => Sys2Proof.Machine.execStClr m v s
  | .longPacket p vc dt ecc crcOk payload => Sys2Proof.Machine.execLongPacket p vc dt ecc crcOk payload s
  | .lineStartPacket p vc ecc line => Sys2Proof.Machine.execLineStartPacket p vc ecc line s
  | .frameStartPacket p vc ecc => Sys2Proof.Machine.execFrameStartPacket p vc ecc s
  | .frameEndPacket p vc ecc => Sys2Proof.Machine.execFrameEndPacket p vc ecc s
  | .frameTimeout n => Sys2Proof.Machine.execFrameTimeout n s
  | .deskewBurst p rate steps => Sys2Proof.Machine.execDeskewBurst p rate steps s
  | .inCtxRelease n m v => Sys2Proof.Machine.execInCtxRelease n m v s
  | .defectSwap m v => Sys2Proof.Machine.execDefectSwap m v s
  | .i2cGo m sda mm v => Sys2Proof.Machine.execI2cGo m sda mm v s
  | .i2cFrameListStart m sda => Sys2Proof.Machine.execI2cFrameListStart m sda s
  | .i2cDescriptorDone m ack bytes sda => Sys2Proof.Machine.execI2cDescriptorDone m ack bytes sda s
  | .i2cStretchTimeout m e => Sys2Proof.Machine.execI2cStretchTimeout m e s
  | .probeGo res m v => Sys2Proof.Machine.execProbeGo res m v s
  | .trigFire t m v => Sys2Proof.Machine.execTrigFire t m v s
  | .triggerEdge t => Sys2Proof.Machine.execTriggerEdge t s
  | .rstRelease m v => Sys2Proof.Machine.execRstRelease m v s
  | .coreHalt k x m v => Sys2Proof.Machine.execCoreHalt k x m v s
  | .coreResume k x m v => Sys2Proof.Machine.execCoreResume k x m v s
  | .clrSat k m v => Sys2Proof.Machine.execClrSat k m v s
  | .clrPerf k m v => Sys2Proof.Machine.execClrPerf k m v s
  | .unitInstructionStart k x u par conf => Sys2Proof.Machine.execUnitInstructionStart k x u par conf s
  | .unitInstructionComplete k x u par => Sys2Proof.Machine.execUnitInstructionComplete k x u par s
  | .issueStallRelease k x => Sys2Proof.Machine.execIssueStallRelease k x s
  | .pairDigest p => Sys2Proof.Machine.execPairDigest p s
  | .pairTimeout p => Sys2Proof.Machine.execPairTimeout p s
  | .scrubPassStart k => Sys2Proof.Machine.execScrubPassStart k s
  | .scrubRow k e => Sys2Proof.Machine.execScrubRow k e s
  | .scratchpadInitDone k fails => Sys2Proof.Machine.execScratchpadInitDone k fails s
  | .heldAccessTimeout k => Sys2Proof.Machine.execHeldAccessTimeout k s
  | .wakePassDone k => Sys2Proof.Machine.execWakePassDone k s
  | .weightWriteEnd k => Sys2Proof.Machine.execWeightWriteEnd k s
  | .inboundRowWrite k job r e => Sys2Proof.Machine.execInboundRowWrite k job r e s
  | .spClr k m v => Sys2Proof.Machine.execSpClr k m v s
  | .add k x => Sys2Proof.Machine.execAdd k x s
  | .sub k x => Sys2Proof.Machine.execSub k x s
  | .andOp k x => Sys2Proof.Machine.execAndOp k x s
  | .orOp k x => Sys2Proof.Machine.execOrOp k x s
  | .xorOp k x => Sys2Proof.Machine.execXorOp k x s
  | .sll k x => Sys2Proof.Machine.execSll k x s
  | .srl k x => Sys2Proof.Machine.execSrl k x s
  | .sra k x => Sys2Proof.Machine.execSra k x s
  | .mul k x => Sys2Proof.Machine.execMul k x s
  | .mulh k x => Sys2Proof.Machine.execMulh k x s
  | .mulhu k x => Sys2Proof.Machine.execMulhu k x s
  | .min k x => Sys2Proof.Machine.execMin k x s
  | .max k x => Sys2Proof.Machine.execMax k x s
  | .minu k x => Sys2Proof.Machine.execMinu k x s
  | .maxu k x => Sys2Proof.Machine.execMaxu k x s
  | .eq k x => Sys2Proof.Machine.execEq k x s
  | .ne k x => Sys2Proof.Machine.execNe k x s
  | .lt k x => Sys2Proof.Machine.execLt k x s
  | .ge k x => Sys2Proof.Machine.execGe k x s
  | .ltu k x => Sys2Proof.Machine.execLtu k x s
  | .geu k x => Sys2Proof.Machine.execGeu k x s
  | .tst k x => Sys2Proof.Machine.execTst k x s
  | .pand k x => Sys2Proof.Machine.execPand k x s
  | .por k x => Sys2Proof.Machine.execPor k x s
  | .pxor k x => Sys2Proof.Machine.execPxor k x s
  | .pandn k x => Sys2Proof.Machine.execPandn k x s
  | .pnot k x => Sys2Proof.Machine.execPnot k x s
  | .ptos k x => Sys2Proof.Machine.execPtos k x s
  | .predStop k x => Sys2Proof.Machine.execPredStop k x s
  | .lb k x => Sys2Proof.Machine.execLb k x s
  | .lbu k x => Sys2Proof.Machine.execLbu k x s
  | .lh k x => Sys2Proof.Machine.execLh k x s
  | .lhu k x => Sys2Proof.Machine.execLhu k x s
  | .lw k x => Sys2Proof.Machine.execLw k x s
  | .sb k x => Sys2Proof.Machine.execSb k x s
  | .sh k x => Sys2Proof.Machine.execSh k x s
  | .sw k x => Sys2Proof.Machine.execSw k x s
  | .dget k x => Sys2Proof.Machine.execDget k x s
  | .dset k x => Sys2Proof.Machine.execDset k x s
  | .dld k x => Sys2Proof.Machine.execDld k x s
  | .dsto k x => Sys2Proof.Machine.execDsto k x s
  | .dcpy k x => Sys2Proof.Machine.execDcpy k x s
  | .info k x => Sys2Proof.Machine.execInfo k x s
  | .br k x => Sys2Proof.Machine.execBr k x s
  | .bcc k x => Sys2Proof.Machine.execBcc k x s
  | .call k x => Sys2Proof.Machine.execCall k x s
  | .jr k x => Sys2Proof.Machine.execJr k x s
  | .endstripe k x => Sys2Proof.Machine.execEndstripe k x s
  | .eret k x => Sys2Proof.Machine.execEret k x s
  | .twait k x => Sys2Proof.Machine.execTwait k x s
  | .twaitm k x => Sys2Proof.Machine.execTwaitm k x s
  | .ttest k x => Sys2Proof.Machine.execTtest k x s
  | .bar k x => Sys2Proof.Machine.execBar k x s
  | .gsend k x => Sys2Proof.Machine.execGsend k x s
  | .grecv k x => Sys2Proof.Machine.execGrecv k x s
  | .guylineRowsArrive k x e => Sys2Proof.Machine.execGuylineRowsArrive k x e s
  | .wwait k x => Sys2Proof.Machine.execWwait k x s
  | .trap k x => Sys2Proof.Machine.execTrap k x s
  | .halt k x => Sys2Proof.Machine.execHalt k x s
  | .crr k x => Sys2Proof.Machine.execCrr k x s
  | .crw k x => Sys2Proof.Machine.execCrw k x s
  | .controlRegisterAnswer k x e => Sys2Proof.Machine.execControlRegisterAnswer k x e s
  | .srseed k x => Sys2Proof.Machine.execSrseed k x s
  | .logput k x => Sys2Proof.Machine.execLogput k x s
  | .conv k x => Sys2Proof.Machine.execConv k x s
  | .wino k x => Sys2Proof.Machine.execWino k x s
  | .mmul k x => Sys2Proof.Machine.execMmul k x s
  | .dwconv k x => Sys2Proof.Machine.execDwconv k x s
  | .ewise k x => Sys2Proof.Machine.execEwise k x s
  | .lutDirect k x => Sys2Proof.Machine.execLutDirect k x s
  | .lutPwl k x => Sys2Proof.Machine.execLutPwl k x s
  | .pool k x => Sys2Proof.Machine.execPool k x s
  | .resize k x => Sys2Proof.Machine.execResize k x s
  | .argmax k x => Sys2Proof.Machine.execArgmax k x s
  | .dcmpCompare k x => Sys2Proof.Machine.execDcmpCompare k x s
  | .dcmpForce k x => Sys2Proof.Machine.execDcmpForce k x s
  | .dmrgMerge k x => Sys2Proof.Machine.execDmrgMerge k x s
  | .dmrgAdd k x => Sys2Proof.Machine.execDmrgAdd k x s
  | .dmrgDilate k x => Sys2Proof.Machine.execDmrgDilate k x s
  | .bwdDgrad k x => Sys2Proof.Machine.execBwdDgrad k x s
  | .bwdWgrad k x => Sys2Proof.Machine.execBwdWgrad k x s
  | .opt k x => Sys2Proof.Machine.execOpt k x s
  | .xfixShelf k x => Sys2Proof.Machine.execXfixShelf k x s
  | .xfixDrawer k x => Sys2Proof.Machine.execXfixDrawer k x s
  | .dmaRead k x => Sys2Proof.Machine.execDmaRead k x s
  | .dmaWrite k x => Sys2Proof.Machine.execDmaWrite k x s
  | .rxferRead k x => Sys2Proof.Machine.execRxferRead k x s
  | .rxferWrite k x => Sys2Proof.Machine.execRxferWrite k x s
  | .rcopy k x => Sys2Proof.Machine.execRcopy k x s
  | .smld k x => Sys2Proof.Machine.execSmld k x s
  | .smst k x => Sys2Proof.Machine.execSmst k x s
  | .psend k x => Sys2Proof.Machine.execPsend k x s
  | .qstatCurrent k x => Sys2Proof.Machine.execQstatCurrent k x s
  | .qstatHistory k x => Sys2Proof.Machine.execQstatHistory k x s
  | .quant k x => Sys2Proof.Machine.execQuant k x s
  | .deqFloat k x => Sys2Proof.Machine.execDeqFloat k x s
  | .deqIntmul k x => Sys2Proof.Machine.execDeqIntmul k x s
  | .qcvt k x => Sys2Proof.Machine.execQcvt k x s
  | .ckctl k x => Sys2Proof.Machine.execCkctl k x s
  | .digest k x => Sys2Proof.Machine.execDigest k x s
  | .ptest k x => Sys2Proof.Machine.execPtest k x s
  | .checkBlockDone k x o p lines errs => Sys2Proof.Machine.execCheckBlockDone k x o p lines errs s
  | .replayDone k x lines errs => Sys2Proof.Machine.execReplayDone k x lines errs s
  | .edgePlaneRowStart id post => Sys2Proof.Machine.execEdgePlaneRowStart id post s
  | .pack => Sys2Proof.Machine.execPack s
  | .econv => Sys2Proof.Machine.execEconv s
  | .emit => Sys2Proof.Machine.execEmit s
  | .take => Sys2Proof.Machine.execTake s
  | .shuffle => Sys2Proof.Machine.execShuffle s
  | .edgeArgmax => Sys2Proof.Machine.execEdgeArgmax s
  | .boxdec => Sys2Proof.Machine.execBoxdec s
  | .nms => Sys2Proof.Machine.execNms s
  | .outRec => Sys2Proof.Machine.execOutRec s
  | .edgeEnd => Sys2Proof.Machine.execEdgeEnd s
  | .edgeClr m v => Sys2Proof.Machine.execEdgeClr m v s
  | .dxInvalidate m v => Sys2Proof.Machine.execDxInvalidate m v s
  | .dxClr m v => Sys2Proof.Machine.execDxClr m v s
  | .sessionStepStart => Sys2Proof.Machine.execSessionStepStart s
  | .streamFrameStart n => Sys2Proof.Machine.execStreamFrameStart n s
  | .lineReadyCheck n => Sys2Proof.Machine.execLineReadyCheck n s
  | .outfeedLineTime n => Sys2Proof.Machine.execOutfeedLineTime n s
  | .cut n m v => Sys2Proof.Machine.execCut n m v s
  | .cutClose n => Sys2Proof.Machine.execCutClose n s
  | .streamRelease n m v => Sys2Proof.Machine.execStreamRelease n m v s
  | .tapRelease t m v => Sys2Proof.Machine.execTapRelease t m v s
  | .loadSenseGo m v => Sys2Proof.Machine.execLoadSenseGo m v s
  | .loadSenseDone lanes => Sys2Proof.Machine.execLoadSenseDone lanes s
  | .sourceStoreSpace => Sys2Proof.Machine.execSourceStoreSpace s
  | .slotHeaderWrite n h => Sys2Proof.Machine.execSlotHeaderWrite n h s
  | .ksload b => Sys2Proof.Machine.execKsload b s
  | .ksunload b => Sys2Proof.Machine.execKsunload b s
  | .cofsub b => Sys2Proof.Machine.execCofsub b s
  | .engineStart => Sys2Proof.Machine.execEngineStart s
  | .endGate => Sys2Proof.Machine.execEndGate s
  | .linGate => Sys2Proof.Machine.execLinGate s
  | .notGate => Sys2Proof.Machine.execNotGate s
  | .trivGate => Sys2Proof.Machine.execTrivGate s
  | .constGate => Sys2Proof.Machine.execConstGate s
  | .gateAnd => Sys2Proof.Machine.execGateAnd s
  | .gateOr => Sys2Proof.Machine.execGateOr s
  | .gateXor => Sys2Proof.Machine.execGateXor s
  | .nand => Sys2Proof.Machine.execNand s
  | .nor => Sys2Proof.Machine.execNor s
  | .xnor => Sys2Proof.Machine.execXnor s
  | .muxGate => Sys2Proof.Machine.execMuxGate s
  | .lut3 => Sys2Proof.Machine.execLut3 s
  | .refreshPass => Sys2Proof.Machine.execRefreshPass s
  | .keyStreamData n => Sys2Proof.Machine.execKeyStreamData n s
  | .keyDigestRecheck => Sys2Proof.Machine.execKeyDigestRecheck s
  | .cofCancel m v => Sys2Proof.Machine.execCofCancel m v s
  | .cofFlush m v => Sys2Proof.Machine.execCofFlush m v s
  | .cofClr m v => Sys2Proof.Machine.execCofClr m v s
  | .ckClr k m v => Sys2Proof.Machine.execCkClr k m v s
  | .digGo k m v => Sys2Proof.Machine.execDigGo k m v s
  | .digestDone k err => Sys2Proof.Machine.execDigestDone k err s
  | .repairCopyDone k err => Sys2Proof.Machine.execRepairCopyDone k err s
  | .digestSweep => Sys2Proof.Machine.execDigestSweep s
  | .sweepNow m v => Sys2Proof.Machine.execSweepNow m v s
  | .faultRecord aft => Sys2Proof.Machine.execFaultRecord aft s
  | .killNotice g => Sys2Proof.Machine.execKillNotice g s
  | .relax k m v => Sys2Proof.Machine.execRelax k m v s
  | .forceQ k m v => Sys2Proof.Machine.execForceQ k m v s
  | .testreq b => Sys2Proof.Machine.execTestreq b s
  | .testPeriod => Sys2Proof.Machine.execTestPeriod s
  | .testSlotOpen k => Sys2Proof.Machine.execTestSlotOpen k s
  | .testSlotTimeout k => Sys2Proof.Machine.execTestSlotTimeout k s
  | .testSlotDone k cycles => Sys2Proof.Machine.execTestSlotDone k cycles s
  | .urgentBorrow => Sys2Proof.Machine.execUrgentBorrow s
  | .lnkTrain p m v => Sys2Proof.Machine.execLnkTrain p m v s
  | .lnkTrainingDone p good rev loss cap0 cap1 => Sys2Proof.Machine.execLnkTrainingDone p good rev loss cap0 cap1 s
  | .lnkTrainingFail p e => Sys2Proof.Machine.execLnkTrainingFail p e s
  | .linkRetrainTimer p => Sys2Proof.Machine.execLinkRetrainTimer p s
  | .linkGroupReceive p g => Sys2Proof.Machine.execLinkGroupReceive p g s
  | .linkNakLimit p => Sys2Proof.Machine.execLinkNakLimit p s
  | .linkFlitTimeout p => Sys2Proof.Machine.execLinkFlitTimeout p s
  | .linkLockLoss p => Sys2Proof.Machine.execLinkLockLoss p s
  | .partnerLost p => Sys2Proof.Machine.execPartnerLost p s
  | .linkMessageSend p => Sys2Proof.Machine.execLinkMessageSend p s
  | .windowMessage b rest => Sys2Proof.Machine.execWindowMessage b rest s
  | .rxferAck b => Sys2Proof.Machine.execRxferAck b s
  | .linkTimeExchange p t1 t2 t3 t4 => Sys2Proof.Machine.execLinkTimeExchange p t1 t2 t3 t4 s
  | .syncEdgeTime p v n => Sys2Proof.Machine.execSyncEdgeTime p v n s
  | .remoteRegisterAccess b e => Sys2Proof.Machine.execRemoteRegisterAccess b e s
  | .windowOpenInbound b => Sys2Proof.Machine.execWindowOpenInbound b s
  | .windowCloseInbound b => Sys2Proof.Machine.execWindowCloseInbound b s
  | .windowOpenOutbound b => Sys2Proof.Machine.execWindowOpenOutbound b s
  | .windowCloseOutbound b => Sys2Proof.Machine.execWindowCloseOutbound b s
  | .closeNotice b => Sys2Proof.Machine.execCloseNotice b s
  | .windowCloseDeadline n => Sys2Proof.Machine.execWindowCloseDeadline n s
  | .nop b => Sys2Proof.Machine.execNop b s
  | .loadpkg b cut => Sys2Proof.Machine.execLoadpkg b cut s
  | .unloadpkg b => Sys2Proof.Machine.execUnloadpkg b s
  | .loadimg b => Sys2Proof.Machine.execLoadimg b s
  | .unload b => Sys2Proof.Machine.execUnload b s
  | .start b => Sys2Proof.Machine.execStart b s
  | .stop b => Sys2Proof.Machine.execStop b s
  | .route b => Sys2Proof.Machine.execRoute b s
  | .storewr c => Sys2Proof.Machine.execStorewr c s
  | .claim b => Sys2Proof.Machine.execClaim b s
  | .claimRelease b => Sys2Proof.Machine.execClaimRelease b s
  | .sqDoorbell b m v => Sys2Proof.Machine.execSqDoorbell b m v s
  | .commandFetch b => Sys2Proof.Machine.execCommandFetch b s
  | .cqHeadWrite b m v => Sys2Proof.Machine.execCqHeadWrite b m v s
  | .hostImaskWrite m v => Sys2Proof.Machine.execHostImaskWrite m v s
  | .hostMboxIn l => Sys2Proof.Machine.execHostMboxIn l s
  | .pcieLinkDown => Sys2Proof.Machine.execPcieLinkDown s
  | .ringEnable b m v => Sys2Proof.Machine.execRingEnable b m v s
  | .hostReadFail lo n fails => Sys2Proof.Machine.execHostReadFail lo n fails s
  | .bar4Access off n data e => Sys2Proof.Machine.execBar4Access off n data e s
  | .bulkDataWrite c bs => Sys2Proof.Machine.execBulkDataWrite c bs s
  | .bulkDataRead c n ahead => Sys2Proof.Machine.execBulkDataRead c n ahead s
  | .bulkPointerWrite c reg m v => Sys2Proof.Machine.execBulkPointerWrite c reg m v s
  | .bulkDrain c e => Sys2Proof.Machine.execBulkDrain c e s
  | .bulkFlush c m v => Sys2Proof.Machine.execBulkFlush c m v s
  | .rowBufferTimeout => Sys2Proof.Machine.execRowBufferTimeout s
  | .hspWriteFrame addr data e => Sys2Proof.Machine.execHspWriteFrame addr data e s
  | .hspReadFrame addr n ahead late => Sys2Proof.Machine.execHspReadFrame addr n ahead late s
  | .hspStatusFrame => Sys2Proof.Machine.execHspStatusFrame s
  | .endpointReset => Sys2Proof.Machine.execEndpointReset s
  | .napRequest k m v => Sys2Proof.Machine.execNapRequest k m v s
  | .darkRequest k m v => Sys2Proof.Machine.execDarkRequest k m v s
  | .runRequest k m v => Sys2Proof.Machine.execRunRequest k m v s
  | .autoNap k => Sys2Proof.Machine.execAutoNap k s
  | .logbookFlushDone k => Sys2Proof.Machine.execLogbookFlushDone k s
  | .napFlushTimeout k => Sys2Proof.Machine.execNapFlushTimeout k s
  | .coreWake k => Sys2Proof.Machine.execCoreWake k s
  | .sleepRequest m v => Sys2Proof.Machine.execSleepRequest m v s
  | .powerdownRequest m v => Sys2Proof.Machine.execPowerdownRequest m v s
  | .powerdownDrainDone => Sys2Proof.Machine.execPowerdownDrainDone s
  | .wakeEvent src => Sys2Proof.Machine.execWakeEvent src s
  | .railSample vals => Sys2Proof.Machine.execRailSample vals s
  | .tempSample vals => Sys2Proof.Machine.execTempSample vals s
  | .marginLoopTick k margin => Sys2Proof.Machine.execMarginLoopTick k margin s
  | .clockStretch k => Sys2Proof.Machine.execClockStretch k s
  | .marginShortfallLimit k => Sys2Proof.Machine.execMarginShortfallLimit k s
  | .powerCapTick est => Sys2Proof.Machine.execPowerCapTick est s
  | .clipEpisodeTimer k => Sys2Proof.Machine.execClipEpisodeTimer k s
  | .thermTrip n => Sys2Proof.Machine.execThermTrip n s
  | .traceFunnelPacket => Sys2Proof.Machine.execTraceFunnelPacket s
  | .traceRowPad => Sys2Proof.Machine.execTraceRowPad s
  | .syncTriple k => Sys2Proof.Machine.execSyncTriple k s
  | .trcClr m v => Sys2Proof.Machine.execTrcClr m v s
  | .powerOn strap => Sys2Proof.Machine.execPowerOn strap s
  | .aonPowerLoss torn => Sys2Proof.Machine.execAonPowerLoss torn s
  | .coldReset strap temps => Sys2Proof.Machine.execColdReset strap temps s
  | .resetNShortPulse => Sys2Proof.Machine.execResetNShortPulse s
  | .secResetWarm m v => Sys2Proof.Machine.execSecResetWarm m v s
  | .secResetCold m v strap => Sys2Proof.Machine.execSecResetCold m v strap s
  | .watchdogKick m v => Sys2Proof.Machine.execWatchdogKick m v s
  | .watchdogExpiry => Sys2Proof.Machine.execWatchdogExpiry s
  | .bootStepComplete e => Sys2Proof.Machine.execBootStepComplete e s
  | .bootStepTimeout code => Sys2Proof.Machine.execBootStepTimeout code s
  | .stageVerify m v => Sys2Proof.Machine.execStageVerify m v s
  | .packageAutoload cut => Sys2Proof.Machine.execPackageAutoload cut s
  | .tamperEvent src => Sys2Proof.Machine.execTamperEvent src s
  | .tokenVerify m v => Sys2Proof.Machine.execTokenVerify m v s
  | .fuseProgram m v => Sys2Proof.Machine.execFuseProgram m v s
  | .flashOperationDone bad => Sys2Proof.Machine.execFlashOperationDone bad s
  | .triggerPulseEnd t => Sys2Proof.Machine.execTriggerPulseEnd t s
  | .pcieLinkUp width speed => Sys2Proof.Machine.execPcieLinkUp width speed s
  | .configurationRequest off val => Sys2Proof.Machine.execConfigurationRequest off val s
  | .registerRead m off width => Sys2Proof.Machine.execRegisterRead m off width s
  | .genericShortPacket p => Sys2Proof.Machine.execGenericShortPacket p s
  | .ulps p on => Sys2Proof.Machine.execUlps p on s

end Sys2Proof.Machine
end

