-- ==== Sys2Proof/Safety.lean ====
section
/-! DEFINITION. What counts as a safe run of the block, in the terms the statements use: its memories keep their canonical
form, a fuse that is programmed stays programmed (R602), and what is on the wires stays there. -/

namespace Sys2Proof

open Machine

/-- The memories of a core are in their canonical form. -/
def coreWf (c : Core) : Bool :=
  mwf (dflt 0) c.imem && mwf (dflt false) c.imemBad && mwf (dflt 0) c.smem && mwf (dflt false) c.smemBad
    && mwf zeroWord c.sp && mwf zeroWord c.awn

/-- The sparse memories of the block are in their canonical form: keys strictly rising, no entry equal to what its key reads
as when unlisted. -/
structure Memory.Wf (s : State) : Prop where
  regs : mwf resetWord s.regs = true
  force : mwf resetWord s.force = true
  dram : mwf (dflt 0) s.dram = true
  dramPoison : mwf (dflt false) s.dramPoison = true
  dramBad : mwf (dflt false) s.dramBad = true
  hostMem : mwf (dflt 0) s.hostMem = true
  fuses : mwf (dflt 0) s.sec.fuses = true
  sram : mwf zeroWord s.cof.sram = true
  cores : ∀ k, coreWf (s.core k) = true

/-- A bit of a fuse word is programmed. -/
def fuseBit (s : State) (w b : Nat) : Bool := (mget (dflt 0) s.sec.fuses w).getLsbD b

/-- What every command does from `s` to `t`, whatever else it does: the queue and the installed DRAM stay, free values are
drawn in order, and what was put on the wires is not taken back. -/
structure Follows (s t : State) : Prop where
  pending : t.pending = s.pending
  ddrSize : t.ddrSize = s.ddrSize
  free : s.free ≤ t.free
  wire : s.wire <:+ t.wire

/-- A programmed fuse bit stays programmed (R602). -/
def FusesStay (s t : State) : Prop := ∀ w b, fuseBit s w b = true → fuseBit t w b = true

/-- The core, the context and the instruction of a command that runs the instruction at a program counter. -/
def Instr.stripeOp : Instr → Option (Fin 8 × Fin 3 × OpC)
  | .add k x => some (k, x, .add)
  | .sub k x => some (k, x, .sub)
  | .andOp k x => some (k, x, .and_)
  | .orOp k x => some (k, x, .or_)
  | .xorOp k x => some (k, x, .xor_)
  | .sll k x => some (k, x, .sll)
  | .srl k x => some (k, x, .srl)
  | .sra k x => some (k, x, .sra)
  | .mul k x => some (k, x, .mul)
  | .mulh k x => some (k, x, .mulh)
  | .mulhu k x => some (k, x, .mulhu)
  | .min k x => some (k, x, .min_)
  | .max k x => some (k, x, .max_)
  | .minu k x => some (k, x, .minu)
  | .maxu k x => some (k, x, .maxu)
  | .eq k x => some (k, x, .eq)
  | .ne k x => some (k, x, .ne)
  | .lt k x => some (k, x, .lt)
  | .ge k x => some (k, x, .ge)
  | .ltu k x => some (k, x, .ltu)
  | .geu k x => some (k, x, .geu)
  | .tst k x => some (k, x, .tst)
  | .pand k x => some (k, x, .pand)
  | .por k x => some (k, x, .por)
  | .pxor k x => some (k, x, .pxor)
  | .pandn k x => some (k, x, .pandn)
  | .pnot k x => some (k, x, .pnot)
  | .ptos k x => some (k, x, .ptos)
  | .predStop k x => some (k, x, .predStop)
  | .lb k x => some (k, x, .lb)
  | .lbu k x => some (k, x, .lbu)
  | .lh k x => some (k, x, .lh)
  | .lhu k x => some (k, x, .lhu)
  | .lw k x => some (k, x, .lw)
  | .sb k x => some (k, x, .sb)
  | .sh k x => some (k, x, .sh)
  | .sw k x => some (k, x, .sw)
  | .dget k x => some (k, x, .dget)
  | .dset k x => some (k, x, .dset)
  | .dld k x => some (k, x, .dld)
  | .dsto k x => some (k, x, .dsto)
  | .dcpy k x => some (k, x, .dcpy)
  | .info k x => some (k, x, .info)
  | .br k x => some (k, x, .br)
  | .bcc k x => some (k, x, .bcc)
  | .call k x => some (k, x, .call)
  | .jr k x => some (k, x, .jr)
  | .endstripe k x => some (k, x, .endstripe)
  | .eret k x => some (k, x, .eret)
  | .twait k x => some (k, x, .twait)
  | .twaitm k x => some (k, x, .twaitm)
  | .ttest k x => some (k, x, .ttest)
  | .bar k x => some (k, x, .bar)
  | .gsend k x => some (k, x, .gsend)
  | .grecv k x => some (k, x, .grecv)
  | .wwait k x => some (k, x, .wwait)
  | .trap k x => some (k, x, .trap)
  | .halt k x => some (k, x, .halt)
  | .crr k x => some (k, x, .crr)
  | .crw k x => some (k, x, .crw)
  | .srseed k x => some (k, x, .srseed)
  | .logput k x => some (k, x, .logput)
  | .conv k x => some (k, x, .conv)
  | .wino k x => some (k, x, .wino)
  | .mmul k x => some (k, x, .mmul)
  | .dwconv k x => some (k, x, .dwconv)
  | .ewise k x => some (k, x, .ewise)
  | .lutDirect k x => some (k, x, .lutDirect)
  | .lutPwl k x => some (k, x, .lutPwl)
  | .pool k x => some (k, x, .pool)
  | .resize k x => some (k, x, .resize)
  | .argmax k x => some (k, x, .argmax)
  | .dcmpCompare k x => some (k, x, .dcmpCompare)
  | .dcmpForce k x => some (k, x, .dcmpForce)
  | .dmrgMerge k x => some (k, x, .dmrgMerge)
  | .dmrgAdd k x => some (k, x, .dmrgAdd)
  | .dmrgDilate k x => some (k, x, .dmrgDilate)
  | .bwdDgrad k x => some (k, x, .bwdDgrad)
  | .bwdWgrad k x => some (k, x, .bwdWgrad)
  | .opt k x => some (k, x, .opt)
  | .xfixShelf k x => some (k, x, .xfixShelf)
  | .xfixDrawer k x => some (k, x, .xfixDrawer)
  | .dmaRead k x => some (k, x, .dmaRead)
  | .dmaWrite k x => some (k, x, .dmaWrite)
  | .rxferRead k x => some (k, x, .rxferRead)
  | .rxferWrite k x => some (k, x, .rxferWrite)
  | .rcopy k x => some (k, x, .rcopy)
  | .smld k x => some (k, x, .smld)
  | .smst k x => some (k, x, .smst)
  | .psend k x => some (k, x, .psend)
  | .qstatCurrent k x => some (k, x, .qstatCurrent)
  | .qstatHistory k x => some (k, x, .qstatHistory)
  | .quant k x => some (k, x, .quant)
  | .deqFloat k x => some (k, x, .deqFloat)
  | .deqIntmul k x => some (k, x, .deqIntmul)
  | .qcvt k x => some (k, x, .qcvt)
  | .ckctl k x => some (k, x, .ckctl)
  | .digest k x => some (k, x, .digest)
  | .ptest k x => some (k, x, .ptest)
  | _ => none

/-- From `s` to `t`, only control registers at the given offsets change, and what the part puts on its wires. -/
def RegsOnly (l : List Nat) (s t : State) : Prop :=
  t = { s with regs := t.regs, wire := t.wire } ∧ ∀ o, o ∉ l → t.getReg o = s.getReg o

/-- From `s` to `t`, only context `x` of core `k` changes. -/
def CtxOnly (k : Fin 8) (x : Fin 3) (s t : State) : Prop := t = s.setCtx k x (t.ctx k x)

/-- From `s` to `t`, rows are written on core `k`, in the order of the list: each row that it names, in the scratchpad or (flag) in
the awning buffer, reads as it was last written, the data of a poisoned word apart, and every other row as before. -/
def RowsLand (k : Fin 8) (l : List (Bool × Nat × Row)) (s t : State) : Prop :=
  ∀ awn r n, n < 64 → match l.reverse.find? (fun e => e.1 == awn && e.2.1 == r) with
    | none => t.peek k [] awn r n = s.peek k [] awn r n
    | some e => (t.peek k [] awn r n).2 = (nth (0#64, false) e.2.2 n).2 ∧
      ((nth (0#64, false) e.2.2 n).2 = false → (t.peek k [] awn r n).1 = (nth (0#64, false) e.2.2 n).1)

/-- From `c` to `c'`, only the scalar register `r` (none when it is S0) and the program counter change: it moves on by one.
`v` is what a read of the register gives afterwards. -/
structure Machine.Ctx.Gets (r : Nat) (v : Word) (c c' : Machine.Ctx) : Prop where
  frame : c' = { c with s := c'.s, parBad := c'.parBad, pc := (c.pc + 1) % 32768 }
  reads : ∀ n, n < 32 → c'.rs n = if n = r ∧ n ≠ 0 then v else c.rs n
  parity : ∀ n, n ≠ r → mget (dflt false) c'.parBad n = mget (dflt false) c.parBad n

/-- From `c` to `c'`, only the predicate `r` (none when it is P0) and the program counter change. -/
structure Machine.Ctx.GetsP (r : Nat) (b : Bool) (c c' : Machine.Ctx) : Prop where
  frame : c' = { c with p := c'.p, parBad := c'.parBad, pc := (c.pc + 1) % 32768 }
  reads : ∀ n, n < 8 → c'.rp n = if n = r ∧ n ≠ 0 then b else c.rp n
  parity : ∀ n, n ≠ 32 + r → mget (dflt false) c'.parBad n = mget (dflt false) c.parBad n

/-- The registers that a refusal or an error of an access may set: GLB_STATUS, and its interrupt cause. -/
def statusRegs : List Nat := [F.GLB_STATUS_BAD_WIDTH.off, F.HOST_ICAUSE.off]

/-- A register write is not refused: its path is open, the Aft half can be reached (R33), its block is the master's or SHARED
(R548), and a core block's core is awake (R169). -/
structure Lands (s : State) (m : Master) (off : Nat) : Prop where
  path : s.pathOpen m off true = true
  aft : aftBlock off = true → s.brgUp = true
  owner : s.mayWrite m off = true
  awake : s.asleep off = true → off % 65536 = 4

/-- The master and the register of a command that is one write of one control register by its owner. -/
def Instr.regWriteOf : Instr → Option (Master × Nat)
  | .brgTrain m _ => some (m, F.BRG_CTRL_TRAIN.off)
  | .brgClrCnt m _ => some (m, F.BRG_CTRL_TRAIN.off)
  | .timeSet m _ => some (m, F.TIME_CTRL_SET.off)
  | .timeSlewWrite m _ => some (m, F.TIME_SLEW_PPB.off)
  | .stClr m _ => some (m, F.ST_CTRL_CLR.off)
  | .inCtxRelease n m _ => some (m, (F.IN_CTX_RELEASE_IDX n).off)
  | .defectSwap m _ => some (m, F.IN_DEF_CTRL_SWAP.off)
  | .i2cGo i _ m _ => some (m, (F.IN_I2C_CTRL_GO i).off)
  | .probeGo _ m _ => some (m, F.IN_PROBE_CTRL_GO.off)
  | .trigFire t m _ => some (m, (F.IN_TRIG_FIRE t).off)
  | .rstRelease m _ => some (m, F.IN_SENS_RST_RELEASE.off)
  | .coreHalt k _ m _ => some (m, (F.CORE_CTRL_HALT0 k).off)
  | .coreResume k _ m _ => some (m, (F.CORE_CTRL_HALT0 k).off)
  | .clrSat k m _ => some (m, (F.CORE_CTRL_HALT0 k).off)
  | .clrPerf k m _ => some (m, (F.CORE_CTRL_HALT0 k).off)
  | .spClr k m _ => some (m, (F.SP_CLR_CLR k).off)
  | .edgeClr m _ => some (m, F.EDGE_CTRL_CLR.off)
  | .dxInvalidate m _ => some (m, F.DX_CTRL_ENABLE.off)
  | .dxClr m _ => some (m, F.DX_CLR_CLR.off)
  | .cut n m _ => some (m, (F.OF_CTRL_CUT n).off)
  | .streamRelease n m _ => some (m, (F.OF_CTRL_CUT n).off)
  | .tapRelease t m _ =>
    some (m, if t.val < 2 then (F.IN_TAP_RELEASE_IDX t.val).off else (F.OF_TAP_RELEASE_IDX (t.val - 2)).off)
  | .loadSenseGo m _ => some (m, F.OF_TX_SENSE_GO.off)
  | .cofCancel m _ => some (m, F.COF_CTRL_CANCEL.off)
  | .cofFlush m _ => some (m, F.COF_CTRL_CANCEL.off)
  | .cofClr m _ => some (m, F.COF_CTRL_CANCEL.off)
  | .ckClr k m _ => some (m, (F.CK_CTRL_CLR k).off)
  | .sweepNow m _ => some (m, F.DIG_CTRL_SWEEP_NOW.off)
  | .relax k m _ => some (m, (F.FLT_CORE_RELAX k).off)
  | .forceQ k m _ => some (m, (F.FLT_CORE_RELAX k).off)
  | .lnkTrain p m _ => some (m, (F.LNK_CTRL_TRAIN p).off)
  | .sqDoorbell b m _ => some (m, (F.SQ_TAIL b).off)
  | .cqHeadWrite b m _ => some (m, (F.CQ_HEAD b).off)
  | .hostImaskWrite m _ => some (m, F.HOST_IMASK.off)
  | .ringEnable b m _ => some (m, (F.RING_CTRL_ENABLE b).off)
  | .bulkPointerWrite c r m _ =>
    some (m, match r with
      | 0 => (F.BULK_ADDR_LO c).off
      | 1 => (F.BULK_ADDR_HI c).off
      | 2 => (F.BULK_CTRL_MODE c).off)
  | .bulkFlush c m _ => some (m, (F.BULK_CTRL_MODE c).off)
  | .napRequest k m _ => some (m, (F.PWR_ISL_REQ k).off)
  | .darkRequest k m _ => some (m, (F.PWR_ISL_REQ k).off)
  | .runRequest k m _ => some (m, (F.PWR_ISL_REQ k).off)
  | .sleepRequest m _ => some (m, F.PWR_DEV_REQ.off)
  | .powerdownRequest m _ => some (m, F.PWR_DEV_REQ.off)
  | .trcClr m _ => some (m, F.TRC_CTRL_CLR.off)
  | .secResetWarm m _ => some (m, F.SEC_RESET_WARM.off)
  | .secResetCold m _ _ => some (m, F.SEC_RESET_WARM.off)
  | .watchdogKick m _ => some (m, F.SEC_WDOG_TIMEOUT.off)
  | .stageVerify m _ => some (m, F.SEC_STAGE_LEN_LEN.off)
  | .tokenVerify m _ => some (m, F.SEC_TOKEN_CTRL_GO.off)
  | .fuseProgram m _ => some (m, F.SEC_FUSEPROG_FIELD.off)
  | _ => none

end Sys2Proof
end

