-- ==== Sys2Proof/Certificates/Slice0/Obligations.lean ====
section
/-! DEFINITION. The statements for the provers, family by family. -/

open Sys2Proof Sys2Proof.Machine

/-! ### The queue -/

/-- The command at the front of the queue runs, with the rest of the queue left to run. -/
def Obligations.StepRunsFrontCommand : Prop :=
  ∀ (c : Instr) (rest : List Instr) (s : State), s.pending = c :: rest → step s = exec c { s with pending := rest }

/-- An empty queue lets one nanosecond of DTIME pass (log entry 2, the model's choice); an absent VDD_AON stops it (R83). With
no slew, no trim and no step in progress DTIME counts up by one, wrapping at 2⁶⁴. TIME_CTRL.SET, DTIME_STEP_DONE and
TIME_SLEW (R86, R88): a step is taken in READY, at once by the master and later by every replica, and refused in other
states; while the bridge is not up the step waits (log entry 93, the model's choice), and it waits behind the time messages that
the Aft half has received (R48); TIME_SLEW is clipped to ±200,000 ppb. -/
def Obligations.DeviceTimePassesAndIsSet : Prop :=
  (∀ (s : State), s.pending = [] →
     (s.off = true → step s = .next s) ∧
     (s.off = false → ∃ t, step s = .next t ∧ t = { s with regs := t.regs, cores := t.cores, time := t.time } ∧
       (s.time.slew = 0 → s.time.aftSlew = 0 → s.time.trim = 0 → s.getF F.TIME_SLEW_PPB = 0 →
         t.time.now = (s.time.now + 1) % 2 ^ 64 ∧ t.time.aft = (s.time.aft + 1) % 2 ^ 64))) ∧
  (∀ (m : Master) (v : Word) (s : State), mwf resetWord s.regs = true →
     let want : Nat := (s.getReg F.TIME_SET_LO_SET_LO.off).toNat + (s.getReg F.TIME_SET_HI_SET_HI.off).toNat * 2 ^ 32
     let x : Int := signed 24 v.toNat
     let slews (y : Int) (clip : Nat) : Prop := ∃ t, exec (.timeSlewWrite m v) s = .next t ∧
       RegsOnly (F.TIME_SLEW_PPB.off :: F.TIME_STATUS_SLEW_CLIP.off :: statusRegs) s t ∧
       t.getF F.TIME_SLEW_PPB = unsigned 24 y ∧ t.getF F.TIME_STATUS_SLEW_CLIP = clip
     (Lands s m F.TIME_CTRL_SET.off → s.off = false → s.dev = devReady → ∃ t, exec (.timeSet m v) s = .next t ∧
       t = { s with regs := t.regs, wire := t.wire, time := t.time } ∧ t.getF F.TIME_STATUS_STEPPING = 1 ∧
       t.time = { s.time with now := want, stepPending := some (s.time.stepPending.getD 0 + ((want : Int) - s.time.now)) }) ∧
     (Lands s m F.TIME_CTRL_SET.off → s.dev ≠ devReady → ∃ t, exec (.timeSet m v) s = .next t ∧ t.time = s.time ∧
       RegsOnly (F.TIME_CTRL_SET.off :: F.TIME_STATUS_STEPPING.off :: statusRegs) s t ∧
       t.getF F.TIME_STATUS_STEP_REFUSED = 1) ∧
     (∀ d, s.time.stepPending = some d → s.brgUp = true → nth [] s.brg.f2a.rx 4 = [] → ∃ t, exec .dtimeStepDone s = .next t ∧
       t.getF F.TIME_STATUS_STEPPING = 0 ∧
       t = { s with regs := t.regs, time := { s.time with aft := unsigned 64 (s.time.aft + d), stepPending := none } }) ∧
     ((s.time.stepPending = none ∨ s.brgUp = false ∨ nth [] s.brg.f2a.rx 4 ≠ []) → exec .dtimeStepDone s = .next s) ∧
     (Lands s m F.TIME_SLEW_PPB.off → (x < -200000 → slews (-200000) 1) ∧ (200000 < x → slews 200000 1) ∧
       (-200000 ≤ x → x ≤ 200000 → slews x (s.getF F.TIME_STATUS_SLEW_CLIP))))

/-- Every command is answered with a next state: the spec gives each of them an effect, or none, in every state. None touches
the queue or the installed DRAM, takes a free value twice, or takes back what is on the wires. -/
def Obligations.CommandsAnswerAndOnlyAdd : Prop := ∀ (c : Instr) (s : State), ∃ t, exec c s = .next t ∧ Follows s t

/-- Every step keeps the canonical form of the registers and of every memory. -/
def Obligations.StepKeepsMemoriesCanonical : Prop := ∀ (s t : State), Memory.Wf s → step s = .next t → Memory.Wf t

/-- The registers and memories are in their canonical form at reset. -/
def Obligations.ResetMemoriesCanonical : Prop := Memory.Wf State.reset

/-- No step clears a programmed fuse bit: fuses are one-time programmable (Table BS-8, R602). -/
def Obligations.ProgrammedFusesStay : Prop := ∀ (s t : State), Memory.Wf s → step s = .next t → FusesStay s t

/-! ### The scalar group of stripe programs -/

/-- ALU instructions (R210, Table IS-5). Compare instructions (R211, Table IS-6). Predicate instructions (R212, Table IS-7). -/
def Obligations.AluAndPredicatesCompute : Prop :=
  (∀ (k : Fin 8) (x : Fin 3) (s : State) (w : BitVec 64),
     let c := s.ctx k x
     let a := c.rs (fRa w)
     let b := if fMaj w = 0 then c.rs (fRb w) else BitVec.ofNat 32 (fImm w)
     let n := (b.setWidth 5).toNat
     let sets (i : Instr) (o : OpC) (v : Word) : Prop :=
       s.fetchOp k x = .run o w → ∃ c', exec i s = .next (s.setCtx k x c') ∧ c.Gets (fRd w) v c'
     sets (.add k x) .add (a + b) ∧ sets (.sub k x) .sub (a - b) ∧ sets (.andOp k x) .and_ (a &&& b) ∧
     sets (.orOp k x) .or_ (a ||| b) ∧ sets (.xorOp k x) .xor_ (a ^^^ b) ∧ sets (.sll k x) .sll (a <<< n) ∧
     sets (.srl k x) .srl (a >>> n) ∧ sets (.sra k x) .sra (a.sshiftRight n) ∧
     sets (.mul k x) .mul ((a.setWidth 64 * b.setWidth 64).setWidth 32) ∧
     sets (.mulh k x) .mulh ((a.signExtend 64 * b.signExtend 64).extractLsb' 32 32) ∧
     sets (.mulhu k x) .mulhu ((a.setWidth 64 * b.setWidth 64).extractLsb' 32 32) ∧
     sets (.min k x) .min_ (if b.slt a then b else a) ∧ sets (.max k x) .max_ (if a.slt b then b else a) ∧
     sets (.minu k x) .minu (if b.ult a then b else a) ∧ sets (.maxu k x) .maxu (if a.ult b then b else a)) ∧
  (∀ (k : Fin 8) (x : Fin 3) (s : State) (w : BitVec 64),
     let c := s.ctx k x
     let a := c.rs (fRa w)
     let b := if fMaj w = 2 then c.rs (fRb w) else BitVec.ofNat 32 (fImm w)
     let sets (i : Instr) (o : OpC) (v : Bool) : Prop :=
       s.fetchOp k x = .run o w → ∃ c', exec i s = .next (s.setCtx k x c') ∧ c.GetsP (fRd w % 8) v c'
     sets (.eq k x) .eq (decide (a = b)) ∧ sets (.ne k x) .ne (decide (a ≠ b)) ∧ sets (.lt k x) .lt (a.slt b) ∧
     sets (.ge k x) .ge (b.sle a) ∧ sets (.ltu k x) .ltu (a.ult b) ∧ sets (.geu k x) .geu (b.ule a) ∧
     sets (.tst k x) .tst (decide (a &&& b ≠ 0#32))) ∧
  (∀ (k : Fin 8) (x : Fin 3) (s : State) (w : BitVec 64),
     let c := s.ctx k x
     let a := c.rp (fRa w % 8)
     let b := c.rp (fRb w % 8)
     let sets (i : Instr) (o : OpC) (v : Bool) : Prop :=
       s.fetchOp k x = .run o w → ∃ c', exec i s = .next (s.setCtx k x c') ∧ c.GetsP (fRd w % 8) v c'
     sets (.pand k x) .pand (a && b) ∧ sets (.por k x) .por (a || b) ∧ sets (.pxor k x) .pxor (a ^^ b) ∧
     sets (.pandn k x) .pandn (a && !b) ∧ sets (.pnot k x) .pnot (!a) ∧
     (s.fetchOp k x = .run .ptos w → ∃ c' v, exec (.ptos k x) s = .next (s.setCtx k x c') ∧ c.Gets (fRd w) v c' ∧
       ∀ i, v.getLsbD i = (decide (i < 8) && c.rp i)) ∧
     (s.fetchOp k x = .run .predStop w → ∃ c', exec (.predStop k x) s = .next (s.setCtx k x c') ∧
       c' = { c with p := c'.p, parBad := c'.parBad, pc := (c.pc + 1) % 32768 } ∧
       ∀ i, 1 ≤ i → i ≤ 7 → c'.rp i = (c.rs (fRa w)).getLsbD i))

/-- A write of S0 or of P0 is ignored, and they read 0 and 1 (R204): over every instruction that writes a scalar register or a
predicate and runs with 0 in RD. -/
def Obligations.RegisterZeroStays : Prop :=
  ∀ (k : Fin 8) (x : Fin 3) (s : State) (w : BitVec 64) (i : Instr) (o : OpC),
    (∀ q y, (s.ctx q y).rs 0 = 0#32 ∧ (s.ctx q y).rp 0 = true) ∧
    (i.stripeOp = some (k, x, o) → s.fetchOp k x = .run o w →
      (o ∈ [.add, .sub, .and_, .or_, .xor_, .sll, .srl, .sra, .mul, .mulh, .mulhu, .min_, .max_, .minu, .maxu, .ptos,
        .dget, .info] → fRd w = 0 →
        ∃ t, exec i s = .next t ∧ CtxOnly k x s t ∧ ∀ n, n < 32 → (t.ctx k x).rs n = (s.ctx k x).rs n) ∧
      (o ∈ [.lb, .lbu, .lh, .lhu, .lw, .crr] → fRd w = 0 →
        ∃ t, exec i s = .next t ∧ ∀ n, n < 32 → (t.ctx k x).rs n = (s.ctx k x).rs n) ∧
      (o ∈ [.eq, .ne, .lt, .ge, .ltu, .geu, .tst, .pand, .por, .pxor, .pandn, .pnot, .ttest, .wwait] → fRd w % 8 = 0 →
        ∃ t, exec i s = .next t ∧ CtxOnly k x s t ∧ ∀ n, n < 8 → (t.ctx k x).rp n = (s.ctx k x).rp n))

/-- Loads (R213, R149): the bytes of SMEM at S[RA] + IMM, sign-extended or not, and the 32 bytes of DLD (R214). Stores (R213,
R149) and DSTO (R214): S[RD] or D[RD] to SMEM at S[RA] + IMM; every other byte stays. An SMEM access that is not aligned to
its size raises MISALIGN, and an aligned one outside the context's range raises SMEM_RANGE (R149, R213, R214), at the
instruction's own index. MISALIGN goes first (log entry 21, the model's choice). -/
def Obligations.SmemIsAccessed : Prop :=
  (∀ (k : Fin 8) (x : Fin 3) (s : State) (w : BitVec 64),
     let c := s.ctx k x
     let r := s.smemRange k x
     let a := (c.rs (fRa w) + BitVec.ofNat 32 (fImm w)).toNat
     let m (j : Nat) : BitVec 8 := mget (dflt 0#8) (s.core k).smem (a + j)
     let there (n : Nat) : Prop := a % n = 0 ∧ r.1 ≤ a ∧ a + n ≤ r.1 + r.2 ∧ a + n ≤ 65536 ∧
       ∀ j, j < n → mget (dflt false) (s.core k).smemBad (a + j) = false
     let sets (i : Instr) (o : OpC) (n : Nat) (v : Word) : Prop :=
       s.fetchOp k x = .run o w → there n → ∃ c', exec i s = .next (s.setCtx k x c') ∧ c.Gets (fRd w) v c'
     sets (.lb k x) .lb 1 ((m 0).signExtend 32) ∧ sets (.lbu k x) .lbu 1 ((m 0).setWidth 32) ∧
     sets (.lh k x) .lh 2 ((m 1 ++ m 0).signExtend 32) ∧ sets (.lhu k x) .lhu 2 ((m 1 ++ m 0).setWidth 32) ∧
     sets (.lw k x) .lw 4 (m 3 ++ m 2 ++ m 1 ++ m 0) ∧
     (s.fetchOp k x = .run .dld w → there 32 → ∃ c', exec (.dld k x) s = .next (s.setCtx k x c') ∧
       c' = { c with d := c'.d, parBad := c'.parBad, pc := (c.pc + 1) % 32768 } ∧
       (∀ n, n < 32 → n ≠ fRd w → c'.rdesc n = c.rdesc n) ∧
       ∀ j, j < 32 → (c'.rdesc (fRd w)).extractLsb' (8 * j) 8 = m j)) ∧
  (∀ (k : Fin 8) (x : Fin 3) (s : State) (w : BitVec 64), coreWf (s.core k) = true →
     let c := s.ctx k x
     let r := s.smemRange k x
     let a := (c.rs (fRa w) + BitVec.ofNat 32 (fImm w)).toNat
     let stores (i : Instr) (o : OpC) (n : Nat) (b : Nat → BitVec 8) : Prop :=
       s.fetchOp k x = .run o w → a % n = 0 → r.1 ≤ a → a + n ≤ r.1 + r.2 → a + n ≤ 65536 →
       ∃ t, exec i s = .next t ∧ t = { s with cores := t.cores } ∧ (∀ q, q ≠ k → t.core q = s.core q) ∧
         t.core k = { s.core k with smem := (t.core k).smem, smemBad := (t.core k).smemBad, ctx := (t.core k).ctx } ∧
         (∀ y, t.ctx k y = if y = x then { c with pc := (c.pc + 1) % 32768 } else s.ctx k y) ∧
         ∀ e, mget (dflt 0#8) (t.core k).smem e = if a ≤ e ∧ e < a + n then b (e - a) else mget (dflt 0#8) (s.core k).smem e
     stores (.sb k x) .sb 1 (fun j => (c.rs (fRd w)).extractLsb' (8 * j) 8) ∧
     stores (.sh k x) .sh 2 (fun j => (c.rs (fRd w)).extractLsb' (8 * j) 8) ∧
     stores (.sw k x) .sw 4 (fun j => (c.rs (fRd w)).extractLsb' (8 * j) 8) ∧
     stores (.dsto k x) .dsto 32 (fun j => (c.rdesc (fRd w)).extractLsb' (8 * j) 8)) ∧
  (∀ (k : Fin 8) (x : Fin 3) (s : State) (w : BitVec 64),
     let c := s.ctx k x
     let r := s.smemRange k x
     let a := (c.rs (fRa w) + BitVec.ofNat 32 (fImm w)).toNat
     let checked (i : Instr) (o : OpC) (n : Nat) : Prop := s.fetchOp k x = .run o w →
       (a % n ≠ 0 → exec i s = .next (s.raise k x c.pc 0x03 none 0)) ∧
       (a % n = 0 → (a < r.1 ∨ r.1 + r.2 < a + n ∨ 65536 ≤ a) → exec i s = .next (s.raise k x c.pc 0x04 none 0))
     checked (.lb k x) .lb 1 ∧ checked (.lbu k x) .lbu 1 ∧ checked (.lh k x) .lh 2 ∧ checked (.lhu k x) .lhu 2 ∧
     checked (.lw k x) .lw 4 ∧ checked (.sb k x) .sb 1 ∧ checked (.sh k x) .sh 2 ∧ checked (.sw k x) .sw 4 ∧
     checked (.dld k x) .dld 32 ∧ checked (.dsto k x) .dsto 32)

/-- DGET, DSET and DCPY (R214, Table IS-8). Word w of a descriptor is bits [32w + 31:32w]. INFO (R215, Table IS-9): the tile map
and the number of stripes are those of the stripe's frame, and a secondary works on its primary's tile (R166); selector 9
latches the upper half of DTIME. -/
def Obligations.DescriptorsAndInfo : Prop :=
  (∀ (k : Fin 8) (x : Fin 3) (s : State) (w : BitVec 64),
     let c := s.ctx k x
     let word (d : BitVec 256) (n : Nat) : Word := d.extractLsb' (32 * n) 32
     let moved (c' : Ctx) : Prop := c' = { c with d := c'.d, parBad := c'.parBad, pc := (c.pc + 1) % 32768 }
     (s.fetchOp k x = .run .dget w → ∃ c', exec (.dget k x) s = .next (s.setCtx k x c') ∧
       c.Gets (fRd w) (word (c.rdesc (fRa w)) (fImm w % 8)) c') ∧
     (s.fetchOp k x = .run .dset w → ∃ c', exec (.dset k x) s = .next (s.setCtx k x c') ∧ moved c' ∧
       ∀ r n, r < 32 → n < 8 →
         word (c'.rdesc r) n = if r = fRd w ∧ n = fImm w % 8 then c.rs (fRa w) else word (c.rdesc r) n) ∧
     (s.fetchOp k x = .run .dcpy w → ∃ c', exec (.dcpy k x) s = .next (s.setCtx k x c') ∧ moved c' ∧
       ∀ r, r < 32 → c'.rdesc r = if r = fRd w then c.rdesc (fRa w) else c.rdesc r)) ∧
  (∀ (k : Fin 8) (x : Fin 3) (s : State) (w : BitVec 64) (id : Nat) (j : Job),
     let c := s.ctx k x
     let second : Bool := j.paired && k.val % 2 == 1 && decide (0 < nth 0 c.tiles (k.val - 1))
     let own := if second = true then k.val - 1 else k.val
     let left := firstCol c.tiles own
     let width := nth 0 c.tiles own
     let reads (sel : Nat) (v : Nat) : Prop := fImm w = sel →
       ∃ c', exec (.info k x) s = .next (s.setCtx k x c') ∧
         { c with infoHi := c'.infoHi }.Gets (fRd w) (BitVec.ofNat 32 v) c' ∧
         c'.infoHi = if sel = 9 then BitVec.ofNat 32 (s.time.aft / 2 ^ 32) else c.infoHi
     s.fetchOp k x = .run .info w → c.job = some id → s.job id = some j →
     reads 0 k.val ∧ reads 1 x.val ∧ reads 2 id ∧ reads 3 c.stripe ∧ reads 4 c.frame ∧ reads 5 left ∧ reads 6 width ∧
     reads 7 ((if left = 0 then 1 else 0) + (if left + width = j.width then 2 else 0) + (if c.stripe = 0 then 4 else 0)
       + (if j.session = false ∧ c.stripe = c.nStr then 8 else 0)) ∧
     reads 8 ((if c.prevAborted then 1 else 0) + (if second then 2 else 0) + (if c.frameFlags then 4 else 0)) ∧
     reads 9 s.time.aft ∧ reads 10 c.infoHi.toNat ∧ reads 11 c.dk ∧ reads 12 c.epc ∧ reads 13 c.ecause.toNat ∧
     reads 14 (if j.session then 1 else c.nStr + 1))

/-! ### Fetch, guard and exceptions of stripe programs -/

/-- What stands at a program counter, and what a command of a stripe program does with it: FETCH_RANGE (R148), IMEM_ECC (R150),
ILLEGAL (R208), the guard (R207), register parity (R439), or the instruction. The command of another instruction leaves it. -/
def Obligations.FetchAndGuard : Prop :=
  ∀ (i : Instr) (k : Fin 8) (x : Fin 3) (o : OpC) (s : State), i.stripeOp = some (k, x, o) →
    let c := s.ctx k x
    let r := s.imemRange k x
    let w := mget (dflt 0#64) (s.core k).imem c.pc
    let bad (n : Nat) : Bool := mget (dflt false) c.parBad n
    let inside : Prop := r.1 ≤ c.pc ∧ c.pc < r.1 + r.2
    let raises (e : Nat) : Prop := exec i s = .next (s.raise k x c.pc e none 0)
    let guarded : Prop := fGe w = 1 ∧ c.rp (fGp w) = decide (fGn w = 1)
    (s.canIssue k x = false → exec i s = .next s) ∧
    (s.canIssue k x = true → ¬ inside → raises 0x02) ∧
    (s.canIssue k x = true → inside → mget (dflt false) (s.core k).imemBad c.pc = true → raises 0x05) ∧
    (s.canIssue k x = true → inside → mget (dflt false) (s.core k).imemBad c.pc = false →
      (opOf w = none → raises 0x01) ∧
      (∀ p, opOf w = some p → p ≠ o → exec i s = .next s) ∧
      (opOf w = some o → (fGe w = 0 ∨ bad (32 + fGp w) = false) →
        (guarded → exec i s = .next (s.setCtx k x { c with pc := (c.pc + 1) % 32768 })) ∧
        (¬ guarded → (∀ n ∈ srcRegs o w, bad n = false) → s.fetchOp k x = .run o w) ∧
        (¬ guarded → (∃ n ∈ srcRegs o w, bad n = true) →
          ∃ t, exec i s = .next t ∧ t.ctx k x = { c with halted := true } ∧
            (s.brgUp = true → ∃ q, t.flt.aft = s.flt.aft ++ [q] ∧ q.cls = 0x15 ∧ q.kill = true ∧ q.job = c.job.getD 0))))

/-- Taking an exception in a context (R229): EPC and ECAUSE, then the handler, the next instruction after a UNIT_POISON, or the
halt with a PROGRAM_EXCEPTION record that kills the job. TRAP raises cause 0x0D with code IMM[15:0] (Table IS-11, R229);
ERET leaves the handler at EPC + 1, and is ILLEGAL with the handler flag 0 (R230). -/
def Obligations.ExceptionsAreTaken : Prop :=
  (∀ (s : State) (k : Fin 8) (x : Fin 3) (pc cause : Nat) (tok : Option Nat) (trap : Nat),
     let c := s.ctx k x
     let t := s.raise k x pc cause tok trap
     let e : Word := BitVec.ofNat 32 (cause + (tok.elim 0 (fun n => n * 256 + 4096)) + trap * 65536)
     let handler : Option Nat := (c.job.bind s.job).bind (fun j => if j.handler = 0xFFFF then none else some j.handler)
     let dies : Prop := t.ctx k x = { c with epc := pc, ecause := e, pc := pc, halted := true, running := false } ∧
       (s.brgUp = true → ∃ q, t.flt.aft = s.flt.aft ++ [q] ∧ q.cls = 0x31 ∧ q.kill = true ∧ q.job = c.job.getD 0 ∧
         (cause = 0x0D → q.opc = trap))
     (c.handler = true → dies) ∧
     (∀ h, c.handler = false → handler = some h →
       t.ctx k x = { c with epc := pc, ecause := e, handler := true, pc := h } ∧ t.flt = s.flt) ∧
     (c.handler = false → handler = none → cause = 0x09 →
       t.ctx k x = { c with epc := pc, ecause := e, pc := (pc + 1) % 32768 } ∧ t.flt = s.flt) ∧
     (c.handler = false → handler = none → cause ≠ 0x09 → dies) ∧
     (mwf resetWord s.regs = true → cause < 16 →
       (x = 0 → t.getF (F.CORE_STATUS_CAUSE0 k) = cause) ∧ (x = 1 → t.getF (F.CORE_STATUS_CAUSE1 k) = cause)) ∧
     (∀ q y, (q ≠ k ∨ y ≠ x) → t.ctx q y = s.ctx q y) ∧ (∀ q, (t.core q).smem = (s.core q).smem ∧ (t.core q).sp = (s.core q).sp)) ∧
  (∀ (k : Fin 8) (x : Fin 3) (s : State) (w : BitVec 64) (id h : Nat) (j : Job),
     let c := s.ctx k x
     (s.fetchOp k x = .run .trap w → c.handler = false → c.job = some id → s.job id = some j → j.handler = h → h ≠ 0xFFFF →
       ∃ t, exec (.trap k x) s = .next t ∧ t.ctx k x =
         { c with epc := c.pc, ecause := BitVec.ofNat 32 (0x0D + fImm w % 65536 * 65536), handler := true, pc := h }) ∧
     (s.fetchOp k x = .run .eret w → c.handler = true →
       exec (.eret k x) s = .next (s.setCtx k x { c with handler := false, pc := (c.epc + 1) % 32768 })) ∧
     (s.fetchOp k x = .run .eret w → c.handler = false → exec (.eret k x) s = .next (s.raise k x c.pc 0x01 none 0)))

/-! ### Branches and tokens -/

/-- BR, BCC and CALL go to PC + OFF, JR to S[RA][14:0]; a target outside the context's range raises FETCH_RANGE at the branch
(R216). A word S[RA] of JR with a bit above 14 set names no word of the range. -/
def Obligations.BranchesGo : Prop :=
  ∀ (k : Fin 8) (x : Fin 3) (s : State) (w : BitVec 64),
    let c := s.ctx k x
    let r := s.imemRange k x
    let there (t : Int) : Prop := (r.1 : Int) ≤ t ∧ t < ((r.1 + r.2 : Nat) : Int)
    let off : Int := c.pc + (BitVec.ofNat 16 (fOff w)).toInt
    let a := c.rs (fBra w)
    let b := c.rs (fBrb w)
    let cond : Bool := match fBaux w with
      | 0 => decide (a = b)
      | 1 => decide (a ≠ b)
      | 2 => a.slt b
      | 3 => b.sle a
      | 4 => a.ult b
      | _ => b.ule a
    let goes (i : Instr) (t : Int) : Prop :=
      (there t → exec i s = .next (s.setCtx k x { c with pc := t.toNat % 32768 })) ∧
      (¬ there t → exec i s = .next (s.raise k x c.pc 0x02 none 0))
    r.1 + r.2 ≤ 32768 →
    (s.fetchOp k x = .run .br w → goes (.br k x) off) ∧
    (s.fetchOp k x = .run .bcc w → (cond = true → goes (.bcc k x) off) ∧
      (cond = false → exec (.bcc k x) s = .next (s.setCtx k x { c with pc := (c.pc + 1) % 32768 }))) ∧
    (s.fetchOp k x = .run .jr w → goes (.jr k x) a.toNat) ∧
    (s.fetchOp k x = .run .call w →
      (there off → ∃ c', exec (.call k x) s = .next (s.setCtx k x c') ∧
        c' = { c with s := c'.s, parBad := c'.parBad, pc := off.toNat % 32768 } ∧
        ∀ n, n < 32 → c'.rs n = if n = 31 then BitVec.ofNat 32 (c.pc + 1) else c.rs n) ∧
      (¬ there off → exec (.call k x) s = .next (s.raise k x c.pc 0x02 none 0)))

/-- TWAIT, TWAITM and TTEST (R144, R217–R219). A wait has no effect while a token it names is BUSY; then DONE tokens of its
mask become FREE, and the lowest-numbered FAULT token becomes FREE and its exception is raised. -/
def Obligations.TokenWaits : Prop :=
  ∀ (k : Fin 8) (x : Fin 3) (s : State) (w : BitVec 64),
    let c := s.ctx k x
    let waits (i : Instr) (o : OpC) (m : Nat → Bool) : Prop := s.fetchOp k x = .run o w →
      ((∃ n, n < 16 ∧ m n = true ∧ (c.token n).st = .busy) → exec i s = .next s) ∧
      ((∀ n, n < 16 → m n = true → (c.token n).st ≠ .busy) →
        ((∀ n, n < 16 → m n = true → (c.token n).st ≠ .fault) →
          ∃ c', exec i s = .next (s.setCtx k x c') ∧ c' = { c with tok := c'.tok, pc := (c.pc + 1) % 32768 } ∧
            ∀ n, n < 16 → c'.token n = if m n = true ∧ (c.token n).st = .done then ⟨.free, 0⟩ else c.token n) ∧
        (∀ f, f < 16 → m f = true → (c.token f).st = .fault → (∀ n, n < f → m n = true → (c.token n).st ≠ .fault) →
          ∃ s', exec i s = .next (s'.raise k x c.pc (c.token f).cause (some f) 0) ∧ CtxOnly k x s s' ∧
            s'.ctx k x = { c with tok := (s'.ctx k x).tok } ∧
            ∀ n, n < 16 → (s'.ctx k x).token n =
              if n = f ∨ (m n = true ∧ (c.token n).st = .done) then ⟨.free, 0⟩ else c.token n))
    waits (.twait k x) .twait (fun n => decide (n = fTtk w)) ∧
    waits (.twaitm k x) .twaitm (fun n => (fMask w).testBit n) ∧
    (s.fetchOp k x = .run .ttest w → ∃ c', exec (.ttest k x) s = .next (s.setCtx k x c') ∧
      c.GetsP (fRd w % 8) (decide ((c.token (fTtk w)).st ≠ .busy)) c')

/-- A stripe starts on a core that may start it, and in a paired job on the other core of its pair with it (R225, R78, R166)
unless it is a quarantined secondary: PC at ENTRY, handler flag clear, tokens FREE, barrier count zero; S, P and D keep their
values. No stripe starts otherwise, and an in-line job goes first (R75). A band whose abort point has passed is aborted (R79):
abort and miss are counted, with a DEADLINE_MISS record and cause 4. A band that every core has finished completes at this DTIME,
and its slack is D_k − C_k (R73). A session's step begins when the gate of R352 lets it. ENDSTRIPE and HALT wait while a token is
BUSY, raise the exception of the lowest-numbered FAULT token, and otherwise end the stripe (R226) or the program (R146, R228). -/
def Obligations.StripesRunTheirCourse : Prop :=
  (∀ (k : Fin 8) (id : Nat) (s : State) (j : Job), s.job id = some j →
     let x := j.ctxNo
     let both := (j.pairOf k).filter (fun q => !(s.ctx q x).ended && !s.leftOut j q)
     let first : Prop := j.inline = true ∨ ∀ i ∈ s.jobs, i.inline = true → ∀ q ∈ both, s.canStart i q = false
     let may : Prop := both ≠ [] ∧ (∀ q ∈ both, s.canStart j q = true) ∧ first
     (¬ may → exec (.stripeStart id k) s = .next s) ∧
     (may → ∃ t, exec (.stripeStart id k) s = .next t ∧
       (∀ q ∈ both, ∀ f r, j.nextBand q = some (f, r) →
         let c := s.ctx q x
         let c' := t.ctx q x
         c'.s = c.s ∧ c'.p = c.p ∧ c'.d = c.d ∧ c'.pc = j.entry ∧ c'.handler = false ∧ (∀ n, n < 16 → (c'.token n).st = .free) ∧
         c'.bars = 0 ∧ c'.running = true ∧ c'.stripe = r.k ∧ c'.frame = f.no ∧ c'.tiles = f.tiles ∧ c'.job = some id ∧
         c'.queues = c.queues) ∧
       (∀ q y, (q ∉ both ∨ y ≠ x) → t.ctx q y = s.ctx q y) ∧
       (∀ q, (t.core q).sp = (s.core q).sp ∧ (t.core q).smem = (s.core q).smem))) ∧
  (∀ (id : Nat) (s : State) (j : Job), s.job id = some j → mwf resetWord s.regs = true →
     let bands := j.frames.flatMap (fun x => x.bands.map (fun r => (x, r)))
     ((∀ e ∈ bands, s.abortDue j e.1 e.2 = false) → exec (.stripeAbort id) s = .next s) ∧
     (∀ e, bands.find? (fun e => s.abortDue j e.1 e.2) = some e → j.state = .running →
       ∃ t j', exec (.stripeAbort id) s = .next t ∧ t.job id = some j' ∧ j'.abort = satAdd 32 j.abort 1 ∧
         j'.miss = satAdd 32 j.miss 1 ∧ t.getF ⟨F.HOST_ICAUSE.off, 4, 1⟩ = 1 ∧
         (s.brgUp = true → ∃ q ∈ t.flt.aft, q.cls = 0x30 ∧ q.job = id ∧ q.addr = e.2.k)) ∧
     (∀ e, bands.find? (fun e => !e.2.over) = some e →
       let ends : Prop := j.state = .running ∧ e.2.ready.isSome = true ∧ ∀ c ∈ j.coresIn e.1, s.finishedOn j e.2 c = true
       (¬ ends → exec (.bandComplete id) s = .next s) ∧
       (∀ d, ends → j.frameNo e.1.no = some e.1 → e.1.band e.2.k = some e.2 → e.2.deadline = some d → e.2.settled = false →
         ∃ t j', exec (.bandComplete id) s = .next t ∧ t.job id = some j' ∧ j'.slackLast = (d : Int) - s.time.now ∧
           j'.miss = if d < s.time.now then satAdd 32 j.miss 1 else j.miss)) ∧
     (s.jobs.find? (fun i => i.session && i.state == .running) = some j → j.stepAt = none → j.stopping = false →
       s.modelsOk j = true →
       (s.getF F.AD_CFG_GATE = 0 ∨ s.stepGate j = true) → ∃ t j', exec .sessionStepStart s = .next t ∧ t.job id = some j' ∧
         j'.stepAt = some s.time.now ∧ j'.lastStep = s.time.now ∧ j'.state = .running)) ∧
  (∀ (k : Fin 8) (x : Fin 3) (s : State) (w : BitVec 64),
     let c := s.ctx k x
     let busy : Prop := ∃ n, n < 16 ∧ (c.token n).st = .busy
     let ends (i : Instr) (o : OpC) (c' : Ctx → Ctx) (done : Nat → Job → State → Prop) : Prop := s.fetchOp k x = .run o w →
       (busy → exec i s = .next s) ∧
       (¬ busy → ∀ f, f < 16 → (c.token f).st = .fault → (∀ n, n < f → (c.token n).st ≠ .fault) →
         exec i s = .next ((s.setCtx k x (c.setToken f ⟨.free, 0⟩)).raise k x c.pc (c.token f).cause (some f) 0)) ∧
       (¬ busy → (∀ n, n < 16 → (c.token n).st ≠ .fault) → ∃ t, exec i s = .next t ∧
         t.ctx k x = { c' c with tok := (t.ctx k x).tok } ∧
         (∀ n, n < 16 → ((t.ctx k x).token n).st = .free) ∧
         (∀ id j, c.job = some id → s.job id = some j → done id j t))
     ends (.endstripe k x) .endstripe (fun c => { c with running := false, pc := (c.pc + 1) % 32768 })
       (fun id j t => t.job id = some (j.finishOn c.frame c.stripe k.val)) ∧
     ends (.halt k x) .halt (fun c => { c with halted := true, ended := true, running := false })
       (fun id j t => j.state = .running → (∀ q ∈ j.cores, q ≠ k → (s.ctx q x).ended = true) → j.ctxNo = x →
         ∃ j', t.job id = some j' ∧ j'.state = .halted))

/-- BAR (R220, R221): LOCAL is only a yield point; at JOB the context waits while another core of the job, which takes part in its
stripes, has issued fewer JOB barriers in the stripe, and goes on at once when none has. A WEIGHT write of its rows holds it there
(R199), and context 1 stands at it while a test slot is due (R489). GSEND and GRECV (R222, R223): the request is held with its token
BUSY; without a neighbour, and for a secondary's send, the token is DONE at once; a token that is not FREE raises
TOKEN_REUSE; a fifth request of a kind stalls. GUYLINE_ROWS_ARRIVE moves the row of a one-row send whole, with its job,
context and stripe, into the neighbour's ring stop, and the send is DONE. WWAIT (R224) waits for the count. -/
def Obligations.ContextsWaitForOthers : Prop :=
  (∀ (k : Fin 8) (x : Fin 3) (s : State) (w : BitVec 64) (id : Nat) (j : Job),
     let c := s.ctx k x
     let on : Ctx := { c with pc := (c.pc + 1) % 32768 }
     let team := mapCores j.paired c.tiles
     s.fetchOp k x = .run .bar w →
     (s.weightHold c = true → ∃ t, exec (.bar k x) s = .next t ∧ t.ctx k x = { c with held := true } ∧
       ∀ q y, (q ≠ k ∨ y ≠ x) → t.ctx q y = s.ctx q y) ∧
     (s.weightHold c = false → x = 1 → s.ready0 k = false → s.slotDue k = true → exec (.bar k x) s = .next s) ∧
     (s.weightHold c = false → (x = 1 → s.ready0 k = false ∧ s.slotDue k = false) →
     (fMode w = 0 → exec (.bar k x) s = .next (s.setCtx k x on)) ∧
     (fMode w = 1 → c.job = some id → s.job id = some j → j.ctxNo = x → (∀ q, q ≠ k → (s.ctx q x).atBar = false) →
       ((∃ q ∈ team, q ≠ k ∧ s.leftOut j q = false ∧ s.barsOf id x.val c.frame c.stripe q ≤ c.bars) →
         exec (.bar k x) s = .next (s.setCtx k x { on with bars := c.bars + 1, atBar := true })) ∧
       ((∀ q ∈ team, q ≠ k → s.leftOut j q = true ∨ c.bars < s.barsOf id x.val c.frame c.stripe q) →
         exec (.bar k x) s = .next (s.setCtx k x { on with bars := c.bars + 1 }))))) ∧
  (∀ (k : Fin 8) (x : Fin 3) (s : State) (w : BitVec 64) (id : Nat) (j : Job),
     let c := s.ctx k x
     let next : Nat := (c.pc + 1) % 32768
     let right : Bool := decide (fMode w = 1)
     let asks (i : Instr) (o : OpC) (send : Bool) : Prop :=
       s.fetchOp k x = .run o w → c.job = some id → s.job id = some j → descLegal (c.rdesc (fRd w)) = true →
       let alone : Prop := (send = true ∧ j.secondary c k.val = true) ∨ j.neighbour c k.val right = none
       let held := (c.greqs.filter (fun q => q.send == send)).length
       ((c.token (fTtk w)).st ≠ .free → exec i s = .next (s.raise k x c.pc 0x07 none 0)) ∧
       ((c.token (fTtk w)).st = .free →
         (alone → exec i s = .next (s.setCtx k x { c.setToken (fTtk w) ⟨.done, 0⟩ with pc := next })) ∧
         (¬ alone → held < 4 → ∃ g, exec i s = .next (s.setCtx k x
             { c.setToken (fTtk w) ⟨.busy, 0⟩ with greqs := c.greqs ++ [g], pc := next }) ∧
           g.send = send ∧ g.right = right ∧ g.tok = fTtk w ∧ g.desc = c.rdesc (fRd w) ∧ g.job = id ∧ g.got = 0) ∧
         (¬ alone → 4 ≤ held → ∃ g, exec i s = .next (s.setCtx k x { c with stallG := some g })))
     asks (.gsend k x) .gsend true ∧ asks (.grecv k x) .grecv false ∧
     (∀ (r : Bool) (n row conf : Nat) (q : GReq) (m : Fin 8), c.job = some id → s.job id = some j → j.paired = false →
       j.neighbour c k.val r = some n → m = coreOf n → m ≠ k →
       (∀ f ∈ (s.job q.job).elim [] (·.frames), f.no = q.stripe / 65536 → ∀ b ∈ f.bands, b.k = q.stripe % 65536 →
         b.aborted = false) →
       (s.core m).ring.all (fun g => g.right != r || g.ctx != x.val) = true → (s.ctx m x).greqs = [] →
       (s.ctx m x).ord ≤ q.stripe → c.greqs = [q] → q.send = true → q.right = r → q.got = 0 → q.cause = 0 →
       (descOf q.desc).space = false → (descOf q.desc).rows = [row] → s.localAllowed q.job k.val false row false = true →
       rowPoisoned (s.getRow k row).1 = false → (c.token q.tok).st = .busy → q.tok < 16 →
       ∃ t g, exec (.guylineRowsArrive k x { right := r, conf := conf }) s = .next t ∧ (t.core m).ring = (s.core m).ring ++ [g] ∧
         g.ws = (s.getRow k row).1 ∧ g.right = r ∧ g.ctx = x.val ∧ g.job = q.job ∧ g.stripe = q.stripe ∧ g.last = true ∧
         (t.ctx k x).greqs = [] ∧ ((t.ctx k x).token q.tok).st = .done) ∧
     (∀ n, n < 32 → fTimm w = n → s.fetchOp k x = .run .wwait w → c.job = some id → s.job id = some j →
       let win : InWin := vget s.lnk.iw (Fin.ofNat 32 n)
       let named : Prop := ∃ v ∈ j.windows, v.2.1 = n ∧ v.2.2 = 0
       let gets (b : Bool) : Prop := ∃ c', exec (.wwait k x) s = .next (s.setCtx k x c') ∧ c.GetsP (fRd w % 8) b c'
       (named → win.st = .open_ → 0 ≤ (win.arrivals - c.rs (fRa w)).toInt → gets true) ∧
       (named → win.st = .open_ → (win.arrivals - c.rs (fRa w)).toInt < 0 → exec (.wwait k x) s = .next s) ∧
       ((¬ named ∨ win.st ≠ .open_) → gets false)))

/-- CRR and CRW (R231): a granted access waits for its answer; any other reads 0 or drops the write, with a REG_DENIED record, and
completes; an offset that is not aligned raises MISALIGN. While the bridge is up the answer sets S[RD] to the register as LCP
reads it, or does what a register write of LCP with S[RD] does, and the context goes on (R231, R232); HOST_MBOX_OUT, which only
the firmware writes, keeps its value. The answer of a read in the core's own block sets S[RD] while the bridge is down too, and an
access that the Lantern performs waits for it (R232). SRSEED waits for the context's array, vector and quantise instructions and
seeds the generator (R288); LOGPUT writes a USER packet of IMM[15:0] and S[RA] to the core's Logbook (R582); CKCTL sets the
checksum mode of what is issued after it (R278). -/
def Obligations.ProgramRegistersSeedAndLog : Prop :=
  (∀ (k : Fin 8) (x : Fin 3) (s : State) (w : BitVec 64),
     let c := s.ctx k x
     let off := (c.rs (fRa w) + BitVec.ofNat 32 (fImm w)).toNat
     let grant (b : Nat → Bool) : Prop :=
       ∃ id j g, c.job = some id ∧ s.job id = some j ∧ g ∈ j.grants ∧ g.first ≤ off ∧ off ≤ g.last ∧ b g.acc = true
     let denied (t : State) : Prop := s.brgUp = true → ∃ q, t.flt.aft = s.flt.aft ++ [q] ∧ q.cls = 0x04 ∧ q.addr = off ∧
       q.akind = 3 ∧ q.job = c.job.getD 0
     let access (i : Instr) (o : OpC) (write : Bool) (may : Prop) (gets : Ctx → Ctx → Prop) : Prop :=
       s.fetchOp k x = .run o w →
       (off % 4 ≠ 0 → exec i s = .next (s.raise k x c.pc 0x03 none 0)) ∧
       (off % 4 = 0 → off < 0x200000 → may → exec i s = .next (s.setCtx k x
         { c with crWait := some { write := write, off := off, rd := fRd w, val := c.rs (fRd w) } })) ∧
       (off % 4 = 0 → ¬ (off < 0x200000 ∧ may) → ∃ t, exec i s = .next t ∧ gets c (t.ctx k x) ∧ denied t)
     access (.crr k x) .crr false (off / 65536 = 16 + k.val ∨ grant (fun a => a % 2 == 1)) (fun c c' => c.Gets (fRd w) 0#32 c') ∧
     access (.crw k x) .crw true (grant (fun a => decide (2 ≤ a))) (fun c c' => c' = { c with pc := (c.pc + 1) % 32768 }) ∧
     (∀ e : WriteEnv, off % 4 = 0 → off < 0x200000 → s.brgUp = true → c.haltReq = false →
       (s.fetchOp k x = .run .crr w → (off / 65536 = 16 + k.val ∨ grant (fun a => a % 2 == 1)) →
         ∃ t u, exec (.crr k x) s = .next t ∧ exec (.controlRegisterAnswer k x e) t = .next u ∧
           c.Gets (fRd w) (s.ctlRead .lcp off).1 (u.ctx k x) ∧ u = (s.ctlRead .lcp off).2.setCtx k x (u.ctx k x)) ∧
       (s.fetchOp k x = .run .crw w → grant (fun a => decide (2 ≤ a)) → off ≠ F.HOST_MBOX_OUT.off →
         ∃ t u, exec (.crw k x) s = .next t ∧ exec (.registerWrite e [⟨.lcp, off, 4, (c.rs (fRd w)).toNat⟩]) s = .next u ∧
           exec (.controlRegisterAnswer k x e) t = .next ((u.regOp k x id).takeHalt k x)) ∧
       (s.fetchOp k x = .run .crw w → grant (fun a => decide (2 ≤ a)) → off = F.HOST_MBOX_OUT.off → mwf resetWord s.regs = true →
         ∃ t u, exec (.crw k x) s = .next t ∧ exec (.controlRegisterAnswer k x e) t = .next u ∧ u.getReg off = s.getReg off)) ∧
     (∀ (e : WriteEnv) (a : CrWait), c.crWait = some a →
       (s.brgUp = false → a.off / 65536 ≠ 16 + k.val → exec (.controlRegisterAnswer k x e) s = .next s) ∧
       (s.brgUp = false → a.off / 65536 = 16 + k.val → a.write = false → a.rd < 32 → c.haltReq = false →
         ∃ c', exec (.controlRegisterAnswer k x e) s = .next (s.setCtx k x c') ∧
           { c with crWait := none }.Gets a.rd ((s.setCtx k x { c with crWait := none }).seeReg a.off) c'))) ∧
  (∀ (k : Fin 8) (x : Fin 3) (s : State) (w : BitVec 64),
     let c := s.ctx k x
     let on : Ctx := { c with pc := (c.pc + 1) % 32768 }
     (s.fetchOp k x = .run .srseed w →
       ((∀ u, u ≤ 2 → c.queue u = []) →
         exec (.srseed k x) s = .next (s.setCtx k x { on with sr := srSeed (c.rs (fRa w)).toNat, srN := 0 })) ∧
       ((∃ u, u ≤ 2 ∧ c.queue u ≠ []) → exec (.srseed k x) s = .next s)) ∧
     (s.fetchOp k x = .run .logput w → bitsOf (s.getF (F.TRC_CORE_EN k)) 5 1 = 1 → (s.core k).log.length < 1024 →
       ∃ t p, exec (.logput k x) s = .next t ∧ t.ctx k x = on ∧ (t.core k).log = (s.core k).log ++ [p] ∧ p.typ = 0x50 ∧
         p.val = fImm w % 65536 + (c.rs (fRa w)).toNat * 65536 ∧ t = { s with cores := t.cores, regs := t.regs }) ∧
     (s.fetchOp k x = .run .ckctl w →
       exec (.ckctl k x) s = .next (s.setCtx k x { on with ck := fSub w + fAux w * 4 })))

/-! ### Tensor, transfer and check instructions -/

/-- An instruction of format X that passes its checks is put in its unit's queue with its descriptors as they stand at issue
(R205, R139, R142), its token BUSY, and the context goes on; while the queue is full the context stalls with it. A token
that is not FREE raises TOKEN_REUSE and nothing is queued (R143); the checks of R242 raise their own exception. A stalled
instruction joins its queue once an entry is free, and the context goes on (R139). UNIT_INSTRUCTION_START starts the front
instruction of an idle unit (R140); UNIT_INSTRUCTION_COMPLETE of a started one makes its token DONE, or FAULT with the
exception found (R142, R145). -/
def Obligations.InstructionsIssueAndComplete : Prop :=
  (∀ (i : Instr) (k : Fin 8) (x : Fin 3) (o : OpC) (s : State) (w : BitVec 64),
     i.stripeOp = some (k, x, o) →
     o ∈ [.conv, .wino, .mmul, .dwconv, .ewise, .lutDirect, .lutPwl, .pool, .resize, .argmax, .dcmpCompare, .dcmpForce,
       .dmrgMerge, .dmrgAdd, .dmrgDilate, .bwdDgrad, .bwdWgrad, .opt, .xfixShelf, .xfixDrawer, .dmaRead, .dmaWrite,
       .rxferRead, .rxferWrite, .rcopy, .smld, .smst, .psend, .qstatCurrent, .qstatHistory, .quant, .deqFloat, .deqIntmul,
       .qcvt, .digest, .ptest] →
     s.fetchOp k x = .run o w →
     let c := s.ctx k x
     let u := unitOf o
     let e := s.issueCheck k x o (s.capture k x o w)
     let uses := xUse o (fSub w)
     let room : Prop := (c.queue u).length < nth 0 [8, 8, 4, 16, 4] u
     (e ≠ 0 → exec i s = .next (s.raise k x c.pc e none 0)) ∧
     ((c.token (fTk w)).st ≠ .free → e ≠ 0) ∧
     (e = 0 → room → ∃ c' q, exec i s = .next (s.setCtx k x c') ∧
       c' = { c with queues := c'.queues, tok := c'.tok, sr := c'.sr, srN := c'.srN, pc := (c.pc + 1) % 32768 } ∧
       (∀ v, v < 5 → c'.queue v = if v = u then c.queue u ++ [q] else c.queue v) ∧
       (∀ n, n < 16 → c'.token n = if n = fTk w then ⟨.busy, 0⟩ else c.token n) ∧
       q.word = w ∧ q.pc = c.pc ∧ q.tok = fTk w ∧ q.job = c.job.getD 0 ∧ q.stripe = c.stripe ∧ q.ck = c.ck ∧
       q.started = false ∧ (uses.1 = true → q.dd = c.rdesc (fDd w)) ∧ (uses.2.1 = true → q.da = c.rdesc (fDa w)) ∧
       (uses.2.2.1 = true → u ≠ 3 → q.db = c.rdesc (fDb w))) ∧
     (e = 0 → ¬ room → ∃ q, exec i s = .next (s.setCtx k x { c with stalled := some (u, q) }) ∧ q.word = w ∧ q.tok = fTk w)) ∧
  (∀ (k : Fin 8) (x : Fin 3) (s : State),
     let c := s.ctx k x
     (∀ v q o, v < 5 → c.stalled = some (v, q) → opOf q.word = some o → q.tok < 16 → c.haltReq = false →
       ((c.queue v).length < unitDepth v → ∃ c' e, exec (.issueStallRelease k x) s = .next (s.setCtx k x c') ∧
         c'.queue v = c.queue v ++ [e] ∧ e.word = q.word ∧ e.pc = q.pc ∧ e.dd = q.dd ∧ e.da = q.da ∧ e.db = q.db ∧
         (c'.token q.tok).st = .busy ∧ c'.stalled = none ∧ c'.pc = (c.pc + 1) % 32768) ∧
       (unitDepth v ≤ (c.queue v).length → exec (.issueStallRelease k x) s = .next s)) ∧
     (∀ (u : Fin 5) (par : UnitHits) (conf : Nat) (i : UInst) (l : List UInst), c.queue u.val = i :: l →
       let runs : Prop := s.off = false ∧ s.pstate k < 2 ∧ (s.core k).initing = false ∧ (s.core k).waking = false
       let begins : Prop := i.started = false ∧ runs ∧ s.turn k x u.val = true
       (begins → s.startWait k x u.val i = none → ∃ t j, exec (.unitInstructionStart k x u par conf) s = .next t ∧
         (t.ctx k x).queue u.val = j :: ((t.ctx k x).queue u.val).drop 1 ∧ j.started = true ∧ j.word = i.word ∧ j.tok = i.tok) ∧
       (begins → ∀ t, s.startWait k x u.val i = some t → exec (.unitInstructionStart k x u par conf) s = .next t) ∧
       (¬ begins → exec (.unitInstructionStart k x u par conf) s = .next s) ∧
       (s.canFinish k x u.val i = false → exec (.unitInstructionComplete k x u par) s = .next s) ∧
       (∀ rows : List (Bool × Nat × Row), s.canFinish k x u.val i = true → i.effs = rows.map (fun r => .row k.val r.1 r.2.1 r.2.2) →
         (∀ r ∈ rows, r.2.2.length = 64) → par = {} → i.tok < 16 → (c.token i.tok).st = .busy → coreWf (s.core k) = true →
         ∃ t, exec (.unitInstructionComplete k x u par) s = .next t ∧ RowsLand k rows s t ∧
           (∀ q y, (q ≠ k ∨ y ≠ x) → t.ctx q y = s.ctx q y) ∧
           t.ctx k x = { c with queues := (t.ctx k x).queues, tok := (t.ctx k x).tok } ∧
           (∀ v, v < 5 → (t.ctx k x).queue v = if v = u.val then l else c.queue v) ∧
           ∀ n, n < 16 → (t.ctx k x).token n =
             if n = i.tok then (if i.cause = 0 then ⟨.done, 0⟩ else ⟨.fault, i.cause⟩) else c.token n)))

/-- Every instruction of format X, from its issue to its end: issued (R139, R205), started at the front of its idle unit (R140),
completed (R142). It does so when it passes its checks (R242), its unit's queue of the context is empty, its rows are its job's
(R198) and none of their words is poisoned (R183); its token is then DONE and its result is in place. An instruction of the array,
vector or quantise unit leaves the rows that its operation gives (Tables IT-4 and IT-7), one that the check lanes check once its
blocks have been compared (R441, R442); WINO is the Winograd unit's only in the combinations of R157. RCOPY, SMLD, SMST and DMA
(R267, R269, R270) move rows between the scratchpad, SMEM and DRAM in row-set order (R272); PSEND (R271) hands rows to the Edge
engine. RXFER (R268, R514) queues its requests or its rows at the port of the partner, and its token stays BUSY until the owner
answers (R516). DIGEST and PTEST (R279, R280) write their figures to SMEM. DMA here names DRAM, and in a test slot the save area
(R487), over a bridge that is up, no transfer of the core waits, and what leaves a core leaves one that is not paired (R165). -/
def Obligations.UnitsCarryInstructionsOut : Prop :=
  ∀ (i : Instr) (k : Fin 8) (x : Fin 3) (o : OpC) (u : Fin 5) (conf : Nat) (s : State) (w : BitVec 64),
    Memory.Wf s → i.stripeOp = some (k, x, o) → s.fetchOp k x = .run o w → u.val = unitOf o →
    let c := s.ctx k x
    let q : UInst := { s.capture k x o w with sr := c.sr, srN := c.srN }
    let id := q.job
    let da := descOf q.da
    let dd := descOf q.dd
    let nth0 (j : Nat) : Nat := nth 0 da.rows j
    let mine (space : Bool) (r : Nat) : Prop := s.unitAllowed k x id space r true = true
    let good (space : Bool) (r : Nat) : Prop := s.unitAllowed k x id space r false = true ∧
      ∀ n, n < 64 → (s.peek k [] space r n).2 = false
    let row (j : Nat) : Row := (upFrom 0 64).map (fun n => s.peek k [] da.space (nth0 j) n)
    let places := upFrom 0 da.rows.length
    let runs (p : State → State → Prop) : Prop := ∃ t₁ t₂ t₃, exec i s = .next t₁ ∧
      exec (.unitInstructionStart k x u {} conf) t₁ = .next t₂ ∧ exec (.unitInstructionComplete k x u {}) t₂ = .next t₃ ∧ p t₂ t₃
    let ends (p : State → Prop) : Prop := runs (fun _ t => (t.ctx k x).queue u.val = [] ∧
      (t.ctx k x).token (fTk w) = ⟨.done, 0⟩ ∧ p t)
    let smem (a : Nat) (bs : List (BitVec 8)) (t : State) : Prop := ∀ e, mget (dflt 0#8) (t.core k).smem e =
      if a ≤ e ∧ e < a + bs.length then nth 0#8 bs (e - a) else mget (dflt 0#8) (s.core k).smem e
    s.issueCheck k x o q = 0 → c.queue u.val = [] →
    (o ∈ [.conv, .wino, .mmul, .dwconv, .ewise, .lutDirect, .lutPwl, .pool, .resize, .argmax, .dcmpCompare, .dcmpForce,
        .dmrgMerge, .dmrgAdd, .dmrgDilate, .bwdDgrad, .bwdWgrad, .opt, .xfixShelf, .xfixDrawer, .qstatCurrent, .qstatHistory,
        .quant, .deqFloat, .deqIntmul, .qcvt] →
      let env := s.unitEnv k x q
      let out := tensorEval (s.peek k []) env o q
      (o = .wino → winoRefused (fSub w) da (descOf q.db) = false) →
      (∀ r ∈ tensorReads (s.peek k []) env o q, good r.1 r.2) → (∀ r ∈ out.rows, mine r.1 r.2.1) →
      let checked : Prop := o ∈ [.conv, .wino, .mmul, .bwdDgrad, .bwdWgrad] ∧ c.ck % 4 ≠ 0 ∧ s.forceF (F.CK_CTRL_ENABLE k) ≠ 0
      (¬ checked → ends (RowsLand k out.rows s)) ∧
      (checked → 0 < dd.d2 * (dd.d0 * dd.d1 * dd.d3) →
        runs (fun t t' => t' = t ∧ (t.ctx k x).token (fTk w) = ⟨.busy, 0⟩ ∧ ∃ e, (t.ctx k x).queue u.val = [e] ∧
          e.started = true ∧ e.effs = out.effs k.val false ∧ e.blocks ≠ []))) ∧
    (o = .digest ∨ o = .ptest → (∀ r ∈ da.rows, s.unitAllowed k x id da.space r false = true) →
      let pois (j : Nat) : Nat := ((row j).filter (·.2)).length
      let first : Option Nat := places.find? (fun j => decide (0 < pois j))
      let ce := (da.rows.map (fun r => s.correctedIn k da.space r)).sum
      ends (smem q.sx (if o = .digest then
          leBytes 8 (crc64 (places.flatMap (fun j => rowBytes (row j)))) ++
            leBytes 8 ((if first = none then 0 else 1) + min ce 65535 * 65536)
        else leBytes 4 (places.map pois).sum ++ leBytes 4 (first.getD 0xFFFFFFFF)))) ∧
    ((∀ y, (s.ctx k y).queue 3 = []) → (∀ m, (s.core m).held = []) → (s.core k).pairHeld = [] → s.lnk.waits = [] →
      s.brg.training = false →
      let single : Prop := ∀ j ∈ s.jobs, j.id = id → j.paired = false
      let readable : Prop := ∀ r ∈ da.rows, good da.space r
      let writable (d : Desc) : Prop := ∀ r ∈ d.rows, mine d.space r
      let addr (j : Nat) : Nat := dmaAddr q j
      let dram : Prop := s.brgUp = true ∧ ∀ j ∈ places, s.region (addr j) = .dram ∧ addr j + 512 ≤ s.ddrSize ∧
        s.dramDenied (addr j) 512 = none
      let passes (gate : Nat) : Prop := s.gateDrops id 0 = false ∧ s.gateDrops id gate = false
      (o = .rcopy → readable → writable dd →
        ends (RowsLand k (places.map (fun j => (dd.space, nth 0 dd.rows j, row j))) s)) ∧
      (o = .smld → readable → ends (smem q.sx (places.flatMap (fun j => rowBytes (row j))))) ∧
      (o = .smst → writable da → ends (RowsLand k (places.map (fun j => (da.space, nth0 j,
        rowOfBytes ((s.smemGet k (q.sx + 512 * j) 512).map (fun b => (b, false)))))) s)) ∧
      (o = .dmaRead → writable da → dram → (∀ j ∈ places, ∀ b, b < 512 → s.dramPois (addr j + b) = false) →
        ends (RowsLand k (places.map (fun j => (da.space, nth0 j,
          rowOfBytes ((upFrom (addr j) 512).map (fun a => (s.dramByte a, false)))))) s)) ∧
      (o = .dmaWrite → readable → single → dram →
        (∀ j ∈ places, s.testDenied (.dma id k.val x.val) (addr j) 512 = false) → (bitsOf (fAux w) 10 1 = 1 → passes 3) →
        ends (fun t => ∀ a, t.dramByte a = match places.reverse.find? (fun j => decide (addr j ≤ a) && decide (a < addr j + 512)) with
          | some j => nth 0#8 (rowBytes (row j)) (a - addr j)
          | none => s.dramByte a)) ∧
      (∀ j, o = .psend → readable → single → s.job id = some j → s.brgUp = true → passes 0 →
        let sent : List ResRow := places.map (fun n =>
          ⟨c.stripe, fAux w % 16, k.val, da.d0, n % da.pitch + 1 == da.pitch, row n⟩)
        ends (fun t => t.job id = some { j with frames := j.frames.map (fun f =>
          if f.no = c.frame ∧ ∃ b ∈ f.bands, b.k = c.stripe ∧ b.aborted = false then { f with res := f.res ++ sent } else f) })) ∧
      (∀ n p, (o = .rxferRead ∨ o = .rxferWrite) → s.bindingOf id (bitsOf (fAux w) 0 3) (bitsOf (fAux w) 3 8) = some n →
        s.routeTo (vget s.lnk.ob n).chip = some p → s.getF (F.LNK_STAT_DUP_CHIP p) = 0 → da.rows ≠ [] →
        (if o = .rxferRead then writable da else readable ∧ single ∧ passes 0) →
        let ob : OutBind := vget s.lnk.ob n
        let last := da.rows.length - 1
        let msg (j : Nat) : LinkMsg :=
          if o = .rxferRead then
            { mkLink 1 0 s.lnk.nextTag (s.getF F.LNK_CFG_CHIP) ob.chip with win := ob.win, row := q.sx + j, key := ob.key, inl := 512 }
          else
            { mkLink 0 0 s.lnk.nextTag (s.getF F.LNK_CFG_CHIP) ob.chip with
              win := ob.win, row := q.sx + j, key := ob.key, len := 16, arrive := bitsOf (fAux w) 11 1 == 1 && j == last,
              pmask := pmaskOfRow (row j), data := flitsOfRow (row j) }
        runs (fun t t' => t' = t ∧ (t.ctx k x).token (fTk w) = ⟨.busy, 0⟩ ∧
          (t.port p).queue = (s.port p).queue ++ places.map msg ∧ ∃ r, t.lnk.waits = [r] ∧ r.tag = s.lnk.nextTag ∧
            r.core = k.val ∧ r.ctx = x.val ∧ r.tok = fTk w ∧ r.chip = ob.chip ∧ r.who = none)))

/-! ### Control registers -/

/-- A 64-bit access of a control register is two 32-bit accesses, the lower address first (R14, R16). A narrow read returns the
addressed bytes (R15). Any other access is refused with BAD_WIDTH: a write is dropped, a read returns zero (R15, R16). A
read of TIME_NOW_LO latches the upper half of DTIME into TIME_NOW_HI, and a read of TIME_NOW_HI that follows returns it
(R87); a read of DIG_RES_LO likewise latches its upper half (R456). -/
def Obligations.RegisterAccessAndLatches : Prop :=
  (∀ (e : WriteEnv) (m : Master) (off n v : Nat) (s : State),
     let answers (t : State) (x : Nat) : Host.Outcome State Fault Refusal := .next (t.emit (.answer (masterRank m) x false))
     let refused (t : State) : Prop :=
       RegsOnly statusRegs s t ∧ (mwf resetWord s.regs = true → t.getF F.GLB_STATUS_BAD_WIDTH = 1)
     (off % 4 = 0 → ∃ t, exec (.registerWrite e [⟨m, off, 4, v % 2 ^ 32⟩]) s = .next t ∧
       exec (.registerWrite e [⟨m, off, 8, v⟩]) s = exec (.registerWrite e [⟨m, off + 4, 4, v / 2 ^ 32⟩]) t) ∧
     (¬ (off % 4 = 0 ∧ (n = 4 ∨ n = 8)) → s.pathOpen m off true = true →
       ∃ t, exec (.registerWrite e [⟨m, off, n, v⟩]) s = .next t ∧ refused t) ∧
     (off % 4 = 0 → ∃ t t' a b, exec (.registerRead m off 4) s = answers t a ∧
       exec (.registerRead m (off + 4) 4) t = answers t' b ∧ exec (.registerRead m off 8) s = answers t' (a + b * 2 ^ 32)) ∧
     (0 < n → off % 4 + n ≤ 4 → ∃ t a, exec (.registerRead m (off - off % 4) 4) s = answers t a ∧
       exec (.registerRead m off n) s = answers t (a / 2 ^ (8 * (off % 4)) % 2 ^ (8 * n))) ∧
     (¬ (0 < n ∧ off % 4 + n ≤ 4) → ¬ (n = 8 ∧ off % 4 = 0) → ∃ t, exec (.registerRead m off n) s = answers t 0 ∧ refused t)) ∧
  (∀ (m : Master) (k : Fin 8) (s : State), mwf resetWord s.regs = true →
     let answers (t : State) (x : Nat) : Host.Outcome State Fault Refusal := .next (t.emit (.answer (masterRank m) x false))
     let lo (o : Nat) : Prop := s.pathOpen m o false = true ∧ (aftBlock o = true → s.brgUp = true)
     (lo F.TIME_NOW_LO_NOW_LO.off → ∃ t, exec (.timeNowLoRead m) s = answers t (s.time.now % 2 ^ 32) ∧
       RegsOnly [F.TIME_NOW_HI_NOW_HI.off] s t ∧
       exec (.registerRead m F.TIME_NOW_HI_NOW_HI.off 4) t = answers t (s.time.now / 2 ^ 32 % 2 ^ 32)) ∧
     (lo (F.DIG_RES_LO k).off → ∃ t, exec (.digResLoRead k m) s = answers t (s.getReg (F.DIG_RES_LO k).off).toNat ∧
       RegsOnly [(F.DIG_RES_HI k).off] s t ∧
       exec (.registerRead m (F.DIG_RES_HI k).off 4) t = answers t (s.core k).digHi.toNat))

/-- A write that lands changes each field of its register by its access code (R20, Table SC-2): RO stays, RW takes the value,
W1C and W1S clear and set the bits written 1, WO reads 0, RWL is RW until its lock is set. A reserved encoding leaves the
field and sets BAD_ENCODING (R19). Over the registers whose write starts nothing. -/
def Obligations.FieldsFollowAccessCodes : Prop :=
  ∀ (e : WriteEnv) (m : Master) (off v : Nat) (s : State) (r : RegDesc),
    (off / 65536 ∈ [0, 12, 13] ∧ off ≠ F.GLB_GPIO_OUT_OUT.off ∨
      off / 65536 ∈ [6, 7, 14] ∧ off ∉ [F.EDGE_CTRL_CLR.off, F.COF_CTRL_CANCEL.off, F.BRG_CTRL_TRAIN.off]) →
    off % 4 = 0 → off ∉ statusRegs → v < 2 ^ 32 → mwf resetWord s.regs = true → Lands s m off → regAt off = some r →
    let bit (f : FieldDesc) (x : State) (i : Nat) : Bool := (x.getF ⟨off, f.lo, f.w⟩).testBit i
    let new (f : FieldDesc) : Nat := v / 2 ^ f.lo % 2 ^ f.w
    let locked := s.lockSet off
    ∃ t, exec (.registerWrite e [⟨m, off, 4, v⟩]) s = .next t ∧ RegsOnly (off :: statusRegs) s t ∧
      (∀ f ∈ r.fields, ∀ i, i < f.w → bit f t i = match f.acc with
        | .ro => bit f s i
        | .rw => if f.reserved (new f) then bit f s i else (new f).testBit i
        | .w1c => bit f s i && !(new f).testBit i
        | .w1s => bit f s i || (new f).testBit i
        | .wo => false
        | .rwl => if locked ∨ f.reserved (new f) then bit f s i else (new f).testBit i) ∧
      ((∃ f ∈ r.fields, f.reserved (new f) = true ∧ (f.acc = .rw ∨ f.acc = .wo ∨ (f.acc = .rwl ∧ locked = false))) →
        t.getF F.GLB_STATUS_BAD_ENCODING = 1) ∧
      ((∃ f ∈ r.fields, f.acc = .rwl ∧ locked = true) → t.getF F.GLB_STATUS_LOCKED_WRITE = 1)

/-- A register write that does not land is dropped: without a trace on a closed path (R591, R595, R611), with AFT_UNREACHABLE
while the bridge is down (R33), with NOT_OWNER and a count in GLB_DENYCNT in a block of another owner (R548), and with
CORE_ASLEEP in the block of a core in NAP or DARK (R169). Over every command that is one register write. Writes of the
doorbell in one cycle apply in the order LCP, HOST, HSP, LINK: the last one that lands stands, and COLLIDE is set (R553). -/
def Obligations.RefusedWritesAndTheDoorbell : Prop :=
  (∀ (i : Instr) (m : Master) (off : Nat) (s : State), i.regWriteOf = some (m, off) →
     let drops (l : List Nat) (f : Fld) : Prop := ∃ t, exec i s = .next t ∧ RegsOnly l s t ∧
       (mwf resetWord s.regs = true → t.getF f = 1)
     (s.pathOpen m off true = false → exec i s = .next s) ∧
     (s.pathOpen m off true = true →
       (aftBlock off = true → s.brgUp = false → drops statusRegs F.GLB_STATUS_AFT_UNREACHABLE) ∧
       ((aftBlock off = true → s.brgUp = true) →
         (s.mayWrite m off = false → drops (F.GLB_DENYCNT.off :: statusRegs) F.GLB_STATUS_NOT_OWNER ∧
           ∃ t, exec i s = .next t ∧ (mwf resetWord s.regs = true →
             t.getF F.GLB_DENYCNT = satAdd F.GLB_DENYCNT.w (s.getF F.GLB_DENYCNT) 1)) ∧
         (s.mayWrite m off = true → s.asleep off = true → off % 65536 ≠ 4 →
           drops [(F.CORE_STATUS_CORE_ASLEEP (coreOfOff off)).off] (F.CORE_STATUS_CORE_ASLEEP (coreOfOff off)))))) ∧
  (∀ (a b : Word) (s : State), mwf resetWord s.regs = true → s.pathOpen .hsp F.HOST_MBOX_IN.off true = true →
     s.mayWrite .hsp F.HOST_MBOX_IN.off = true → ∃ t, exec (.hostMboxIn [(.hsp, b), (.lcp, a)]) s = .next t ∧
       RegsOnly (F.HOST_MBOX_IN.off :: F.GLB_DENYCNT.off :: statusRegs) s t ∧ t.getReg F.HOST_MBOX_IN.off = b ∧
       t.getF F.GLB_STATUS_COLLIDE = 1)

/-! ### Control registers of a core -/

/-- HALTc and RESUMEc of CORE_CTRL (R146, R228): a context halts at its next instruction boundary, and a halted one goes on
unless HALT ended its program or its job does not run. The clear bits of a core and of EDGE_CTRL set their counters to 0
and change nothing else: CLR_SAT (R159), CLR_PERF (R155), SP_CLR (R178), CK_CLR (R441) and EDGE_CLR (R317). ST_CLR, DX_CLR
and INVALIDATE act on the job that ST_SEL names (Table ST-4, Table DX-4, R345). -/
def Obligations.CoreControlAndFigures : Prop :=
  (∀ (k : Fin 8) (x : Fin 2) (m : Master) (v : Word) (s : State), Lands s m (F.CORE_CTRL_HALT0 k).off →
     let y : Fin 3 := ⟨x.val, by omega⟩
     let c := s.ctx k y
     let shown (t : State) (n : Nat) : Prop := mwf resetWord s.regs = true →
       t.getF (if x = 0 then F.CORE_STATUS_HALTED0 k else F.CORE_STATUS_HALTED1 k) = n
     let frame (t : State) : Prop := t = { s with regs := t.regs, wire := t.wire, cores := t.cores } ∧
       (∀ q z, q ≠ k → t.ctx q z = s.ctx q z) ∧ (v.toNat % 64 = 0 → ∀ z, z ≠ y → t.ctx k z = s.ctx k z)
     (v.getLsbD (2 + x.val) = false → ∃ t, exec (.coreHalt k x m v) s = .next t ∧ frame t ∧
       (c.halted = true → t.ctx k y = c) ∧
       (c.halted = false → c.stalled = none → c.stallG = none → c.crWait = none →
         t.ctx k y = { c with halted := true, haltReq := false } ∧ shown t 1) ∧
       (c.halted = false → (c.stalled ≠ none ∨ c.stallG ≠ none ∨ c.crWait ≠ none) → t.ctx k y = { c with haltReq := true })) ∧
     (v.getLsbD x.val = false → ∃ t, exec (.coreResume k x m v) s = .next t ∧ frame t ∧
       (∀ id j, c.halted = true → c.ended = false → c.job = some id → s.job id = some j → j.state = .running →
         t.ctx k y = { c with halted := false, haltReq := false } ∧ shown t 0) ∧
       ((c.halted = false ∨ c.ended = true ∨ c.job = none ∨ (∀ j ∈ s.jobs, c.job = some j.id → j.state ≠ .running)) →
         t.ctx k y = c))) ∧
  (∀ (k : Fin 8) (m : Master) (v : Word) (s : State), mwf resetWord s.regs = true →
     let clears (i : Instr) (off : Nat) (only : Prop) (l : List Nat) : Prop := Lands s m off →
       ∃ t, exec i s = .next t ∧ (∀ o ∈ l, t.getReg o = 0#32) ∧ (only → RegsOnly (off :: statusRegs ++ l) s t)
     clears (.clrSat k m v) (F.CORE_CTRL_HALT0 k).off (v.toNat % 64 = 0) [(F.CORE_SAT k).off] ∧
     clears (.clrPerf k m v) (F.CORE_CTRL_HALT0 k).off (v.toNat % 64 = 0)
       [(F.CORE_PERF_CYC k).off, (F.CORE_PERF_ARR k).off, (F.CORE_PERF_DENSE k).off, (F.CORE_PERF_STALL k).off] ∧
     clears (.spClr k m v) (F.SP_CLR_CLR k).off True
       [(F.CORE_SP_CE k).off, (F.CORE_SP_UE k).off, (F.CORE_SP_CONFLICT k).off, (F.SP_SCRUB_LATE k).off] ∧
     clears (.ckClr k m v) (F.CK_CTRL_CLR k).off True
       ((upFrom 0 8).map (fun n => (F.CK_CTRL_CLR k).off + 8 + 4 * n)) ∧
     clears (.edgeClr m v) F.EDGE_CTRL_CLR.off True [F.EDGE_SAT.off, F.EDGE_DET_DROP.off]) ∧
  (∀ (m : Master) (v : Word) (s : State) (j : Job), mwf resetWord s.regs = true → s.job (s.getF F.ST_SEL_JOB) = some j →
     let clears (i : Instr) (off : Nat) (j' : Job) : Prop := Lands s m off → ∃ t, exec i s = .next t ∧
       t = { s with regs := t.regs, wire := t.wire, jobs := t.jobs } ∧ (∀ o, o ∉ off :: statusRegs → t.getReg o = s.getReg o) ∧
       (∀ id, id ≠ j.id → t.job id = s.job id) ∧ t.job j.id = some j'
     clears (.stClr m v) F.ST_CTRL_CLR.off { j with slackLast := 0, slackMin := 2147483647, miss := 0, abort := 0 } ∧
     clears (.dxClr m v) F.DX_CLR_CLR.off
       { j with dxDelta := 0, dxRefresh := 0, dxStaleN := 0, dxOff := 0, dxScene := 0, dxChanged := 0, dxPos := 0 } ∧
     (Lands s m F.DX_CTRL_ENABLE.off → ∃ t j', exec (.dxInvalidate m v) s = .next t ∧ t.job j.id = some j' ∧
       j' = { j with dxInval := true, dxCtrl := j'.dxCtrl } ∧ j'.dxCtrl % 2 = v.toNat % 2))

/-! ### Checks of array results, digests and repairs -/

/-- DIG_GO (R456): the firmware starts the digest of DIG_CNT rows from DIG_ROW, and GO is dropped while one runs; another
master's write is dropped, with NOT_OWNER. Digests and repairs (R456–R461): the digest that DIG_GO started ends, with POISON where a
word failed path parity (R438); a sweep
falls due, or is asked for, and digests every replica that is not being written, on cores that are awake; a repair whose
source is clean and whose copy digests as wanted is counted in DIG_REPAIRS. -/
def Obligations.DigestsAndRepairs : Prop :=
  (∀ (k : Fin 8) (m : Master) (v : Word) (s : State), mwf resetWord s.regs = true →
     let c := s.core k
     (m ≠ .lcp → Lands s m (F.DIG_GO_GO k).off → ∃ t, exec (.digGo k m v) s = .next t ∧ RegsOnly (F.GLB_DENYCNT.off :: statusRegs) s t ∧
       t.getF F.GLB_STATUS_NOT_OWNER = 1) ∧
     (s.brgUp = true → s.pstate k < 2 → ∃ t, exec (.digGo k .lcp v) s = .next t ∧
       t = { s with regs := t.regs, cores := t.cores, wire := t.wire } ∧ (∀ q, q ≠ k → t.core q = s.core q) ∧
       (c.digBusy = true → t.core k = c) ∧
       (c.digBusy = false → t.getF (F.DIG_GO_BUSY k) = 1 ∧ t.core k =
         { c with digBusy := true, digRow := s.getF (F.DIG_ROW_FIRST k), digCnt := s.getF (F.DIG_CNT_COUNT k) }))) ∧
  (∀ (k : Fin 8) (m : Master) (v : Word) (e : DigRead) (s : State), mwf resetWord s.regs = true →
     let c := s.core k
     let asked (t : State) : Prop := ∀ (p : Pkg) (q : Fin 8) (g : Nat), p ∈ s.pkgs → s.pkgWriting p = false → p.cores.contains q.val = true →
       s.pstate q < 2 → s.getF (F.CORE_STATUS_QUAR q) = 0 → g < p.segs → ⟨p.id, g, q.val, 1⟩ ∈ t.dig.todo
     (c.digBusy = true → s.off = false → s.pstate k < 2 → c.initing = false → c.waking = false →
       (∀ r i, r < 131072 → i < 64 → (readWord (mget zeroWord c.sp (r * 64 + i))).1 = .clean) →
       ∃ t, exec (.digestDone k e) s = .next t ∧ (t.core k).digBusy = false ∧ t.getF (F.DIG_GO_BUSY k) = 0 ∧
         t.getF (F.DIG_GO_POISON k) = (if ∃ h ∈ e.par, c.digRow ≤ h.1 ∧ h.1 < c.digRow + min c.digCnt (131072 - c.digRow) then 1
           else 0) ∧ t.getF (F.DIG_RES_LO k) + (t.core k).digHi.toNat * 2 ^ 32 =
           (BitVec.ofNat 64 (crc64 ((upFrom c.digRow (min c.digCnt (131072 - c.digRow))).flatMap (fun r =>
             (upFrom 0 64).flatMap (fun i => leBytes 8 (mget zeroWord c.sp (r * 64 + i)).data.toNat)))) ^^^ e.err).toNat) ∧
     (s.getF F.DIG_CTRL_PERIOD ≠ 0 → s.dig.lastSweep + s.getF F.DIG_CTRL_PERIOD * 1000000 ≤ s.time.now →
       ∃ t, exec .digestSweep s = .next t ∧ t.dig.lastSweep = s.time.now ∧ t = { s with dig := t.dig } ∧ asked t) ∧
     (s.getF F.DIG_CTRL_PERIOD ≠ 0 → s.time.now < s.dig.lastSweep + s.getF F.DIG_CTRL_PERIOD * 1000000 →
       exec .digestSweep s = .next s) ∧
     (Lands s m F.DIG_CTRL_SWEEP_NOW.off → ∃ t, exec (.sweepNow m v) s = .next t ∧ asked t ∧
       t = { s with regs := t.regs, wire := t.wire, dig := t.dig }) ∧
     (∀ r p d, s.dig.repairs.find? (fun r => r.core == k.val) = some r → s.pkgs.find? (fun p => p.id == r.pkg) = some p →
       s.spHeld k = false → s.pstate k < 2 → s.brgUp = true → s.spHeld (coreOf r.src) = false → s.pstate (coreOf r.src) < 2 →
       r.want = some d →
       let rows := (s.copyRows (coreOf r.src) (upFrom (p.segRows r.seg).1 (p.segRows r.seg).2))
       let put := ((upFrom (p.segRows r.seg).1 (p.segRows r.seg).2).zip rows.1).foldl (fun t e => t.putRow k e.1 e.2) rows.2
       let sum := put.digestRows k (p.segRows r.seg).1 (p.segRows r.seg).2 e.par
       (∀ w ∈ rows.1, rowPoisoned w = false) → sum.1 ^^^ e.err = d → sum.2.1 = false →
       ∃ t, exec (.repairCopyDone k e) s = .next t ∧ r ∉ t.dig.repairs ∧
         t.getF F.DIG_REPAIRS = satAdd F.DIG_REPAIRS.w (sum.2.2.getF F.DIG_REPAIRS) 1))

/-- CHECK_BLOCK_DONE of the array instruction at the front of a context's queue (R441–R447, R451): the block's cells land as
they came out; a check line that mismatches its cells, where the lanes check and the block is not excluded for saturation, starts
a replay, or past REPLAY_MAX
poisons the block with a CK_STORM record. REPLAY_DONE (R448, R449, Table SE-2). The replay agrees with the first result: it
stands, and the checker counts, suspect when the replay's lines fail too. It differs with its lines good: the replay lands,
TRANSIENT. It differs with its lines bad: the rows are poisoned and the token faults, PERSISTENT. -/
def Obligations.CheckBlocksAndReplays : Prop :=
  (∀ (k : Fin 8) (x : Fin 3) (o p : Nat) (lines : List LineSum) (errs : List CellErr) (s : State) (i : UInst)
     (l : List UInst), (s.ctx k x).queue 0 = i :: l → mwf resetWord s.regs = true →
     let go := exec (.checkBlockDone k x o p lines errs) s
     let dd := descOf i.dd
     let there : Prop := i.started = true ∧ i.replay = none ∧ blockCells dd o p ≠ [] ∧ (o, p) ∉ i.checked
     let seen : UInst := { i with checked := (o, p) :: i.checked }
     let asIs : UInst := { seen with effs := patchCells dd o p errs i.effs }
     let on : Prop := i.cells ≠ [] ∧ s.forceF (F.CK_CTRL_ENABLE k) ≠ 0
     let skips : Prop := i.intPath = true ∧ (o, p) ∈ i.satB
     let wrong : Prop := i.badLines o p lines errs ≠ []
     let few : Prop := (s.ctx k x).replays < s.forceF (F.CK_CTRL_REPLAY_MAX k)
     (¬ there → go = .next s) ∧
     (there → ¬ on → go = .next (s.setCtx k x ((s.ctx k x).setQueue 0 (asIs :: l)))) ∧
     (there → on → skips → ∃ t, go = .next t ∧ RegsOnly [(F.CK_SKIP k).off] (s.setCtx k x ((s.ctx k x).setQueue 0 (asIs :: l))) t ∧
       t.getF (F.CK_SKIP k) = satAdd (F.CK_SKIP k).w (s.getF (F.CK_SKIP k)) 1) ∧
     (there → on → ¬ skips → ¬ wrong → go = .next (s.setCtx k x ((s.ctx k x).setQueue 0 (asIs :: l)))) ∧
     (there → on → ¬ skips → wrong → few → ∃ t r, go = .next t ∧ (t.ctx k x).queue 0 = { seen with replay := some r } :: l ∧
       (t.ctx k x).replays = (s.ctx k x).replays + 1 ∧ r.o = o ∧ r.p = p ∧ r.errs = errs ∧
       t.getF (F.CK_LAST_ADDR k) = r.addr % 2 ^ 32 ∧ t.flt = s.flt) ∧
     (there → on → ¬ skips → wrong → ¬ few → ∃ t, go = .next t ∧
       (t.ctx k x).queue 0 = { seen with effs := poisonBlock dd o p false i.effs } :: l ∧ t.getF (F.CK_STATUS_STORM k) = 1 ∧
       (s.brgUp = true → ∃ q, t.flt.aft = s.flt.aft ++ [q] ∧ q.cls = 0x24 ∧ q.job = i.job ∧ q.poison = true))) ∧
  (∀ (k : Fin 8) (x : Fin 3) (lines : List LineSum) (errs : List CellErr) (s : State) (i : UInst) (l : List UInst),
     (s.ctx k x).queue 0 = i :: l → mwf resetWord s.regs = true →
     let go := exec (.replayDone k x lines errs) s
     (i.replay = none → go = .next s) ∧
     ∀ r, i.replay = some r →
       let dd := descOf i.dd
       let first := patchCells dd r.o r.p r.errs i.effs
       let again := patchCells dd r.o r.p errs i.effs
       let wrong : Prop := i.badLines r.o r.p lines errs ≠ []
       let ends (e : List UEff) (cause : Nat) (f : Fld) (cls : Nat) : Prop := ∃ t, go = .next t ∧
         (t.ctx k x).queue 0 = { i with replay := none, effs := e, cause := cause } :: l ∧
         t.getF f = satAdd f.w (s.getF f) 1 ∧ (s.brgUp = true → ∃ q, t.flt.aft = s.flt.aft ++ [q] ∧ q.cls = cls ∧ q.job = i.job)
       (first = again → wrong → ends first i.cause (F.CK_CHECKER k) 0x20) ∧
       (first = again → ¬ wrong → ends first i.cause (F.CK_CHECKER k) 0x21) ∧
       (first ≠ again → ¬ wrong → ends again i.cause (F.CK_TRANSIENT k) 0x22) ∧
       (first ≠ again → wrong → ends (poisonBlock dd r.o r.p true i.effs) (if i.cause = 0 then 0x09 else i.cause)
         (F.CK_PERSISTENT k) 0x23))

/-! ### Device time, frame sync and sensors -/

/-- Frame-sync generators (R92, R93, R520): no edge before it is due; a due one counts, takes the values written since into
force, and drives a pulse of WIDTH unless WIDTH is 0 or not below PERIOD; the edge of ONESHOT is the only one. A generator
of mode 2, whose PERIOD is ignored (R94), holds over without its master's edge. The pulse ends WIDTH after its edge. Trigger
outputs and the sensor reset (R133, R134): a trigger takes every edge of its generator, its pulse starts DELAY after it, or at
FIRE, and ends WIDTH (as in force) later; RELEASE drives SENSOR_RST_N high. -/
def Obligations.FrameSyncAndTriggers : Prop :=
  (∀ (n : Fin 4) (s : State), Memory.Wf s →
     let g := s.gen n
     let due : Nat := s.forceF (F.FSG_START_LO n) + s.forceF (F.FSG_START_HI n) * 2 ^ 32 +
       g.next * (s.forceF (F.FSG_PERIOD n) * 65536 + s.forceF (F.FSG_FRAC n)) / 65536
     let w := s.getF (F.FSG_WIDTH n)
     let bad : Prop := w = 0 ∨ (s.getF (F.FSG_CTRL_MODE n) ≠ 2 ∧ s.getF (F.FSG_PERIOD n) ≤ w)
     let follows (q : Fin 2) : Prop := s.getF (F.IN_TRIG_GEN q) = n.val ∧ s.getF (F.IN_TRIG_ENABLE q) = 1
     let fires (e : Nat) (t : State) : Prop := exec (.fsgEdge n) s = .next t ∧
       t = { s with regs := t.regs, force := t.force, wire := t.wire, fsg := t.fsg, intake := { s.intake with trig := t.intake.trig },
                    lnk := { s.lnk with port := t.lnk.port } } ∧ (∀ q, q ≠ n → t.gen q = s.gen q) ∧
       (∀ q, follows q → t.trig q =
         { s.trig q with due := (s.trig q).due ++ [(e + s.getF (F.IN_TRIG_DELAY q), s.getF (F.IN_TRIG_WIDTH q))] }) ∧
       (∀ q, ¬ follows q → (s.getF (F.IN_TRIG_GEN q) = n.val ∨ s.forceF (F.IN_TRIG_GEN q) ≠ n.val) → t.trig q = s.trig q) ∧
       t.getF (F.FSG_COUNT n) = (s.getF (F.FSG_COUNT n) + 1) % 2 ^ 32 ∧ (t.gen n).prevEdge = g.lastEdge ∧
       (t.gen n).lastEdge = e ∧ (t.gen n).pulseEnd = e + w ∧ ((t.gen n).level = true ↔ ¬ bad) ∧
       (bad → t.getF (F.FSG_CTRL_BAD_WIDTH n) = 1)
     (s.getF (F.FSG_CTRL_ENABLE n) = 0 → exec (.fsgEdge n) s = .next s) ∧
     (s.getF (F.FSG_CTRL_ENABLE n) = 1 → s.forceF (F.FSG_CTRL_MODE n) ≠ 2 →
       (g.armed = false → exec (.fsgEdge n) s = .next s) ∧ (s.time.now < due → exec (.fsgEdge n) s = .next s) ∧
       (g.armed = true → due ≤ s.time.now → ∃ t, fires due t ∧
         (s.getF (F.FSG_CTRL_MODE n) = 1 → (t.gen n).armed = false))) ∧
     (s.getF (F.FSG_CTRL_ENABLE n) = 1 → s.forceF (F.FSG_CTRL_MODE n) = 2 →
       (∀ e l, g.linkEdges = e :: l → e ≤ s.time.now → ∃ t, fires e t ∧
         (s.getF (F.FSG_CTRL_MODE n) = 2 → (t.gen n).linkEdges = l ∧ (t.gen n).holdover = 0)) ∧
       (g.linkEdges = [] → g.holdover < 4 → g.prevEdge < g.lastEdge → 0 < g.prevEdge →
         2 * g.lastEdge - g.prevEdge ≤ s.time.now → ∃ t, fires (2 * g.lastEdge - g.prevEdge) t ∧
           (t.gen n).holdover = g.holdover + 1 ∧ t.getF F.LNK_TIME_SYNC_HOLD = 1 ∧ t.getF ⟨F.HOST_ICAUSE.off, 26, 1⟩ = 1)) ∧
     (g.level = true → g.pulseEnd ≤ s.time.now → exec (.fsgPulseEnd n) s = .next (s.setGen n { g with level := false })) ∧
     ((g.level = false ∨ s.time.now < g.pulseEnd) → exec (.fsgPulseEnd n) s = .next s)) ∧
  (∀ (t : Fin 2) (m : Master) (v : Word) (s : State), Memory.Wf s →
     let x := s.trig t
     let w := s.forceF (F.IN_TRIG_WIDTH t)
     (∀ d l, x.due = d :: l → d.1 ≤ s.time.now →
       exec (.triggerEdge t) s = .next (s.setTrig t { level := decide (0 < d.2), pulseEnd := s.time.now + d.2, due := l })) ∧
     ((∀ d ∈ x.due.head?, s.time.now < d.1) → exec (.triggerEdge t) s = .next s) ∧
     (x.level = true → x.pulseEnd ≤ s.time.now → exec (.triggerPulseEnd t) s = .next (s.setTrig t { x with level := false })) ∧
     ((x.level = false ∨ s.time.now < x.pulseEnd) → exec (.triggerPulseEnd t) s = .next s) ∧
     (Lands s m (F.IN_TRIG_FIRE t).off → ∃ u, exec (.trigFire t m v) s = .next u ∧
       u.trig t = { level := decide (0 < w), pulseEnd := s.time.now + w, due := x.due } ∧
       u = { s with regs := u.regs, force := u.force, wire := u.wire, intake := { s.intake with trig := u.intake.trig } }) ∧
     (Lands s m F.IN_SENS_RST_RELEASE.off → ∃ u, exec (.rstRelease m v) s = .next u ∧
       RegsOnly (F.IN_SENS_RST_RELEASE.off :: statusRegs) s u ∧ u.getF F.IN_SENS_RST_RELEASE = 1))

/-- Sensor masters and the probe list (R126–R132): a list starts at its first descriptor, which is refused when it is malformed
or SDA stays low; a NAK, a stretch beyond STRETCH_MAX and the end of a list set their status bit; a descriptor drives its address
and the bytes it writes, then its address to read, and read bytes go to its read register. The probe list runs only while no
context is enabled, and shows what each entry answered. -/
def Obligations.SensorMastersRunLists : Prop :=
  ∀ (m : Fin 2) (sda : Nat) (mm : Master) (v : Word) (ack : Bool) (bytes : List (BitVec 8)) (us : Nat)
    (res : List (Bool × Byte × Byte)) (s : State), mwf resetWord s.regs = true →
    let x := s.i2cOf m
    let begun (t : State) (y : I2cSt) (frame : Bool) (d : Nat) : Prop :=
      (descBad (s.i2cDesc m frame d) = false → sda < 2 → t.i2cOf m = { y with run := if frame then .frame else .imm, idx := d }) ∧
      (descBad (s.i2cDesc m frame d) = true → t.getF (F.IN_I2C_STAT_BAD_DESC m) = 1) ∧
      (descBad (s.i2cDesc m frame d) = false → 2 ≤ sda → t.getF (F.IN_I2C_STAT_BUS_STUCK m) = 1)
    (Lands s mm (F.IN_I2C_CTRL_GO m).off →
      (x.run = .idle → x.due = false → ∃ t, exec (.i2cGo m sda mm v) s = .next t ∧ begun t { x with wait := none } false 0) ∧
      (x.run = .frame → ∃ t, exec (.i2cGo m sda mm v) s = .next t ∧ t.i2cOf m = { x with wait := some 0 }) ∧
      (x.run = .imm → ∃ t, exec (.i2cGo m sda mm v) s = .next t ∧ t.intake = s.intake)) ∧
    (s.forceF (F.IN_I2C_CTRL_FL_EN m) = 1 → x.ran = false → x.run = .idle →
      (s.inCtx (coreOf (s.forceF (F.IN_I2C_CTRL_FL_CTX m)))).cur = none →
      ∃ t, exec (.i2cFrameListStart m sda) s = .next t ∧ begun t { x with due := false, ran := true } true 0) ∧
    (x.run ≠ .idle →
      let frame : Bool := x.run == .frame
      let d := s.i2cDesc m frame x.idx
      let addr (b : Nat) : Byte := BitVec.ofNat 8 (2 * descAddr d + b)
      (s.getF (F.IN_I2C_CFG_STRETCH_MAX m) < us →
        ∃ t, exec (.i2cStretchTimeout m ⟨us, sda⟩) s = .next t ∧ t.getF (F.IN_I2C_STAT_TIMEOUT m) = 1) ∧
      (us ≤ s.getF (F.IN_I2C_CFG_STRETCH_MAX m) → exec (.i2cStretchTimeout m ⟨us, sda⟩) s = .next s) ∧
      (∃ t, exec (.i2cDescriptorDone m ack bytes sda) s = .next t ∧
        (descNw d ≠ 0 → Wire.i2c m (s.i2cKhz m) (addr 0 :: leBytes (descNw d) (bitsOf d 16 32)) ∈ t.wire) ∧
        (descNr d ≠ 0 → Wire.i2c m (s.i2cKhz m) [addr 1] ∈ t.wire) ∧
        (ack = false → t.getF (F.IN_I2C_STAT_NAK m) = 1) ∧
        (ack = true → descNr d ≠ 0 → t.getReg (readWordOff m frame x.idx) = BitVec.ofNat 32 (leNat (bytes.take (descNr d)))) ∧
        (ack = true → (bitsOf d 13 1 = 1 ∨ 31 ≤ x.idx) → t.getF (F.IN_I2C_STAT_DONE m) = 1))) ∧
    (Lands s mm F.IN_PROBE_CTRL_GO.off →
      (s.anyCtxOn = true → ∃ t, exec (.probeGo res mm v) s = .next t ∧ t.getF F.IN_PROBE_CTRL_PROBE_BUSY = 1 ∧
        RegsOnly (F.IN_PROBE_CTRL_GO.off :: statusRegs) s t) ∧
      (s.anyCtxOn = false → ∃ t, exec (.probeGo res mm v) s = .next t ∧ t.getF F.IN_PROBE_CTRL_DONE = 1 ∧
        ∀ n a h l, n < 8 → res[n]? = some (a, h, l) → t.getF (F.IN_PROBE_RES_ACK n) = (if a then 1 else 0) ∧
          t.getF (F.IN_PROBE_RES_VALUE n) = if a then h.toNat * 256 + l.toNat else 0))

/-! ### Power -/

/-- NAP, DARK and RUN of PWR_ISLk and AUTO_NAP (R560, R561, R585): a core that may sleep writes its SLEEP packet and flushes
its Logbook; one that may not sets REQ_REFUSED. It powers down when the flush ends or after 20 µs, losing its rows in DARK.
A core that was asked to wake comes to IDLE: from NAP with its wake pass, from DARK with an initialisation (R186, R561). -/
def Obligations.CoresSleepAndWake : Prop :=
  ∀ (k : Fin 8) (m : Master) (v : Word) (s : State), mwf resetWord s.regs = true →
    let c := s.core k
    let may := Lands s m (F.PWR_ISL_REQ k).off
    let begins (i : Instr) (state : Nat) : Prop := ∃ t, exec i s = .next t ∧ (t.core k).logFlush = true ∧
      (t.core k).logFlushAt = s.time.aft ∧ (t.core k).sleepTo = state ∧ t.pstate k = s.pstate k ∧
      (∀ q, q ≠ k → t.core q = s.core q) ∧ t.jobs = s.jobs ∧ (t.core k).sp = c.sp ∧
      (c.log.length < 1024 → ∃ p, (t.core k).log = c.log ++ [p] ∧ p.typ = 0x40 ∧ p.time = s.time.aft)
    let refuses (i : Instr) : Prop := ∃ t, exec i s = .next t ∧ t.getF (F.PWR_ISL_CLIP_REQ_REFUSED k) = 1 ∧
      RegsOnly ((F.PWR_ISL_REQ k).off :: (F.PWR_ISL_CLIP_REQ_REFUSED k).off :: statusRegs) s t
    let off (i : Instr) : Prop := c.sleepTo < 4 → ∃ t, exec i s = .next t ∧ t.pstate k = c.sleepTo ∧
      (t.core k).log = [] ∧ (t.core k).logFlush = false ∧ t.getF (F.PWR_ISL_ST_F_SET k) = 0 ∧
      (t.core k).sp = (if c.sleepTo = psDark then [] else c.sp) ∧
      t.getF (F.CORE_LOGDROP k) = satAdd 32 (s.getF (F.CORE_LOGDROP k)) c.log.length
    (may → s.pstate k < 2 → (s.napOk k = true → begins (.napRequest k m v) psNap) ∧
      (s.napOk k = false → refuses (.napRequest k m v))) ∧
    (may → 2 ≤ s.pstate k → ∃ t, exec (.napRequest k m v) s = .next t ∧ t.cores = s.cores ∧ t.pwr = s.pwr) ∧
    (may → s.pstate k < 2 → (s.darkOk k = true → begins (.darkRequest k m v) psDark) ∧
      (s.darkOk k = false → refuses (.darkRequest k m v))) ∧
    (may → s.pstate k = psNap → s.darkOk k = true →
      ∃ t, exec (.darkRequest k m v) s = .next t ∧ t.pstate k = psDark ∧ (t.core k).sp = []) ∧
    (may → (2 ≤ s.pstate k → (s.isl k).wakeWhy = none → ∃ t, exec (.runRequest k m v) s = .next t ∧ (t.isl k).wakeWhy = some 1) ∧
      (s.pstate k < 2 → ∃ t, exec (.runRequest k m v) s = .next t ∧ t.core k = { c with logFlush := false })) ∧
    (s.off = false → s.getF (F.PWR_ISL_AUTO_NAP k) = 1 → s.pstate k = psIdle → c.logFlush = false → s.napOk k = true →
      s.startsOn k = false → c.idleSince + 1000000 ≤ s.time.now → begins (.autoNap k) psNap) ∧
    ((s.getF (F.PWR_ISL_AUTO_NAP k) = 0 ∨ s.startsOn k = true) → exec (.autoNap k) s = .next s) ∧
    (c.logFlush = true → c.log = [] → off (.logbookFlushDone k)) ∧ (c.log ≠ [] → exec (.logbookFlushDone k) s = .next s) ∧
    (c.logFlush = true → c.logFlushAt + 20000 ≤ s.time.aft → off (.napFlushTimeout k)) ∧
    (s.time.aft < c.logFlushAt + 20000 → exec (.napFlushTimeout k) s = .next s) ∧
    (∀ w, (s.isl k).wakeWhy = some w → 2 ≤ s.pstate k → s.served = true →
      ∃ t, exec (.coreWake k) s = .next t ∧ t.pstate k = psIdle ∧ (t.isl k).wakeWhy = none ∧
        (c.retLost = true → (t.core k).initing = true ∧ t.getF (F.SP_STATUS_RET_LOST k) = 1) ∧
        (c.retLost = false → s.pstate k = psDark → (t.core k).initing = true ∧ (t.core k).remapped = [] ∧
          t.getF (F.SP_STATUS_INIT_DONE k) = 0) ∧
        (c.retLost = false → c.initing = true → (t.core k).initing = true) ∧
        (c.retLost = false → c.initing = false → s.pstate k = psNap → (t.core k).waking = true ∧ (t.core k).sp = c.sp)) ∧
    (((s.isl k).wakeWhy = none ∨ s.served = false) → exec (.coreWake k) s = .next s)

/-- REQ = SLEEP is honoured only in READY, and in any other state it is dropped with REFUSED (R563). -/
def Obligations.SleepOnlyFromReady : Prop :=
  ∀ (m : Master) (v : Word) (s : State), mwf resetWord s.regs = true → Lands s m F.PWR_DEV_REQ.off →
    (s.off = false → s.dev = devReady → ∃ t, exec (.sleepRequest m v) s = .next t ∧ t.dev = devSleep ∧
      (∀ k, 2 ≤ t.pstate k) ∧ t.getF F.HOST_STATUS_LINK_UP = 0 ∧ t.brgUp = false ∧ t.jobs = s.jobs) ∧
    (s.dev ≠ devReady → ∃ t, exec (.sleepRequest m v) s = .next t ∧ t.getF F.PWR_DEV_REFUSED = 1 ∧ t.dev = s.dev ∧
      RegsOnly (F.PWR_DEV_REQ.off :: statusRegs) s t)

/-- Orderly power-down and the end of SLEEP (R565, R566, R630): POWERDOWN is accepted in READY and RUN; once everything has
drained the part is in STANDBY. An enabled wake source returns a sleeping part to READY, or to TAMPER_HOLD when the latch
is set. -/
def Obligations.PowerDownAndWakeUp : Prop :=
  ∀ (m : Master) (v : Word) (src : Fin 3) (s : State), mwf resetWord s.regs = true →
    (Lands s m F.PWR_DEV_REQ.off → (s.served = true → ∃ t, exec (.powerdownRequest m v) s = .next t ∧ t.pwr.powerdown = true) ∧
      (s.served = false → ∃ t, exec (.powerdownRequest m v) s = .next t ∧ t.getF F.PWR_DEV_REFUSED = 1 ∧
        RegsOnly (F.PWR_DEV_REQ.off :: statusRegs) s t)) ∧
    (s.pwr.powerdown = true → s.drained = true → ∃ t, exec .powerdownDrainDone s = .next t ∧ t.dev = devStandby ∧
      t.jobs = [] ∧ t.time.now = s.time.now) ∧
    ((s.pwr.powerdown = false ∨ s.drained = false) → exec .powerdownDrainDone s = .next s) ∧
    (s.off = false → s.dev = devSleep → s.wakes src = true → ∃ t, exec (.wakeEvent src) s = .next t ∧
      (s.latched = true → t.dev = devTamper ∧ ∀ k, (t.core k).sp = [] ∧ (t.core k).awn = []) ∧
      (s.latched = false → t.dev = devReady ∧ t.brg.training = true)) ∧
    ((s.dev ≠ devSleep ∨ s.wakes src = false) → exec (.wakeEvent src) s = .next s)

/-- Rail and temperature samples (R568, R571, R572, R580, R644): each channel shows its sample, HOLDUP_SENSE at most 1,800 mV; a
third sample beyond a stop threshold of an external rail puts the part in STANDBY; a sensor that reaches WARN latches its flag and
raises cause 25; 125 °C latches the trip and leaves only AON and SEC powered. The loop of an awake core island, its clock stretch,
its shortfall limit, the power cap and the clip timer (R573, R575, R577, R578, R579), over a tick with no margin step newly in
force; while V_MAX is below the present V_SET both the voltage and the frequency fall (log entry 121, the model's choice). -/
def Obligations.MonitorsMarginAndCap : Prop :=
  (∀ (vals : List Nat) (temps : List Int) (n : Fin 12) (s : State), mwf resetWord s.regs = true → s.off = false →
     let shown (r : Nat) : Nat := if r = 9 then min (nth 0 vals r) 1800 else nth 0 vals r % 65536
     let beyond (r : Nat) (l : Option (Nat × Nat)) : Prop := ∃ a b, l = some (a, b) ∧ (shown r < a ∨ b < shown r)
     let temp : Int := nth 0 temps n.val
     let warn : Int := (s.getF (F.PWR_TEMP_TH_WARN n) * 16 : Nat)
     ((∀ r, r < 18 → ¬ beyond r (s.railLimits r).1 ∧ ¬ beyond r (s.railLimits r).2) → s.sto.cur = none →
       ∃ t, exec (.railSample vals) s = .next t ∧ t = { s with regs := t.regs, pwr := t.pwr } ∧
         ∀ r, r < 18 → t.getF (F.PWR_RAIL_VAL_MV r) = shown r) ∧
     (∀ r, r < 9 → s.served = true → beyond r (s.railLimits r).2 → mget (dflt 0) s.pwr.railRun (2 * r + 1) = 2 →
       ∃ t, exec (.railSample vals) s = .next t ∧ t.dev = devStandby) ∧
     (∃ t, exec (.tempSample temps) s = .next t ∧ t = { s with regs := t.regs, flt := t.flt, wire := t.wire } ∧
       t.getF (F.PWR_TEMP_VAL n) = unsigned 16 temp ∧
       t.getF ⟨F.PWR_TEMP_FLAG_HOT.off, 12 + n.val, 1⟩ =
         (if (s.getF (F.PWR_TEMP_TH_HOT n) * 16 : Nat) ≤ temp then 1 else 0) ∧
       (warn ≤ temp → signed 16 (s.getF (F.PWR_TEMP_VAL n)) < warn → t.getF ⟨F.PWR_TEMP_FLAG_WARN.off, n.val, 1⟩ = 1 ∧
         t.getF F.PWR_STATUS_TEMP_WARN = 1 ∧ t.getF ⟨F.HOST_ICAUSE.off, 25, 1⟩ = 1)) ∧
     (s.pwr.trip = false → ∃ t, exec (.thermTrip n) s = .next t ∧ t.pwr.trip = true ∧
       t.dev = (if s.dev = devTamper then devTamper else devStandby) ∧ t.jobs = []) ∧
     (s.pwr.trip = true → exec (.thermTrip n) s = .next s)) ∧
  (∀ (k : Fin 8) (margin est : Nat) (s : State), mwf resetWord s.regs = true → s.off = false →
     let i := s.isl k
     let ft := s.getF (F.PWR_ISL_F_TARGET k)
     let df := ft / 64
     let cap := s.getF F.PWR_CAP_CAP
     let flim := min (ft * i.sf / 64) (min (s.fCap k) i.hot)
     let vmax := s.vLimit k
     let low := s.getF F.PWR_LOOP_MARGIN_MIN
     let high := s.getF F.PWR_LOOP_MARGIN_MAX
     let ticks (v f : Nat) : Prop := ∃ t, exec (.marginLoopTick k margin) s = .next t ∧ (t.isl k).v = v ∧ (t.isl k).f = f ∧
       t.getF (F.PWR_ISL_ST_V_SET k) = (v + i.off) % 2 ^ (F.PWR_ISL_ST_V_SET k).w ∧
       t.getF (F.PWR_ISL_ST_F_SET k) = f % 2 ^ (F.PWR_ISL_ST_F_SET k).w ∧ (∀ q, q ≠ k → t.isl q = s.isl q) ∧ t.jobs = s.jobs
     (2 ≤ s.pstate k → exec (.marginLoopTick k margin) s = .next s) ∧
     (s.pstate k < 2 → i.newStep = false → i.v + i.off ≤ vmax →
       (margin < low → i.v + 5 + i.off ≤ vmax → ticks (i.v + 5) i.f) ∧
       (margin < low → vmax < i.v + 5 + i.off → ticks i.v (max 200 (i.f - df))) ∧
       (low ≤ margin → flim < i.f → ticks i.v (max flim (i.f - df))) ∧
       (low ≤ margin → high < margin → i.f < flim → ticks i.v (min flim (i.f + df))) ∧
       (low ≤ margin → high < margin → i.f = flim → 585 ≤ i.v → ticks (i.v - 5) i.f) ∧
       (low ≤ margin → margin ≤ high → i.f ≤ flim → ticks i.v i.f)) ∧
     (s.pstate k < 2 → i.newStep = false → vmax < i.v + i.off → ticks (max 580 (i.v - 5)) (max 200 (i.f - df))) ∧
     (s.pstate k < 2 → i.stretched = false → ∃ t, exec (.clockStretch k) s = .next t ∧ t.isl k = { i with stretched := true } ∧
       t.getF (F.PWR_ISL_STRETCH k) = satAdd (F.PWR_ISL_STRETCH k).w (s.getF (F.PWR_ISL_STRETCH k)) 1 ∧
       t = { s with regs := t.regs, pwr := t.pwr }) ∧
     (∀ a, i.shortAt = some a → a + 100000 ≤ s.time.now → ∃ t, exec (.marginShortfallLimit k) s = .next t ∧
       (t.isl k).shortAt = none ∧ (t.getF (F.CORE_STATUS_QUAR k) = 1 ∨ (t.core k).quarPending = true)) ∧
     (i.shortAt = none → exec (.marginShortfallLimit k) s = .next s) ∧
     (∃ t, exec (.powerCapTick est) s = .next t ∧ t = { s with regs := t.regs, pwr := t.pwr } ∧
       t.getF F.PWR_EST_EST = min est 65535 ∧ (t.isl k).cap =
         (if cap = 0 then ft else if cap < est then (if s.pstate k = psRun then max 200 (min i.cap ft - df) else i.cap)
           else if est * 100 < cap * 95 then min ft (i.cap + df) else i.cap)) ∧
     (∀ a, i.clipAt = some a → i.clipTold = false → a + 1000000 ≤ s.time.now → ∃ t, exec (.clipEpisodeTimer k) s = .next t ∧
       t.isl k = { i with clipTold := true } ∧ t.getF ⟨F.HOST_ICAUSE.off, 24, 1⟩ = 1) ∧
     ((i.clipAt = none ∨ i.clipTold = true) → exec (.clipEpisodeTimer k) s = .next s))

/-! ### Trace -/

/-- The trace funnel (R583, R584): it takes the oldest packet of the next Logbook that holds one, writes a row of 32 packets at
HEAD, and completes a row left for 10 µs with PAD packets; a core writes its SYNC, STATE and JOB packets when they are due;
CLR sets HEAD, FULL and the lost-packet counts to 0. The row lies in DRAM where the frame is stated. -/
def Obligations.TraceFunnelWritesRows : Prop :=
  ∀ (k : Fin 8) (m : Master) (v : Word) (s : State), mwf resetWord s.regs = true → s.off = false →
    let c := s.core k
    let moved (t : State) : Prop := t.getF F.TRC_HEAD = (s.getF F.TRC_HEAD + 512) % s.trcSize % 2 ^ F.TRC_HEAD.w
    let inDram : Prop := (s.getReg F.TRC_BASE.off).toNat * 256 + s.getF F.TRC_HEAD < s.ddrSize
    (∀ p l, s.trcDrains = true → (rotation s.trc.turn).find? (fun q => !(s.core q).log.isEmpty) = some k → c.log = p :: l →
      ∃ t, exec .traceFunnelPacket s = .next t ∧ (inDram → (t.core k).log = l) ∧ t.trc.turn = (k.val + 1) % 8 ∧
        (inDram → ∀ q, q ≠ k → t.core q = s.core q) ∧ (s.trc.row.length + 1 < 32 → t.trc.row = s.trc.row ++ [p] ∧ t.dram = s.dram) ∧
        (32 ≤ s.trc.row.length + 1 → t.trc.row = [] ∧ moved t)) ∧
    (s.trcDrains = false → exec .traceFunnelPacket s = .next s) ∧
    (s.trcDrains = true → s.trc.row ≠ [] → s.trc.since + 10000 ≤ s.time.aft →
      ∃ t, exec .traceRowPad s = .next t ∧ t.trc.row = [] ∧ moved t ∧ (inDram → t.cores = s.cores)) ∧
    ((s.trcDrains = false ∨ s.trc.row = [] ∨ s.time.aft < s.trc.since + 10000) → exec .traceRowPad s = .next s) ∧
    (s.pstate k < 2 → s.getF F.TRC_CTRL_SYNC_PER * 64 ≤ c.logSince → c.log.length + 3 ≤ 1024 →
      ∃ t a b d, exec (.syncTriple k) s = .next t ∧ (t.core k).log = c.log ++ [a, b, d] ∧ a.typ = 1 ∧ b.typ = 2 ∧ d.typ = 3 ∧
        (t.core k).logSince = 0 ∧ t = { s with cores := t.cores }) ∧
    (Lands s m F.TRC_CTRL_CLR.off → ∃ t, exec (.trcClr m v) s = .next t ∧ t.getF F.TRC_HEAD = 0 ∧ t.getF F.TRC_STATUS_FULL = 0 ∧
      t.getF (F.CORE_LOGDROP k) = 0 ∧ t.jobs = s.jobs)

/-! ### Resets, boot and security -/

/-- Power-on, the loss of VDD_AON, and the resets (R587–R589, R594, R609, Table BS-1): a cold reset samples the straps, zeroes
DTIME and begins boot; a warm reset begins boot with the scratchpads and DRAM kept; a short pulse on RESET_N is ignored;
neither reset leaves TAMPER_HOLD. The watchdog makes a warm reset when it is not kicked. -/
def Obligations.ResetsBeginBoot : Prop :=
  ∀ (strap : Nat) (torn : Bool) (temps : List Int) (m : Master) (v : Word) (s : State), Memory.Wf s →
    let boots (t : State) (warm : Nat) : Prop := t.dev = devBoot ∧ t.getF F.SEC_BOOT_STEP = 1 ∧ t.getF F.SEC_BOOT_WARM = warm ∧
      t.jobs = [] ∧ t.sec.fuses = s.sec.fuses ∧ t.hostMem = s.hostMem
    let cold (i : Instr) (t : State) : Prop := exec i s = .next t ∧ boots t 0 ∧ t.time.now = 0 ∧
      t.getF F.SEC_BOOT_STRAP = strap % 8 ∧ ∀ k, (t.core k).sp = [] ∧ t.ctx k 0 = Ctx.reset
    let warm (i : Instr) (t : State) : Prop := exec i s = .next t ∧ boots t 1 ∧ t.time.now = s.time.now ∧ t.dram = s.dram ∧
      ∀ k, (t.core k).sp = (s.core k).sp ∧ (t.core k).smem = (s.core k).smem ∧ (t.ctx k 0).s = (s.ctx k 0).s
    (s.off = true → ∃ t, exec (.powerOn strap) s = .next t ∧ t.off = false ∧ t.getF F.SEC_BOOT_STRAP = strap % 8 ∧
      t.sec.resetLow = true) ∧
    (s.off = false → exec (.powerOn strap) s = .next s) ∧
    (s.off = false → ∃ t, exec (.aonPowerLoss torn) s = .next t ∧ t.off = true ∧ t.regs = [] ∧ t.jobs = [] ∧ t.dram = [] ∧
      t.sec.fuses = s.sec.fuses ∧ t.hostMem = s.hostMem) ∧
    (s.off = false → s.dev ≠ devTamper → (s.pwr.trip = true → ∀ n, n < 12 → nth 0 temps n < 105 * 16) →
      ∃ t, cold (.coldReset strap temps) t ∧ t.pwr.trip = false) ∧
    ((s.off = true ∨ s.dev = devTamper) → exec (.coldReset strap temps) s = .next s) ∧
    exec .resetNShortPulse s = .next s ∧
    (Lands s m F.SEC_RESET_WARM.off → s.off = false →
      (s.dev ≠ devTamper → s.dev ≠ devStandby → ∃ t, warm (.secResetWarm m v) t) ∧
      (s.dev ≠ devTamper → s.pwr.trip = false → ∃ t, cold (.secResetCold m v strap) t) ∧
      (s.dev = devTamper → (∃ t, exec (.secResetWarm m v) s = .next t ∧ RegsOnly (F.SEC_RESET_WARM.off :: statusRegs) s t) ∧
        ∃ t, exec (.secResetCold m v strap) s = .next t ∧ RegsOnly (F.SEC_RESET_WARM.off :: statusRegs) s t)) ∧
    (Lands s m F.SEC_WDOG_TIMEOUT.off → ∃ t, exec (.watchdogKick m v) s = .next t ∧
      t = { s with regs := t.regs, wire := t.wire, sec := { s.sec with wdogAt := s.time.now } }) ∧
    (s.wdogRuns = true → s.sec.wdogAt + s.getF F.SEC_WDOG_TIMEOUT * 1000000 ≤ s.time.now →
      ∃ t, warm .watchdogExpiry t ∧ t.getF F.SEC_BOOT_WDOG = 1 ∧ t.sec.wdogOn = false) ∧
    ((s.wdogRuns = false ∨ s.time.now < s.sec.wdogAt + s.getF F.SEC_WDOG_TIMEOUT * 1000000) →
      exec .watchdogExpiry s = .next s)

/-- The boot steps (R588, R590, R591, R593, R594, R610): each hands over to the next; straps 1xx end it with STRAP_BAD; a
latched part stops in TAMPER_HOLD at step 2; a bridge that fails training is passed over with AFT_OFF; a cold boot
initialises every scratchpad in step 9, which a warm one skips; step 10 ends in READY. Over board sections with no entry
where one is applied. -/
def Obligations.BootRunsItsSteps : Prop :=
  ∀ (e : WriteEnv) (code : Nat) (s : State), Memory.Wf s → s.off = false → s.dev = devBoot →
    let n := s.getF F.SEC_BOOT_STEP
    let go := exec (.bootStepComplete e) s
    let to_ (m : Nat) (t : State) : Prop := go = .next t ∧ t.getF F.SEC_BOOT_STEP = m
    (s.getF F.SEC_BOOT_CODE = 0 → s.sec.romMode = false →
      (n = 1 → s.sec.strap < 4 → ∃ t, to_ 2 t ∧ RegsOnly [F.SEC_BOOT_STEP.off] s t) ∧
      (n = 1 → 4 ≤ s.sec.strap → ∃ t, go = .next t ∧ t.getF F.SEC_BOOT_CODE = 1 ∧ t.brgUp = false) ∧
      (n = 2 → s.latched = false → ∃ t, to_ 3 t ∧ t.sec.romMode = (s.sec.strap == 1 || s.sec.strap == 2)) ∧
      (n = 2 → s.latched = true → ∃ t, go = .next t ∧ t.dev = devTamper ∧ t.getF F.SEC_BOOT_CODE = 0x0C ∧
        (s.getF F.SEC_STATUS_POR = 1 → t.getF F.SEC_STATUS_UNLOCK_MODE = 1)) ∧
      (∀ c, n = 3 → s.sec.image = [] → s.chooseCopy s.bootOrder 0 = .inl c → c < 256 →
        (s.sec.strap = 0 → ∃ t, go = .next t ∧ t.getF F.SEC_BOOT_CODE = c) ∧
        (s.sec.strap = 3 → ∃ t, go = .next t ∧ t.sec.romMode = true)) ∧
      (∀ l, n = 3 → s.sec.image = [] → s.chooseCopy s.bootOrder 0 = .inr l → (s.sec.strap = 0 ∨ s.sec.strap = 3) →
        { s with sec := { s.sec with image := l } }.board = [] →
        ∃ t, to_ 4 t ∧ t.sec.wdogOn = true ∧ t.sec.wdogAt = s.time.now ∧ t.sec.image = l) ∧
      (n = 4 → ∃ t, to_ 5 t) ∧
      (n = 5 → s.board = [] → ∃ t, to_ 6 t ∧ t.getF F.SEC_STATUS_SB_DONE = 1 ∧ t.getF F.SEC_TAMPER_CFG_LOCK = 1 ∧
        t.getF F.STO_CFG_LOCK = 1 ∧ t.getF F.GLB_PIN_LOCK_LOCK = 1) ∧
      (n = 6 → ∃ t, to_ 7 t ∧ t.brg.training = true) ∧
      (n = 7 → s.brgUp = true → ∃ t, to_ 8 t) ∧ (n = 7 → s.brgUp = false → s.brg.training = true → go = .next s) ∧
      (n = 7 → s.brgUp = false → s.brg.training = false → ∃ t, to_ 10 t ∧ t.getF F.SEC_STATUS_AFT_OFF = 1) ∧
      (n = 8 → s.board = [] →
        (s.getF F.SEC_BOOT_WARM = 0 → ∃ t, to_ 9 t ∧ ∀ k, t.pstate k = psIdle ∧ (t.core k).initing = true) ∧
        (s.getF F.SEC_BOOT_WARM = 1 → ∃ t, to_ 10 t ∧ ∀ k, t.pstate k = psIdle ∧ (t.core k).sp = (s.core k).sp)) ∧
      (n = 9 → (∀ k, (s.core k).initing = false) → ∃ t, to_ 10 t) ∧
      (n = 10 → ∃ t, to_ 11 t ∧ t.dev = devReady ∧ t.host.cfgUp = true ∧ t.sec.autoload = true)) ∧
    (s.getF F.SEC_BOOT_CODE ≠ 0 → s.sec.romMode = false → go = .next s) ∧
    (s.getF F.SEC_BOOT_CODE = 0 → s.sec.romMode = false → ∃ t, exec (.bootStepTimeout code) s = .next t ∧
      t.getF F.SEC_BOOT_CODE = (if 1 ≤ code ∧ code ≤ 0x0A then code else 0x0B) ∧ t.brgUp = false ∧ t.dev = devBoot) ∧
    (s.sec.romMode = true → exec (.bootStepTimeout code) s = .next s)

/-- After READY the stored packages are loaded once, and counted (R622); a flash operation that ends leads to the next of its
write (R618). Tokens, fuses and the staged image (R595, R602, R610–R613): a token that does not pass sets FAIL; a debug
token sets DEBUG; an unlock token in unlock mode blows the LATCH bit and goes on at boot step 3. Fuses are programmed only
from the board section, and a part that is set refuses. The ROM judges a staged image, and takes one that passes. -/
def Obligations.StoredImagesAndTokens : Prop :=
  (∀ (bad : Bool) (s : State) (o : StoObj), mwf resetWord s.regs = true →
     let told : State := { s with sec := { s.sec with autoload := false } }
     let r := told.loadPkg o.bytes none
     let model := s.sto.objs.filter (fun o => o.target == 1)
     (s.served = true → s.sec.autoload = true → model = [] → exec (.packageAutoload none) s = .next told) ∧
     (s.served = true → s.sec.autoload = true → model = [o] → ∃ t, exec (.packageAutoload none) s = .next t ∧
       (r.1 = 0 → t.getF F.STO_LOAD_OK = satAdd F.STO_LOAD_OK.w (r.2.getF F.STO_LOAD_OK) 1) ∧
       (r.1 ≠ 0 → t.getF F.STO_LOAD_FAIL = satAdd F.STO_LOAD_FAIL.w (r.2.getF F.STO_LOAD_FAIL) 1)) ∧
     ((s.served = false ∨ s.sec.autoload = false) → exec (.packageAutoload none) s = .next s) ∧
     (s.sto.cur = none → exec (.flashOperationDone bad) s = .next s) ∧
     (∀ w, s.sto.cur = some w →
       (w.phase = .intent → ∃ t, exec (.flashOperationDone bad) s = .next t ∧ t.sto.cur = some { w with phase := .program }) ∧
       (w.phase = .program → bad = false → w.idx + 1 < w.sectors.length →
         ∃ t, exec (.flashOperationDone bad) s = .next t ∧ t.sto.cur = some { w with idx := w.idx + 1 }) ∧
       (w.phase = .program → bad = false → w.sectors.length ≤ w.idx + 1 →
         ∃ t, exec (.flashOperationDone bad) s = .next t ∧ t.sto.cur = some { w with phase := .commit }) ∧
       (w.phase = .commit → w.obj.target = 0 →
         ∃ t, exec (.flashOperationDone bad) s = .next t ∧ t.sto.cur = some { w with phase := .anchor }))) ∧
  (∀ (m : Master) (v : Word) (s : State), Memory.Wf s →
     let token := s.tokenBytes.take 288
     let magic := fieldAt token 0 4
     let f := v.toNat % 16
     let w := v.toNat / 256 % 256
     let x := s.sec.fuseData.toNat &&& fuseMask f
     let clash : Prop := ∃ i, i < 32 / fusePart f ∧ s.fuse f w / 2 ^ (fusePart f * i) % 2 ^ fusePart f ≠ 0 ∧
       x / 2 ^ (fusePart f * i) % 2 ^ fusePart f ≠ 0
     let program := exec (.fuseProgram m v) s
     let len := v.toNat % 2 ^ 19
     (Lands s m F.SEC_TOKEN_CTRL_GO.off →
       (magic ≠ 0x5455384E → magic ≠ 0x5444384E → ∃ t, exec (.tokenVerify m v) s = .next t ∧ t.getF F.SEC_TOKEN_CTRL_FAIL = 1 ∧
         RegsOnly (F.SEC_TOKEN_CTRL_GO.off :: statusRegs) s t) ∧
       (magic = 0x5455384E → (s.getF F.SEC_STATUS_UNLOCK_MODE = 0 ∨ s.tokenGood token 4 = false) →
         ∃ t, exec (.tokenVerify m v) s = .next t ∧ t.getF F.SEC_TOKEN_CTRL_FAIL = 1 ∧
           RegsOnly (F.SEC_TOKEN_CTRL_GO.off :: statusRegs) s t) ∧
       (magic = 0x5455384E → s.getF F.SEC_STATUS_UNLOCK_MODE = 1 → s.tokenGood token 4 = true → s.latchCount < 31 →
         ∃ t, exec (.tokenVerify m v) s = .next t ∧ t.dev = devBoot ∧ t.getF F.SEC_BOOT_STEP = 3 ∧ t.latched = false ∧
           t.getF F.SEC_TOKEN_CTRL_OK = 1) ∧
       (magic = 0x5444384E → s.tokenGood token 5 = true → ∃ t, exec (.tokenVerify m v) s = .next t ∧
         t.getF F.SEC_STATUS_DEBUG = 1 ∧ t.getF F.SEC_TOKEN_CTRL_OK = 1 ∧ t.sec.debugFails = 0) ∧
       (magic = 0x5444384E → s.tokenGood token 5 = false → s.sec.debugFails < 7 → ∃ t, exec (.tokenVerify m v) s = .next t ∧
         t.getF F.SEC_TOKEN_CTRL_FAIL = 1 ∧ t.sec = { s.sec with debugFails := s.sec.debugFails + 1 })) ∧
     (Lands s m F.SEC_FUSEPROG_FIELD.off →
       (s.boardWrites m = false → ∃ t, program = .next t ∧ RegsOnly (F.SEC_FUSEPROG_FIELD.off :: statusRegs) s t) ∧
       (s.boardWrites m = true → w < fuseWords f → clash → f ∉ [2, 3, 4] → ∃ t, program = .next t ∧
         t.getF F.SEC_BOOT_FUSE_REFUSED = 1 ∧ t.sec.fuses = s.sec.fuses) ∧
       (s.boardWrites m = true → w < fuseWords f → (¬ clash ∨ f ∈ [2, 3, 4]) → ∃ t, program = .next t ∧
         t.fuse f w = s.fuse f w ||| x ∧ ∀ g u, u < 256 → (g, u) ≠ (f, w) → t.fuse g u = s.fuse g u)) ∧
     (Lands s m F.SEC_STAGE_LEN_LEN.off →
       (s.sec.romMode = true → s.bootCheck (s.sec.stage.take len) = 0 → ∃ t, exec (.stageVerify m v) s = .next t ∧
         t.sec = { s.sec with romMode := false, stage := [], image := s.sec.stage.take len } ∧ t.getF F.SEC_BOOT_CODE = 0) ∧
       (s.sec.romMode = true → s.bootCheck (s.sec.stage.take len) ≠ 0 → ∃ t, exec (.stageVerify m v) s = .next t ∧
         t.sec = { s.sec with stage := [] } ∧ t.getF F.SEC_BOOT_CODE = s.bootCheck (s.sec.stage.take len)) ∧
       (s.sec.romMode = false → ∃ t, exec (.stageVerify m v) s = .next t ∧
         RegsOnly (F.SEC_STAGE_LEN_LEN.off :: statusRegs) s t)))

/-- A tamper event of an armed source is latched and counted (R607). In READY and RUN it only stands in the ring at level 1; at
levels 2 and 3 every job ends, the next LATCH bit is blown, and the part enters TAMPER_HOLD (Table BS-10, R609, R610). -/
def Obligations.TamperIsAnswered : Prop :=
  ∀ (src : BitVec 7) (s : State), Memory.Wf s → s.off = false →
    let a := s.tamperArmed src.toNat
    let level := s.getF F.SEC_TAMPER_CFG_LEVEL
    let told (t : State) : Prop := exec (.tamperEvent src) s = .next t ∧ t.getF F.SEC_TAMPER_STAT_SRC = a ∧
      t.getF F.SEC_TAMPER_STAT_EVENTS = satAdd 8 (s.getF F.SEC_TAMPER_STAT_EVENTS) 1
    (a = 0 → exec (.tamperEvent src) s = .next s) ∧
    (a ≠ 0 → s.served = true →
      (level ≤ 1 → ∃ t, told t ∧ t.dev = s.dev ∧ t.jobs = s.jobs ∧ t.sec = s.sec) ∧
      (level = 2 → ∃ t, told t ∧ t.dev = devTamper ∧ (∀ j ∈ t.jobs, j.state = .dead) ∧
        (s.latched = false → s.latchCount < 31 → t.latched = true)) ∧
      (level = 3 → ∃ t, told t ∧ t.dev = devTamper ∧ t.jobs = [])) ∧
    (a ≠ 0 → s.dev = devTamper → ∃ t, told t ∧ t.dev = devTamper ∧ t.sec = s.sec)

/-! ### The bridge -/

/-- Training (R49–R54, R58, R40): TRAIN takes the bridge down; training ends at full or half width with sequence numbers from 0,
each receiver announcing what its buffers have free in its first link flit, be it of a group that goes out again, or sets FAIL;
the receiver of a failing lane asks for the swap in its next link flit, and without a free spare the bridge retrains with the lane
marked bad; the firmware retrains 1 ms after the bridge went down, RETRY_MAX times. The bridge goes down (R43, R55) after eight
consecutive NAKs and after the loss of three lanes at once: every job that has a core is DEAD, no core runs, the inbound windows
are closed, and no read of a host path is held any more. Otherwise neither event does anything. -/
def Obligations.BridgeTrainsAndFalls : Prop :=
  (∀ (m : Master) (v : Word) (f a : BitVec 50) (td : BitVec 8) (d : Dir) (lane : Nat) (s : State),
     mwf resetWord s.regs = true →
     let bads (e : Dir) (m : BitVec 50) : Nat := ((upFrom 0 50).filter (fun i =>
       m.getLsbD i || (s.brg.keepBad && (s.badLanes e).testBit i))).length
     let bf := bads .f2a f
     let ba := bads .a2f a
     let starts (t : State) : Prop := t.brgUp = false ∧ t.brg.training = true ∧ t.brg.trainAt = s.time.now
     let fresh (z y : BrgDir) : Prop := y.expect = 0 ∧ y.acked = 4095 ∧ y.replay = y.resend ∧ y.seq = y.resend.length ∧
       y.credits = [0, 0, 0, 0, 0, 0, 0] ∧ y.swapLane = none ∧ y.swapOut = [] ∧ (z.unacked = [] → y.seq = 0)
     let tells (z y w : BrgDir) : Prop := z.unacked = [] → z.slots = [] → ∀ c, c < 7 →
       let free := nth 0 [64, 32, 64, 128, 8, 8, 8] c - (nth [] z.rx c).length
       (w.resend = [] → nth 0 y.credOut c = free) ∧
       (∀ q h l, w.resend = (q, h) :: l → bitsOf h.link.toNat (28 + 8 * c) 8 = free ∧ nth 0 y.credOut c = 0)
     let x := s.dir d
     let old := nth 0 x.lmap lane
     let tired : Prop := s.brg.trainAt + 2000000 < s.time.now
     let first : Prop := s.brg.wasUp = true ∨ (s.brg.f2a.seq = 0 ∧ s.getF F.BRG_STATUS_DOWNS = 0 ∧ s.dev = devBoot)
     (Lands s m F.BRG_CTRL_TRAIN.off →
       (∃ t, exec (.brgTrain m v) s = .next t ∧ starts t ∧ t = { s with regs := t.regs, wire := t.wire, brg := t.brg } ∧
         t.brg.f2a = s.brg.f2a ∧ t.brg.a2f = s.brg.a2f) ∧
       (∃ t, exec (.brgClrCnt m v) s = .next t ∧ t.getF F.BRG_ERRCNT = 0 ∧ t.getF F.BRG_RETRY = 0 ∧
         (v.getLsbD 0 = false → RegsOnly ([F.BRG_CTRL_TRAIN.off, F.BRG_ERRCNT.off, F.BRG_RETRY.off] ++ statusRegs) s t))) ∧
     (s.brg.training = true → s.brg.trainAt + 300000 ≤ s.time.now → s.time.now ≤ s.brg.trainAt + 2000000 →
       bf ≤ 26 → ba ≤ 26 → ∃ t, exec (.brgTrainingDone f a td) s = .next t ∧ t.brgUp = true ∧
         t.getF F.BRG_STATUS_WIDTH = (if 2 < bf ∨ 2 < ba then 1 else 0) ∧ t.getF F.BRG_STATUS_FAIL = 0 ∧
         t.getF F.BRG_STATUS_TDELAY = td.toNat ∧ t.getF F.BRG_STATUS_SPARE_F2A = 2 - bf ∧
         t.getF F.BRG_STATUS_SPARE_A2F = 2 - ba ∧ t.brg.training = false ∧ fresh s.brg.f2a t.brg.f2a ∧ fresh s.brg.a2f t.brg.a2f ∧
         tells s.brg.f2a t.brg.f2a t.brg.a2f ∧ tells s.brg.a2f t.brg.a2f t.brg.f2a ∧
         t.getF ⟨F.HOST_ICAUSE.off, 23, 1⟩ = 1 ∧ (s.edge.landing = [] → t.jobs = s.jobs)) ∧
     ((s.brg.training = false ∨ 26 < bf ∨ 26 < ba) → exec (.brgTrainingDone f a td) s = .next s) ∧
     (s.brg.training = true → (26 < bf ∨ 26 < ba ∨ tired) → ∃ t, exec (.brgTrainingFail f a) s = .next t ∧
       t.getF F.BRG_STATUS_FAIL = 1 ∧ t.brg.training = false ∧ t.brg.downAt = s.time.now ∧
       (first → t.jobs = s.jobs ∧ t.brg.wasUp = s.brg.wasUp) ∧ (¬ first → t.brgUp = false ∧ t.brg.wasUp = true)) ∧
     (s.brg.training = false → exec (.brgTrainingFail f a) s = .next s) ∧
     (s.brg.wasUp = true → s.brgUp = false → s.brg.training = false → s.brg.downAt + 1000000 ≤ s.time.now →
       (s.brg.retrains < s.getF F.BRG_CTRL_RETRY_MAX → ∃ t, exec .bridgeRetrainTimer s = .next t ∧ starts t ∧
         t.brg.retrains = s.brg.retrains + 1 ∧ t = { s with regs := t.regs, brg := t.brg }) ∧
       (s.getF F.BRG_CTRL_RETRY_MAX ≤ s.brg.retrains → exec .bridgeRetrainTimer s = .next s)) ∧
     (s.brgUp = true → lane < 48 → s.getF F.BRG_CTRL_LANE_LIMIT < mget (dflt 0) x.lpar lane → x.lmap.length = 48 → old < 50 →
       (s.freeSpare d ≠ none → x.swapLane = none → ∃ t, exec (.laneSwap d lane) s = .next t ∧
         t.dir d = { x with swapLane := some lane } ∧
         t.dir (dirOther d) = { s.dir (dirOther d) with swapOut := (s.dir (dirOther d)).swapOut ++ [(1, lane)] } ∧ t = { s with brg := t.brg }) ∧
       ((s.freeSpare d = none ∨ x.swapLane ≠ none) → exec (.laneSwap d lane) s = .next s) ∧
       (s.freeSpare d = none → ∃ t, exec (.laneFailNoSpare d lane) s = .next t ∧ starts t ∧
         (t.badLanes d).testBit old = true ∧ t.brg.keepBad = true ∧ t = { s with regs := t.regs, brg := t.brg })) ∧
     ((s.brgUp = false ∨ 48 ≤ lane ∨ mget (dflt 0) x.lpar lane ≤ s.getF F.BRG_CTRL_LANE_LIMIT) →
       exec (.laneSwap d lane) s = .next s ∧ exec (.laneFailNoSpare d lane) s = .next s)) ∧
  (∀ (d : Dir) (lanes : BitVec 50) (s : State), mwf resetWord s.regs = true →
     let down (i : Instr) : Prop := ∃ t, exec i s = .next t ∧ t.brgUp = false ∧ t.getF F.BRG_STATUS_TSYNC = 0 ∧
       t.getF F.BRG_STATUS_DOWNS = satAdd F.BRG_STATUS_DOWNS.w (s.getF F.BRG_STATUS_DOWNS) 1 ∧
       t.getF ⟨F.HOST_ICAUSE.off, 23, 1⟩ = 1 ∧ (∀ k, t.pstate k ≠ psRun) ∧ t.brg.downAt = s.time.now ∧
       (∀ id j, s.job id = some j → j.cores ≠ [] → ∃ j', t.job id = some j' ∧ j'.state = .dead) ∧
       (∀ n : Fin 32, (vget t.lnk.iw n).st = .closed ∧ (vget t.lnk.ob n).open_ = false) ∧
       (∀ k, ∀ h ∈ (t.core k).held, h.hostRead = false)
     let lost : Prop := ∃ a b c, a < b ∧ b < c ∧ c < 50 ∧ lanes.getLsbD a = true ∧ lanes.getLsbD b = true ∧ lanes.getLsbD c = true
     (s.brgUp = true → 8 ≤ (s.dir d).naks → down (.bridgeNakLimit d)) ∧
     ((s.brgUp = false ∨ (s.dir d).naks < 8) → exec (.bridgeNakLimit d) s = .next s) ∧
     (s.brgUp = true → lost → down (.bridgeLockLoss d lanes)) ∧
     ((s.brgUp = false ∨ ¬ lost) → exec (.bridgeLockLoss d lanes) s = .next s))

/-- Groups and messages (R39–R45, R47, R53, Tables TH-7 and TH-8): a group sent again goes before a new one, and the link flit
acknowledges and returns credits; a group whose CRC is bad is dropped and answered by a NAK, of one out of sequence only the
acknowledgement and the NAK count, and a good one acknowledges, returns credits, and puts its flits into the buffers of their
classes; a swap asked for is acknowledged, and the acknowledge changes the map; a message with a bad header is dropped and
counted; a time message aligns the Aft DTIME with the value it carries plus BRG_TDELAY, but while a step of DTIME is still to be
taken (log entry 93) it aligns nothing. -/
def Obligations.BridgeCarriesMessages : Prop :=
  ∀ (d : Dir) (b : Fin 8) (offered : List BrgMsg) (g : FlitGroup) (s : State), mwf resetWord s.regs = true →
    let o := dirOther d
    let x := s.dir d
    let y := s.dir o
    let n := g.link.toNat
    let joined : BrgDir := { x with queue := x.queue ++ offered, reads := x.reads ++ offered.filter (fun m => m.cls == 1) }
    let ack := (y.expect + 4095) % 4096
    let only (t : State) : Prop := t = { s with regs := t.regs, brg := t.brg }
    let sent (t : State) (q : Nat) (g : FlitGroup) : Prop := t.wire = .group (if d = .f2a then 0 else 1) q g :: s.wire
    let good : Prop := groupCrc g = bitsOf n 132 32 ∧ g.flits.length ≤ 11
    let due : Prop := good ∧ bitsOf n 3 12 = x.expect
    let relink (q : Nat) (h : FlitGroup) : BitVec 256 :=
      mkLinkFlit h.flits q ack (y.nakOut || (decide (0 < y.naks) && bitsOf h.link.toNat 27 1 == 1)) ((upFrom 0 7).map (fun c => bitsOf h.link.toNat (28 + 8 * c) 8))
        (bitsOf h.link.toNat 164 2, bitsOf h.link.toNat 166 6)
    let answered (t : State) : Prop := (t.dir o).acked = bitsOf n 15 12 ∧ (bitsOf n 27 1 = 0 → (t.dir o).resend = y.resend) ∧
      (bitsOf n 27 1 = 1 → (t.dir o).resend = (t.dir o).unacked)
    let bare (z : BrgDir) : BrgDir := { z with lpar := [], lparSince := 0 }
    let aligned (t : State) (u : Nat) : Prop :=
      let e : Int := (u : Int) - s.time.aft
      let near : Bool := decide (-2 ≤ e) && decide (e ≤ 2)
      (s.time.stepPending ≠ none → t.time = s.time ∧ t.regs = s.regs) ∧
      (s.time.stepPending = none → 64 < e → t.getF F.BRG_STATUS_TSYNC = 1 ∧
        t.time = { s.time with aft := u, aftSlew := 0, syncing := false }) ∧
      (s.time.stepPending = none → e ≤ 64 → t.getF F.BRG_STATUS_TSYNC = (if near then 1 else 0) ∧
        t.time = { s.time with aftSlew := e, syncing := !near })
    (s.brgUp = false → exec (.bridgeMessageSend d offered) s = .next s ∧ exec (.bridgeGroupReceive d g) s = .next s ∧
      exec (.bridgeTimeMessage d) s = .next s) ∧
    (s.brgUp = true →
      (∀ q h l, x.resend = (q, h) :: l → ∃ t, exec (.bridgeMessageSend d offered) s = .next t ∧
        sent t q { h with link := relink q h } ∧
        t.dir d = { joined with resend := l } ∧ t.dir o = { y with nakOut := false }) ∧
      (x.resend = [] → ∃ t h, exec (.bridgeMessageSend d offered) s = .next t ∧ sent t x.seq h ∧ h.flits.length ≤ 11 ∧
        h.link = mkLinkFlit h.flits x.seq ack y.nakOut y.credOut (x.swapOut.headD (0, 0)) ∧ (t.dir d).swapOut = x.swapOut.drop 1 ∧
        (t.dir d).seq = (x.seq + 1) % 4096 ∧
        (t.dir d).replay.length ≤ 64 ∧ (t.dir d).replay.getLast? = some (x.seq, h) ∧ (t.dir d).reads = joined.reads ∧
        t.dir o = { y with nakOut := false, credOut := [0, 0, 0, 0, 0, 0, 0] }) ∧
      (¬ good → ∃ t, exec (.bridgeGroupReceive d g) s = .next t ∧ only t ∧ t.dir o = y ∧
        bare (t.dir d) = { bare x with naks := x.naks + 1, nakOut := true }) ∧
      (good → bitsOf n 3 12 ≠ x.expect → ∃ t, exec (.bridgeGroupReceive d g) s = .next t ∧ only t ∧
        answered t ∧ bare (t.dir d) = bare x ∧ t.dir o = { y with acked := (t.dir o).acked, resend := (t.dir o).resend }) ∧
      (due → ∃ t, exec (.bridgeGroupReceive d g) s = .next t ∧ only t ∧
        (bitsOf n 164 2 ≠ 2 → bare (t.dir d) = { (bare x).feedGroup g with expect := (x.expect + 1) % 4096, naks := 0 }) ∧
        (∀ c, c < 8 → (nth [] x.rx c) <+: nth [] (t.dir d).rx c) ∧
        answered t ∧ (bitsOf n 164 2 = 1 → (t.dir o).swapOut = y.swapOut ++ [(2, bitsOf n 166 6)]) ∧
        (∀ l sp, bitsOf n 164 2 = 2 → x.swapLane = some l → s.freeSpare d = some sp → x.lmap.length = 48 → l < 48 →
          nth 0 x.lmap l < 50 → nth 0 (t.dir d).lmap l = sp ∧ (∀ i, i ≠ l → nth 0 (t.dir d).lmap i = nth 0 x.lmap i) ∧
          (t.dir d).resend = x.unacked ∧ (t.badLanes d).testBit (nth 0 x.lmap l) = true ∧ (t.dir d).swapLane = none) ∧
        ∀ c, c < 7 → (t.dir o).credit c = y.credit c + bitsOf n (28 + 8 * c) 8) ∧
      exec (.bridgeTimeMessage .a2f) s = .next s ∧
      (∃ t, exec (.bridgeTimeMessage .f2a) s = .next t ∧ t = { s with regs := t.regs, time := t.time } ∧
        aligned t (s.time.now % 2 ^ 64))) ∧
    (nth [] x.rx b.val = [] → exec (.bridgeMessageReceive ⟨d, b⟩) s = .next s) ∧
    (∀ h l, nth [] x.rx b.val = h :: l →
      let m := brgOfHeader h (l.take (bitsOf h.toNat 32 5))
      let wrong : Prop := bitsOf h.toNat 0 3 = 7 ∨ 16 < bitsOf h.toNat 32 5 ∨ bitsOf h.toNat 3 1 ≠ 0 ∨
        bitsOf h.toNat 37 3 ≠ 0 ∨ bitsOf h.toNat 56 8 ≠ 0
      let took : BrgDir := { x with rx := setNth x.rx b.val (l.drop m.len), late := x.late && m.cls != 1 }.drain b.val (1 + m.len)
      let given : BrgDir := { took with delivered := (m, brgWords m s.free) :: x.delivered }
      let row : Prop := ∃ c r e, s.region m.addr = .sp c r e
      (l.length < m.len → exec (.bridgeMessageReceive ⟨d, b⟩) s = .next s) ∧
      (m.len ≤ l.length → wrong → ∃ t q, exec (.bridgeMessageReceive ⟨d, b⟩) s = .next t ∧ t.dir d = took ∧
        t.getF F.BRG_ERRCNT = satAdd 32 (s.getF F.BRG_ERRCNT) 1 ∧ q.cls = 0x33 ∧ q.kill = false ∧
        (d = .a2f → t.flt.fore = s.flt.fore ++ [q]) ∧ (d = .f2a → s.brgUp = true → t.flt.aft = s.flt.aft ++ [q])) ∧
      (m.len ≤ l.length → ¬ wrong → (m.cls ∈ [5, 6] ∨ (m.cls = 3 ∧ (d = .a2f ∨ ¬ row))) →
        ∃ t, exec (.bridgeMessageReceive ⟨d, b⟩) s = .next t ∧ t = { s with brg := t.brg, free := t.free } ∧ t.dir d = given ∧
          t.dir o = y) ∧
      (m.len ≤ l.length → ¬ wrong → m.cls = 4 → d = .f2a → ∃ t, exec (.bridgeMessageReceive ⟨d, b⟩) s = .next t ∧ t.dir d = given ∧
        t = { s with brg := t.brg, free := t.free, regs := t.regs, time := t.time } ∧
        aligned t ((m.inl % 2 ^ 64 + s.getF F.BRG_STATUS_TDELAY) % 2 ^ 64)))

/-! ### Scratchpads and paired cores -/

/-- What the units of a core do by themselves (R167, R184–R187, R189, R192, R194, R198, R199): a paired row goes on when the
secondary's digest agrees, and poisoned with its record when it differs or does not come in time, but waits while it would cross a
bridge that retrains; the scrubber corrects the
rows it visits, in a wake pass every row; an initialised scratchpad reads zero with its failing rows remapped as far as their
banks have spares; a held access ends after 5 ms, a read poisoned; an inbound row lands whole, is held, or is refused; contexts
held at a barrier for a weight write go on when nothing writes rows of theirs. That a held write is dropped at 5 ms, and faults the
token of its DMA, is the model's choice (log entry 105). -/
def Obligations.CoreUnitsWorkOn : Prop :=
  ∀ (p : Fin 4) (k : Fin 8) (wrote : Bool) (job r conf : Nat) (ws : List (BitVec 64 × BitVec 8)) (s : State), Memory.Wf s →
    let a : Fin 8 := ⟨2 * p.val, by omega⟩
    let b : Fin 8 := ⟨2 * p.val + 1, by omega⟩
    let c := s.core k
    let word (t : State) (i : Nat) : SpWord := mget zeroWord (t.core k).sp i
    let told (t : State) (cls unit : Nat) : Prop := ∃ q ∈ t.flt.aft, q.cls = cls ∧ q.unit = unit
    let awake : Prop := s.off = false ∧ s.pstate k < 2 ∧ c.initing = false ∧ c.waking = false
    let refused (i : Instr) (cls : Nat) : Prop := ∃ t, exec i s = .next t ∧ (s.brgUp = true → told t cls (0x27 + 8 * k.val)) ∧
      t = { s with cores := t.cores, flt := t.flt, regs := t.regs } ∧ (t.core k).sp = c.sp
    let arrive := Instr.inboundRowWrite k job r ⟨ws, conf⟩
    let waited (t : State) : Prop :=
      t.getF (F.CORE_SP_CONFLICT k) = (s.getF (F.CORE_SP_CONFLICT k) + conf) % 2 ^ 32
    let cleaned (w : SpWord) : SpWord := if (readWord w).1 = .corrected then cleanWord (readWord w).2.1 else w
    let owes : Prop := ∃ q ∈ s.pkgs, k.val ∈ q.owed
    let waits (d : Nat × BitVec 64) : Bool := (s.core a).pairHeld.any (fun h => h.seq == d.1 && s.rowWaits h)
    ((s.core b).pairDig = [] → exec (.pairDigest p) s = .next s) ∧
    (∀ d l h, (s.core b).pairDig = d :: l → (s.core a).pairHeld.find? (fun h => h.seq == d.1) = some h → waits d = false →
      (d.2 = BitVec.ofNat 64 (crc64 (rowBytes h.eff.words)) → ∃ t, exec (.pairDigest p) s = .next t ∧
        (t.core b).pairDig = l ∧ (t.core a).pairHeld = (s.core a).pairHeld.filter (fun x => x.seq != h.seq)) ∧
      (d.2 ≠ BitVec.ofNat 64 (crc64 (rowBytes h.eff.words)) → ∃ t, exec (.pairDigest p) s = .next t ∧
        (t.core b).pairDig = l ∧ (t.core a).pairHeld = (s.core a).pairHeld.filter (fun x => x.seq != h.seq) ∧
        (∀ i x y z w, h.eff = .result i x y z w → s.brgUp = true → told t 0x25 0x10))) ∧
    (∀ d l, (s.core b).pairDig = d :: l → waits d = true → exec (.pairDigest p) s = .next s) ∧
    (∀ h l, (s.core a).pairHeld = h :: l → s.rowWaits h = true → exec (.pairTimeout p) s = .next s) ∧
    (∀ h l, (s.core a).pairHeld = h :: l → s.rowWaits h = false →
      (h.since + 100 * s.forceF (F.CORE_PAIR_WINDOW a) ≤ s.time.aft → ∃ t, exec (.pairTimeout p) s = .next t ∧
        (t.core a).pairHeld = l.filter (fun x => x.seq != h.seq) ∧
        (∀ i x y z w, h.eff = .result i x y z w → s.brgUp = true → told t 0x26 0x10)) ∧
      (s.time.aft < h.since + 100 * s.forceF (F.CORE_PAIR_WINDOW a) → exec (.pairTimeout p) s = .next s)) ∧
    (awake → s.getF (F.SP_SCRUB_PERIOD k) ≠ 0 → c.scrubAt + s.getF (F.SP_SCRUB_PERIOD k) * 1000000 ≤ s.time.aft →
      ∃ t, exec (.scrubPassStart k) s = .next t ∧ (t.core k).scrubAt = s.time.aft ∧ t = { s with cores := t.cores, regs := t.regs } ∧
        (c.scrubbing = false → (t.core k).scrubbing = true ∧ (t.core k).scrubPos = 0 ∧ t.getF (F.SP_STATUS_SCRUB_BUSY k) = 1) ∧
        (c.scrubbing = true → (t.core k).scrubDue = true ∧
          t.getF (F.SP_SCRUB_LATE k) = satAdd (F.SP_SCRUB_LATE k).w (s.getF (F.SP_SCRUB_LATE k)) 1)) ∧
    ((s.getF (F.SP_SCRUB_PERIOD k) = 0 ∨ c.initing = true ∨ 2 ≤ s.pstate k) → exec (.scrubPassStart k) s = .next s) ∧
    (awake → c.scrubQ = [] → c.scrubbing = true → c.scrubPos + 1 < 131072 → ∃ t, exec (.scrubRow k ⟨wrote, conf⟩) s = .next t ∧ waited t ∧
      (t.core k).scrubPos = c.scrubPos + 1 ∧ (∀ i, i / 64 ≠ c.scrubPos → word t i = word s i) ∧
      ∀ i, i / 64 = c.scrubPos → (readWord (word s i)).1 ≠ .bad → word t i = if wrote then word s i else cleaned (word s i)) ∧
    (awake → c.scrubQ = [] → c.scrubbing = false → ∃ t, exec (.scrubRow k ⟨wrote, conf⟩) s = .next t ∧ waited t ∧
      t = { s with regs := t.regs }) ∧
    (¬ awake → exec (.scrubRow k ⟨wrote, conf⟩) s = .next s) ∧
    (c.initing = true → s.pstate k < 2 → c.held = [] → ¬ owes → (∃ t, exec (.scratchpadInitDone k []) s = .next t ∧ (t.core k).initing = false ∧
        (t.core k).sp = [] ∧ (t.core k).awn = [] ∧ t.getF (F.SP_STATUS_INIT_DONE k) = 1 ∧
        t.getF (F.SP_STATUS_INIT_FAIL k) = 0 ∧ (t.core k).spares = c.spares ∧ (t.core k).remapped = c.remapped) ∧
      (r < 131072 → c.spares.length = 8 → ∃ t, exec (.scratchpadInitDone k [r]) s = .next t ∧ (t.core k).sp = [] ∧
        let n := nth 0 c.spares (r % 8)
        t.getF (F.SP_STATUS_INIT_DONE k) = 1 ∧ t.getF (F.SP_STATUS_SPARE k) = (t.core k).spares.foldl min 32 ∧
        (0 < n → t.getF (F.SP_STATUS_INIT_FAIL k) = 0 ∧ r ∈ (t.core k).remapped ∧ nth 0 (t.core k).spares (r % 8) = n - 1) ∧
        (n = 0 → t.getF (F.SP_STATUS_INIT_FAIL k) = 1 ∧ (t.core k).spares = c.spares ∧
          (s.brgUp = true → told t 0x12 (0x27 + 8 * k.val))))) ∧
    ((c.initing = false ∨ 2 ≤ s.pstate k) → exec (.scratchpadInitDone k [r]) s = .next s) ∧
    (∀ h l, c.held = h :: l → h.since + 5000000 ≤ s.time.now → ∃ t, exec (.heldAccessTimeout k) s = .next t ∧
      (t.core k).held = l ∧ (t.core k).sp = c.sp ∧
      (h.write = true → h.who < 16 → t = (s.setCore k { c with held := l }).landed) ∧
      (h.write = true → ∀ (q : Fin 8) (x : Fin 3) i tl, h.who = 16 + 4 * q.val + x.val → (s.ctx q x).queue 3 = i :: tl →
        i.started = true → i.cause = 0 → (t.ctx q x).queue 3 = { i with cause := excUnitPoison } :: tl) ∧
      (h.write = false → (h.who < 8 → ∃ x, t.wire = .answer h.who x true :: s.wire) ∧
        (h.who = 10 → t.brg.f2a.late = true) ∧ (h.who = 11 → t.brg.a2f.late = true) ∧
        (∀ (d : Fin 2) bf, bf < 16 → h.who = 16 + 16 * d.val + bf → bf ∈ (t.port d).late) ∧
        (∀ (q : Fin 8) (x : Fin 3) i tl, h.who = 64 + 4 * q.val + x.val → (s.ctx q x).queue 3 = i :: tl → i.started = false →
          i.pc = h.lo → i.tok = h.n → (t.ctx q x).queue 3 = { i with late := true } :: tl))) ∧
    (∀ h l, c.held = h :: l → s.time.now < h.since + 5000000 → exec (.heldAccessTimeout k) s = .next s) ∧
    (c.held = [] → exec (.heldAccessTimeout k) s = .next s) ∧
    (c.waking = true → c.initing = false → ∃ t, exec (.wakePassDone k) s = .next t ∧ (t.core k).waking = false ∧
      (∀ h ∈ (t.core k).held, h.hostRead = true ∧ s.brgUp = false) ∧ (c.held = [] → ¬ owes → ∀ i, (readWord (word s i)).1 ≠ .bad → word t i = cleaned (word s i))) ∧
    ((c.waking = false ∨ c.initing = true) → exec (.wakePassDone k) s = .next s) ∧
    (c.weightWrite ≠ [] → s.weightsDone k.val = true → ∃ t, exec (.weightWriteEnd k) s = .next t ∧ t = { s with cores := t.cores, regs := t.regs } ∧
      (∀ o, (∀ q : Fin 8, o ≠ (F.CORE_STATUS_ACTIVE q).off) → t.getReg o = s.getReg o) ∧
      (t.core k).weightWrite = [] ∧ (∀ q, q ≠ k → (t.core q).weightWrite = (s.core q).weightWrite) ∧
      (∀ q x, t.ctx q x = { s.ctx q x with held := (s.ctx q x).held && t.weightHold (s.ctx q x) })) ∧
    ((c.weightWrite = [] ∨ s.weightsDone k.val = false) → exec (.weightWriteEnd k) s = .next s) ∧
    (awake → (ws.length ≠ 64 → refused arrive 0x02) ∧ (ws.length = 64 → 131072 ≤ r → refused arrive 0x03) ∧
      (ws.length = 64 → r < 131072 → (s.rowAllowed job k.val r true = false → refused arrive 0x03) ∧
        (s.rowAllowed job k.val r true = true → (∀ w ∈ ws, w.2 = checkByte w.1) → ∃ t, exec arrive s = .next t ∧
          t = { s with cores := t.cores, free := t.free, regs := t.regs } ∧ waited t ∧ (∀ q, q ≠ k → t.core q = s.core q) ∧
          ∀ i, word t i = if i / 64 = r then ⟨(nth (0, 0) ws (i % 64)).1, (nth (0, 0) ws (i % 64)).2⟩ else word s i))) ∧
    (s.off = false → s.pstate k < 2 → (c.initing = true ∨ c.waking = true) → ws.length = 64 → r < 131072 →
      s.rowAllowed job k.val r true = true → ∃ t h, exec arrive s = .next t ∧ waited t ∧ (t.core k).sp = c.sp ∧
        (t.core k).held = c.held ++ [h] ∧ h.write = true ∧ h.row = r ∧ h.since = s.time.now)

/-! ### Register writes that start something -/

/-- Actions of Intake, Outfeed, Coffer, fault and link registers (R105, R113, R115, R368, R381, R382, R385, R433, R484, R485,
R503, Table CE-7): each does its own and leaves the other registers and units as they were. -/
def Obligations.UnitRegistersAct : Prop :=
  ∀ (n : Fin 8) (st : Fin 6) (tp : Fin 2) (k : Fin 8) (p : Fin 2) (m : Master) (v : Word) (s : State),
    mwf resetWord s.regs = true →
    let acts (i : Instr) (off : Nat) (l : List Nat) (did : State → Prop) : Prop := Lands s m off →
      ∃ t, exec i s = .next t ∧ (∀ o, o ∉ off :: statusRegs ++ l → t.getReg o = s.getReg o) ∧ did t
    let frame (t u : State) : Prop := t = { u with regs := t.regs, wire := t.wire }
    let c := s.inCtx n
    let b := v.toNat % 8
    let x := s.stream st
    let step := s.getF (F.FLT_CORE_STEP k)
    acts (.inCtxRelease n m v) (F.IN_CTX_RELEASE_IDX n).off [] (fun t =>
      (∀ e, c.bufs[b]? = some e → e.full = true →
        frame t (s.setInCtx n { c with bufs := setNth c.bufs b { e with full := false, taken := false } })) ∧
      ((∀ e, c.bufs[b]? = some e → e.full = false) → frame t s)) ∧
    acts (.defectSwap m v) F.IN_DEF_CTRL_SWAP.off [] (fun t => frame t { s with intake := { s.intake with swap := true } }) ∧
    acts (.tapRelease (tp.castLE (by decide)) m v) (F.IN_TAP_RELEASE_IDX tp).off [] (fun t =>
      frame t (s.setInTap tp { s.inTap tp with full := setNth (s.inTap tp).full b false })) ∧
    acts (.tapRelease ⟨tp.val + 2, by omega⟩ m v) (F.OF_TAP_RELEASE_IDX tp).off [] (fun t =>
      frame t (s.setOutTap tp { s.outTap tp with full := setNth (s.outTap tp).full b false })) ∧
    (v.getLsbD 1 = false → acts (.cut st m v) (F.OF_CTRL_CUT st).off [(F.OF_STAT_CUT_REFUSED st).off] (fun t =>
      (∀ y, x.cur = some y → y.cfg.sinkMem = true → frame t (s.setStream st { x with cur := some { y with cut := true } })) ∧
      (∀ y, x.cur = some y → y.cfg.sinkMem = false → frame t s ∧ t.getF (F.OF_STAT_CUT_REFUSED st) = 1) ∧
      (x.cur = none → frame t s ∧ (s.streamOn st = true → s.forceF (F.OF_CFG_SINK st) = 0 →
        t.getF (F.OF_STAT_CUT_REFUSED st) = 1)))) ∧
    (v.getLsbD 0 = false → acts (.streamRelease st m v) (F.OF_CTRL_CUT st).off [] (fun t =>
      frame t (s.setStream st { x with full := setNth x.full (v.toNat / 4 % 8) false }))) ∧
    acts (.loadSenseGo m v) F.OF_TX_SENSE_GO.off [F.OF_TX_STAT_SENSE_BUSY.off] (fun t =>
      (s.getF F.OF_TX_CFG_ENABLE = 1 → frame t s ∧ t.getF F.OF_TX_STAT_SENSE_BUSY = 1) ∧
      (s.getF F.OF_TX_CFG_ENABLE = 0 → frame t { s with out := { s.out with sense := some s.time.now } } ∧
        t.getF F.OF_TX_SENSE_DONE = 0)) ∧
    (v.toNat % 8 / 2 = 0 → Lands s m F.COF_CTRL_CANCEL.off → ∃ t, exec (.cofCancel m v) s = .next t ∧
      (s.cof.run = none → RegsOnly (F.COF_CTRL_CANCEL.off :: statusRegs) s t) ∧
      (∀ r, s.cof.run = some r → (r.passing = true → t.cof = { s.cof with run := some { r with cancel := true } }) ∧
        (r.passing = false → t.cof = { s.cof with run := none, ended := t.cof.ended } ∧
          (r.sub.bank, r.sub.tag, r.sub.first, r.sub.count) ∈ t.cof.ended))) ∧
    (v.getLsbD 0 = false → v.getLsbD 2 = false → Lands s m F.COF_CTRL_CANCEL.off → ∃ t, exec (.cofFlush m v) s = .next t ∧
      t.cof = { s.cof with queue := [] }) ∧
    (v.toNat % 4 = 0 → acts (.cofClr m v) F.COF_CTRL_CANCEL.off
      [F.COF_PASSES.off, F.COF_STALL.off, F.COF_CE.off, F.COF_LOCKED.off] (fun t => frame t s ∧ t.getF F.COF_PASSES = 0 ∧
        t.getF F.COF_STALL = 0 ∧ t.getF F.COF_CE = 0 ∧ t.getF F.COF_LOCKED = 0)) ∧
    (v.getLsbD 9 = false → acts (.relax k m v) (F.FLT_CORE_RELAX k).off [(F.CORE_STATUS_QUAR k).off] (fun t =>
      (step = 0 → frame t s) ∧ t.getF (F.FLT_CORE_STEP k) = step - 1 ∧ t.jobs = s.jobs ∧
      (0 < step → t.isl k = { s.isl k with newStep := true } ∧ ∃ q, t.flt.fore = s.flt.fore ++ [q] ∧ q.cls = 0x53) ∧
      (step = 4 → t.getF (F.CORE_STATUS_QUAR k) = 0 ∧ (t.core k).quarPending = false))) ∧
    (v.getLsbD 8 = false → Lands s m (F.FLT_CORE_RELAX k).off → ∃ t, exec (.forceQ k m v) s = .next t ∧
      (s.getF (F.CORE_STATUS_QUAR k) = 0 → (s.core k).quarPending = false → t.getF (F.FLT_CORE_STEP k) = 4 ∧
        (t.getF (F.CORE_STATUS_QUAR k) = 1 ∨ (t.core k).quarPending = true)) ∧
      ((s.getF (F.CORE_STATUS_QUAR k) = 1 ∨ (s.core k).quarPending = true) →
        RegsOnly ((F.FLT_CORE_RELAX k).off :: statusRegs) s t)) ∧
    acts (.lnkTrain p m v) (F.LNK_CTRL_TRAIN p).off [(F.LNK_STAT_UP p).off] (fun t => t.getF (F.LNK_STAT_UP p) = 0 ∧
      frame t (s.setPort p { s.port p with training := true, trainAt := s.time.now }))

/-- Ring, interrupt and Bulk registers (R530, R536, R537, R539, R540, R542, R547, R556): a doorbell waits until the Bulk writes
before it are visible, and one further ahead of SQ_HEAD than its ring is long sets RING_ERR (log entry 130); CQ_HEAD lets held
completions out; vectors unmasked with their cause set send their message; enabling HOST rings after a link loss restarts them at
zero; the pointer waits until the buffer has drained; FLUSH discards the row buffers. -/
def Obligations.HostRegistersAct : Prop :=
  ∀ (b c : Fin 2) (reg : Fin 2) (m : Master) (v : Word) (s : State), mwf resetWord s.regs = true →
    let frame (t u : State) : Prop := t = { u with regs := t.regs, wire := t.wire }
    let x := s.ring b
    let y := s.bulk c
    let tail := s.getF (F.CQ_TAIL_TAIL b)
    let ptr := if reg = 0 then (F.BULK_ADDR_LO c).off else (F.BULK_ADDR_HI c).off
    let wakes (n : Nat) : Prop := n < 32 ∧ s.getF F.HOST_STATUS_LINK_UP = 1 ∧ s.getF ⟨F.HOST_IMASK.off, n, 1⟩ = 1 ∧
      v.getLsbD n = false ∧ s.getF ⟨F.HOST_ICAUSE.off, n, 1⟩ = 1
    (Lands s m (F.SQ_TAIL b).off →
      (s.bulkSeen b = false → ∃ t, exec (.sqDoorbell b m v) s = .next t ∧
        frame t (s.setRing b { x with bell := some (v.toNat % 4096) }) ∧ t.getF (F.SQ_TAIL b) = s.getF (F.SQ_TAIL b)) ∧
      (s.bulkSeen b = true → ∃ t, exec (.sqDoorbell b m v) s = .next t ∧ frame t s ∧
        (v.toNat % 4096 ≤ s.getF (F.SQ_HEAD b) + 2 ^ s.getF (F.RING_CFG_SQ_SIZE b) →
          t.getF (F.SQ_TAIL b) = v.toNat % 4096 % 2 ^ s.getF (F.RING_CFG_SQ_SIZE b)) ∧
        (s.getF (F.SQ_HEAD b) + 2 ^ s.getF (F.RING_CFG_SQ_SIZE b) < v.toNat % 4096 → t.getF (F.SQ_TAIL b) = s.getF (F.SQ_TAIL b) ∧
          t.getF (F.RING_CTRL_RING_ERR b) = 1))) ∧
    (Lands s m (F.CQ_HEAD b).off →
      (x.held = [] → ∃ t, exec (.cqHeadWrite b m v) s = .next t ∧ RegsOnly ((F.CQ_HEAD b).off :: statusRegs) s t ∧
        t.getF (F.CQ_HEAD b) = v.toNat % 4096) ∧
      (∀ h, x.held = [h] → (b = 0 → s.host.lost = false) →
        (tail + 1) % 2 ^ s.getF (F.RING_CFG_CQ_SIZE b) ≠ v.toNat % 4096 % 2 ^ s.getF (F.RING_CFG_CQ_SIZE b) →
        2 ^ s.getF (F.RING_CFG_CQ_SIZE b) ≤ 4096 →
        ∃ t, exec (.cqHeadWrite b m v) s = .next t ∧ (t.ring b).held = [] ∧
          t.getF (F.CQ_TAIL_TAIL b) = (tail + 1) % 2 ^ s.getF (F.RING_CFG_CQ_SIZE b))) ∧
    (Lands s m F.HOST_IMASK.off → ∃ t, exec (.hostImaskWrite m v) s = .next t ∧
      RegsOnly (F.HOST_IMASK.off :: statusRegs) s t ∧ t.getReg F.HOST_IMASK.off = v ∧
      (∀ n, wakes n → Wire.msix n ∈ t.wire) ∧ ((∀ n, ¬ wakes n) → t.wire = s.wire)) ∧
    (Lands s m (F.RING_CTRL_ENABLE b).off → ∃ t, exec (.ringEnable b m v) s = .next t ∧ t.getF (F.RING_CTRL_ENABLE b) = 1 ∧
      (b = 0 → s.host.lost = true → s.getF F.HOST_STATUS_LINK_UP = 1 → t.host.lost = false ∧ t.getF (F.SQ_HEAD 0) = 0 ∧
        t.getF (F.SQ_TAIL 0) = 0 ∧ t.getF (F.CQ_HEAD 0) = 0 ∧ (t.ring 0).bell = none ∧
        (x.held = [] → t.getF (F.CQ_TAIL_TAIL 0) = 0 ∧ t.getF (F.CQ_TAIL_PHASE 0) = 0)) ∧
      ((b = 1 ∨ s.host.lost = false) → RegsOnly ((F.RING_CTRL_ENABLE b).off :: statusRegs) s t)) ∧
    (Lands s m ptr → ∃ t, exec (.bulkPointerWrite c (reg.castLE (by decide)) m v) s = .next t ∧
      (y.buf = [] → y.wait = [] → frame t (s.setBulk c { y with pre := [] }) ∧
        (reg = 0 → t.getF (F.BULK_ADDR_LO c) = v.toNat) ∧ (reg = 1 → t.getF (F.BULK_ADDR_HI c) = v.toNat % 65536)) ∧
      ((y.buf ≠ [] ∨ y.wait ≠ []) → frame t (s.setBulk c { y with pre := [], wait := y.wait ++ [.reg ptr v.toNat] }) ∧
        t.getReg ptr = s.getReg ptr)) ∧
    (Lands s m (F.BULK_CTRL_MODE c).off → y.buf = [] → y.wait = [] → ∃ t, exec (.bulkFlush c m v) s = .next t ∧
      (t.bulk c).pre = [] ∧ (s.host.rowWait = [] → t.host.rows = [] ∧ t.flt.fore.length = s.flt.fore.length + s.host.rows.length))

/-! ### Intake -/

/-- Packets of an enabled port (R96, R97, R100, R107, R117–R120, R122): what is counted and dropped, and the line of a memory-path
frame that takes its row; a line start names the next row; a short packet of another kind is counted; a deskew burst shows the
steps of each lane; ULPS shows. A port that is off takes no packet. Frames of a context (R98, R103, R104, R121, R123–R125): a
frame start opens a frame with the values last written, stamped with this DTIME and the frame count, or disables a context of a
bad size, and closes one open under the values in force with NOFE; a frame end closes it, counts it, fills the lines not received
with SHORT set, and leaves its buffer full; TIMEOUT closes it with NOFE. -/
def Obligations.IntakeTakesFrames : Prop :=
  (∀ (p : Fin 2) (vc dt ecc line rate : Nat) (ok on : Bool) (data : List Byte) (steps : List Int) (s : State), Memory.Wf s →
     let go := exec (.longPacket p vc dt ecc ok data) s
     let named := exec (.lineStartPacket p vc ecc line) s
     let v := if p = 0 then vc % 4 else vc % 16
     let counts (o : Host.Outcome State Fault Refusal) (f : Fld) : Prop :=
       ∃ t, o = .next t ∧ RegsOnly [f.off] s t ∧ t.getF f = satAdd f.w (s.getF f) 1
     let known : Prop := (0x2A ≤ dt ∧ dt ≤ 0x2E) ∨ dt ∈ [0x12, 0x1E, 0x24] ∨ (0x30 ≤ dt ∧ dt ≤ 0x37)
     let mine (n : Fin 8) : Prop := s.forceF (F.IN_CTX_ENABLE n) = 1 ∧ s.forceF (F.IN_CTX_PORT n) = p.val ∧
       s.forceF (F.IN_CTX_VC n) = v ∧ s.forceF (F.IN_CTX_DT n) = dt
     let power : Prop := s.off = false ∧ s.getF (F.IN_PORT_CFG_ENABLE p) = 1
     let skew (i : Nat) : Fld := if p = 0 then F.IN_PORTA_SKEW_STEPS i else F.IN_PORTB_SKEW_STEPS i
     (¬ power → go = .next s ∧ named = .next s ∧ exec (.genericShortPacket p) s = .next s ∧
       exec (.deskewBurst p rate steps) s = .next s ∧ exec (.frameStartPacket p vc ecc) s = .next s ∧
       exec (.frameEndPacket p vc ecc) s = .next s) ∧
     (power → counts (exec (.genericShortPacket p) s) (F.IN_PORT_STAT_IGNORED p) ∧
       (2 ≤ ecc → counts go (F.IN_PORT_ERR_ECC2 p) ∧ counts named (F.IN_PORT_ERR_ECC2 p)) ∧
       (ecc = 0 → ¬ known → counts go (F.IN_PORT_STAT_IGNORED p)) ∧
       (ecc = 0 → known → (∀ n, ¬ mine n) → counts go (F.IN_PORT_STAT_UNMATCHED p)) ∧
       (∀ (n : Fin 8) (f : InFrame), ecc = 0 → mine n → (∀ q, q < n → ¬ mine q) → known → (s.inCtx n).cur = some f →
         f.inline = false → f.numbered = false →
         (f.h ≤ f.next → ok = true → ∃ t, go = .next t ∧ t = { s with intake := t.intake } ∧
           (t.inCtx n).cur = some { f with last := s.time.now, lnum := none, flags := f.flags ||| 2 }) ∧
         (f.h ≤ f.next → ok = false → ∃ t, go = .next t ∧ RegsOnly [(F.IN_CTX_CNT_CRC n).off] { s with intake := t.intake } t ∧
           t.getF (F.IN_CTX_CNT_CRC n) = satAdd (F.IN_CTX_CNT_CRC n).w (s.getF (F.IN_CTX_CNT_CRC n)) 1 ∧
           (t.inCtx n).cur = some { f with last := s.time.now, lnum := none, flags := f.flags ||| 4 ||| 2 }) ∧
         (∀ b, f.next < f.h → ok = true → dt = 0x2A → f.dt = dt → data.length = f.w → f.buf = some b →
           s.forceF (F.IN_TAP_ENABLE 0) = 0 → f.addr b f.next + 2 * f.w ≤ s.ddrSize →
           s.dramDenied (f.addr b f.next) (2 * f.w) = none →
           ∃ t, go = .next t ∧ (t.inCtx n).cur = some { f with last := s.time.now, lnum := none, next := f.next + 1 } ∧
             (∀ q, q ≠ n → t.inCtx q = s.inCtx q) ∧ t.regs = s.regs ∧ t.cores = s.cores ∧
             ∀ a, mget (dflt 0#8) t.dram a =
               if f.addr b f.next ≤ a ∧ a < f.addr b f.next + 2 * f.w then
                 (if (a - f.addr b f.next) % 2 = 0 then data.getD ((a - f.addr b f.next) / 2) 0#8 else 0#8)
               else mget (dflt 0#8) s.dram a) ∧
         (f.next < f.h → ok = false → ∃ t, go = .next t ∧
           t.getF (F.IN_CTX_CNT_CRC n) = satAdd (F.IN_CTX_CNT_CRC n).w (s.getF (F.IN_CTX_CNT_CRC n)) 1 ∧
           ∃ g, (t.inCtx n).cur = some g ∧ g.next = f.next + 1 ∧ g.flags.testBit 2 = true)) ∧
       (ecc = 0 → (line = 0 → named = .next s) ∧ (line ≠ 0 → ∃ t, named = .next t ∧ t = { s with intake := t.intake } ∧
         ∀ n, (t.inCtx n).cur = if s.forceF (F.IN_CTX_PORT n) = p.val ∧ s.forceF (F.IN_CTX_VC n) = v then
           (s.inCtx n).cur.map (fun f => { f with lnum := some (line - 1) }) else (s.inCtx n).cur)) ∧
       (∃ t, exec (.deskewBurst p rate steps) s = .next t ∧ t = { s with regs := t.regs } ∧
         ∀ i x, i < 4 → steps[i]? = some x → t.getF (skew i) = unsigned 8 x ∧
           (24 < x.natAbs → t.getF (F.IN_PORT_STAT_SKEW_WARN p) = 1) ∧ (32 < x.natAbs → t.getF (F.IN_PORT_STAT_SKEW_RANGE p) = 1))) ∧
     (∃ t, exec (.ulps p on) s = .next t ∧ RegsOnly [(F.IN_PORT_STAT_ULPS p).off] s t ∧
       t.getF (F.IN_PORT_STAT_ULPS p) = if on then 1 else 0)) ∧
  (∀ (p : Fin 2) (vc : Nat) (n : Fin 8) (s : State), Memory.Wf s →
     let v := if p = 0 then vc % 4 else vc % 16
     let power : Prop := s.off = false ∧ s.getF (F.IN_PORT_CFG_ENABLE p) = 1
     let mine : Prop := s.getF (F.IN_CTX_PORT n) = p.val ∧ s.getF (F.IN_CTX_VC n) = v
     let w := s.getF (F.IN_CTX_SIZE_WIDTH n)
     let h := s.getF (F.IN_CTX_SIZE_HEIGHT n)
     let fair (x : Nat) : Prop := x % 2 = 0 ∧ 0 < x ∧ x ≤ 8192
     let ended (t : State) (f : InFrame) (extra : Nat) : Prop := (t.inCtx n).cur = none ∧
       t.getF (F.IN_CTX_STAT_FLAGS n) = (f.flags ||| extra ||| (if f.next < f.h then 1 else 0)) % 256 ∧
       t.getF (F.IN_CTX_STAT_FRAMES n) = (s.getF (F.IN_CTX_STAT_FRAMES n) + 1) % 2 ^ 24 ∧
       (∀ b e, f.buf = some b → (s.inCtx n).bufs[b]? = some e → ∃ g, (t.inCtx n).bufs[b]? = some g ∧ g.full = true ∧
         g.fs = f.fs ∧ g.src = f.src ∧ g.w = f.w ∧ g.h = f.h)
     (power → mine →
       (s.getF (F.IN_CTX_ENABLE n) = 1 → fair w → fair h → ∃ t f, exec (.frameStartPacket p vc 0) s = .next t ∧
         (t.inCtx n).cur = some f ∧ f.fs = s.time.now ∧ f.src = (s.inCtx n).count ∧ f.w = w ∧ f.h = h ∧ f.next = 0 ∧
         f.dt = s.getF (F.IN_CTX_DT n) ∧ (t.inCtx n).count = ((s.inCtx n).count + 1) % 2 ^ 32 ∧
         (t.inCtx n).starts = (s.inCtx n).starts + 1) ∧
       (s.getF (F.IN_CTX_ENABLE n) = 1 → (¬ fair w ∨ ¬ fair h) → ∃ t, exec (.frameStartPacket p vc 0) s = .next t ∧
         (t.inCtx n).cur = none ∧ t.getF (F.IN_CTX_ENABLE n) = 0 ∧ t.getF F.GLB_STATUS_BAD_ENCODING = 1) ∧
       (s.getF (F.IN_CTX_ENABLE n) = 0 → ∃ t, exec (.frameStartPacket p vc 0) s = .next t ∧ (t.inCtx n).cur = none)) ∧
     (∀ f, power → ¬ mine → (s.inCtx n).cur = some f → f.inline = false → s.forceF (F.IN_CTX_PORT n) = p.val →
       s.forceF (F.IN_CTX_VC n) = v → ∃ t, exec (.frameStartPacket p vc 0) s = .next t ∧ ended t f 16) ∧
     (∀ f, power → (s.inCtx n).cur = some f → f.inline = false → s.forceF (F.IN_CTX_PORT n) = p.val →
       s.forceF (F.IN_CTX_VC n) = v → ∃ t, exec (.frameEndPacket p vc 0) s = .next t ∧ ended t f 0) ∧
     (power → (∀ q, (s.inCtx q).cur = none) → exec (.frameEndPacket p vc 0) s = .next s) ∧
     (∀ f, (s.inCtx n).cur = some f → f.inline = false →
       (f.timeout ≠ 0 → f.last + f.timeout * 1000 ≤ s.time.now → ∃ t, exec (.frameTimeout n) s = .next t ∧ ended t f 16) ∧
       ((f.timeout = 0 ∨ s.time.now < f.last + f.timeout * 1000) → exec (.frameTimeout n) s = .next s)) ∧
     ((s.inCtx n).cur = none → exec (.frameTimeout n) s = .next s))

/-! ### Outfeed -/

/-- Streams (R368–R371, R375–R377, R381, R383–R385): a new reference loads the stream's configuration, counts an overrun and skips
the frame it would begin while a frame is in progress, and otherwise begins a frame, or counts a drop when no buffer is free; a
line is checked 1,000 ns before its time, and a missing one is filled and counted; after the last line, and at the band boundary
of a cut, the trailer ends the frame; a load-sense measurement shows the code of each lane pair; space in the source store lets
the Edge path go on. -/
def Obligations.OutfeedRunsStreams : Prop :=
  ∀ (n : Fin 6) (lanes : List (Nat × Bool)) (s : State), Memory.Wf s →
    let st := s.stream n
    let begins := exec (.streamFrameStart n) s
    let u := s.loadStream n
    let kind := if s.streamOn n then s.forceF (F.OF_CFG_TIMEREF n) else s.getF (F.OF_CFG_TIMEREF n)
    let k := u.forceF (F.OF_CFG_NBUF n) + 1
    let loaded : Prop := u.streamOn n = true ∧ u.forceF (F.OF_CFG_TIMEREF n) = kind
    let free (b : Nat) : Prop := b < k ∧ nth true st.full b = false
    let ended (t : State) (x : OutFrame) (bit : Nat) (b : Bool) : Prop := (t.stream n).cur = none ∧
      (t.stream n).seq = (st.seq + 1) % 2 ^ 32 ∧ (t.stream n).overrun = false ∧
      (t.getF (F.OF_STAT_FLAGS n)).testBit bit = b ∧ t.getF ⟨F.HOST_ICAUSE.off, 5 + n.val, 1⟩ = 1 ∧
      t.getF (F.OF_STAT_FRAMES n) = (s.getF (F.OF_STAT_FRAMES n) + 1) % 2 ^ 24 ∧
      (∀ q, q ≠ n → t.stream q = s.stream q) ∧
      (∀ i, x.buf = some i → i < st.full.length → nth false (t.stream n).full i = true)
    (s.refOf n kind = none → begins = .next s) ∧
    (∀ r, s.refOf n kind = some r → (s.off = true ∨ st.lastRef = some r) → begins = .next s) ∧
    (∀ r, s.refOf n kind = some r → s.off = false → st.lastRef ≠ some r → loaded →
      (∀ x, st.cur = some x → ∃ t, begins = .next t ∧ (t.stream n).cur = some x ∧
        (t.stream n).lastRef = some r ∧ (t.stream n).overrun = true ∧
        t.getF (F.OF_CNT_OVERRUN n) = satAdd 8 (u.getF (F.OF_CNT_OVERRUN n)) 1 ∧
        (∀ j f, (u.streamCfg n).mem = false → u.feeder n = some j → st.takeFrame (u.streamCfg n) j = some f →
          (t.stream n).bound = some (j.id, f.no))) ∧
      (st.cur = none → (u.streamCfg n).mem = true → (u.streamCfg n).sinkMem = true →
        ((∃ b, free b) → ∃ t x b, begins = .next t ∧ (t.stream n).cur = some x ∧ (t.stream n).lastRef = some r ∧
          free b ∧ x.buf = some b ∧ x.ref = r ∧ x.line = 0 ∧ x.filled = 0 ∧ (t.stream n).nextBuf = (b + 1) % k) ∧
        ((∀ b, ¬ free b) → ∃ t, begins = .next t ∧ (t.stream n).cur = none ∧
          t.getF (F.OF_CNT_DROP n) = satAdd 8 (u.getF (F.OF_CNT_DROP n)) 1))) ∧
    (st.cur = none → exec (.lineReadyCheck n) s = .next s ∧ exec (.outfeedLineTime n) s = .next s ∧
      exec (.cutClose n) s = .next s) ∧
    (∀ x, st.cur = some x →
      let due (i : Nat) : Nat := x.ref + x.cfg.offset + i * x.cfg.line
      (x.cfg.timeref = 0 → x.cfg.geo.fmt ≠ 4 → x.checked < x.cfg.geo.oh → due x.checked ≤ s.time.now + 1000 →
        ∃ t, exec (.lineReadyCheck n) s = .next t ∧ t = { s with out := t.out } ∧ (t.stream n).cur = some
          { x with checked := x.checked + 1,
                   missing := if s.lineReady x x.checked = true then x.missing else x.missing ++ [x.checked],
                   miss := x.miss || (!s.lineReady x x.checked && !s.outDead x) }) ∧
      ((x.cfg.timeref ≠ 0 ∨ s.time.now + 1000 < due x.checked) → exec (.lineReadyCheck n) s = .next s) ∧
      (x.cfg.geo.fmt ≠ 4 → s.time.now < due x.line → exec (.outfeedLineTime n) s = .next s) ∧
      (x.cfg.geo.fmt ≠ 4 → due x.line ≤ s.time.now → x.cut = false → x.cfg.sinkMem = true →
        (x.line = x.cfg.geo.oh → ∃ t, exec (.outfeedLineTime n) s = .next t ∧ ended t x 2 false) ∧
        (x.line < x.cfg.geo.oh → x.cfg.mem = true → ∃ t y, exec (.outfeedLineTime n) s = .next t ∧
          (t.stream n).cur = some y ∧ y.line = x.line + 1 ∧ y.lastAt = s.time.now ∧ y.buf = x.buf) ∧
        (x.line < x.cfg.geo.oh → x.cfg.mem = false → x.cfg.timeref = 0 → x.line < x.checked → x.line ∈ x.missing →
          ∃ t y, exec (.outfeedLineTime n) s = .next t ∧ (t.stream n).cur = some y ∧ y.line = x.line + 1 ∧
            y.filled = x.filled + 1 ∧ y.firstFilled = (if x.firstFilled = 0xFFFF then x.line else x.firstFilled) ∧
            t.getF (F.OF_CNT_FILLED n) = satAdd 16 (s.getF (F.OF_CNT_FILLED n)) 1)) ∧
      (s.atCut x = true → ∃ t, exec (.cutClose n) s = .next t ∧ ended t x 2 true) ∧
      (s.atCut x = false → exec (.cutClose n) s = .next s)) ∧
    (s.out.sense = none → exec (.loadSenseDone lanes) s = .next s) ∧
    (∀ a, s.out.sense = some a → ∃ t, exec (.loadSenseDone lanes) s = .next t ∧ t.getF F.OF_TX_SENSE_DONE = 1 ∧
      RegsOnly [F.OF_TX_SENSE_CODES.off] { s with out := { s.out with sense := none } } t ∧
      ∀ i ohms low, i < 5 → lanes[i]? = some (ohms, low) →
        t.getF ⟨F.OF_TX_SENSE_CODES.off, F.OF_TX_SENSE_CODES.lo + 2 * i, 2⟩ =
          (if low = true ∨ ohms < 20 then 2 else if 200 < ohms then 0 else if 80 ≤ ohms ∧ ohms ≤ 125 then 1 else 3)) ∧
    (∃ t, exec .sourceStoreSpace s = .next t ∧ t = { s with out := t.out, edge := t.edge } ∧
      (s.edge.run = none → t.edge = s.edge) ∧
      ∀ r, s.edge.run = some r → s.job r.job = none → t.edge.run = some { r with held := false })

/-! ### The Edge engine -/

/-- The Edge engine (R54, R315, R317–R325, R361, R383): a plane row starts when no run is in progress; the record of the run does
its work on the frame's rows and the run goes to the next record. ECONV sums in FP32 over kernel positions and channels; EMIT
writes its tile rows and reaches R_k once the last has landed; TAKE joins the rows of the cores, and waits for the source store;
BOXDEC lists candidates that reach the threshold; NMS runs once nothing of its frame is left to join; END ends the run. A command
of another record than the run stands at leaves everything. A word of line memory that turns out uncorrectable as a row starts
writes an EDGE_UE record and poisons its row (R467). -/
def Obligations.EdgeRunsRecords : Prop :=
  ∀ (id : Nat) (ue : List (Nat × Int × Nat)) (s : State), mwf resetWord s.regs = true →
    let rows (post : Bool) : Instr := .edgePlaneRowStart id ⟨post, ue⟩
    let u : State := s.edgeUe id ue
    let stands (r : EdgeRun) (j : Job) (x : JFrame) (e : EdgeRec) (op : Nat) : Prop := s.edge.run = some r ∧
      s.job r.job = some j ∧ j.frameNo r.frame = some x ∧ j.edge.recs[r.ptr]? = some e ∧ recB e 0 1 = op
    let only (t : State) : Prop := t = { s with regs := t.regs, jobs := t.jobs, edge := t.edge } ∧
      ∀ o, o ∉ [F.EDGE_SAT.off, F.EDGE_DET_DROP.off, F.EDGE_STATUS_NMS_BUSY.off] → t.getReg o = s.getReg o
    let went (t : State) (r : EdgeRun) : Prop :=
      ∃ l, t.edge = { s.edge with run := some { r with ptr := r.ptr + 1, fresh := r.fresh ++ l, held := false } }
    let passed (r : EdgeRun) : State := { s with edge := { s.edge with run := some { r with ptr := r.ptr + 1 } } }
    let frame (t : State) (r : EdgeRun) (p : JFrame → Prop) : Prop :=
      ∃ j x, t.job r.job = some j ∧ j.frameNo r.frame = some x ∧ p x
    let sole (r : EdgeRun) (x : JFrame) (e : EdgeRec) (v : ERow) : Prop :=
      r.fresh = [(recB e 1 1, v.q)] ∧ x.rowOf (recB e 1 1) v.q = some v
    let begun (t : State) (job frame : Nat) (post : Bool) (band tensor : Nat) : Prop := ∃ r, t.edge = { s.edge with run := some r } ∧
      r.job = job ∧ r.frame = frame ∧ r.post = post ∧ r.band = band ∧ r.t = tensor ∧ r.ptr = 0 ∧ r.fresh = [] ∧
      r.start = s.time.now ∧ t.getF F.EDGE_STATUS_BUSY = 1
    let boxes (t : State) (j : Job) (x : JFrame) : Prop := ∃ d ∈ t.out.dets, d.job = j.id ∧ d.frame = x.no ∧ d.done = []
    let ops : List (Nat × Instr) := [(1, .pack), (2, .econv), (3, .emit), (4, .take), (5, .shuffle), (6, .edgeArgmax),
      (7, .boxdec), (9, .outRec)]
    (∀ q ∈ ops, (s.edge.run = none ∨ ∃ r j x e, stands r j x e (recB e 0 1) ∧ recB e 0 1 ≠ q.1) → exec q.2 s = .next s) ∧
    (∀ post, (s.edge.run.isSome = true ∨ s.off = true ∨ s.job id = none) → exec (rows post) s = .next u) ∧
    (ue = [] → u = s) ∧
    (∀ e j x b, ue = [e] → s.job id = some j → x ∈ j.frames → b ∈ x.bufs → b.1 = e.1 → b.2.q = e.2.1 → e.2.2 < b.2.pois.length →
      (∃ q, u.flt.fore = s.flt.fore ++ [q] ∧ q.cls = 0x17 ∧ q.job = id ∧ q.poison = true) ∧
      ∃ j' x' b', u.job id = some j' ∧ x' ∈ j'.frames ∧ x'.no = x.no ∧ b' ∈ x'.bufs ∧ b'.1 = e.1 ∧ b'.2.q = e.2.1 ∧
        b'.2.vals = b.2.vals ∧ nth false b'.2.pois e.2.2 = true) ∧
    (∀ j, s.edge.run = none → s.off = false → u.job id = some j → (j.inline = true ∨ u.inlineWaits = false) →
      (∀ x k n, j.postWork = some (x, k, n) → ∃ t, exec (rows true) s = .next t ∧ begun t id x.no true k n) ∧
      (∀ x, j.preWork = some x → ∃ t, exec (rows false) s = .next t ∧ begun t id x.no false (x.nextQ / j.spr) 0) ∧
      (j.postWork = none → exec (rows true) s = .next u) ∧
      (j.preWork = none → exec (rows false) s = .next u)) ∧
    (∀ r j x e, (stands r j x e 1 → r.post = true → exec .pack s = .next (passed r)) ∧
      (stands r j x e 1 → r.post = false → r.held = false → ∀ a b l, r.row.vals = a :: b :: l →
        2 * j.width ≤ a.length → 2 * j.width ≤ b.length → ∃ t, exec .pack s = .next t ∧ only t ∧ went t r ∧
        frame t r (fun y => ∃ v, y.rowOf (recB e 2 1) r.row.q = some v ∧ v.vals.length = j.width ∧
          let px (n : Nat) : Nat := (toF16 (.fin false n (-(x.depth : Int))) fvOne).1
          ∀ i, i < j.width → v.vals[i]? = some [px (nth 0 a (2 * i)), px (nth 0 a (2 * i + 1)), px (nth 0 b (2 * i)),
            px (nth 0 b (2 * i + 1))])) ∧
      (stands r j x e 2 → r.held = false → ∃ t, exec .econv s = .next t ∧ only t ∧ went t r ∧
        ∀ v (us : Nat → ERow), sole r x e v → (r.ptr = 0 ∨ ∀ p, j.edge.recs[r.ptr - 1]? = some p → splitPart e p = false) →
          let cin := recB e 4 1
          let n := recB e 6 1
          let h := (n - 1) / 2
          let w := v.vals.length
          (h : Int) ≤ v.q - h → v.q < j.rowLimit x r.ptr (recB e 1 1) →
          (∀ a, a < n → x.rowOf (recB e 1 1) (v.q - 2 * h + a) = some (us a) ∧ (us a).vals.length = w ∧
            ∀ px ∈ (us a).vals, px.length = cin) →
          frame t r (fun y => ∃ u, y.rowOf (recB e 2 1) (v.q - h) = some u ∧ u.vals.length = w ∧
            ∀ c o, h ≤ c → c + h < w → o < recB e 5 1 → n = 2 * h + 1 →
              let from_ (i : Nat) : FV := fp16.decode (nth 0 (nth [] (us (i / (n * cin))).vals (c + i / cin % n - h)) (i % cin))
              let sum := (upFrom 0 (cin * n * n)).foldl (fun z i =>
                fadd z (fvMul (from_ i) (j.constF (recB e 8 4) (o * (cin * n * n) + i)))) (fvInt 0)
              let z := fadd sum (j.constF (recB e 12 4) o)
              nth 0 (nth [] u.vals c) o =
                (toF16 (if recB e 7 1 = 1 ∧ z.lt (fvInt 0) = true then fvInt 0 else z) fvOne).1)) ∧
      (stands r j x e 3 → r.post = true → exec .emit s = .next (passed r)) ∧
      (stands r j x e 3 → r.post = false → s.brgBusy = true → exec .emit s = .next s) ∧
      (stands r j x e 3 → r.post = false → s.brgBusy = false → ∃ t, exec .emit s = .next t ∧
        t.edge.run = some { r with ptr := r.ptr + 1 } ∧ t.edge.busy = s.edge.busy ∧
        (∀ b, 0 < j.spr → (r.row.q.toNat + 1) % j.spr = 0 →
          (∀ g ∈ j.edge.recs.drop (r.ptr + 1), recB g 0 1 ≠ 3) → x.band r.band = some b → b.ready = none → b.aborted = false →
          (t.rowsHeld j x = false → frame t r (fun y => ∃ c, y.band r.band = some c ∧ c.ready = some s.time.now)) ∧
          (t.rowsHeld j x = true → t.edge.landing = s.edge.landing ++ [(j.id, x.no, r.band)])) ∧
        (∀ v k, sole r x e v → j.paired = false → recB e 18 1 = 0 → s.brgUp = true → k ∈ x.primaries →
          s.spHeld (coreOf k) = false →
          let codes := (emitCodes j e (j.rowLimit x r.ptr (recB e 1 1)) v).1
          ∀ o ∈ emitTile e (firstCol x.tiles k) (nth 0 x.tiles k) (r.row.q.toNat % j.spr) codes, ∀ i, i < 64 →
            (nth (0, false) o.2 i).2 = false →
            mget zeroWord (t.core (coreOf k)).sp (o.1 * 64 + i) = cleanWord (nth (0, false) o.2 i).1)) ∧
      (stands r j x e 4 → (r.post = false ∨ recB e 4 1 ≠ r.t) → exec .take s = .next (passed r)) ∧
      (stands r j x e 4 → r.post = true → recB e 4 1 = r.t →
        (4194304 < s.storeUsed + j.outNeed → exec .take s = .next { s with edge := { s.edge with run := some { r with held := true } } }) ∧
        (s.storeUsed + j.outNeed ≤ 4194304 → ∃ t, exec .take s = .next t ∧ went t r ∧
          let bits := etBits (recB e 6 1)
          let parts := x.primaries.map (fun c => (c, (x.firstRow r.band r.t c).getD []))
          let cells := parts.flatMap (fun p => takeCells (recB e 5 1) bits p.2)
          ∀ c0 p0 l, parts = (c0, p0) :: l → s.gateDrops r.job 1 = false → (∀ p ∈ cells, p.2 = false) → r.band = j.stripes x →
            let n := x.coverOf c0 p0
            frame t r (fun y => ∃ v, y.rowOf (recB e 2 1) (j.takeRow x r.band r.t n + (x.covered r.band r.t / n : Nat)) = some v ∧
              (recB e 6 1 ≠ 0 → v.vals = cells.map (fun p => (p.1.zip (upFrom 0 (recB e 5 1))).map (·.1))) ∧
              (recB e 6 1 = 0 → v.vals = cells.map (fun p => (p.1.zip (upFrom 0 (recB e 5 1))).map (fun q =>
                (toF16 (fvMul (etDecode 0 q.1) (j.constF (recB e 8 4) q.2)) fvOne).1)))))) ∧
      (stands r j x e 5 → r.held = false → ∀ v, sole r x e v → ∃ t, exec .shuffle s = .next t ∧ only t ∧ went t r ∧
        ∀ i : Nat, i < 2 → frame t r (fun y => ∃ w, y.rowOf (recB e 2 1) (2 * v.q + (i : Int)) = some w ∧ w.vals.length = 2 * v.vals.length ∧
          ∀ n b c, n < v.vals.length → b < 2 → c < recB e 4 1 →
            nth 0 (nth [] w.vals (2 * n + b)) c = nth 0 (nth [] v.vals n) (4 * c + 2 * i + b))) ∧
      (stands r j x e 6 → r.held = false → ∀ v, sole r x e v → ∃ t, exec .edgeArgmax s = .next t ∧ only t ∧ went t r ∧
        frame t r (fun y => ∃ w, y.rowOf (recB e 2 1) v.q = some w ∧ w.vals.length = v.vals.length ∧
          ∀ (n : Nat) (px : List Nat), v.vals[n]? = some px → (∃ c ∈ px, fp16.decode c ≠ .nan) → ∃ m c : Nat, w.vals[n]? = some [m] ∧ px[m]? = some c ∧
            fp16.decode c ≠ .nan ∧ ∀ i d : Nat, px[i]? = some d → fp16.decode d ≠ .nan →
              (fp16.decode c).lt (fp16.decode d) = false ∧ (i < m → (fp16.decode d).lt (fp16.decode c) = true))) ∧
      (stands r j x e 7 → r.held = false → ∃ t, exec .boxdec s = .next t ∧ only t ∧ went t r ∧
        ∀ v, sole r x e v → 0 ≤ v.q → v.q.toNat * recB e 6 2 < x.h → ∃ l : List Cand,
          (∀ c ∈ l, c.band = r.band ∧ c.py = v.q.toNat ∧ c.px < v.vals.length ∧ c.anchor < recB e 4 1 ∧ c.cls < recB e 5 1 ∧
            c.index = ((c.py * v.vals.length + c.px) * recB e 4 1 + c.anchor) * recB e 5 1 + c.cls ∧
            c.score = nth 0 (nth [] v.vals c.px) (c.anchor * (4 + recB e 5 1) + 4 + c.cls) ∧
            (fp16.decode c.score).lt (fp16.decode (recB e 8 2)) = false) ∧
          frame t r (fun y => y.seen = x.seen + l.length ∧ (x.cands.length + l.length ≤ 1024 →
            y.overflow = x.overflow ∧ y.cands.length = x.cands.length + l.length ∧ ∀ c, c ∈ y.cands ↔ c ∈ x.cands ∨ c ∈ l) ∧
            (x.cands.length ≤ 1024 → 1024 < x.cands.length + l.length → y.overflow = true ∧ y.cands.length = 1024))) ∧
      (stands r j x e 8 → r.held = false → ∃ t, exec .nms s = .next t ∧ went t r ∧
        (r.post = true → j.nmsDue x = true → boxes t j x ∧
          (j.inline = true → frame t r (fun y => y.suppressed = true ∧ y.cands = [])))) ∧
      (stands r j x e 9 → r.held = false → ∃ t, exec .outRec s = .next t ∧
        t.edge = { s.edge with run := some { r with ptr := r.ptr + 1 } } ∧
        ∀ v, sole r x e v → 0 ≤ v.q → v.q.toNat < j.rowsAt (recB e 4 1) x.h → s.rowWanted j x.no (recB e 4 1) v.q.toNat = true →
          ∃ g ∈ t.out.store, g.job = j.id ∧ g.frame = x.no ∧ g.out = recB e 4 1 ∧ g.row = v.q.toNat ∧ g.vals = v.vals) ∧
      (stands r j x e 10 → ∃ t, exec .edgeEnd s = .next t ∧ t.edge.run = none ∧ t.getF F.EDGE_STATUS_BUSY = 0 ∧
        (r.start, s.time.now) ∈ t.edge.busy) ∧
      (s.edge.run = some r → s.job r.job = none → ∃ t, exec .edgeEnd s = .next t ∧ t.edge = { s.edge with run := none } ∧
        t.getF F.EDGE_STATUS_BUSY = 0)) ∧
    (s.edge.run = none → exec .edgeEnd s = .next s) ∧
    (s.edge.run = none → (s.nmsWork = none → exec .nms s = .next s) ∧
      (∀ j x e, s.nmsWork = some (j, x, e) → ∃ t, exec .nms s = .next t ∧ boxes t j x))

/-! ### The Coffer -/

/-- The Coffer engine (R404, R407–R413, R421–R425, R428, R429, R431, R433): it starts the oldest submission; NOT, CONST, LIN and
TRIV write their slot at once, level 15 when a source is not usable; a refresh gate joins the batch, or begins its own pass in
latency mode; a conflict closes the batch first; a pass counts and writes its slots; END closes the batch or ends the program,
whose slots stay held until its completion is posted (R432). Key data that is bad on its way faults the pass once, a corrected
word counts in COF_CE, an accumulator word past correction writes COF_UE and poisons the result it goes into (R435, R437, R416). A
gate word past correction writes COF_UE and ends the submission; that it ends is the model's choice (log 132). A refresh gate of a
latency submission and the pass after it (for MUX the two passes) leave the refresh of the gate's weighted sum under its table in
its slot, at level 0 (MUX: the sum of two, at level 1), when its sources are usable and its level stays within 8. -/
def Obligations.CofferRunsGates : Prop :=
  ∀ (a : KeyArrival) (s : State), Memory.Wf s →
    let stands (r : CofRun) (w : BitVec 64) (o : Nat) : Prop := s.cof.run = some r ∧ r.passing = false ∧
      r.next = some (some w) ∧ bitsOf w.toNat 58 6 = o
    let broken : Prop := ∃ r, s.cof.run = some r ∧ r.passing = false ∧ r.next = some none
    let slot (t : State) (d : Nat) : CofSrc := (t.cofSlot d).1
    let rest (t : State) : Prop := t.dram = s.dram ∧ t.jobs = s.jobs ∧ t.cores = s.cores ∧ t.hostMem = s.hostMem
    let fine (r : CofRun) (a : Nat) : Prop := (slot s a).spent = false ∧ (slot s a).valid = true ∧ (slot s a).poison = false ∧
      ((slot s a).trivial = true ∨ (slot s a).ksid = r.sub.ksid)
    let plain (i : Instr) (o cyc : Nat) (did : CofRun → BitVec 64 → State → Prop) : Prop := ∀ r w, stands r w o →
      (conflicts w r.batch = true → exec i s = .next { s with cof := { s.cof with run := some { r with passing := true } } }) ∧
      (conflicts w r.batch = false → ∃ t q, exec i s = .next t ∧ rest t ∧ t.cof.run = some q ∧ t.cof.queue = s.cof.queue ∧
        q = { r with idx := r.idx + 1, cycles := r.cycles + cyc, firsts := q.firsts } ∧ (slot t (gDst w)).valid = true ∧
        (slot t (gDst w)).poison = false ∧ (slot t (gDst w)).ksid = r.sub.ksid % 16 ∧ did r w t)
    let waits (i : Instr) (o : Nat) : Prop := (¬ broken → (∀ r w, ¬ stands r w o) → exec i s = .next s) ∧
      (broken → ∃ t, exec i s = .next t ∧ t.cof.run = none ∧ t.getF F.COF_STATUS_BUSY = 0 ∧
        ∃ q ∈ t.flt.fore, q.cls = 0x44 ∧ q.unit = 7 ∧ q.poison = true)
    let refresh (i : Instr) (o : Nat) : Prop := waits i o ∧ ∀ r w, stands r w o →
      let puts (r : CofRun) : State := { s with cof := { s.cof with run := some r } }
      let closes : Prop := conflicts w r.batch = true ∨ 64 < batchPos r.batch + (if o = 0x16 then 2 else 1)
      let alone : CofRun := { r with batch := [⟨w, r.idx⟩], idx := r.idx + 1, passing := true, second := false, keyFault := false }
      (r.sub.batch = false → exec i s = .next (puts alone)) ∧
      (r.sub.batch = true → (closes → exec i s = .next (puts { r with passing := true })) ∧
        (¬ closes → exec i s = .next (puts { r with batch := r.batch ++ [⟨w, r.idx⟩], idx := r.idx + 1 })))
    let usable (r : CofRun) (l : List Nat) (cls : Nat) : Prop := r.sub.batch = false ∧ r.cancel = false ∧
      r.keyBad = false ∧ r.accBad = [] ∧ s.badKeyWord r.sub.ksid = none ∧ ∀ a ∈ l, fine r a ∧ (slot s a).level + cls ≤ 8
    let left (u : State) (r : CofRun) (w : BitVec 64) (n level : Nat) (co : List Nat) : Prop := rest u ∧ ∃ q, u.cof.run = some q ∧
      q.idx = r.idx + 1 ∧ q.passing = false ∧ q.npass = r.npass + n ∧ q.sub = r.sub ∧
      (slot u (gDst w)).valid = true ∧ (slot u (gDst w)).poison = false ∧ (slot u (gDst w)).trivial = false ∧
      (slot u (gDst w)).spent = false ∧ (slot u (gDst w)).level = level ∧ (slot u (gDst w)).ksid = r.sub.ksid % 16 ∧
      ∀ m, m < 801 → nth 0 (slot u (gDst w)).co m = nth 0 co m
    let sum (w : BitVec 64) (a b c : Int) : List Nat :=
      cofSum [(a, (slot s (gA w)).co), (b, (slot s (gB w)).co), (c, (slot s (gC w)).co)]
    let carried (i : Instr) (o table : Nat) : Prop := ∀ r w, stands r w o → usable r [gA w, gB w] 1 →
      ∃ t u, exec i s = .next t ∧ exec .refreshPass t = .next u ∧
        left u r w 1 0 (cofRefresh (s.keyRd r.sub.ksid) table (sum w 1 1 0))
    carried .gateAnd 0x10 0xFC ∧ carried .gateOr 0x11 0xFE ∧ carried .gateXor 0x12 0xAA ∧ carried .nand 0x13 0x03 ∧
    carried .nor 0x14 0x01 ∧ carried .xnor 0x15 0x55 ∧
    (∀ r w, stands r w 0x17 → usable r [gA w, gB w, gC w] 5 → ∃ t u, exec .lut3 s = .next t ∧ exec .refreshPass t = .next u ∧
      left u r w 1 0 (cofRefresh (s.keyRd r.sub.ksid) (gAux w % 256) (sum w 1 2 4))) ∧
    (∀ r w, stands r w 0x16 → usable r [gA w, gB w, gC w] 3 → ∃ t u v, exec .muxGate s = .next t ∧ exec .refreshPass t = .next u ∧
      exec .refreshPass u = .next v ∧ left v r w 2 1 (cofSum [(1, cofRefresh (s.keyRd r.sub.ksid) 0x08 (sum w 2 1 0)),
        (1, cofRefresh (s.keyRd r.sub.ksid) 0x02 (sum w 2 0 1))])) ∧
    refresh .gateAnd 0x10 ∧ refresh .gateOr 0x11 ∧ refresh .gateXor 0x12 ∧ refresh .nand 0x13 ∧ refresh .nor 0x14 ∧
    refresh .xnor 0x15 ∧ refresh .muxGate 0x16 ∧ refresh .lut3 0x17 ∧
    waits .linGate 1 ∧ waits .notGate 2 ∧ waits .trivGate 3 ∧ waits .constGate 4 ∧ waits .endGate 0 ∧
    plain .notGate 2 16 (fun r w t => (fine r (gA w) → (slot t (gDst w)).level = (slot s (gA w)).level ∧
        (slot t (gDst w)).spent = false) ∧ (¬ fine r (gA w) → (slot t (gDst w)).spent = true) ∧
      ∀ i, i < 801 → (nth 0 (slot t (gDst w)).co i + nth 0 (slot s (gA w)).co i) % 2 ^ 32 = if i = 800 then 2 ^ 28 else 0) ∧
    plain .constGate 4 16 (fun _ w t => (slot t (gDst w)).trivial = true ∧ (slot t (gDst w)).level = 0 ∧
      ∀ i, i < 801 → nth 0 (slot t (gDst w)).co i = if i = 800 then gAux w % 16 * 2 ^ 28 else 0) ∧
    plain .trivGate 3 16 (fun _ w t => (slot t (gDst w)).trivial = true ∧ ∃ v, v < 2 ∧
      ∀ i, i < 801 → nth 0 (slot t (gDst w)).co i = if i = 800 then v * 2 ^ 28 else 0) ∧
    plain .linGate 1 64 (fun _ w t => ∀ i, i < 801 →
      let wt (m : Nat) : Int := signed 3 (bitsOf (gAux w) (3 * m) 3)
      let c (d : Nat) : Int := (nth 0 (slot s d).co i : Nat)
      nth 0 (slot t (gDst w)).co i = unsigned 32 (wt 0 * c (gA w) + wt 1 * c (gB w) + wt 2 * c (gC w) +
        (if (gAux w).testBit 9 = true then c (gDst w) else 0))) ∧
    (∀ r w, stands r w 0 →
      (r.batch ≠ [] → exec .endGate s = .next { s with cof := { s.cof with run := some { r with passing := true } } }) ∧
      (r.batch = [] → ∃ t, exec .endGate s = .next t ∧ t.getF F.COF_STATUS_BUSY = 0 ∧
        t.cof = { s.cof with run := none, ended := t.cof.ended, sram := t.cof.sram } ∧
        (r.sub.bank, r.sub.tag, r.sub.first, r.sub.count) ∈ t.cof.ended)) ∧
    (∀ u l, s.cof.run = none → s.cof.queue = u :: l → ∃ t r, exec .engineStart s = .next t ∧ t.cof.run = some r ∧
      t.cof.queue = l ∧ r.sub = u ∧ r.idx = 0 ∧ r.batch = [] ∧ r.passing = false ∧ r.npass = 0 ∧ r.start = s.time.now ∧
      RegsOnly [F.COF_STATUS_BUSY.off] { s with cof := t.cof } t ∧ t.getF F.COF_STATUS_BUSY = 1) ∧
    ((s.cof.run.isSome = true ∨ s.cof.queue = []) → exec .engineStart s = .next s) ∧
    ((∀ r, s.cof.run = some r → r.passing = false) → exec .refreshPass s = .next s ∧ exec (.keyStreamData a) s = .next s) ∧
    (∀ r, s.cof.run = some r → r.passing = true →
      (∃ t, exec (.keyStreamData a) s = .next t ∧ t.getF F.COF_STALL = satAdd 32 (s.getF F.COF_STALL) a.n ∧
        t.getF F.COF_CE = satAdd 32 (s.getF F.COF_CE) a.ce ∧
        (a.bad = none → a.ue = [] → RegsOnly [F.COF_STALL.off, F.COF_CE.off] { s with cof := t.cof } t ∧
          (a.gate = [] → t.cof = s.cof)) ∧
        (a.bad ≠ none → r.keyBad = false → t.getF F.COF_STICKY_KEY_FAULT = 1 ∧ r.sub.ksid ∈ t.cof.recheck ∧
          ∃ q ∈ t.flt.fore, q.cls = 0x45 ∧ q.unit = 7) ∧
        ∀ w ∈ a.ue, ∃ q ∈ t.flt.fore, q.cls = 0x44 ∧ q.unit = 7 ∧ q.addr = 0x030000CC0000 + 8 * w) ∧
      (∃ t, exec .refreshPass s = .next t ∧ t.getF F.COF_PASSES = (s.getF F.COF_PASSES + 1) % 2 ^ 32 ∧
        (r.cancel = true → t.cof.run = none) ∧
        (r.cancel = false → ∃ q, t.cof.run = some q ∧ q.npass = r.npass + 1 ∧ q.idx = r.idx ∧ q.sub = r.sub ∧
          (q.passing = false → q.batch = [] ∧ (∀ g ∈ r.batch, (slot t (gDst g.word)).valid = true) ∧
            ∀ g, r.batch = [g] → 0 ∈ r.accBad → (slot t (gDst g.word)).poison = true)) ∧
        (s.badKeyWord r.sub.ksid ≠ none → r.keyBad = false → t.getF F.COF_STICKY_KEY_FAULT = 1 ∧ r.sub.ksid ∈ t.cof.recheck)))

/-- Coffer commands and host writes of slots (R394, R395–R398, R429, R430, R432, R436, R541): a command begins only as the oldest
of its ring not begun; KSLOAD, KSUNLOAD and COFSUB are refused with their codes and otherwise take effect; a key set that met a
fault is digested again; a host write of a slot header commits it, unless the running submission, or one whose completion is still
kept, holds the slot; then cause 21 is raised. A submission refused after its block was read echoes the block's TAG and names no
gate; its times are free (log 3). -/
def Obligations.CofferTakesCommands : Prop :=
  ∀ (b : Fin 2) (k : Fin 4) (slot : Fin 4096) (h : BitVec 64) (s : State), Memory.Wf s →
    let next (o : Nat) (e : InFlight) : Prop := s.served = true ∧ (s.ring b).inflight.find? (fun e => !e.begun) = some e ∧
      e.opc = o ∧ e.bad = none
    let waits (i : Instr) (o : Nat) : Prop := (∀ e, ¬ next o e) → exec i s = .next s
    let key := vget s.cof.keys k
    let bit (t : State) (f : Fld) : Nat := t.getF ⟨f.off, f.lo + k.val, 1⟩
    waits (.ksload b) 9 ∧ waits (.ksunload b) 10 ∧ waits (.cofsub b) 11 ∧
    (∀ e, next 9 e →
      let ends (c : Nat) : Prop := exec (.ksload b) s = .next (s.finish b e c [])
      let src := s.source (e.par 16 8) (e.par 24 8)
      (e.unusedZero [(8, 8), (16, 31)] = false → ends 0x71) ∧
      (e.unusedZero [(8, 8), (16, 31)] = true → (3 < e.par 8 1 → ends 0x71) ∧
        (e.par 8 1 = k.val → (key.loaded = true → ends 0x33) ∧
          (key.loaded = false → (e.par 24 8 < 190713856 ∨ 0x0B700000 < e.par 24 8) → ends 0x31) ∧
          (key.loaded = false → 190713856 ≤ e.par 24 8 → e.par 24 8 ≤ 0x0B700000 →
            s.fwHeld (e.par 16 8) (e.par 24 8) = true → exec (.ksload b) s = .next s) ∧
          (key.loaded = false → 190713856 ≤ e.par 24 8 → e.par 24 8 ≤ 0x0B700000 →
            s.fwHeld (e.par 16 8) (e.par 24 8) = false →
            (src.1 = none → exec (.ksload b) s = .next (src.2.finish b e 0x74 [])) ∧
            (∀ l, src.1 = some l → src.2.keyCheck k l ≠ 0x30 →
              exec (.ksload b) s = .next (src.2.finish b e (src.2.keyCheck k l) [])) ∧
            (∀ l, src.1 = some l → src.2.keyCheck k l = 0x30 → ∃ t, exec (.ksload b) s = .next t ∧
              (vget t.cof.keys k).loaded = true ∧ (vget t.cof.keys k).keyId = fieldAt l 8 8 ∧
              bit t F.COF_KS_LOADED = 1 ∧ bit t F.COF_KS_SUSPECT = 0))))) ∧
    (∀ e, next 10 e → e.unusedZero [(8, 8)] = true → e.par 8 1 = k.val →
      let ends (c : Nat) : Prop := exec (.ksunload b) s = .next (s.finish b e c [])
      (s.keyInUse k.val = true → ends 0x33) ∧ (s.keyInUse k.val = false → key.loaded = false → ends 0x3A) ∧
      (s.keyInUse k.val = false → key.loaded = true → ∃ t, exec (.ksunload b) s = .next t ∧
        (vget t.cof.keys k).loaded = false ∧ bit t F.COF_KS_LOADED = 0)) ∧
    (∀ e, next 11 e → (e.unusedZero [(8, 15)] = false → exec (.cofsub b) s = .next (s.finish b e 0x71 [])) ∧
      (e.unusedZero [(8, 15)] = true → s.fwHeld (e.par 8 8) 64 = true → exec (.cofsub b) s = .next s)) ∧
    (∀ e, next 11 e → e.unusedZero [(8, 15)] = true → s.fwHeld (e.par 8 8) 64 = false →
      let src := s.source (e.par 8 8) 64
      let refused (t : State) (l : List Byte) (c : Nat) : Prop := ∃ v : List Byte, v.length = 16 ∧
        exec (.cofsub b) s = .next ((t.drawn 2).finish b e c (leBytes 4 (fieldAt l 20 4) ++ leBytes 4 0 ++
          List.replicate 16 255 ++ leBytes 8 0 ++ v))
      (src.1 = none → exec (.cofsub b) s = .next (src.2.finish b e 0x74 [])) ∧
      ∀ l, src.1 = some l → (blockGood l = false → refused src.2 l 0x35) ∧
        (blockGood l = true → fieldAt l 12 1 = k.val → (key.loaded = false → refused src.2 l 0x3A) ∧
          (key.loaded = true → s.fwHeld (fieldAt l 0 8) (fieldAt l 8 4) = true → exec (.cofsub b) s = .next s) ∧
          (key.loaded = true → s.fwHeld (fieldAt l 0 8) (fieldAt l 8 4) = false →
            let img := src.2.source (fieldAt l 0 8) (fieldAt l 8 4)
            (img.1 = none → refused img.2 l 0x74) ∧
            ∀ im, img.1 = some im → let c := img.2.cofCheck im k (fieldAt l 16 2) (fieldAt l 18 2)
              (c ≠ 0x30 → refused img.2 l c) ∧
              (c = 0x30 → ∃ u q, exec (.cofsub b) s = .next u ∧
                u.cof.queue = s.cof.queue ++ [q] ∧ u.cof.run = s.cof.run ∧ q.tag = e.tag ∧ q.ksid = k.val ∧
                q.words = (imageWords im (fieldAt im 16 4)).map cleanWord ∧
                q.first = fieldAt l 16 2 ∧ q.count = fieldAt l 18 2)))) ∧
    (s.cof.recheck = [] → exec .keyDigestRecheck s = .next s) ∧
    (∀ l, s.cof.recheck = k.val :: l → ∃ t, exec .keyDigestRecheck s = .next t ∧ t.cof = { s.cof with recheck := l } ∧
      RegsOnly [F.COF_KS_SUSPECT.off] { s with cof := t.cof } t ∧
      (key.loaded = true → s.badKeyWord k.val ≠ none → bit t F.COF_KS_SUSPECT = 1)) ∧
    (let a := 408 * slot.val
     let old := readWord (mget zeroWord s.cof.sram a)
     let laps (first count : Nat) : Prop := 3264 * slot.val < (first + count) * 3264 ∧ first * 3264 < 3264 * slot.val + 8
     let held : Prop := (∃ r, s.cof.run = some r ∧ laps r.sub.first r.sub.count) ∨
       ∃ e ∈ s.cof.ended, laps e.2.2.1 e.2.2.2 ∧ ∃ c ∈ (s.ring (bankOf e.1)).held, c.opc = 11 ∧ c.tag = e.2.1
     (held → ∃ t, exec (.slotHeaderWrite slot h) s = .next t ∧
       RegsOnly [F.COF_STICKY_SLOT_LOCKED.off, F.COF_LOCKED.off, F.HOST_ICAUSE.off] s t ∧
       t.getF ⟨F.HOST_ICAUSE.off, 21, 1⟩ = 1 ∧ t.getF F.COF_STICKY_SLOT_LOCKED = 1 ∧ t.getF F.COF_LOCKED = satAdd 32 (s.getF F.COF_LOCKED) 1) ∧
     (¬ held → ∃ t x, exec (.slotHeaderWrite slot h) s = .next t ∧
       t = { s with cof := { s.cof with sram := t.cof.sram }, regs := t.regs, flt := t.flt } ∧
       (old.1 ≠ .corrected → t.regs = s.regs) ∧ (old.1 ≠ .bad → t.flt = s.flt) ∧
       (old.1 = .corrected → RegsOnly [F.COF_CE.off] { s with cof := t.cof } t ∧
         t.getF F.COF_CE = satAdd 32 (s.getF F.COF_CE) 1) ∧
       (old.1 = .bad → ∃ q, t.flt = { s.flt with fore := s.flt.fore ++ [q] } ∧ q.cls = 0x44 ∧ q.unit = 7) ∧
       (∀ w, mget zeroWord t.cof.sram w = if w = a then cleanWord x else mget zeroWord s.cof.sram w) ∧
       x.setWidth 10 = h.setWidth 10 ∧ x.extractLsb' 10 22 = 1#22 ∧
       x.extractLsb' 32 32 = old.2.1.extractLsb' 32 32 + 1#32))

/-! ### Faults and field tests -/

/-- The fault manager and kill notices (R470, R473, R478–R480, R58): it writes the next record to the AON ring and, when enabled,
the DRAM ring, which loses it when full; a POISON_COMMIT record waits for the end of its cycle; a record with KILL kills its job;
records lost across the bridge are told of once; a kill notice gives its gate the job's poison point. -/
def Obligations.FaultRecordsAreKept : Prop :=
  ∀ (aft : Bool) (g : Fin 6) (s : State), Memory.Wf s →
    let go := exec (.faultRecord aft) s
    let from_ : List FRec := if aft then s.flt.aft else s.flt.fore
    let head := s.getF F.FLT_STATUS_AON_HEAD
    let aon (t : State) (i : Nat) : Nat := (t.getReg (F.FLT_AON (8 * head + i)).off).toNat
    let ring := s.getF F.FLT_RING_HEAD
    (aft = true → s.brgUp = false → go = .next s) ∧
    (from_ = [] → (aft = true → s.flt.aftLost = 0) → go = .next s) ∧
    (aft = true → s.brgUp = true → 0 < s.flt.aftLost → s.flt.aft = [] → ∃ q, q.cls = 0x55 ∧ q.opc = s.flt.aftLost ∧
      go = .next { s with flt := { s.flt with aftLost := 0, fore := s.flt.fore ++ [q] } }) ∧
    (∀ r l, from_ = r :: l → s.foundNow r = true → (aft = true → s.flt.aftLost = 0) → go = .next s) ∧
    (∀ r l, from_ = r :: l → s.foundNow r = false → (aft = true → s.brgUp = true ∧ s.flt.aftLost = 0) → s.flt.lostPending = 0 →
      ∃ t, go = .next t ∧
      (aft = false → l <+: t.flt.fore ∧ t.flt.seq = (s.flt.seq + 1) % 256) ∧ (aft = true → l <+: t.flt.aft) ∧
      t.getF F.FLT_STATUS_AON_HEAD = (head + 1) % 64 ∧
      (head < 64 → aon t 0 = r.dtime % 2 ^ 32 ∧ aon t 1 = r.dtime / 2 ^ 32 % 2 ^ 32 ∧
        aon t 2 = r.unit % 256 + r.cls % 256 * 256 + r.job % 4096 * 65536 + (if r.poison then 2 ^ 28 else 0) +
          (if r.kill then 2 ^ 29 else 0) + (if r.isM then 2 ^ 30 else 0) ∧ aon t 3 = r.opc % 2 ^ 32 ∧
        aon t 4 = r.addr % 2 ^ 32) ∧
      (s.getF F.FLT_RING_CFG_ENABLE = 1 →
        (s.ringFull = false → t.getF F.FLT_RING_HEAD = (ring + 1) % s.ringSize % 2 ^ 16 ∧ t.getF ⟨F.HOST_ICAUSE.off, 2, 1⟩ = 1) ∧
        (s.ringFull = true → t.getF F.FLT_RING_HEAD = ring ∧ t.getF F.FLT_LOST = satAdd 32 (s.getF F.FLT_LOST) 1)) ∧
      (∀ j, r.kill = true → r.job ≠ 0 → s.job r.job = some j → ∃ j', t.job r.job = some j' ∧ j'.state = .dead)) ∧
    ((∀ n ∈ s.flt.notices, n.2 ≠ g.val) → exec (.killNotice g) s = .next s) ∧
    (∀ n, s.flt.notices.find? (fun n => n.2 == g.val) = some n → ∃ t, exec (.killNotice g) s = .next t ∧
      t = { s with flt := { s.flt with notices := s.flt.notices.erase n }, jobs := t.jobs } ∧
      (∀ id, id ≠ n.1 → t.job id = s.job id) ∧ ∀ j, s.job n.1 = some j → ∃ j', t.job n.1 = some j' ∧
        j' = { j with points := j'.points } ∧
        j'.points = (if j.points.any (fun p => p.1 == g.val) then j.points else j.points ++ [(g.val, s.time.now)]))

/-- Field tests (R487, R489–R493, R496): a request is queued with the work of the cores it names, or refused; the periodic one
falls due; a slot opens on the core whose turn it is with the pattern in the test context; it closes when the pattern has halted,
or after 300 µs, the saved memory restored; an urgent request not served borrows its core (in a paired job the pair) or waits as
ROUTINE. The completion of a request gives the wait that State.testWait predicts, whose turn order is the model's choice (log
entry 128). -/
def Obligations.FieldTestsRun : Prop :=
  ∀ (b : Fin 2) (k : Fin 8) (cycles : Nat) (s : State), Memory.Wf s →
    let next (e : InFlight) : Prop := s.served = true ∧ (s.ring b).inflight.find? (fun e => !e.begun) = some e ∧
      e.opc = 0x0C ∧ e.bad = none
    let queued (t : State) (todo : List (Nat × Nat × Nat)) (u : Bool) : Prop :=
      t.flt.tests = if todo = [] then s.flt.tests else s.flt.tests ++ [⟨todo, u, s.time.now, false⟩]
    let per := s.getF F.FLT_TCFG_PERIOD * 1000000000
    let due (r : TestReq) : Bool := r.urgent && !r.deferred && decide (r.at_ + s.getF F.FLT_TCFG2_URGENT_MS * 1000000 ≤ s.time.now)
    let closed (t : State) (x : TestSlot) : Prop := t.slotOn k = none ∧ t.ctx k 2 = Ctx.reset ∧
      (∀ a v, x.savedImem = [(a, v)] → mget (dflt 0#64) (t.core k).imem a = v) ∧
      (∀ a v, x.savedSmem = [(a, v)] → mget (dflt 0#8) (t.core k).smem a = v)
    ((∀ e, ¬ next e) → exec (.testreq b) s = .next s) ∧
    (∀ e, next e →
      let npat := ((s.packs[e.par 9 1]?).map (fun o => o.npat)).getD 0
      let todo := s.testWork (e.par 8 1) (some (e.par 9 1)) (if e.par 10 1 = 0xFF then none else some (e.par 10 1))
      let good : Prop := e.unusedZero [(8, 11)] = true ∧ e.par 11 1 ≤ 1 ∧ e.par 9 1 < s.packs.length ∧
        (e.par 10 1 = 0xFF ∨ e.par 10 1 < npat)
      (¬ good → exec (.testreq b) s = .next (s.finish b e 0x71 [])) ∧
      (good → exec (.testreq b) s =
          .next ((s.queueTest todo (e.par 11 1 == 1)).finish b e 0 (leBytes 4 (s.testWait (e.par 8 1)))) ∧
        queued (s.queueTest todo (e.par 11 1 == 1)) todo (e.par 11 1 == 1))) ∧
    (per ≠ 0 → s.flt.lastPeriodic + per ≤ s.time.now → ∃ t, exec .testPeriod s = .next t ∧ t = { s with flt := t.flt } ∧
      t.flt.lastPeriodic = s.time.now ∧ queued t (s.testWork 0xFF none none) false) ∧
    ((per = 0 ∨ s.time.now < s.flt.lastPeriodic + per) → exec .testPeriod s = .next s) ∧
    (s.testFor k.val = none → exec (.testSlotOpen k) s = .next s) ∧
    (∀ pack pat a, s.testFor k.val = some (pack, pat, a) →
      (s.pstate k = 2 → (s.isl k).wakeWhy = none → ∃ t, exec (.testSlotOpen k) s = .next t ∧ (t.isl k).wakeWhy = some 4) ∧
      (∀ o, s.pstate k ≠ 2 → s.packs[pack]? = some o →
        let first := (rotation s.flt.rotor).find? (fun c => (s.testFor c.val).isSome && s.slotOpens c)
        (first ≠ some k → exec (.testSlotOpen k) s = .next s) ∧
        (first = some k → ∃ t x, exec (.testSlotOpen k) s = .next t ∧ t.flt.slots = s.flt.slots ++ [x] ∧ x.core = k.val ∧
          x.pack = pack ∧ x.pat = pat ∧ x.start = s.time.now ∧ t.flt.rotor = (k.val + 1) % 8 ∧
          (t.ctx k 2).pc = fieldAt (o.pattern pat) 4 2 ∧ (t.ctx k 2).running = true ∧ (t.ctx k 2).halted = false ∧
          t.getF F.FLT_TSTAT_BUSY = 1 ∧ ∀ y, y ≠ 2 → t.ctx k y = s.ctx k y))) ∧
    (s.slotOn k = none → exec (.testSlotDone k cycles) s = .next s ∧ exec (.testSlotTimeout k) s = .next s) ∧
    (∀ x, s.slotOn k = some x →
      ((s.ctx k 2).running = true → (s.ctx k 2).halted = false → exec (.testSlotDone k cycles) s = .next s) ∧
      ((s.ctx k 2).halted = true → ∃ t, exec (.testSlotDone k cycles) s = .next t ∧ closed t x ∧
        t.getF ⟨F.HOST_ICAUSE.off, 27, 1⟩ = 1 ∧ ∃ p r l, t.flt.results = (x.pack, x.pat, p, r) :: l ∧ r.testBit k.val = true ∧
          (((s.ctx k 2).ended = false ∨ (s.ctx k 2).ecause.toNat % 256 ≠ 0 ∨ fieldAt x.entry 24 4 < cycles) →
            p.testBit k.val = false)) ∧
      (s.time.now < x.start + 300000 → exec (.testSlotTimeout k) s = .next s) ∧
      (x.start + 300000 ≤ s.time.now → ∃ t, exec (.testSlotTimeout k) s = .next t ∧ closed t x ∧
        (s.brgUp = true → ∃ q ∈ t.flt.aft, q.cls = 0x59 ∧ q.opc = x.pat))) ∧
    ((s.flt.tests.find? due = none ∨ s.flt.borrow.isSome = true) → exec .urgentBorrow s = .next s) ∧
    (∀ r w l, s.flt.tests.find? due = some r → r.todo = w :: l → s.flt.borrow = none →
      let own (j : Job) : Nat := if j.paired = true ∧ w.1 % 2 = 1 then w.1 - 1 else w.1
      let on := s.jobs.filter (fun j => decide (0 < j.tile (own j)) && j.state == .running)
      let lent : Prop := on ≠ [] ∧ ∀ j ∈ on, j.tilesNext = none ∧ s.lends j (own j) = true
      (lent → ∃ t, exec .urgentBorrow s = .next t ∧ t.flt.borrow = some (w.1, s.time.now) ∧ t.flt.tests = s.flt.tests) ∧
      (¬ lent → ∃ t, exec .urgentBorrow s = .next t ∧ t.getF F.FLT_TSTAT_URG_DEFER = 1 ∧ t.jobs = s.jobs ∧
        t.flt = { s.flt with tests := s.flt.tests.map (fun q => if q = r then { q with deferred := true } else q) }))

/-! ### Shaelo link -/

/-- Ports (R501–R505, R507, R521, R523, R524): training ends, at the earliest after the time of its steps and at the latest after
5 ms, with the port up, its lanes, loss and the partner's words shown and this part's words sent, or sets FAIL, the loss shown all the
same; the firmware
retrains 1 ms after a failure; eight NAKs, 10 µs without a link flit and the loss of lock take it down; a partner not back
within HOLD is lost: its bindings and windows close, the RXFERs to it end and the jobs bound to it die. What becomes of messages
still queued for it is the model's choice (log entry 118). -/
def Obligations.LinkPortsTrainAndFall : Prop :=
  ∀ (p : Fin 2) (good : BitVec 4) (rev : Bool) (loss cap0 cap1 : BitVec 32) (s : State), mwf resetWord s.regs = true →
    let x := s.port p
    let n := ((upFrom 0 4).filter (fun i => good.getLsbD i)).length
    let late : Prop := x.trainAt + 5000000 < s.time.now
    let soon : Prop := s.time.now < x.trainAt + 1669200
    let done := exec (.lnkTrainingDone p good rev loss cap0 cap1) s
    let only (t : State) : Prop := t = { s with regs := t.regs, lnk := t.lnk } ∧ ∀ q, q ≠ p → t.port q = s.port q
    let begun (t : State) : Prop := t.portUp p = false ∧ (t.port p).training = true ∧
      (t.port p).trainAt = s.time.now
    let falls (i : Instr) (c : Prop) : Prop := (s.portUp p = true → c → ∃ t, exec i s = .next t ∧ only t ∧ begun t ∧
        (t.port p).isDown = true ∧ (t.port p).downAt = s.time.now ∧ (t.port p).retrains = 0 ∧
        t.getF (F.LNK_STAT_DOWNS p) = satAdd 8 (s.getF (F.LNK_STAT_DOWNS p)) 1) ∧
      ((s.portUp p = false ∨ ¬ c) → exec i s = .next s)
    let fails (t : State) : Prop := t.getF (F.LNK_STAT_FAIL p) = 1 ∧ t.port p = { x with training := false, failAt := s.time.now }
    let warns (t : State) : Prop := t.getReg (F.LNK_LOSS p).off = loss ∧
      ((∃ i, i < 4 ∧ 104 < bitsOf loss.toNat (8 * i) 8) → t.getF (F.LNK_STAT_LOSS_WARN p) = 1)
    falls (.linkNakLimit p) (8 ≤ x.naks ∨ 8 ≤ x.nakIn) ∧ falls (.linkFlitTimeout p) (x.lastFlit + 10000 ≤ s.time.now) ∧
    falls (.linkLockLoss p) True ∧
    ((x.training = false ∨ n < 2 ∨ soon ∨ late) → done = .next s) ∧
    (x.training = true → 2 ≤ n → ¬ soon → ¬ late → ∃ t, done = .next t ∧ warns t ∧
      t.getReg (F.LNK_CAP0 p).off = cap0 ∧ t.getReg (F.LNK_CAP1 p).off = cap1 ∧
      t.getF (F.LNK_STAT_PEER p) = cap1.toNat % 8 ∧ t.getF (F.LNK_STAT_REVERSED p) = (if rev then 1 else 0) ∧
      (∃ w v, Wire.caps p.val w v ∈ t.wire ∧ w % 2 ^ 16 = 0x0880 ∧ w / 2 ^ 28 = 1 ∧ v % 8 = s.getF F.LNK_CFG_CHIP) ∧
      (cap0.toNat / 2 ^ 28 = 1 → cap0.toNat % 2 ^ 16 = 0x0880 → t.portUp p = true ∧ t.getF (F.LNK_STAT_FAIL p) = 0 ∧
        t.getF (F.LNK_STAT_WIDTH p) = (if n = 4 then 0 else 1) ∧
        t.getF (F.LNK_STAT_DUP_CHIP p) = (if cap1.toNat % 8 = s.getF F.LNK_CFG_CHIP then 1 else 0) ∧
        (s.getF F.LNK_CFG_TMASTER = 1 → cap1.getLsbD 3 = true → t.getF F.LNK_TIME_TIME_CONFLICT = 1) ∧
        (let y := t.port p
         y.training = false ∧ y.isDown = false ∧ y.seq = x.unacked.length ∧ y.resend = y.replay ∧ y.expect = 0 ∧ y.acked = 4095 ∧
         y.retrains = 0 ∧ y.queue = x.queue ∧ y.credits = [[0, 0, 0, 0, 0, 0], [0, 0, 0, 0, 0, 0]] ∧
         (∀ c, c < 6 → nth 0 y.credOut c =
           nth 0 [512, 64, 512, 16, 16, 32] c - ((nth [] x.rx c).length + (nth [] x.rx (8 + c)).length)))) ∧
      (¬ (cap0.toNat / 2 ^ 28 = 1 ∧ cap0.toNat % 2 ^ 16 = 0x0880) → fails t)) ∧
    (let few : Prop := n < 2 ∧ x.trainAt + 1649200 ≤ s.time.now
     (x.training = true → (few ∨ late) → ∃ t, exec (.lnkTrainingFail p ⟨good, loss⟩) s = .next t ∧
       only { t with wire := s.wire } ∧ fails t ∧ warns t) ∧
     ((x.training = false ∨ (¬ few ∧ ¬ late)) → exec (.lnkTrainingFail p ⟨good, loss⟩) s = .next s)) ∧
    (s.portUp p = false → s.getF (F.LNK_STAT_FAIL p) = 1 → x.training = false → x.failAt + 1000000 ≤ s.time.now →
      (x.retrains < s.getF (F.LNK_CTRL_RETRY_MAX p) → ∃ t, exec (.linkRetrainTimer p) s = .next t ∧ only t ∧ begun t ∧
        (t.port p).retrains = x.retrains + 1) ∧
      (s.getF (F.LNK_CTRL_RETRY_MAX p) ≤ x.retrains → exec (.linkRetrainTimer p) s = .next s)) ∧
    ((x.isDown = false ∨ s.portUp p = true ∨ s.time.now < x.downAt + s.getF (F.LNK_CTRL_HOLD p) * 1000000) →
      exec (.partnerLost p) s = .next s) ∧
    (x.isDown = true → s.portUp p = false → x.downAt + s.getF (F.LNK_CTRL_HOLD p) * 1000000 ≤ s.time.now →
      ∃ t, exec (.partnerLost p) s = .next t ∧ t.getF (F.LNK_STAT_LOST p) = 1 ∧ (t.port p).isDown = false ∧
        (t.port p).queue = [] ∧ (t.port p).slots = [] ∧ (t.port p).resend = [] ∧ t.getF ⟨F.HOST_ICAUSE.off, 22, 1⟩ = 1 ∧
        (∀ w ∈ t.lnk.waits, s.routeTo w.chip ≠ some p) ∧
        (∀ i : Fin 32, (vget s.lnk.ob i).open_ = true → s.routeTo (vget s.lnk.ob i).chip = some p →
          (vget t.lnk.ob i).open_ = false ∧ ∀ j, s.job (vget s.lnk.ob i).job = some j →
            ∃ j', t.job (vget s.lnk.ob i).job = some j' ∧ j'.state = .dead) ∧
        (∀ (i : Fin 32) (c : Nat), c < 8 → bitsOf (vget s.lnk.iw i).srcMask c 1 = 1 → s.routeTo c = some p →
          (vget t.lnk.iw i).st = .closed) ∧
        (s.getF F.LNK_TIME_LOCKED = 1 → s.getF F.LNK_TIME_PATH = p.val → t.getF F.LNK_TIME_LOCKED = 0 ∧ t.time.slew = 0 ∧
          ∀ g : Fin 4, s.forceF (F.FSG_CTRL_MODE g.val) = 2 → (t.gen g).linkEdges = []))

/-- What an up port carries (R497, R500–R502, R504, R508, R518–R522): groups, resent ones first, whose link flit acknowledges and
returns credits; a group with a bad CRC is answered by a NAK, one out of sequence is dropped but for its acknowledgement and NAK, and a good
one acknowledges, returns credits and gives its flits to the buffers of their classes; a port with a partner of this chip's number
takes no time message; a time exchange shows delay and offset and, toward the master, slews
or steps DTIME and locks after 16 good exchanges; an edge time reaches an enabled generator of mode 2; a remote register access is
answered, and the partner's words are shown. The opcodes and the layout of INLINE are the model's (log entry 51), and so is the
wait of an access to the Fore half while the bridge is down (log entry 92). -/
def Obligations.LinkPortsCarry : Prop :=
  ∀ (p v : Fin 2) (g : FlitGroup) (a b c d : BitVec 64) (par : List Nat) (e : WriteEnv) (s : State), mwf resetWord s.regs = true →
    let x := s.port p
    let n := g.link.toNat
    let only (t : State) : Prop := t = { s with regs := t.regs, lnk := t.lnk } ∧ ∀ q, q ≠ p → t.port q = s.port q
    let good : Prop := lnkCrc g = bitsOf n 76 32 ∧ g.flits.length ≤ 127
    let due : Prop := good ∧ bitsOf n 3 12 = x.expect
    let asked (t : State) (y : LinkPort) : Prop :=
      (bitsOf n 27 1 = 1 → y.resend = y.unacked ∧ y.nakIn = (if bitsOf n 15 12 = x.acked then x.nakIn + 1 else 1) ∧
        t.getF (F.LNK_RETRY p) = satAdd 32 (s.getF (F.LNK_RETRY p)) y.resend.length) ∧
      (bitsOf n 27 1 = 0 → y.resend = x.resend ∧ y.nakIn = 0)
    let ack := (x.expect + 4095) % 4096
    let sent (t : State) (q : Nat) (h : FlitGroup) : Prop := only { t with wire := s.wire } ∧ t.wire = .link p.val q h :: s.wire
    let again (h : FlitGroup) : Bool := x.nakOut || (decide (0 < x.naks) && h.link.getLsbD 27)
    let cred (h : FlitGroup) : List Nat := (upFrom 0 6).map (fun i => bitsOf h.link.toNat (28 + 8 * i) 8)
    let i (w : BitVec 64) : Int := w.toNat
    let delay : Int := ((i d - i a) - (i c - i b)).tdiv 2
    let off : Int := ((i b - i a) + (i c - i d)).tdiv 2
    let exchange := exec (.linkTimeExchange p a b c d) s
    let now : Int := s.time.now
    let clean (m : LinkMsg) : Prop := m.cls < 6 ∧ m.len ≤ 16 ∧ m.resv = 0 ∧ m.dstc = s.getF F.LNK_CFG_CHIP
    let edge (f : Fin 4) := exec (.syncEdgeTime p v f) s
    let access := exec (.remoteRegisterAccess ⟨p, v, par⟩ e) s
    (s.portUp p = false → exec (.linkMessageSend p) s = .next s ∧ exec (.linkGroupReceive p g) s = .next s ∧ exchange = .next s) ∧
    (s.portUp p = true →
      (s.getF (F.LNK_STAT_DUP_CHIP p) = 0 →
        (∀ q h l, x.resend = (q, h) :: l → ∃ t, exec (.linkMessageSend p) s = .next t ∧
          sent t q { h with link := lnkLinkFlit h.flits q ack (again h) (cred h) } ∧
          t.port p = { x with resend := l, nakOut := false, queue := (t.port p).queue } ∧
          (x.seq % 128 = 0 → ∃ m ∈ (t.port p).queue, m.cls = 3 ∧ m.opc = 0 ∧ m.inl = s.time.now % 2 ^ 64)) ∧
        (x.resend = [] → ∃ t h, exec (.linkMessageSend p) s = .next t ∧ sent t x.seq h ∧ h.flits.length ≤ 127 ∧
          h.link = lnkLinkFlit h.flits x.seq ack x.nakOut (x.credOut.map (min 255)) ∧ (t.port p).seq = (x.seq + 1) % 4096 ∧
          (t.port p).replay.length ≤ 8 ∧ (t.port p).replay.getLast? = some (x.seq, h) ∧ (t.port p).nakOut = false ∧
          (t.port p).credOut = x.credOut.map (· - 255))) ∧
      (s.getF (F.LNK_STAT_DUP_CHIP p) = 1 → ∃ t, exec (.linkMessageSend p) s = .next t ∧
        ∀ m ∈ x.queue, m.cls ≠ 5 → ∃ m' ∈ (t.port p).queue, m' = { m with vc := m'.vc }) ∧
      (¬ good → ∃ t, exec (.linkGroupReceive p g) s = .next t ∧ only t ∧
        t.port p = { x with lastFlit := s.time.now, naks := x.naks + 1, nakOut := true }) ∧
      (good → bitsOf n 3 12 ≠ x.expect → ∃ t y, exec (.linkGroupReceive p g) s = .next t ∧ only t ∧ t.port p = y ∧
        y = { x with lastFlit := s.time.now, acked := bitsOf n 15 12, nakIn := y.nakIn, resend := y.resend } ∧ asked t y) ∧
      (due → ∃ t y, exec (.linkGroupReceive p g) s = .next t ∧ only t ∧ t.port p = y ∧
        y = { g.flits.foldl LinkPort.feed { x with lastFlit := s.time.now } with
              expect := (x.expect + 1) % 4096, naks := 0, acked := bitsOf n 15 12, nakIn := y.nakIn, credits := y.credits,
              resend := y.resend } ∧
        asked t y ∧
        (∀ l m : List Nat, x.credits = [l, m] → l.length = 6 → m.length = 6 → ∀ q, q < 6 →
          let k := bitsOf n (28 + 8 * q) 8
          let full := nth 0 [256, 32, 256, 8, 8, 16] q
          x.credit 0 q ≤ full → y.credit 0 q = min full (x.credit 0 q + k) ∧
            y.credit 1 q = min full (x.credit 1 q + (x.credit 0 q + k - full)))) ∧
      (s.getF (F.LNK_STAT_DUP_CHIP p) = 1 → exchange = .next s) ∧
      (s.getF (F.LNK_STAT_DUP_CHIP p) = 0 → ∃ t, exchange = .next t ∧ t.getF F.LNK_TDELAY_DELAY = unsigned 16 (max 0 (min 65535 delay)) ∧
        (s.towardMaster p = false → only t ∧ ∀ o, o ≠ F.LNK_TDELAY_DELAY.off → t.getReg o = s.getReg o) ∧
        (s.towardMaster p = true → t.getF F.LNK_TIME_OFFSET = unsigned 16 (max (-32768) (min 32767 off)) ∧
          t.getF F.LNK_TIME_PATH = p.val ∧ (t.port p).locks = x.locks + 1 ∧
          (off.natAbs ≤ 4 → (t.port p).good = x.good + 1 ∧ (15 ≤ x.good → t.getF F.LNK_TIME_LOCKED = 1)) ∧
          (8 < off.natAbs → (t.port p).bad = x.bad + 1 ∧ (t.port p).good = 0 ∧ (3 ≤ x.bad → t.getF F.LNK_TIME_LOCKED = 0)) ∧
          (x.locks = 0 → s.dev = devReady → off ≠ 0 → t.time.now = unsigned 64 (now + off) ∧ t.getF F.TIME_STATUS_STEPPING = 1) ∧
          (¬ (x.locks = 0 ∧ s.dev = devReady ∧ off ≠ 0) →
            (64 < off → t.time = { s.time with now := unsigned 64 (now + off), slew := 0, aftSlew := 0, syncing := false } ∧ t.getF F.BRG_STATUS_TSYNC = 0) ∧
            (off ≤ 64 → t.time = { s.time with slew := off })))) ) ∧
    (∀ (r : Nat) (h : BitVec 256) (l : List (BitVec 256)), nth [] x.rx r = h :: l →
      let k := bitsOf h.toNat 36 5
      let q := bitsOf h.toNat 0 3
      (l.length < k → s.takeMsg p r = none) ∧
      (k ≤ l.length → s.takeMsg p r = some (lnkOfHeader h (l.take k), s.setPort p { x with
        rx := setNth x.rx r (l.drop k), credOut := setNth x.credOut q (nth 0 x.credOut q + 1 + k) }))) ∧
    (s.takeMsg p (8 * v.val + 3) = none → ∀ f, edge f = .next s) ∧
    (∀ m u, s.takeMsg p (8 * v.val + 3) = some (m, u) →
      let f : Fin 4 := ⟨m.win % 4, Nat.mod_lt _ (by decide)⟩
      let told : State := { u with lnk := { u.lnk with master := some m.srcc } }
      let takes : Prop := s.portUp p = true ∧ told.towardMaster p = true ∧ s.getF F.LNK_TIME_TIME_CONFLICT = 0 ∧
        s.getF (F.FSG_CTRL_ENABLE f) = 1 ∧ s.forceF (F.FSG_CTRL_MODE f) = 2
      (∀ i, (¬ clean m ∨ m.opc ≠ 1 ∨ i ≠ f) → edge i = .next s) ∧
      (clean m → m.opc = 1 → s.getF (F.LNK_STAT_DUP_CHIP p) = 1 → edge f = .next u) ∧
      (clean m → m.opc = 1 → s.getF (F.LNK_STAT_DUP_CHIP p) = 0 → takes → edge f = .next (told.setGen f { s.gen f with
        linkEdges := (s.gen f).linkEdges.filter (· != m.inl % 2 ^ 64) ++ [m.inl % 2 ^ 64], holdover := 0 })) ∧
      (clean m → m.opc = 1 → s.getF (F.LNK_STAT_DUP_CHIP p) = 0 → ¬ takes → edge f = .next told)) ∧
    (s.takeMsg p (8 * v.val + 5) = none → access = .next s) ∧
    (∀ m u, s.takeMsg p (8 * v.val + 5) = some (m, u) →
      let at_ := bitsOf m.inl 0 21 / 4 * 4
      let replies (t : State) (w : Nat) : State :=
        (t.linkSend { mkLink 2 0 m.tag m.dstc m.srcc with inl := w * 2 ^ 32 + at_ }).getD t
      let granted : Prop := s.getF F.LNK_CFG_REMOTE_EN = 1 ∧ ∃ q, q < 2 ∧ s.getF (F.LNK_RGRANT_FIRST q) ≤ at_ ∧
        at_ ≤ s.getF (F.LNK_RGRANT_LAST q)
      let near : Prop := aftBlock at_ = true ∨ s.brgUp = true
      let read := u.ctlRead .link at_
      (¬ clean m → access = .next s) ∧
      (clean m → m.opc = 2 → ∃ t, access = .next t ∧
        RegsOnly [(F.LNK_CAP0 p).off, (F.LNK_CAP1 p).off, F.LNK_TIME_TIME_CONFLICT.off] u t ∧
        t.getF (F.LNK_CAP0 p) = bitsOf m.inl 0 32 ∧ t.getF (F.LNK_CAP1 p) = bitsOf m.inl 32 32 ∧
        (s.portUp p = true → s.getF F.LNK_CFG_TMASTER = 1 → bitsOf m.inl 35 1 = 1 → t.getF F.LNK_TIME_TIME_CONFLICT = 1)) ∧
      (clean m → m.opc ≠ 2 → ¬ granted → ∃ t, access = .next (replies t 0) ∧ t = { u with flt := t.flt } ∧
        (s.brgUp = true → ∃ q, t.flt.aft = s.flt.aft ++ [q] ∧ q.cls = 0x04 ∧ q.addr = at_)) ∧
      (clean m → m.opc ≠ 2 → granted → ¬ near → access = .next s) ∧
      (clean m → m.opc = 1 → granted → near →
        access = .next (replies (u.ctlWrite e .link at_ (BitVec.ofNat 32 (bitsOf m.inl 32 32))) 0)) ∧
      (clean m → m.opc ≠ 1 → m.opc ≠ 2 → granted → near → access = .next (replies read.2 read.1.toNat)))

/-- Windows (R192, R507, R510–R517): a window opens and closes by command, at once or when its transfers have drained; a message
for another chip is forwarded, on VC 1 past the dateline, one with reserved values is counted in BRG_ERRCNT, one for this chip
moves its row or is denied, waits while its core sleeps or its rows are held, and is discarded when a close has ended its
transfer; completions end the transfers that wait, a word that fails parity on its way into the row being poisoned; a close notice
closes bindings; 50 µs after a close the window is closed and the rows that have not come are poisoned. That a write held beyond 5
ms lands nowhere is the model's choice (log entry 105), and so are the opcodes (log entry 51) and the wait for a sleeping core
(log entry 92). -/
def Obligations.WindowsServe : Prop :=
  ∀ (b p v : Fin 2) (c : Fin 16) (n : Fin 32) (rest par : List Nat) (s : State), Memory.Wf s →
    let cmd (op : Nat) (e : InFlight) : Prop := s.served = true ∧ (s.ring b).inflight.find? (fun e => !e.begun) = some e ∧
      e.opc = 8 ∧ e.bad = none ∧ e.par 8 1 = op
    let ends (i : Instr) (e : InFlight) (c : Nat) (l : List Byte) : Prop := exec i s = .next (s.finish b e c l)
    let inOk (e : InFlight) : Prop := e.unusedZero [(8, 8), (16, 47)] = true
    let outOk (e : InFlight) : Prop := e.unusedZero [(8, 8), (16, 21)] = true
    let shut : Prop := s.getF (F.LNK_STAT_DUP_CHIP p) = 1
    let w := vget s.lnk.iw n
    let k := coreOf w.core
    let clean (m : LinkMsg) : Prop := m.cls < 6 ∧ m.len ≤ 16 ∧ m.resv = 0
    let mine (m : LinkMsg) : Prop := m.dstc = s.getF F.LNK_CFG_CHIP
    let open_ (q : Fin 2) (m : LinkMsg) : Prop := s.getF (F.LNK_STAT_DUP_CHIP q) = 0 ∨ m.cls = 5
    let msg := exec (.windowMessage ⟨p, c⟩ rest) s
    let ack := exec (.rxferAck ⟨p, v, par⟩) s
    let notice := exec (.closeNotice ⟨p, v, par⟩) s
    ((∀ e, ¬ cmd 0 e) → exec (.windowOpenInbound b) s = .next s) ∧ ((∀ e, ¬ cmd 1 e) → exec (.windowCloseInbound b) s = .next s) ∧
    ((∀ e, ¬ cmd 2 e) → exec (.windowOpenOutbound b) s = .next s) ∧ ((∀ e, ¬ cmd 3 e) → exec (.windowCloseOutbound b) s = .next s) ∧
    (∀ e, (cmd 0 e → ¬ inOk e → ends (.windowOpenInbound b) e 0x71 []) ∧ (cmd 1 e → ¬ inOk e → ends (.windowCloseInbound b) e 0x71 []) ∧
      (cmd 2 e → ¬ outOk e → ends (.windowOpenOutbound b) e 0x71 []) ∧
      (cmd 3 e → ¬ outOk e → ends (.windowCloseOutbound b) e 0x71 [])) ∧
    (∀ e, cmd 0 e → inOk e → (s.winOpenCode e ≠ 0x50 → ends (.windowOpenInbound b) e (s.winOpenCode e) []) ∧
      (s.winOpenCode e = 0x50 → e.par 16 1 = n.val → ∃ t, exec (.windowOpenInbound b) s = .next t ∧ vget t.lnk.iw n =
        ⟨.open_, e.par 17 1, e.par 18 1, e.par 20 4, e.par 24 4, e.par 28 1, e.par 30 2, e.par 32 2, 0#32, 0, [], w.dead, none⟩)) ∧
    (∀ e, cmd 1 e → inOk e → (31 < e.par 16 1 → ends (.windowCloseInbound b) e 0x51 []) ∧ (e.par 16 1 = n.val →
      (w.st = .closed → ends (.windowCloseInbound b) e 0x50 (leBytes 1 n.val)) ∧
      (w.st = .closing → w.closer.isSome = true → ends (.windowCloseInbound b) e 0x53 []) ∧
      (w.st = .closing → w.closer = none → ∃ t, exec (.windowCloseInbound b) s = .next t ∧
        vget t.lnk.iw n = { w with closer := some (b.val, e.tag) }) ∧
      (w.st = .open_ → ∃ t, exec (.windowCloseInbound b) s = .next t ∧ (w.xfers = [] → (vget t.lnk.iw n).st = .closed) ∧
        (w.xfers ≠ [] → vget t.lnk.iw n = { w with st := .closing, closeAt := s.time.now, closer := some (b.val, e.tag) })))) ∧
    (∀ e, cmd 2 e → outOk e →
      let c := e.par 16 1
      let bad : Prop := 7 < c ∨ 31 < e.par 17 1 ∨ c = s.getF F.LNK_CFG_CHIP
      let claimed : Prop := ∃ j, s.job (e.par 20 2) = some j ∧ (c, e.par 17 1, 1) ∈ j.windows
      let up : Prop := ∃ q, s.routeTo c = some q ∧ s.portUp q = true ∧ s.getF (F.LNK_STAT_DUP_CHIP q) = 0
      (bad → ends (.windowOpenOutbound b) e 0x51 []) ∧ (¬ bad → ¬ claimed → ends (.windowOpenOutbound b) e 0x54 []) ∧
      (¬ bad → claimed → ¬ up → ends (.windowOpenOutbound b) e 0x55 []) ∧
      (¬ bad → claimed → up → (∀ i : Fin 32, i < n → (vget s.lnk.ob i).open_ = true) → (vget s.lnk.ob n).open_ = false →
        ∃ t, exec (.windowOpenOutbound b) s = .next t ∧
          vget t.lnk.ob n = ⟨true, c, e.par 17 1, e.par 18 2, e.par 20 2⟩)) ∧
    (∀ e, cmd 3 e → outOk e →
      let o : OutBind := ⟨true, e.par 16 1, e.par 17 1, e.par 18 2, e.par 20 2⟩
      ((∀ i : Fin 32, vget s.lnk.ob i ≠ o) → ends (.windowCloseOutbound b) e 0x51 []) ∧
      ((∀ i : Fin 32, i < n → vget s.lnk.ob i ≠ o) → vget s.lnk.ob n = o → ∃ t, exec (.windowCloseOutbound b) s = .next t ∧
        vget t.lnk.ob n = { o with open_ := false })) ∧
    (s.takeMsg p c.val = none → msg = .next s) ∧ (s.takeMsg p (8 * v.val + 2) = none → ack = .next s) ∧
    (s.takeMsg p (8 * v.val + 4) = none → notice = .next s) ∧
    (∀ m u, s.takeMsg p c.val = some (m, u) →
      let deny := s.winCheck p m
      let r := w.first + m.row
      let held : Prop := 2 ≤ s.pstate k ∨ s.spHeld k = true
      let passes (q : Fin 2) : Prop := open_ p m ∧ open_ q m
      let waited : Prop := (s.port p).late.contains c.val = true
      let here : Prop := clean m ∧ mine m ∧ (m.cls = 0 ∨ m.cls = 1) ∧ m.win = n.val
      (¬ clean m → ∃ t, msg = .next t ∧ t = { u with flt := t.flt, regs := t.regs } ∧
        RegsOnly [F.BRG_ERRCNT.off] { u with flt := t.flt } t ∧ t.getF F.BRG_ERRCNT = satAdd 32 (s.getF F.BRG_ERRCNT) 1 ∧
        (s.brgUp = true → ∃ q, t.flt.aft = s.flt.aft ++ [q] ∧ q.cls = 0x33)) ∧
      (clean m → ¬ mine m →
        (∀ q, s.routeTo m.dstc = some q → passes q → ∃ t, msg = .next t ∧ t = { u with lnk := t.lnk } ∧
          t.lnk.forwarded = m :: s.lnk.forwarded ∧
          (t.port q).queue = (s.port q).queue ++ [if s.dateline p = true then { m with vc := 1 } else m]) ∧
        ((∀ q, s.routeTo m.dstc = some q → ¬ passes q) → (2 ≤ m.cls → msg = .next u) ∧
          (m.cls = 0 → msg = .next (u.lnkReply m 3 [] 0)))) ∧
      (clean m → mine m → 2 ≤ m.cls → msg = .next s) ∧
      (here → deny = none → held → ¬ waited → msg = .next (s.holdRead k (16 + 16 * p.val + c.val) r 0 512)) ∧
      (here → w.ended m = true → (deny ≠ none ∨ ¬ held ∨ waited) → ∃ t, msg = .next t ∧ t = { u with lnk := t.lnk } ∧
        vget t.lnk.iw n = w.bury m) ∧
      (here → w.ended m = false →
        (deny ≠ none → ∃ t, msg = .next t ∧ t.getF F.LNK_DENY = satAdd 32 (s.getF F.LNK_DENY) 1 ∧ t.cores = s.cores ∧
          t.lnk.iw = s.lnk.iw) ∧
        (deny = none → m.cls = 0 → m.len = 16 → m.pmask = 0 → w.core < 8 → ¬ held → r < 131072 →
          ∃ t, msg = .next t ∧ (t.getRow k r).1 = rowOfFlits m.data 0 ∧
            (vget t.lnk.iw n).arrivals = (if m.arrive then w.arrivals + 1#32 else w.arrivals)) ∧
        (deny = none → m.cls = 0 → held → waited → ∃ t, msg = .next t ∧ t.cores = s.cores) ∧
        (deny = none → m.cls = 1 → (¬ held ∨ waited) → ∃ t, msg = .next t ∧ (vget t.lnk.iw n).arrivals = w.arrivals ∧
          ∀ q, s.routeTo m.srcc = some q → s.getF (F.LNK_STAT_DUP_CHIP q) = 0 →
            ∃ l, (t.port q).queue = (s.port q).queue ++ l ∧ l.length = max 1 ((m.inl + 511) / 512) ∧
              ∀ i a, l[i]? = some a → a.cls = 2 ∧ a.opc = 0 ∧ a.tag = m.tag ∧ a.dstc = m.srcc ∧ a.row = m.row + i ∧ a.len = 16))) ∧
    (∀ m u, s.takeMsg p (8 * v.val + 2) = some (m, u) →
      let found := s.lnk.waits.find? (fun q => q.tag == m.tag && q.chip == m.srcc)
      ((¬ clean m ∨ ¬ mine m) → ack = .next s) ∧
      (clean m → mine m → (shut ∨ found = none) → ack = .next u) ∧
      (∀ q, clean m → mine m → ¬ shut → found = some q →
        ((m.opc = 2 ∨ m.opc = 3 ∨ m.opc = 4) → ∃ t, ack = .next t ∧ q ∉ t.lnk.waits) ∧
        (m.opc = 1 → q.rows = [m.row] → ∃ t, ack = .next t ∧ q ∉ t.lnk.waits ∧ t.cores = s.cores) ∧
        (∀ r l, m.opc = 0 → q.who = none → q.awn = false → q.rows = r :: l → m.pmask = 0 → m.len = 16 → r < 131072 →
          ∃ t, ack = .next t ∧ (l = [] → q ∉ t.lnk.waits) ∧
            (par = [] → (t.getRow (coreOf q.core) r).1 = rowOfFlits m.data 0) ∧
            ((∃ i ∈ (s.ctx (coreOf q.core) (Fin.ofNat 3 q.ctx)).queue 3, i.tok = q.tok) → (∃ x ∈ par, x < 64) →
              rowPoisoned (t.getRow (coreOf q.core) r).1 = true)))) ∧
    (∀ m u, s.takeMsg p (8 * v.val + 4) = some (m, u) →
      ((¬ clean m ∨ ¬ mine m) → notice = .next s) ∧ (clean m → mine m → (m.opc ≠ 1 ∨ shut) → notice = .next u) ∧
      (clean m → mine m → m.opc = 1 → ¬ shut → ∃ t, notice = .next t ∧ t = { u with lnk := t.lnk } ∧
        ∀ i : Fin 32, vget t.lnk.ob i = if (vget s.lnk.ob i).open_ = true ∧ (vget s.lnk.ob i).chip = m.srcc ∧
          (vget s.lnk.ob i).win = m.win then { vget s.lnk.ob i with open_ := false } else vget s.lnk.ob i)) ∧
    ((w.st ≠ .closing ∨ s.time.now < w.closeAt + 50000) → exec (.windowCloseDeadline n) s = .next s) ∧
    (w.st = .closing → w.closeAt + 50000 ≤ s.time.now → ∃ t, exec (.windowCloseDeadline n) s = .next t ∧
      (vget t.lnk.iw n).st = .closed ∧ (vget t.lnk.iw n).xfers = [] ∧
      ∀ x ∈ w.xfers, x.read = false → ∀ r ∈ x.rows, r < w.count → w.first + r < 131072 →
        rowPoisoned (t.getRow k (w.first + r)).1 = true)

/-! ### Command rings -/

/-- Rings (R539–R542, Tables HO-5, HO-6, HO-8): the firmware fetches the entry at SQ_HEAD when the ring is served, enabled, not
empty, has fewer than 16 in flight, holds no completion and the entry can be read, after a doorbell that is due; a poisoned entry, a
reserved opcode, a reserved byte that is not zero and a WINDOW operation that is none are refused in their turn. A completion is
written at CQ_TAIL, moves it and inverts PHASE at a wrap, or is held while there is no space. -/
def Obligations.RingsFetchAndPost : Prop :=
  ∀ (b : Fin 2) (tag opc code : Nat) (vals : List Byte) (d : InFlight) (s : State), mwf resetWord s.regs = true →
    let r := s.ring b
    let v := s.bellDue b
    let h := v.getF (F.SQ_HEAD b)
    let at_ := v.pair (F.SQ_BASE_LO b).off (F.SQ_BASE_HI b).off + 64 * h
    let g := v.fwGet at_ 64
    let e := g.1.map (·.1)
    let poison : Prop := ∃ x ∈ g.1, x.2 = true
    let field : Prop := 2 ≤ fieldAt e 1 1 ∨ zeroAt e 4 7 = false ∨ (fieldAt e 0 1 = 8 ∧ 3 < fieldAt e 8 1)
    let is (c : InFlight) (x : Option Nat) : Prop := 
      c = ⟨fieldAt e 2 2, fieldAt e 0 1, decide (fieldAt e 1 1 % 2 = 1), e.drop 8, false, x⟩
    let moved (t : State) (c : InFlight) : Prop := t.getF (F.SQ_HEAD b) = (h + 1) % 2 ^ v.getF (F.RING_CFG_SQ_SIZE b) % 4096 ∧
      (t.ring b).inflight = (v.ring b).inflight ++ [c]
    let may : Prop := v.served = true ∧ v.getF (F.RING_CTRL_ENABLE b) = 1 ∧ v.pwr.powerdown = false ∧ (v.ring b).held = [] ∧
      v.cqFull b = false ∧ (v.ring b).inflight.length < 16 ∧ h ≠ v.getF (F.SQ_TAIL b) ∧ v.fwHeld at_ 64 = false ∧
      (b = 1 ∨ (v.getF F.HOST_STATUS_LINK_UP = 1 ∧ v.host.lost = false))
    let first : Prop := ∀ f ∈ (v.ring b).inflight, f.begun = true
    let behind : Prop := ∃ f, (v.ring b).inflight.find? (fun f => !f.begun) = some f ∧ f.bad = none
    let refused (n : Nat) : Prop := ∀ c, is c (some n) →
      (first → ∃ u : State, exec (.commandFetch b) s = .next (u.answerFirst b c n []) ∧ moved u c) ∧
      (behind → ∃ t, exec (.commandFetch b) s = .next t ∧ moved t c)
    let t := s.complete b tag opc code vals
    let own := r.inflight.find? (fun d => d.begun && d.tag == tag && d.opc == opc)
    let a := s.answerFirst b d code vals
    let lost : Prop := b = 0 ∧ s.host.lost = true
    let tail := s.getF (F.CQ_TAIL_TAIL b)
    let next := (tail + 1) % 2 ^ s.getF (F.RING_CFG_CQ_SIZE b) % 4096
    let posts (t : State) (entry : CplEntry) : Prop :=
      (¬ lost → s.cqFull b = false → r.held = [] → (t.ring b).held = [] ∧ t.getF (F.CQ_TAIL_TAIL b) = next ∧
        t.getF (F.CQ_TAIL_PHASE b) =
          (if (tail + 1) % 2 ^ s.getF (F.RING_CFG_CQ_SIZE b) = 0 then 1 - s.getF (F.CQ_TAIL_PHASE b) else s.getF (F.CQ_TAIL_PHASE b)) ∧
        (entry.irq = true → t.getF ⟨F.HOST_ICAUSE.off, b.val, 1⟩ = 1)) ∧
      ((lost ∨ s.cqFull b = true ∨ r.held ≠ []) →
        (r.held.length < 64 → (t.ring b).held = r.held ++ [entry] ∧ t.regs = s.regs ∧ t.dram = s.dram ∧ t.hostMem = s.hostMem) ∧
        (64 ≤ r.held.length → lost → t.getF F.HOST_CQLOST = satAdd F.HOST_CQLOST.w (s.getF F.HOST_CQLOST) 1))
    (r.bell = none → v = s) ∧ (¬ may → exec (.commandFetch b) s = .next v) ∧
    (may → (poison → refused 0x74) ∧ (¬ poison → 0x0E < fieldAt e 0 1 → refused 0x70) ∧
      (¬ poison → fieldAt e 0 1 ≤ 0x0E → field → refused 0x71) ∧
      (∀ c, ¬ poison → fieldAt e 0 1 ≤ 0x0E → ¬ field → is c none → (first ∨ behind) →
        ∃ t, exec (.commandFetch b) s = .next t ∧ moved t c ∧ (t.ring b).held = [] ∧
          t = { g.2 with regs := t.regs, host := t.host } ∧ ∀ o, o ≠ (F.SQ_HEAD b).off → t.getReg o = g.2.getReg o)) ∧
    (t.ring b).inflight = r.inflight.eraseP (fun d => d.begun && d.tag == tag && d.opc == opc) ∧
    posts t { tag := tag, opc := opc, result := code, replayed := false, irq := own.elim false (·.irq), vals := vals } ∧
    (a.ring b).inflight = r.inflight.eraseP (fun f => !f.begun) ∧
    posts a { tag := d.tag, opc := d.opc, result := code, replayed := false, irq := d.irq, vals := vals } ∧
    ((∀ f, (r.inflight.eraseP (fun f => !f.begun)).find? (fun f => !f.begun) = some f → f.bad = none) →
      s.finish b d code vals = a)

/-- NOP, CLAIM, ROUTE and STOREWR (Table HO-7, R546, R552, R617): each takes the command that begins next, when it has its opcode.
NOP completes; CLAIM takes or releases the blocks of its mask and answers with those held; ROUTE writes the nine values of a
stream's shadow and, with ENABLE 0, stops the stream at its next REF; STOREWR is accepted and waits in the queue of store writes,
the first of them while what it reads is held. A bad field, a block of another owner and a stream that no job claims refuse the
command. -/
def Obligations.RingCommandsAct : Prop :=
  ∀ (b : Fin 2) (n : Fin 6) (errs : List (BitVec 64)) (s : State), mwf resetWord s.regs = true →
    let cmd (op : Nat) (e : InFlight) : Prop :=
      s.served = true ∧ (s.ring b).inflight.find? (fun e => !e.begun) = some e ∧ e.opc = op ∧ e.bad = none
    let ends (i : Instr) (e : InFlight) (c : Nat) (l : List Byte) : Prop := exec i s = .next (s.finish b e c l)
    let idle (i : Instr) (op : Nat) : Prop := (∀ e, ¬ cmd op e) → exec i s = .next s
    let me := b.val + 2
    let asks (e : InFlight) (i : Nat) : Prop := i < 24 ∧ (e.par 8 4).testBit i = true
    let good (e : InFlight) : Prop := e.unusedZero [(8, 12)] = true ∧ e.par 12 1 ≤ 1 ∧ (e.par 8 4).testBit 15 = false ∧
      e.par 8 4 < 2 ^ 24
    let taken (i : Nat) : Prop := s.owner i ≠ 0 ∧ s.owner i ≠ me ∧ ¬ (s.owner i = 2 ∧ s.getF F.HOST_STATUS_LINK_UP = 0)
    let owns (u : State) : Prop := RegsOnly [F.GLB_OWN0_OWN.off, F.GLB_OWN1_OWN.off, F.GLB_OWN2_OWN.off] s u
    let acc := s.accept b
    let begins (l : List InFlight) : List InFlight := l.takeWhile (·.begun) ++
      ((l.dropWhile (·.begun)).take 1).map (fun f => { f with begun := true }) ++ (l.dropWhile (·.begun)).drop 1
    idle (.nop b) 0 ∧ idle (.claim b) 14 ∧ idle (.claimRelease b) 14 ∧ idle (.route b) 7 ∧ idle (.storewr ⟨b, errs⟩) 13 ∧
    (∀ e, cmd 0 e → (e.unusedZero [] = true → ends (.nop b) e 0 []) ∧ (e.unusedZero [] = false → ends (.nop b) e 0x71 [])) ∧
    (∀ e, cmd 14 e → (e.par 12 1 % 2 = 1 → exec (.claim b) s = .next s) ∧ (e.par 12 1 % 2 = 0 → exec (.claimRelease b) s = .next s) ∧
      (e.par 12 1 % 2 = 0 → ¬ good e → ends (.claim b) e 0x71 []) ∧
      (e.par 12 1 % 2 = 1 → ¬ good e → ends (.claimRelease b) e 0x71 []) ∧
      (e.par 12 1 = 0 → good e → (∃ i, asks e i ∧ taken i) → ends (.claim b) e 0x76 []) ∧
      (e.par 12 1 = 0 → good e → (∀ i, asks e i → ¬ taken i) → ∃ u : State, owns u ∧
        exec (.claim b) s = .next (u.finish b e 0 (leBytes 4 (u.ownedMask me))) ∧
        ∀ i, i < 24 → (asks e i → u.owner i = me) ∧ (¬ asks e i → u.owner i = s.owner i)) ∧
      (e.par 12 1 = 1 → good e → ∃ u : State, owns u ∧
        exec (.claimRelease b) s = .next (u.finish b e 0 (leBytes 4 (u.ownedMask me))) ∧
        ∀ i, i < 24 → (asks e i → s.owner i = me → u.owner i = 0) ∧ ((¬ asks e i ∨ s.owner i ≠ me) → u.owner i = s.owner i))) ∧
    (∀ e, cmd 7 e →
      let bad : Prop := e.unusedZero [(8, 8), (12, 47)] = false ∨ 5 < e.par 8 1
      let claimed : Prop := ∃ j ∈ s.jobs, e.par 8 1 ∈ j.streams
      (bad → ends (.route b) e 0x71 []) ∧ (¬ bad → ¬ claimed → ends (.route b) e 0x77 []) ∧
      (¬ bad → claimed → e.par 8 1 = n.val → ∃ u : State, exec (.route b) s = .next (u.finish b e 0 []) ∧
        u.getF (F.OF_CROP_XY_X n) = e.par 16 2 % 16384 ∧ u.getF (F.OF_CROP_XY_Y n) = e.par 18 2 % 16384 ∧
        u.getF (F.OF_BASE n) = e.par 28 4 ∧ u.getF (F.OF_PITCH n) = e.par 32 4 % 2 ^ 20 ∧ u.getF (F.OF_OFFSET n) = e.par 40 4 ∧
        (let x := s.stream n
         u = { s.setStream n { x with stop := x.stop || decide (e.par 12 4 % 2 = 0) } with regs := u.regs, wire := u.wire }))) ∧
    (∀ e, cmd 13 e →
      let t := e.par 8 1
      let bad : Prop := e.unusedZero [(8, 8), (10, 11), (16, 27)] = false ∨ ((t ≠ 3 ∨ e.par 24 4 = 0) ∧ e.par 10 2 ≠ 0)
      let q : StoReq :=
        { bank := b.val, tag := e.tag, target := t, job := e.par 10 2, src := e.par 16 8, len := e.par 24 4, errs := errs }
      (bad → ends (.storewr ⟨b, errs⟩) e 0x71 []) ∧
      (¬ bad → s.sto.cur.isSome = true → ∃ t, exec (.storewr ⟨b, errs⟩) s = .next t ∧
        t = { acc with sto := { s.sto with queue := s.sto.queue ++ [q] }, regs := t.regs }) ∧
      (¬ bad → s.sto.cur = none → s.sto.queue = [] → ∃ t, exec (.storewr ⟨b, errs⟩) s = .next t ∧
        (acc.stoHeld q = true → t.sto = { s.sto with queue := [q] }) ∧
        (acc.stoHeld q = false → t.sto.queue = [] ∧ ∀ w, (acc.stoCheck q).1 = .inr w → t.sto.cur = some w)) ∧
      ((∀ f, (begins (s.ring b).inflight).find? (fun f => !f.begun) = some f → f.bad = none) →
        acc = s.setRing b { s.ring b with inflight := begins (s.ring b).inflight }))

/-! ### Packages, images and jobs -/

/-- LOADPKG (R600, R601, Tables BS-7, BS-10) answers the first failing check; a load that fails its tag or its digest, or is
cut by a tamper event, leaves the rows it wrote zero; a good one leaves the plain rows on every powered core and the
package loaded. -/
def Obligations.PackagesLoad : Prop :=
  ∀ (b : Fin 2) (cut : Option Nat) (k : Fin 8) (s : State) (e : InFlight), Memory.Wf s →
    let cmd (op : Nat) : Prop := s.served = true ∧ (s.ring b).inflight.find? (fun e => !e.begun) = some e ∧ e.opc = op ∧ e.bad = none
    let ends (u : State) (i : Instr) (c : Nat) (l : List Byte) : Prop := exec i s = .next (u.finish b e c l)
    let load := Instr.loadpkg b cut
    let id := e.par 8 4
    let badId : Prop := e.unusedZero [(8, 11)] = false ∨ ∀ p ∈ s.pkgs, p.id ≠ id
    let used : Prop := ∃ j ∈ s.jobs, ∃ m ∈ j.models, m.pkg = id
    ((∀ e, ¬ (s.served = true ∧ (s.ring b).inflight.find? (fun e => !e.begun) = some e ∧ e.opc = 1 ∧ e.bad = none)) → exec load s = .next s) ∧
    ((∀ e, ¬ (s.served = true ∧ (s.ring b).inflight.find? (fun e => !e.begun) = some e ∧ e.opc = 2 ∧ e.bad = none)) →
      exec (.unloadpkg b) s = .next s) ∧
    (cmd 2 → (badId → ends s (.unloadpkg b) 0x71 []) ∧ (¬ badId → used → ends s (.unloadpkg b) 0x75 []) ∧
      (¬ badId → ¬ used → ∃ u : State, ends u (.unloadpkg b) 0 [] ∧ u.pkgs = s.pkgs.filter (fun p => p.id != id) ∧
        u = { s with pkgs := u.pkgs, dig := u.dig } ∧ ∀ r ∈ u.dig.todo, r.pkg ≠ id)) ∧
    (cmd 1 → e.unusedZero [(8, 19)] = true → s.fwHeld (e.par 8 8) (e.par 16 4) = true → exec load s = .next s) ∧
    (cmd 1 → (e.unusedZero [(8, 19)] = false → ends s load 0x71 []) ∧
      (e.unusedZero [(8, 19)] = true → s.fwHeld (e.par 8 8) (e.par 16 4) = false →
      (∀ u : State, s.source (e.par 8 8) (e.par 16 4) = (none, u) → ends u load 0x74 []) ∧
      (∀ (u : State) (l : List Byte), s.source (e.par 8 8) (e.par 16 4) = (some l, u) →
        let sig := u.checkSig l (pkgSig l) l.length (some 1) 0
        let ok1 : Prop := u.getF F.SEC_STATUS_DEBUG = 0
        let ok2 : Prop := ok1 ∧ pkgForm l = true
        let ok3 : Prop := ok2 ∧ ∀ p ∈ u.pkgs, p.id ≠ pkgId l
        let ok4 : Prop := ok3 ∧ sig = .good
        let ok5 : Prop := ok4 ∧ u.arb 1 ≤ pkgSvn l
        let n := pkgRows l
        let first := pkgFirst l
        let on : Prop := k ∈ u.poweredCores ∧ u.spHeld k = false
        let zero (w : State) (m : Nat) : Prop := w.pkgs = u.pkgs ∧ (on → w.rowRun k first m = List.replicate (512 * m) 0)
        (¬ ok1 → ends u load 0x6B []) ∧ (ok1 → pkgForm l = false → ends u load 0x60 []) ∧
        (ok2 → (∃ p ∈ u.pkgs, p.id = pkgId l) → ends u load 0x6A []) ∧ (ok3 → sig = .bad → ends u load 0x61 []) ∧
        (ok3 → sig = .revoked → ends u load 0x62 []) ∧ (ok4 → pkgSvn l < u.arb 1 → ends u load 0x63 []) ∧
        (∀ c, ok5 → u.contentKey l = .inl c → ends u load c []) ∧
        (∀ key, ok5 → u.contentKey l = .inr key →
          let iv := (l.drop 44).take 12
          let body := (l.drop (pkgPay l)).take (512 * n)
          let plain := (Config.gcmPlain key iv (l.take 128) body ++ List.replicate (512 * n) 0).take (512 * n)
          let tag : Prop := Config.gcmTag key iv (l.take 128) body = (l.drop (pkgPay l + 512 * n)).take 16
          let digest : Prop := Config.sha384 plain = fieldAt l 56 48
          (u.rowsFree first n = false → ends u load 0x66 []) ∧
          (u.rowsFree first n = true →
            (∀ m, cut = some m → ∃ w : State, ends w load 0x69 [] ∧ zero w (min m n)) ∧
            (cut = none → ¬ tag → ∃ w : State, ends w load 0x67 [] ∧ zero w n) ∧
            (cut = none → tag → ¬ digest → ∃ w : State, ends w load 0x68 [] ∧ zero w n) ∧
            (cut = none → tag → digest → ∃ w : State, ends w load 0 (leBytes 4 (pkgId l) ++ leBytes 8 (pkgVersion l)) ∧
              (∃ p ∈ w.pkgs, p.id = pkgId l ∧ p.version = pkgVersion l ∧ p.first = first ∧ p.rows = n ∧
                p.cores = u.poweredCores.map (·.val)) ∧ (∀ p ∈ u.pkgs, p ∈ w.pkgs) ∧
              (on → u.ledger (pkgId l) = none → w.rowRun k first n = plain) ∧
              w.arb 1 = if pkgCommit l then max (u.arb 1) (min (pkgSvn l) 64) else u.arb 1))))))

/-- LOADIMG (R236, R237, Table IS-14) answers the first failing check; a good image becomes a LOADED job, its code is in
instruction memory, and no row and no context changes. UNLOAD (R239) removes a job that does not run: its contexts are
free, its windows close, its bindings are closed. -/
def Obligations.ImagesLoadAndUnload : Prop :=
  ∀ (b : Fin 2) (n : Fin 32) (s : State) (e : InFlight), mwf resetWord s.regs = true →
    let cmd (op : Nat) : Prop := s.served = true ∧ (s.ring b).inflight.find? (fun e => !e.begun) = some e ∧ e.opc = op ∧ e.bad = none
    let none_ (op : Nat) : Prop :=
      ∀ e, ¬ (s.served = true ∧ (s.ring b).inflight.find? (fun e => !e.begun) = some e ∧ e.opc = op ∧ e.bad = none)
    let ends (u : State) (i : Instr) (c : Nat) (l : List Byte) : Prop := exec i s = .next (u.finish b e c l)
    let load := Instr.loadimg b
    let id := e.par 8 2
    (none_ 3 → exec load s = .next s) ∧ (none_ 4 → exec (.unload b) s = .next s) ∧
    (cmd 3 → e.unusedZero [(8, 19)] = true → s.fwHeld (e.par 8 8) (e.par 16 4) = true → exec load s = .next s) ∧
    (cmd 3 → (e.unusedZero [(8, 19)] = false → ends s load 0x71 []) ∧
      (e.unusedZero [(8, 19)] = true → s.fwHeld (e.par 8 8) (e.par 16 4) = false →
      (∀ u : State, s.source (e.par 8 8) (e.par 16 4) = (none, u) → ends u load 0x74 []) ∧
      (∀ (u : State) (l : List Byte), s.source (e.par 8 8) (e.par 16 4) = (some l, u) →
        let signed : Prop := u.checkSig l (fieldAt l 36 4) l.length (some 2) 0 = .good ∧ fieldAt l 40 4 = 256
        let j := u.imgJob l u.freeJob ((u.imgTiles l).getD [])
        let ok2 : Prop := u.imgForm l = true ∧ signed
        let ok3 : Prop := ok2 ∧ u.imgRange l = true
        let ok4 : Prop := ok3 ∧ u.imgModels j = true
        (u.imgForm l = false → ends u load 1 []) ∧ (u.imgForm l = true → ¬ signed → ends u load 2 []) ∧
        (ok2 → u.imgRange l = false → ends u load 3 []) ∧ (ok3 → u.imgModels j = false → ends u load 4 []) ∧
        (ok4 → u.imgConflict j = true → ends u load 5 []) ∧
        (ok4 → u.imgConflict j = false → ∃ w : State, ends w load 0 (leBytes 2 u.freeJob) ∧ w.jobs = u.jobs ++ [j] ∧
          j.state = .loaded ∧ (j.session = true → w.getF F.AD_STATUS_COMMITTED = 0) ∧ w = { u with regs := w.regs, cores := w.cores, jobs := w.jobs } ∧
          ∀ k, w.core k = { u.core k with imem := (w.core k).imem, imemBad := (w.core k).imemBad })))) ∧
    (cmd 4 → (e.unusedZero [(8, 9)] = false → ends s (.unload b) 0x71 []) ∧ (e.unusedZero [(8, 9)] = true →
      (s.job id = none → ends s (.unload b) 0x72 []) ∧
      (∀ j, s.job id = some j →
        ((j.state = .running ∨ j.startPend.isSome = true) → ends s (.unload b) 0x73 []) ∧
        (j.state ≠ .running → j.startPend = none → ∃ u : State, ends u (.unload b) 0 [] ∧ u.job id = none ∧
          (∀ i, i ≠ id → u.job i = s.job i) ∧
          (∀ k x, (s.ctx k x).job = some id → u.ctx k x = { s.ctx k x with job := none, running := false, ended := false }) ∧
          (∀ k x, (s.ctx k x).job ≠ some id → u.ctx k x = s.ctx k x) ∧ (∀ k, (u.core k).sp = (s.core k).sp) ∧
          ((vget s.lnk.iw n).job = id → (vget s.lnk.iw n).st = .open_ → (vget u.lnk.iw n).st ≠ .open_) ∧
          ((vget s.lnk.ob n).job = id → (vget s.lnk.ob n).open_ = true → (vget u.lnk.ob n).open_ = false)))))

/-- START and STOP (R544, R348, R554): START of an in-line job waits for a frame start; a memory-path job runs at once, its
contexts initialised; a session with too few rows for its shadow ends with AD_NO_ROOM. STOP takes a waiting START back, and wins
over a START that follows it before the next frame start; it ends at once when no frame is in progress, at its cores or at the Edge
engine, and otherwise waits, the frames of which no stripe has started dropped. That a DEAD job can be started again follows R465
against Table HO-8 (log entry 137, the model's choice). -/
def Obligations.JobsStartAndStop : Prop :=
  ∀ (b : Fin 2) (s : State) (e : InFlight), mwf resetWord s.regs = true →
    let cmd (op : Nat) : Prop := s.served = true ∧ (s.ring b).inflight.find? (fun e => !e.begun) = some e ∧ e.opc = op ∧ e.bad = none
    let none_ (op : Nat) : Prop :=
      ∀ e, ¬ (s.served = true ∧ (s.ring b).inflight.find? (fun e => !e.begun) = some e ∧ e.opc = op ∧ e.bad = none)
    let ends (u : State) (i : Instr) (c : Nat) (l : List Byte) : Prop := exec i s = .next (u.finish b e c l)
    let id := e.par 8 2
    let bad : Prop := e.unusedZero [(8, 9)] = false
    (none_ 5 → exec (.start b) s = .next s) ∧ (none_ 6 → exec (.stop b) s = .next s) ∧
    (cmd 5 → (bad → ends s (.start b) 0x71 []) ∧ (¬ bad → s.job id = none → ends s (.start b) 0x72 []) ∧
      (∀ j, ¬ bad → s.job id = some j →
        let ready : Prop := (j.state = .loaded ∨ j.state = .dead) ∧ j.startPend = none
        let room (k : Fin 8) : Nat := ((j.stateRow k.val).map (fun g => g.last + 1 - g.first)).getD 0
        (¬ ready → ends s (.start b) 0x73 []) ∧
        (ready → j.session = true →
          (∀ p k, s.sessionPkg j = some p → k ∈ j.cores → room k < p.shadow + p.export_ →
            ∃ u : State, ends u (.start b) 0x25 [] ∧ u.getF F.AD_STATUS_LAST_CODE = 0x25 ∧ u.jobs = s.jobs)) ∧
        (ready → j.session = true → j.inline = false →
          (∀ p k, s.sessionPkg j = some p → k ∈ j.cores → p.shadow + p.export_ ≤ room k) →
            ∃ t j', exec (.start b) s = .next t ∧ t.job id = some j' ∧ j'.state = .running ∧
              t.getF F.AD_STATUS_RUNNING = 1 ∧ t.getF F.AD_STATUS_LAST_CODE = 0) ∧
        (ready → j.session = false → j.inline = true → ∃ u : State, ends u (.start b) 0 [] ∧
          u.job id = some { j with startPend := some (b.val, e.tag) } ∧ (∀ i, i ≠ id → u.job i = s.job i) ∧
          ∀ k x, u.ctx k x = s.ctx k x) ∧
        (ready → j.session = false → j.inline = false → ∃ t j', exec (.start b) s = .next t ∧ t.job id = some j' ∧
          j'.state = .running ∧ j'.startTag = some (b.val, e.tag) ∧ j'.startPend = none ∧ t.dev = devRun ∧
          ∀ k ∈ j'.cores, t.ctx k 1 =
            { Ctx.reset with job := some id, pc := j.entry, halted := false, parBad := (s.ctx k 1).parBad }))) ∧
    (cmd 6 → (bad → ends s (.stop b) 0x71 []) ∧ (¬ bad → s.job id = none → ends s (.stop b) 0x72 []) ∧
      (∀ j, ¬ bad → s.job id = some j →
        let unbegun (x : JFrame) : Prop := j.inline = false ∧ j.session = false ∧ x.closed = false ∧ ∀ r ∈ x.bands, r.started = []
        let busy : Prop := ∃ x ∈ j.frames, ¬ unbegun x ∧
          (x.closed = false ∨ j.edgeWork x = true ∨ ∃ r ∈ s.edge.run, r.job = id ∧ r.frame = x.no)
        (j.startPend.isSome = true → ∃ u : State, ends u (.stop b) 0 [0x00] ∧
          u.job id = some { j with startPend := none, state := .loaded, stopped := true } ∧ u = { s with jobs := u.jobs }) ∧
        (j.startPend = none → j.state ≠ .running → ends s (.stop b) 0x73 []) ∧
        (j.startPend = none → j.state = .running → (busy ∨ j.stepAt.isSome = true) → ∃ t j', exec (.stop b) s = .next t ∧
          t.job id = some j' ∧ j' = { j with stopping := true, frames := j'.frames } ∧
          (∀ x, x ∈ j'.frames ↔ x ∈ j.frames ∧ ¬ unbegun x) ∧ t.regs = (s.accept b).regs ∧ t.cores = s.cores) ∧
        (j.startPend = none → j.state = .running → ¬ busy → j.stepAt = none → ∃ t j', exec (.stop b) s = .next t ∧
          t.job id = some j' ∧ j' = { j with stopping := false, state := .loaded, startTag := none, frames := [] } ∧
          (∀ k x, (s.ctx k x).job = some id → (t.ctx k x).running = false ∧ (t.ctx k x).halted = true))))

/-! ### Host port -/

/-- BAR4 (R526, R529–R531, R555): a closed path drops a write and answers ones; a window that is off is unmapped; a write of
DRAM writes its bytes and none other, one of a register is that register's write, one of part of a scratchpad row gathers
in a row buffer, and a whole row is written; a read answers the bytes of DRAM. Row buffers older than 100 µs are discarded,
each with a ROW_ALIGN record. -/
def Obligations.Bar4Serves : Prop :=
  ∀ (off n : Nat) (bs : List Byte) (e : WriteEnv) (s : State), Memory.Wf s →
    let w := off / 2 ^ 30 % 8
    let a := s.getF (F.HOST_W4_BASE w) * 2 ^ 30 + off % 2 ^ 30
    let write := exec (.bar4Access off n (some bs) e) s
    let read := exec (.bar4Access off n none e) s
    let path (wr : Bool) : Prop := s.pathOpen .host (F.HOST_W4_BASE w).off wr = true
    let on : Prop := s.getF (F.HOST_W4_ENABLE w) = 1
    let unmapped (t : State) : Prop := ∃ q, t.flt.fore = s.flt.fore ++ [q] ∧ q.cls = 0x01 ∧ q.addr = off
    let within (a l : Nat) : Prop := s.region a = .dram ∧ a + l ≤ s.ddrSize ∧ s.dramDenied a l = none
    let old (x : RowBuf) : Prop := x.since + 100000 ≤ s.time.now
    (¬ path true → write = .next s) ∧
    (¬ path false → read = .next (s.emit (.answer 1 (leNat (List.replicate n 0xFF)) false))) ∧
    (path true → ¬ on → ∃ t, write = .next t ∧ t = { s with flt := t.flt } ∧ unmapped t) ∧
    (path false → ¬ on → 0 < n → ∃ t v, read = .next t ∧ t.wire = .answer 1 v true :: s.wire ∧ unmapped t ∧ t.regs = s.regs) ∧
    (path true → on → within a bs.length → ∃ t, write = .next t ∧
      t = { s with dram := t.dram, dramPoison := t.dramPoison, dramBad := t.dramBad } ∧
      ∀ i, t.dramByte i = if a ≤ i ∧ i < a + bs.length then nth 0 bs (i - a) else s.dramByte i) ∧
    (∀ r, path true → on → s.region a = .regs r → r % 4 = 0 → bs.length = 4 →
      write = exec (.registerWrite e [⟨.host, r, 4, leNat bs⟩]) s) ∧
    (∀ (k : Fin 8) (r c : Nat), path true → on → s.region a = .sp k.val r c → s.host.rowWait = [] →
      (∀ x ∈ s.host.rows, x.addr ≠ a / 512 * 512) →
      (0 < bs.length → c + bs.length ≤ 512 → bs.length < 512 → s.host.rows.length < 8 → ∃ t x, write = .next t ∧
        t = { s with host := { s.host with rows := s.host.rows ++ [x] } } ∧ x.addr = a / 512 * 512 ∧ x.since = s.time.now ∧
        ∀ i, (x.bytes.find? (fun y => y.1 == i)).map (·.2) = if c ≤ i ∧ i < c + bs.length then some (nth 0 bs (i - c)) else none) ∧
      (bs.length = 512 → c = 0 → s.brgUp = true → s.brgBusy = false → s.pstate k < 2 → s.spHeld k = false → ∃ t, write = .next t ∧
        t.rowRun k r 1 = bs ∧ (∀ q, q ≠ k → t.core q = s.core q) ∧ ∀ i, i < 131072 → i ≠ r → t.rowRun k i 1 = s.rowRun k i 1)) ∧
    (path false → on → 0 < n → within a n → (∀ i, a ≤ i → i < a + n → s.dramPois i = false) →
      read = .next (s.emit (.answer 1 (leNat ((upFrom a n).map s.dramByte)) false))) ∧
    ((∀ x ∈ s.host.rows, ¬ old x) → exec .rowBufferTimeout s = .next s) ∧
    (s.host.rowWait = [] → ∃ t, exec .rowBufferTimeout s = .next t ∧ (∀ x, x ∈ t.host.rows ↔ x ∈ s.host.rows ∧ ¬ old x) ∧
      t.flt.fore.length = s.flt.fore.length + (s.host.rows.filter (fun x => decide (x.since + 100000 ≤ s.time.now))).length ∧
      (∀ q ∈ t.flt.fore.drop s.flt.fore.length, q.cls = 0x02) ∧ ∀ k, t.core k = s.core k)

/-- Bulk Port (R535–R539, R595): a data write is staged in ROM mode, else posted at the pointer, which it moves, or waits when
the buffer has no room; an unaligned one sets BAD_WIDTH and posts nothing. A data read waits for the drain on PCIe and
gives zeros with LATE on the HSP, and is performed after the drain. The drain writes what was posted in order and then lets a
doorbell that waited take effect, once every write is visible. A refused HSP frame sets BAD (R532). That a doorbell counts modulo the
ring size is the model's choice (log entry 130). -/
def Obligations.BulkPortMovesData : Prop :=
  ∀ (c : Fin 2) (bs : List Byte) (n ahead : Nat) (e : WriteEnv) (s : State), Memory.Wf s →
    let x := s.bulk c
    let m := pathMaster c
    let p := s.bulkPtr c
    let path (wr : Bool) : Prop := s.pathOpen m (F.BULK_ADDR_LO c).off wr = true
    let rom : Prop := s.sec.romMode = true ∧ s.dev = devBoot
    let write := exec (.bulkDataWrite c bs) s
    let read := exec (.bulkDataRead c n ahead) s
    let drain := exec (.bulkDrain c e) s
    let gives (t : State) (l : List Byte) (u : State) : Prop :=
      t = u.emit (if c = 0 then .answer (masterRank m) (leNat l) false else .hsp l)
    let refuse : State := if c = 1 then { s with host := { s.host with hspBad := true } } else s
    let fits : Prop := x.buf = [] ∨ x.held + bs.length ≤ 4096
    let drained : Prop := x.buf = [] ∧ x.wait = []
    let only (t : State) (y : BulkSt) : Prop := (∀ o, o ∉ [(F.BULK_ADDR_LO c).off, (F.BULK_ADDR_HI c).off, (F.BULK_STATUS_DRAINING c).off] →
      t.getReg o = s.getReg o) ∧ t = { s with regs := t.regs, host := { s.host with bulk := vset s.host.bulk c y } }
    (s.off = true → write = .next s ∧ read = .next s) ∧
    (s.off = false → rom → (c.val ≠ s.romPath → write = .next refuse) ∧
      (c.val = s.romPath → bs.length % 4 = 0 →
        write = .next { s with sec := { s.sec with stage := (s.sec.stage ++ bs).take stageSize } })) ∧
    (s.off = false → ¬ rom → (¬ path true → write = .next refuse) ∧
      (path true → (x.wait ≠ [] ∨ ¬ fits) → ∃ t, write = .next t ∧ only t { x with wait := x.wait ++ [.put bs], pre := [] }) ∧
      (path true → x.wait = [] → fits → (bs.length % 4 ≠ 0 ∨ p % 4 ≠ 0) → ∃ t, write = .next t ∧
        t.getF F.GLB_STATUS_BAD_WIDTH = 1 ∧ t.bulk c = x ∧ t.bulkPtr c = p ∧ (c = 1 → t.host.hspBad = true)) ∧
      (path true → x.wait = [] → fits → bs.length % 4 = 0 → p % 4 = 0 → bs ≠ [] → ∃ t, write = .next t ∧
        only t { x with buf := x.buf ++ [(p, bs)], pre := [] } ∧ t.getF (F.BULK_STATUS_DRAINING c) = 1 ∧
        (s.getF (F.BULK_CTRL_MODE c) = 0 → t.bulkPtr c = (p + bs.length) % 2 ^ 48) ∧
        (s.getF (F.BULK_CTRL_MODE c) = 1 → t.bulkPtr c = p))) ∧
    (s.off = false → (¬ path false → ∃ t, read = .next t ∧ gives t (List.replicate n 0xFF) refuse) ∧
      (path false → ¬ drained → c = 0 → ∃ t, read = .next t ∧ only t { x with wait := x.wait ++ [.get n ahead] }) ∧
      (path false → ¬ drained → c = 1 → ∃ t u, read = .next t ∧ gives t (List.replicate n 0) u ∧ u.host.hspLate = true ∧
        only { u with host := { u.host with hspLate := s.host.hspLate } } { x with wait := x.wait ++ [.late n ahead] }) ∧
      (path false → drained → n % 4 = 0 → p % 4 = 0 → 0 < n → x.pre = [] → s.getF (F.BULK_CTRL_PREFETCH c) = 0 →
        s.getF (F.BULK_CTRL_MODE c) = 0 → s.region p = .dram → p + n ≤ s.ddrSize → s.dramDenied p n = none →
        (∀ i, p ≤ i → i < p + n → s.dramPois i = false) → ∃ t u, read = .next t ∧ only u x ∧
          gives t ((upFrom p n).map s.dramByte) u ∧ t.bulkPtr c = (p + n) % 2 ^ 48)) ∧
    (x.buf = [] → x.wait = [] → s.host.rowWait = [] → ((s.ring c).bell = none ∨ s.bulkSeen c = false) →
      ∃ t, drain = .next t ∧ only t x) ∧
    (∀ v, x.buf = [] → x.wait = [] → s.host.rowWait = [] → (s.ring c).bell = some v → s.bulkSeen c = true →
      let size := 2 ^ s.getF (F.RING_CFG_SQ_SIZE c)
      ∃ t, drain = .next t ∧ (t.ring c).bell = none ∧
        (v ≤ s.getF (F.SQ_HEAD c) + size → t.getF (F.SQ_TAIL c) = v % size % 4096) ∧
        (s.getF (F.SQ_HEAD c) + size < v → t.getF (F.RING_CTRL_RING_ERR c) = 1 ∧ t.getF (F.SQ_TAIL c) = s.getF (F.SQ_TAIL c))) ∧
    (∀ q, x.buf = [q] → x.wait = [] → s.host.rowWait = [] → (s.ring c).bell = none → s.region q.1 = .dram → q.1 + q.2.length ≤ s.ddrSize →
      s.dramDenied q.1 q.2.length = none → ∃ t, drain = .next t ∧ t.bulk c = { x with buf := [] } ∧
        t.getF (F.BULK_STATUS_DRAINING c) = 0 ∧
        ∀ i, t.dramByte i = if q.1 ≤ i ∧ i < q.1 + q.2.length then nth 0 q.2 (i - q.1) else s.dramByte i)

/-- Host serial port (R531–R533): frames are not answered while it is off; a frame of the register space is the accesses of its
words, one of the Bulk space the Bulk accesses; a word that is late reads zero with LATE; a reserved space, more than
4,096 bytes and a refused register read set BAD; the status frame shows DRAINING, LATE, IRQ and BAD, and clears LATE and BAD. -/
def Obligations.HspFramesServe : Prop :=
  ∀ (addr : BitVec 32) (data : List Byte) (n ahead : Nat) (late : List Nat) (e : WriteEnv) (s : State),
    let u : State := { s with host := { s.host with hspBad := false } }
    let bad : Prop := addr.getLsbD 31 = true ∨ 4096 < data.length
    let badR : Prop := addr.getLsbD 31 = true ∨ 4096 < n
    let off := addr.toNat % 2 ^ 21
    let write := exec (.hspWriteFrame addr data e) s
    let read := exec (.hspReadFrame addr n ahead late) s
    let isLate : Prop := s.getF F.HSP_CFG_DUMMY < 16 ∧ 0 ∈ late
    let byte := (if (s.bulk 1).buf = [] then 0 else 1) + (if s.host.hspLate then 2 else 0) +
      (if s.irqLow then 4 else 0) + (if s.host.hspBad then 8 else 0)
    (s.hspAlive = false → write = .next s ∧ read = .next s ∧ exec .hspStatusFrame s = .next s) ∧
    (s.hspAlive = true →
      (bad → write = .next { s with host := { s.host with hspBad := true } }) ∧
      (badR → read = .next { s with host := { s.host with hspBad := true } }) ∧
      (¬ bad → addr.getLsbD 30 = true → write = exec (.bulkDataWrite 1 data) u) ∧
      (¬ badR → addr.getLsbD 30 = true → read = exec (.bulkDataRead 1 n ahead) u) ∧
      (¬ bad → addr.getLsbD 30 = false → data.length = 4 → off % 4 = 0 → Lands s .hsp off →
        write = exec (.registerWrite e [⟨.hsp, off, 4, leNat data⟩]) u) ∧
      (¬ badR → addr.getLsbD 30 = false → n = 4 → s.hspRefuses off = true → ∃ t, read = .next t ∧ t.host.hspBad = true) ∧
      (¬ badR → addr.getLsbD 30 = false → n = 4 → s.hspRefuses off = false → ∃ (t : State) (v : Nat), v < 2 ^ 32 ∧
        exec (.registerRead .hsp off 4) u = .next (t.emit (.answer 2 v false)) ∧
        (¬ isLate → read = .next (t.emit (.hsp (leBytes 4 v)))) ∧
        (isLate → read = .next { t with wire := .hsp (leBytes 4 0) :: t.wire, host := { t.host with hspLate := true } })) ∧
      exec .hspStatusFrame s = .next { s with wire := .hsp (leBytes 1 byte) :: s.wire,
                                              host := { s.host with hspLate := false, hspBad := false } })

/-- PCIe (R525, R526, R528, R547, R555, R587, R592, Tables HO-1, HO-2): a link that goes down, and an endpoint reset, clear LINK_UP and
the configuration space, set LINK_LOST, write a record and stop the HOST rings; a link that trains, at a width and a speed of Table
HO-1, shows them; configuration requests are answered with Retry Status until the configuration space is up, then with the identity
of the part, its BARs, whose size bits no write sets, the command register, the power-management and the MSI-X capability; in D3hot
the host path is closed. The register layouts of PCI Express and the places of the capabilities are the model's (log entry 131). -/
def Obligations.PcieLinkAndConfiguration : Prop :=
  ∀ (width speed : BitVec 4) (lo n off : Nat) (v : Word) (s : State), mwf resetWord s.regs = true →
    let up : Prop := s.getF F.HOST_STATUS_LINK_UP = 1
    let trains : Prop := width.toNat ∈ [1, 2, 4] ∧ speed.toNat ∈ [1, 2, 3, 4] ∧ s.off = false ∧ s.dev ≠ devStandby ∧ s.dev ≠ devSleep ∧ s.dev ≠ devTamper ∧ ¬ up
    let link := exec (.pcieLinkUp width speed) s
    let down (i : Instr) : Prop := (¬ up → exec i s = .next s) ∧
      (up → ∃ t, exec i s = .next t ∧ t.getF F.HOST_STATUS_LINK_UP = 0 ∧
        t.host.bars = Vector.replicate 6 0 ∧
        (s.served = false → RegsOnly [F.HOST_STATUS_LINK_UP.off] s { t with host := s.host } ∧ t.wire = s.wire ∧
          t.host = { s.host with bars := t.host.bars, cfg := {} }) ∧
        (s.served = true → t.getF F.HOST_STATUS_LINK_LOST = 1 ∧ t.host = { s.host with lost := true, bars := t.host.bars, cfg := {} } ∧
          t.getF ⟨F.HOST_ICAUSE.off, 31, 1⟩ = 1 ∧ t.jobs = s.jobs ∧
          ∃ q, t.flt.fore = s.flt.fore ++ [q] ∧ q.cls = 0x35 ∧ q.unit = 0x03))
    let answers : Prop := s.host.cfgUp = true ∨ (s.dev = devBoot ∧ (s.sec.romMode = true ∨ s.getF F.SEC_BOOT_CODE ≠ 0))
    let cfg (w : Option Word) := exec (.configurationRequest off w) s
    let old := s.host.cfg
    let sets (c : CfgSpace) : State := { s with host := { s.host with cfg := c } }
    down .pcieLinkDown ∧ down .endpointReset ∧ (¬ trains → link = .next s) ∧
    (trains → ∃ t, link = .next t ∧ RegsOnly [F.HOST_STATUS_LINK_UP.off, F.HOST_ICAUSE.off] s t ∧
      t.getF F.HOST_STATUS_LINK_UP = 1 ∧ t.getF F.HOST_STATUS_WIDTH = width.toNat ∧ t.getF F.HOST_STATUS_SPEED = speed.toNat ∧
      t.getF ⟨F.HOST_ICAUSE.off, 31, 1⟩ = 1) ∧
    (∃ t, exec (.hostReadFail lo n true) s = .next t ∧ t = { s with host := { s.host with failing := t.host.failing } } ∧
      ∀ a m, 0 < n → a < lo + n → lo < a + m → t.hostGet a m = none) ∧
    (∃ t, exec (.hostReadFail lo n false) s = .next t ∧ t = { s with host := { s.host with failing := t.host.failing } } ∧
      (lo, lo + n) ∉ t.host.failing) ∧
    ((s.off = true ∨ ¬ up) → ∀ w, cfg w = .next s) ∧
    (s.off = false → up → (¬ answers → ∀ w, cfg w = .next (s.emit .cfgRetry)) ∧
      (answers → (∀ i : Fin 6, off / 4 = 4 + i.val →
          cfg none = .next (s.emit (.cfg (s.host.bars[i] + nth 0 [4, 0, 4, 0, 12, 0] i.val))) ∧
          ∃ t, cfg (some v) = .next t ∧ t = { s with host := { s.host with bars := t.host.bars } } ∧
            ∀ j : Fin 6, t.host.bars[j] = if j = i then v.toNat &&&
              nth 0 [2 ^ 32 - 2 ^ 21, 2 ^ 32 - 1, 2 ^ 32 - 2 ^ 16, 2 ^ 32 - 1, 0, 2 ^ 32 - 2] i.val else s.host.bars[j]) ∧
        (off / 4 ∈ [0, 2, 10, 11, 12, 13, 14] → cfg (some v) = .next s) ∧
        (off / 4 = 0 → cfg none = .next (s.emit (.cfg 0x08801F3C))) ∧
        (off / 4 = 1 → cfg (some v) = .next (sets { old with cmd := v.toNat &&& 0x0546 }) ∧
          ∃ x, cfg none = .next ({ s with free := s.free + 1 }.emit (.cfg (old.cmd + 2 ^ 20 + x * 2 ^ 24))) ∧ x < 2 ^ 8) ∧
        (off / 4 = 2 → cfg none = .next (s.emit (.cfg (0x12000000 + s.getF F.GLB_ID1_STEPPING)))) ∧
        (off / 4 = 11 → ∃ id, cfg none = .next (s.emit (.cfg (id * 2 ^ 16 + 0x1F3C))) ∧
          (s.getF F.GLB_ID1_GRADE = 2 → id = 2) ∧ (s.getF F.GLB_ID1_GRADE ≠ 2 → id = 1)) ∧
        (off / 4 = 13 → cfg none = .next (s.emit (.cfg (4 * capAt 0)))) ∧
        (off / 4 ∈ [10, 12, 14] → cfg none = .next (s.emit (.cfg 0))) ∧
        (off / 4 ∈ [3, 15] → mwf (dflt 0#32) old.words = true → (∃ c, cfg (some v) = .next (sets { old with words := c }) ∧
            (sets { old with words := c }).cfgHeld (off / 4) = v.toNat % 256) ∧
          cfg none = .next (s.emit (.cfg (s.cfgHeld (off / 4))))) ∧
        (16 ≤ off / 4 →
          (capOf (off / 4) = none → cfg (some v) = .next s ∧
            ∃ x, x < 2 ^ 32 ∧ cfg none = .next ({ s with free := s.free + 1 }.emit (.cfg x))) ∧
          (capOf (off / 4) ≠ none → ∃ c, cfg (some v) = .next (sets c)) ∧
          (capOf (off / 4) = some (0, 1) → cfg none = .next (s.emit (.cfg (8 + old.pmcsr))) ∧
            (v.toNat % 4 ∈ [0, 3] → cfg (some v) = .next (sets { old with pmcsr := v.toNat % 4 })) ∧
            (v.toNat % 4 ∈ [1, 2] → cfg (some v) = .next (sets { old with pmcsr := old.pmcsr % 4 }))) ∧
          (capOf (off / 4) = some (2, 0) → cfg none = .next (s.emit (.cfg (0x11 + 31 * 2 ^ 16 + old.msix * 2 ^ 16))) ∧
            cfg (some v) = .next (sets { old with msix := (v.toNat / 2 ^ 16) &&& 0xC000 }))))) ∧
    (old.pmcsr % 4 = 3 → ∀ o w, s.pathOpen .host o w = false)
end

