-- ==== Sys2Proof/Laws/SMap.lean ====
section
/-! SUPPORT. Laws of sparse maps: a read after a write, a write elsewhere, and that a write keeps the canonical form. -/

namespace Sys2Proof.Machine

variable {α : Type} [DecidableEq α] (d : Nat → α)

theorem mabove_trans {b c : Nat} (h : b < c) : ∀ m : SMap α, mabove c m = true → mabove b m = true
  | [], _ => rfl
  | (a, v) :: m, hm => by
    simp only [mabove, Bool.and_eq_true, decide_eq_true_eq] at hm ⊢
    exact ⟨by omega, mabove_trans h m hm.2⟩

theorem mget_of_mabove {k : Nat} : ∀ m : SMap α, mabove k m = true → mget d m k = d k
  | [], _ => rfl
  | (a, v) :: m, hm => by
    simp only [mabove, Bool.and_eq_true, decide_eq_true_eq] at hm
    simp only [mget]
    rw [if_neg (by omega)]
    exact mget_of_mabove m hm.2

theorem mget_of_lt {k a : Nat} (h : k < a) (m : SMap α) (hm : mabove a m = true) : mget d m k = d k :=
  mget_of_mabove d m (mabove_trans h m hm)

theorem mget_mset_same (k : Nat) (x : α) : ∀ m : SMap α, mwf d m = true → mget d (mset d m k x) k = x
  | [], _ => by
    simp only [mset]
    split <;> simp_all [mget]
  | (a, v) :: m, hm => by
    simp only [mwf, Bool.and_eq_true, decide_eq_true_eq] at hm
    simp only [mset]
    split
    · split
      · rename_i hka hx
        simp only [mget]
        rw [if_neg (by omega), mget_of_lt d hka m hm.1.1, hx]
      · simp [mget]
    · split
      · rename_i hka
        subst hka
        split
        · rename_i hx
          rw [mget_of_mabove d m hm.1.1, hx]
        · simp [mget]
      · rename_i h1 h2
        simp only [mget]
        rw [if_neg h2]
        exact mget_mset_same k x m hm.2

theorem mget_mset_ne {j k : Nat} (h : j ≠ k) (x : α) : ∀ m : SMap α, mget d (mset d m k x) j = mget d m j
  | [] => by
    simp only [mset]
    split <;> simp [mget, h]
  | (a, v) :: m => by
    simp only [mset]
    split
    · split
      · rfl
      · simp [mget, h]
    · split
      · rename_i hka
        subst hka
        split <;> simp [mget, h]
      · simp only [mget]
        rw [mget_mset_ne h x m]

theorem mabove_mset {b k : Nat} (hb : b < k) (x : α) :
    ∀ m : SMap α, mabove b m = true → mabove b (mset d m k x) = true
  | [], _ => by
    simp only [mset]
    split <;> simp [mabove, hb]
  | (a, v) :: m, hm => by
    simp only [mabove, Bool.and_eq_true, decide_eq_true_eq] at hm
    simp only [mset]
    split
    · split <;> simp [mabove, hb, hm]
    · split
      · split <;> simp [mabove, hb, hm]
      · simp [mabove, hm.1, mabove_mset hb x m hm.2]

theorem mwf_mset (k : Nat) (x : α) : ∀ m : SMap α, mwf d m = true → mwf d (mset d m k x) = true
  | [], _ => by
    simp only [mset]
    split <;> simp_all [mwf, mabove]
  | (a, v) :: m, hm => by
    have hm' := hm
    simp only [mwf, Bool.and_eq_true, decide_eq_true_eq] at hm
    simp only [mset]
    split
    · rename_i hka
      split
      · exact hm'
      · rename_i hx
        simp only [mwf, mabove, Bool.and_eq_true, decide_eq_true_eq]
        exact ⟨⟨⟨hka, mabove_trans hka m hm.1.1⟩, hx⟩, hm.1, hm.2⟩
    · split
      · rename_i hka
        subst hka
        split
        · exact hm.2
        · rename_i hx
          simp only [mwf, Bool.and_eq_true, decide_eq_true_eq]
          exact ⟨⟨hm.1.1, hx⟩, hm.2⟩
      · rename_i h1 h2
        simp only [mwf, Bool.and_eq_true, decide_eq_true_eq]
        exact ⟨⟨mabove_mset d (by omega) x m hm.1.1, hm.1.2⟩, mwf_mset k x m hm.2⟩

theorem mwf_msets (l : List (Nat × α)) : ∀ m : SMap α, mwf d m = true → mwf d (msets d m l) = true := by
  induction l with
  | nil => intro m hm; exact hm
  | cons e l ih => intro m hm; exact ih _ (mwf_mset d e.1 e.2 m hm)

@[simp] theorem vget_vset_same {β : Type} {n : Nat} (v : Vector β n) (i : Fin n) (x : β) : vget (vset v i x) i = x := by
  simp [vget, vset]

theorem vget_vset_ne {β : Type} {n : Nat} (v : Vector β n) {i j : Fin n} (h : j ≠ i) (x : β) :
    vget (vset v i x) j = vget v j := by
  have h' : i.val ≠ j.val := fun e => h (Fin.ext e.symm)
  simp [vget, vset, Vector.getElem_set, h']

end Sys2Proof.Machine
end

