-- ==== Sys2Proof/Laws/Keeps.lean ====
section
/-! SUPPORT. `Keeps`: what every operation does to the queue, the installed DRAM, the fuses, the free values, the wires and the
form of the memories, with the rules by which it passes through the shapes of a definition. -/

namespace Sys2Proof

open Machine

/-- What every operation does: `Follows`, the memories keep their form, and programmed fuses stay. -/
structure Keeps (s t : State) : Prop where
  follows : Follows s t
  wf : Memory.Wf s → Memory.Wf t
  fuses : Memory.Wf s → FusesStay s t

/-- `Keeps` of an answer. -/
structure KeepsOut (s : State) (o : Out) : Prop where
  keeps : ∀ t, o = .next t → Keeps s t

/-- `Keeps` of a state that may be absent. -/
structure KeepsOpt (s : State) (o : Option State) : Prop where
  keeps : ∀ t, o = some t → Keeps s t

/-- `Keeps` of the state in a pair that may be absent. -/
structure KeepsOptSnd {α : Type} (s : State) (o : Option (α × State)) : Prop where
  keeps : ∀ a t, o = some (a, t) → Keeps s t

/-- The memories of a core are in their canonical form. -/
abbrev CoreWf (c : Core) : Prop := coreWf c = true

namespace CoreWf

theorem iff {c : Core} : CoreWf c ↔ mwf (dflt 0) c.imem = true ∧ mwf (dflt false) c.imemBad = true ∧ mwf (dflt 0) c.smem = true
    ∧ mwf (dflt false) c.smemBad = true ∧ mwf zeroWord c.sp = true ∧ mwf zeroWord c.awn = true := by
  simp only [CoreWf, coreWf, Bool.and_eq_true, and_assoc]

theorem sp_wf {c : Core} (h : CoreWf c) : mwf zeroWord c.sp = true := (iff.1 h).2.2.2.2.1

theorem awn_wf {c : Core} (h : CoreWf c) : mwf zeroWord c.awn = true := (iff.1 h).2.2.2.2.2

theorem sp {c : Core} (h : CoreWf c) {m : SMap SpWord} (hm : mwf zeroWord m = true) : CoreWf { c with sp := m } := by
  obtain ⟨a, b, d, e, _, g⟩ := iff.1 h
  exact iff.2 ⟨a, b, d, e, hm, g⟩

theorem awn {c : Core} (h : CoreWf c) {m : SMap SpWord} (hm : mwf zeroWord m = true) : CoreWf { c with awn := m } := by
  obtain ⟨a, b, d, e, g, _⟩ := iff.1 h
  exact iff.2 ⟨a, b, d, e, g, hm⟩

end CoreWf

/-- `CoreWf` of a core that the operations made from a state with well-formed memories. -/
structure CoreOk (s : State) (c : Core) : Prop where
  wf : Memory.Wf s → CoreWf c

namespace CoreOk

theorem upd {s : State} {c : Core}
    {ctx : Vector Ctx 3} {spares : List Nat} {remapped : List Nat} {initing : Bool} {waking : Bool} {initAt : Nat} {held :
    List HeldAcc} {scrubbing : Bool} {scrubDue : Bool} {scrubPos : Nat} {scrubAt : Nat} {scrubQ : List Nat} {scrubCe : SMap
    Nat} {retLost : Bool} {weightWrite : List (Nat × Nat)} {ring : List GRow} {pairHeld : List HeldRow} {pairDig : List (Nat × BitVec
    64)} {outSeq : SMap Nat} {log : List LogPkt} {logLost : Nat} {logSince : Nat} {logFirst : Bool} {logFlush : Bool}
    {logFlushAt : Nat} {sleepTo : Nat} {idleSince : Nat} {digRow : Nat} {digCnt : Nat} {digBusy : Bool} {digHi : BitVec 32}
    {cycAcc : Nat} {quarPending : Bool}
    (h : CoreOk s c) : CoreOk s (Core.mk
    ctx c.imem c.imemBad c.smem c.smemBad c.sp c.awn spares remapped initing waking initAt held scrubbing scrubDue scrubPos
    scrubAt scrubQ scrubCe retLost weightWrite ring pairHeld pairDig outSeq log logLost logSince logFirst logFlush
    logFlushAt sleepTo idleSince digRow digCnt digBusy digHi cycAcc quarPending) := ⟨fun w => h.wf w⟩

theorem put {s : State} {c : Core}
    {ctx : Vector Ctx 3} {imem : SMap (BitVec 64)} {imemBad : SMap Bool} {smem : SMap (BitVec 8)} {smemBad : SMap Bool}
    {sp : SMap SpWord} {awn : SMap SpWord} {spares : List Nat} {remapped : List Nat} {initing : Bool} {waking : Bool}
    {initAt : Nat} {held : List HeldAcc} {scrubbing : Bool} {scrubDue : Bool} {scrubPos : Nat} {scrubAt : Nat} {scrubQ :
    List Nat} {scrubCe : SMap Nat} {retLost : Bool} {weightWrite : List (Nat × Nat)} {ring : List GRow} {pairHeld : List HeldRow}
    {pairDig : List (Nat × BitVec 64)} {outSeq : SMap Nat} {log : List LogPkt} {logLost : Nat} {logSince : Nat} {logFirst
    : Bool} {logFlush : Bool} {logFlushAt : Nat} {sleepTo : Nat} {idleSince : Nat} {digRow : Nat} {digCnt : Nat} {digBusy
    : Bool} {digHi : BitVec 32} {cycAcc : Nat} {quarPending : Bool}
    (h : CoreOk s c) (h₁ : mwf (dflt 0) c.imem = true → mwf (dflt 0) imem = true)
    (h₂ : mwf (dflt false) c.imemBad = true → mwf (dflt false) imemBad = true)
    (h₃ : mwf (dflt 0) c.smem = true → mwf (dflt 0) smem = true)
    (h₄ : mwf (dflt false) c.smemBad = true → mwf (dflt false) smemBad = true)
    (h₅ : mwf zeroWord c.sp = true → mwf zeroWord sp = true)
    (h₆ : mwf zeroWord c.awn = true → mwf zeroWord awn = true) : CoreOk s (Core.mk
    ctx imem imemBad smem smemBad sp awn spares remapped initing waking initAt held scrubbing scrubDue scrubPos scrubAt
    scrubQ scrubCe retLost weightWrite ring pairHeld pairDig outSeq log logLost logSince logFirst logFlush logFlushAt
    sleepTo idleSince digRow digCnt digBusy digHi cycAcc quarPending) := by
  refine ⟨fun w => ?_⟩
  obtain ⟨a, b, d, e, f, g⟩ := CoreWf.iff.1 (h.wf w)
  exact CoreWf.iff.2 ⟨h₁ a, h₂ b, h₃ d, h₄ e, h₅ f, h₆ g⟩

theorem ite {s : State} {a b : Core} {p : Prop} [Decidable p] (ha : CoreOk s a) (hb : CoreOk s b) :
    CoreOk s (if p then a else b) := by
  split <;> assumption

theorem cut (s : State) {P : Prop} (x : Core) (h : CoreOk s x) (k : CoreOk s x → P) : P := k h

end CoreOk

namespace Keeps

/-- The usual step: what `Follows` says, a rule for the form of the memories, and the same fuses. -/
theorem of {s t : State} (p : t.pending = s.pending) (d : t.ddrSize = s.ddrSize) (f : s.free ≤ t.free) (w : s.wire <:+ t.wire)
    (m : Memory.Wf s → Memory.Wf t) (e : t.sec.fuses = s.sec.fuses) : Keeps s t :=
  ⟨⟨p, d, f, w⟩, m, fun _ w b h => by simpa only [fuseBit, e] using h⟩

theorem refl (s : State) : Keeps s s := of rfl rfl (Nat.le_refl _) (List.suffix_refl _) id rfl

theorem trans {s t u : State} (h : Keeps s t) (k : Keeps t u) : Keeps s u :=
  ⟨⟨k.1.1.trans h.1.1, k.1.2.trans h.1.2, Nat.le_trans h.1.3 k.1.3, h.1.4.trans k.1.4⟩, fun x => k.2 (h.2 x),
    fun x w b y => k.3 (h.2 x) w b (h.3 x w b y)⟩

theorem ite {s a b : State} {c : Prop} [Decidable c] (ha : Keeps s a) (hb : Keeps s b) : Keeps s (if c then a else b) := by
  split <;> assumption

theorem elim {α : Type} {s n : State} {f : α → State} {o : Option α} (hn : Keeps s n) (hf : ∀ a, Keeps s (f a)) :
    Keeps s (o.elim n f) := by
  cases o with
  | none => exact hn
  | some a => exact hf a

theorem ite_snd {α : Type} {s : State} {a b : α × State} {c : Prop} [Decidable c] (ha : Keeps s a.2) (hb : Keeps s b.2) :
    Keeps s (if c then a else b).2 := by
  split <;> assumption

theorem ite_fst {α : Type} {s : State} {a b : State × α} {c : Prop} [Decidable c] (ha : Keeps s a.1) (hb : Keeps s b.1) :
    Keeps s (if c then a else b).1 := by
  split <;> assumption

theorem ite_snd₂ {α β : Type} {s : State} {a b : α × β × State} {c : Prop} [Decidable c] (ha : Keeps s a.2.2)
    (hb : Keeps s b.2.2) : Keeps s (if c then a else b).2.2 := by
  split <;> assumption

theorem ite_snd₃ {α β γ : Type} {s : State} {a b : α × β × γ × State} {c : Prop} [Decidable c] (ha : Keeps s a.2.2.2)
    (hb : Keeps s b.2.2.2) : Keeps s (if c then a else b).2.2.2 := by
  split <;> assumption

theorem mk_snd {α : Type} {s t : State} {a : α} (h : Keeps s t) : Keeps s (a, t).2 := h

theorem mk_fst {α : Type} {s t : State} {a : α} (h : Keeps s t) : Keeps s (t, a).1 := h

theorem mk_snd₂ {α β : Type} {s t : State} {a : α} {b : β} (h : Keeps s t) : Keeps s (a, b, t).2.2 := h

theorem mk_snd₃ {α β γ : Type} {s t : State} {a : α} {b : β} {c : γ} (h : Keeps s t) : Keeps s (a, b, c, t).2.2.2 := h

theorem of_snd {α : Type} {s t : State} {p : α × State} {a : α} (e : p = (a, t)) (h : Keeps s p.2) : Keeps s t := by
  subst e; exact h

theorem of_fst {α : Type} {s t : State} {p : State × α} {a : α} (e : p = (t, a)) (h : Keeps s p.1) : Keeps s t := by
  subst e; exact h

theorem of_snd₂ {α β : Type} {s t : State} {p : α × β × State} {a : α} {b : β} (e : p = (a, b, t)) (h : Keeps s p.2.2) :
    Keeps s t := by
  subst e; exact h

theorem of_snd₃ {α β γ : Type} {s t : State} {p : α × β × γ × State} {a : α} {b : β} {c : γ} (e : p = (a, b, c, t))
    (h : Keeps s p.2.2.2) : Keeps s t := by
  subst e; exact h

theorem cut (s : State) {P : Prop} (x : State) (h : Keeps s x) (k : Keeps s x → P) : P := k h

theorem foldl {α : Type} {s t : State} {f : State → α → State} (l : List α) (h : Keeps s t)
    (hf : ∀ u a, Keeps s u → Keeps s (f u a)) : Keeps s (l.foldl f t) := by
  induction l generalizing t with
  | nil => exact h
  | cons a l ih => exact ih (hf _ a h)

theorem foldl_fst {α β : Type} {s : State} {f : State × β → α → State × β} (l : List α) {p : State × β} (h : Keeps s p.1)
    (hf : ∀ q a, Keeps s q.1 → Keeps s (f q a).1) : Keeps s (l.foldl f p).1 := by
  induction l generalizing p with
  | nil => exact h
  | cons a l ih => exact ih (hf _ a h)

theorem foldl_snd {α β : Type} {s : State} {f : β × State → α → β × State} (l : List α) {p : β × State} (h : Keeps s p.2)
    (hf : ∀ q a, Keeps s q.2 → Keeps s (f q a).2) : Keeps s (l.foldl f p).2 := by
  induction l generalizing p with
  | nil => exact h
  | cons a l ih => exact ih (hf _ a h)

theorem forCores {s t : State} {f : Fin 8 → State → State} (h : Keeps s t)
    (hf : ∀ k u, Keeps s u → Keeps s (f k u)) : Keeps s (t.forCores f) :=
  foldl _ h (fun u k => hf k u)

theorem upd {s t : State}
    {off : Bool} {time : TimeSt} {fsg : Vector FsgSt 4} {brg : BrgSt} {flt : FltSt} {jobs : List Job} {intake : InSt} {edge
    : EdgeSt} {out : OutSt} {host : HostSt} {cof : CofSt} {lnk : LnkSt} {pkgs : List Pkg} {dig : DigSt} {sec : SecSt} {pwr :
    PwrSt} {trc : TrcSt} {sto : StoSt} {fwLocks : List Nat} {free : Nat}
    (h : Keeps s t) (hsec : sec.fuses = t.sec.fuses) (hcof : cof.sram = t.cof.sram) (hfree : t.free ≤ free) :
    Keeps s (State.mk
    t.pending t.regs t.force off time fsg brg flt t.cores jobs intake edge out host cof lnk pkgs dig sec pwr trc sto fwLocks
    t.ddrSize t.dram t.dramPoison t.dramBad t.hostMem free t.wire) := by
  exact h.trans (of rfl rfl hfree (List.suffix_refl _) (fun w =>
    ⟨w.regs, w.force, w.dram, w.dramPoison, w.dramBad, w.hostMem, hsec ▸ w.fuses, hcof ▸ w.sram, w.cores⟩) hsec)

theorem upd₀ {s t : State}
    {off : Bool} {time : TimeSt} {fsg : Vector FsgSt 4} {brg : BrgSt} {flt : FltSt} {jobs : List Job} {intake : InSt} {edge
    : EdgeSt} {out : OutSt} {host : HostSt} {lnk : LnkSt} {pkgs : List Pkg} {dig : DigSt} {pwr :
    PwrSt} {trc : TrcSt} {sto : StoSt} {fwLocks : List Nat} (h : Keeps s t) :
    Keeps s (State.mk
    t.pending t.regs t.force off time fsg brg flt t.cores jobs intake edge out host t.cof lnk pkgs dig t.sec pwr trc sto fwLocks
    t.ddrSize t.dram t.dramPoison t.dramBad t.hostMem t.free t.wire) :=
  h.upd rfl rfl (Nat.le_refl _)

theorem core {s t : State} (h : Keeps s t) (k : Fin 8) : CoreOk s (t.core k) := ⟨fun w => (h.wf w).cores k⟩

theorem setCore {s t : State} (h : Keeps s t) (k : Fin 8) {c : Core} (hc : CoreOk s c) : Keeps s (t.setCore k c) := by
  refine ⟨⟨h.1.1, h.1.2, h.1.3, h.1.4⟩, fun w => ?_, h.3⟩
  have u := h.wf w
  refine ⟨u.regs, u.force, u.dram, u.dramPoison, u.dramBad, u.hostMem, u.fuses, u.sram, fun j => ?_⟩
  by_cases e : j = k
  · subst e; simpa [State.setCore, State.core] using hc.wf w
  · simpa [State.setCore, State.core, vget_vset_ne _ e] using u.cores j

end Keeps

theorem KeepsOptSnd.of {α : Type} {s t : State} {o : Option (α × State)} {a : α} (e : o = some (a, t))
    (h : KeepsOptSnd s o) : Keeps s t := h.keeps a t e

namespace KeepsOptSnd

theorem none {α : Type} {s : State} : KeepsOptSnd (α := α) s none := ⟨fun _ _ e => nomatch e⟩

theorem some {α : Type} {s : State} {p : α × State} (h : Keeps s p.2) : KeepsOptSnd s (some p) :=
  ⟨fun a t e => by injection e with e; subst e; exact h⟩

theorem ite {α : Type} {s : State} {a b : Option (α × State)} {c : Prop} [Decidable c] (ha : KeepsOptSnd s a)
    (hb : KeepsOptSnd s b) : KeepsOptSnd s (if c then a else b) := by
  split <;> assumption

end KeepsOptSnd

namespace KeepsOpt

theorem none {s : State} : KeepsOpt s none := ⟨fun _ e => nomatch e⟩

theorem some {s t : State} (h : Keeps s t) : KeepsOpt s (some t) := ⟨fun u e => by injection e with e; exact e ▸ h⟩

theorem ite {s : State} {a b : Option State} {c : Prop} [Decidable c] (ha : KeepsOpt s a) (hb : KeepsOpt s b) :
    KeepsOpt s (if c then a else b) := by
  split <;> assumption

theorem bind {s : State} {f : State → Option State} {o : Option State} (ho : KeepsOpt s o)
    (hf : ∀ u, Keeps s u → KeepsOpt s (f u)) : KeepsOpt s (o.bind f) := by
  cases o with
  | none => exact none
  | some a => exact hf a (ho.keeps a rfl)

theorem of {s t : State} {o : Option State} (e : o = Option.some t) (h : KeepsOpt s o) : Keeps s t := h.keeps t e

end KeepsOpt

theorem Keeps.elimS {s n : State} {f : State → State} {o : Option State} (hn : Keeps s n) (ho : KeepsOpt s o)
    (hf : ∀ u, Keeps s u → Keeps s (f u)) : Keeps s (o.elim n f) := by
  cases o with
  | none => exact hn
  | some a => exact hf a (ho.keeps a rfl)

theorem KeepsOpt.elimS {s : State} {n : Option State} {f : State → Option State} {o : Option State} (hn : KeepsOpt s n)
    (ho : KeepsOpt s o) (hf : ∀ u, Keeps s u → KeepsOpt s (f u)) : KeepsOpt s (o.elim n f) := by
  cases o with
  | none => exact hn
  | some a => exact hf a (ho.keeps a rfl)

theorem KeepsOpt.elim {α : Type} {s : State} {n : Option State} {f : α → Option State} {o : Option α} (hn : KeepsOpt s n)
    (hf : ∀ a, KeepsOpt s (f a)) : KeepsOpt s (o.elim n f) := by
  cases o with
  | none => exact hn
  | some a => exact hf a

theorem KeepsOpt.map {α : Type} {s : State} {f : α → State} {o : Option α} (hf : ∀ a, Keeps s (f a)) : KeepsOpt s (o.map f) := by
  cases o with
  | none => exact .none
  | some a => exact .some (hf a)

theorem KeepsOut.elimS {s : State} {n : Out} {f : State → Out} {o : Option State} (hn : KeepsOut s n) (ho : KeepsOpt s o)
    (hf : ∀ u, Keeps s u → KeepsOut s (f u)) : KeepsOut s (o.elim n f) := by
  cases o with
  | none => exact hn
  | some a => exact hf a (ho.keeps a rfl)

theorem Keeps.getD {s d : State} {o : Option State} (hd : Keeps s d) (ho : KeepsOpt s o) : Keeps s (o.getD d) := by
  cases o with
  | none => exact hd
  | some a => exact ho.keeps a rfl

namespace KeepsOut

theorem elim {α : Type} {s : State} {n : Out} {f : α → Out} {o : Option α} (hn : KeepsOut s n)
    (hf : ∀ a, KeepsOut s (f a)) : KeepsOut s (o.elim n f) := by
  cases o with
  | none => exact hn
  | some a => exact hf a

theorem next {s t : State} (h : Keeps s t) : KeepsOut s (.next t) := by
  constructor
  intro u e; injection e with e; exact e ▸ h

theorem ite {s : State} {a b : Out} {c : Prop} [Decidable c] (ha : KeepsOut s a) (hb : KeepsOut s b) :
    KeepsOut s (if c then a else b) := by
  split <;> assumption

end KeepsOut

end Sys2Proof
end

