-- ==== Sys2Proof/Laws/KeepsOps.lean ====
section
/-! SUPPORT. `Keeps` of the operations of Sys2Proof/Machine/Ops.lean. -/

set_option linter.unusedTactic false
set_option linter.unreachableTactic false
set_option linter.tactic.unusedName false
set_option linter.unusedVariables false

namespace Sys2Proof

open Machine

theorem setReg_keeps {s₀ s : State} (off : Nat) (v : Word) (h₀ : Keeps s₀ s) : Keeps s₀ (State.setReg s off v) :=
  h₀.trans (.of rfl rfl (Nat.le_refl _) (List.suffix_refl _) (fun w => { w with regs := mwf_mset _ _ _ _ w.regs }) rfl)

theorem setForce_keeps {s₀ s : State} (off : Nat) (v : Word) (h₀ : Keeps s₀ s) : Keeps s₀ (State.setForce s off v) :=
  h₀.trans (.of rfl rfl (Nat.le_refl _) (List.suffix_refl _) (fun w => { w with force := mwf_mset _ _ _ _ w.force }) rfl)

theorem takeForce_keeps {s₀ : State} {s : State} (off : Nat) (h₀ : Keeps s₀ s) :
    Keeps s₀ (State.takeForce s off) := by
  unfold State.takeForce
  apply setForce_keeps; assumption

theorem setF_keeps {s₀ : State} {s : State} (f : Fld) (v : Nat) (h₀ : Keeps s₀ s) :
    Keeps s₀ (State.setF s f v) := by
  unfold State.setF
  apply setReg_keeps; assumption

theorem bump_keeps {s₀ : State} {s : State} (f : Fld) (n : Nat) (h₀ : Keeps s₀ s) :
    Keeps s₀ (State.bump s f n) := by
  unfold State.bump
  apply setF_keeps; assumption

theorem bumpWrap_keeps {s₀ : State} {s : State} (f : Fld) (n : Nat) (h₀ : Keeps s₀ s) :
    Keeps s₀ (State.bumpWrap s f n) := by
  unfold State.bumpWrap
  apply setF_keeps; assumption

theorem takeForces_keeps {s₀ : State} {s : State} (l : List Nat) (h₀ : Keeps s₀ s) :
    Keeps s₀ (State.takeForces s l) := by
  unfold State.takeForces
  apply Keeps.foldl
  · assumption
  intro u0 u1 h2; apply takeForce_keeps; assumption

theorem setCtx_keeps {s₀ : State} {s : State} (k : Fin 8) (x : Fin 3) (c : Ctx) (h₀ : Keeps s₀ s) :
    Keeps s₀ (State.setCtx s k x c) := by
  unfold State.setCtx
  apply Keeps.setCore
  · assumption
  extract_lets +onlyGivenNames x0; refine CoreOk.cut s₀ x0 ?_ fun h1 => ?_
  · unfold x0; apply Keeps.core; assumption
  clear_value x0; apply CoreOk.upd; assumption

theorem emit_keeps {s₀ s : State} (w : Wire) (h₀ : Keeps s₀ s) : Keeps s₀ (State.emit s w) :=
  h₀.trans (.of rfl rfl (Nat.le_refl _) (List.suffix_cons _ _) (fun w => { w with }) rfl)

theorem draw_keeps {s₀ : State} {s : State} (h₀ : Keeps s₀ s) :
    Keeps s₀ (State.draw s).2 := by
  unfold State.draw
  dsimp only; refine Keeps.upd ?_ rfl rfl (Nat.le_add_right _ _); assumption

theorem drawn_keeps {s₀ : State} {s : State} (n : Nat) (h₀ : Keeps s₀ s) :
    Keeps s₀ (State.drawn s n) := by
  unfold State.drawn
  refine Keeps.upd ?_ rfl rfl (Nat.le_add_right _ _); assumption

theorem log_keeps {s₀ : State} {s : State} (k : Fin 8) (ctx : Nat) (unit : Nat) (typ : Nat) (val : Nat) (h₀ : Keeps s₀
    s) :
    Keeps s₀ (State.log s k ctx unit typ val) := by
  unfold State.log
  extract_lets +onlyGivenNames x0; apply Keeps.ite
  · assumption
  extract_lets +onlyGivenNames x1; refine CoreOk.cut s₀ x1 ?_ fun h2 => ?_
  · unfold x1; apply Keeps.core; assumption
  clear_value x1; apply Keeps.ite
  · apply Keeps.setCore
    · assumption
    apply CoreOk.upd; assumption
  extract_lets +onlyGivenNames x3; refine Keeps.cut s₀ x3 ?_ fun h4 => ?_
  · unfold x3; apply Keeps.setCore
    · assumption
    apply CoreOk.upd; assumption
  clear_value x3; apply setF_keeps; assumption

theorem raiseCause_keeps {s₀ : State} {s : State} (n : Nat) (h₀ : Keeps s₀ s) :
    Keeps s₀ (State.raiseCause s n) := by
  unfold State.raiseCause
  extract_lets +onlyGivenNames x0; apply Keeps.ite
  · assumption
  extract_lets +onlyGivenNames x1; refine Keeps.cut s₀ x1 ?_ fun h2 => ?_
  · unfold x1; apply setF_keeps; assumption
  clear_value x1; apply Keeps.ite
  · apply emit_keeps; assumption
  assumption

theorem glbError_keeps {s₀ : State} {s : State} (f : Fld) (h₀ : Keeps s₀ s) :
    Keeps s₀ (State.glbError s f) := by
  unfold State.glbError
  apply raiseCause_keeps; apply setF_keeps; assumption

theorem report_keeps {s₀ : State} {s : State} (r : FRec) (h₀ : Keeps s₀ s) :
    Keeps s₀ (State.report s r) := by
  unfold State.report
  apply Keeps.upd₀; assumption

theorem reportAft_keeps {s₀ : State} {s : State} (r : FRec) (h₀ : Keeps s₀ s) :
    Keeps s₀ (State.reportAft s r) := by
  unfold State.reportAft
  extract_lets +onlyGivenNames x0; refine Keeps.cut s₀ x0 ?_ fun h1 => ?_
  · unfold x0; apply Keeps.ite
    · apply log_keeps; assumption
    assumption
  clear_value x0; apply Keeps.ite
  · apply Keeps.upd₀; assumption
  apply Keeps.upd₀; assumption

theorem putRow_keeps {s₀ s : State} (k : Fin 8) (r : Nat) (ws : Row) (h₀ : Keeps s₀ s) : Keeps s₀ (State.putRow s k r ws) := by
  have h : Keeps s₀ (s.setCore k { s.core k with sp := msets zeroWord (s.core k).sp (rowWords s.free ws (r * 64)) }) :=
    h₀.setCore k ⟨fun w => CoreWf.sp ((h₀.core k).wf w) (mwf_msets _ _ _ (CoreWf.sp_wf ((h₀.core k).wf w)))⟩
  exact h.upd rfl rfl (Nat.le_add_right _ _)

theorem putAwn_keeps {s₀ s : State} (k : Fin 8) (r : Nat) (ws : Row) (h₀ : Keeps s₀ s) : Keeps s₀ (State.putAwn s k r ws) := by
  have h : Keeps s₀ (s.setCore k { s.core k with awn := msets zeroWord (s.core k).awn (rowWords s.free ws (r * 64)) }) :=
    h₀.setCore k ⟨fun w => CoreWf.awn ((h₀.core k).wf w) (mwf_msets _ _ _ (CoreWf.awn_wf ((h₀.core k).wf w)))⟩
  exact h.upd rfl rfl (Nat.le_add_right _ _)

theorem noteWord_keeps {s₀ : State} {s : State} (k : Fin 8) (r : Nat) (i : Nat) (q : WordRead × BitVec 64 × BitVec 8)
    (h₀ : Keeps s₀ s) :
    Keeps s₀ (State.noteWord s k r i q) := by
  unfold State.noteWord
  extract_lets +onlyGivenNames x0; extract_lets +onlyGivenNames x2; extract_lets +onlyGivenNames x3; split
  · extract_lets +onlyGivenNames x4; refine Keeps.cut s₀ x4 ?_ fun h5 => ?_
    · unfold x4
      unfold x0
      apply setReg_keeps; apply bump_keeps; assumption
    clear_value x4; extract_lets +onlyGivenNames x6; refine CoreOk.cut s₀ x6 ?_ fun h7 => ?_
    · unfold x6
      apply Keeps.core; assumption
    clear_value x6; extract_lets +onlyGivenNames x8; extract_lets +onlyGivenNames x9; extract_lets +onlyGivenNames x10
    extract_lets +onlyGivenNames x11; refine CoreOk.cut s₀ x11 ?_ fun h12 => ?_
    · unfold x11
      apply CoreOk.upd; assumption
    clear_value x11; extract_lets +onlyGivenNames x13; refine Keeps.cut s₀ x13 ?_ fun h14 => ?_
    · unfold x13
      apply Keeps.setCore
      · assumption
      assumption
    clear_value x13; apply Keeps.ite
    · apply reportAft_keeps; assumption
    assumption
  · apply reportAft_keeps
    unfold x0
    apply setReg_keeps; apply bump_keeps; assumption
  assumption

theorem waited_keeps {s₀ : State} {s : State} (k : Fin 8) (h₀ : Keeps s₀ s) :
    Keeps s₀ (State.waited s k) := by
  unfold State.waited
  split
  rename_i r0 r1 r2 r3; refine Keeps.cut s₀ r2 (Keeps.of_snd r3 ?_) fun h4 => ?_
  · apply draw_keeps; assumption
  apply bumpWrap_keeps; assumption

theorem hopWords_keeps {s₀ : State} (k : Fin 8) (r : Nat) (flips : List Flip) (i : Nat) (a4 : Row) {a5 : State} (h₀ :
    Keeps s₀ a5) :
    Keeps s₀ (State.hopWords k r flips i a4 a5).2 := by
  induction a4 generalizing k r flips i a5 with
  | nil =>
    unfold State.hopWords
    apply Keeps.mk_snd; assumption
  | cons x l ih =>
    unfold State.hopWords
    extract_lets +onlyGivenNames x0; extract_lets +onlyGivenNames x1; split
    rename_i r2 r3 r4 r5; refine Keeps.cut s₀ r4 (Keeps.of_snd r5 ?_) fun h6 => ?_
    · apply ih; apply noteWord_keeps; assumption
    apply Keeps.mk_snd; assumption

theorem hop_keeps {s₀ : State} {s : State} (k : Fin 8) (r : Nat) (flips : List Flip) (ws : Row) (h₀ : Keeps s₀ s) :
    Keeps s₀ (State.hop s k r flips ws).2 := by
  unfold State.hop
  apply Keeps.ite_snd
  · apply Keeps.mk_snd; assumption
  apply hopWords_keeps; assumption

theorem readWords_keeps {s₀ : State} (k : Fin 8) (awn : Bool) (r : Nat) :
    ∀ (n i : Nat) {s : State}, Keeps s₀ s → Keeps s₀ (State.readWords k awn r n i s).2
  | 0, _, _, h => h
  | n + 1, i, _, h => readWords_keeps k awn r n (i + 1) (Keeps.ite h (noteWord_keeps k r i _ h))

theorem getRow_keeps {s₀ : State} {s : State} (k : Fin 8) (r : Nat) (h₀ : Keeps s₀ s) :
    Keeps s₀ (State.getRow s k r).2 := by
  unfold State.getRow
  apply readWords_keeps; assumption

theorem getAwn_keeps {s₀ : State} {s : State} (k : Fin 8) (r : Nat) (h₀ : Keeps s₀ s) :
    Keeps s₀ (State.getAwn s k r).2 := by
  unfold State.getAwn
  apply readWords_keeps; assumption

theorem setJob_keeps {s₀ : State} {s : State} (j : Job) (h₀ : Keeps s₀ s) :
    Keeps s₀ (State.setJob s j) := by
  unfold State.setJob
  apply Keeps.upd₀; assumption

theorem modJob_keeps {s₀ : State} {s : State} (id : Nat) (f : Job → Job) (h₀ : Keeps s₀ s) :
    Keeps s₀ (State.modJob s id f) := by
  unfold State.modJob
  apply Keeps.upd₀; assumption

theorem cofWord_keeps {s₀ s : State} (w : Nat) (h₀ : Keeps s₀ s) : Keeps s₀ (State.cofWord s w).2 := by
  unfold State.cofWord
  dsimp only
  split
  · exact bump_keeps _ _ (h₀.trans (.of rfl rfl (Nat.le_refl _) (List.suffix_refl _) (fun u => { u with sram := mwf_mset _ _ _ _ u.sram }) rfl))
  · exact report_keeps _ h₀
  · exact h₀

theorem cofWords_keeps {s₀ : State} (w : Nat) (a1 : Nat) {a2 : State} (h₀ : Keeps s₀ a2) :
    Keeps s₀ (State.cofWords w a1 a2).2 := by
  induction a1 generalizing w a2 with
  | zero =>
    unfold State.cofWords
    dsimp only; assumption
  | succ n ih =>
    unfold State.cofWords
    split; rename_i r0 r1 r2 r3; refine Keeps.cut s₀ r2 (Keeps.of_snd r3 ?_) fun h4 => ?_
    · apply cofWord_keeps; assumption
    split; rename_i r5 r6 r7 r8; refine Keeps.cut s₀ r7 (Keeps.of_snd r8 ?_) fun h9 => ?_
    · apply ih; assumption
    dsimp only; assumption

theorem cofPut_keeps {s₀ s : State} (w : Nat) (v : BitVec 64 × Bool) (h₀ : Keeps s₀ s) : Keeps s₀ (State.cofPut s w v) :=
  h₀.trans (.of rfl rfl (Nat.le_add_right _ _) (List.suffix_refl _) (fun u => { u with sram := mwf_mset _ _ _ _ u.sram }) rfl)

theorem cofPuts_keeps {s₀ : State} (w : Nat) (a1 : Row) {a2 : State} (h₀ : Keeps s₀ a2) :
    Keeps s₀ (State.cofPuts w a1 a2) := by
  induction a1 generalizing w a2 with
  | nil =>
    unfold State.cofPuts
    assumption
  | cons x l ih =>
    unfold State.cofPuts
    apply ih; apply cofPut_keeps; assumption

theorem cofRefuse_keeps {s₀ : State} {s : State} (h₀ : Keeps s₀ s) :
    Keeps s₀ (State.cofRefuse s) := by
  unfold State.cofRefuse
  apply bump_keeps; apply raiseCause_keeps; apply setF_keeps; assumption

theorem cofReadRun_keeps {s₀ : State} {s : State} (off : Nat) (n : Nat) (h₀ : Keeps s₀ s) :
    Keeps s₀ (State.cofReadRun s off n).2 := by
  unfold State.cofReadRun
  split
  · apply Keeps.ite_snd
    · apply Keeps.mk_snd; apply cofRefuse_keeps; assumption
    split
    rename_i r0 r1 r2 r3; refine Keeps.cut s₀ r2 (Keeps.of_snd r3 ?_) fun h4 => ?_
    · apply cofWords_keeps; assumption
    assumption
  · assumption
  apply Keeps.mk_snd; apply drawn_keeps; assumption

theorem cofHostRead_keeps {s₀ : State} {s : State} (off : Nat) (n : Nat) (h₀ : Keeps s₀ s) :
    Keeps s₀ (State.cofHostRead s off n).2 := by
  unfold State.cofHostRead
  apply Keeps.foldl_snd
  · assumption
  intro u0 u1 h2; split
  rename_i r3 r4 r5 r6; refine Keeps.cut s₀ r5 (Keeps.of_snd r6 ?_) fun h7 => ?_
  · apply cofReadRun_keeps; assumption
  assumption

theorem cofMerge_keeps {s₀ : State} {s : State} (off : Nat) (bs : List (Byte × Bool)) (w : Nat) (h₀ : Keeps s₀ s) :
    Keeps s₀ (State.cofMerge s off bs w) := by
  unfold State.cofMerge
  extract_lets +onlyGivenNames x0; extract_lets +onlyGivenNames x1; split
  rename_i r2 r3 r4 r5; refine Keeps.cut s₀ r4 (Keeps.of_snd r5 ?_) fun h6 => ?_
  · apply Keeps.ite_snd
    · assumption
    apply cofWord_keeps; assumption
  extract_lets +onlyGivenNames x7; apply cofPut_keeps; assumption

theorem cofWriteRun_keeps {s₀ : State} {s : State} (off : Nat) (bs : List (Byte × Bool)) (h₀ : Keeps s₀ s) :
    Keeps s₀ (State.cofWriteRun s off bs) := by
  unfold State.cofWriteRun
  extract_lets +onlyGivenNames x0; extract_lets +onlyGivenNames x1; split
  · apply Keeps.ite
    · apply cofRefuse_keeps; assumption
    unfold x1
    apply Keeps.foldl
    · assumption
    intro u3 u4 h5; apply cofMerge_keeps; assumption
  · assumption
  unfold x1
  apply Keeps.foldl
  · assumption
  intro u6 u7 h8; apply cofMerge_keeps; assumption

theorem cofHostWrite_keeps {s₀ : State} {s : State} (off : Nat) (bs : List (Byte × Bool)) (h₀ : Keeps s₀ s) :
    Keeps s₀ (State.cofHostWrite s off bs) := by
  unfold State.cofHostWrite
  apply Keeps.foldl
  · assumption
  intro u0 u1 h2; apply cofWriteRun_keeps; assumption

theorem setPort_keeps {s₀ : State} {s : State} (p : Fin 2) (q : LinkPort) (h₀ : Keeps s₀ s) :
    Keeps s₀ (State.setPort s p q) := by
  unfold State.setPort
  apply Keeps.upd₀; assumption

theorem portQueue_keeps {s₀ : State} {s : State} (p : Fin 2) (m : LinkMsg) (h₀ : Keeps s₀ s) :
    Keeps s₀ (State.portQueue s p m) := by
  unfold State.portQueue
  apply setPort_keeps; assumption

theorem linkSend_keeps {s₀ : State} {s : State} (m : LinkMsg) (h₀ : Keeps s₀ s) :
    KeepsOpt s₀ (State.linkSend s m) := by
  unfold State.linkSend
  split
  · apply KeepsOpt.none
  apply KeepsOpt.ite
  · apply KeepsOpt.none
  apply KeepsOpt.some; apply portQueue_keeps; assumption

theorem lnkReply_keeps {s₀ : State} {s : State} (m : LinkMsg) (opc : Nat) (data : List (BitVec 256)) (pmask : Nat) (h₀
    : Keeps s₀ s) :
    Keeps s₀ (State.lnkReply s m opc data pmask) := by
  unfold State.lnkReply
  extract_lets +onlyGivenNames x0; extract_lets +onlyGivenNames x1; apply Keeps.getD
  · assumption
  apply linkSend_keeps; assumption

theorem lnkRefuse_keeps {s₀ : State} {s : State} (m : LinkMsg) (opc : Nat) (h₀ : Keeps s₀ s) :
    Keeps s₀ (State.lnkRefuse s m opc) := by
  unfold State.lnkRefuse
  apply Keeps.ite
  · apply lnkReply_keeps; apply drawn_keeps; assumption
  apply lnkReply_keeps; assumption

theorem winWrite_keeps {s₀ : State} {s : State} (who : Nat) (c : Nat) (w : Nat) (r : Nat) (row : Row) (h₀ : Keeps s₀ s)
    :
    KeepsOpt s₀ (State.winWrite s who c w r row) := by
  unfold State.winWrite
  split
  · apply KeepsOpt.none
  extract_lets +onlyGivenNames x0; extract_lets +onlyGivenNames x1; extract_lets +onlyGivenNames x2
  apply KeepsOpt.elimS
  · apply KeepsOpt.none
  · apply linkSend_keeps; assumption
  intro u3 h4; apply KeepsOpt.some; apply Keeps.upd₀; assumption

theorem winRead_keeps {s₀ : State} {s : State} (rank : Nat) (c : Nat) (w : Nat) (r : Nat) (lo : Nat) (n : Nat) (h₀ :
    Keeps s₀ s) :
    KeepsOpt s₀ (State.winRead s rank c w r lo n) := by
  unfold State.winRead
  split
  · exact KeepsOpt.none
  extract_lets +onlyGivenNames x0; extract_lets +onlyGivenNames x1; extract_lets +onlyGivenNames x2
  extract_lets +onlyGivenNames x3; split
  · exact KeepsOpt.none
  rename_i r4 r5 r6; refine Keeps.cut s₀ r5 (KeepsOpt.of r6 ?_) fun h7 => ?_
  · apply linkSend_keeps; assumption
  apply KeepsOpt.some; apply Keeps.upd₀; assumption

theorem setIsl_keeps {s₀ : State} {s : State} (k : Fin 8) (i : Island) (h₀ : Keeps s₀ s) :
    Keeps s₀ (State.setIsl s k i) := by
  unfold State.setIsl
  apply Keeps.upd₀; assumption

theorem holdWrite_keeps {s₀ : State} {s : State} (k : Fin 8) (who : Nat) (r : Nat) (ws : Row) (h₀ : Keeps s₀ s) :
    Keeps s₀ (State.holdWrite s k who r ws) := by
  unfold State.holdWrite
  apply Keeps.setCore
  · assumption
  extract_lets +onlyGivenNames x0; refine CoreOk.cut s₀ x0 ?_ fun h1 => ?_
  · unfold x0
    apply Keeps.core; assumption
  clear_value x0; apply CoreOk.upd; assumption

theorem holdRead_keeps {s₀ : State} {s : State} (k : Fin 8) (who : Nat) (r : Nat) (lo : Nat) (n : Nat) (h₀ : Keeps s₀ s)
    :
    Keeps s₀ (State.holdRead s k who r lo n) := by
  unfold State.holdRead
  extract_lets +onlyGivenNames x0; refine CoreOk.cut s₀ x0 ?_ fun h1 => ?_
  · unfold x0
    apply Keeps.core; assumption
  clear_value x0; apply Keeps.ite
  · assumption
  apply Keeps.setCore
  · assumption
  apply CoreOk.upd; assumption

theorem dramPut_keeps {s₀ s : State} (a : Nat) (bs : List Byte) (h₀ : Keeps s₀ s) : Keeps s₀ (State.dramPut s a bs) :=
  h₀.trans (.of rfl rfl (Nat.le_refl _) (List.suffix_refl _) (fun w =>
    { w with
      dram := mwf_msets _ _ _ w.dram, dramPoison := mwf_msets _ _ _ w.dramPoison, dramBad := mwf_msets _ _ _ w.dramBad }) rfl)

theorem dramMark_keeps {s₀ s : State} (a : Nat) (ps : List Bool) (h₀ : Keeps s₀ s) : Keeps s₀ (State.dramMark s a ps) :=
  h₀.trans (.of rfl rfl (Nat.le_refl _) (List.suffix_refl _) (fun w => { w with dramPoison := mwf_msets _ _ _ w.dramPoison }) rfl)

theorem dramGet_keeps {s₀ : State} {s : State} (a : Nat) (n : Nat) (h₀ : Keeps s₀ s) :
    Keeps s₀ (State.dramGet s a n).2 := by
  unfold State.dramGet
  extract_lets +onlyGivenNames x0; extract_lets +onlyGivenNames x1; dsimp only; apply Keeps.foldl
  · assumption
  intro u2 u3 h4; apply report_keeps; assumption

theorem hostPut_keeps {s₀ s : State} (bus : Nat) (bs : List Byte) (h₀ : Keeps s₀ s) : Keeps s₀ (State.hostPut s bus bs) :=
  Keeps.ite (h₀.trans (.of rfl rfl (Nat.le_refl _) (List.suffix_refl _)
    (fun w => { w with hostMem := mwf_msets _ _ _ w.hostMem }) rfl)) h₀

theorem refuseRead_keeps {s₀ : State} {s : State} (n : Nat) (r : FRec) (h₀ : Keeps s₀ s) :
    Keeps s₀ (State.refuseRead s n r).2 := by
  unfold State.refuseRead
  dsimp only; apply drawn_keeps; apply report_keeps; assumption

theorem fwRowsGet_keeps {s₀ : State} (a0 : Nat) (a1 : Nat) {a2 : State} (h₀ : Keeps s₀ a2) :
    Keeps s₀ (State.fwRowsGet a0 a1 a2).2 := by
  induction a0 generalizing a1 a2 with
  | zero =>
    unfold State.fwRowsGet
    apply Keeps.mk_snd; assumption
  | succ n ih =>
    unfold State.fwRowsGet
    extract_lets +onlyGivenNames x0; split
    rename_i r1 r2 r3 r4; refine Keeps.cut s₀ r3 (Keeps.of_snd r4 ?_) fun h5 => ?_
    · apply Keeps.ite_snd
      · apply refuseRead_keeps; assumption
      apply Keeps.ite_snd
      · apply Keeps.mk_snd; apply drawn_keeps; assumption
      split
      rename_i r6 r7 r8 r9; refine Keeps.cut s₀ r8 (Keeps.of_snd r9 ?_) fun h10 => ?_
      · apply getRow_keeps; apply waited_keeps; assumption
      apply Keeps.mk_snd; assumption
    split
    rename_i r11 r12 r13 r14; refine Keeps.cut s₀ r13 (Keeps.of_snd r14 ?_) fun h15 => ?_
    · apply ih; assumption
    apply Keeps.mk_snd; assumption

theorem fwRowsPut_keeps {s₀ : State} (a0 : Nat) (a1 : Nat) (a2 : List (Byte × Bool)) {a3 : State} (h₀ : Keeps s₀ a3) :
    Keeps s₀ (State.fwRowsPut a0 a1 a2 a3) := by
  induction a0 generalizing a1 a2 a3 with
  | zero =>
    unfold State.fwRowsPut
    assumption
  | succ n ih =>
    unfold State.fwRowsPut
    extract_lets +onlyGivenNames x0; extract_lets +onlyGivenNames x1; extract_lets +onlyGivenNames x2
    refine Keeps.cut s₀ x2 ?_ fun h3 => ?_
    · unfold x2
      apply Keeps.ite
      · apply report_keeps; assumption
      apply Keeps.ite
      · assumption
      apply Keeps.ite
      · apply holdWrite_keeps; assumption
      apply putRow_keeps; apply waited_keeps; assumption
    clear_value x2; apply ih; assumption

theorem fwWinAsk_keeps {s₀ : State} (c w n r : Nat) {s : State} (h₀ : Keeps s₀ s) :
    KeepsOpt s₀ (State.fwWinAsk c w n r s) := by
  induction n generalizing r s with
  | zero => exact .some h₀
  | succ n ih => exact (winRead_keeps _ _ _ _ _ _ h₀).bind fun _ h => ih _ h

theorem fwWinPut_keeps {s₀ : State} (c w n r : Nat) (bs : List (Byte × Bool)) {s : State} (h₀ : Keeps s₀ s) :
    KeepsOpt s₀ (State.fwWinPut c w n r bs s) := by
  induction n generalizing r bs s with
  | zero => exact .some h₀
  | succ n ih => exact (winWrite_keeps _ _ _ _ _ h₀).bind fun _ h => ih _ _ h

theorem fwGet_keeps {s₀ : State} {s : State} (a : Nat) (n : Nat) (h₀ : Keeps s₀ s) :
    Keeps s₀ (State.fwGet s a n).2 := by
  unfold State.fwGet
  split
  · apply Keeps.ite_snd
    · apply refuseRead_keeps; assumption
    split
    · apply refuseRead_keeps; assumption
    apply dramGet_keeps; assumption
  · split
    · apply Keeps.mk_snd; assumption
    apply refuseRead_keeps; assumption
  · apply Keeps.ite_snd
    · apply refuseRead_keeps; assumption
    apply fwRowsGet_keeps; assumption
  · apply Keeps.ite_snd
    · apply cofHostRead_keeps; assumption
    apply refuseRead_keeps; assumption
  · apply Keeps.ite_snd
    · apply Keeps.mk_snd; apply drawn_keeps; assumption
    split
    · rename_i r0 r1 r2; refine Keeps.cut s₀ r1 (KeepsOpt.of r2 ?_) fun h3 => ?_
      · apply fwWinAsk_keeps; assumption
      apply Keeps.mk_snd; apply drawn_keeps; assumption
    apply refuseRead_keeps; assumption
  apply refuseRead_keeps; assumption

theorem fwPut_keeps {s₀ : State} {s : State} (a : Nat) (bs : List Byte) (h₀ : Keeps s₀ s) :
    Keeps s₀ (State.fwPut s a bs) := by
  unfold State.fwPut
  extract_lets +onlyGivenNames x0; extract_lets +onlyGivenNames x1; split
  · apply Keeps.ite
    · apply report_keeps; assumption
    split
    · apply report_keeps; assumption
    apply dramPut_keeps; assumption
  · apply hostPut_keeps; assumption
  · apply Keeps.ite
    · apply report_keeps; assumption
    apply fwRowsPut_keeps; assumption
  · apply Keeps.ite
    · apply cofHostWrite_keeps; assumption
    apply report_keeps; assumption
  · apply Keeps.ite
    · apply report_keeps; assumption
    apply Keeps.ite
    · assumption
    apply Keeps.getD
    · apply report_keeps; assumption
    apply fwWinPut_keeps; assumption
  apply report_keeps; assumption

theorem cqWrite_keeps {s₀ : State} {s : State} (b : Fin 2) (c : CplEntry) (h₀ : Keeps s₀ s) :
    Keeps s₀ (State.cqWrite s b c) := by
  unfold State.cqWrite
  extract_lets +onlyGivenNames x0; extract_lets +onlyGivenNames x1; extract_lets +onlyGivenNames x2
  refine Keeps.cut s₀ x2 ?_ fun h3 => ?_
  · unfold x2; apply fwPut_keeps; assumption
  clear_value x2; extract_lets +onlyGivenNames x4; extract_lets +onlyGivenNames x5
  refine Keeps.cut s₀ x5 ?_ fun h6 => ?_
  · unfold x5; apply setF_keeps; assumption
  clear_value x5; extract_lets +onlyGivenNames x7; refine Keeps.cut s₀ x7 ?_ fun h8 => ?_
  · unfold x7; apply Keeps.ite
    · apply setF_keeps; assumption
    assumption
  clear_value x7; apply Keeps.ite
  · apply raiseCause_keeps; assumption
  assumption

theorem setRing_keeps {s₀ : State} {s : State} (b : Fin 2) (r : RingSt) (h₀ : Keeps s₀ s) :
    Keeps s₀ (State.setRing s b r) := by
  unfold State.setRing
  apply Keeps.upd₀; assumption

theorem post_keeps {s₀ : State} {s : State} (b : Fin 2) (c : CplEntry) (h₀ : Keeps s₀ s) :
    Keeps s₀ (State.post s b c) := by
  unfold State.post
  extract_lets +onlyGivenNames x0; extract_lets +onlyGivenNames x1; apply Keeps.ite
  · apply Keeps.ite
    · apply setRing_keeps; assumption
    apply Keeps.ite
    · apply bump_keeps; assumption
    assumption
  apply cqWrite_keeps; assumption

theorem complete_keeps {s₀ : State} {s : State} (b : Fin 2) (tag : Nat) (opc : Nat) (result : Nat) (vals : List Byte)
    (h₀ : Keeps s₀ s) :
    Keeps s₀ (State.complete s b tag opc result vals) := by
  unfold State.complete
  extract_lets +onlyGivenNames x0; extract_lets +onlyGivenNames x1; extract_lets +onlyGivenNames x2
  extract_lets +onlyGivenNames x3; refine Keeps.cut s₀ x3 ?_ fun h4 => ?_
  · unfold x3
    apply setRing_keeps; assumption
  clear_value x3; apply post_keeps; assumption

theorem stopReply_keeps {s₀ : State} {s : State} (id : Nat) (vals : List Byte) (h₀ : Keeps s₀ s) :
    Keeps s₀ (State.stopReply s id vals) := by
  unfold State.stopReply
  extract_lets +onlyGivenNames x0; unfold x0; apply Keeps.foldl
  · apply Keeps.foldl
    · assumption
    intro u1 u2 h3; apply complete_keeps; assumption
  intro u4 u5 h6; apply complete_keeps; assumption

theorem jobEnd_keeps {s₀ : State} {s : State} (j : Job) (final : Nat) (h₀ : Keeps s₀ s) :
    Keeps s₀ (State.jobEnd s j final) := by
  unfold State.jobEnd
  split
  · assumption
  apply post_keeps; assumption

theorem endReply_keeps {s₀ : State} {s : State} (j : Job) (final : Nat) (h₀ : Keeps s₀ s) :
    Keeps s₀ (State.endReply s j final) := by
  unfold State.endReply
  apply Keeps.ite
  · apply stopReply_keeps; assumption
  apply jobEnd_keeps; assumption

theorem settle_keeps {s₀ : State} {s : State} (k : Fin 8) (h₀ : Keeps s₀ s) :
    Keeps s₀ (State.settle s k) := by
  unfold State.settle
  extract_lets +onlyGivenNames x0; extract_lets +onlyGivenNames x1; extract_lets +onlyGivenNames x2
  extract_lets +onlyGivenNames x3; extract_lets +onlyGivenNames x4; extract_lets +onlyGivenNames x5
  extract_lets +onlyGivenNames x6; refine Keeps.cut s₀ x6 ?_ fun h7 => ?_
  · unfold x6; apply setF_keeps; assumption
  clear_value x6; extract_lets +onlyGivenNames x8; refine CoreOk.cut s₀ x8 ?_ fun h9 => ?_
  · unfold x8; apply Keeps.core; assumption
  clear_value x8; extract_lets +onlyGivenNames x10; refine Keeps.cut s₀ x10 ?_ fun h11 => ?_
  · unfold x10; apply Keeps.ite
    · apply setF_keeps; apply Keeps.setCore
      · assumption
      apply CoreOk.upd; assumption
    assumption
  clear_value x10; apply Keeps.ite
  · apply Keeps.setCore
    · apply setF_keeps; assumption
    extract_lets +onlyGivenNames x12; refine CoreOk.cut s₀ x12 ?_ fun h13 => ?_
    · unfold x12; apply Keeps.core; assumption
    clear_value x12; apply CoreOk.upd; assumption
  apply Keeps.ite
  · apply setF_keeps; assumption
  assumption

theorem settleDev_keeps {s₀ : State} {s : State} (h₀ : Keeps s₀ s) :
    Keeps s₀ (State.settleDev s) := by
  unfold State.settleDev
  extract_lets +onlyGivenNames x0; apply Keeps.ite
  · apply setF_keeps; assumption
  apply Keeps.ite
  · apply setF_keeps; assumption
  assumption

theorem setHalted_keeps {s₀ : State} {s : State} (k : Fin 8) (x : Fin 3) (v : Nat) (h₀ : Keeps s₀ s) :
    Keeps s₀ (State.setHalted s k x v) := by
  unfold State.setHalted
  apply Keeps.ite
  · apply setF_keeps; assumption
  apply Keeps.ite
  · apply setF_keeps; assumption
  assumption

theorem haltJob_keeps {s₀ : State} {s : State} (id : Nat) (h₀ : Keeps s₀ s) :
    Keeps s₀ (State.haltJob s id) := by
  unfold State.haltJob
  apply Keeps.forCores
  · assumption
  intro u0 u1 h2; extract_lets +onlyGivenNames x3; refine CoreOk.cut s₀ x3 ?_ fun h4 => ?_
  · unfold x3
    apply Keeps.core; assumption
  clear_value x3; extract_lets +onlyGivenNames x5; extract_lets +onlyGivenNames x6; extract_lets +onlyGivenNames x7
  refine Keeps.cut s₀ x7 ?_ fun h8 => ?_
  · unfold x7
    apply Keeps.setCore
    · assumption
    apply CoreOk.upd; assumption
  clear_value x7; apply settle_keeps; apply Keeps.foldl
  · assumption
  intro u9 u10 h11; apply setHalted_keeps; assumption

theorem killJob_keeps {s₀ : State} {s : State} (id : Nat) (cls : Nat) (h₀ : Keeps s₀ s) :
    Keeps s₀ (State.killJob s id cls) := by
  unfold State.killJob
  split
  · assumption
  apply Keeps.ite
  · assumption
  extract_lets +onlyGivenNames x0; refine Keeps.cut s₀ x0 ?_ fun h1 => ?_
  · unfold x0
    apply haltJob_keeps; assumption
  clear_value x0; extract_lets +onlyGivenNames x2; extract_lets +onlyGivenNames x3; extract_lets +onlyGivenNames x4
  extract_lets +onlyGivenNames x5; extract_lets +onlyGivenNames x6; refine Keeps.cut s₀ x6 ?_ fun h7 => ?_
  · unfold x6
    apply setJob_keeps; assumption
  clear_value x6; extract_lets +onlyGivenNames x8; refine Keeps.cut s₀ x8 ?_ fun h9 => ?_
  · unfold x8
    apply Keeps.ite
    · apply setF_keeps; apply setF_keeps; assumption
    assumption
  clear_value x8; apply endReply_keeps; apply settleDev_keeps; assumption

theorem tellPoison_keeps {s₀ : State} {s : State} (r : FRec) (h₀ : Keeps s₀ s) :
    Keeps s₀ (State.tellPoison s r) := by
  unfold State.tellPoison
  extract_lets +onlyGivenNames x0; extract_lets +onlyGivenNames x2; split
  · unfold x0
    apply Keeps.ite
    · apply reportAft_keeps; assumption
    apply report_keeps; assumption
  apply Keeps.ite
  · assumption
  unfold x0
  apply Keeps.ite
  · apply reportAft_keeps; apply Keeps.upd₀; assumption
  apply report_keeps; apply Keeps.upd₀; assumption

theorem poisonCommit_keeps {s₀ : State} {s : State} (id : Nat) (gate : Nat) (unit : Nat) (addr : Nat) (akind : Nat) (h₀
    : Keeps s₀ s) :
    Keeps s₀ (State.poisonCommit s id gate unit addr akind) := by
  unfold State.poisonCommit
  extract_lets +onlyGivenNames x0; extract_lets +onlyGivenNames x1; extract_lets +onlyGivenNames x2
  refine Keeps.cut s₀ x2 ?_ fun h3 => ?_
  · unfold x2
    apply modJob_keeps; apply tellPoison_keeps; assumption
  clear_value x2; apply Keeps.upd₀; assumption

theorem suspect_keeps {s₀ : State} {s : State} (k : Fin 8) (job : Nat) (stripe : Nat) (h₀ : Keeps s₀ s) :
    Keeps s₀ (State.suspect s k job stripe) := by
  unfold State.suspect
  apply Keeps.upd₀; assumption

theorem pathParity_keeps {s₀ : State} {s : State} (k : Fin 8) (uid : Nat) (i : UInst) (h₀ : Keeps s₀ s) :
    Keeps s₀ (State.pathParity s k uid i) := by
  unfold State.pathParity
  extract_lets +onlyGivenNames x0; extract_lets +onlyGivenNames x1; apply suspect_keeps; apply reportAft_keeps
  apply bump_keeps; assumption

theorem setCause_keeps {s₀ : State} {s : State} (k : Fin 8) (x : Fin 3) (cause : Nat) (h₀ : Keeps s₀ s) :
    Keeps s₀ (State.setCause s k x cause) := by
  unfold State.setCause
  apply Keeps.ite
  · apply setF_keeps; assumption
  apply Keeps.ite
  · apply setF_keeps; assumption
  assumption

theorem raise_keeps {s₀ : State} {s : State} (k : Fin 8) (x : Fin 3) (pc : Nat) (cause : Nat) (tok : Option Nat) (trap
    : Nat) (h₀ : Keeps s₀ s) :
    Keeps s₀ (State.raise s k x pc cause tok trap) := by
  unfold State.raise
  extract_lets +onlyGivenNames x0; extract_lets +onlyGivenNames x1; extract_lets +onlyGivenNames x2
  refine Keeps.cut s₀ x2 ?_ fun h3 => ?_
  · unfold x2; apply setCause_keeps; assumption
  clear_value x2; extract_lets +onlyGivenNames x4; refine Keeps.cut s₀ x4 ?_ fun h5 => ?_
  · unfold x4; apply log_keeps; assumption
  clear_value x4; extract_lets +onlyGivenNames x6; apply Keeps.ite
  · unfold x6; extract_lets +onlyGivenNames x7; refine Keeps.cut s₀ x7 ?_ fun h8 => ?_
    · unfold x7; apply setHalted_keeps; apply setCtx_keeps; assumption
    clear_value x7; apply reportAft_keeps; assumption
  split
  · apply setCtx_keeps; assumption
  apply Keeps.ite
  · apply setCtx_keeps; assumption
  unfold x6; extract_lets +onlyGivenNames x9; refine Keeps.cut s₀ x9 ?_ fun h10 => ?_
  · unfold x9; apply setHalted_keeps; apply setCtx_keeps; assumption
  clear_value x9; apply reportAft_keeps; assumption

end Sys2Proof
end

