-- ==== Sys2Proof/Laws/KeepsRegisters.lean ====
section
/-! SUPPORT. `Keeps` of the operations of Sys2Proof/Machine/Registers.lean. -/

set_option linter.unusedTactic false
set_option linter.unreachableTactic false
set_option linter.tactic.unusedName false
set_option linter.unusedVariables false

namespace Sys2Proof

open Machine

theorem setOwner_keeps {s₀ : State} {s : State} (b : Nat) (v : Nat) (h₀ : Keeps s₀ s) :
    Keeps s₀ (State.setOwner s b v) := by
  unfold State.setOwner
  apply Keeps.ite
  · apply setF_keeps; assumption
  apply Keeps.ite
  · apply setF_keeps; assumption
  apply setF_keeps; assumption

theorem adjust_keeps {s₀ : State} {s : State} (off : Nat) (old : Nat) (v : Nat) (h₀ : Keeps s₀ s) :
    Keeps s₀ (State.adjust s off old v).2 := by
  unfold State.adjust
  apply Keeps.ite_snd
  · extract_lets +onlyGivenNames x0; apply Keeps.ite_snd
    · apply Keeps.mk_snd; apply setF_keeps; assumption
    apply Keeps.ite_snd
    · apply Keeps.mk_snd; apply setF_keeps; assumption
    assumption
  apply Keeps.ite_snd
  · extract_lets +onlyGivenNames x1; apply Keeps.ite_snd
    · apply Keeps.mk_snd; apply setF_keeps; assumption
    assumption
  apply Keeps.ite_snd
  · extract_lets +onlyGivenNames x2; apply Keeps.ite_snd
    · apply Keeps.mk_snd; apply glbError_keeps; assumption
    assumption
  apply Keeps.ite_snd
  · apply Keeps.ite_snd
    · apply Keeps.mk_snd; apply setF_keeps; assumption
    assumption
  apply Keeps.ite_snd
  · apply Keeps.ite_snd
    · apply Keeps.mk_snd; apply setF_keeps; assumption
    assumption
  apply Keeps.ite_snd
  · apply Keeps.ite_snd
    · apply Keeps.mk_snd; apply glbError_keeps; assumption
    assumption
  apply Keeps.ite_snd
  · assumption
  apply Keeps.ite_snd
  · apply Keeps.ite_snd
    · apply Keeps.mk_snd; apply glbError_keeps; assumption
    assumption
  apply Keeps.ite_snd
  · assumption
  apply Keeps.ite_snd
  · apply Keeps.ite_snd
    · assumption
    assumption
  assumption

theorem refuseWrite_keeps {s₀ : State} {s : State} (fw : Bool) (m : Master) (off : Nat) (h₀ : Keeps s₀ s) :
    KeepsOpt s₀ (State.refuseWrite s fw m off) := by
  unfold State.refuseWrite
  apply KeepsOpt.ite
  · apply KeepsOpt.some; assumption
  apply KeepsOpt.ite
  · apply KeepsOpt.some; apply glbError_keeps; assumption
  extract_lets +onlyGivenNames x0; apply KeepsOpt.ite
  · apply KeepsOpt.some; apply bump_keeps; apply glbError_keeps; assumption
  apply KeepsOpt.ite
  · apply KeepsOpt.some; apply setF_keeps; assumption
  exact KeepsOpt.none

theorem storeFields_keeps {s₀ : State} {s : State} (off : Nat) (v : Nat) (h₀ : Keeps s₀ s) :
    Keeps s₀ (State.storeFields s off v) := by
  unfold State.storeFields
  split
  · assumption
  split
  rename_i r0 r1 r2 r3; refine Keeps.cut s₀ r2 (Keeps.of_snd r3 ?_) fun h4 => ?_
  · apply adjust_keeps; assumption
  extract_lets +onlyGivenNames x5; split
  extract_lets +onlyGivenNames x6; refine Keeps.cut s₀ x6 ?_ fun h7 => ?_
  · unfold x6
    apply setReg_keeps; assumption
  clear_value x6; extract_lets +onlyGivenNames x8; refine Keeps.cut s₀ x8 ?_ fun h9 => ?_
  · unfold x8
    apply Keeps.ite
    · apply glbError_keeps; assumption
    assumption
  clear_value x8; apply Keeps.ite
  · apply glbError_keeps; assumption
  assumption

theorem regWrite_keeps {s₀ : State} {s : State} (fw : Bool) (m : Master) (off : Nat) (v : Nat) (act : State → State)
    (h₀ : Keeps s₀ s) (h_act : ∀ u, Keeps s₀ u → Keeps s₀ (act u)) :
    Keeps s₀ (State.regWrite s fw m off v act) := by
  unfold State.regWrite
  split
  · rename_i r0 r1 r2; refine Keeps.cut s₀ r1 (KeepsOpt.of r2 ?_) fun h3 => ?_
    · apply refuseWrite_keeps; assumption
    assumption
  apply h_act; apply storeFields_keeps; assumption

theorem notMine_keeps {s₀ : State} {s : State} (m : Master) (off : Nat) (h₀ : Keeps s₀ s) :
    Keeps s₀ (State.notMine s m off) := by
  unfold State.notMine
  split
  · rename_i r0 r1 r2; refine Keeps.cut s₀ r1 (KeepsOpt.of r2 ?_) fun h3 => ?_
    · apply refuseWrite_keeps; assumption
    assumption
  apply bump_keeps; apply glbError_keeps; assumption

theorem regRead_keeps {s₀ : State} {s : State} (m : Master) (off : Nat) (h₀ : Keeps s₀ s) :
    Keeps s₀ (State.regRead s m off).2 := by
  unfold State.regRead
  apply Keeps.ite_snd
  · dsimp only; assumption
  apply Keeps.ite_snd
  · dsimp only; apply glbError_keeps; assumption
  dsimp only; assumption

end Sys2Proof
end

