-- ==== Sys2Proof/Laws/KeepsJobOps.lean ====
section
/-! SUPPORT. `Keeps` of the operations of Sys2Proof/Machine/JobOps.lean. -/

set_option linter.unusedTactic false
set_option linter.unreachableTactic false
set_option linter.tactic.unusedName false
set_option linter.unusedVariables false

namespace Sys2Proof

open Machine

theorem finishTok_keeps {s₀ : State} {s : State} (k : Fin 8) (x : Fin 3) (t : Nat) (cause : Nat) (h₀ : Keeps s₀ s) :
    Keeps s₀ (State.finishTok s k x t cause) := by
  unfold State.finishTok
  apply setCtx_keeps; assumption

theorem transCause_keeps {s₀ : State} {s : State} (k : Fin 8) (x : Fin 3) (cause : Nat) (h₀ : Keeps s₀ s) :
    Keeps s₀ (State.transCause s k x cause) := by
  unfold State.transCause
  extract_lets +onlyGivenNames x0; split
  · apply Keeps.ite
    · apply setCtx_keeps; assumption
    assumption
  assumption

theorem takeHalt_keeps {s₀ : State} {s : State} (k : Fin 8) (x : Fin 3) (h₀ : Keeps s₀ s) :
    Keeps s₀ (State.takeHalt s k x) := by
  unfold State.takeHalt
  extract_lets +onlyGivenNames x0; apply Keeps.ite
  · apply settle_keeps; apply setHalted_keeps; apply setCtx_keeps; assumption
  assumption

theorem staleOnCore_keeps {s₀ : State} {s : State} (k : Fin 8) (h₀ : Keeps s₀ s) :
    Keeps s₀ (State.staleOnCore s k) := by
  unfold State.staleOnCore
  apply Keeps.upd₀; assumption

theorem setIw_keeps {s₀ : State} {s : State} (n : Fin 32) (w : InWin) (h₀ : Keeps s₀ s) :
    Keeps s₀ (State.setIw s n w) := by
  unfold State.setIw
  apply Keeps.upd₀; assumption

theorem setOb_keeps {s₀ : State} {s : State} (n : Fin 32) (b : OutBind) (h₀ : Keeps s₀ s) :
    Keeps s₀ (State.setOb s n b) := by
  unfold State.setOb
  apply Keeps.upd₀; assumption

theorem closeNotices_keeps {s₀ : State} {s : State} (n : Fin 32) (h₀ : Keeps s₀ s) :
    Keeps s₀ (State.closeNotices s n) := by
  unfold State.closeNotices
  extract_lets +onlyGivenNames x0; apply Keeps.foldl
  · assumption
  intro u1 u2 h3; apply Keeps.getD
  · assumption
  apply linkSend_keeps; assumption

theorem closeWinNow_keeps {s₀ : State} {s : State} (n : Fin 32) (h₀ : Keeps s₀ s) :
    Keeps s₀ (State.closeWinNow s n) := by
  unfold State.closeWinNow
  extract_lets +onlyGivenNames x0; apply Keeps.ite
  · assumption
  extract_lets +onlyGivenNames x1; extract_lets +onlyGivenNames x2; refine Keeps.cut s₀ x2 ?_ fun h3 => ?_
  · unfold x2
    apply Keeps.ite
    · apply closeNotices_keeps; assumption
    assumption
  clear_value x2; extract_lets +onlyGivenNames x4; refine Keeps.cut s₀ x4 ?_ fun h5 => ?_
  · unfold x4
    apply Keeps.foldl
    · assumption
    intro u6 u7 h8; apply Keeps.ite
    · assumption
    apply Keeps.foldl
    · assumption
    intro u9 u10 h11; apply Keeps.ite
    · apply putRow_keeps; assumption
    assumption
  clear_value x4; extract_lets +onlyGivenNames x12; refine Keeps.cut s₀ x12 ?_ fun h13 => ?_
  · unfold x12
    apply Keeps.foldl
    · assumption
    intro u14 u15 h16; apply lnkRefuse_keeps; assumption
  clear_value x12; extract_lets +onlyGivenNames x17; refine Keeps.cut s₀ x17 ?_ fun h18 => ?_
  · unfold x17
    apply setIw_keeps; assumption
  clear_value x17; split
  · apply complete_keeps; assumption
  assumption

theorem failWait_keeps {s₀ : State} {s : State} (cause : Nat) (w : RxWait) (h₀ : Keeps s₀ s) :
    Keeps s₀ (State.failWait s cause w) := by
  unfold State.failWait
  split
  · apply Keeps.ite
    · apply emit_keeps; assumption
    assumption
  extract_lets +onlyGivenNames x0; extract_lets +onlyGivenNames x1; refine Keeps.cut s₀ x1 ?_ fun h2 => ?_
  · unfold x1
    apply Keeps.ite
    · apply Keeps.foldl
      · assumption
      intro u3 u4 h5; apply Keeps.ite
      · apply putAwn_keeps; assumption
      apply putRow_keeps; assumption
    assumption
  clear_value x1; apply transCause_keeps; assumption

theorem failWaits_keeps {s₀ : State} {s : State} (cause : Nat) (p : RxWait → Bool) (h₀ : Keeps s₀ s) :
    Keeps s₀ (State.failWaits s cause p) := by
  unfold State.failWaits
  extract_lets +onlyGivenNames x0; apply Keeps.foldl
  · apply Keeps.upd₀; assumption
  intro u1 u2 h3; apply failWait_keeps; assumption

theorem addDigests_keeps {s₀ : State} {s : State} (l : List DigReq) (h₀ : Keeps s₀ s) :
    Keeps s₀ (State.addDigests s l) := by
  unfold State.addDigests
  apply Keeps.upd₀; assumption

theorem startSweep_keeps {s₀ : State} {s : State} (h₀ : Keeps s₀ s) :
    Keeps s₀ (State.startSweep s) := by
  unfold State.startSweep
  apply addDigests_keeps; assumption

theorem sweepCore_keeps {s₀ : State} {s : State} (k : Fin 8) (h₀ : Keeps s₀ s) :
    Keeps s₀ (State.sweepCore s k) := by
  unfold State.sweepCore
  apply addDigests_keeps; assumption

theorem settlePkg_keeps {s₀ : State} {s : State} (id : Nat) (h₀ : Keeps s₀ s) :
    Keeps s₀ (State.settlePkg s id) := by
  unfold State.settlePkg
  apply Keeps.ite
  · assumption
  apply Keeps.upd₀; assumption

theorem digestSeg_keeps {s₀ : State} {s : State} (p : Pkg) (g : Nat) (h₀ : Keeps s₀ s) :
    Keeps s₀ (State.digestSeg s p g) := by
  unfold State.digestSeg
  apply Keeps.ite
  · assumption
  apply addDigests_keeps; assumption

end Sys2Proof
end

