-- ==== Sys2Proof/Laws/KeepsDevOps.lean ====
section
/-! SUPPORT. `Keeps` of the operations of Sys2Proof/Machine/DevOps.lean. -/

set_option linter.unusedTactic false
set_option linter.unreachableTactic false
set_option linter.tactic.unusedName false
set_option linter.unusedVariables false

namespace Sys2Proof

open Machine

theorem agentRec_keeps {s₀ : State} {s : State} (g : Agent) (cls : Nat) (a : Nat) (akind : Nat) (h₀ : Keeps s₀ s) :
    Keeps s₀ (State.agentRec s g cls a akind) := by
  unfold State.agentRec
  split
  · apply reportAft_keeps; assumption
  · apply report_keeps; assumption
  apply report_keeps; assumption

theorem refuseAcc_keeps {s₀ : State} {s : State} (g : Agent) (cls : Nat) (a : Nat) (akind : Nat) (n : Nat) (cause :
    Nat) (h₀ : Keeps s₀ s) :
    Keeps s₀ (State.refuseAcc s g cls a akind n cause).2.2 := by
  unfold State.refuseAcc
  dsimp only; apply drawn_keeps; apply agentRec_keeps; assumption

theorem devRead_keeps {s₀ : State} {s : State} (g : Agent) (a : Nat) (n : Nat) (h₀ : Keeps s₀ s) :
    Keeps s₀ (State.devRead s g a n).2.2 := by
  unfold State.devRead
  split
  · apply Keeps.ite_snd₂
    · apply Keeps.mk_snd₂; apply drawn_keeps; assumption
    apply Keeps.ite_snd₂
    · apply refuseAcc_keeps; assumption
    split
    · apply refuseAcc_keeps; assumption
    split
    rename_i r0 r1 r2 r3; refine Keeps.cut s₀ r2 (Keeps.of_snd r3 ?_) fun h4 => ?_
    · apply dramGet_keeps; assumption
    apply Keeps.mk_snd₂; assumption
  · split
    · apply Keeps.ite_snd₂
      · apply Keeps.mk_snd₂; apply drawn_keeps; assumption
      apply Keeps.ite_snd₂
      · apply refuseAcc_keeps; assumption
      split
      rename_i r5 r6 r7 r8; refine Keeps.cut s₀ r7 (Keeps.of_snd r8 ?_) fun h9 => ?_
      · apply getRow_keeps; apply waited_keeps; assumption
      apply Keeps.mk_snd₂; assumption
    apply Keeps.ite_snd₂
    · apply refuseAcc_keeps; assumption
    apply Keeps.ite_snd₂
    · apply refuseAcc_keeps; assumption
    apply Keeps.ite_snd₂
    · apply Keeps.mk_snd₂; apply drawn_keeps; assumption
    apply Keeps.ite_snd₂
    · apply Keeps.mk_snd₂; apply drawn_keeps; assumption
    split
    rename_i r10 r11 r12 r13; refine Keeps.cut s₀ r12 (Keeps.of_snd r13 ?_) fun h14 => ?_
    · apply getRow_keeps; apply waited_keeps; assumption
    apply Keeps.mk_snd₂; assumption
  · split
    · apply Keeps.ite_snd₂
      · apply refuseAcc_keeps; assumption
      split
      rename_i r15 r16 r17 r18; refine Keeps.cut s₀ r17 (Keeps.of_snd r18 ?_) fun h19 => ?_
      · apply cofHostRead_keeps; assumption
      apply Keeps.mk_snd₂; assumption
    apply refuseAcc_keeps; assumption
  · apply Keeps.ite_snd₂
    · apply Keeps.mk_snd₂; apply drawn_keeps; assumption
    split
    · apply Keeps.mk_snd₂; assumption
    apply refuseAcc_keeps; assumption
  apply refuseAcc_keeps; assumption

theorem refuseWr_keeps {s₀ : State} {s : State} (g : Agent) (cls : Nat) (a : Nat) (akind : Nat) (cause : Nat) (h₀ :
    Keeps s₀ s) :
    Keeps s₀ (State.refuseWr s g cls a akind cause).2 := by
  unfold State.refuseWr
  dsimp only; apply agentRec_keeps; assumption

theorem commitGate_keeps {s₀ : State} {s : State} (id : Nat) (gate : Nat) (poison : Bool) (holds : Bool) (a : Nat) (h₀
    : Keeps s₀ s) :
    Keeps s₀ (State.commitGate s id gate poison holds a).1 := by
  unfold State.commitGate
  apply Keeps.ite_fst
  · dsimp only; assumption
  apply Keeps.ite_fst
  · dsimp only; assumption
  apply Keeps.ite_fst
  · dsimp only; apply poisonCommit_keeps; assumption
  dsimp only; assumption

theorem devWrite_keeps {s₀ : State} {s : State} (g : Agent) (a : Nat) (bs : List (Byte × Bool)) (commit : Bool) (h₀ :
    Keeps s₀ s) :
    Keeps s₀ (State.devWrite s g a bs commit).2 := by
  unfold State.devWrite
  extract_lets +onlyGivenNames x0; extract_lets +onlyGivenNames x1; apply Keeps.ite_snd
  · apply refuseWr_keeps; assumption
  split
  · apply Keeps.ite_snd
    · apply Keeps.mk_snd; assumption
    apply Keeps.ite_snd
    · apply refuseWr_keeps; assumption
    split
    · apply refuseWr_keeps; assumption
    split
    rename_i r2 r3 r4 r5; refine Keeps.cut s₀ r3 (Keeps.of_fst r5 ?_) fun h6 => ?_
    · apply Keeps.ite_fst
      · apply commitGate_keeps; assumption
      apply Keeps.mk_fst; assumption
    apply Keeps.mk_snd; apply Keeps.ite
    · apply dramMark_keeps; apply dramPut_keeps; assumption
    assumption
  · apply Keeps.ite_snd
    · apply refuseWr_keeps; assumption
    apply Keeps.ite_snd
    · apply refuseWr_keeps; assumption
    apply Keeps.ite_snd
    · apply Keeps.mk_snd; assumption
    apply Keeps.ite_snd
    · apply Keeps.mk_snd; apply holdWrite_keeps; assumption
    apply Keeps.mk_snd; apply putRow_keeps; apply waited_keeps; assumption
  · split
    · apply Keeps.ite_snd
      · apply refuseWr_keeps; assumption
      apply Keeps.mk_snd; apply cofHostWrite_keeps; assumption
    extract_lets +onlyGivenNames x7; apply Keeps.ite_snd
    · apply Keeps.mk_snd; assumption
    apply Keeps.ite_snd
    · apply refuseWr_keeps; assumption
    split
    rename_i r8 r9 r10 r11; refine Keeps.cut s₀ r9 (Keeps.of_fst r11 ?_) fun h12 => ?_
    · apply commitGate_keeps; assumption
    apply Keeps.mk_snd; apply Keeps.ite
    · apply cofPuts_keeps; assumption
    assumption
  · apply Keeps.ite_snd
    · apply Keeps.mk_snd; assumption
    apply Keeps.ite_snd
    · apply Keeps.mk_snd; assumption
    split
    rename_i r13 r14 r15 r16; refine Keeps.cut s₀ r14 (Keeps.of_fst r16 ?_) fun h17 => ?_
    · apply commitGate_keeps; assumption
    apply Keeps.mk_snd; apply Keeps.ite
    · apply hostPut_keeps; assumption
    assumption
  · split
    · apply Keeps.ite_snd
      · apply refuseWr_keeps; assumption
      apply Keeps.ite_snd
      · apply Keeps.mk_snd; assumption
      split
      · apply refuseWr_keeps; assumption
      rename_i r18 r19 r20; refine Keeps.cut s₀ r19 (KeepsOpt.of r20 ?_) fun h21 => ?_
      · apply winWrite_keeps; assumption
      apply Keeps.mk_snd; assumption
    apply refuseWr_keeps; assumption
  apply refuseWr_keeps; assumption

end Sys2Proof
end

