-- ==== Sys2Proof/Laws/KeepsOperands.lean ====
section
/-! SUPPORT. `Keeps` of the operations of Sys2Proof/Machine/Operands.lean. -/

set_option linter.unusedTactic false
set_option linter.unreachableTactic false
set_option linter.tactic.unusedName false
set_option linter.unusedVariables false

namespace Sys2Proof

open Machine

theorem smemPut_keeps {s₀ : State} {s : State} (k : Fin 8) (a : Nat) (bs : List Byte) (h₀ : Keeps s₀ s) :
    Keeps s₀ (State.smemPut s k a bs) := by
  unfold State.smemPut
  extract_lets +onlyGivenNames x0; refine CoreOk.cut s₀ x0 ?_ fun h1 => ?_
  · unfold x0; apply Keeps.core; assumption
  clear_value x0; extract_lets +onlyGivenNames x2; apply Keeps.setCore
  · assumption
  refine CoreOk.put ?_ id id (mwf_msets _ _ _) (mwf_msets _ _ _) id id; assumption

theorem goTo_keeps {s₀ : State} {s : State} (k : Fin 8) (x : Fin 3) (pc : Nat) (h₀ : Keeps s₀ s) :
    Keeps s₀ (State.goTo s k x pc) := by
  unfold State.goTo
  apply setCtx_keeps; assumption

theorem advance_keeps {s₀ : State} {s : State} (k : Fin 8) (x : Fin 3) (h₀ : Keeps s₀ s) :
    Keeps s₀ (State.advance s k x) := by
  unfold State.advance
  apply goTo_keeps; assumption

theorem regParity_keeps {s₀ : State} {s : State} (k : Fin 8) (x : Fin 3) (h₀ : Keeps s₀ s) :
    Keeps s₀ (State.regParity s k x) := by
  unfold State.regParity
  extract_lets +onlyGivenNames x0; extract_lets +onlyGivenNames x1; refine Keeps.cut s₀ x1 ?_ fun h2 => ?_
  · unfold x1; apply setHalted_keeps; apply setCtx_keeps; assumption
  clear_value x1; extract_lets +onlyGivenNames x3; extract_lets +onlyGivenNames x4; apply settle_keeps
  apply reportAft_keeps; assumption

theorem instr_keeps {s₀ : State} {s : State} (k : Fin 8) (x : Fin 3) (op : OpC) (body : BitVec 64 → State → State) (h₀
    : Keeps s₀ s) (h_body : ∀ a0 u, Keeps s₀ u → Keeps s₀ (body a0 u)) :
    Keeps s₀ (State.instr s k x op body) := by
  unfold State.instr
  split
  · assumption
  · apply raise_keeps; assumption
  · apply Keeps.ite
    · apply advance_keeps; assumption
    assumption
  · apply Keeps.ite
    · apply regParity_keeps; assumption
    assumption
  apply Keeps.ite
  · apply h_body; assumption
  assumption

theorem regOp_keeps {s₀ : State} {s : State} (k : Fin 8) (x : Fin 3) (f : Ctx → Ctx) (h₀ : Keeps s₀ s) :
    Keeps s₀ (State.regOp s k x f) := by
  unfold State.regOp
  extract_lets +onlyGivenNames x0; apply setCtx_keeps; assumption

theorem trapAt_keeps {s₀ : State} {s : State} (k : Fin 8) (x : Fin 3) (cause : Nat) (h₀ : Keeps s₀ s) :
    Keeps s₀ (State.trapAt s k x cause) := by
  unfold State.trapAt
  apply raise_keeps; assumption

end Sys2Proof
end

