-- ==== Sys2Proof/Laws/KeepsScalar.lean ====
section
/-! SUPPORT. `Keeps` of the operations of Sys2Proof/Machine/Scalar.lean. -/

set_option linter.unusedTactic false
set_option linter.unreachableTactic false
set_option linter.tactic.unusedName false
set_option linter.unusedVariables false

namespace Sys2Proof

open Machine

theorem alu_keeps {s₀ : State} (m : Nat) (k : Fin 8) (x : Fin 3) (w : BitVec 64) {s : State} (h₀ : Keeps s₀ s) :
    Keeps s₀ (State.alu m k x w s) := by
  unfold State.alu
  apply regOp_keeps; assumption

theorem compare_keeps {s₀ : State} (m : Nat) (k : Fin 8) (x : Fin 3) (w : BitVec 64) {s : State} (h₀ : Keeps s₀ s) :
    Keeps s₀ (State.compare m k x w s) := by
  unfold State.compare
  apply regOp_keeps; assumption

theorem predicate_keeps {s₀ : State} (m : Nat) (k : Fin 8) (x : Fin 3) (w : BitVec 64) {s : State} (h₀ : Keeps s₀ s) :
    Keeps s₀ (State.predicate m k x w s) := by
  unfold State.predicate
  apply regOp_keeps; assumption

theorem load_keeps {s₀ : State} (n : Nat) (sgn : Bool) (k : Fin 8) (x : Fin 3) (w : BitVec 64) {s : State} (h₀ : Keeps
    s₀ s) :
    Keeps s₀ (State.load n sgn k x w s) := by
  unfold State.load
  extract_lets +onlyGivenNames x0; extract_lets +onlyGivenNames x1; apply Keeps.ite
  · apply trapAt_keeps; assumption
  extract_lets +onlyGivenNames x2; extract_lets +onlyGivenNames x3; apply regOp_keeps; assumption

theorem store_keeps {s₀ : State} (n : Nat) (k : Fin 8) (x : Fin 3) (w : BitVec 64) {s : State} (h₀ : Keeps s₀ s) :
    Keeps s₀ (State.store n k x w s) := by
  unfold State.store
  extract_lets +onlyGivenNames x0; extract_lets +onlyGivenNames x1; extract_lets +onlyGivenNames x2; apply Keeps.ite
  · apply trapAt_keeps; assumption
  apply advance_keeps; apply smemPut_keeps; assumption

theorem execAdd_keeps {s₀ : State} (k : Fin 8) (x : Fin 3) {s : State} (h₀ : Keeps s₀ s) :
    KeepsOut s₀ (execAdd k x s) := by
  unfold execAdd
  apply KeepsOut.next; apply instr_keeps
  · assumption
  intro u0 u1 h2; apply alu_keeps; assumption

theorem execSub_keeps {s₀ : State} (k : Fin 8) (x : Fin 3) {s : State} (h₀ : Keeps s₀ s) :
    KeepsOut s₀ (execSub k x s) := by
  unfold execSub
  apply KeepsOut.next; apply instr_keeps
  · assumption
  intro u0 u1 h2; apply alu_keeps; assumption

theorem execAndOp_keeps {s₀ : State} (k : Fin 8) (x : Fin 3) {s : State} (h₀ : Keeps s₀ s) :
    KeepsOut s₀ (execAndOp k x s) := by
  unfold execAndOp
  apply KeepsOut.next; apply instr_keeps
  · assumption
  intro u0 u1 h2; apply alu_keeps; assumption

theorem execOrOp_keeps {s₀ : State} (k : Fin 8) (x : Fin 3) {s : State} (h₀ : Keeps s₀ s) :
    KeepsOut s₀ (execOrOp k x s) := by
  unfold execOrOp
  apply KeepsOut.next; apply instr_keeps
  · assumption
  intro u0 u1 h2; apply alu_keeps; assumption

theorem execXorOp_keeps {s₀ : State} (k : Fin 8) (x : Fin 3) {s : State} (h₀ : Keeps s₀ s) :
    KeepsOut s₀ (execXorOp k x s) := by
  unfold execXorOp
  apply KeepsOut.next; apply instr_keeps
  · assumption
  intro u0 u1 h2; apply alu_keeps; assumption

theorem execSll_keeps {s₀ : State} (k : Fin 8) (x : Fin 3) {s : State} (h₀ : Keeps s₀ s) :
    KeepsOut s₀ (execSll k x s) := by
  unfold execSll
  apply KeepsOut.next; apply instr_keeps
  · assumption
  intro u0 u1 h2; apply alu_keeps; assumption

theorem execSrl_keeps {s₀ : State} (k : Fin 8) (x : Fin 3) {s : State} (h₀ : Keeps s₀ s) :
    KeepsOut s₀ (execSrl k x s) := by
  unfold execSrl
  apply KeepsOut.next; apply instr_keeps
  · assumption
  intro u0 u1 h2; apply alu_keeps; assumption

theorem execSra_keeps {s₀ : State} (k : Fin 8) (x : Fin 3) {s : State} (h₀ : Keeps s₀ s) :
    KeepsOut s₀ (execSra k x s) := by
  unfold execSra
  apply KeepsOut.next; apply instr_keeps
  · assumption
  intro u0 u1 h2; apply alu_keeps; assumption

theorem execMul_keeps {s₀ : State} (k : Fin 8) (x : Fin 3) {s : State} (h₀ : Keeps s₀ s) :
    KeepsOut s₀ (execMul k x s) := by
  unfold execMul
  apply KeepsOut.next; apply instr_keeps
  · assumption
  intro u0 u1 h2; apply alu_keeps; assumption

theorem execMulh_keeps {s₀ : State} (k : Fin 8) (x : Fin 3) {s : State} (h₀ : Keeps s₀ s) :
    KeepsOut s₀ (execMulh k x s) := by
  unfold execMulh
  apply KeepsOut.next; apply instr_keeps
  · assumption
  intro u0 u1 h2; apply alu_keeps; assumption

theorem execMulhu_keeps {s₀ : State} (k : Fin 8) (x : Fin 3) {s : State} (h₀ : Keeps s₀ s) :
    KeepsOut s₀ (execMulhu k x s) := by
  unfold execMulhu
  apply KeepsOut.next; apply instr_keeps
  · assumption
  intro u0 u1 h2; apply alu_keeps; assumption

theorem execMin_keeps {s₀ : State} (k : Fin 8) (x : Fin 3) {s : State} (h₀ : Keeps s₀ s) :
    KeepsOut s₀ (execMin k x s) := by
  unfold execMin
  apply KeepsOut.next; apply instr_keeps
  · assumption
  intro u0 u1 h2; apply alu_keeps; assumption

theorem execMax_keeps {s₀ : State} (k : Fin 8) (x : Fin 3) {s : State} (h₀ : Keeps s₀ s) :
    KeepsOut s₀ (execMax k x s) := by
  unfold execMax
  apply KeepsOut.next; apply instr_keeps
  · assumption
  intro u0 u1 h2; apply alu_keeps; assumption

theorem execMinu_keeps {s₀ : State} (k : Fin 8) (x : Fin 3) {s : State} (h₀ : Keeps s₀ s) :
    KeepsOut s₀ (execMinu k x s) := by
  unfold execMinu
  apply KeepsOut.next; apply instr_keeps
  · assumption
  intro u0 u1 h2; apply alu_keeps; assumption

theorem execMaxu_keeps {s₀ : State} (k : Fin 8) (x : Fin 3) {s : State} (h₀ : Keeps s₀ s) :
    KeepsOut s₀ (execMaxu k x s) := by
  unfold execMaxu
  apply KeepsOut.next; apply instr_keeps
  · assumption
  intro u0 u1 h2; apply alu_keeps; assumption

theorem execEq_keeps {s₀ : State} (k : Fin 8) (x : Fin 3) {s : State} (h₀ : Keeps s₀ s) :
    KeepsOut s₀ (execEq k x s) := by
  unfold execEq
  apply KeepsOut.next; apply instr_keeps
  · assumption
  intro u0 u1 h2; apply compare_keeps; assumption

theorem execNe_keeps {s₀ : State} (k : Fin 8) (x : Fin 3) {s : State} (h₀ : Keeps s₀ s) :
    KeepsOut s₀ (execNe k x s) := by
  unfold execNe
  apply KeepsOut.next; apply instr_keeps
  · assumption
  intro u0 u1 h2; apply compare_keeps; assumption

theorem execLt_keeps {s₀ : State} (k : Fin 8) (x : Fin 3) {s : State} (h₀ : Keeps s₀ s) :
    KeepsOut s₀ (execLt k x s) := by
  unfold execLt
  apply KeepsOut.next; apply instr_keeps
  · assumption
  intro u0 u1 h2; apply compare_keeps; assumption

theorem execGe_keeps {s₀ : State} (k : Fin 8) (x : Fin 3) {s : State} (h₀ : Keeps s₀ s) :
    KeepsOut s₀ (execGe k x s) := by
  unfold execGe
  apply KeepsOut.next; apply instr_keeps
  · assumption
  intro u0 u1 h2; apply compare_keeps; assumption

theorem execLtu_keeps {s₀ : State} (k : Fin 8) (x : Fin 3) {s : State} (h₀ : Keeps s₀ s) :
    KeepsOut s₀ (execLtu k x s) := by
  unfold execLtu
  apply KeepsOut.next; apply instr_keeps
  · assumption
  intro u0 u1 h2; apply compare_keeps; assumption

theorem execGeu_keeps {s₀ : State} (k : Fin 8) (x : Fin 3) {s : State} (h₀ : Keeps s₀ s) :
    KeepsOut s₀ (execGeu k x s) := by
  unfold execGeu
  apply KeepsOut.next; apply instr_keeps
  · assumption
  intro u0 u1 h2; apply compare_keeps; assumption

theorem execTst_keeps {s₀ : State} (k : Fin 8) (x : Fin 3) {s : State} (h₀ : Keeps s₀ s) :
    KeepsOut s₀ (execTst k x s) := by
  unfold execTst
  apply KeepsOut.next; apply instr_keeps
  · assumption
  intro u0 u1 h2; apply compare_keeps; assumption

theorem execPand_keeps {s₀ : State} (k : Fin 8) (x : Fin 3) {s : State} (h₀ : Keeps s₀ s) :
    KeepsOut s₀ (execPand k x s) := by
  unfold execPand
  apply KeepsOut.next; apply instr_keeps
  · assumption
  intro u0 u1 h2; apply predicate_keeps; assumption

theorem execPor_keeps {s₀ : State} (k : Fin 8) (x : Fin 3) {s : State} (h₀ : Keeps s₀ s) :
    KeepsOut s₀ (execPor k x s) := by
  unfold execPor
  apply KeepsOut.next; apply instr_keeps
  · assumption
  intro u0 u1 h2; apply predicate_keeps; assumption

theorem execPxor_keeps {s₀ : State} (k : Fin 8) (x : Fin 3) {s : State} (h₀ : Keeps s₀ s) :
    KeepsOut s₀ (execPxor k x s) := by
  unfold execPxor
  apply KeepsOut.next; apply instr_keeps
  · assumption
  intro u0 u1 h2; apply predicate_keeps; assumption

theorem execPandn_keeps {s₀ : State} (k : Fin 8) (x : Fin 3) {s : State} (h₀ : Keeps s₀ s) :
    KeepsOut s₀ (execPandn k x s) := by
  unfold execPandn
  apply KeepsOut.next; apply instr_keeps
  · assumption
  intro u0 u1 h2; apply predicate_keeps; assumption

theorem execPnot_keeps {s₀ : State} (k : Fin 8) (x : Fin 3) {s : State} (h₀ : Keeps s₀ s) :
    KeepsOut s₀ (execPnot k x s) := by
  unfold execPnot
  apply KeepsOut.next; apply instr_keeps
  · assumption
  intro u0 u1 h2; apply predicate_keeps; assumption

theorem execPtos_keeps {s₀ : State} (k : Fin 8) (x : Fin 3) {s : State} (h₀ : Keeps s₀ s) :
    KeepsOut s₀ (execPtos k x s) := by
  unfold execPtos
  apply KeepsOut.next; apply instr_keeps
  · assumption
  intro u0 u1 h2; apply regOp_keeps; assumption

theorem execPredStop_keeps {s₀ : State} (k : Fin 8) (x : Fin 3) {s : State} (h₀ : Keeps s₀ s) :
    KeepsOut s₀ (execPredStop k x s) := by
  unfold execPredStop
  apply KeepsOut.next; apply instr_keeps
  · assumption
  intro u0 u1 h2; apply regOp_keeps; assumption

theorem execLb_keeps {s₀ : State} (k : Fin 8) (x : Fin 3) {s : State} (h₀ : Keeps s₀ s) :
    KeepsOut s₀ (execLb k x s) := by
  unfold execLb
  apply KeepsOut.next; apply instr_keeps
  · assumption
  intro u0 u1 h2; apply load_keeps; assumption

theorem execLbu_keeps {s₀ : State} (k : Fin 8) (x : Fin 3) {s : State} (h₀ : Keeps s₀ s) :
    KeepsOut s₀ (execLbu k x s) := by
  unfold execLbu
  apply KeepsOut.next; apply instr_keeps
  · assumption
  intro u0 u1 h2; apply load_keeps; assumption

theorem execLh_keeps {s₀ : State} (k : Fin 8) (x : Fin 3) {s : State} (h₀ : Keeps s₀ s) :
    KeepsOut s₀ (execLh k x s) := by
  unfold execLh
  apply KeepsOut.next; apply instr_keeps
  · assumption
  intro u0 u1 h2; apply load_keeps; assumption

theorem execLhu_keeps {s₀ : State} (k : Fin 8) (x : Fin 3) {s : State} (h₀ : Keeps s₀ s) :
    KeepsOut s₀ (execLhu k x s) := by
  unfold execLhu
  apply KeepsOut.next; apply instr_keeps
  · assumption
  intro u0 u1 h2; apply load_keeps; assumption

theorem execLw_keeps {s₀ : State} (k : Fin 8) (x : Fin 3) {s : State} (h₀ : Keeps s₀ s) :
    KeepsOut s₀ (execLw k x s) := by
  unfold execLw
  apply KeepsOut.next; apply instr_keeps
  · assumption
  intro u0 u1 h2; apply load_keeps; assumption

theorem execSb_keeps {s₀ : State} (k : Fin 8) (x : Fin 3) {s : State} (h₀ : Keeps s₀ s) :
    KeepsOut s₀ (execSb k x s) := by
  unfold execSb
  apply KeepsOut.next; apply instr_keeps
  · assumption
  intro u0 u1 h2; apply store_keeps; assumption

theorem execSh_keeps {s₀ : State} (k : Fin 8) (x : Fin 3) {s : State} (h₀ : Keeps s₀ s) :
    KeepsOut s₀ (execSh k x s) := by
  unfold execSh
  apply KeepsOut.next; apply instr_keeps
  · assumption
  intro u0 u1 h2; apply store_keeps; assumption

theorem execSw_keeps {s₀ : State} (k : Fin 8) (x : Fin 3) {s : State} (h₀ : Keeps s₀ s) :
    KeepsOut s₀ (execSw k x s) := by
  unfold execSw
  apply KeepsOut.next; apply instr_keeps
  · assumption
  intro u0 u1 h2; apply store_keeps; assumption

theorem execDget_keeps {s₀ : State} (k : Fin 8) (x : Fin 3) {s : State} (h₀ : Keeps s₀ s) :
    KeepsOut s₀ (execDget k x s) := by
  unfold execDget
  apply KeepsOut.next; apply instr_keeps
  · assumption
  intro u0 u1 h2; apply regOp_keeps; assumption

theorem execDset_keeps {s₀ : State} (k : Fin 8) (x : Fin 3) {s : State} (h₀ : Keeps s₀ s) :
    KeepsOut s₀ (execDset k x s) := by
  unfold execDset
  apply KeepsOut.next; apply instr_keeps
  · assumption
  intro u0 u1 h2; apply regOp_keeps; assumption

theorem execDld_keeps {s₀ : State} (k : Fin 8) (x : Fin 3) {s : State} (h₀ : Keeps s₀ s) :
    KeepsOut s₀ (execDld k x s) := by
  unfold execDld
  apply KeepsOut.next; apply instr_keeps
  · assumption
  intro u0 u1 h2; extract_lets +onlyGivenNames x3; extract_lets +onlyGivenNames x4; apply Keeps.ite
  · apply trapAt_keeps; assumption
  extract_lets +onlyGivenNames x5; apply regOp_keeps; assumption

theorem execDsto_keeps {s₀ : State} (k : Fin 8) (x : Fin 3) {s : State} (h₀ : Keeps s₀ s) :
    KeepsOut s₀ (execDsto k x s) := by
  unfold execDsto
  apply KeepsOut.next; apply instr_keeps
  · assumption
  intro u0 u1 h2; extract_lets +onlyGivenNames x3; extract_lets +onlyGivenNames x4; extract_lets +onlyGivenNames x5
  apply Keeps.ite
  · apply trapAt_keeps; assumption
  apply advance_keeps; apply smemPut_keeps; assumption

theorem execDcpy_keeps {s₀ : State} (k : Fin 8) (x : Fin 3) {s : State} (h₀ : Keeps s₀ s) :
    KeepsOut s₀ (execDcpy k x s) := by
  unfold execDcpy
  apply KeepsOut.next; apply instr_keeps
  · assumption
  intro u0 u1 h2; apply regOp_keeps; assumption

theorem execInfo_keeps {s₀ : State} (k : Fin 8) (x : Fin 3) {s : State} (h₀ : Keeps s₀ s) :
    KeepsOut s₀ (execInfo k x s) := by
  unfold execInfo
  apply KeepsOut.next; apply instr_keeps
  · assumption
  intro u0 u1 h2; extract_lets +onlyGivenNames x3; extract_lets +onlyGivenNames x4; extract_lets +onlyGivenNames x5
  apply regOp_keeps; assumption

end Sys2Proof
end

