-- ==== Sys2Proof/Laws/KeepsIssue.lean ====
section
/-! SUPPORT. `Keeps` of the operations of Sys2Proof/Machine/Issue.lean. -/

set_option linter.unusedTactic false
set_option linter.unreachableTactic false
set_option linter.tactic.unusedName false
set_option linter.unusedVariables false

namespace Sys2Proof

open Machine

theorem issue_keeps {s₀ : State} (o : OpC) (k : Fin 8) (x : Fin 3) (w : BitVec 64) {s : State} (h₀ : Keeps s₀ s) :
    Keeps s₀ (State.issue o k x w s) := by
  unfold State.issue
  extract_lets +onlyGivenNames x0; extract_lets +onlyGivenNames x1; apply Keeps.ite
  · apply trapAt_keeps; assumption
  extract_lets +onlyGivenNames x2; extract_lets +onlyGivenNames x3; apply Keeps.ite
  · apply setCtx_keeps; assumption
  apply advance_keeps; apply setCtx_keeps; assumption

theorem execIssueStallRelease_keeps {s₀ : State} (k : Fin 8) (x : Fin 3) {s : State} (h₀ : Keeps s₀ s) :
    KeepsOut s₀ (execIssueStallRelease k x s) := by
  unfold execIssueStallRelease
  extract_lets +onlyGivenNames x0; split
  · split
    · apply KeepsOut.next; assumption
    apply KeepsOut.ite
    · apply KeepsOut.next; assumption
    apply KeepsOut.next; apply takeHalt_keeps; apply advance_keeps; apply setCtx_keeps; assumption
  split
  · apply KeepsOut.next; assumption
  apply KeepsOut.ite
  · apply KeepsOut.next; assumption
  apply KeepsOut.next; apply takeHalt_keeps; apply advance_keeps; apply setCtx_keeps; assumption

theorem execConv_keeps {s₀ : State} (k : Fin 8) (x : Fin 3) {s : State} (h₀ : Keeps s₀ s) :
    KeepsOut s₀ (execConv k x s) := by
  unfold execConv
  apply KeepsOut.next; apply instr_keeps
  · assumption
  intro u0 u1 h2; apply issue_keeps; assumption

theorem execWino_keeps {s₀ : State} (k : Fin 8) (x : Fin 3) {s : State} (h₀ : Keeps s₀ s) :
    KeepsOut s₀ (execWino k x s) := by
  unfold execWino
  apply KeepsOut.next; apply instr_keeps
  · assumption
  intro u0 u1 h2; apply issue_keeps; assumption

theorem execMmul_keeps {s₀ : State} (k : Fin 8) (x : Fin 3) {s : State} (h₀ : Keeps s₀ s) :
    KeepsOut s₀ (execMmul k x s) := by
  unfold execMmul
  apply KeepsOut.next; apply instr_keeps
  · assumption
  intro u0 u1 h2; apply issue_keeps; assumption

theorem execDwconv_keeps {s₀ : State} (k : Fin 8) (x : Fin 3) {s : State} (h₀ : Keeps s₀ s) :
    KeepsOut s₀ (execDwconv k x s) := by
  unfold execDwconv
  apply KeepsOut.next; apply instr_keeps
  · assumption
  intro u0 u1 h2; apply issue_keeps; assumption

theorem execEwise_keeps {s₀ : State} (k : Fin 8) (x : Fin 3) {s : State} (h₀ : Keeps s₀ s) :
    KeepsOut s₀ (execEwise k x s) := by
  unfold execEwise
  apply KeepsOut.next; apply instr_keeps
  · assumption
  intro u0 u1 h2; apply issue_keeps; assumption

theorem execLutDirect_keeps {s₀ : State} (k : Fin 8) (x : Fin 3) {s : State} (h₀ : Keeps s₀ s) :
    KeepsOut s₀ (execLutDirect k x s) := by
  unfold execLutDirect
  apply KeepsOut.next; apply instr_keeps
  · assumption
  intro u0 u1 h2; apply issue_keeps; assumption

theorem execLutPwl_keeps {s₀ : State} (k : Fin 8) (x : Fin 3) {s : State} (h₀ : Keeps s₀ s) :
    KeepsOut s₀ (execLutPwl k x s) := by
  unfold execLutPwl
  apply KeepsOut.next; apply instr_keeps
  · assumption
  intro u0 u1 h2; apply issue_keeps; assumption

theorem execPool_keeps {s₀ : State} (k : Fin 8) (x : Fin 3) {s : State} (h₀ : Keeps s₀ s) :
    KeepsOut s₀ (execPool k x s) := by
  unfold execPool
  apply KeepsOut.next; apply instr_keeps
  · assumption
  intro u0 u1 h2; apply issue_keeps; assumption

theorem execResize_keeps {s₀ : State} (k : Fin 8) (x : Fin 3) {s : State} (h₀ : Keeps s₀ s) :
    KeepsOut s₀ (execResize k x s) := by
  unfold execResize
  apply KeepsOut.next; apply instr_keeps
  · assumption
  intro u0 u1 h2; apply issue_keeps; assumption

theorem execArgmax_keeps {s₀ : State} (k : Fin 8) (x : Fin 3) {s : State} (h₀ : Keeps s₀ s) :
    KeepsOut s₀ (execArgmax k x s) := by
  unfold execArgmax
  apply KeepsOut.next; apply instr_keeps
  · assumption
  intro u0 u1 h2; apply issue_keeps; assumption

theorem execDcmpCompare_keeps {s₀ : State} (k : Fin 8) (x : Fin 3) {s : State} (h₀ : Keeps s₀ s) :
    KeepsOut s₀ (execDcmpCompare k x s) := by
  unfold execDcmpCompare
  apply KeepsOut.next; apply instr_keeps
  · assumption
  intro u0 u1 h2; apply issue_keeps; assumption

theorem execDcmpForce_keeps {s₀ : State} (k : Fin 8) (x : Fin 3) {s : State} (h₀ : Keeps s₀ s) :
    KeepsOut s₀ (execDcmpForce k x s) := by
  unfold execDcmpForce
  apply KeepsOut.next; apply instr_keeps
  · assumption
  intro u0 u1 h2; apply issue_keeps; assumption

theorem execDmrgMerge_keeps {s₀ : State} (k : Fin 8) (x : Fin 3) {s : State} (h₀ : Keeps s₀ s) :
    KeepsOut s₀ (execDmrgMerge k x s) := by
  unfold execDmrgMerge
  apply KeepsOut.next; apply instr_keeps
  · assumption
  intro u0 u1 h2; apply issue_keeps; assumption

theorem execDmrgAdd_keeps {s₀ : State} (k : Fin 8) (x : Fin 3) {s : State} (h₀ : Keeps s₀ s) :
    KeepsOut s₀ (execDmrgAdd k x s) := by
  unfold execDmrgAdd
  apply KeepsOut.next; apply instr_keeps
  · assumption
  intro u0 u1 h2; apply issue_keeps; assumption

theorem execDmrgDilate_keeps {s₀ : State} (k : Fin 8) (x : Fin 3) {s : State} (h₀ : Keeps s₀ s) :
    KeepsOut s₀ (execDmrgDilate k x s) := by
  unfold execDmrgDilate
  apply KeepsOut.next; apply instr_keeps
  · assumption
  intro u0 u1 h2; apply issue_keeps; assumption

theorem execBwdDgrad_keeps {s₀ : State} (k : Fin 8) (x : Fin 3) {s : State} (h₀ : Keeps s₀ s) :
    KeepsOut s₀ (execBwdDgrad k x s) := by
  unfold execBwdDgrad
  apply KeepsOut.next; apply instr_keeps
  · assumption
  intro u0 u1 h2; apply issue_keeps; assumption

theorem execBwdWgrad_keeps {s₀ : State} (k : Fin 8) (x : Fin 3) {s : State} (h₀ : Keeps s₀ s) :
    KeepsOut s₀ (execBwdWgrad k x s) := by
  unfold execBwdWgrad
  apply KeepsOut.next; apply instr_keeps
  · assumption
  intro u0 u1 h2; apply issue_keeps; assumption

theorem execOpt_keeps {s₀ : State} (k : Fin 8) (x : Fin 3) {s : State} (h₀ : Keeps s₀ s) :
    KeepsOut s₀ (execOpt k x s) := by
  unfold execOpt
  apply KeepsOut.next; apply instr_keeps
  · assumption
  intro u0 u1 h2; apply issue_keeps; assumption

theorem execXfixShelf_keeps {s₀ : State} (k : Fin 8) (x : Fin 3) {s : State} (h₀ : Keeps s₀ s) :
    KeepsOut s₀ (execXfixShelf k x s) := by
  unfold execXfixShelf
  apply KeepsOut.next; apply instr_keeps
  · assumption
  intro u0 u1 h2; apply issue_keeps; assumption

theorem execXfixDrawer_keeps {s₀ : State} (k : Fin 8) (x : Fin 3) {s : State} (h₀ : Keeps s₀ s) :
    KeepsOut s₀ (execXfixDrawer k x s) := by
  unfold execXfixDrawer
  apply KeepsOut.next; apply instr_keeps
  · assumption
  intro u0 u1 h2; apply issue_keeps; assumption

theorem execDmaRead_keeps {s₀ : State} (k : Fin 8) (x : Fin 3) {s : State} (h₀ : Keeps s₀ s) :
    KeepsOut s₀ (execDmaRead k x s) := by
  unfold execDmaRead
  apply KeepsOut.next; apply instr_keeps
  · assumption
  intro u0 u1 h2; apply issue_keeps; assumption

theorem execDmaWrite_keeps {s₀ : State} (k : Fin 8) (x : Fin 3) {s : State} (h₀ : Keeps s₀ s) :
    KeepsOut s₀ (execDmaWrite k x s) := by
  unfold execDmaWrite
  apply KeepsOut.next; apply instr_keeps
  · assumption
  intro u0 u1 h2; apply issue_keeps; assumption

theorem execRxferRead_keeps {s₀ : State} (k : Fin 8) (x : Fin 3) {s : State} (h₀ : Keeps s₀ s) :
    KeepsOut s₀ (execRxferRead k x s) := by
  unfold execRxferRead
  apply KeepsOut.next; apply instr_keeps
  · assumption
  intro u0 u1 h2; apply issue_keeps; assumption

theorem execRxferWrite_keeps {s₀ : State} (k : Fin 8) (x : Fin 3) {s : State} (h₀ : Keeps s₀ s) :
    KeepsOut s₀ (execRxferWrite k x s) := by
  unfold execRxferWrite
  apply KeepsOut.next; apply instr_keeps
  · assumption
  intro u0 u1 h2; apply issue_keeps; assumption

theorem execRcopy_keeps {s₀ : State} (k : Fin 8) (x : Fin 3) {s : State} (h₀ : Keeps s₀ s) :
    KeepsOut s₀ (execRcopy k x s) := by
  unfold execRcopy
  apply KeepsOut.next; apply instr_keeps
  · assumption
  intro u0 u1 h2; apply issue_keeps; assumption

theorem execSmld_keeps {s₀ : State} (k : Fin 8) (x : Fin 3) {s : State} (h₀ : Keeps s₀ s) :
    KeepsOut s₀ (execSmld k x s) := by
  unfold execSmld
  apply KeepsOut.next; apply instr_keeps
  · assumption
  intro u0 u1 h2; apply issue_keeps; assumption

theorem execSmst_keeps {s₀ : State} (k : Fin 8) (x : Fin 3) {s : State} (h₀ : Keeps s₀ s) :
    KeepsOut s₀ (execSmst k x s) := by
  unfold execSmst
  apply KeepsOut.next; apply instr_keeps
  · assumption
  intro u0 u1 h2; apply issue_keeps; assumption

theorem execPsend_keeps {s₀ : State} (k : Fin 8) (x : Fin 3) {s : State} (h₀ : Keeps s₀ s) :
    KeepsOut s₀ (execPsend k x s) := by
  unfold execPsend
  apply KeepsOut.next; apply instr_keeps
  · assumption
  intro u0 u1 h2; apply issue_keeps; assumption

theorem execQstatCurrent_keeps {s₀ : State} (k : Fin 8) (x : Fin 3) {s : State} (h₀ : Keeps s₀ s) :
    KeepsOut s₀ (execQstatCurrent k x s) := by
  unfold execQstatCurrent
  apply KeepsOut.next; apply instr_keeps
  · assumption
  intro u0 u1 h2; apply issue_keeps; assumption

theorem execQstatHistory_keeps {s₀ : State} (k : Fin 8) (x : Fin 3) {s : State} (h₀ : Keeps s₀ s) :
    KeepsOut s₀ (execQstatHistory k x s) := by
  unfold execQstatHistory
  apply KeepsOut.next; apply instr_keeps
  · assumption
  intro u0 u1 h2; apply issue_keeps; assumption

theorem execQuant_keeps {s₀ : State} (k : Fin 8) (x : Fin 3) {s : State} (h₀ : Keeps s₀ s) :
    KeepsOut s₀ (execQuant k x s) := by
  unfold execQuant
  apply KeepsOut.next; apply instr_keeps
  · assumption
  intro u0 u1 h2; apply issue_keeps; assumption

theorem execDeqFloat_keeps {s₀ : State} (k : Fin 8) (x : Fin 3) {s : State} (h₀ : Keeps s₀ s) :
    KeepsOut s₀ (execDeqFloat k x s) := by
  unfold execDeqFloat
  apply KeepsOut.next; apply instr_keeps
  · assumption
  intro u0 u1 h2; apply issue_keeps; assumption

theorem execDeqIntmul_keeps {s₀ : State} (k : Fin 8) (x : Fin 3) {s : State} (h₀ : Keeps s₀ s) :
    KeepsOut s₀ (execDeqIntmul k x s) := by
  unfold execDeqIntmul
  apply KeepsOut.next; apply instr_keeps
  · assumption
  intro u0 u1 h2; apply issue_keeps; assumption

theorem execQcvt_keeps {s₀ : State} (k : Fin 8) (x : Fin 3) {s : State} (h₀ : Keeps s₀ s) :
    KeepsOut s₀ (execQcvt k x s) := by
  unfold execQcvt
  apply KeepsOut.next; apply instr_keeps
  · assumption
  intro u0 u1 h2; apply issue_keeps; assumption

theorem execDigest_keeps {s₀ : State} (k : Fin 8) (x : Fin 3) {s : State} (h₀ : Keeps s₀ s) :
    KeepsOut s₀ (execDigest k x s) := by
  unfold execDigest
  apply KeepsOut.next; apply instr_keeps
  · assumption
  intro u0 u1 h2; apply issue_keeps; assumption

theorem execPtest_keeps {s₀ : State} (k : Fin 8) (x : Fin 3) {s : State} (h₀ : Keeps s₀ s) :
    KeepsOut s₀ (execPtest k x s) := by
  unfold execPtest
  apply KeepsOut.next; apply instr_keeps
  · assumption
  intro u0 u1 h2; apply issue_keeps; assumption

theorem execCkctl_keeps {s₀ : State} (k : Fin 8) (x : Fin 3) {s : State} (h₀ : Keeps s₀ s) :
    KeepsOut s₀ (execCkctl k x s) := by
  unfold execCkctl
  apply KeepsOut.next; apply instr_keeps
  · assumption
  intro u0 u1 h2; apply regOp_keeps; assumption

end Sys2Proof
end

