-- ==== Sys2Proof/Laws/KeepsControl.lean ====
section
/-! SUPPORT. `Keeps` of the operations of Sys2Proof/Machine/Control.lean. -/

set_option linter.unusedTactic false
set_option linter.unreachableTactic false
set_option linter.tactic.unusedName false
set_option linter.unusedVariables false

namespace Sys2Proof

open Machine

theorem branch_keeps {s₀ : State} {s : State} (k : Fin 8) (x : Fin 3) (t : Int) (h₀ : Keeps s₀ s) :
    Keeps s₀ (State.branch s k x t) := by
  unfold State.branch
  split; apply Keeps.ite
  · apply trapAt_keeps; assumption
  apply goTo_keeps; assumption

theorem execBr_keeps {s₀ : State} (k : Fin 8) (x : Fin 3) {s : State} (h₀ : Keeps s₀ s) :
    KeepsOut s₀ (execBr k x s) := by
  unfold execBr
  apply KeepsOut.next; apply instr_keeps
  · assumption
  intro u0 u1 h2; apply branch_keeps; assumption

theorem execBcc_keeps {s₀ : State} (k : Fin 8) (x : Fin 3) {s : State} (h₀ : Keeps s₀ s) :
    KeepsOut s₀ (execBcc k x s) := by
  unfold execBcc
  apply KeepsOut.next; apply instr_keeps
  · assumption
  intro u0 u1 h2; extract_lets +onlyGivenNames x3; apply Keeps.ite
  · apply branch_keeps; assumption
  apply advance_keeps; assumption

theorem execCall_keeps {s₀ : State} (k : Fin 8) (x : Fin 3) {s : State} (h₀ : Keeps s₀ s) :
    KeepsOut s₀ (execCall k x s) := by
  unfold execCall
  apply KeepsOut.next; apply instr_keeps
  · assumption
  intro u0 u1 h2; extract_lets +onlyGivenNames x3; split; extract_lets +onlyGivenNames x4; apply Keeps.ite
  · apply trapAt_keeps; assumption
  apply goTo_keeps; apply setCtx_keeps; assumption

theorem execJr_keeps {s₀ : State} (k : Fin 8) (x : Fin 3) {s : State} (h₀ : Keeps s₀ s) :
    KeepsOut s₀ (execJr k x s) := by
  unfold execJr
  apply KeepsOut.next; apply instr_keeps
  · assumption
  intro u0 u1 h2; apply branch_keeps; assumption

theorem execEret_keeps {s₀ : State} (k : Fin 8) (x : Fin 3) {s : State} (h₀ : Keeps s₀ s) :
    KeepsOut s₀ (execEret k x s) := by
  unfold execEret
  apply KeepsOut.next; apply instr_keeps
  · assumption
  intro u0 u1 h2; extract_lets +onlyGivenNames x3; apply Keeps.ite
  · apply trapAt_keeps; assumption
  apply setCtx_keeps; assumption

theorem raiseToken_keeps {s₀ : State} {s : State} (k : Fin 8) (x : Fin 3) (t : Nat) (h₀ : Keeps s₀ s) :
    Keeps s₀ (State.raiseToken s k x t) := by
  unfold State.raiseToken
  extract_lets +onlyGivenNames x0; apply raise_keeps; apply setCtx_keeps; assumption

theorem endWait_keeps {s₀ : State} {s : State} (k : Fin 8) (x : Fin 3) (mask : Nat) (h₀ : Keeps s₀ s) :
    Keeps s₀ (State.endWait s k x mask) := by
  unfold State.endWait
  extract_lets +onlyGivenNames x0; refine Keeps.cut s₀ x0 ?_ fun h1 => ?_
  · unfold x0; apply setCtx_keeps; assumption
  clear_value x0; split
  · apply raiseToken_keeps; assumption
  apply advance_keeps; assumption

theorem execTwait_keeps {s₀ : State} (k : Fin 8) (x : Fin 3) {s : State} (h₀ : Keeps s₀ s) :
    KeepsOut s₀ (execTwait k x s) := by
  unfold execTwait
  apply KeepsOut.next; apply instr_keeps
  · assumption
  intro u0 u1 h2; apply Keeps.ite
  · assumption
  apply endWait_keeps; assumption

theorem execTwaitm_keeps {s₀ : State} (k : Fin 8) (x : Fin 3) {s : State} (h₀ : Keeps s₀ s) :
    KeepsOut s₀ (execTwaitm k x s) := by
  unfold execTwaitm
  apply KeepsOut.next; apply instr_keeps
  · assumption
  intro u0 u1 h2; apply Keeps.ite
  · assumption
  apply endWait_keeps; assumption

theorem execTtest_keeps {s₀ : State} (k : Fin 8) (x : Fin 3) {s : State} (h₀ : Keeps s₀ s) :
    KeepsOut s₀ (execTtest k x s) := by
  unfold execTtest
  apply KeepsOut.next; apply instr_keeps
  · assumption
  intro u0 u1 h2; apply regOp_keeps; assumption

theorem execEndstripe_keeps {s₀ : State} (k : Fin 8) (x : Fin 3) {s : State} (h₀ : Keeps s₀ s) :
    KeepsOut s₀ (execEndstripe k x s) := by
  unfold execEndstripe
  apply KeepsOut.next; apply instr_keeps
  · assumption
  intro u0 u1 h2; extract_lets +onlyGivenNames x3; apply Keeps.ite
  · assumption
  split
  · apply raiseToken_keeps; assumption
  extract_lets +onlyGivenNames x4; extract_lets +onlyGivenNames x5; refine Keeps.cut s₀ x5 ?_ fun h6 => ?_
  · unfold x5; apply setCtx_keeps; assumption
  clear_value x5; extract_lets +onlyGivenNames x7; extract_lets +onlyGivenNames x8
  refine Keeps.cut s₀ x8 ?_ fun h9 => ?_
  · unfold x8; apply modJob_keeps; assumption
  clear_value x8; extract_lets +onlyGivenNames x10; refine Keeps.cut s₀ x10 ?_ fun h11 => ?_
  · unfold x10; apply log_keeps; assumption
  clear_value x10; apply settle_keeps; assumption

theorem jobHalted_keeps {s₀ : State} {s : State} (id : Nat) (h₀ : Keeps s₀ s) :
    Keeps s₀ (State.jobHalted s id) := by
  unfold State.jobHalted
  split
  · assumption
  apply Keeps.ite
  · extract_lets +onlyGivenNames x0; extract_lets +onlyGivenNames x1; extract_lets +onlyGivenNames x2
    refine Keeps.cut s₀ x2 ?_ fun h3 => ?_
    · unfold x2
      apply settleDev_keeps; apply setJob_keeps; assumption
    clear_value x2; extract_lets +onlyGivenNames x4; refine Keeps.cut s₀ x4 ?_ fun h5 => ?_
    · unfold x4
      apply Keeps.ite
      · apply setF_keeps; apply setF_keeps; assumption
      assumption
    clear_value x4; apply endReply_keeps; assumption
  assumption

theorem execHalt_keeps {s₀ : State} (k : Fin 8) (x : Fin 3) {s : State} (h₀ : Keeps s₀ s) :
    KeepsOut s₀ (execHalt k x s) := by
  unfold execHalt
  apply KeepsOut.next; apply instr_keeps
  · assumption
  intro u0 u1 h2; extract_lets +onlyGivenNames x3; apply Keeps.ite
  · assumption
  split
  · apply raiseToken_keeps; assumption
  extract_lets +onlyGivenNames x4; extract_lets +onlyGivenNames x5; refine Keeps.cut s₀ x5 ?_ fun h6 => ?_
  · unfold x5; apply setHalted_keeps; apply setCtx_keeps; assumption
  clear_value x5; apply jobHalted_keeps; apply settle_keeps; assumption

theorem releaseBars_keeps {s₀ : State} {s : State} (id : Nat) (h₀ : Keeps s₀ s) :
    Keeps s₀ (State.releaseBars s id) := by
  unfold State.releaseBars
  split
  · assumption
  extract_lets +onlyGivenNames x0; apply Keeps.foldl
  · assumption
  intro u1 u2 h3; extract_lets +onlyGivenNames x4; apply Keeps.ite
  · apply setCtx_keeps; assumption
  assumption

theorem ringIssue_keeps {s₀ : State} (send : Bool) (k : Fin 8) (x : Fin 3) (w : BitVec 64) {s : State} (h₀ : Keeps s₀
    s) :
    Keeps s₀ (State.ringIssue send k x w s) := by
  unfold State.ringIssue
  extract_lets +onlyGivenNames x0; extract_lets +onlyGivenNames x1; extract_lets +onlyGivenNames x2
  extract_lets +onlyGivenNames x3; apply Keeps.ite
  · apply trapAt_keeps; assumption
  apply Keeps.ite
  · apply trapAt_keeps; assumption
  extract_lets +onlyGivenNames x4; apply Keeps.ite
  · apply advance_keeps; apply setCtx_keeps; assumption
  extract_lets +onlyGivenNames x5; apply Keeps.ite
  · apply setCtx_keeps; assumption
  apply advance_keeps; apply setCtx_keeps; assumption

theorem execGsend_keeps {s₀ : State} (k : Fin 8) (x : Fin 3) {s : State} (h₀ : Keeps s₀ s) :
    KeepsOut s₀ (execGsend k x s) := by
  unfold execGsend
  apply KeepsOut.next; apply instr_keeps
  · assumption
  intro u0 u1 h2; apply ringIssue_keeps; assumption

theorem execGrecv_keeps {s₀ : State} (k : Fin 8) (x : Fin 3) {s : State} (h₀ : Keeps s₀ s) :
    KeepsOut s₀ (execGrecv k x s) := by
  unfold execGrecv
  apply KeepsOut.next; apply instr_keeps
  · assumption
  intro u0 u1 h2; apply ringIssue_keeps; assumption

theorem protectRec_keeps {s₀ : State} {s : State} (id : Nat) (k : Nat) (u : Nat) (r : Nat) (h₀ : Keeps s₀ s) :
    Keeps s₀ (State.protectRec s id k u r) := by
  unfold State.protectRec
  apply reportAft_keeps; assumption

theorem ringDeliver1_keeps {s₀ : State} {s : State} (k : Fin 8) (x : Fin 3) (right : Bool) (h₀ : Keeps s₀ s) :
    KeepsOpt s₀ (State.ringDeliver1 s k x right) := by
  unfold State.ringDeliver1
  extract_lets +onlyGivenNames x0; refine CoreOk.cut s₀ x0 ?_ fun h1 => ?_
  · unfold x0
    apply Keeps.core; assumption
  clear_value x0; extract_lets +onlyGivenNames x2; split
  · apply KeepsOpt.none
  extract_lets +onlyGivenNames x3; apply KeepsOpt.ite
  · apply KeepsOpt.some
    unfold x3
    apply Keeps.setCore
    · assumption
    extract_lets +onlyGivenNames x5; refine CoreOk.cut s₀ x5 ?_ fun h6 => ?_
    · unfold x5
      apply Keeps.core; assumption
    clear_value x5; apply CoreOk.upd; assumption
  apply KeepsOpt.ite
  · apply KeepsOpt.some; apply bump_keeps
    unfold x3
    apply Keeps.setCore
    · assumption
    extract_lets +onlyGivenNames x7; refine CoreOk.cut s₀ x7 ?_ fun h8 => ?_
    · unfold x7
      apply Keeps.core; assumption
    clear_value x7; apply CoreOk.upd; assumption
  apply KeepsOpt.ite
  · apply KeepsOpt.none
  extract_lets +onlyGivenNames x9; split
  · apply KeepsOpt.none
  extract_lets +onlyGivenNames x10; extract_lets +onlyGivenNames x11; refine Keeps.cut s₀ x11 ?_ fun h12 => ?_
  · unfold x11
    unfold x3
    apply Keeps.setCore
    · assumption
    extract_lets +onlyGivenNames x13; refine CoreOk.cut s₀ x13 ?_ fun h14 => ?_
    · unfold x13
      apply Keeps.core; assumption
    clear_value x13; apply CoreOk.upd; assumption
  clear_value x11; extract_lets +onlyGivenNames x15; extract_lets +onlyGivenNames x16
  refine Keeps.cut s₀ x16 ?_ fun h17 => ?_
  · unfold x16
    unfold x15
    split
    · apply Keeps.mk_fst; assumption
    apply Keeps.ite_fst
    · apply Keeps.mk_fst; apply protectRec_keeps; assumption
    apply Keeps.mk_fst; apply Keeps.ite
    · apply putAwn_keeps; assumption
    apply putRow_keeps; assumption
  clear_value x16; extract_lets +onlyGivenNames x18; extract_lets +onlyGivenNames x19; apply KeepsOpt.ite
  · apply KeepsOpt.some; apply setCtx_keeps; assumption
  apply KeepsOpt.some; apply setCtx_keeps; assumption

theorem ringDeliver_keeps {s₀ : State} (k : Fin 8) (x : Fin 3) (right : Bool) (a1 : Nat) {a2 : State} (h₀ : Keeps s₀
    a2) :
    Keeps s₀ (State.ringDeliver k x right a1 a2) := by
  induction a1 generalizing k x right a2 with
  | zero =>
    unfold State.ringDeliver
    assumption
  | succ n ih =>
    unfold State.ringDeliver
    split
    · assumption
    rename_i r0 r1 r2; refine Keeps.cut s₀ r1 (KeepsOpt.of r2 ?_) fun h3 => ?_
    · apply ringDeliver1_keeps; assumption
    apply ih; assumption

theorem ringMove_keeps {s₀ : State} (k : Fin 8) (x : Fin 3) (right : Bool) (flips : List (Nat × Flip)) (dst : List (Fin
    8)) (a5 : List Nat) {a6 : State} (h₀ : Keeps s₀ a6) :
    Keeps s₀ (State.ringMove k x right flips dst a5 a6) := by
  induction a5 generalizing k x right flips dst a6 with
  | nil =>
    unfold State.ringMove
    assumption
  | cons x l ih =>
    unfold State.ringMove
    apply Keeps.ite
    · assumption
    extract_lets +onlyGivenNames x0; extract_lets +onlyGivenNames x1; split
    · assumption
    extract_lets +onlyGivenNames x2; extract_lets +onlyGivenNames x3; extract_lets +onlyGivenNames x4
    extract_lets +onlyGivenNames x5; extract_lets +onlyGivenNames x6; extract_lets +onlyGivenNames x7
    refine Keeps.cut s₀ x7 ?_ fun h8 => ?_
    · unfold x7
      unfold x5
      apply hop_keeps
      unfold x4
      apply Keeps.ite_snd
      · apply Keeps.mk_snd; apply drawn_keeps; apply protectRec_keeps; assumption
      apply Keeps.ite_snd
      · apply getAwn_keeps; assumption
      apply getRow_keeps; assumption
    clear_value x7; extract_lets +onlyGivenNames x9; extract_lets +onlyGivenNames x10
    extract_lets +onlyGivenNames x11; refine Keeps.cut s₀ x11 ?_ fun h12 => ?_
    · unfold x11
      apply Keeps.foldl
      · assumption
      intro u13 u14 h15; apply Keeps.setCore
      · assumption
      extract_lets +onlyGivenNames x16; refine CoreOk.cut s₀ x16 ?_ fun h17 => ?_
      · unfold x16
        apply Keeps.core; assumption
      clear_value x16; apply CoreOk.upd; assumption
    clear_value x11; extract_lets +onlyGivenNames x18; extract_lets +onlyGivenNames x19
    refine Keeps.cut s₀ x19 ?_ fun h20 => ?_
    · unfold x19
      apply Keeps.ite
      · apply setCtx_keeps; assumption
      apply setCtx_keeps; assumption
    clear_value x19; extract_lets +onlyGivenNames x21; refine Keeps.cut s₀ x21 ?_ fun h22 => ?_
    · unfold x21
      apply Keeps.foldl
      · assumption
      intro u23 u24 h25; apply ringDeliver_keeps; assumption
    clear_value x21; apply ih; assumption

theorem execGuylineRowsArrive_keeps {s₀ : State} (k : Fin 8) (x : Fin 3) (e : RingArrival) {s : State} (h₀ : Keeps s₀ s)
    :
    KeepsOut s₀ (execGuylineRowsArrive k x e s) := by
  unfold execGuylineRowsArrive
  extract_lets +onlyGivenNames x0; split
  · apply KeepsOut.next; assumption
  split
  · apply KeepsOut.next; assumption
  extract_lets +onlyGivenNames x1; extract_lets +onlyGivenNames x2; refine Keeps.cut s₀ x2 ?_ fun h3 => ?_
  · unfold x2
    apply Keeps.foldl
    · apply bumpWrap_keeps; assumption
    intro u4 u5 h6; apply waited_keeps; assumption
  clear_value x2; extract_lets +onlyGivenNames x7; refine Keeps.cut s₀ x7 ?_ fun h8 => ?_
  · unfold x7
    apply Keeps.foldl
    · assumption
    intro u9 u10 h11; apply ringDeliver_keeps; assumption
  clear_value x7; extract_lets +onlyGivenNames x12; refine Keeps.cut s₀ x12 ?_ fun h13 => ?_
  · unfold x12
    split
    · assumption
    apply ringMove_keeps; assumption
  clear_value x12; apply KeepsOut.next; apply Keeps.foldl
  · assumption
  intro u14 u15 h16; apply settle_keeps; assumption

theorem execWwait_keeps {s₀ : State} (k : Fin 8) (x : Fin 3) {s : State} (h₀ : Keeps s₀ s) :
    KeepsOut s₀ (execWwait k x s) := by
  unfold execWwait
  apply KeepsOut.next; apply instr_keeps
  · assumption
  intro u0 u1 h2; extract_lets +onlyGivenNames x3; extract_lets +onlyGivenNames x4; extract_lets +onlyGivenNames x5
  extract_lets +onlyGivenNames x6; apply Keeps.ite
  · apply regOp_keeps; assumption
  apply Keeps.ite
  · apply regOp_keeps; assumption
  assumption

theorem execTrap_keeps {s₀ : State} (k : Fin 8) (x : Fin 3) {s : State} (h₀ : Keeps s₀ s) :
    KeepsOut s₀ (execTrap k x s) := by
  unfold execTrap
  apply KeepsOut.next; apply instr_keeps
  · assumption
  intro u0 u1 h2; apply raise_keeps; assumption

theorem regAccess_keeps {s₀ : State} (write : Bool) (k : Fin 8) (x : Fin 3) (w : BitVec 64) {s : State} (h₀ : Keeps s₀
    s) :
    Keeps s₀ (State.regAccess write k x w s) := by
  unfold State.regAccess
  extract_lets +onlyGivenNames x0; extract_lets +onlyGivenNames x1; apply Keeps.ite
  · apply trapAt_keeps; assumption
  apply Keeps.ite
  · apply setCtx_keeps; assumption
  extract_lets +onlyGivenNames x2; extract_lets +onlyGivenNames x3; apply regOp_keeps; apply reportAft_keeps
  assumption

theorem execCrr_keeps {s₀ : State} (k : Fin 8) (x : Fin 3) {s : State} (h₀ : Keeps s₀ s) :
    KeepsOut s₀ (execCrr k x s) := by
  unfold execCrr
  apply KeepsOut.next; apply instr_keeps
  · assumption
  intro u0 u1 h2; apply regAccess_keeps; assumption

theorem execCrw_keeps {s₀ : State} (k : Fin 8) (x : Fin 3) {s : State} (h₀ : Keeps s₀ s) :
    KeepsOut s₀ (execCrw k x s) := by
  unfold execCrw
  apply KeepsOut.next; apply instr_keeps
  · assumption
  intro u0 u1 h2; apply regAccess_keeps; assumption

theorem execSrseed_keeps {s₀ : State} (k : Fin 8) (x : Fin 3) {s : State} (h₀ : Keeps s₀ s) :
    KeepsOut s₀ (execSrseed k x s) := by
  unfold execSrseed
  apply KeepsOut.next; apply instr_keeps
  · assumption
  intro u0 u1 h2; extract_lets +onlyGivenNames x3; apply Keeps.ite
  · apply regOp_keeps; assumption
  assumption

theorem execLogput_keeps {s₀ : State} (k : Fin 8) (x : Fin 3) {s : State} (h₀ : Keeps s₀ s) :
    KeepsOut s₀ (execLogput k x s) := by
  unfold execLogput
  apply KeepsOut.next; apply instr_keeps
  · assumption
  intro u0 u1 h2; extract_lets +onlyGivenNames x3; extract_lets +onlyGivenNames x4; extract_lets +onlyGivenNames x5
  refine Keeps.cut s₀ x5 ?_ fun h6 => ?_
  · unfold x5; apply log_keeps; assumption
  clear_value x5; extract_lets +onlyGivenNames x7; refine Keeps.cut s₀ x7 ?_ fun h8 => ?_
  · unfold x7; apply Keeps.ite
    · apply bump_keeps; assumption
    assumption
  clear_value x7; apply advance_keeps; assumption

end Sys2Proof
end

