-- ==== Sys2Proof/Laws/KeepsFrames.lean ====
section
/-! SUPPORT. `Keeps` of the operations of Sys2Proof/Machine/Frames.lean. -/

set_option linter.unusedTactic false
set_option linter.unreachableTactic false
set_option linter.tactic.unusedName false
set_option linter.unusedVariables false

namespace Sys2Proof

open Machine

theorem takeFld_keeps {s₀ : State} {s : State} (f : Fld) (h₀ : Keeps s₀ s) :
    Keeps s₀ (State.takeFld s f) := by
  unfold State.takeFld
  apply setForce_keeps; assumption

theorem dropBandRows_keeps {s₀ : State} {s : State} (j : Job) (no : Nat) (k : Nat) (h₀ : Keeps s₀ s) :
    Keeps s₀ (State.dropBandRows s j no k) := by
  unfold State.dropBandRows
  extract_lets +onlyGivenNames x0; extract_lets +onlyGivenNames x1; extract_lets +onlyGivenNames x2
  extract_lets +onlyGivenNames x3; refine Keeps.cut s₀ x3 ?_ fun h4 => ?_
  · unfold x3
    apply Keeps.upd₀; assumption
  clear_value x3; apply Keeps.upd₀; assumption

theorem missBand_keeps {s₀ : State} {s : State} (id : Nat) (k : Nat) (h₀ : Keeps s₀ s) :
    Keeps s₀ (State.missBand s id k) := by
  unfold State.missBand
  extract_lets +onlyGivenNames x0; refine Keeps.cut s₀ x0 ?_ fun h1 => ?_
  · unfold x0; apply modJob_keeps; assumption
  clear_value x0; extract_lets +onlyGivenNames x2; extract_lets +onlyGivenNames x3
  refine Keeps.cut s₀ x3 ?_ fun h4 => ?_
  · unfold x3; apply reportAft_keeps; assumption
  clear_value x3; apply raiseCause_keeps; assumption

theorem settleBand_keeps {s₀ : State} {s : State} (id : Nat) (no : Nat) (k : Nat) (h₀ : Keeps s₀ s) :
    Keeps s₀ (State.settleBand s id no k) := by
  unfold State.settleBand
  split
  · assumption
  split
  · apply Keeps.ite
    · assumption
    extract_lets +onlyGivenNames x0; extract_lets +onlyGivenNames x1; extract_lets +onlyGivenNames x2
    refine Keeps.cut s₀ x2 ?_ fun h3 => ?_
    · unfold x2; apply modJob_keeps; assumption
    clear_value x2; extract_lets +onlyGivenNames x4; refine Keeps.cut s₀ x4 ?_ fun h5 => ?_
    · unfold x4; apply Keeps.ite
      · apply missBand_keeps; assumption
      assumption
    clear_value x4; extract_lets +onlyGivenNames x6; apply Keeps.ite
    · apply raiseCause_keeps; assumption
    assumption
  assumption

theorem stripeReady_keeps {s₀ : State} {s : State} (id : Nat) (no : Nat) (k : Nat) (h₀ : Keeps s₀ s) :
    Keeps s₀ (State.stripeReady s id no k) := by
  unfold State.stripeReady
  split
  · assumption
  split
  · assumption
  split
  · assumption
  apply Keeps.ite
  · assumption
  extract_lets +onlyGivenNames x0; extract_lets +onlyGivenNames x1; refine Keeps.cut s₀ x1 ?_ fun h2 => ?_
  · unfold x1; apply modJob_keeps; assumption
  clear_value x1; apply Keeps.ite
  · assumption
  apply settleBand_keeps; assumption

theorem landed_keeps {s₀ : State} {s : State} (h₀ : Keeps s₀ s) :
    Keeps s₀ (State.landed s) := by
  unfold State.landed
  extract_lets +onlyGivenNames x0; extract_lets +onlyGivenNames x1; extract_lets +onlyGivenNames x2
  extract_lets +onlyGivenNames x3; refine Keeps.cut s₀ x3 ?_ fun h4 => ?_
  · unfold x3
    apply Keeps.upd₀; assumption
  clear_value x3; apply Keeps.foldl
  · assumption
  intro u5 u6 h7; apply stripeReady_keeps; assumption

theorem showDx_keeps {s₀ : State} {s : State} (j : Job) (h₀ : Keeps s₀ s) :
    Keeps s₀ (State.showDx s j) := by
  unfold State.showDx
  apply Keeps.foldl
  · assumption
  intro u0 u1 h2; apply Keeps.ite
  · apply setF_keeps; apply setF_keeps; assumption
  apply setF_keeps; apply setF_keeps; assumption

theorem tapShot_keeps {s₀ : State} {s : State} (t : Fin 2) (job : Nat) (no : Nat) (h₀ : Keeps s₀ s) :
    Keeps s₀ (State.tapShot s t job no) := by
  unfold State.tapShot
  extract_lets +onlyGivenNames x0; apply Keeps.upd₀; assumption

theorem tapShots_keeps {s₀ : State} {s : State} (j : Job) (no : Nat) (h₀ : Keeps s₀ s) :
    Keeps s₀ (State.tapShots s j no) := by
  unfold State.tapShots
  extract_lets +onlyGivenNames x0; refine Keeps.cut s₀ x0 ?_ fun h1 => ?_
  · unfold x0
    apply Keeps.ite
    · apply tapShot_keeps; assumption
    assumption
  clear_value x0; apply Keeps.ite
  · apply tapShot_keeps; assumption
  assumption

theorem beginFrame_keeps {s₀ : State} {s : State} (id : Nat) (ctx : Nat) (src : Nat) (fs : Nat) (h : Nat) (depth : Nat)
    (flags : Nat) (buf : Option Nat) (h₀ : Keeps s₀ s) :
    Keeps s₀ (State.beginFrame s id ctx src fs h depth flags buf) := by
  unfold State.beginFrame
  extract_lets +onlyGivenNames x0; refine Keeps.cut s₀ x0 ?_ fun h1 => ?_
  · unfold x0
    split
    · assumption
    apply tapShots_keeps; assumption
  clear_value x0; extract_lets +onlyGivenNames x2; refine Keeps.cut s₀ x2 ?_ fun h3 => ?_
  · unfold x2
    apply modJob_keeps; assumption
  clear_value x2; split
  · assumption
  apply showDx_keeps; assumption

theorem initSmem_keeps {s₀ : State} {s : State} (j : Job) (k : Fin 8) (h₀ : Keeps s₀ s) :
    Keeps s₀ (State.initSmem s j k) := by
  unfold State.initSmem
  extract_lets +onlyGivenNames x0; extract_lets +onlyGivenNames x1; refine Keeps.cut s₀ x1 ?_ fun h2 => ?_
  · unfold x1; apply smemPut_keeps; assumption
  clear_value x1; apply Keeps.foldl
  · assumption
  intro u3 u4 h5; apply Keeps.ite
  · apply smemPut_keeps; assumption
  assumption

theorem activate_keeps {s₀ : State} {s : State} (id : Nat) (h₀ : Keeps s₀ s) :
    Keeps s₀ (State.activate s id) := by
  unfold State.activate
  split
  · assumption
  extract_lets +onlyGivenNames x0; extract_lets +onlyGivenNames x1; extract_lets +onlyGivenNames x2
  extract_lets +onlyGivenNames x3; extract_lets +onlyGivenNames x4; extract_lets +onlyGivenNames x5
  refine Keeps.cut s₀ x5 ?_ fun h6 => ?_
  · unfold x5
    apply setJob_keeps; assumption
  clear_value x5; extract_lets +onlyGivenNames x7; extract_lets +onlyGivenNames x8
  refine Keeps.cut s₀ x8 ?_ fun h9 => ?_
  · unfold x8
    apply Keeps.foldl
    · assumption
    intro u10 u11 h12; extract_lets +onlyGivenNames x13; refine Keeps.cut s₀ x13 ?_ fun h14 => ?_
    · unfold x13
      apply setHalted_keeps; apply setCtx_keeps; assumption
    clear_value x13; extract_lets +onlyGivenNames x15; refine Keeps.cut s₀ x15 ?_ fun h16 => ?_
    · unfold x15
      apply initSmem_keeps; assumption
    clear_value x15; extract_lets +onlyGivenNames x17; refine CoreOk.cut s₀ x17 ?_ fun h18 => ?_
    · unfold x17
      apply Keeps.core; assumption
    clear_value x17; extract_lets +onlyGivenNames x19; refine Keeps.cut s₀ x19 ?_ fun h20 => ?_
    · unfold x19
      apply Keeps.setCore
      · assumption
      apply CoreOk.upd; assumption
    clear_value x19; extract_lets +onlyGivenNames x21; refine Keeps.cut s₀ x21 ?_ fun h22 => ?_
    · unfold x21
      apply takeFld_keeps; apply takeFld_keeps; assumption
    clear_value x21; extract_lets +onlyGivenNames x23; refine Keeps.cut s₀ x23 ?_ fun h24 => ?_
    · unfold x23
      apply Keeps.ite
      · apply takeFld_keeps; assumption
      apply takeFld_keeps; assumption
    clear_value x23; extract_lets +onlyGivenNames x25; extract_lets +onlyGivenNames x26
    refine Keeps.cut s₀ x26 ?_ fun h27 => ?_
    · unfold x26
      apply Keeps.ite
      · apply setIsl_keeps; assumption
      assumption
    clear_value x26; apply settle_keeps; assumption
  clear_value x8; extract_lets +onlyGivenNames x28; refine Keeps.cut s₀ x28 ?_ fun h29 => ?_
  · unfold x28
    apply Keeps.ite
    · apply setF_keeps; apply setF_keeps; apply setF_keeps; apply setF_keeps; assumption
    assumption
  clear_value x28; apply settleDev_keeps; apply showDx_keeps; assumption

theorem setInCtx_keeps {s₀ : State} {s : State} (n : Fin 8) (c : InCtx) (h₀ : Keeps s₀ s) :
    Keeps s₀ (State.setInCtx s n c) := by
  unfold State.setInCtx
  apply Keeps.upd₀; assumption

theorem memNext_keeps {s₀ : State} {s : State} (id : Nat) (h₀ : Keeps s₀ s) :
    Keeps s₀ (State.memNext s id) := by
  unfold State.memNext
  split
  · assumption
  apply Keeps.ite
  · assumption
  split
  · assumption
  extract_lets +onlyGivenNames x0; split
  · assumption
  extract_lets +onlyGivenNames x1; refine Keeps.cut s₀ x1 ?_ fun h2 => ?_
  · unfold x1; apply setInCtx_keeps; assumption
  clear_value x1; apply beginFrame_keeps; assumption

theorem stopDone_keeps {s₀ : State} {s : State} (id : Nat) (h₀ : Keeps s₀ s) :
    Keeps s₀ (State.stopDone s id) := by
  unfold State.stopDone
  split
  · assumption
  apply Keeps.ite
  · assumption
  extract_lets +onlyGivenNames x0; refine Keeps.cut s₀ x0 ?_ fun h1 => ?_
  · unfold x0; apply haltJob_keeps; assumption
  clear_value x0; extract_lets +onlyGivenNames x2; refine Keeps.cut s₀ x2 ?_ fun h3 => ?_
  · unfold x2; apply setJob_keeps; assumption
  clear_value x2; extract_lets +onlyGivenNames x4; refine Keeps.cut s₀ x4 ?_ fun h5 => ?_
  · unfold x4; apply Keeps.foldl
    · assumption
    intro u6 u7 h8; apply setHalted_keeps; assumption
  clear_value x4; extract_lets +onlyGivenNames x9; refine Keeps.cut s₀ x9 ?_ fun h10 => ?_
  · unfold x9; apply Keeps.ite
    · apply setF_keeps; assumption
    assumption
  clear_value x9; apply stopReply_keeps; apply settleDev_keeps; assumption

theorem askStop_keeps {s₀ : State} {s : State} (id : Nat) (h₀ : Keeps s₀ s) :
    Keeps s₀ (State.askStop s id) := by
  unfold State.askStop
  split
  · assumption
  extract_lets +onlyGivenNames x0; extract_lets +onlyGivenNames x1; refine Keeps.cut s₀ x1 ?_ fun h2 => ?_
  · unfold x1; apply Keeps.foldl
    · assumption
    intro u3 u4 h5; extract_lets +onlyGivenNames x6; extract_lets +onlyGivenNames x7; apply setInCtx_keeps; assumption
  clear_value x1; apply stopDone_keeps; apply modJob_keeps; assumption

theorem showNms_keeps {s₀ : State} {s : State} (h₀ : Keeps s₀ s) :
    Keeps s₀ (State.showNms s) := by
  unfold State.showNms
  extract_lets +onlyGivenNames x0; apply setF_keeps; assumption

theorem bandOver_keeps {s₀ : State} {s : State} (id : Nat) (h₀ : Keeps s₀ s) :
    Keeps s₀ (State.bandOver s id) := by
  unfold State.bandOver
  apply memNext_keeps; apply stopDone_keeps; apply showNms_keeps; assumption

theorem inlineStart_keeps {s₀ : State} {s : State} (ctx : Nat) (src : Nat) (fs : Nat) (h : Nat) (depth : Nat) (h₀ :
    Keeps s₀ s) :
    Keeps s₀ (State.inlineStart s ctx src fs h depth) := by
  unfold State.inlineStart
  split
  · assumption
  extract_lets +onlyGivenNames x0; refine Keeps.cut s₀ x0 ?_ fun h1 => ?_
  · unfold x0
    apply Keeps.foldl
    · assumption
    intro u2 u3 h4; extract_lets +onlyGivenNames x5; apply Keeps.ite
    · apply settleBand_keeps; apply modJob_keeps; assumption
    assumption
  clear_value x0; extract_lets +onlyGivenNames x6; refine Keeps.cut s₀ x6 ?_ fun h7 => ?_
  · unfold x6
    apply Keeps.ite
    · apply modJob_keeps; assumption
    apply Keeps.ite
    · apply activate_keeps; assumption
    assumption
  clear_value x6; split
  · assumption
  apply Keeps.ite
  · apply beginFrame_keeps; assumption
  assumption

theorem beginStep_keeps {s₀ : State} {s : State} (id : Nat) (h₀ : Keeps s₀ s) :
    Keeps s₀ (State.beginStep s id) := by
  unfold State.beginStep
  extract_lets +onlyGivenNames x0; extract_lets +onlyGivenNames x1; refine Keeps.cut s₀ x1 ?_ fun h2 => ?_
  · unfold x1
    apply modJob_keeps; assumption
  clear_value x1; extract_lets +onlyGivenNames x3; refine Keeps.cut s₀ x3 ?_ fun h4 => ?_
  · unfold x3
    apply beginFrame_keeps; assumption
  clear_value x3; extract_lets +onlyGivenNames x5; refine Keeps.cut s₀ x5 ?_ fun h6 => ?_
  · unfold x5
    apply takeForce_keeps; apply modJob_keeps; assumption
  clear_value x5; split
  · assumption
  apply stripeReady_keeps; assumption

end Sys2Proof
end

