-- ==== Sys2Proof/Laws/KeepsDispatcher.lean ====
section
/-! SUPPORT. `Keeps` of the operations of Sys2Proof/Machine/Dispatcher.lean. -/

set_option linter.unusedTactic false
set_option linter.unreachableTactic false
set_option linter.tactic.unusedName false
set_option linter.unusedVariables false

namespace Sys2Proof

open Machine

theorem countStripe_keeps {s₀ : State} {s : State} (id : Nat) (no : Nat) (k : Nat) (atEnd : Bool) (h₀ : Keeps s₀ s) :
    Keeps s₀ (State.countStripe s id no k atEnd) := by
  unfold State.countStripe
  apply modJob_keeps; assumption

theorem dropRows_keeps {s₀ : State} {s : State} (k : Fin 8) (x : Fin 3) (h₀ : Keeps s₀ s) :
    Keeps s₀ (State.dropRows s k x) := by
  unfold State.dropRows
  extract_lets +onlyGivenNames x0; refine CoreOk.cut s₀ x0 ?_ fun h1 => ?_
  · unfold x0; apply Keeps.core; assumption
  clear_value x0; extract_lets +onlyGivenNames x2; extract_lets +onlyGivenNames x3; apply bump_keeps
  apply Keeps.setCore
  · assumption
  apply CoreOk.upd; assumption

theorem setMode_keeps {s₀ : State} {s : State} (k : Fin 8) (x : Fin 3) (m : Nat) (h₀ : Keeps s₀ s) :
    Keeps s₀ (State.setMode s k x m) := by
  unfold State.setMode
  apply Keeps.ite
  · apply setF_keeps; apply setF_keeps; assumption
  apply setF_keeps; apply setF_keeps; assumption

theorem startStripe_keeps {s₀ : State} {s : State} (j : Job) (k : Fin 8) (h₀ : Keeps s₀ s) :
    Keeps s₀ (State.startStripe s j k) := by
  unfold State.startStripe
  split
  · assumption
  extract_lets +onlyGivenNames x0; extract_lets +onlyGivenNames x1; extract_lets +onlyGivenNames x2
  extract_lets +onlyGivenNames x3; extract_lets +onlyGivenNames x4; refine Keeps.cut s₀ x4 ?_ fun h5 => ?_
  · unfold x4
    apply takeForce_keeps; apply countStripe_keeps; apply setCtx_keeps; apply setJob_keeps; assumption
  clear_value x4; extract_lets +onlyGivenNames x6; refine Keeps.cut s₀ x6 ?_ fun h7 => ?_
  · unfold x6
    apply dropRows_keeps; apply setMode_keeps; assumption
  clear_value x6; apply settle_keeps; apply log_keeps; assumption

theorem execStripeStart_keeps {s₀ : State} (id : Nat) (k : Fin 8) {s : State} (h₀ : Keeps s₀ s) :
    KeepsOut s₀ (execStripeStart id k s) := by
  unfold execStripeStart
  split
  · apply KeepsOut.next; assumption
  extract_lets +onlyGivenNames x0; extract_lets +onlyGivenNames x1; apply KeepsOut.ite
  · apply KeepsOut.next; apply Keeps.foldl
    · assumption
    intro u2 u3 h4; split
    · apply startStripe_keeps; assumption
    assumption
  apply KeepsOut.next; assumption

theorem stopStripe_keeps {s₀ : State} {s : State} (id : Nat) (x : Fin 3) (no : Nat) (k : Nat) (c : Fin 8) (h₀ : Keeps s₀
    s) :
    Keeps s₀ (State.stopStripe s id x no k c) := by
  unfold State.stopStripe
  extract_lets +onlyGivenNames x0; apply Keeps.ite
  · extract_lets +onlyGivenNames x1; refine Keeps.cut s₀ x1 ?_ fun h2 => ?_
    · unfold x1
      apply setCtx_keeps; assumption
    clear_value x1; apply settle_keeps; apply log_keeps; assumption
  assumption

theorem dropStripe_keeps {s₀ : State} {s : State} (id : Nat) (ord : Nat) (h₀ : Keeps s₀ s) :
    Keeps s₀ (State.dropStripe s id ord) := by
  unfold State.dropStripe
  apply Keeps.forCores
  · assumption
  intro u0 u1 h2; apply Keeps.setCore
  · assumption
  extract_lets +onlyGivenNames x3; refine CoreOk.cut s₀ x3 ?_ fun h4 => ?_
  · unfold x3
    apply Keeps.core; assumption
  clear_value x3; apply CoreOk.upd; assumption

theorem dropRun_keeps {s₀ : State} {s : State} (id : Nat) (no : Nat) (k : Nat) (h₀ : Keeps s₀ s) :
    Keeps s₀ (State.dropRun s id no k) := by
  unfold State.dropRun
  split
  · assumption
  apply Keeps.ite
  · apply setF_keeps; apply Keeps.upd₀; assumption
  assumption

theorem abortBand_keeps {s₀ : State} {s : State} (id : Nat) (x : JFrame) (k : Nat) (h₀ : Keeps s₀ s) :
    Keeps s₀ (State.abortBand s id x k) := by
  unfold State.abortBand
  extract_lets +onlyGivenNames x0; refine Keeps.cut s₀ x0 ?_ fun h1 => ?_
  · unfold x0
    apply modJob_keeps; apply countStripe_keeps; assumption
  clear_value x0; extract_lets +onlyGivenNames x2; refine Keeps.cut s₀ x2 ?_ fun h3 => ?_
  · unfold x2
    apply dropStripe_keeps; apply dropRun_keeps; apply missBand_keeps; assumption
  clear_value x2; split
  · assumption
  apply bandOver_keeps; apply dropBandRows_keeps; apply Keeps.foldl
  · assumption
  intro u4 u5 h6; apply stopStripe_keeps; assumption

theorem execStripeAbort_keeps {s₀ : State} (id : Nat) {s : State} (h₀ : Keeps s₀ s) :
    KeepsOut s₀ (execStripeAbort id s) := by
  unfold execStripeAbort
  split
  · apply KeepsOut.next; assumption
  split
  · apply KeepsOut.next; assumption
  apply KeepsOut.ite
  · apply KeepsOut.next; apply abortBand_keeps; assumption
  apply KeepsOut.next; assumption

theorem execBandComplete_keeps {s₀ : State} (id : Nat) {s : State} (h₀ : Keeps s₀ s) :
    KeepsOut s₀ (execBandComplete id s) := by
  unfold execBandComplete
  split
  · apply KeepsOut.next; assumption
  split
  · apply KeepsOut.next; assumption
  apply KeepsOut.ite
  · extract_lets +onlyGivenNames x0; extract_lets +onlyGivenNames x1; refine Keeps.cut s₀ x1 ?_ fun h2 => ?_
    · unfold x1
      apply modJob_keeps; apply countStripe_keeps; assumption
    clear_value x1; extract_lets +onlyGivenNames x3; refine Keeps.cut s₀ x3 ?_ fun h4 => ?_
    · unfold x3
      apply settleBand_keeps; assumption
    clear_value x3; extract_lets +onlyGivenNames x5; refine Keeps.cut s₀ x5 ?_ fun h6 => ?_
    · unfold x5
      apply modJob_keeps; assumption
    clear_value x5; extract_lets +onlyGivenNames x7; refine Keeps.cut s₀ x7 ?_ fun h8 => ?_
    · unfold x7
      split
      · assumption
      apply setF_keeps; apply bump_keeps; assumption
    clear_value x7; apply KeepsOut.next; apply bandOver_keeps; assumption
  apply KeepsOut.next; assumption

theorem yield__keeps {s₀ : State} {s : State} (k : Fin 8) (x : Fin 3) (h₀ : Keeps s₀ s) :
    Keeps s₀ (State.yield_ s k x) := by
  unfold State.yield_
  apply Keeps.ite
  · apply log_keeps; apply setF_keeps; assumption
  assumption

theorem execBar_keeps {s₀ : State} (k : Fin 8) (x : Fin 3) {s : State} (h₀ : Keeps s₀ s) :
    KeepsOut s₀ (execBar k x s) := by
  unfold execBar
  apply KeepsOut.next; apply instr_keeps
  · assumption
  intro u0 u1 h2; extract_lets +onlyGivenNames x3; apply Keeps.ite
  · extract_lets +onlyGivenNames x4; refine Keeps.cut s₀ x4 ?_ fun h5 => ?_
    · unfold x4
      apply setCtx_keeps; assumption
    clear_value x4; apply Keeps.ite
    · apply yield__keeps; assumption
    assumption
  apply Keeps.ite
  · assumption
  extract_lets +onlyGivenNames x6; refine Keeps.cut s₀ x6 ?_ fun h7 => ?_
  · unfold x6
    apply advance_keeps; assumption
  clear_value x6; extract_lets +onlyGivenNames x8; apply Keeps.ite
  · apply yield__keeps; assumption
  extract_lets +onlyGivenNames x9; refine Keeps.cut s₀ x9 ?_ fun h10 => ?_
  · unfold x9
    apply setCtx_keeps; assumption
  clear_value x9; apply releaseBars_keeps; apply yield__keeps; assumption

theorem execSessionStepStart_keeps {s₀ : State} {s : State} (h₀ : Keeps s₀ s) :
    KeepsOut s₀ (execSessionStepStart s) := by
  unfold execSessionStepStart
  split
  · apply KeepsOut.next; assumption
  extract_lets +onlyGivenNames x0; apply KeepsOut.ite
  · apply KeepsOut.next; apply beginStep_keeps; assumption
  apply KeepsOut.next; assumption

theorem stCtrlWrite_keeps {s₀ : State} {s : State} (m : Master) (v : Word) (h₀ : Keeps s₀ s) :
    Keeps s₀ (State.stCtrlWrite s m v) := by
  unfold State.stCtrlWrite
  apply regWrite_keeps
  · assumption
  intro u0 h1; apply Keeps.ite
  · apply modJob_keeps; assumption
  assumption

theorem execStClr_keeps {s₀ : State} (m : Master) (v : Word) {s : State} (h₀ : Keeps s₀ s) :
    KeepsOut s₀ (execStClr m v s) := by
  unfold execStClr
  apply KeepsOut.next; apply stCtrlWrite_keeps; assumption

theorem dxCtrlWrite_keeps {s₀ : State} {s : State} (m : Master) (v : Word) (h₀ : Keeps s₀ s) :
    Keeps s₀ (State.dxCtrlWrite s m v) := by
  unfold State.dxCtrlWrite
  extract_lets +onlyGivenNames x0; extract_lets +onlyGivenNames x1; split
  · rename_i r2 r3 r4; refine Keeps.cut s₀ r3 (KeepsOpt.of r4 ?_) fun h5 => ?_
    · apply refuseWrite_keeps; assumption
    assumption
  split
  · apply setReg_keeps; apply storeFields_keeps; assumption
  extract_lets +onlyGivenNames x6; refine Keeps.cut s₀ x6 ?_ fun h7 => ?_
  · unfold x6; apply storeFields_keeps; apply setReg_keeps; assumption
  clear_value x6; extract_lets +onlyGivenNames x8; apply modJob_keeps; assumption

theorem execDxInvalidate_keeps {s₀ : State} (m : Master) (v : Word) {s : State} (h₀ : Keeps s₀ s) :
    KeepsOut s₀ (execDxInvalidate m v s) := by
  unfold execDxInvalidate
  apply KeepsOut.next; apply dxCtrlWrite_keeps; assumption

theorem dxClrWrite_keeps {s₀ : State} {s : State} (m : Master) (v : Word) (h₀ : Keeps s₀ s) :
    Keeps s₀ (State.dxClrWrite s m v) := by
  unfold State.dxClrWrite
  apply regWrite_keeps
  · assumption
  intro u0 h1; apply Keeps.ite
  · apply modJob_keeps; assumption
  assumption

theorem execDxClr_keeps {s₀ : State} (m : Master) (v : Word) {s : State} (h₀ : Keeps s₀ s) :
    KeepsOut s₀ (execDxClr m v s) := by
  unfold execDxClr
  apply KeepsOut.next; apply dxClrWrite_keeps; assumption

end Sys2Proof
end

