-- ==== Sys2Proof/Laws/KeepsIntake.lean ====
section
/-! SUPPORT. `Keeps` of the operations of Sys2Proof/Machine/Intake.lean. -/

set_option linter.unusedTactic false
set_option linter.unreachableTactic false
set_option linter.tactic.unusedName false
set_option linter.unusedVariables false

namespace Sys2Proof

open Machine

theorem statLine_keeps {s₀ : State} {s : State} (cfg : Nat) (n : Nat) (w : Nat) (h : Nat) (y : Nat) (l : List Nat) (p :
    Bool) (h₀ : Keeps s₀ s) :
    Keeps s₀ (State.statLine s cfg n w h y l p) := by
  unfold State.statLine
  apply Keeps.ite
  · assumption
  extract_lets +onlyGivenNames x0; extract_lets +onlyGivenNames x1; extract_lets +onlyGivenNames x2
  extract_lets +onlyGivenNames x3; extract_lets +onlyGivenNames x4; refine Keeps.cut s₀ x4 ?_ fun h5 => ?_
  · unfold x4
    apply Keeps.ite
    · apply Keeps.upd₀; assumption
    assumption
  clear_value x4; extract_lets +onlyGivenNames x6; apply Keeps.upd₀; assumption

theorem unitPut_keeps {s₀ : State} {s : State} (unit : Nat) (a : Nat) (bs : List (Byte × Bool)) (h₀ : Keeps s₀ s) :
    Keeps s₀ (State.unitPut s unit a bs) := by
  unfold State.unitPut
  extract_lets +onlyGivenNames x0; apply Keeps.ite
  · apply report_keeps; assumption
  split
  · apply report_keeps; assumption
  apply dramMark_keeps; apply dramPut_keeps; assumption

theorem unitGet_keeps {s₀ : State} {s : State} (unit : Nat) (a : Nat) (n : Nat) (h₀ : Keeps s₀ s) :
    Keeps s₀ (State.unitGet s unit a n).2 := by
  unfold State.unitGet
  apply Keeps.ite_snd
  · apply refuseRead_keeps; assumption
  split
  · apply refuseRead_keeps; assumption
  apply dramGet_keeps; assumption

theorem setInTap_keeps {s₀ : State} {s : State} (t : Fin 2) (x : TapSt) (h₀ : Keeps s₀ s) :
    Keeps s₀ (State.setInTap s t x) := by
  unfold State.setInTap
  apply Keeps.upd₀; assumption

theorem tapStart_keeps {s₀ : State} {s : State} (t : Fin 2) (n : Nat) (h₀ : Keeps s₀ s) :
    Keeps s₀ (State.tapStart s t n) := by
  unfold State.tapStart
  extract_lets +onlyGivenNames x0; refine Keeps.cut s₀ x0 ?_ fun h1 => ?_
  · unfold x0; apply Keeps.ite
    · apply takeForces_keeps; assumption
    assumption
  clear_value x0; extract_lets +onlyGivenNames x2; apply Keeps.ite
  · assumption
  apply Keeps.ite
  · apply setInTap_keeps; assumption
  extract_lets +onlyGivenNames x3; split
  · apply setInTap_keeps; assumption
  apply setInTap_keeps; assumption

theorem tapLine_keeps {s₀ : State} {s : State} (t : Fin 2) (n : Nat) (h : Nat) (y : Nat) (bs : List (Byte × Bool)) (h₀
    : Keeps s₀ s) :
    Keeps s₀ (State.tapLine s t n h y bs) := by
  unfold State.tapLine
  apply Keeps.ite
  · assumption
  split
  · assumption
  extract_lets +onlyGivenNames x0; apply unitPut_keeps; assumption

theorem tapEnd_keeps {s₀ : State} {s : State} (t : Fin 2) (n : Nat) (h₀ : Keeps s₀ s) :
    Keeps s₀ (State.tapEnd s t n) := by
  unfold State.tapEnd
  apply Keeps.ite
  · assumption
  extract_lets +onlyGivenNames x0; split
  · assumption
  apply raiseCause_keeps; apply setInTap_keeps; assumption

theorem modIn_keeps {s₀ : State} {s : State} (n : Fin 8) (f : InFrame → InFrame) (h₀ : Keeps s₀ s) :
    Keeps s₀ (State.modIn s n f) := by
  unfold State.modIn
  extract_lets +onlyGivenNames x0; apply setInCtx_keeps; assumption

theorem flagIn_keeps {s₀ : State} {s : State} (n : Fin 8) (b : Nat) (h₀ : Keeps s₀ s) :
    Keeps s₀ (State.flagIn s n b) := by
  unfold State.flagIn
  apply modIn_keeps; assumption

theorem lineToEdge_keeps {s₀ : State} {s : State} (l : List Nat) (p : Bool) (h₀ : Keeps s₀ s) :
    Keeps s₀ (State.lineToEdge s l p) := by
  unfold State.lineToEdge
  split
  · apply bump_keeps; assumption
  extract_lets +onlyGivenNames x0; apply modJob_keeps; assumption

theorem placeLine_keeps {s₀ : State} {s : State} (n : Fin 8) (f : InFrame) (y : Nat) (l : List Nat) (fill : LineFill)
    (h₀ : Keeps s₀ s) :
    Keeps s₀ (State.placeLine s n f y l fill) := by
  unfold State.placeLine
  extract_lets +onlyGivenNames x0; refine Keeps.cut s₀ x0 ?_ fun h1 => ?_
  · unfold x0
    apply Keeps.ite
    · assumption
    apply modIn_keeps; assumption
  clear_value x0; apply Keeps.ite
  · extract_lets +onlyGivenNames x2; extract_lets +onlyGivenNames x3; extract_lets +onlyGivenNames x4; split
    extract_lets +onlyGivenNames x5; refine Keeps.cut s₀ x5 ?_ fun h6 => ?_
    · unfold x5
      apply Keeps.ite
      · apply flagIn_keeps; assumption
      assumption
    clear_value x5; extract_lets +onlyGivenNames x7; refine Keeps.cut s₀ x7 ?_ fun h8 => ?_
    · unfold x7
      apply modIn_keeps; assumption
    clear_value x7; extract_lets +onlyGivenNames x9; refine Keeps.cut s₀ x9 ?_ fun h10 => ?_
    · unfold x9
      apply Keeps.ite
      · apply statLine_keeps; assumption
      assumption
    clear_value x9; extract_lets +onlyGivenNames x11; refine Keeps.cut s₀ x11 ?_ fun h12 => ?_
    · unfold x11
      apply tapLine_keeps; assumption
    clear_value x11; apply Keeps.ite
    · apply lineToEdge_keeps; assumption
    assumption
  split
  · assumption
  extract_lets +onlyGivenNames x13; split
  · apply unitPut_keeps; assumption
  · apply Keeps.ite
    · apply unitPut_keeps; assumption
    split
    rename_i r14 r15 r16 r17; refine Keeps.cut s₀ r16 (Keeps.of_snd r17 ?_) fun h18 => ?_
    · apply unitGet_keeps; assumption
    apply unitPut_keeps; assumption
  apply unitPut_keeps; assumption

theorem fillLines_keeps {s₀ : State} (n : Fin 8) (f : InFrame) (fill : LineFill) (a1 : Nat) (a2 : Nat) {a3 : State}
    (h₀ : Keeps s₀ a3) :
    Keeps s₀ (State.fillLines n f fill a1 a2 a3) := by
  induction a1 generalizing n f fill a2 a3 with
  | zero =>
    unfold State.fillLines
    assumption
  | succ n ih =>
    unfold State.fillLines
    extract_lets +onlyGivenNames x0; apply ih; apply placeLine_keeps; assumption

theorem takeLine_keeps {s₀ : State} {s : State} (n : Fin 8) (f : InFrame) (payload : List Byte) (crcOk : Bool) (h₀ :
    Keeps s₀ s) :
    Keeps s₀ (State.takeLine s n f payload crcOk) := by
  unfold State.takeLine
  extract_lets +onlyGivenNames x0; extract_lets +onlyGivenNames x1; refine Keeps.cut s₀ x1 ?_ fun h2 => ?_
  · unfold x1
    apply modIn_keeps; assumption
  clear_value x1; extract_lets +onlyGivenNames x3; refine Keeps.cut s₀ x3 ?_ fun h4 => ?_
  · unfold x3
    apply Keeps.ite
    · assumption
    apply flagIn_keeps; apply bump_keeps; assumption
  clear_value x3; apply Keeps.ite
  · apply flagIn_keeps; assumption
  extract_lets +onlyGivenNames x5; extract_lets +onlyGivenNames x6; refine Keeps.cut s₀ x6 ?_ fun h7 => ?_
  · unfold x6
    apply Keeps.ite
    · apply flagIn_keeps; assumption
    assumption
  clear_value x6; extract_lets +onlyGivenNames x8; extract_lets +onlyGivenNames x9; extract_lets +onlyGivenNames x10
  extract_lets +onlyGivenNames x11; refine Keeps.cut s₀ x11 ?_ fun h12 => ?_
  · unfold x11
    apply tapLine_keeps; assumption
  clear_value x11; apply Keeps.ite
  · apply Keeps.ite
    · assumption
    apply placeLine_keeps; apply modIn_keeps; assumption
  extract_lets +onlyGivenNames x13; refine Keeps.cut s₀ x13 ?_ fun h14 => ?_
  · unfold x13
    apply fillLines_keeps; assumption
  clear_value x13; extract_lets +onlyGivenNames x15; apply modIn_keeps; apply placeLine_keeps; assumption

theorem headerEcc_keeps {s₀ : State} {s : State} (p : Fin 2) (ecc : Nat) (h₀ : Keeps s₀ s) :
    Keeps s₀ (State.headerEcc s p ecc).1 := by
  unfold State.headerEcc
  apply Keeps.ite_fst
  · dsimp only; apply bump_keeps; assumption
  apply Keeps.ite_fst
  · dsimp only; apply bump_keeps; assumption
  dsimp only; assumption

theorem execLongPacket_keeps {s₀ : State} (p : Fin 2) (vc : Nat) (dt : Nat) (ecc : Nat) (crcOk : Bool) (payload : List
    Byte) {s : State} (h₀ : Keeps s₀ s) :
    KeepsOut s₀ (execLongPacket p vc dt ecc crcOk payload s) := by
  unfold execLongPacket
  apply KeepsOut.ite
  · apply KeepsOut.next; assumption
  split
  rename_i r0 r1 r2 r3; refine Keeps.cut s₀ r1 (Keeps.of_fst r3 ?_) fun h4 => ?_
  · apply headerEcc_keeps; assumption
  apply KeepsOut.ite
  · apply KeepsOut.next; assumption
  apply KeepsOut.ite
  · apply KeepsOut.next; apply bump_keeps; assumption
  split
  · apply KeepsOut.next; apply bump_keeps; assumption
  split
  · apply KeepsOut.next; assumption
  apply KeepsOut.next; apply takeLine_keeps; assumption

theorem execLineStartPacket_keeps {s₀ : State} (p : Fin 2) (vc : Nat) (ecc : Nat) (line : Nat) {s : State} (h₀ : Keeps
    s₀ s) :
    KeepsOut s₀ (execLineStartPacket p vc ecc line s) := by
  unfold execLineStartPacket
  apply KeepsOut.ite
  · apply KeepsOut.next; assumption
  split; rename_i r0 r1 r2 r3; refine Keeps.cut s₀ r1 (Keeps.of_fst r3 ?_) fun h4 => ?_
  · apply headerEcc_keeps; assumption
  apply KeepsOut.ite
  · apply KeepsOut.next; assumption
  apply KeepsOut.next; apply Keeps.foldl
  · assumption
  intro u5 u6 h7; apply modIn_keeps; assumption

theorem statEnd_keeps {s₀ : State} {s : State} (n : Fin 8) (fs : Nat) (src : Nat) (flags : Nat) (st : Nat × Nat) (h₀ :
    Keeps s₀ s) :
    Keeps s₀ (State.statEnd s n fs src flags st) := by
  unfold State.statEnd
  apply Keeps.ite
  · assumption
  extract_lets +onlyGivenNames x0; extract_lets +onlyGivenNames x1; refine Keeps.cut s₀ x1 ?_ fun h2 => ?_
  · unfold x1
    apply unitPut_keeps; assumption
  clear_value x1; apply raiseCause_keeps; apply Keeps.upd₀; assumption

theorem endFrame_keeps {s₀ : State} {s : State} (n : Fin 8) (nofe : Bool) (h₀ : Keeps s₀ s) :
    Keeps s₀ (State.endFrame s n nofe) := by
  unfold State.endFrame
  split
  · assumption
  extract_lets +onlyGivenNames x0; refine Keeps.cut s₀ x0 ?_ fun h1 => ?_
  · unfold x0
    apply Keeps.ite
    · apply flagIn_keeps; assumption
    assumption
  clear_value x0; extract_lets +onlyGivenNames x2; refine Keeps.cut s₀ x2 ?_ fun h3 => ?_
  · unfold x2
    apply Keeps.ite
    · apply flagIn_keeps; apply fillLines_keeps; assumption
    assumption
  clear_value x2; extract_lets +onlyGivenNames x4; extract_lets +onlyGivenNames x5; extract_lets +onlyGivenNames x6
  extract_lets +onlyGivenNames x7; refine Keeps.cut s₀ x7 ?_ fun h8 => ?_
  · unfold x7
    apply setInCtx_keeps; assumption
  clear_value x7; extract_lets +onlyGivenNames x9; refine Keeps.cut s₀ x9 ?_ fun h10 => ?_
  · unfold x9
    apply bumpWrap_keeps; apply setF_keeps; assumption
  clear_value x9; extract_lets +onlyGivenNames x11; refine Keeps.cut s₀ x11 ?_ fun h12 => ?_
  · unfold x11
    apply tapEnd_keeps; assumption
  clear_value x11; extract_lets +onlyGivenNames x13; refine Keeps.cut s₀ x13 ?_ fun h14 => ?_
  · unfold x13
    apply Keeps.foldl
    · assumption
    intro u15 u16 h17; apply Keeps.ite
    · apply Keeps.upd₀; assumption
    assumption
  clear_value x13; apply Keeps.ite
  · extract_lets +onlyGivenNames x18; refine Keeps.cut s₀ x18 ?_ fun h19 => ?_
    · unfold x18
      apply tapEnd_keeps; apply statEnd_keeps; assumption
    clear_value x18; apply Keeps.upd₀; assumption
  apply Keeps.foldl
  · assumption
  intro u20 u21 h22; apply memNext_keeps; assumption

theorem execFrameEndPacket_keeps {s₀ : State} (p : Fin 2) (vc : Nat) (ecc : Nat) {s : State} (h₀ : Keeps s₀ s) :
    KeepsOut s₀ (execFrameEndPacket p vc ecc s) := by
  unfold execFrameEndPacket
  apply KeepsOut.ite
  · apply KeepsOut.next; assumption
  split; rename_i r0 r1 r2 r3; refine Keeps.cut s₀ r1 (Keeps.of_fst r3 ?_) fun h4 => ?_
  · apply headerEcc_keeps; assumption
  apply KeepsOut.ite
  · apply KeepsOut.next; assumption
  apply KeepsOut.next; apply Keeps.foldl
  · assumption
  intro u5 u6 h7; apply endFrame_keeps; assumption

theorem defectStart_keeps {s₀ : State} {s : State} (n : Fin 8) (h₀ : Keeps s₀ s) :
    Keeps s₀ (State.defectStart s n) := by
  unfold State.defectStart
  apply Keeps.ite
  · assumption
  extract_lets +onlyGivenNames x0; refine Keeps.cut s₀ x0 ?_ fun h1 => ?_
  · unfold x0; apply takeForce_keeps; assumption
  clear_value x0; extract_lets +onlyGivenNames x2; extract_lets +onlyGivenNames x3
  refine Keeps.cut s₀ x3 ?_ fun h4 => ?_
  · unfold x3; apply Keeps.ite
    · apply Keeps.upd₀; assumption
    assumption
  clear_value x3; extract_lets +onlyGivenNames x5; extract_lets +onlyGivenNames x6; apply Keeps.ite
  · apply flagIn_keeps; apply setF_keeps; apply setF_keeps; assumption
  apply setF_keeps; assumption

theorem adSkip_keeps {s₀ : State} {s : State} (n : Fin 8) (prev : Nat) (h₀ : Keeps s₀ s) :
    Keeps s₀ (State.adSkip s n prev) := by
  unfold State.adSkip
  apply Keeps.ite
  · apply bump_keeps; assumption
  assumption

theorem i2cLate_keeps {s₀ : State} {s : State} (n : Nat) (h₀ : Keeps s₀ s) :
    Keeps s₀ (State.i2cLate s n) := by
  unfold State.i2cLate
  apply Keeps.foldl
  · assumption
  intro u0 u1 h2; apply Keeps.ite
  · apply setF_keeps; assumption
  assumption

theorem openFrame_keeps {s₀ : State} {s : State} (n : Fin 8) (p : Fin 2) (h₀ : Keeps s₀ s) :
    Keeps s₀ (State.openFrame s n p) := by
  unfold State.openFrame
  extract_lets +onlyGivenNames x0; extract_lets +onlyGivenNames x1; extract_lets +onlyGivenNames x2
  extract_lets +onlyGivenNames x3; extract_lets +onlyGivenNames x4; extract_lets +onlyGivenNames x5
  extract_lets +onlyGivenNames x6; extract_lets +onlyGivenNames x7; extract_lets +onlyGivenNames x8
  extract_lets +onlyGivenNames x9; extract_lets +onlyGivenNames x10; refine Keeps.cut s₀ x10 ?_ fun h11 => ?_
  · unfold x10
    apply setInCtx_keeps; assumption
  clear_value x10; extract_lets +onlyGivenNames x12; refine Keeps.cut s₀ x12 ?_ fun h13 => ?_
  · unfold x12
    apply setF_keeps; assumption
  clear_value x12; extract_lets +onlyGivenNames x14; refine Keeps.cut s₀ x14 ?_ fun h15 => ?_
  · unfold x14
    apply Keeps.ite
    · apply bump_keeps; assumption
    assumption
  clear_value x14; extract_lets +onlyGivenNames x16; refine Keeps.cut s₀ x16 ?_ fun h17 => ?_
  · unfold x16
    apply defectStart_keeps; assumption
  clear_value x16; extract_lets +onlyGivenNames x18; refine Keeps.cut s₀ x18 ?_ fun h19 => ?_
  · unfold x18
    apply Keeps.ite
    · apply takeForces_keeps; assumption
    assumption
  clear_value x18; extract_lets +onlyGivenNames x20; extract_lets +onlyGivenNames x21
  refine Keeps.cut s₀ x21 ?_ fun h22 => ?_
  · unfold x21
    apply modIn_keeps; assumption
  clear_value x21; extract_lets +onlyGivenNames x23; refine Keeps.cut s₀ x23 ?_ fun h24 => ?_
  · unfold x23
    apply tapStart_keeps; assumption
  clear_value x23; extract_lets +onlyGivenNames x25; refine Keeps.cut s₀ x25 ?_ fun h26 => ?_
  · unfold x25
    apply Keeps.ite
    · apply tapStart_keeps; assumption
    assumption
  clear_value x25; extract_lets +onlyGivenNames x27; refine Keeps.cut s₀ x27 ?_ fun h28 => ?_
  · unfold x27
    apply Keeps.foldl
    · assumption
    intro u29 u30 h31; apply Keeps.ite
    · apply takeForce_keeps; assumption
    assumption
  clear_value x27; extract_lets +onlyGivenNames x32; refine Keeps.cut s₀ x32 ?_ fun h33 => ?_
  · unfold x32
    apply adSkip_keeps; assumption
  clear_value x32; apply Keeps.ite
  · apply inlineStart_keeps; assumption
  assumption

theorem startFrame_keeps {s₀ : State} {s : State} (n : Fin 8) (p : Fin 2) (h₀ : Keeps s₀ s) :
    Keeps s₀ (State.startFrame s n p) := by
  unfold State.startFrame
  extract_lets +onlyGivenNames x0; refine Keeps.cut s₀ x0 ?_ fun h1 => ?_
  · unfold x0; apply i2cLate_keeps; apply endFrame_keeps; assumption
  clear_value x0; extract_lets +onlyGivenNames x2; refine Keeps.cut s₀ x2 ?_ fun h3 => ?_
  · unfold x2; apply takeForces_keeps; assumption
  clear_value x2; apply Keeps.ite
  · assumption
  apply Keeps.ite
  · apply glbError_keeps; apply takeForce_keeps; apply setF_keeps; assumption
  apply openFrame_keeps; assumption

theorem execFrameStartPacket_keeps {s₀ : State} (p : Fin 2) (vc : Nat) (ecc : Nat) {s : State} (h₀ : Keeps s₀ s) :
    KeepsOut s₀ (execFrameStartPacket p vc ecc s) := by
  unfold execFrameStartPacket
  apply KeepsOut.ite
  · apply KeepsOut.next; assumption
  split
  rename_i r0 r1 r2 r3; refine Keeps.cut s₀ r1 (Keeps.of_fst r3 ?_) fun h4 => ?_
  · apply headerEcc_keeps; assumption
  apply KeepsOut.ite
  · apply KeepsOut.next; assumption
  extract_lets +onlyGivenNames x5; refine Keeps.cut s₀ x5 ?_ fun h6 => ?_
  · unfold x5
    apply takeForce_keeps; assumption
  clear_value x5; extract_lets +onlyGivenNames x7; extract_lets +onlyGivenNames x8
  refine Keeps.cut s₀ x8 ?_ fun h9 => ?_
  · unfold x8
    apply Keeps.foldl
    · assumption
    intro u10 u11 h12; apply endFrame_keeps; assumption
  clear_value x8; apply KeepsOut.next; apply Keeps.foldl
  · assumption
  intro u13 u14 h15; apply startFrame_keeps; assumption

theorem execFrameTimeout_keeps {s₀ : State} (n : Fin 8) {s : State} (h₀ : Keeps s₀ s) :
    KeepsOut s₀ (execFrameTimeout n s) := by
  unfold execFrameTimeout
  split
  · apply KeepsOut.next; assumption
  apply KeepsOut.ite
  · apply KeepsOut.next; apply endFrame_keeps; assumption
  apply KeepsOut.next; assumption

theorem execGenericShortPacket_keeps {s₀ : State} (p : Fin 2) {s : State} (h₀ : Keeps s₀ s) :
    KeepsOut s₀ (execGenericShortPacket p s) := by
  unfold execGenericShortPacket
  apply KeepsOut.ite
  · apply KeepsOut.next; apply bump_keeps; assumption
  apply KeepsOut.next; assumption

theorem execUlps_keeps {s₀ : State} (p : Fin 2) (on : Bool) {s : State} (h₀ : Keeps s₀ s) :
    KeepsOut s₀ (execUlps p on s) := by
  unfold execUlps
  apply KeepsOut.next; apply setF_keeps; assumption

theorem execDeskewBurst_keeps {s₀ : State} (p : Fin 2) (rate : Nat) (steps : List Int) {s : State} (h₀ : Keeps s₀ s) :
    KeepsOut s₀ (execDeskewBurst p rate steps s) := by
  unfold execDeskewBurst
  apply KeepsOut.ite
  · apply KeepsOut.next; assumption
  extract_lets +onlyGivenNames x0; apply KeepsOut.next; apply Keeps.foldl
  · assumption
  intro u1 u2 h3; split; extract_lets +onlyGivenNames x4; refine Keeps.cut s₀ x4 ?_ fun h5 => ?_
  · unfold x4; apply setF_keeps; apply setF_keeps; assumption
  clear_value x4; extract_lets +onlyGivenNames x6; refine Keeps.cut s₀ x6 ?_ fun h7 => ?_
  · unfold x6; apply Keeps.ite
    · apply setF_keeps; assumption
    assumption
  clear_value x6; apply Keeps.ite
  · apply setF_keeps; assumption
  assumption

theorem lineM_keeps {s₀ : State} {s : State} (n : Fin 8) (b : Nat) (v : InBuf) (y : Nat) (h₀ : Keeps s₀ s) :
    Keeps s₀ (State.lineM s n b v y).2 := by
  unfold State.lineM
  extract_lets +onlyGivenNames x0; extract_lets +onlyGivenNames x1; refine Keeps.cut s₀ x1 ?_ fun h2 => ?_
  · unfold x1
    apply Keeps.ite
    · apply tapStart_keeps; assumption
    assumption
  clear_value x1; split
  rename_i r3 r4 r5 r6; refine Keeps.cut s₀ r5 (Keeps.of_snd r6 ?_) fun h7 => ?_
  · apply unitGet_keeps; assumption
  extract_lets +onlyGivenNames x8; extract_lets +onlyGivenNames x9; split
  rename_i r10 r11 r12 r13; refine Keeps.cut s₀ r12 (Keeps.of_snd r13 ?_) fun h14 => ?_
  · apply Keeps.ite_snd
    · apply Keeps.mk_snd; assumption
    extract_lets +onlyGivenNames x15; extract_lets +onlyGivenNames x16; extract_lets +onlyGivenNames x17; split
    extract_lets +onlyGivenNames x18; extract_lets +onlyGivenNames x19; refine Keeps.cut s₀ x19 ?_ fun h20 => ?_
    · unfold x19
      apply setInCtx_keeps; assumption
    clear_value x19; extract_lets +onlyGivenNames x21; refine Keeps.cut s₀ x21 ?_ fun h22 => ?_
    · unfold x21
      apply Keeps.ite
      · apply setF_keeps; assumption
      assumption
    clear_value x21; apply Keeps.mk_snd; apply statLine_keeps; assumption
  extract_lets +onlyGivenNames x23; refine Keeps.cut s₀ x23 ?_ fun h24 => ?_
  · unfold x23
    apply tapLine_keeps; assumption
  clear_value x23; extract_lets +onlyGivenNames x25; extract_lets +onlyGivenNames x26
  refine Keeps.cut s₀ x26 ?_ fun h27 => ?_
  · unfold x26
    apply Keeps.ite
    · apply tapEnd_keeps; apply statEnd_keeps; assumption
    assumption
  clear_value x26; apply Keeps.mk_snd; assumption

theorem inReleaseWrite_keeps {s₀ : State} {s : State} (n : Fin 8) (m : Master) (v : Word) (h₀ : Keeps s₀ s) :
    Keeps s₀ (State.inReleaseWrite s n m v) := by
  unfold State.inReleaseWrite
  apply regWrite_keeps
  · assumption
  intro u0 h1; extract_lets +onlyGivenNames x2; extract_lets +onlyGivenNames x3; split
  · assumption
  apply Keeps.ite
  · apply setInCtx_keeps; assumption
  assumption

theorem execInCtxRelease_keeps {s₀ : State} (n : Fin 8) (m : Master) (v : Word) {s : State} (h₀ : Keeps s₀ s) :
    KeepsOut s₀ (execInCtxRelease n m v s) := by
  unfold execInCtxRelease
  apply KeepsOut.next; apply inReleaseWrite_keeps; assumption

theorem inTapReleaseWrite_keeps {s₀ : State} {s : State} (t : Fin 2) (m : Master) (v : Word) (h₀ : Keeps s₀ s) :
    Keeps s₀ (State.inTapReleaseWrite s t m v) := by
  unfold State.inTapReleaseWrite
  apply regWrite_keeps
  · assumption
  intro u0 h1; extract_lets +onlyGivenNames x2; apply setInTap_keeps; assumption

theorem defCtrlWrite_keeps {s₀ : State} {s : State} (m : Master) (v : Word) (h₀ : Keeps s₀ s) :
    Keeps s₀ (State.defCtrlWrite s m v) := by
  unfold State.defCtrlWrite
  apply regWrite_keeps
  · assumption
  intro u0 h1; apply Keeps.ite
  · apply Keeps.upd₀; assumption
  assumption

theorem execDefectSwap_keeps {s₀ : State} (m : Master) (v : Word) {s : State} (h₀ : Keeps s₀ s) :
    KeepsOut s₀ (execDefectSwap m v s) := by
  unfold execDefectSwap
  apply KeepsOut.next; apply defCtrlWrite_keeps; assumption

theorem defTableWrite_keeps {s₀ : State} {s : State} (m : Master) (w : Nat) (v : Nat) (h₀ : Keeps s₀ s) :
    Keeps s₀ (State.defTableWrite s m w v) := by
  unfold State.defTableWrite
  apply regWrite_keeps
  · assumption
  intro u0 h1; extract_lets +onlyGivenNames x2; extract_lets +onlyGivenNames x3; apply Keeps.ite
  · apply Keeps.upd₀; assumption
  apply Keeps.upd₀; assumption

end Sys2Proof
end

