-- ==== Sys2Proof/Laws/KeepsLines.lean ====
section
/-! SUPPORT. `Keeps` of the operations of Sys2Proof/Machine/Lines.lean. -/

set_option linter.unusedTactic false
set_option linter.unreachableTactic false
set_option linter.tactic.unusedName false
set_option linter.unusedVariables false

namespace Sys2Proof

open Machine

theorem setStream_keeps {s₀ : State} {s : State} (n : Fin 6) (x : StreamSt) (h₀ : Keeps s₀ s) :
    Keeps s₀ (State.setStream s n x) := by
  unfold State.setStream
  apply Keeps.upd₀; assumption

theorem pruneStore_keeps {s₀ : State} {s : State} (h₀ : Keeps s₀ s) :
    Keeps s₀ (State.pruneStore s) := by
  unfold State.pruneStore
  apply Keeps.upd₀; assumption

theorem setOutTap_keeps {s₀ : State} {s : State} (t : Fin 2) (x : OutTap) (h₀ : Keeps s₀ s) :
    Keeps s₀ (State.setOutTap s t x) := by
  unfold State.setOutTap
  apply Keeps.upd₀; assumption

theorem tapClose_keeps {s₀ : State} {s : State} (t : Fin 2) (h₀ : Keeps s₀ s) :
    Keeps s₀ (State.tapClose s t) := by
  unfold State.tapClose
  extract_lets +onlyGivenNames x0; extract_lets +onlyGivenNames x1; refine Keeps.cut s₀ x1 ?_ fun h2 => ?_
  · unfold x1; apply setOutTap_keeps; assumption
  clear_value x1; apply Keeps.ite
  · apply raiseCause_keeps; assumption
  assumption

theorem tapTurn_keeps {s₀ : State} {s : State} (t : Fin 2) (job : Nat) (no : Nat) (h₀ : Keeps s₀ s) :
    Keeps s₀ (State.tapTurn s t job no) := by
  unfold State.tapTurn
  apply Keeps.ite
  · assumption
  extract_lets +onlyGivenNames x0; refine Keeps.cut s₀ x0 ?_ fun h1 => ?_
  · unfold x0
    apply tapClose_keeps; assumption
  clear_value x0; extract_lets +onlyGivenNames x2; extract_lets +onlyGivenNames x3; extract_lets +onlyGivenNames x4
  apply setOutTap_keeps; assumption

theorem tapOpen_keeps {s₀ : State} {s : State} (t : Fin 2) (h₀ : Keeps s₀ s) :
    Keeps s₀ (State.tapOpen s t) := by
  unfold State.tapOpen
  extract_lets +onlyGivenNames x0; apply Keeps.ite
  · assumption
  split
  · apply bump_keeps; apply setOutTap_keeps; assumption
  apply setOutTap_keeps; assumption

theorem tapRow_keeps {s₀ : State} {s : State} (t : Fin 2) (h : Nat) (y : Nat) (k : Nat) (vals : List (List Nat)) (pois :
    List Bool) (h₀ : Keeps s₀ s) :
    Keeps s₀ (State.tapRow s t h y k vals pois) := by
  unfold State.tapRow
  extract_lets +onlyGivenNames x0; refine Keeps.cut s₀ x0 ?_ fun h1 => ?_
  · unfold x0
    apply tapOpen_keeps; assumption
  clear_value x0; extract_lets +onlyGivenNames x2; extract_lets +onlyGivenNames x3; split
  · assumption
  extract_lets +onlyGivenNames x4; refine Keeps.cut s₀ x4 ?_ fun h5 => ?_
  · unfold x4
    apply unitPut_keeps; assumption
  clear_value x4; apply Keeps.ite
  · extract_lets +onlyGivenNames x6; apply raiseCause_keeps; apply setOutTap_keeps; assumption
  assumption

theorem storeRow_keeps {s₀ : State} {s : State} (j : Job) (x : JFrame) (o : Nat) (q : Nat) (vals : List (List Nat))
    (pois : List Bool) (h₀ : Keeps s₀ s) :
    Keeps s₀ (State.storeRow s j x o q vals pois) := by
  unfold State.storeRow
  extract_lets +onlyGivenNames x0; extract_lets +onlyGivenNames x1; extract_lets +onlyGivenNames x2
  extract_lets +onlyGivenNames x3; refine Keeps.cut s₀ x3 ?_ fun h4 => ?_
  · unfold x3
    apply Keeps.ite
    · apply tapTurn_keeps; assumption
    assumption
  clear_value x3; extract_lets +onlyGivenNames x5; extract_lets +onlyGivenNames x6
  refine Keeps.cut s₀ x6 ?_ fun h7 => ?_
  · unfold x6
    apply Keeps.ite
    · apply tapRow_keeps; assumption
    assumption
  clear_value x6; extract_lets +onlyGivenNames x8; refine Keeps.cut s₀ x8 ?_ fun h9 => ?_
  · unfold x8
    apply Keeps.ite
    · apply tapTurn_keeps; assumption
    assumption
  clear_value x8; extract_lets +onlyGivenNames x10; extract_lets +onlyGivenNames x11; extract_lets +onlyGivenNames x12
  refine Keeps.cut s₀ x12 ?_ fun h13 => ?_
  · unfold x12
    apply Keeps.ite
    · apply tapRow_keeps; assumption
    assumption
  clear_value x12; apply Keeps.ite
  · extract_lets +onlyGivenNames x14; apply Keeps.upd₀; assumption
  assumption

end Sys2Proof
end

