-- ==== Sys2Proof/Laws/KeepsCmd.lean ====
section
/-! SUPPORT. `Keeps` of the operations of Sys2Proof/Machine/Cmd.lean. -/

set_option linter.unusedTactic false
set_option linter.unreachableTactic false
set_option linter.tactic.unusedName false
set_option linter.unusedVariables false

namespace Sys2Proof

open Machine

theorem answerFirst_keeps {s₀ : State} {s : State} (b : Fin 2) (e : InFlight) (result : Nat) (vals : List Byte) (h₀ :
    Keeps s₀ s) :
    Keeps s₀ (State.answerFirst s b e result vals) := by
  unfold State.answerFirst
  extract_lets +onlyGivenNames x0; extract_lets +onlyGivenNames x1; refine Keeps.cut s₀ x1 ?_ fun h2 => ?_
  · unfold x1
    apply setRing_keeps; assumption
  clear_value x1; apply post_keeps; assumption

theorem refuseNext_keeps {s₀ : State} (b : Fin 2) (a1 : Nat) {a2 : State} (h₀ : Keeps s₀ a2) :
    Keeps s₀ (State.refuseNext b a1 a2) := by
  induction a1 generalizing b a2 with
  | zero =>
    unfold State.refuseNext
    assumption
  | succ n ih =>
    unfold State.refuseNext
    split
    · assumption
    split
    · assumption
    apply ih; apply answerFirst_keeps; assumption

theorem accept_keeps {s₀ : State} {s : State} (b : Fin 2) (h₀ : Keeps s₀ s) :
    Keeps s₀ (State.accept s b) := by
  unfold State.accept
  extract_lets +onlyGivenNames x0; apply refuseNext_keeps; apply setRing_keeps; assumption

theorem finish_keeps {s₀ : State} {s : State} (b : Fin 2) (e : InFlight) (result : Nat) (vals : List Byte) (h₀ : Keeps
    s₀ s) :
    Keeps s₀ (State.finish s b e result vals) := by
  unfold State.finish
  apply refuseNext_keeps; apply answerFirst_keeps; assumption

theorem source_keeps {s₀ : State} {s : State} (a : Nat) (n : Nat) (h₀ : Keeps s₀ s) :
    Keeps s₀ (State.source s a n).2 := by
  unfold State.source
  split; rename_i r0 r1 r2 r3; refine Keeps.cut s₀ r2 (Keeps.of_snd r3 ?_) fun h4 => ?_
  · apply fwGet_keeps; assumption
  dsimp only; assumption

end Sys2Proof
end

