-- ==== Sys2Proof/Laws/KeepsTime.lean ====
section
/-! SUPPORT. `Keeps` of the operations of Sys2Proof/Machine/Time.lean. -/

set_option linter.unusedTactic false
set_option linter.unreachableTactic false
set_option linter.tactic.unusedName false
set_option linter.unusedVariables false

namespace Sys2Proof

open Machine

theorem alignAft_keeps {s₀ : State} {s : State} (t : Nat) (h₀ : Keeps s₀ s) :
    Keeps s₀ (State.alignAft s t) := by
  unfold State.alignAft
  extract_lets +onlyGivenNames x0; apply Keeps.ite
  · extract_lets +onlyGivenNames x1; refine Keeps.cut s₀ x1 ?_ fun h2 => ?_
    · unfold x1
      apply setF_keeps; assumption
    clear_value x1; apply Keeps.upd₀; assumption
  extract_lets +onlyGivenNames x3; extract_lets +onlyGivenNames x4; refine Keeps.cut s₀ x4 ?_ fun h5 => ?_
  · unfold x4
    apply setF_keeps; assumption
  clear_value x4; apply Keeps.upd₀; assumption

theorem aftStep_keeps {s₀ : State} {s : State} (h₀ : Keeps s₀ s) :
    Keeps s₀ (State.aftStep s) := by
  unfold State.aftStep
  split
  · assumption
  extract_lets +onlyGivenNames x0; refine Keeps.cut s₀ x0 ?_ fun h1 => ?_
  · unfold x0
    apply setF_keeps; assumption
  clear_value x0; apply Keeps.upd₀; assumption

theorem timeMessage_keeps {s₀ : State} {s : State} (t : Nat) (h₀ : Keeps s₀ s) :
    Keeps s₀ (State.timeMessage s t) := by
  unfold State.timeMessage
  apply Keeps.ite
  · assumption
  apply alignAft_keeps; assumption

theorem cycles_keeps {s₀ : State} (dt : Nat) (k : Fin 8) {s : State} (h₀ : Keeps s₀ s) :
    Keeps s₀ (State.cycles dt k s) := by
  unfold State.cycles
  apply Keeps.ite
  · assumption
  extract_lets +onlyGivenNames x0; extract_lets +onlyGivenNames x1; extract_lets +onlyGivenNames x2
  extract_lets +onlyGivenNames x3; extract_lets +onlyGivenNames x4; refine CoreOk.cut s₀ x4 ?_ fun h5 => ?_
  · unfold x4; apply Keeps.core; assumption
  clear_value x4; extract_lets +onlyGivenNames x6; refine Keeps.cut s₀ x6 ?_ fun h7 => ?_
  · unfold x6; apply Keeps.setCore
    · apply bumpWrap_keeps; assumption
    apply CoreOk.upd; assumption
  clear_value x6; apply Keeps.ite
  · apply bumpWrap_keeps; assumption
  assumption

theorem tick_keeps {s₀ : State} {s : State} (h₀ : Keeps s₀ s) :
    Keeps s₀ (State.tick s) := by
  unfold State.tick
  apply Keeps.ite
  · assumption
  extract_lets +onlyGivenNames x0; split
  extract_lets +onlyGivenNames x1; extract_lets +onlyGivenNames x2; split
  split
  extract_lets +onlyGivenNames x3; extract_lets +onlyGivenNames x4; refine Keeps.cut s₀ x4 ?_ fun h5 => ?_
  · unfold x4
    apply Keeps.forCores
    · assumption
    intro u6 u7 h8; apply cycles_keeps; assumption
  clear_value x4; extract_lets +onlyGivenNames x9; refine Keeps.cut s₀ x9 ?_ fun h10 => ?_
  · unfold x9
    apply Keeps.ite
    · apply setF_keeps; assumption
    assumption
  clear_value x9; apply Keeps.upd₀; assumption

theorem stepTime_keeps {s₀ : State} {s : State} (t : Nat) (h₀ : Keeps s₀ s) :
    Keeps s₀ (State.stepTime s t) := by
  unfold State.stepTime
  extract_lets +onlyGivenNames x0; extract_lets +onlyGivenNames x1; extract_lets +onlyGivenNames x2
  refine Keeps.cut s₀ x2 ?_ fun h3 => ?_
  · unfold x2; apply setF_keeps; assumption
  clear_value x2; apply Keeps.upd₀; assumption

theorem timeSetAct_keeps {s₀ : State} {s : State} (v : Word) (h₀ : Keeps s₀ s) :
    Keeps s₀ (State.timeSetAct s v) := by
  unfold State.timeSetAct
  apply Keeps.ite
  · assumption
  apply Keeps.ite
  · apply stepTime_keeps; assumption
  apply setF_keeps; assumption

theorem timeCtrlWrite_keeps {s₀ : State} {s : State} (m : Master) (v : Word) (h₀ : Keeps s₀ s) :
    Keeps s₀ (State.timeCtrlWrite s m v) := by
  unfold State.timeCtrlWrite
  apply regWrite_keeps
  · assumption
  intro u0 h1; apply timeSetAct_keeps; assumption

theorem execTimeSet_keeps {s₀ : State} (m : Master) (v : Word) {s : State} (h₀ : Keeps s₀ s) :
    KeepsOut s₀ (execTimeSet m v s) := by
  unfold execTimeSet
  apply KeepsOut.next; apply timeCtrlWrite_keeps; assumption

theorem execDtimeStepDone_keeps {s₀ : State} {s : State} (h₀ : Keeps s₀ s) :
    KeepsOut s₀ (execDtimeStepDone s) := by
  unfold execDtimeStepDone
  apply KeepsOut.next; apply Keeps.ite
  · apply aftStep_keeps; assumption
  assumption

theorem execTimeSlewWrite_keeps {s₀ : State} (m : Master) (v : Word) {s : State} (h₀ : Keeps s₀ s) :
    KeepsOut s₀ (execTimeSlewWrite m v s) := by
  unfold execTimeSlewWrite
  apply KeepsOut.next; apply regWrite_keeps
  · assumption
  intro u0 h1; unfold id; assumption

theorem setGen_keeps {s₀ : State} {s : State} (n : Fin 4) (g : FsgSt) (h₀ : Keeps s₀ s) :
    Keeps s₀ (State.setGen s n g) := by
  unfold State.setGen
  apply Keeps.upd₀; assumption

theorem fsgLoad_keeps {s₀ : State} {s : State} (n : Fin 4) (m0 : Nat) (h₀ : Keeps s₀ s) :
    Keeps s₀ (State.fsgLoad s n m0) := by
  unfold State.fsgLoad
  extract_lets +onlyGivenNames x0; refine Keeps.cut s₀ x0 ?_ fun h1 => ?_
  · unfold x0; apply takeForces_keeps; assumption
  clear_value x0; extract_lets +onlyGivenNames x2; apply Keeps.elim
  · apply setGen_keeps; assumption
  intro u3; apply setGen_keeps; assumption

theorem sendEdgeTime_keeps {s₀ : State} {s : State} (n : Fin 4) (m : Nat) (h₀ : Keeps s₀ s) :
    Keeps s₀ (State.sendEdgeTime s n m) := by
  unfold State.sendEdgeTime
  extract_lets +onlyGivenNames x0; apply Keeps.foldl
  · assumption
  intro u1 u2 h3; apply Keeps.getD
  · assumption
  apply linkSend_keeps; assumption

theorem sendEdges_keeps {s₀ : State} (n : Fin 4) (t : Nat) (a2 : Nat) {a3 : State} (h₀ : Keeps s₀ a3) :
    Keeps s₀ (State.sendEdges n t a2 a3) := by
  induction a2 generalizing n t a3 with
  | zero =>
    unfold State.sendEdges
    assumption
  | succ n ih =>
    unfold State.sendEdges
    extract_lets +onlyGivenNames x0; apply Keeps.ite
    · assumption
    apply ih; apply setGen_keeps; apply sendEdgeTime_keeps; assumption

theorem sendEdge_keeps {s₀ : State} {s : State} (n : Fin 4) (h₀ : Keeps s₀ s) :
    Keeps s₀ (State.sendEdge s n) := by
  unfold State.sendEdge
  extract_lets +onlyGivenNames x0; apply Keeps.ite
  · extract_lets +onlyGivenNames x1; refine Keeps.cut s₀ x1 ?_ fun h2 => ?_
    · unfold x1
      apply setGen_keeps; assumption
    clear_value x1; apply Keeps.ite
    · apply Keeps.ite
      · apply setGen_keeps; apply sendEdgeTime_keeps; assumption
      assumption
    apply sendEdges_keeps; assumption
  assumption

theorem fsgCtrlAct_keeps {s₀ : State} (n : Fin 4) (was : Bool) {s : State} (h₀ : Keeps s₀ s) :
    Keeps s₀ (State.fsgCtrlAct n was s) := by
  unfold State.fsgCtrlAct
  extract_lets +onlyGivenNames x0; apply Keeps.ite
  · extract_lets +onlyGivenNames x1; refine Keeps.cut s₀ x1 ?_ fun h2 => ?_
    · unfold x1
      apply setF_keeps; assumption
    clear_value x1; extract_lets +onlyGivenNames x3; extract_lets +onlyGivenNames x4
    refine Keeps.cut s₀ x4 ?_ fun h5 => ?_
    · unfold x4
      apply setGen_keeps; assumption
    clear_value x4; extract_lets +onlyGivenNames x6; refine Keeps.cut s₀ x6 ?_ fun h7 => ?_
    · unfold x6
      apply takeForces_keeps; assumption
    clear_value x6; apply sendEdge_keeps; apply Keeps.ite
    · apply setGen_keeps; assumption
    apply fsgLoad_keeps; assumption
  apply Keeps.ite
  · apply setGen_keeps; assumption
  assumption

theorem trigEdges_keeps {s₀ : State} {s : State} (n : Fin 4) (e : Nat) (h₀ : Keeps s₀ s) :
    Keeps s₀ (State.trigEdges s n e) := by
  unfold State.trigEdges
  apply Keeps.foldl
  · assumption
  intro u0 u1 h2; extract_lets +onlyGivenNames x3; refine Keeps.cut s₀ x3 ?_ fun h4 => ?_
  · unfold x3
    apply Keeps.ite
    · apply takeForces_keeps; assumption
    assumption
  clear_value x3; apply Keeps.ite
  · extract_lets +onlyGivenNames x5; extract_lets +onlyGivenNames x6; apply Keeps.upd₀; assumption
  assumption

theorem fsgFire_keeps {s₀ : State} {s : State} (n : Fin 4) (t : Nat) (h₀ : Keeps s₀ s) :
    Keeps s₀ (State.fsgFire s n t) := by
  unfold State.fsgFire
  extract_lets +onlyGivenNames x0; refine Keeps.cut s₀ x0 ?_ fun h1 => ?_
  · unfold x0
    apply bumpWrap_keeps; assumption
  clear_value x0; extract_lets +onlyGivenNames x2; extract_lets +onlyGivenNames x3; extract_lets +onlyGivenNames x4
  refine Keeps.cut s₀ x4 ?_ fun h5 => ?_
  · unfold x4
    apply Keeps.ite
    · apply setF_keeps; assumption
    assumption
  clear_value x4; apply trigEdges_keeps; apply setGen_keeps; assumption

theorem execFsgEdge_keeps {s₀ : State} (n : Fin 4) {s : State} (h₀ : Keeps s₀ s) :
    KeepsOut s₀ (execFsgEdge n s) := by
  unfold execFsgEdge
  split
  · apply KeepsOut.next; assumption
  apply KeepsOut.ite
  · apply KeepsOut.next; assumption
  extract_lets +onlyGivenNames x0; extract_lets +onlyGivenNames x1; refine Keeps.cut s₀ x1 ?_ fun h2 => ?_
  · unfold x1
    apply takeForces_keeps; assumption
  clear_value x1; extract_lets +onlyGivenNames x3; refine Keeps.cut s₀ x3 ?_ fun h4 => ?_
  · unfold x3
    apply fsgFire_keeps; assumption
  clear_value x3; extract_lets +onlyGivenNames x5; apply KeepsOut.next; apply Keeps.ite
  · apply raiseCause_keeps; apply setF_keeps; apply setGen_keeps; assumption
  apply Keeps.ite
  · apply setGen_keeps; assumption
  apply Keeps.ite
  · apply setGen_keeps; assumption
  split
  · apply setGen_keeps; assumption
  apply sendEdge_keeps; apply setGen_keeps; assumption

theorem execFsgPulseEnd_keeps {s₀ : State} (n : Fin 4) {s : State} (h₀ : Keeps s₀ s) :
    KeepsOut s₀ (execFsgPulseEnd n s) := by
  unfold execFsgPulseEnd
  extract_lets +onlyGivenNames x0; apply KeepsOut.ite
  · apply KeepsOut.next; apply setGen_keeps; assumption
  apply KeepsOut.next; assumption

end Sys2Proof
end

