-- ==== Sys2Proof/Laws/KeepsLink.lean ====
section
/-! SUPPORT. `Keeps` of the operations of Sys2Proof/Machine/Link.lean. -/

set_option linter.unusedTactic false
set_option linter.unreachableTactic false
set_option linter.tactic.unusedName false
set_option linter.unusedVariables false

namespace Sys2Proof

open Machine

theorem sendCaps_keeps {s₀ : State} {s : State} (h₀ : Keeps s₀ s) :
    Keeps s₀ (State.sendCaps s) := by
  unfold State.sendCaps
  extract_lets +onlyGivenNames x0; apply Keeps.foldl
  · assumption
  intro u1 u2 h3; apply Keeps.ite
  · apply portQueue_keeps; assumption
  assumption

theorem timeClash_keeps {s₀ : State} {s : State} (p : Fin 2) (h₀ : Keeps s₀ s) :
    Keeps s₀ (State.timeClash s p) := by
  unfold State.timeClash
  apply Keeps.ite
  · apply setF_keeps; assumption
  assumption

theorem partnerCaps_keeps {s₀ : State} {s : State} (p : Fin 2) (w : Nat) (h₀ : Keeps s₀ s) :
    Keeps s₀ (State.partnerCaps s p w) := by
  unfold State.partnerCaps
  apply timeClash_keeps; apply setF_keeps; apply setF_keeps; assumption

theorem lnkCfgAct_keeps {s₀ : State} (was : Bool) {s : State} (h₀ : Keeps s₀ s) :
    Keeps s₀ (State.lnkCfgAct was s) := by
  unfold State.lnkCfgAct
  apply Keeps.ite
  · assumption
  apply timeClash_keeps; apply timeClash_keeps; apply sendCaps_keeps; assumption

theorem lnkTrain_keeps {s₀ : State} {s : State} (p : Fin 2) (h₀ : Keeps s₀ s) :
    Keeps s₀ (State.lnkTrain s p) := by
  unfold State.lnkTrain
  extract_lets +onlyGivenNames x0; apply setPort_keeps; apply setF_keeps; assumption

theorem lnkCtrlWrite_keeps {s₀ : State} {s : State} (p : Fin 2) (m : Master) (v : Word) (h₀ : Keeps s₀ s) :
    Keeps s₀ (State.lnkCtrlWrite s p m v) := by
  unfold State.lnkCtrlWrite
  apply regWrite_keeps
  · assumption
  intro u0 h1; apply Keeps.ite
  · apply lnkTrain_keeps; assumption
  assumption

theorem execLnkTrain_keeps {s₀ : State} (p : Fin 2) (m : Master) (v : Word) {s : State} (h₀ : Keeps s₀ s) :
    KeepsOut s₀ (execLnkTrain p m v s) := by
  unfold execLnkTrain
  apply KeepsOut.next; apply lnkCtrlWrite_keeps; assumption

theorem lnkFail_keeps {s₀ : State} {s : State} (p : Fin 2) (h₀ : Keeps s₀ s) :
    Keeps s₀ (State.lnkFail s p) := by
  unfold State.lnkFail
  apply setPort_keeps; apply setF_keeps; assumption

theorem lossReport_keeps {s₀ : State} {s : State} (p : Fin 2) (loss : BitVec 32) (h₀ : Keeps s₀ s) :
    Keeps s₀ (State.lossReport s p loss) := by
  unfold State.lossReport
  extract_lets +onlyGivenNames x0; refine Keeps.cut s₀ x0 ?_ fun h1 => ?_
  · unfold x0
    apply setF_keeps; assumption
  clear_value x0; apply Keeps.ite
  · apply raiseCause_keeps; apply setF_keeps; assumption
  assumption

theorem execLnkTrainingDone_keeps {s₀ : State} (p : Fin 2) (good : BitVec 4) (rev : Bool) (loss : BitVec 32) (cap0 :
    BitVec 32) (cap1 : BitVec 32) {s : State} (h₀ : Keeps s₀ s) :
    KeepsOut s₀ (execLnkTrainingDone p good rev loss cap0 cap1 s) := by
  unfold execLnkTrainingDone
  extract_lets +onlyGivenNames x0; extract_lets +onlyGivenNames x1; apply KeepsOut.ite
  · apply KeepsOut.next; assumption
  extract_lets +onlyGivenNames x2; extract_lets +onlyGivenNames x3; extract_lets +onlyGivenNames x4
  refine Keeps.cut s₀ x4 ?_ fun h5 => ?_
  · unfold x4
    apply emit_keeps; assumption
  clear_value x4; extract_lets +onlyGivenNames x6; refine Keeps.cut s₀ x6 ?_ fun h7 => ?_
  · unfold x6
    apply setF_keeps; apply setF_keeps; apply lossReport_keeps; assumption
  clear_value x6; extract_lets +onlyGivenNames x8; refine Keeps.cut s₀ x8 ?_ fun h9 => ?_
  · unfold x8
    apply setF_keeps; apply setF_keeps; assumption
  clear_value x8; apply KeepsOut.ite
  · apply KeepsOut.next; apply lnkFail_keeps; assumption
  extract_lets +onlyGivenNames x10; extract_lets +onlyGivenNames x11; refine Keeps.cut s₀ x11 ?_ fun h12 => ?_
  · unfold x11
    apply setF_keeps; apply setF_keeps; assumption
  clear_value x11; extract_lets +onlyGivenNames x13; refine Keeps.cut s₀ x13 ?_ fun h14 => ?_
  · unfold x13
    apply setF_keeps; apply setF_keeps; assumption
  clear_value x13; apply KeepsOut.next; apply timeClash_keeps; apply setPort_keeps; assumption

theorem execLnkTrainingFail_keeps {s₀ : State} (p : Fin 2) (e : LaneReport) {s : State} (h₀ : Keeps s₀ s) :
    KeepsOut s₀ (execLnkTrainingFail p e s) := by
  unfold execLnkTrainingFail
  extract_lets +onlyGivenNames x0; apply KeepsOut.ite
  · apply KeepsOut.next; apply lnkFail_keeps; apply lossReport_keeps; assumption
  apply KeepsOut.next; assumption

theorem execLinkRetrainTimer_keeps {s₀ : State} (p : Fin 2) {s : State} (h₀ : Keeps s₀ s) :
    KeepsOut s₀ (execLinkRetrainTimer p s) := by
  unfold execLinkRetrainTimer
  extract_lets +onlyGivenNames x0; apply KeepsOut.ite
  · apply KeepsOut.next; apply lnkTrain_keeps; apply setPort_keeps; assumption
  apply KeepsOut.next; assumption

theorem portDown_keeps {s₀ : State} {s : State} (p : Fin 2) (h₀ : Keeps s₀ s) :
    Keeps s₀ (State.portDown s p) := by
  unfold State.portDown
  extract_lets +onlyGivenNames x0; refine Keeps.cut s₀ x0 ?_ fun h1 => ?_
  · unfold x0; apply bump_keeps; apply setF_keeps; assumption
  clear_value x0; apply lnkTrain_keeps; apply setPort_keeps; assumption

theorem execLinkNakLimit_keeps {s₀ : State} (p : Fin 2) {s : State} (h₀ : Keeps s₀ s) :
    KeepsOut s₀ (execLinkNakLimit p s) := by
  unfold execLinkNakLimit
  apply KeepsOut.ite
  · apply KeepsOut.next; apply portDown_keeps; assumption
  apply KeepsOut.next; assumption

theorem execLinkFlitTimeout_keeps {s₀ : State} (p : Fin 2) {s : State} (h₀ : Keeps s₀ s) :
    KeepsOut s₀ (execLinkFlitTimeout p s) := by
  unfold execLinkFlitTimeout
  apply KeepsOut.ite
  · apply KeepsOut.next; apply portDown_keeps; assumption
  apply KeepsOut.next; assumption

theorem execLinkLockLoss_keeps {s₀ : State} (p : Fin 2) {s : State} (h₀ : Keeps s₀ s) :
    KeepsOut s₀ (execLinkLockLoss p s) := by
  unfold execLinkLockLoss
  apply KeepsOut.ite
  · apply KeepsOut.next; apply portDown_keeps; assumption
  apply KeepsOut.next; assumption

theorem setLock_keeps {s₀ : State} {s : State} (b : Bool) (h₀ : Keeps s₀ s) :
    Keeps s₀ (State.setLock s b) := by
  unfold State.setLock
  apply Keeps.ite
  · assumption
  apply sendCaps_keeps; apply raiseCause_keeps; apply setF_keeps; assumption

theorem closeVia_keeps {s₀ : State} {s : State} (p : Fin 2) (h₀ : Keeps s₀ s) :
    Keeps s₀ (State.closeVia s p) := by
  unfold State.closeVia
  extract_lets +onlyGivenNames x0; extract_lets +onlyGivenNames x1; extract_lets +onlyGivenNames x2
  extract_lets +onlyGivenNames x3; refine Keeps.cut s₀ x3 ?_ fun h4 => ?_
  · unfold x3; apply Keeps.foldl
    · assumption
    intro u5 u6 h7; apply closeWinNow_keeps; assumption
  clear_value x3; extract_lets +onlyGivenNames x8; refine Keeps.cut s₀ x8 ?_ fun h9 => ?_
  · unfold x8; apply Keeps.foldl
    · assumption
    intro u10 u11 h12; apply setOb_keeps; assumption
  clear_value x8; apply failWaits_keeps; assumption

theorem dropPort_keeps {s₀ : State} {s : State} (p : Fin 2) (h₀ : Keeps s₀ s) :
    Keeps s₀ (State.dropPort s p) := by
  unfold State.dropPort
  extract_lets +onlyGivenNames x0; extract_lets +onlyGivenNames x1; refine Keeps.cut s₀ x1 ?_ fun h2 => ?_
  · unfold x1
    apply setPort_keeps; assumption
  clear_value x1; apply Keeps.foldl
  · assumption
  intro u3 u4 h5; apply setIw_keeps; assumption

theorem holdOver_keeps {s₀ : State} {s : State} (h₀ : Keeps s₀ s) :
    Keeps s₀ (State.holdOver s) := by
  unfold State.holdOver
  apply Keeps.foldl
  · assumption
  intro u0 u1 h2; apply Keeps.ite
  · apply setGen_keeps; assumption
  assumption

theorem execPartnerLost_keeps {s₀ : State} (p : Fin 2) {s : State} (h₀ : Keeps s₀ s) :
    KeepsOut s₀ (execPartnerLost p s) := by
  unfold execPartnerLost
  extract_lets +onlyGivenNames x0; apply KeepsOut.ite
  · apply KeepsOut.next; assumption
  extract_lets +onlyGivenNames x1; extract_lets +onlyGivenNames x2; refine Keeps.cut s₀ x2 ?_ fun h3 => ?_
  · unfold x2
    apply closeVia_keeps; assumption
  clear_value x2; extract_lets +onlyGivenNames x4; refine Keeps.cut s₀ x4 ?_ fun h5 => ?_
  · unfold x4
    apply Keeps.foldl
    · assumption
    intro u6 u7 h8; apply reportAft_keeps; apply killJob_keeps; assumption
  clear_value x4; extract_lets +onlyGivenNames x9; extract_lets +onlyGivenNames x10
  refine Keeps.cut s₀ x10 ?_ fun h11 => ?_
  · unfold x10
    apply Keeps.ite
    · apply holdOver_keeps; apply setLock_keeps; apply Keeps.upd₀; assumption
    assumption
  clear_value x10; apply KeepsOut.next; apply raiseCause_keeps; apply setF_keeps; apply dropPort_keeps; assumption

theorem startExchange_keeps {s₀ : State} {s : State} (p : Fin 2) (h₀ : Keeps s₀ s) :
    Keeps s₀ (State.startExchange s p) := by
  unfold State.startExchange
  apply Keeps.ite
  · apply portQueue_keeps; assumption
  assumption

theorem sendLinkGroup_keeps {s₀ : State} {s : State} (p : Fin 2) (h₀ : Keeps s₀ s) :
    Keeps s₀ (State.sendLinkGroup s p) := by
  unfold State.sendLinkGroup
  extract_lets +onlyGivenNames x0; split
  · apply emit_keeps; apply setPort_keeps; assumption
  extract_lets +onlyGivenNames x1; extract_lets +onlyGivenNames x2; extract_lets +onlyGivenNames x3
  extract_lets +onlyGivenNames x4; extract_lets +onlyGivenNames x5; apply emit_keeps; apply setPort_keeps; assumption

theorem execLinkMessageSend_keeps {s₀ : State} (p : Fin 2) {s : State} (h₀ : Keeps s₀ s) :
    KeepsOut s₀ (execLinkMessageSend p s) := by
  unfold execLinkMessageSend
  apply KeepsOut.ite
  · apply KeepsOut.next; assumption
  extract_lets +onlyGivenNames x0; refine Keeps.cut s₀ x0 ?_ fun h1 => ?_
  · unfold x0
    apply startExchange_keeps; assumption
  clear_value x0; extract_lets +onlyGivenNames x2; extract_lets +onlyGivenNames x3; apply KeepsOut.ite
  · extract_lets +onlyGivenNames x4; extract_lets +onlyGivenNames x5; refine Keeps.cut s₀ x5 ?_ fun h6 => ?_
    · unfold x5
      apply sendLinkGroup_keeps; apply setPort_keeps; assumption
    clear_value x5; apply KeepsOut.next; apply setPort_keeps; assumption
  apply KeepsOut.next; apply sendLinkGroup_keeps; apply setPort_keeps; assumption

theorem lnkTakeAck_keeps {s₀ : State} {s : State} (p : Fin 2) (n : Nat) (h₀ : Keeps s₀ s) :
    Keeps s₀ (State.lnkTakeAck s p n) := by
  unfold State.lnkTakeAck
  extract_lets +onlyGivenNames x0; extract_lets +onlyGivenNames x1; extract_lets +onlyGivenNames x2; apply Keeps.ite
  · apply bump_keeps; apply setPort_keeps; assumption
  apply setPort_keeps; assumption

theorem execLinkGroupReceive_keeps {s₀ : State} (p : Fin 2) (g : FlitGroup) {s : State} (h₀ : Keeps s₀ s) :
    KeepsOut s₀ (execLinkGroupReceive p g s) := by
  unfold execLinkGroupReceive
  apply KeepsOut.ite
  · apply KeepsOut.next; assumption
  extract_lets +onlyGivenNames x0; extract_lets +onlyGivenNames x1; extract_lets +onlyGivenNames x2
  apply KeepsOut.ite
  · apply KeepsOut.next; apply setPort_keeps; assumption
  apply KeepsOut.ite
  · apply KeepsOut.next; apply lnkTakeAck_keeps; apply setPort_keeps; assumption
  extract_lets +onlyGivenNames x3; extract_lets +onlyGivenNames x4; extract_lets +onlyGivenNames x5
  apply KeepsOut.next; apply lnkTakeAck_keeps; apply setPort_keeps; assumption

theorem takeMsg_keeps {s₀ : State} {s : State} (p : Fin 2) (b : Nat) (h₀ : Keeps s₀ s) :
    KeepsOptSnd s₀ (State.takeMsg s p b) := by
  unfold State.takeMsg
  extract_lets +onlyGivenNames x0; split
  · apply KeepsOptSnd.none
  extract_lets +onlyGivenNames x1; apply KeepsOptSnd.ite
  · apply KeepsOptSnd.none
  extract_lets +onlyGivenNames x2; apply KeepsOptSnd.some; apply Keeps.mk_snd; apply setPort_keeps; assumption

theorem lnkForward_keeps {s₀ : State} {s : State} (p : Fin 2) (m : LinkMsg) (h₀ : Keeps s₀ s) :
    Keeps s₀ (State.lnkForward s p m) := by
  unfold State.lnkForward
  split
  · rename_i r0 r1 r2; refine Keeps.cut s₀ r1 (KeepsOpt.of r2 ?_) fun h3 => ?_
    · apply KeepsOpt.ite
      · apply KeepsOpt.none
      apply linkSend_keeps; assumption
    apply Keeps.upd₀; assumption
  apply Keeps.ite
  · apply lnkRefuse_keeps; assumption
  assumption

theorem lnkProtocol_keeps {s₀ : State} {s : State} (p : Fin 2) (h₀ : Keeps s₀ s) :
    Keeps s₀ (State.lnkProtocol s p) := by
  unfold State.lnkProtocol
  apply reportAft_keeps; apply bump_keeps; assumption

theorem drainWin_keeps {s₀ : State} {s : State} (n : Fin 32) (h₀ : Keeps s₀ s) :
    Keeps s₀ (State.drainWin s n) := by
  unfold State.drainWin
  extract_lets +onlyGivenNames x0; apply Keeps.ite
  · apply closeWinNow_keeps; assumption
  assumption

theorem winRows_keeps {s₀ : State} {s : State} (m : LinkMsg) (k : Fin 8) (first : Nat) (h₀ : Keeps s₀ s) :
    Keeps s₀ (State.winRows s m k first) := by
  unfold State.winRows
  apply Keeps.foldl
  · assumption
  intro u0 u1 h2; split
  rename_i r3 r4 r5 r6; refine Keeps.cut s₀ r5 (Keeps.of_snd r6 ?_) fun h7 => ?_
  · apply Keeps.ite_snd
    · apply Keeps.mk_snd; apply drawn_keeps; assumption
    apply getRow_keeps; apply waited_keeps; assumption
  apply lnkReply_keeps; assumption

theorem winMessage_keeps {s₀ : State} {s : State} (p : Fin 2) (m : LinkMsg) (rest : List Nat) (h₀ : Keeps s₀ s) :
    Keeps s₀ (State.winMessage s p m rest) := by
  unfold State.winMessage
  apply Keeps.ite
  · apply setIw_keeps; assumption
  split
  · apply lnkRefuse_keeps; apply bump_keeps; assumption
  extract_lets +onlyGivenNames x0; extract_lets +onlyGivenNames x1; extract_lets +onlyGivenNames x2
  extract_lets +onlyGivenNames x3; refine Keeps.cut s₀ x3 ?_ fun h4 => ?_
  · unfold x3
    apply setIw_keeps; assumption
  clear_value x3; apply Keeps.ite
  · apply drainWin_keeps; apply winRows_keeps; assumption
  apply Keeps.ite
  · apply drainWin_keeps; apply lnkReply_keeps; assumption
  extract_lets +onlyGivenNames x5; refine Keeps.cut s₀ x5 ?_ fun h6 => ?_
  · unfold x5
    apply putRow_keeps; apply waited_keeps; assumption
  clear_value x5; extract_lets +onlyGivenNames x7; extract_lets +onlyGivenNames x8
  refine Keeps.cut s₀ x8 ?_ fun h9 => ?_
  · unfold x8
    apply Keeps.ite
    · apply setIw_keeps; assumption
    assumption
  clear_value x8; apply drainWin_keeps; apply lnkReply_keeps; assumption

theorem execWindowMessage_keeps {s₀ : State} (b : LinkBuf) (rest : List Nat) {s : State} (h₀ : Keeps s₀ s) :
    KeepsOut s₀ (execWindowMessage b rest s) := by
  unfold execWindowMessage
  split
  · apply KeepsOut.next; assumption
  rename_i r0 r1 r2 r3; refine Keeps.cut s₀ r2 (KeepsOptSnd.of r3 ?_) fun h4 => ?_
  · apply takeMsg_keeps; assumption
  apply KeepsOut.ite
  · apply KeepsOut.next; apply lnkProtocol_keeps; assumption
  apply KeepsOut.ite
  · apply KeepsOut.next; apply lnkForward_keeps; assumption
  apply KeepsOut.ite
  · split
    · apply KeepsOut.next; apply holdRead_keeps; assumption
    apply KeepsOut.next; apply winMessage_keeps; apply setPort_keeps; assumption
  apply KeepsOut.next; assumption

theorem readBack_keeps {s₀ : State} {s : State} (w : RxWait) (ws : Row) (h₀ : Keeps s₀ s) :
    Keeps s₀ (State.readBack s w ws) := by
  unfold State.readBack
  split
  · extract_lets +onlyGivenNames x0; apply emit_keeps; assumption
  · apply Keeps.ite
    · apply putAwn_keeps; assumption
    apply putRow_keeps; assumption
  assumption

theorem unitTakes_keeps {s₀ : State} {s : State} (w : RxWait) (par : List Nat) (ws : Row) (h₀ : Keeps s₀ s) :
    Keeps s₀ (State.unitTakes s w par ws).2 := by
  unfold State.unitTakes
  extract_lets +onlyGivenNames x0; split
  · apply Keeps.mk_snd; assumption
  apply Keeps.ite_snd
  · apply Keeps.mk_snd; assumption
  extract_lets +onlyGivenNames x1; apply Keeps.mk_snd; apply Keeps.foldl
  · assumption
  intro u2 u3 h4; apply pathParity_keeps; assumption

theorem stepWait_keeps {s₀ : State} {s : State} (w : RxWait) (rows : List Nat) (all : Bool) (h₀ : Keeps s₀ s) :
    Keeps s₀ (State.stepWait s w rows all) := by
  unfold State.stepWait
  extract_lets +onlyGivenNames x0; apply Keeps.upd₀; assumption

theorem refused_keeps {s₀ : State} {s : State} (w : RxWait) (cause : Nat) (h₀ : Keeps s₀ s) :
    Keeps s₀ (State.refused s w cause) := by
  unfold State.refused
  apply failWait_keeps; apply stepWait_keeps; assumption

theorem execRxferAck_keeps {s₀ : State} (b : LinkSet) {s : State} (h₀ : Keeps s₀ s) :
    KeepsOut s₀ (execRxferAck b s) := by
  unfold execRxferAck
  split
  · apply KeepsOut.next; assumption
  rename_i r0 r1 r2 r3; refine Keeps.cut s₀ r2 (KeepsOptSnd.of r3 ?_) fun h4 => ?_
  · apply takeMsg_keeps; assumption
  apply KeepsOut.ite
  · apply KeepsOut.next; assumption
  apply KeepsOut.ite
  · apply KeepsOut.next; assumption
  split
  · apply KeepsOut.next; assumption
  split
  · apply KeepsOut.next; apply refused_keeps; assumption
  apply KeepsOut.ite
  · apply KeepsOut.next; apply stepWait_keeps; assumption
  split
  rename_i r5 r6 r7 r8; refine Keeps.cut s₀ r7 (Keeps.of_snd r8 ?_) fun h9 => ?_
  · apply unitTakes_keeps; assumption
  extract_lets +onlyGivenNames x10; refine Keeps.cut s₀ x10 ?_ fun h11 => ?_
  · unfold x10
    apply readBack_keeps; assumption
  clear_value x10; extract_lets +onlyGivenNames x12; refine Keeps.cut s₀ x12 ?_ fun h13 => ?_
  · unfold x12
    apply Keeps.ite
    · apply transCause_keeps; assumption
    assumption
  clear_value x12; apply KeepsOut.next; apply stepWait_keeps; assumption

theorem dropExchange_keeps {s₀ : State} {s : State} (p : Fin 2) (h₀ : Keeps s₀ s) :
    Keeps s₀ (State.dropExchange s p) := by
  unfold State.dropExchange
  apply Keeps.foldl
  · assumption
  intro u0 u1 h2; split
  · rename_i r3 r4 r5 r6; refine Keeps.cut s₀ r5 (KeepsOptSnd.of r6 ?_) fun h7 => ?_
    · apply takeMsg_keeps; assumption
    apply Keeps.ite
    · assumption
    assumption
  assumption

theorem execLinkTimeExchange_keeps {s₀ : State} (p : Fin 2) (t1 : BitVec 64) (t2 : BitVec 64) (t3 : BitVec 64) (t4 :
    BitVec 64) {s : State} (h₀ : Keeps s₀ s) :
    KeepsOut s₀ (execLinkTimeExchange p t1 t2 t3 t4 s) := by
  unfold execLinkTimeExchange
  apply KeepsOut.ite
  · apply KeepsOut.next; assumption
  extract_lets +onlyGivenNames x0; refine Keeps.cut s₀ x0 ?_ fun h1 => ?_
  · unfold x0
    apply dropExchange_keeps; assumption
  clear_value x0; extract_lets +onlyGivenNames x2; extract_lets +onlyGivenNames x3; extract_lets +onlyGivenNames x4
  extract_lets +onlyGivenNames x5; refine Keeps.cut s₀ x5 ?_ fun h6 => ?_
  · unfold x5
    apply setF_keeps; assumption
  clear_value x5; apply KeepsOut.ite
  · apply KeepsOut.next; assumption
  extract_lets +onlyGivenNames x7; refine Keeps.cut s₀ x7 ?_ fun h8 => ?_
  · unfold x7
    apply setF_keeps; apply setF_keeps; assumption
  clear_value x7; extract_lets +onlyGivenNames x9; extract_lets +onlyGivenNames x10; extract_lets +onlyGivenNames x11
  extract_lets +onlyGivenNames x12; refine Keeps.cut s₀ x12 ?_ fun h13 => ?_
  · unfold x12
    apply setPort_keeps; assumption
  clear_value x12; extract_lets +onlyGivenNames x14; refine Keeps.cut s₀ x14 ?_ fun h15 => ?_
  · unfold x14
    apply Keeps.ite
    · apply setLock_keeps; assumption
    apply Keeps.ite
    · apply setLock_keeps; assumption
    assumption
  clear_value x14; extract_lets +onlyGivenNames x16; apply KeepsOut.ite
  · apply KeepsOut.next; apply stepTime_keeps; assumption
  apply KeepsOut.ite
  · apply KeepsOut.next; apply setF_keeps; apply Keeps.upd₀; assumption
  apply KeepsOut.next; apply Keeps.upd₀; assumption

theorem takeEdge_keeps {s₀ : State} {s : State} (p : Fin 2) (c : Nat) (n : Fin 4) (t : Nat) (h₀ : Keeps s₀ s) :
    Keeps s₀ (State.takeEdge s p c n t) := by
  unfold State.takeEdge
  extract_lets +onlyGivenNames x0; extract_lets +onlyGivenNames x1; refine Keeps.cut s₀ x1 ?_ fun h2 => ?_
  · unfold x1
    apply Keeps.upd₀; assumption
  clear_value x1; apply Keeps.ite
  · apply setGen_keeps; assumption
  assumption

theorem execSyncEdgeTime_keeps {s₀ : State} (p : Fin 2) (v : Fin 2) (n : Fin 4) {s : State} (h₀ : Keeps s₀ s) :
    KeepsOut s₀ (execSyncEdgeTime p v n s) := by
  unfold execSyncEdgeTime
  split
  · apply KeepsOut.next; assumption
  rename_i r0 r1 r2 r3; refine Keeps.cut s₀ r2 (KeepsOptSnd.of r3 ?_) fun h4 => ?_
  · apply takeMsg_keeps; assumption
  apply KeepsOut.ite
  · apply KeepsOut.next; assumption
  apply KeepsOut.next; apply Keeps.ite
  · assumption
  apply takeEdge_keeps; assumption

theorem execWindowOpenInbound_keeps {s₀ : State} (b : Fin 2) {s : State} (h₀ : Keeps s₀ s) :
    KeepsOut s₀ (execWindowOpenInbound b s) := by
  unfold execWindowOpenInbound
  split
  · apply KeepsOut.next; assumption
  extract_lets +onlyGivenNames x0; apply KeepsOut.ite
  · apply KeepsOut.next; apply finish_keeps; assumption
  extract_lets +onlyGivenNames x1; extract_lets +onlyGivenNames x2; apply KeepsOut.next; apply finish_keeps
  apply setIw_keeps; assumption

theorem beginClose_keeps {s₀ : State} {s : State} (n : Fin 32) (closer : Option (Nat × Nat)) (h₀ : Keeps s₀ s) :
    Keeps s₀ (State.beginClose s n closer) := by
  unfold State.beginClose
  extract_lets +onlyGivenNames x0; apply Keeps.ite
  · assumption
  apply drainWin_keeps; apply closeNotices_keeps; apply setIw_keeps; assumption

theorem execWindowCloseInbound_keeps {s₀ : State} (b : Fin 2) {s : State} (h₀ : Keeps s₀ s) :
    KeepsOut s₀ (execWindowCloseInbound b s) := by
  unfold execWindowCloseInbound
  split
  · apply KeepsOut.next; assumption
  extract_lets +onlyGivenNames x0; extract_lets +onlyGivenNames x1; apply KeepsOut.ite
  · apply KeepsOut.next; apply finish_keeps; assumption
  apply KeepsOut.ite
  · apply KeepsOut.next; apply finish_keeps; assumption
  split
  · apply KeepsOut.next; apply finish_keeps; assumption
  · apply KeepsOut.ite
    · apply KeepsOut.next; apply finish_keeps; assumption
    apply KeepsOut.next; apply setIw_keeps; apply accept_keeps; assumption
  apply KeepsOut.next; apply beginClose_keeps; apply accept_keeps; assumption

theorem execWindowOpenOutbound_keeps {s₀ : State} (b : Fin 2) {s : State} (h₀ : Keeps s₀ s) :
    KeepsOut s₀ (execWindowOpenOutbound b s) := by
  unfold execWindowOpenOutbound
  split
  · apply KeepsOut.next; assumption
  extract_lets +onlyGivenNames x0; extract_lets +onlyGivenNames x1; apply KeepsOut.ite
  · apply KeepsOut.next; apply finish_keeps; assumption
  apply KeepsOut.ite
  · apply KeepsOut.next; apply finish_keeps; assumption
  extract_lets +onlyGivenNames x2; extract_lets +onlyGivenNames x3; apply KeepsOut.ite
  · apply KeepsOut.next; apply finish_keeps; assumption
  apply KeepsOut.ite
  · apply KeepsOut.next; apply finish_keeps; assumption
  split
  · apply KeepsOut.next; apply finish_keeps; assumption
  extract_lets +onlyGivenNames x4; apply KeepsOut.next; apply finish_keeps; apply setOb_keeps; assumption

theorem execWindowCloseOutbound_keeps {s₀ : State} (b : Fin 2) {s : State} (h₀ : Keeps s₀ s) :
    KeepsOut s₀ (execWindowCloseOutbound b s) := by
  unfold execWindowCloseOutbound
  split
  · apply KeepsOut.next; assumption
  extract_lets +onlyGivenNames x0; apply KeepsOut.ite
  · apply KeepsOut.next; apply finish_keeps; assumption
  split
  · apply KeepsOut.next; apply finish_keeps; assumption
  apply KeepsOut.next; apply finish_keeps; apply setOb_keeps; assumption

theorem execCloseNotice_keeps {s₀ : State} (b : LinkSet) {s : State} (h₀ : Keeps s₀ s) :
    KeepsOut s₀ (execCloseNotice b s) := by
  unfold execCloseNotice
  split
  · apply KeepsOut.next; assumption
  rename_i r0 r1 r2 r3; refine Keeps.cut s₀ r2 (KeepsOptSnd.of r3 ?_) fun h4 => ?_
  · apply takeMsg_keeps; assumption
  apply KeepsOut.ite
  · apply KeepsOut.next; assumption
  apply KeepsOut.ite
  · apply KeepsOut.next; assumption
  extract_lets +onlyGivenNames x5; apply KeepsOut.next; apply Keeps.foldl
  · assumption
  intro u6 u7 h8; apply setOb_keeps; assumption

theorem execWindowCloseDeadline_keeps {s₀ : State} (n : Fin 32) {s : State} (h₀ : Keeps s₀ s) :
    KeepsOut s₀ (execWindowCloseDeadline n s) := by
  unfold execWindowCloseDeadline
  extract_lets +onlyGivenNames x0; apply KeepsOut.ite
  · apply KeepsOut.next; assumption
  apply KeepsOut.next; apply closeWinNow_keeps; assumption

end Sys2Proof
end

