-- ==== Sys2Proof/Laws/KeepsUnitRun.lean ====
section
/-! SUPPORT. `Keeps` of the operations of Sys2Proof/Machine/UnitRun.lean. -/

set_option linter.unusedTactic false
set_option linter.unreachableTactic false
set_option linter.tactic.unusedName false
set_option linter.unusedVariables false

namespace Sys2Proof

open Machine

theorem unitProtect_keeps {s₀ : State} {s : State} (id : Nat) (k : Nat) (uid : Nat) (r : Nat) (h₀ : Keeps s₀ s) :
    Keeps s₀ (State.unitProtect s id k uid r) := by
  unfold State.unitProtect
  apply reportAft_keeps; assumption

theorem weightPoison_keeps {s₀ : State} {s : State} (k : Nat) (r : Nat) (h₀ : Keeps s₀ s) :
    Keeps s₀ (State.weightPoison s k r) := by
  unfold State.weightPoison
  split
  · assumption
  apply digestSeg_keeps; assumption

theorem taint_keeps {s₀ : State} {s : State} (job : Nat) (k : Fin 8) (rows : List Nat) (h₀ : Keeps s₀ s) :
    Keeps s₀ (State.taint s job k rows) := by
  unfold State.taint
  extract_lets +onlyGivenNames x0; extract_lets +onlyGivenNames x1; extract_lets +onlyGivenNames x2; apply Keeps.ite
  · assumption
  apply Keeps.upd₀; assumption

theorem readAll_keeps {s₀ : State} {s : State} (k : Fin 8) (a1 : List (Bool × Nat)) (h₀ : Keeps s₀ s) :
    Keeps s₀ (State.readAll s k a1).1 := by
  induction a1 generalizing s k with
  | nil =>
    unfold State.readAll
    dsimp only; assumption
  | cons x l ih =>
    unfold State.readAll
    split; rename_i r0 r1 r2 r3; refine Keeps.cut s₀ r2 (Keeps.of_snd r3 ?_) fun h4 => ?_
    · apply Keeps.ite_snd
      · apply getAwn_keeps; assumption
      apply getRow_keeps; assumption
    extract_lets +onlyGivenNames x5; refine Keeps.cut s₀ x5 ?_ fun h6 => ?_
    · unfold x5; apply Keeps.ite
      · apply weightPoison_keeps; assumption
      assumption
    clear_value x5; split; rename_i r7 r8 r9 r10; refine Keeps.cut s₀ r8 (Keeps.of_fst r10 ?_) fun h11 => ?_
    · apply ih; assumption
    dsimp only; assumption

theorem runTensor_keeps {s₀ : State} {s : State} (k : Fin 8) (x : Fin 3) (u : Nat) (o : OpC) (i : UInst) (par : List
    (Bool × Nat × Nat)) (h₀ : Keeps s₀ s) :
    Keeps s₀ (State.runTensor s k x u o i par).1 := by
  unfold State.runTensor
  extract_lets +onlyGivenNames x0; apply Keeps.ite_fst
  · dsimp only; assumption
  extract_lets +onlyGivenNames x1; extract_lets +onlyGivenNames x2; apply Keeps.ite_fst
  · dsimp only; apply Keeps.foldl
    · assumption
    intro u3 u4 h5; apply unitProtect_keeps; assumption
  extract_lets +onlyGivenNames x6; extract_lets +onlyGivenNames x7; extract_lets +onlyGivenNames x8
  extract_lets +onlyGivenNames x9; refine Keeps.cut s₀ x9 ?_ fun h10 => ?_
  · unfold x9; apply taint_keeps; assumption
  clear_value x9; split; rename_i r11 r12 r13 r14; refine Keeps.cut s₀ r12 (Keeps.of_fst r14 ?_) fun h15 => ?_
  · apply readAll_keeps; assumption
  extract_lets +onlyGivenNames x16; refine Keeps.cut s₀ x16 ?_ fun h17 => ?_
  · unfold x16; apply Keeps.foldl
    · assumption
    intro u18 u19 h20; apply pathParity_keeps; assumption
  clear_value x16; extract_lets +onlyGivenNames x21; apply Keeps.ite_fst
  · dsimp only; apply Keeps.foldl
    · assumption
    intro u22 u23 h24; apply unitProtect_keeps; assumption
  dsimp only; assumption

theorem aftGate_keeps {s₀ : State} {s : State} (id : Nat) (poison : Bool) (holds : Bool) (a : Nat) (akind : Nat) (h₀ :
    Keeps s₀ s) :
    Keeps s₀ (State.aftGate s id poison holds a akind).1 := by
  unfold State.aftGate
  apply Keeps.ite_fst
  · dsimp only; assumption
  apply Keeps.ite_fst
  · dsimp only; assumption
  apply Keeps.ite_fst
  · dsimp only; apply poisonCommit_keeps; assumption
  dsimp only; assumption

theorem landOut_keeps {s₀ : State} {s : State} (k : Fin 8) (y : Nat) (id : Nat) (tag : Nat) (frame : Nat) (stripe : Nat)
    (a7 : UEff) (h₀ : Keeps s₀ s) :
    Keeps s₀ (State.landOut s k y id tag frame stripe a7).2 := by
  unfold State.landOut
  split
  · apply devWrite_keeps; assumption
  · extract_lets +onlyGivenNames x0; split
    rename_i r1 r2 r3 r4; refine Keeps.cut s₀ r2 (Keeps.of_fst r4 ?_) fun h5 => ?_
    · apply aftGate_keeps; assumption
    apply Keeps.ite_snd
    · apply Keeps.mk_snd; assumption
    extract_lets +onlyGivenNames x6; extract_lets +onlyGivenNames x7; split
    · rename_i r8 r9 r10; refine Keeps.cut s₀ r9 (KeepsOpt.of r10 ?_) fun h11 => ?_
      · apply linkSend_keeps; assumption
      apply Keeps.mk_snd; assumption
    apply Keeps.mk_snd; apply Keeps.upd₀; assumption
  · split
    rename_i r12 r13 r14 r15; refine Keeps.cut s₀ r13 (Keeps.of_fst r15 ?_) fun h16 => ?_
    · apply aftGate_keeps; assumption
    apply Keeps.mk_snd; apply Keeps.ite
    · assumption
    apply modJob_keeps; assumption
  apply Keeps.mk_snd; assumption

theorem nextSeq_keeps {s₀ : State} {s : State} (k : Fin 8) (x : Fin 3) (h₀ : Keeps s₀ s) :
    Keeps s₀ (State.nextSeq s k x).2 := by
  unfold State.nextSeq
  extract_lets +onlyGivenNames x0; refine CoreOk.cut s₀ x0 ?_ fun h1 => ?_
  · unfold x0; apply Keeps.core; assumption
  clear_value x0; extract_lets +onlyGivenNames x2; extract_lets +onlyGivenNames x3; extract_lets +onlyGivenNames x4
  dsimp only; apply Keeps.setCore
  · assumption
  apply CoreOk.upd; assumption

theorem releaseRow_keeps {s₀ : State} {s : State} (k : Fin 8) (h : HeldRow) (poison : Bool) (h₀ : Keeps s₀ s) :
    Keeps s₀ (State.releaseRow s k h poison) := by
  unfold State.releaseRow
  extract_lets +onlyGivenNames x0; refine CoreOk.cut s₀ x0 ?_ fun h1 => ?_
  · unfold x0; apply Keeps.core; assumption
  clear_value x0; extract_lets +onlyGivenNames x2; refine Keeps.cut s₀ x2 ?_ fun h3 => ?_
  · unfold x2; apply Keeps.setCore
    · assumption
    apply CoreOk.upd; assumption
  clear_value x2; extract_lets +onlyGivenNames x4; extract_lets +onlyGivenNames x5
  refine Keeps.cut s₀ x5 ?_ fun h6 => ?_
  · unfold x5; apply Keeps.ite
    · apply drawn_keeps; assumption
    assumption
  clear_value x5; split; rename_i r7 r8 r9 r10; refine Keeps.cut s₀ r9 (Keeps.of_snd r10 ?_) fun h11 => ?_
  · apply landOut_keeps; assumption
  apply transCause_keeps; assumption

theorem pairEvent_keeps {s₀ : State} {s : State} (k : Fin 8) (h : HeldRow) (cls : Nat) (h₀ : Keeps s₀ s) :
    Keeps s₀ (State.pairEvent s k h cls) := by
  unfold State.pairEvent
  extract_lets +onlyGivenNames x0; extract_lets +onlyGivenNames x1; refine Keeps.cut s₀ x1 ?_ fun h2 => ?_
  · unfold x1; apply reportAft_keeps; assumption
  clear_value x1; apply sweepCore_keeps; apply sweepCore_keeps; assumption

theorem comparePair_keeps {s₀ : State} {s : State} (k : Fin 8) (h : HeldRow) (d : BitVec 64) (h₀ : Keeps s₀ s) :
    Keeps s₀ (State.comparePair s k h d) := by
  unfold State.comparePair
  apply Keeps.ite
  · apply releaseRow_keeps; assumption
  apply pairEvent_keeps; apply releaseRow_keeps; assumption

theorem outbound_keeps {s₀ : State} {s : State} (k : Fin 8) (x : Fin 3) (i : UInst) (tag : Nat) (e : UEff) (h₀ : Keeps
    s₀ s) :
    Keeps s₀ (State.outbound s k x i tag e) := by
  unfold State.outbound
  split
  · split; rename_i r0 r1 r2 r3; refine Keeps.cut s₀ r2 (Keeps.of_snd r3 ?_) fun h4 => ?_
    · apply landOut_keeps; assumption
    apply transCause_keeps; assumption
  apply Keeps.ite
  · split; rename_i r5 r6 r7 r8; refine Keeps.cut s₀ r7 (Keeps.of_snd r8 ?_) fun h9 => ?_
    · apply nextSeq_keeps; assumption
    apply Keeps.setCore
    · assumption
    extract_lets +onlyGivenNames x10; refine CoreOk.cut s₀ x10 ?_ fun h11 => ?_
    · unfold x10; apply Keeps.core; assumption
    clear_value x10; apply CoreOk.upd; assumption
  apply Keeps.ite
  · split; rename_i r12 r13 r14 r15; refine Keeps.cut s₀ r14 (Keeps.of_snd r15 ?_) fun h16 => ?_
    · apply nextSeq_keeps; assumption
    extract_lets +onlyGivenNames x17; apply Keeps.ite
    · apply releaseRow_keeps; apply setF_keeps; assumption
    extract_lets +onlyGivenNames x18; refine CoreOk.cut s₀ x18 ?_ fun h19 => ?_
    · unfold x18; apply Keeps.core; assumption
    clear_value x18; extract_lets +onlyGivenNames x20; refine Keeps.cut s₀ x20 ?_ fun h21 => ?_
    · unfold x20; apply Keeps.setCore
      · assumption
      apply CoreOk.upd; assumption
    clear_value x20; split
    · apply comparePair_keeps; apply Keeps.setCore
      · assumption
      extract_lets +onlyGivenNames x22; refine CoreOk.cut s₀ x22 ?_ fun h23 => ?_
      · unfold x22; apply Keeps.core; assumption
      clear_value x22; apply CoreOk.upd; assumption
    assumption
  split; rename_i r24 r25 r26 r27; refine Keeps.cut s₀ r26 (Keeps.of_snd r27 ?_) fun h28 => ?_
  · apply landOut_keeps; assumption
  apply transCause_keeps; assumption

theorem xferRow_keeps {s₀ : State} {s : State} (k : Fin 8) (x : Fin 3) (i : UInst) (par : List (Bool × Nat × Nat))
    (awn : Bool) (r : Nat) (h₀ : Keeps s₀ s) :
    Keeps s₀ (State.xferRow s k x i par awn r).2.2 := by
  unfold State.xferRow
  extract_lets +onlyGivenNames x0; apply Keeps.ite_snd₂
  · dsimp only; apply unitProtect_keeps; assumption
  split; rename_i r1 r2 r3 r4; refine Keeps.cut s₀ r3 (Keeps.of_snd r4 ?_) fun h5 => ?_
  · apply Keeps.ite_snd
    · apply getAwn_keeps; assumption
    apply getRow_keeps; assumption
  extract_lets +onlyGivenNames x6; refine Keeps.cut s₀ x6 ?_ fun h7 => ?_
  · unfold x6; apply Keeps.ite
    · apply weightPoison_keeps; apply taint_keeps; assumption
    assumption
  clear_value x6; extract_lets +onlyGivenNames x8; extract_lets +onlyGivenNames x9; extract_lets +onlyGivenNames x10
  refine Keeps.cut s₀ x10 ?_ fun h11 => ?_
  · unfold x10; apply Keeps.foldl
    · assumption
    intro u12 u13 h14; apply pathParity_keeps; assumption
  clear_value x10; dsimp only; assumption

theorem xferPut_keeps {s₀ : State} {s : State} (k : Fin 8) (x : Fin 3) (i : UInst) (awn : Bool) (r : Nat) (ws : Row)
    (t : Xfer) (h₀ : Keeps s₀ s) :
    Keeps s₀ (State.xferPut s k x i awn r ws t).2 := by
  unfold State.xferPut
  apply Keeps.ite_snd
  · dsimp only; apply unitProtect_keeps; assumption
  dsimp only; assumption

theorem xferFold_keeps {s₀ : State} (f : Nat × Nat → Xfer × State → Xfer × State) (rows : List Nat) {s : State} (h₀ :
    Keeps s₀ s) (h_f : ∀ a0 p, Keeps s₀ p.2 → Keeps s₀ (f a0 p).2) :
    Keeps s₀ (State.xferFold f rows s).2 := by
  unfold State.xferFold
  apply Keeps.foldl_snd
  · dsimp only; assumption
  intro u0 u1 h2; apply h_f; assumption

theorem runRxfer_keeps {s₀ : State} {s : State} (k : Fin 8) (x : Fin 3) (i : UInst) (write : Bool) (par : List (Bool ×
    Nat × Nat)) (h₀ : Keeps s₀ s) :
    Keeps s₀ (State.runRxfer s k x i write par).1 := by
  unfold State.runRxfer
  extract_lets +onlyGivenNames x0; extract_lets +onlyGivenNames x1; split
  · dsimp only; assumption
  extract_lets +onlyGivenNames x2; extract_lets +onlyGivenNames x3; extract_lets +onlyGivenNames x4
  extract_lets +onlyGivenNames x5; extract_lets +onlyGivenNames x6; extract_lets +onlyGivenNames x7
  extract_lets +onlyGivenNames x8; extract_lets +onlyGivenNames x9; refine Keeps.cut s₀ x9 ?_ fun h10 => ?_
  · unfold x9; apply Keeps.upd₀; assumption
  clear_value x9; extract_lets +onlyGivenNames x11; extract_lets +onlyGivenNames x12; extract_lets +onlyGivenNames x13
  refine Keeps.cut s₀ x13 ?_ fun h14 => ?_
  · unfold x13; apply Keeps.ite
    · assumption
    apply Keeps.upd₀; assumption
  clear_value x13; extract_lets +onlyGivenNames x15; refine Keeps.cut s₀ x15 ?_ fun h16 => ?_
  · unfold x15; apply Keeps.foldl
    · assumption
    intro u17 u18 h19; apply unitProtect_keeps; assumption
  clear_value x15; extract_lets +onlyGivenNames x20; extract_lets +onlyGivenNames x21
  extract_lets +onlyGivenNames x22; refine Keeps.cut s₀ x22 ?_ fun h23 => ?_
  · unfold x22; apply setCtx_keeps; assumption
  clear_value x22; extract_lets +onlyGivenNames x24; extract_lets +onlyGivenNames x25
  refine Keeps.cut s₀ x25 ?_ fun h26 => ?_
  · unfold x25; apply Keeps.foldl
    · assumption
    intro u27 u28 h29; apply Keeps.ite
    · split; rename_i r30 r31 r32 r33 r34; refine Keeps.cut s₀ r33 (Keeps.of_snd₂ r34 ?_) fun h35 => ?_
      · apply xferRow_keeps; assumption
      apply outbound_keeps; apply transCause_keeps; assumption
    extract_lets +onlyGivenNames x36; extract_lets +onlyGivenNames x37; split
    · rename_i r38 r39 r40; refine Keeps.cut s₀ r39 (KeepsOpt.of r40 ?_) fun h41 => ?_
      · apply linkSend_keeps; assumption
      assumption
    apply failWaits_keeps; assumption
  clear_value x25; dsimp only; assumption

theorem xferOut_keeps {s₀ : State} (k : Fin 8) (x : Fin 3) (i : UInst) (par : UnitHits) (n : Nat × Nat) (e : Row → UEff)
    {a : Xfer × State} (h₀ : Keeps s₀ a.2) : Keeps s₀ (State.xferOut k x i par n e a).2 := by
  unfold State.xferOut
  split; rename_i ws cause s r
  refine Keeps.cut s₀ s (Keeps.of_snd₂ r (xferRow_keeps _ _ _ _ _ _ h₀)) fun h => ?_
  split
  · exact h
  · exact hop_keeps _ _ _ _ h

theorem xferStep_keeps {s₀ : State} (k : Fin 8) (x : Fin 3) (o : OpC) (i : UInst) (par : UnitHits) (n : Nat × Nat)
    {a : Xfer × State} (h₀ : Keeps s₀ a.2) : Keeps s₀ (State.xferStep k x o i par n a).2 := by
  unfold State.xferStep
  extract_lets +onlyGivenNames x0; extract_lets +onlyGivenNames x1; apply Keeps.ite_snd
  · split; rename_i r2 r3 r4 r5 r6; refine Keeps.cut s₀ r5 (Keeps.of_snd₂ r6 ?_) fun h7 => ?_
    · apply devRead_keeps; assumption
    split; rename_i r8 r9 r10 r11; refine Keeps.cut s₀ r10 (Keeps.of_snd r11 ?_) fun h12 => ?_
    · apply hop_keeps; assumption
    apply Keeps.ite_snd
    · dsimp only; assumption
    apply xferPut_keeps; assumption
  apply Keeps.ite_snd
  · apply xferOut_keeps; assumption
  apply Keeps.ite_snd
  · extract_lets +onlyGivenNames x9; apply xferOut_keeps; assumption
  apply Keeps.ite_snd
  · split; rename_i r10 r11 r12 r13 r14; refine Keeps.cut s₀ r13 (Keeps.of_snd₂ r14 ?_) fun h15 => ?_
    · apply xferRow_keeps; assumption
    split
    · dsimp only; assumption
    apply xferPut_keeps; assumption
  apply Keeps.ite_snd
  · split; rename_i r16 r17 r18 r19 r20; refine Keeps.cut s₀ r19 (Keeps.of_snd₂ r20 ?_) fun h21 => ?_
    · apply xferRow_keeps; assumption
    split
    · dsimp only; assumption
    apply Keeps.ite_snd
    · dsimp only; assumption
    dsimp only; assumption
  dsimp only
  exact xferPut_keeps _ _ _ _ _ _ _ (Keeps.foldl _ h₀ fun _ _ h => pathParity_keeps _ _ _ h)

theorem runTransfer_keeps {s₀ : State} {s : State} (k : Fin 8) (x : Fin 3) (o : OpC) (i : UInst) (par : UnitHits) (h₀ :
    Keeps s₀ s) :
    Keeps s₀ (State.runTransfer s k x o i par).1 := by
  unfold State.runTransfer
  split
  rename_i r0 r1 r2 r3; refine Keeps.cut s₀ r2 (Keeps.of_snd r3 ?_) fun h4 => ?_
  · apply xferFold_keeps
    · assumption
    intro u5 u6 h7; apply xferStep_keeps; assumption
  apply Keeps.mk_fst; assumption

theorem runCheck_keeps {s₀ : State} {s : State} (k : Fin 8) (x : Fin 3) (o : OpC) (i : UInst) (par : List (Bool × Nat
    × Nat)) (h₀ : Keeps s₀ s) :
    Keeps s₀ (State.runCheck s k x o i par).1 := by
  unfold State.runCheck
  extract_lets +onlyGivenNames x0; extract_lets +onlyGivenNames x1; extract_lets +onlyGivenNames x2
  apply Keeps.ite_fst
  · dsimp only; apply Keeps.foldl
    · assumption
    intro u3 u4 h5; apply unitProtect_keeps; assumption
  extract_lets +onlyGivenNames x6; extract_lets +onlyGivenNames x7; extract_lets +onlyGivenNames x8
  extract_lets +onlyGivenNames x9; extract_lets +onlyGivenNames x10; extract_lets +onlyGivenNames x11
  extract_lets +onlyGivenNames x12; extract_lets +onlyGivenNames x13; split; rename_i r14 r15 r16 r17
  refine Keeps.cut s₀ r15 (Keeps.of_fst r17 ?_) fun h18 => ?_
  · apply readAll_keeps; assumption
  extract_lets +onlyGivenNames x19; refine Keeps.cut s₀ x19 ?_ fun h20 => ?_
  · unfold x19; apply Keeps.foldl
    · assumption
    intro u21 u22 h23; apply pathParity_keeps; assumption
  clear_value x19; dsimp only; assumption

theorem startUnit_keeps {s₀ : State} {s : State} (k : Fin 8) (x : Fin 3) (u : Nat) (i : UInst) (par : UnitHits) (h₀ :
    Keeps s₀ s) :
    Keeps s₀ (State.startUnit s k x u i par).1 := by
  unfold State.startUnit
  split
  · apply Keeps.mk_fst; assumption
  extract_lets +onlyGivenNames x0; apply Keeps.ite_fst
  · unfold x0
    split
    · apply Keeps.ite_fst
      · apply runRxfer_keeps; assumption
      apply Keeps.mk_fst; assumption
    · apply Keeps.ite_fst
      · apply runRxfer_keeps; assumption
      apply Keeps.mk_fst; assumption
    · apply runTransfer_keeps; assumption
    · apply runTransfer_keeps; assumption
    · apply runTransfer_keeps; assumption
    · apply runTransfer_keeps; assumption
    · apply runTransfer_keeps; assumption
    · apply runTransfer_keeps; assumption
    · apply runCheck_keeps; assumption
    · apply runCheck_keeps; assumption
    apply runTensor_keeps; assumption
  apply Keeps.mk_fst; apply drawn_keeps; apply Keeps.foldl
  · unfold x0
    split
    · apply Keeps.ite_fst
      · apply runRxfer_keeps; assumption
      apply Keeps.mk_fst; assumption
    · apply Keeps.ite_fst
      · apply runRxfer_keeps; assumption
      apply Keeps.mk_fst; assumption
    · apply runTransfer_keeps; assumption
    · apply runTransfer_keeps; assumption
    · apply runTransfer_keeps; assumption
    · apply runTransfer_keeps; assumption
    · apply runTransfer_keeps; assumption
    · apply runTransfer_keeps; assumption
    · apply runCheck_keeps; assumption
    · apply runCheck_keeps; assumption
    apply runTensor_keeps; assumption
  intro u1 u2 h3; apply pathParity_keeps; assumption

theorem sendPaired_keeps {s₀ : State} {s : State} (k : Fin 8) (x : Fin 3) (i : UInst) (h₀ : Keeps s₀ s) :
    Keeps s₀ (State.sendPaired s k x i).1 := by
  unfold State.sendPaired
  extract_lets +onlyGivenNames x0; apply Keeps.ite_fst
  · dsimp only; assumption
  extract_lets +onlyGivenNames x1; refine Keeps.cut s₀ x1 ?_ fun h2 => ?_
  · unfold x1; apply Keeps.foldl
    · assumption
    intro u3 u4 h5; apply outbound_keeps; assumption
  clear_value x1; extract_lets +onlyGivenNames x6; dsimp only; assumption

theorem startWait_keeps {s₀ : State} {s : State} (k : Fin 8) (x : Fin 3) (u : Nat) (i : UInst) (h₀ : Keeps s₀ s) :
    KeepsOpt s₀ (State.startWait s k x u i) := by
  unfold State.startWait
  extract_lets +onlyGivenNames x0; extract_lets +onlyGivenNames x1; apply KeepsOpt.ite
  · apply KeepsOpt.none
  apply KeepsOpt.ite
  · apply KeepsOpt.ite
    · apply KeepsOpt.some; assumption
    apply KeepsOpt.none
  apply KeepsOpt.ite
  · apply KeepsOpt.ite
    · apply KeepsOpt.some; assumption
    apply KeepsOpt.none
  apply KeepsOpt.ite
  · apply KeepsOpt.none
  apply KeepsOpt.ite
  · apply KeepsOpt.some; assumption
  apply KeepsOpt.ite
  · apply KeepsOpt.none
  apply KeepsOpt.map; intro u2; apply holdRead_keeps; assumption

theorem tookTurn_keeps {s₀ : State} {s : State} (k : Fin 8) (x : Fin 3) (u : Nat) (h₀ : Keeps s₀ s) :
    Keeps s₀ (State.tookTurn s k x u) := by
  unfold State.tookTurn
  apply Keeps.ite
  · assumption
  extract_lets +onlyGivenNames x0; extract_lets +onlyGivenNames x1; extract_lets +onlyGivenNames x2
  refine Keeps.cut s₀ x2 ?_ fun h3 => ?_
  · unfold x2
    apply setCtx_keeps; assumption
  clear_value x2; apply setCtx_keeps; assumption

theorem execUnitInstructionStart_keeps {s₀ : State} (k : Fin 8) (x : Fin 3) (u : Fin 5) (par : UnitHits) (conf : Nat) {s
    : State} (h₀ : Keeps s₀ s) :
    KeepsOut s₀ (execUnitInstructionStart k x u par conf s) := by
  unfold execUnitInstructionStart
  split
  · apply KeepsOut.next; assumption
  apply KeepsOut.ite
  · apply KeepsOut.next; assumption
  split
  · rename_i r0 r1 r2; refine Keeps.cut s₀ r1 (KeepsOpt.of r2 ?_) fun h3 => ?_
    · apply startWait_keeps; assumption
    apply KeepsOut.next; assumption
  extract_lets +onlyGivenNames x4; refine Keeps.cut s₀ x4 ?_ fun h5 => ?_
  · unfold x4
    apply tookTurn_keeps; apply bumpWrap_keeps; assumption
  clear_value x4; extract_lets +onlyGivenNames x6; extract_lets +onlyGivenNames x7
  refine Keeps.cut s₀ x7 ?_ fun h8 => ?_
  · unfold x7
    apply setCtx_keeps; assumption
  clear_value x7; split
  rename_i r9 r10 r11 r12; refine Keeps.cut s₀ r10 (Keeps.of_fst r12 ?_) fun h13 => ?_
  · apply startUnit_keeps; assumption
  split
  rename_i r14 r15 r16 r17; refine Keeps.cut s₀ r15 (Keeps.of_fst r17 ?_) fun h18 => ?_
  · apply Keeps.ite_fst
    · apply sendPaired_keeps; assumption
    apply Keeps.mk_fst; assumption
  apply KeepsOut.next; apply setCtx_keeps; assumption

theorem numStatus_keeps {s₀ : State} {s : State} (k : Fin 8) (x : Fin 3) (bit : Nat) (h₀ : Keeps s₀ s) :
    Keeps s₀ (State.numStatus s k x bit) := by
  unfold State.numStatus
  apply Keeps.ite
  · assumption
  apply setF_keeps; assumption

theorem noteScene_keeps {s₀ : State} {s : State} (k : Fin 8) (x : Fin 3) (i : UInst) (changed : Nat) (total : Nat) (h₀
    : Keeps s₀ s) :
    Keeps s₀ (State.noteScene s k x i changed total) := by
  unfold State.noteScene
  extract_lets +onlyGivenNames x0; extract_lets +onlyGivenNames x1; apply Keeps.ite
  · assumption
  extract_lets +onlyGivenNames x2; refine Keeps.cut s₀ x2 ?_ fun h3 => ?_
  · unfold x2; apply modJob_keeps; assumption
  clear_value x2; apply Keeps.ite
  · extract_lets +onlyGivenNames x4; refine Keeps.cut s₀ x4 ?_ fun h5 => ?_
    · unfold x4; apply Keeps.ite
      · apply setF_keeps; assumption
      apply setF_keeps; assumption
    clear_value x4; apply modJob_keeps; assumption
  assumption

theorem landEff_keeps {s₀ : State} {s : State} (k : Fin 8) (x : Fin 3) (i : UInst) (e : UEff) (h₀ : Keeps s₀ s) :
    Keeps s₀ (State.landEff s k x i e) := by
  unfold State.landEff
  split
  · apply Keeps.ite
    · apply putAwn_keeps; assumption
    apply putRow_keeps; assumption
  · apply smemPut_keeps; assumption
  · apply outbound_keeps; assumption
  · apply outbound_keeps; assumption
  · apply outbound_keeps; assumption
  · apply numStatus_keeps; apply bump_keeps; assumption
  · apply Keeps.ite
    · apply noteScene_keeps; assumption
    assumption
  · apply numStatus_keeps; assumption
  · apply bumpWrap_keeps; apply bumpWrap_keeps; assumption
  apply reportAft_keeps; assumption

theorem testFault_keeps {s₀ : State} {s : State} (k : Fin 8) (tok : Nat) (uid : Nat) (h₀ : Keeps s₀ s) :
    Keeps s₀ (State.testFault s k tok uid) := by
  unfold State.testFault
  apply Keeps.upd₀; assumption

theorem execUnitInstructionComplete_keeps {s₀ : State} (k : Fin 8) (x : Fin 3) (u : Fin 5) (par : UnitHits) {s : State}
    (h₀ : Keeps s₀ s) :
    KeepsOut s₀ (execUnitInstructionComplete k x u par s) := by
  unfold execUnitInstructionComplete
  split
  · apply KeepsOut.next; assumption
  apply KeepsOut.ite
  · apply KeepsOut.next; assumption
  extract_lets +onlyGivenNames x0; extract_lets +onlyGivenNames x1; extract_lets +onlyGivenNames x2
  extract_lets +onlyGivenNames x3; refine Keeps.cut s₀ x3 ?_ fun h4 => ?_
  · unfold x3
    apply Keeps.foldl
    · assumption
    intro u5 u6 h7; apply pathParity_keeps; assumption
  clear_value x3; extract_lets +onlyGivenNames x8; refine Keeps.cut s₀ x8 ?_ fun h9 => ?_
  · unfold x8
    apply Keeps.foldl
    · assumption
    intro u10 u11 h12; apply landEff_keeps; assumption
  clear_value x8; extract_lets +onlyGivenNames x13; extract_lets +onlyGivenNames x14; extract_lets +onlyGivenNames x15
  apply KeepsOut.ite
  · apply KeepsOut.next; apply setCtx_keeps; assumption
  extract_lets +onlyGivenNames x16; refine Keeps.cut s₀ x16 ?_ fun h17 => ?_
  · unfold x16
    apply Keeps.ite
    · apply testFault_keeps; assumption
    assumption
  clear_value x16; apply KeepsOut.next; apply settle_keeps; apply setCtx_keeps; assumption

end Sys2Proof
end

