-- ==== Sys2Proof/Laws/KeepsCoreUnits.lean ====
section
/-! SUPPORT. `Keeps` of the operations of Sys2Proof/Machine/CoreUnits.lean. -/

set_option linter.unusedTactic false
set_option linter.unreachableTactic false
set_option linter.tactic.unusedName false
set_option linter.unusedVariables false

namespace Sys2Proof

open Machine

theorem askHalt_keeps {s₀ : State} {s : State} (k : Fin 8) (x : Fin 3) (h₀ : Keeps s₀ s) :
    Keeps s₀ (State.askHalt s k x) := by
  unfold State.askHalt
  apply Keeps.ite
  · assumption
  apply takeHalt_keeps; apply setCtx_keeps; assumption

theorem resume_keeps {s₀ : State} {s : State} (k : Fin 8) (x : Fin 3) (h₀ : Keeps s₀ s) :
    Keeps s₀ (State.resume s k x) := by
  unfold State.resume
  extract_lets +onlyGivenNames x0; extract_lets +onlyGivenNames x1; apply Keeps.ite
  · apply settle_keeps; apply setHalted_keeps; apply setCtx_keeps; assumption
  assumption

theorem coreCtrlWrite_keeps {s₀ : State} {s : State} (k : Fin 8) (m : Master) (v : Word) (h₀ : Keeps s₀ s) :
    Keeps s₀ (State.coreCtrlWrite s k m v) := by
  unfold State.coreCtrlWrite
  apply regWrite_keeps
  · assumption
  intro u0 h1; extract_lets +onlyGivenNames x2; extract_lets +onlyGivenNames x3
  refine Keeps.cut s₀ x3 ?_ fun h4 => ?_
  · unfold x3; apply Keeps.ite
    · apply askHalt_keeps; assumption
    assumption
  clear_value x3; extract_lets +onlyGivenNames x5; refine Keeps.cut s₀ x5 ?_ fun h6 => ?_
  · unfold x5; apply Keeps.ite
    · apply askHalt_keeps; assumption
    assumption
  clear_value x5; extract_lets +onlyGivenNames x7; refine Keeps.cut s₀ x7 ?_ fun h8 => ?_
  · unfold x7; apply Keeps.ite
    · apply resume_keeps; assumption
    assumption
  clear_value x7; extract_lets +onlyGivenNames x9; refine Keeps.cut s₀ x9 ?_ fun h10 => ?_
  · unfold x9; apply Keeps.ite
    · apply resume_keeps; assumption
    assumption
  clear_value x9; extract_lets +onlyGivenNames x11; refine Keeps.cut s₀ x11 ?_ fun h12 => ?_
  · unfold x11; apply Keeps.ite
    · apply setF_keeps; assumption
    assumption
  clear_value x11; apply Keeps.ite
  · apply setF_keeps; apply setF_keeps; apply setF_keeps; apply setF_keeps; assumption
  assumption

theorem execCoreHalt_keeps {s₀ : State} (k : Fin 8) (x : Fin 2) (m : Master) (v : Word) {s : State} (h₀ : Keeps s₀ s) :
    KeepsOut s₀ (execCoreHalt k x m v s) := by
  unfold execCoreHalt
  apply KeepsOut.next; apply coreCtrlWrite_keeps; assumption

theorem execCoreResume_keeps {s₀ : State} (k : Fin 8) (x : Fin 2) (m : Master) (v : Word) {s : State} (h₀ : Keeps s₀
    s) :
    KeepsOut s₀ (execCoreResume k x m v s) := by
  unfold execCoreResume
  apply KeepsOut.next; apply coreCtrlWrite_keeps; assumption

theorem execClrSat_keeps {s₀ : State} (k : Fin 8) (m : Master) (v : Word) {s : State} (h₀ : Keeps s₀ s) :
    KeepsOut s₀ (execClrSat k m v s) := by
  unfold execClrSat
  apply KeepsOut.next; apply coreCtrlWrite_keeps; assumption

theorem execClrPerf_keeps {s₀ : State} (k : Fin 8) (m : Master) (v : Word) {s : State} (h₀ : Keeps s₀ s) :
    KeepsOut s₀ (execClrPerf k m v s) := by
  unfold execClrPerf
  apply KeepsOut.next; apply coreCtrlWrite_keeps; assumption

theorem pairArrive_keeps {s₀ : State} {s : State} (p : Fin 4) (d : Nat × BitVec 64) (h₀ : Keeps s₀ s) :
    Keeps s₀ (State.pairArrive s p d) := by
  unfold State.pairArrive
  extract_lets +onlyGivenNames x0; extract_lets +onlyGivenNames x1; refine CoreOk.cut s₀ x1 ?_ fun h2 => ?_
  · unfold x1; apply Keeps.core; assumption
  clear_value x1; split
  · apply comparePair_keeps; assumption
  apply Keeps.ite
  · apply Keeps.setCore
    · assumption
    apply CoreOk.upd; assumption
  assumption

theorem execPairDigest_keeps {s₀ : State} (p : Fin 4) {s : State} (h₀ : Keeps s₀ s) :
    KeepsOut s₀ (execPairDigest p s) := by
  unfold execPairDigest
  extract_lets +onlyGivenNames x0; refine CoreOk.cut s₀ x0 ?_ fun h1 => ?_
  · unfold x0
    apply Keeps.core; assumption
  clear_value x0; split
  · apply KeepsOut.next; assumption
  apply KeepsOut.ite
  · apply KeepsOut.next; assumption
  apply KeepsOut.next; apply pairArrive_keeps; apply Keeps.setCore
  · assumption
  apply CoreOk.upd; assumption

theorem execPairTimeout_keeps {s₀ : State} (p : Fin 4) {s : State} (h₀ : Keeps s₀ s) :
    KeepsOut s₀ (execPairTimeout p s) := by
  unfold execPairTimeout
  extract_lets +onlyGivenNames x0; split
  · apply KeepsOut.next; assumption
  apply KeepsOut.ite
  · apply KeepsOut.next; assumption
  apply KeepsOut.ite
  · apply KeepsOut.next; apply pairEvent_keeps; apply releaseRow_keeps; assumption
  apply KeepsOut.next; assumption

theorem startScrub_keeps {s₀ : State} {s : State} (k : Fin 8) (h₀ : Keeps s₀ s) :
    Keeps s₀ (State.startScrub s k) := by
  unfold State.startScrub
  apply setF_keeps; apply Keeps.setCore
  · assumption
  extract_lets +onlyGivenNames x0; refine CoreOk.cut s₀ x0 ?_ fun h1 => ?_
  · unfold x0; apply Keeps.core; assumption
  clear_value x0; apply CoreOk.upd; assumption

theorem execScrubPassStart_keeps {s₀ : State} (k : Fin 8) {s : State} (h₀ : Keeps s₀ s) :
    KeepsOut s₀ (execScrubPassStart k s) := by
  unfold execScrubPassStart
  extract_lets +onlyGivenNames x0; refine CoreOk.cut s₀ x0 ?_ fun h1 => ?_
  · unfold x0; apply Keeps.core; assumption
  clear_value x0; extract_lets +onlyGivenNames x2; apply KeepsOut.ite
  · apply KeepsOut.next; assumption
  extract_lets +onlyGivenNames x3; refine Keeps.cut s₀ x3 ?_ fun h4 => ?_
  · unfold x3; apply Keeps.setCore
    · assumption
    apply CoreOk.upd; assumption
  clear_value x3; apply KeepsOut.ite
  · apply KeepsOut.next; apply bump_keeps; apply Keeps.setCore
    · assumption
    extract_lets +onlyGivenNames x5; refine CoreOk.cut s₀ x5 ?_ fun h6 => ?_
    · unfold x5; apply Keeps.core; assumption
    clear_value x5; apply CoreOk.upd; assumption
  apply KeepsOut.next; apply startScrub_keeps; assumption

theorem scrubOne_keeps {s₀ : State} {s : State} (k : Fin 8) (r : Nat) (wrote : Bool) (h₀ : Keeps s₀ s) :
    Keeps s₀ (State.scrubOne s k r wrote) := by
  unfold State.scrubOne
  extract_lets +onlyGivenNames x0; split; rename_i r1 r2 r3 r4
  refine Keeps.cut s₀ r3 (Keeps.of_snd r4 ?_) fun h5 => ?_
  · apply getRow_keeps; assumption
  extract_lets +onlyGivenNames x6; refine Keeps.cut s₀ x6 ?_ fun h7 => ?_
  · unfold x6; apply Keeps.ite
    · apply weightPoison_keeps; assumption
    assumption
  clear_value x6; extract_lets +onlyGivenNames x8; refine CoreOk.cut s₀ x8 ?_ fun h9 => ?_
  · unfold x8; apply Keeps.core; assumption
  clear_value x8; extract_lets +onlyGivenNames x10; refine CoreOk.cut s₀ x10 ?_ fun h11 => ?_
  · unfold x10; apply CoreOk.upd; assumption
  clear_value x10; apply Keeps.ite
  · apply Keeps.setCore
    · assumption
    assumption
  apply drawn_keeps; apply Keeps.setCore
  · assumption
  refine CoreOk.put ?_ id id id id (mwf_msets _ _ _) id; assumption

theorem execScrubRow_keeps {s₀ : State} (k : Fin 8) (e : ScrubTurn) {s : State} (h₀ : Keeps s₀ s) :
    KeepsOut s₀ (execScrubRow k e s) := by
  unfold execScrubRow
  extract_lets +onlyGivenNames x0; refine CoreOk.cut s₀ x0 ?_ fun h1 => ?_
  · unfold x0
    apply Keeps.core; assumption
  clear_value x0; apply KeepsOut.ite
  · apply KeepsOut.next; assumption
  extract_lets +onlyGivenNames x2; refine Keeps.cut s₀ x2 ?_ fun h3 => ?_
  · unfold x2
    apply bumpWrap_keeps; assumption
  clear_value x2; split
  · apply KeepsOut.next; apply scrubOne_keeps; assumption
  apply KeepsOut.ite
  · apply KeepsOut.next; assumption
  extract_lets +onlyGivenNames x4; refine Keeps.cut s₀ x4 ?_ fun h5 => ?_
  · unfold x4
    apply scrubOne_keeps; assumption
  clear_value x4; extract_lets +onlyGivenNames x6; refine CoreOk.cut s₀ x6 ?_ fun h7 => ?_
  · unfold x6
    apply Keeps.core; assumption
  clear_value x6; apply KeepsOut.ite
  · apply KeepsOut.next; apply Keeps.setCore
    · assumption
    apply CoreOk.upd; assumption
  extract_lets +onlyGivenNames x8; refine Keeps.cut s₀ x8 ?_ fun h9 => ?_
  · unfold x8
    apply setF_keeps; apply Keeps.setCore
    · assumption
    apply CoreOk.upd; assumption
  clear_value x8; apply KeepsOut.ite
  · apply KeepsOut.next; apply startScrub_keeps; assumption
  apply KeepsOut.next; assumption

theorem finishHeld_keeps {s₀ : State} {s : State} (k : Fin 8) (h : HeldAcc) (h₀ : Keeps s₀ s) :
    Keeps s₀ (State.finishHeld s k h) := by
  unfold State.finishHeld
  apply Keeps.ite
  · apply putRow_keeps; assumption
  apply Keeps.ite
  · assumption
  split
  rename_i r0 r1 r2 r3; refine Keeps.cut s₀ r2 (Keeps.of_snd r3 ?_) fun h4 => ?_
  · apply getRow_keeps; assumption
  extract_lets +onlyGivenNames x5; apply emit_keeps; assumption

theorem releaseHeld_keeps {s₀ : State} {s : State} (k : Fin 8) (h₀ : Keeps s₀ s) :
    Keeps s₀ (State.releaseHeld s k) := by
  unfold State.releaseHeld
  apply Keeps.ite
  · assumption
  extract_lets +onlyGivenNames x0; extract_lets +onlyGivenNames x1; refine CoreOk.cut s₀ x1 ?_ fun h2 => ?_
  · unfold x1
    apply Keeps.core; assumption
  clear_value x1; extract_lets +onlyGivenNames x3; refine Keeps.cut s₀ x3 ?_ fun h4 => ?_
  · unfold x3
    apply Keeps.setCore
    · assumption
    apply CoreOk.upd; assumption
  clear_value x3; apply landed_keeps; apply Keeps.foldl
  · assumption
  intro u5 u6 h7; apply finishHeld_keeps; assumption

theorem failHeld_keeps {s₀ : State} {s : State} (k : Fin 8) (h₀ : Keeps s₀ s) :
    Keeps s₀ (State.failHeld s k) := by
  unfold State.failHeld
  extract_lets +onlyGivenNames x0; extract_lets +onlyGivenNames x1; refine CoreOk.cut s₀ x1 ?_ fun h2 => ?_
  · unfold x1
    apply Keeps.core; assumption
  clear_value x1; extract_lets +onlyGivenNames x3; refine Keeps.cut s₀ x3 ?_ fun h4 => ?_
  · unfold x3
    apply Keeps.setCore
    · assumption
    apply CoreOk.upd; assumption
  clear_value x3; apply Keeps.foldl
  · assumption
  intro u5 u6 h7; apply emit_keeps; apply draw_keeps; assumption

theorem beginWeights_keeps {s₀ : State} {s : State} (k : Nat) (r : Nat) (n : Nat) (h₀ : Keeps s₀ s) :
    Keeps s₀ (State.beginWeights s k r n) := by
  unfold State.beginWeights
  apply Keeps.setCore
  · assumption
  extract_lets +onlyGivenNames x0; refine CoreOk.cut s₀ x0 ?_ fun h1 => ?_
  · unfold x0
    apply Keeps.core; assumption
  clear_value x0; apply CoreOk.upd; assumption

theorem putRows_keeps {s₀ : State} (k : Fin 8) (first : Nat) (l : List Byte) (a1 : Nat) {a2 : State} (h₀ : Keeps s₀
    a2) :
    Keeps s₀ (State.putRows k first l a1 a2) := by
  induction a1 generalizing k first l a2 with
  | zero =>
    unfold State.putRows
    assumption
  | succ n ih =>
    unfold State.putRows
    apply ih; apply putRow_keeps; assumption

theorem fwRows_keeps {s₀ : State} {s : State} (k : Fin 8) (first : Nat) (n : Nat) (l : List Byte) (h₀ : Keeps s₀ s) :
    Keeps s₀ (State.fwRows s k first n l) := by
  unfold State.fwRows
  apply Keeps.ite
  · assumption
  apply Keeps.ite
  · apply Keeps.foldl
    · assumption
    intro u0 u1 h2; apply holdWrite_keeps; assumption
  apply putRows_keeps; apply waited_keeps; assumption

theorem redigest_keeps {s₀ : State} {s : State} (p : Pkg) (first : Nat) (n : Nat) (h₀ : Keeps s₀ s) :
    Keeps s₀ (State.redigest s p first n) := by
  unfold State.redigest
  extract_lets +onlyGivenNames x0; extract_lets +onlyGivenNames x1; extract_lets +onlyGivenNames x2
  extract_lets +onlyGivenNames x3; extract_lets +onlyGivenNames x4; refine Keeps.cut s₀ x4 ?_ fun h5 => ?_
  · unfold x4
    apply Keeps.upd₀; assumption
  clear_value x4; apply addDigests_keeps; assumption

theorem putAdapterOn_keeps {s₀ : State} {s : State} (p : Pkg) (k : Nat) (l : List Byte) (h₀ : Keeps s₀ s) :
    Keeps s₀ (State.putAdapterOn s p k l) := by
  unfold State.putAdapterOn
  apply fwRows_keeps; apply beginWeights_keeps; apply redigest_keeps; assumption

theorem payAdapters_keeps {s₀ : State} {s : State} (k : Fin 8) (h₀ : Keeps s₀ s) :
    Keeps s₀ (State.payAdapters s k) := by
  unfold State.payAdapters
  extract_lets +onlyGivenNames x0; extract_lets +onlyGivenNames x1; refine Keeps.cut s₀ x1 ?_ fun h2 => ?_
  · unfold x1
    apply Keeps.foldl
    · assumption
    intro u3 u4 h5; apply putAdapterOn_keeps; assumption
  clear_value x1; apply Keeps.upd₀; assumption

theorem beginRepair_keeps {s₀ : State} {s : State} (pkg : Nat) (seg : Nat) (k : Nat) (good : List Nat) (want : Option
    (BitVec 64)) (h₀ : Keeps s₀ s) :
    Keeps s₀ (State.beginRepair s pkg seg k good want) := by
  unfold State.beginRepair
  split
  · assumption
  extract_lets +onlyGivenNames x0; extract_lets +onlyGivenNames x1; extract_lets +onlyGivenNames x2
  refine Keeps.cut s₀ x2 ?_ fun h3 => ?_
  · unfold x2
    apply Keeps.upd₀; assumption
  clear_value x2; split
  · assumption
  apply beginWeights_keeps; assumption

theorem restoreCore_keeps {s₀ : State} {s : State} (k : Fin 8) (h₀ : Keeps s₀ s) :
    Keeps s₀ (State.restoreCore s k) := by
  unfold State.restoreCore
  apply Keeps.foldl
  · assumption
  intro u0 u1 h2; extract_lets +onlyGivenNames x3; apply Keeps.foldl
  · assumption
  intro u4 u5 h6; apply beginRepair_keeps; assumption

theorem execScratchpadInitDone_keeps {s₀ : State} (k : Fin 8) (fails : List Nat) {s : State} (h₀ : Keeps s₀ s) :
    KeepsOut s₀ (execScratchpadInitDone k fails s) := by
  unfold execScratchpadInitDone
  apply KeepsOut.ite
  · apply KeepsOut.next; assumption
  split
  extract_lets +onlyGivenNames x0; refine CoreOk.cut s₀ x0 ?_ fun h1 => ?_
  · unfold x0
    apply Keeps.core; assumption
  clear_value x0; extract_lets +onlyGivenNames x2; refine Keeps.cut s₀ x2 ?_ fun h3 => ?_
  · unfold x2
    apply Keeps.setCore
    · assumption
    refine CoreOk.put ?_ id id id id (fun _ => rfl) (fun _ => rfl); assumption
  clear_value x2; extract_lets +onlyGivenNames x4; refine Keeps.cut s₀ x4 ?_ fun h5 => ?_
  · unfold x4
    apply setF_keeps; assumption
  clear_value x4; extract_lets +onlyGivenNames x6; refine Keeps.cut s₀ x6 ?_ fun h7 => ?_
  · unfold x6
    apply setF_keeps; apply setF_keeps; assumption
  clear_value x6; extract_lets +onlyGivenNames x8; extract_lets +onlyGivenNames x9; extract_lets +onlyGivenNames x10
  refine Keeps.cut s₀ x10 ?_ fun h11 => ?_
  · unfold x10
    apply Keeps.ite
    · apply reportAft_keeps; assumption
    assumption
  clear_value x10; apply KeepsOut.next; apply restoreCore_keeps; apply payAdapters_keeps; apply releaseHeld_keeps
  apply staleOnCore_keeps; assumption

theorem setLate_keeps {s₀ : State} {s : State} (h : HeldAcc) (h₀ : Keeps s₀ s) :
    Keeps s₀ (State.setLate s h) := by
  unfold State.setLate
  apply Keeps.ite
  · extract_lets +onlyGivenNames x0; apply setPort_keeps; assumption
  apply Keeps.ite
  · apply Keeps.upd₀; assumption
  apply Keeps.ite
  · apply Keeps.upd₀; assumption
  extract_lets +onlyGivenNames x1; extract_lets +onlyGivenNames x2; extract_lets +onlyGivenNames x3; split
  · apply Keeps.ite
    · apply setCtx_keeps; assumption
    assumption
  assumption

theorem execHeldAccessTimeout_keeps {s₀ : State} (k : Fin 8) {s : State} (h₀ : Keeps s₀ s) :
    KeepsOut s₀ (execHeldAccessTimeout k s) := by
  unfold execHeldAccessTimeout
  extract_lets +onlyGivenNames x0; refine CoreOk.cut s₀ x0 ?_ fun h1 => ?_
  · unfold x0
    apply Keeps.core; assumption
  clear_value x0; split
  · apply KeepsOut.next; assumption
  apply KeepsOut.ite
  · extract_lets +onlyGivenNames x2; refine Keeps.cut s₀ x2 ?_ fun h3 => ?_
    · unfold x2
      apply Keeps.setCore
      · assumption
      apply CoreOk.upd; assumption
    clear_value x2; apply KeepsOut.ite
    · extract_lets +onlyGivenNames x4; refine Keeps.cut s₀ x4 ?_ fun h5 => ?_
      · unfold x4
        apply Keeps.ite
        · apply transCause_keeps; assumption
        assumption
      clear_value x4; apply KeepsOut.next; apply landed_keeps; assumption
    apply KeepsOut.ite
    · apply KeepsOut.next; apply setLate_keeps; assumption
    extract_lets +onlyGivenNames x6; apply KeepsOut.next; apply emit_keeps; apply draw_keeps; assumption
  apply KeepsOut.next; assumption

theorem execWakePassDone_keeps {s₀ : State} (k : Fin 8) {s : State} (h₀ : Keeps s₀ s) :
    KeepsOut s₀ (execWakePassDone k s) := by
  unfold execWakePassDone
  extract_lets +onlyGivenNames x0; refine CoreOk.cut s₀ x0 ?_ fun h1 => ?_
  · unfold x0
    apply Keeps.core; assumption
  clear_value x0; apply KeepsOut.ite
  · apply KeepsOut.next; assumption
  extract_lets +onlyGivenNames x2; extract_lets +onlyGivenNames x3; refine Keeps.cut s₀ x3 ?_ fun h4 => ?_
  · unfold x3
    apply Keeps.foldl
    · assumption
    intro u5 u6 h7; apply scrubOne_keeps; assumption
  clear_value x3; extract_lets +onlyGivenNames x8; refine CoreOk.cut s₀ x8 ?_ fun h9 => ?_
  · unfold x8
    apply Keeps.core; assumption
  clear_value x8; extract_lets +onlyGivenNames x10; refine Keeps.cut s₀ x10 ?_ fun h11 => ?_
  · unfold x10
    apply setF_keeps; apply Keeps.setCore
    · assumption
    apply CoreOk.upd; assumption
  clear_value x10; apply KeepsOut.next; apply payAdapters_keeps; apply releaseHeld_keeps; assumption

theorem execWeightWriteEnd_keeps {s₀ : State} (k : Fin 8) {s : State} (h₀ : Keeps s₀ s) :
    KeepsOut s₀ (execWeightWriteEnd k s) := by
  unfold execWeightWriteEnd
  apply KeepsOut.ite
  · apply KeepsOut.next; assumption
  extract_lets +onlyGivenNames x0; refine CoreOk.cut s₀ x0 ?_ fun h1 => ?_
  · unfold x0
    apply Keeps.core; assumption
  clear_value x0; extract_lets +onlyGivenNames x2; refine Keeps.cut s₀ x2 ?_ fun h3 => ?_
  · unfold x2
    apply Keeps.setCore
    · assumption
    apply CoreOk.upd; assumption
  clear_value x2; apply KeepsOut.next; apply Keeps.forCores
  · assumption
  intro u4 u5 h6; apply settle_keeps; apply Keeps.setCore
  · assumption
  extract_lets +onlyGivenNames x7; refine CoreOk.cut s₀ x7 ?_ fun h8 => ?_
  · unfold x7
    apply Keeps.core; assumption
  clear_value x7; apply CoreOk.upd; assumption

theorem arrived_keeps {s₀ : State} (k : Fin 8) (r : Nat) (i : Nat) (a3 : List (BitVec 64 × BitVec 8)) {a4 : State} (h₀ :
    Keeps s₀ a4) :
    Keeps s₀ (State.arrived k r i a3 a4).2 := by
  induction a3 generalizing k r i a4 with
  | nil =>
    unfold State.arrived
    apply Keeps.mk_snd; assumption
  | cons x l ih =>
    unfold State.arrived
    extract_lets +onlyGivenNames x0; split
    rename_i r1 r2 r3 r4; refine Keeps.cut s₀ r3 (Keeps.of_snd r4 ?_) fun h5 => ?_
    · apply ih; apply noteWord_keeps; assumption
    apply Keeps.mk_snd; assumption

theorem execInboundRowWrite_keeps {s₀ : State} (k : Fin 8) (job : Nat) (r : Nat) (e : RowArrival) {s : State} (h₀ :
    Keeps s₀ s) :
    KeepsOut s₀ (execInboundRowWrite k job r e s) := by
  unfold execInboundRowWrite
  extract_lets +onlyGivenNames x0; apply KeepsOut.ite
  · apply KeepsOut.next; assumption
  apply KeepsOut.ite
  · apply KeepsOut.next; apply reportAft_keeps; assumption
  apply KeepsOut.ite
  · apply KeepsOut.next; apply reportAft_keeps; assumption
  split
  rename_i r1 r2 r3 r4; refine Keeps.cut s₀ r3 (Keeps.of_snd r4 ?_) fun h5 => ?_
  · apply arrived_keeps; apply bumpWrap_keeps; assumption
  apply KeepsOut.ite
  · apply KeepsOut.next; apply holdWrite_keeps; assumption
  apply KeepsOut.next; apply putRow_keeps; assumption

theorem spClrWrite_keeps {s₀ : State} {s : State} (k : Fin 8) (m : Master) (v : Word) (h₀ : Keeps s₀ s) :
    Keeps s₀ (State.spClrWrite s k m v) := by
  unfold State.spClrWrite
  apply regWrite_keeps
  · assumption
  intro u0 h1; apply Keeps.ite
  · apply setF_keeps; apply setF_keeps; apply setF_keeps; apply setF_keeps; assumption
  assumption

theorem execSpClr_keeps {s₀ : State} (k : Fin 8) (m : Master) (v : Word) {s : State} (h₀ : Keeps s₀ s) :
    KeepsOut s₀ (execSpClr k m v s) := by
  unfold execSpClr
  apply KeepsOut.next; apply spClrWrite_keeps; assumption

end Sys2Proof
end

