-- ==== Sys2Proof/Laws/KeepsBridge.lean ====
section
/-! SUPPORT. `Keeps` of the operations of Sys2Proof/Machine/Bridge.lean. -/

set_option linter.unusedTactic false
set_option linter.unreachableTactic false
set_option linter.tactic.unusedName false
set_option linter.unusedVariables false

namespace Sys2Proof

open Machine

theorem setDir_keeps {s₀ : State} {s : State} (d : Dir) (x : BrgDir) (h₀ : Keeps s₀ s) :
    Keeps s₀ (State.setDir s d x) := by
  unfold State.setDir
  split
  · apply Keeps.upd₀; assumption
  apply Keeps.upd₀; assumption

theorem setBad_keeps {s₀ : State} {s : State} (d : Dir) (m : Nat) (h₀ : Keeps s₀ s) :
    Keeps s₀ (State.setBad s d m) := by
  unfold State.setBad
  split
  · apply setF_keeps; apply setF_keeps; assumption
  apply setF_keeps; apply setF_keeps; assumption

theorem brgTrain_keeps {s₀ : State} {s : State} (h₀ : Keeps s₀ s) :
    Keeps s₀ (State.brgTrain s) := by
  unfold State.brgTrain
  extract_lets +onlyGivenNames x0; refine Keeps.cut s₀ x0 ?_ fun h1 => ?_
  · unfold x0; apply setF_keeps; assumption
  clear_value x0; apply Keeps.upd₀; assumption

theorem brgCtrlAct_keeps {s₀ : State} (v : Word) {s : State} (h₀ : Keeps s₀ s) :
    Keeps s₀ (State.brgCtrlAct v s) := by
  unfold State.brgCtrlAct
  extract_lets +onlyGivenNames x0; refine Keeps.cut s₀ x0 ?_ fun h1 => ?_
  · unfold x0; apply Keeps.ite
    · apply setF_keeps; apply setF_keeps; assumption
    assumption
  clear_value x0; apply Keeps.ite
  · apply brgTrain_keeps; assumption
  assumption

theorem brgCtrlWrite_keeps {s₀ : State} {s : State} (m : Master) (v : Word) (h₀ : Keeps s₀ s) :
    Keeps s₀ (State.brgCtrlWrite s m v) := by
  unfold State.brgCtrlWrite
  apply regWrite_keeps
  · assumption
  intro u0 h1; apply brgCtrlAct_keeps; assumption

theorem execBrgTrain_keeps {s₀ : State} (m : Master) (v : Word) {s : State} (h₀ : Keeps s₀ s) :
    KeepsOut s₀ (execBrgTrain m v s) := by
  unfold execBrgTrain
  apply KeepsOut.next; apply brgCtrlWrite_keeps; assumption

theorem execBrgClrCnt_keeps {s₀ : State} (m : Master) (v : Word) {s : State} (h₀ : Keeps s₀ s) :
    KeepsOut s₀ (execBrgClrCnt m v s) := by
  unfold execBrgClrCnt
  apply KeepsOut.next; apply brgCtrlWrite_keeps; assumption

theorem mapLanes_keeps {s₀ : State} {s : State} (d : Dir) (m : Nat) (half : Bool) (h₀ : Keeps s₀ s) :
    Keeps s₀ (State.mapLanes s d m half) := by
  unfold State.mapLanes
  extract_lets +onlyGivenNames x0; extract_lets +onlyGivenNames x1; extract_lets +onlyGivenNames x2
  extract_lets +onlyGivenNames x3; refine Keeps.cut s₀ x3 ?_ fun h4 => ?_
  · unfold x3; apply setDir_keeps; assumption
  clear_value x3; apply setF_keeps; apply setBad_keeps; assumption

theorem announce_keeps {s₀ : State} {s : State} (d : Dir) (h₀ : Keeps s₀ s) :
    Keeps s₀ (State.announce s d) := by
  unfold State.announce
  extract_lets +onlyGivenNames x0; extract_lets +onlyGivenNames x1; split
  · assumption
  extract_lets +onlyGivenNames x2; extract_lets +onlyGivenNames x3; refine Keeps.cut s₀ x3 ?_ fun h4 => ?_
  · unfold x3
    apply setDir_keeps; assumption
  clear_value x3; apply setDir_keeps; assumption

theorem afterDown_keeps {s₀ : State} {s : State} (h₀ : Keeps s₀ s) :
    Keeps s₀ (State.afterDown s) := by
  unfold State.afterDown
  extract_lets +onlyGivenNames x0; refine Keeps.cut s₀ x0 ?_ fun h1 => ?_
  · unfold x0
    apply Keeps.upd₀; assumption
  clear_value x0; extract_lets +onlyGivenNames x2; refine Keeps.cut s₀ x2 ?_ fun h3 => ?_
  · unfold x2
    apply Keeps.forCores
    · assumption
    intro u4 u5 h6; apply Keeps.ite
    · apply payAdapters_keeps; assumption
    assumption
  clear_value x2; extract_lets +onlyGivenNames x7; refine Keeps.cut s₀ x7 ?_ fun h8 => ?_
  · unfold x7
    apply addDigests_keeps; assumption
  clear_value x7; extract_lets +onlyGivenNames x9; refine Keeps.cut s₀ x9 ?_ fun h10 => ?_
  · unfold x9
    apply Keeps.foldl
    · assumption
    intro u11 u12 h13; apply settlePkg_keeps; assumption
  clear_value x9; apply Keeps.upd₀; assumption

theorem afterRetrain_keeps {s₀ : State} {s : State} (h₀ : Keeps s₀ s) :
    Keeps s₀ (State.afterRetrain s) := by
  unfold State.afterRetrain
  apply addDigests_keeps; assumption

theorem execBrgTrainingDone_keeps {s₀ : State} (badF : BitVec 50) (badA : BitVec 50) (tdelay : BitVec 8) {s : State} (h₀
    : Keeps s₀ s) :
    KeepsOut s₀ (execBrgTrainingDone badF badA tdelay s) := by
  unfold execBrgTrainingDone
  extract_lets +onlyGivenNames x0; extract_lets +onlyGivenNames x1; apply KeepsOut.ite
  · apply KeepsOut.next; assumption
  extract_lets +onlyGivenNames x2; extract_lets +onlyGivenNames x3; extract_lets +onlyGivenNames x4
  refine Keeps.cut s₀ x4 ?_ fun h5 => ?_
  · unfold x4
    apply Keeps.upd₀; assumption
  clear_value x4; extract_lets +onlyGivenNames x6; refine Keeps.cut s₀ x6 ?_ fun h7 => ?_
  · unfold x6
    apply announce_keeps; apply announce_keeps; apply mapLanes_keeps; apply mapLanes_keeps; assumption
  clear_value x6; extract_lets +onlyGivenNames x8; refine Keeps.cut s₀ x8 ?_ fun h9 => ?_
  · unfold x8
    apply setF_keeps; apply setF_keeps; assumption
  clear_value x8; extract_lets +onlyGivenNames x10; refine Keeps.cut s₀ x10 ?_ fun h11 => ?_
  · unfold x10
    apply setF_keeps; apply setF_keeps; assumption
  clear_value x10; extract_lets +onlyGivenNames x12; refine Keeps.cut s₀ x12 ?_ fun h13 => ?_
  · unfold x12
    apply raiseCause_keeps; assumption
  clear_value x12; apply KeepsOut.next; apply Keeps.forCores
  · apply Keeps.ite
    · apply afterDown_keeps; assumption
    apply afterRetrain_keeps; assumption
  intro u14 u15 h16; apply releaseHeld_keeps; assumption

theorem handOver_keeps {s₀ : State} {s : State} (d : Dir) (m : BrgMsg) (h₀ : Keeps s₀ s) :
    Keeps s₀ (State.handOver s d m) := by
  unfold State.handOver
  apply drawn_keeps; apply setDir_keeps; assumption

theorem dropDir_keeps {s₀ : State} {s : State} (d : Dir) (h₀ : Keeps s₀ s) :
    Keeps s₀ (State.dropDir s d) := by
  unfold State.dropDir
  extract_lets +onlyGivenNames x0; extract_lets +onlyGivenNames x1; refine Keeps.cut s₀ x1 ?_ fun h2 => ?_
  · unfold x1
    apply Keeps.foldl
    · assumption
    intro u3 u4 h5; apply drawn_keeps; apply handOver_keeps; assumption
  clear_value x1; apply setDir_keeps; assumption

theorem stopCore_keeps {s₀ : State} {s : State} (k : Fin 8) (h₀ : Keeps s₀ s) :
    Keeps s₀ (State.stopCore s k) := by
  unfold State.stopCore
  extract_lets +onlyGivenNames x0; refine CoreOk.cut s₀ x0 ?_ fun h1 => ?_
  · unfold x0; apply Keeps.core; assumption
  clear_value x0; extract_lets +onlyGivenNames x2; refine Keeps.cut s₀ x2 ?_ fun h3 => ?_
  · unfold x2; apply Keeps.setCore
    · assumption
    apply CoreOk.upd; assumption
  clear_value x2; apply Keeps.ite
  · apply Keeps.setCore
    · apply setF_keeps; assumption
    extract_lets +onlyGivenNames x4; refine CoreOk.cut s₀ x4 ?_ fun h5 => ?_
    · unfold x4; apply Keeps.core; assumption
    clear_value x4; apply CoreOk.upd; assumption
  assumption

theorem bridgeDown_keeps {s₀ : State} {s : State} (h₀ : Keeps s₀ s) :
    Keeps s₀ (State.bridgeDown s) := by
  unfold State.bridgeDown
  extract_lets +onlyGivenNames x0; refine Keeps.cut s₀ x0 ?_ fun h1 => ?_
  · unfold x0
    apply dropDir_keeps; apply dropDir_keeps; assumption
  clear_value x0; extract_lets +onlyGivenNames x2; refine Keeps.cut s₀ x2 ?_ fun h3 => ?_
  · unfold x2
    apply setF_keeps; apply setF_keeps; assumption
  clear_value x2; extract_lets +onlyGivenNames x4; refine Keeps.cut s₀ x4 ?_ fun h5 => ?_
  · unfold x4
    apply raiseCause_keeps; apply bump_keeps; assumption
  clear_value x4; extract_lets +onlyGivenNames x6; extract_lets +onlyGivenNames x7; extract_lets +onlyGivenNames x8
  refine Keeps.cut s₀ x8 ?_ fun h9 => ?_
  · unfold x8
    apply Keeps.upd₀; assumption
  clear_value x8; extract_lets +onlyGivenNames x10; extract_lets +onlyGivenNames x11
  refine Keeps.cut s₀ x11 ?_ fun h12 => ?_
  · unfold x11
    apply Keeps.foldl
    · assumption
    intro u13 u14 h15; apply report_keeps; apply killJob_keeps; assumption
  clear_value x11; extract_lets +onlyGivenNames x16; refine Keeps.cut s₀ x16 ?_ fun h17 => ?_
  · unfold x16
    apply Keeps.ite
    · apply report_keeps; assumption
    assumption
  clear_value x16; extract_lets +onlyGivenNames x18; refine Keeps.cut s₀ x18 ?_ fun h19 => ?_
  · unfold x18
    apply Keeps.forCores
    · assumption
    intro u20 u21 h22; apply failHeld_keeps; apply stopCore_keeps; assumption
  clear_value x18; extract_lets +onlyGivenNames x23; refine Keeps.cut s₀ x23 ?_ fun h24 => ?_
  · unfold x23
    apply Keeps.foldl
    · assumption
    intro u25 u26 h27; apply closeWinNow_keeps; assumption
  clear_value x23; extract_lets +onlyGivenNames x28; refine Keeps.cut s₀ x28 ?_ fun h29 => ?_
  · unfold x28
    apply Keeps.foldl
    · assumption
    intro u30 u31 h32; apply setOb_keeps; assumption
  clear_value x28; apply failWaits_keeps; assumption

theorem execBrgTrainingFail_keeps {s₀ : State} (badF : BitVec 50) (badA : BitVec 50) {s : State} (h₀ : Keeps s₀ s) :
    KeepsOut s₀ (execBrgTrainingFail badF badA s) := by
  unfold execBrgTrainingFail
  apply KeepsOut.ite
  · extract_lets +onlyGivenNames x0; extract_lets +onlyGivenNames x1; extract_lets +onlyGivenNames x2
    refine Keeps.cut s₀ x2 ?_ fun h3 => ?_
    · unfold x2; apply Keeps.upd₀; assumption
    extract_lets +onlyGivenNames x4; refine Keeps.cut s₀ x4 ?_ fun h5 => ?_
    · unfold x4; apply setF_keeps; apply setBad_keeps; apply setBad_keeps; assumption
    apply KeepsOut.next; apply Keeps.ite
    · extract_lets +onlyGivenNames x6; refine Keeps.cut s₀ x6 ?_ fun h7 => ?_
      · unfold x6; apply raiseCause_keeps; assumption
      clear_value x6; apply Keeps.upd₀; assumption
    apply bridgeDown_keeps; assumption
  apply KeepsOut.next; assumption

theorem execBridgeRetrainTimer_keeps {s₀ : State} {s : State} (h₀ : Keeps s₀ s) :
    KeepsOut s₀ (execBridgeRetrainTimer s) := by
  unfold execBridgeRetrainTimer
  apply KeepsOut.ite
  · apply KeepsOut.next; extract_lets +onlyGivenNames x0; refine Keeps.cut s₀ x0 ?_ fun h1 => ?_
    · unfold x0; apply brgTrain_keeps; assumption
    clear_value x0; apply Keeps.upd₀; assumption
  apply KeepsOut.next; assumption

theorem execBridgeNakLimit_keeps {s₀ : State} (d : Dir) {s : State} (h₀ : Keeps s₀ s) :
    KeepsOut s₀ (execBridgeNakLimit d s) := by
  unfold execBridgeNakLimit
  apply KeepsOut.ite
  · apply KeepsOut.next; apply bridgeDown_keeps; assumption
  apply KeepsOut.next; assumption

theorem execBridgeLockLoss_keeps {s₀ : State} (d : Dir) (lanes : BitVec 50) {s : State} (h₀ : Keeps s₀ s) :
    KeepsOut s₀ (execBridgeLockLoss d lanes s) := by
  unfold execBridgeLockLoss
  apply KeepsOut.ite
  · apply KeepsOut.next; apply bridgeDown_keeps; assumption
  apply KeepsOut.next; assumption

theorem doSwap_keeps {s₀ : State} {s : State} (d : Dir) (lane : Nat) (h₀ : Keeps s₀ s) :
    Keeps s₀ (State.doSwap s d lane) := by
  unfold State.doSwap
  split
  · apply setDir_keeps; assumption
  extract_lets +onlyGivenNames x0; extract_lets +onlyGivenNames x1; extract_lets +onlyGivenNames x2
  extract_lets +onlyGivenNames x3; refine Keeps.cut s₀ x3 ?_ fun h4 => ?_
  · unfold x3
    apply setDir_keeps; assumption
  clear_value x3; extract_lets +onlyGivenNames x5; refine Keeps.cut s₀ x5 ?_ fun h6 => ?_
  · unfold x5
    apply bump_keeps; apply setBad_keeps; assumption
  clear_value x5; apply setF_keeps; assumption

theorem execLaneSwap_keeps {s₀ : State} (d : Dir) (lane : Nat) {s : State} (h₀ : Keeps s₀ s) :
    KeepsOut s₀ (execLaneSwap d lane s) := by
  unfold execLaneSwap
  extract_lets +onlyGivenNames x0; apply KeepsOut.ite
  · extract_lets +onlyGivenNames x1; extract_lets +onlyGivenNames x2; refine Keeps.cut s₀ x2 ?_ fun h3 => ?_
    · unfold x2
      apply setDir_keeps; assumption
    clear_value x2; apply KeepsOut.next; apply setDir_keeps; assumption
  apply KeepsOut.next; assumption

theorem execLaneFailNoSpare_keeps {s₀ : State} (d : Dir) (lane : Nat) {s : State} (h₀ : Keeps s₀ s) :
    KeepsOut s₀ (execLaneFailNoSpare d lane s) := by
  unfold execLaneFailNoSpare
  apply KeepsOut.ite
  · extract_lets +onlyGivenNames x0; refine Keeps.cut s₀ x0 ?_ fun h1 => ?_
    · unfold x0
      apply brgTrain_keeps; apply setBad_keeps; assumption
    clear_value x0; apply KeepsOut.next; apply Keeps.upd₀; assumption
  apply KeepsOut.next; assumption

theorem sendGroup_keeps {s₀ : State} {s : State} (d : Dir) (h₀ : Keeps s₀ s) :
    Keeps s₀ (State.sendGroup s d) := by
  unfold State.sendGroup
  extract_lets +onlyGivenNames x0; extract_lets +onlyGivenNames x1; split
  · extract_lets +onlyGivenNames x2; extract_lets +onlyGivenNames x3; refine Keeps.cut s₀ x3 ?_ fun h4 => ?_
    · unfold x3
      apply setDir_keeps; assumption
    clear_value x3; apply emit_keeps; apply setDir_keeps; assumption
  split
  extract_lets +onlyGivenNames x5; extract_lets +onlyGivenNames x6; extract_lets +onlyGivenNames x7
  extract_lets +onlyGivenNames x8; extract_lets +onlyGivenNames x9; refine Keeps.cut s₀ x9 ?_ fun h10 => ?_
  · unfold x9
    apply setDir_keeps; assumption
  clear_value x9; apply emit_keeps; apply setDir_keeps; assumption

theorem execBridgeMessageSend_keeps {s₀ : State} (d : Dir) (offered : List BrgMsg) {s : State} (h₀ : Keeps s₀ s) :
    KeepsOut s₀ (execBridgeMessageSend d offered s) := by
  unfold execBridgeMessageSend
  apply KeepsOut.ite
  · apply KeepsOut.next; assumption
  extract_lets +onlyGivenNames x0; extract_lets +onlyGivenNames x1; refine Keeps.cut s₀ x1 ?_ fun h2 => ?_
  · unfold x1; apply setDir_keeps; assumption
  clear_value x1; apply KeepsOut.next; apply sendGroup_keeps; assumption

theorem countLpar_keeps {s₀ : State} {s : State} (d : Dir) (g : FlitGroup) (h₀ : Keeps s₀ s) :
    Keeps s₀ (State.countLpar s d g) := by
  unfold State.countLpar
  extract_lets +onlyGivenNames x0; extract_lets +onlyGivenNames x1; extract_lets +onlyGivenNames x2
  extract_lets +onlyGivenNames x3; apply setDir_keeps; assumption

theorem takeAck_keeps {s₀ : State} {s : State} (d : Dir) (n : Nat) (h₀ : Keeps s₀ s) :
    Keeps s₀ (State.takeAck s d n) := by
  unfold State.takeAck
  extract_lets +onlyGivenNames x0; extract_lets +onlyGivenNames x1; extract_lets +onlyGivenNames x2; apply Keeps.ite
  · apply bump_keeps; apply setDir_keeps; assumption
  apply setDir_keeps; assumption

theorem takeLink_keeps {s₀ : State} {s : State} (d : Dir) (n : Nat) (h₀ : Keeps s₀ s) :
    Keeps s₀ (State.takeLink s d n) := by
  unfold State.takeLink
  extract_lets +onlyGivenNames x0; extract_lets +onlyGivenNames x1; refine Keeps.cut s₀ x1 ?_ fun h2 => ?_
  · unfold x1
    apply takeAck_keeps; assumption
  clear_value x1; extract_lets +onlyGivenNames x3; extract_lets +onlyGivenNames x4
  refine Keeps.cut s₀ x4 ?_ fun h5 => ?_
  · unfold x4
    apply setDir_keeps; assumption
  clear_value x4; split
  · apply setDir_keeps; assumption
  · split
    · assumption
    apply doSwap_keeps; assumption
  assumption

theorem execBridgeGroupReceive_keeps {s₀ : State} (d : Dir) (g : FlitGroup) {s : State} (h₀ : Keeps s₀ s) :
    KeepsOut s₀ (execBridgeGroupReceive d g s) := by
  unfold execBridgeGroupReceive
  apply KeepsOut.ite
  · apply KeepsOut.next; assumption
  extract_lets +onlyGivenNames x0; refine Keeps.cut s₀ x0 ?_ fun h1 => ?_
  · unfold x0
    apply countLpar_keeps; assumption
  clear_value x0; extract_lets +onlyGivenNames x2; extract_lets +onlyGivenNames x3; apply KeepsOut.ite
  · apply KeepsOut.next; apply setDir_keeps; assumption
  apply KeepsOut.ite
  · apply KeepsOut.next; apply takeAck_keeps; assumption
  extract_lets +onlyGivenNames x4; extract_lets +onlyGivenNames x5; refine Keeps.cut s₀ x5 ?_ fun h6 => ?_
  · unfold x5
    apply setDir_keeps; assumption
  clear_value x5; apply KeepsOut.next; apply takeLink_keeps; assumption

theorem deliver_keeps {s₀ : State} {s : State} (d : Dir) (m : BrgMsg) (h₀ : Keeps s₀ s) :
    Keeps s₀ (State.deliver s d m) := by
  unfold State.deliver
  extract_lets +onlyGivenNames x0; extract_lets +onlyGivenNames x1; refine Keeps.cut s₀ x1 ?_ fun h2 => ?_
  · unfold x1
    apply handOver_keeps; assumption
  clear_value x1; extract_lets +onlyGivenNames x3; split
  · apply devWrite_keeps; assumption
  · split
    rename_i r4 r5 r6 r7 r8; refine Keeps.cut s₀ r7 (Keeps.of_snd₂ r8 ?_) fun h9 => ?_
    · apply devRead_keeps; assumption
    split
    extract_lets +onlyGivenNames x10; apply setDir_keeps; assumption
  · apply setDir_keeps; assumption
  · apply Keeps.ite
    · apply devWrite_keeps; assumption
    assumption
  · apply Keeps.ite
    · apply timeMessage_keeps; assumption
    assumption
  assumption

theorem execBridgeMessageReceive_keeps {s₀ : State} (b : BrgBuf) {s : State} (h₀ : Keeps s₀ s) :
    KeepsOut s₀ (execBridgeMessageReceive b s) := by
  unfold execBridgeMessageReceive
  extract_lets +onlyGivenNames x0; split
  · apply KeepsOut.next; assumption
  extract_lets +onlyGivenNames x1; apply KeepsOut.ite
  · apply KeepsOut.next; assumption
  split
  · apply KeepsOut.next; apply holdRead_keeps; assumption
  extract_lets +onlyGivenNames x2; refine Keeps.cut s₀ x2 ?_ fun h3 => ?_
  · unfold x2
    apply setDir_keeps; assumption
  clear_value x2; apply KeepsOut.ite
  · extract_lets +onlyGivenNames x4; refine Keeps.cut s₀ x4 ?_ fun h5 => ?_
    · unfold x4
      apply bump_keeps; assumption
    clear_value x4; apply KeepsOut.next; split
    · apply reportAft_keeps; assumption
    apply report_keeps; assumption
  apply KeepsOut.next; apply deliver_keeps; assumption

theorem execBridgeTimeMessage_keeps {s₀ : State} (d : Dir) {s : State} (h₀ : Keeps s₀ s) :
    KeepsOut s₀ (execBridgeTimeMessage d s) := by
  unfold execBridgeTimeMessage
  apply KeepsOut.next; apply Keeps.ite
  · apply timeMessage_keeps; assumption
  assumption

end Sys2Proof
end

