-- ==== Sys2Proof/Laws/KeepsFaultOps.lean ====
section
/-! SUPPORT. `Keeps` of the operations of Sys2Proof/Machine/FaultOps.lean. -/

set_option linter.unusedTactic false
set_option linter.unreachableTactic false
set_option linter.tactic.unusedName false
set_option linter.unusedVariables false

namespace Sys2Proof

open Machine

theorem askWake_keeps {s₀ : State} {s : State} (k : Fin 8) (why : Nat) (h₀ : Keeps s₀ s) :
    Keeps s₀ (State.askWake s k why) := by
  unfold State.askWake
  apply Keeps.ite
  · extract_lets +onlyGivenNames x0; apply Keeps.ite
    · assumption
    apply setIsl_keeps; assumption
  apply Keeps.setCore
  · assumption
  extract_lets +onlyGivenNames x1; refine CoreOk.cut s₀ x1 ?_ fun h2 => ?_
  · unfold x1; apply Keeps.core; assumption
  clear_value x1; apply CoreOk.upd; assumption

theorem aonPut_keeps {s₀ : State} {s : State} (bs : List Byte) (h₀ : Keeps s₀ s) :
    Keeps s₀ (State.aonPut s bs) := by
  unfold State.aonPut
  extract_lets +onlyGivenNames x0; extract_lets +onlyGivenNames x1; refine Keeps.cut s₀ x1 ?_ fun h2 => ?_
  · unfold x1; apply Keeps.foldl
    · assumption
    intro u3 u4 h5; apply setReg_keeps; assumption
  clear_value x1; apply setF_keeps; assumption

theorem showRing_keeps {s₀ : State} {s : State} (h₀ : Keeps s₀ s) :
    Keeps s₀ (State.showRing s) := by
  unfold State.showRing
  apply setF_keeps; assumption

theorem dramRingPut_keeps {s₀ : State} {s : State} (bs : List Byte) (h₀ : Keeps s₀ s) :
    Keeps s₀ (State.dramRingPut s bs) := by
  unfold State.dramRingPut
  apply Keeps.ite
  · assumption
  apply Keeps.ite
  · beta_reduce; apply Keeps.upd₀; apply showRing_keeps; apply bump_keeps; assumption
  extract_lets +onlyGivenNames x0; extract_lets +onlyGivenNames x1; refine Keeps.cut s₀ x1 ?_ fun h2 => ?_
  · unfold x1
    apply fwPut_keeps; assumption
  clear_value x1; apply showRing_keeps; apply raiseCause_keeps; apply setF_keeps; assumption

theorem writeRec_keeps {s₀ : State} {s : State} (r : FRec) (h₀ : Keeps s₀ s) :
    Keeps s₀ (State.writeRec s r) := by
  unfold State.writeRec
  extract_lets +onlyGivenNames x0; extract_lets +onlyGivenNames x1; extract_lets +onlyGivenNames x2
  refine Keeps.cut s₀ x2 ?_ fun h3 => ?_
  · unfold x2; apply Keeps.upd₀; assumption
  clear_value x2; apply dramRingPut_keeps; apply aonPut_keeps; assumption

theorem tellLost_keeps {s₀ : State} {s : State} (h₀ : Keeps s₀ s) :
    Keeps s₀ (State.tellLost s) := by
  unfold State.tellLost
  apply Keeps.ite
  · extract_lets +onlyGivenNames x0; extract_lets +onlyGivenNames x1; apply writeRec_keeps; apply Keeps.upd₀
    assumption
  assumption

theorem queueTest_keeps {s₀ : State} {s : State} (todo : List (Nat × Nat × Nat)) (urgent : Bool) (h₀ : Keeps s₀ s) :
    Keeps s₀ (State.queueTest s todo urgent) := by
  unfold State.queueTest
  apply Keeps.ite
  · assumption
  apply Keeps.upd₀; assumption

theorem setStep_keeps {s₀ : State} {s : State} (k : Fin 8) (n : Nat) (h₀ : Keeps s₀ s) :
    Keeps s₀ (State.setStep s k n) := by
  unfold State.setStep
  extract_lets +onlyGivenNames x0; extract_lets +onlyGivenNames x1; refine Keeps.cut s₀ x1 ?_ fun h2 => ?_
  · unfold x1; apply setIsl_keeps; apply setF_keeps; assumption
  clear_value x1; extract_lets +onlyGivenNames x3; extract_lets +onlyGivenNames x4
  refine Keeps.cut s₀ x4 ?_ fun h5 => ?_
  · unfold x4; apply report_keeps; assumption
  clear_value x4; apply queueTest_keeps; assumption

theorem redistribute_keeps {s₀ : State} {s : State} (k : Fin 8) (j : Job) (h₀ : Keeps s₀ s) :
    Keeps s₀ (State.redistribute s k j) := by
  unfold State.redistribute
  extract_lets +onlyGivenNames x0; extract_lets +onlyGivenNames x1; apply Keeps.ite
  · assumption
  apply Keeps.ite
  · split
    · apply setJob_keeps; assumption
    assumption
  split
  · apply setJob_keeps; assumption
  apply report_keeps; assumption

theorem quarantine_keeps {s₀ : State} {s : State} (k : Fin 8) (h₀ : Keeps s₀ s) :
    Keeps s₀ (State.quarantine s k) := by
  unfold State.quarantine
  apply Keeps.ite
  · assumption
  extract_lets +onlyGivenNames x0; refine Keeps.cut s₀ x0 ?_ fun h1 => ?_
  · unfold x0
    apply Keeps.ite
    · assumption
    apply setStep_keeps; assumption
  clear_value x0; extract_lets +onlyGivenNames x2; refine Keeps.cut s₀ x2 ?_ fun h3 => ?_
  · unfold x2
    apply report_keeps; assumption
  clear_value x2; extract_lets +onlyGivenNames x4; refine CoreOk.cut s₀ x4 ?_ fun h5 => ?_
  · unfold x4
    apply Keeps.core; assumption
  clear_value x4; extract_lets +onlyGivenNames x6; refine Keeps.cut s₀ x6 ?_ fun h7 => ?_
  · unfold x6
    apply settle_keeps; apply Keeps.setCore
    · assumption
    apply CoreOk.upd; assumption
  clear_value x6; extract_lets +onlyGivenNames x8; refine Keeps.cut s₀ x8 ?_ fun h9 => ?_
  · unfold x8
    apply Keeps.ite
    · apply askWake_keeps; assumption
    assumption
  clear_value x8; apply Keeps.foldl
  · assumption
  intro u10 u11 h12; apply redistribute_keeps; assumption

theorem checksOff_keeps {s₀ : State} {s : State} (k : Fin 8) (h₀ : Keeps s₀ s) :
    Keeps s₀ (State.checksOff s k) := by
  unfold State.checksOff
  apply Keeps.ite
  · assumption
  extract_lets +onlyGivenNames x0; refine Keeps.cut s₀ x0 ?_ fun h1 => ?_
  · unfold x0
    apply setF_keeps; apply setF_keeps; assumption
  clear_value x0; extract_lets +onlyGivenNames x2; extract_lets +onlyGivenNames x3
  refine Keeps.cut s₀ x3 ?_ fun h4 => ?_
  · unfold x3
    apply report_keeps; apply takeForce_keeps; assumption
  clear_value x3; apply queueTest_keeps; assumption

theorem marginEvent_keeps {s₀ : State} {s : State} (k : Fin 8) (check : Bool) (h₀ : Keeps s₀ s) :
    Keeps s₀ (State.marginEvent s k check) := by
  unfold State.marginEvent
  extract_lets +onlyGivenNames x0; extract_lets +onlyGivenNames x1; extract_lets +onlyGivenNames x2
  extract_lets +onlyGivenNames x3; extract_lets +onlyGivenNames x4; extract_lets +onlyGivenNames x5
  refine Keeps.cut s₀ x5 ?_ fun h6 => ?_
  · unfold x5
    apply Keeps.upd₀; assumption
  clear_value x5; apply Keeps.ite
  · assumption
  extract_lets +onlyGivenNames x7; extract_lets +onlyGivenNames x8; refine Keeps.cut s₀ x8 ?_ fun h9 => ?_
  · unfold x8
    apply Keeps.upd₀; assumption
  clear_value x8; extract_lets +onlyGivenNames x10; apply Keeps.ite
  · assumption
  apply Keeps.ite
  · apply setStep_keeps; assumption
  apply Keeps.ite
  · apply checksOff_keeps; assumption
  apply quarantine_keeps; assumption

theorem chargeRec_keeps {s₀ : State} {s : State} (r : FRec) (h₀ : Keeps s₀ s) :
    Keeps s₀ (State.chargeRec s r) := by
  unfold State.chargeRec
  extract_lets +onlyGivenNames x0; apply Keeps.ite
  · apply bump_keeps; assumption
  apply Keeps.foldl
  · assumption
  intro u1 u2 h3; apply marginEvent_keeps; assumption

theorem sharedPoison_keeps {s₀ : State} {s : State} (id : Nat) (h₀ : Keeps s₀ s) :
    Keeps s₀ (State.sharedPoison s id) := by
  unfold State.sharedPoison
  extract_lets +onlyGivenNames x0; apply Keeps.foldl
  · assumption
  intro u1 u2 h3; apply report_keeps; apply killJob_keeps; assumption

theorem actOnRec_keeps {s₀ : State} {s : State} (r : FRec) (h₀ : Keeps s₀ s) :
    Keeps s₀ (State.actOnRec s r) := by
  unfold State.actOnRec
  extract_lets +onlyGivenNames x0; refine Keeps.cut s₀ x0 ?_ fun h1 => ?_
  · unfold x0; split
    · apply Keeps.ite
      · apply bump_keeps; assumption
      assumption
    assumption
  clear_value x0; extract_lets +onlyGivenNames x2; refine Keeps.cut s₀ x2 ?_ fun h3 => ?_
  · unfold x2; apply Keeps.ite
    · apply chargeRec_keeps; assumption
    assumption
  clear_value x2; extract_lets +onlyGivenNames x4; refine Keeps.cut s₀ x4 ?_ fun h5 => ?_
  · unfold x4; apply Keeps.ite
    · split
      · apply quarantine_keeps; assumption
      assumption
    assumption
  clear_value x4; extract_lets +onlyGivenNames x6; refine Keeps.cut s₀ x6 ?_ fun h7 => ?_
  · unfold x6; apply Keeps.ite
    · apply weightPoison_keeps; assumption
    assumption
  clear_value x6; extract_lets +onlyGivenNames x8; refine Keeps.cut s₀ x8 ?_ fun h9 => ?_
  · unfold x8; apply Keeps.ite
    · apply killJob_keeps; assumption
    assumption
  clear_value x8; apply Keeps.ite
  · apply sharedPoison_keeps; assumption
  assumption

theorem acceptRec_keeps {s₀ : State} {s : State} (r : FRec) (h₀ : Keeps s₀ s) :
    Keeps s₀ (State.acceptRec s r) := by
  unfold State.acceptRec
  apply actOnRec_keeps; apply writeRec_keeps; apply tellLost_keeps; assumption

end Sys2Proof
end

