-- ==== Sys2Proof/Laws/KeepsChecks.lean ====
section
/-! SUPPORT. `Keeps` of the operations of Sys2Proof/Machine/Checks.lean. -/

set_option linter.unusedTactic false
set_option linter.unreachableTactic false
set_option linter.tactic.unusedName false
set_option linter.unusedVariables false

namespace Sys2Proof

open Machine

theorem setArray_keeps {s₀ : State} {s : State} (k : Fin 8) (x : Fin 3) (i : UInst) (h₀ : Keeps s₀ s) :
    Keeps s₀ (State.setArray s k x i) := by
  unfold State.setArray
  extract_lets +onlyGivenNames x0; apply setCtx_keeps; assumption

theorem execCheckBlockDone_keeps {s₀ : State} (k : Fin 8) (x : Fin 3) (o : Nat) (p : Nat) (lines : List LineSum) (errs :
    List CellErr) {s : State} (h₀ : Keeps s₀ s) :
    KeepsOut s₀ (execCheckBlockDone k x o p lines errs s) := by
  unfold execCheckBlockDone
  split
  · apply KeepsOut.next; assumption
  extract_lets +onlyGivenNames x0; extract_lets +onlyGivenNames x1; apply KeepsOut.ite
  · apply KeepsOut.next; assumption
  extract_lets +onlyGivenNames x2; extract_lets +onlyGivenNames x3; extract_lets +onlyGivenNames x4
  apply KeepsOut.ite
  · apply KeepsOut.next; apply setArray_keeps; assumption
  apply KeepsOut.ite
  · apply KeepsOut.next; apply bump_keeps; apply setArray_keeps; assumption
  apply KeepsOut.ite
  · apply KeepsOut.next; apply setArray_keeps; assumption
  extract_lets +onlyGivenNames x5; extract_lets +onlyGivenNames x6; refine Keeps.cut s₀ x6 ?_ fun h7 => ?_
  · unfold x6
    apply setF_keeps; assumption
  clear_value x6; apply KeepsOut.ite
  · extract_lets +onlyGivenNames x8; refine Keeps.cut s₀ x8 ?_ fun h9 => ?_
    · unfold x8
      apply setArray_keeps; assumption
    clear_value x8; extract_lets +onlyGivenNames x10; refine Keeps.cut s₀ x10 ?_ fun h11 => ?_
    · unfold x10
      apply setF_keeps; assumption
    clear_value x10; apply KeepsOut.next; apply reportAft_keeps; assumption
  extract_lets +onlyGivenNames x12; refine Keeps.cut s₀ x12 ?_ fun h13 => ?_
  · unfold x12
    apply setArray_keeps; assumption
  clear_value x12; apply KeepsOut.next; apply setCtx_keeps; assumption

theorem execReplayDone_keeps {s₀ : State} (k : Fin 8) (x : Fin 3) (lines : List LineSum) (errs : List CellErr) {s :
    State} (h₀ : Keeps s₀ s) :
    KeepsOut s₀ (execReplayDone k x lines errs s) := by
  unfold execReplayDone
  split
  · apply KeepsOut.next; assumption
  split
  · apply KeepsOut.next; assumption
  extract_lets +onlyGivenNames x0; extract_lets +onlyGivenNames x1; extract_lets +onlyGivenNames x2
  extract_lets +onlyGivenNames x3; extract_lets +onlyGivenNames x4; extract_lets +onlyGivenNames x5
  apply KeepsOut.ite
  · extract_lets +onlyGivenNames x6; refine Keeps.cut s₀ x6 ?_ fun h7 => ?_
    · unfold x6
      apply bump_keeps; apply setArray_keeps; assumption
    clear_value x6; apply KeepsOut.ite
    · apply KeepsOut.next; apply suspect_keeps; apply reportAft_keeps; apply setF_keeps; assumption
    apply KeepsOut.next; apply reportAft_keeps; assumption
  apply KeepsOut.ite
  · extract_lets +onlyGivenNames x8; apply KeepsOut.next; apply suspect_keeps; apply reportAft_keeps; apply bump_keeps
    apply setArray_keeps; assumption
  apply KeepsOut.next; apply suspect_keeps; apply reportAft_keeps; apply bump_keeps; apply setArray_keeps; assumption

theorem ckCtrlWrite_keeps {s₀ : State} {s : State} (k : Fin 8) (m : Master) (v : Word) (h₀ : Keeps s₀ s) :
    Keeps s₀ (State.ckCtrlWrite s k m v) := by
  unfold State.ckCtrlWrite
  extract_lets +onlyGivenNames x0; apply regWrite_keeps
  · assumption
  intro u1 h2; apply Keeps.ite
  · apply Keeps.foldl
    · assumption
    intro u3 u4 h5; apply setReg_keeps; assumption
  assumption

theorem execCkClr_keeps {s₀ : State} (k : Fin 8) (m : Master) (v : Word) {s : State} (h₀ : Keeps s₀ s) :
    KeepsOut s₀ (execCkClr k m v s) := by
  unfold execCkClr
  apply KeepsOut.next; apply ckCtrlWrite_keeps; assumption

theorem copyRows_keeps {s₀ : State} {s : State} (k : Fin 8) (a1 : List Nat) (h₀ : Keeps s₀ s) :
    Keeps s₀ (State.copyRows s k a1).2 := by
  induction a1 generalizing s k with
  | nil =>
    unfold State.copyRows
    dsimp only; assumption
  | cons x l ih =>
    unfold State.copyRows
    split; rename_i r0 r1 r2 r3; refine Keeps.cut s₀ r2 (Keeps.of_snd r3 ?_) fun h4 => ?_
    · apply getRow_keeps; assumption
    split; rename_i r5 r6 r7 r8; refine Keeps.cut s₀ r7 (Keeps.of_snd r8 ?_) fun h9 => ?_
    · apply ih; assumption
    dsimp only; assumption

theorem digestRows_keeps {s₀ : State} {s : State} (k : Fin 8) (first : Nat) (n : Nat) (par : List (Nat × Nat)) (h₀ :
    Keeps s₀ s) :
    Keeps s₀ (State.digestRows s k first n par).2.2 := by
  unfold State.digestRows
  extract_lets +onlyGivenNames x0; extract_lets +onlyGivenNames x1; extract_lets +onlyGivenNames x2
  extract_lets +onlyGivenNames x3; split
  rename_i r4 r5 r6 r7; refine Keeps.cut s₀ r6 (Keeps.of_snd r7 ?_) fun h8 => ?_
  · apply copyRows_keeps; assumption
  extract_lets +onlyGivenNames x9; refine Keeps.cut s₀ x9 ?_ fun h10 => ?_
  · unfold x9
    apply Keeps.foldl
    · assumption
    intro u11 u12 h13; apply reportAft_keeps; apply bump_keeps; assumption
  clear_value x9; apply Keeps.mk_snd₂; assumption

theorem digGoWrite_keeps {s₀ : State} {s : State} (k : Fin 8) (m : Master) (v : Word) (h₀ : Keeps s₀ s) :
    Keeps s₀ (State.digGoWrite s k m v) := by
  unfold State.digGoWrite
  apply Keeps.ite
  · apply notMine_keeps; assumption
  apply regWrite_keeps
  · assumption
  intro u0 h1; extract_lets +onlyGivenNames x2; refine CoreOk.cut s₀ x2 ?_ fun h3 => ?_
  · unfold x2; apply Keeps.core; assumption
  clear_value x2; apply Keeps.ite
  · apply setF_keeps; apply Keeps.setCore
    · assumption
    apply CoreOk.upd; assumption
  assumption

theorem execDigGo_keeps {s₀ : State} (k : Fin 8) (m : Master) (v : Word) {s : State} (h₀ : Keeps s₀ s) :
    KeepsOut s₀ (execDigGo k m v s) := by
  unfold execDigGo
  apply KeepsOut.next; apply digGoWrite_keeps; assumption

theorem digShow_keeps {s₀ : State} {s : State} (k : Fin 8) (v : BitVec 64) (p : Bool) (h₀ : Keeps s₀ s) :
    Keeps s₀ (State.digShow s k v p) := by
  unfold State.digShow
  extract_lets +onlyGivenNames x0; refine CoreOk.cut s₀ x0 ?_ fun h1 => ?_
  · unfold x0; apply Keeps.core; assumption
  clear_value x0; extract_lets +onlyGivenNames x2; refine Keeps.cut s₀ x2 ?_ fun h3 => ?_
  · unfold x2; apply Keeps.setCore
    · assumption
    apply CoreOk.upd; assumption
  clear_value x2; extract_lets +onlyGivenNames x4; refine Keeps.cut s₀ x4 ?_ fun h5 => ?_
  · unfold x4; apply setF_keeps; apply setF_keeps; assumption
  clear_value x4; apply setF_keeps; assumption

theorem forget_keeps {s₀ : State} {s : State} (pkg : Nat) (seg : Nat) (h₀ : Keeps s₀ s) :
    Keeps s₀ (State.forget s pkg seg) := by
  unfold State.forget
  apply Keeps.upd₀; assumption

theorem diverge_keeps {s₀ : State} {s : State} (pkg : Nat) (h₀ : Keeps s₀ s) :
    Keeps s₀ (State.diverge s pkg) := by
  unfold State.diverge
  extract_lets +onlyGivenNames x0; refine Keeps.cut s₀ x0 ?_ fun h1 => ?_
  · unfold x0; apply bump_keeps; assumption
  clear_value x0; apply Keeps.foldl
  · assumption
  intro u2 u3 h4; apply report_keeps; assumption

theorem blame_keeps {s₀ : State} {s : State} (p : Pkg) (g : Nat) (k : Nat) (also : Option Nat) (h₀ : Keeps s₀ s) :
    Keeps s₀ (State.blame s p g k also) := by
  unfold State.blame
  extract_lets +onlyGivenNames x0; extract_lets +onlyGivenNames x1; extract_lets +onlyGivenNames x2
  refine Keeps.cut s₀ x2 ?_ fun h3 => ?_
  · unfold x2; apply report_keeps; apply bump_keeps; assumption
  clear_value x2; apply Keeps.ite
  · apply setF_keeps; assumption
  assumption

theorem judge_keeps {s₀ : State} {s : State} (p : Pkg) (g : Nat) (h₀ : Keeps s₀ s) :
    Keeps s₀ (State.judge s p g) := by
  unfold State.judge
  extract_lets +onlyGivenNames x0; extract_lets +onlyGivenNames x1; extract_lets +onlyGivenNames x2; split
  · clear_value x0 x1; split
    · assumption
    · apply forget_keeps; apply bump_keeps; assumption
    apply Keeps.ite
    · unfold x2; apply addDigests_keeps; assumption
    apply forget_keeps; apply diverge_keeps; assumption
  clear_value x0 x1; split
  · assumption
  · apply forget_keeps; apply bump_keeps; assumption
  apply Keeps.ite
  · apply Keeps.ite
    · apply forget_keeps; assumption
    extract_lets +onlyGivenNames x3; apply forget_keeps; apply blame_keeps; assumption
  extract_lets +onlyGivenNames x4; extract_lets +onlyGivenNames x5; extract_lets +onlyGivenNames x6
  extract_lets +onlyGivenNames x7; apply Keeps.ite
  · unfold x2; apply addDigests_keeps; assumption
  extract_lets +onlyGivenNames x8; refine Keeps.cut s₀ x8 ?_ fun h9 => ?_
  · unfold x8; apply Keeps.foldl
    · assumption
    intro u10 u11 h12; apply blame_keeps; assumption
  clear_value x8; apply forget_keeps; apply Keeps.foldl
  · assumption
  intro u13 u14 h15; apply beginRepair_keeps; assumption

theorem judgeWhenDone_keeps {s₀ : State} {s : State} (pkg : Nat) (seg : Nat) (h₀ : Keeps s₀ s) :
    Keeps s₀ (State.judgeWhenDone s pkg seg) := by
  unfold State.judgeWhenDone
  apply Keeps.ite
  · assumption
  split
  · apply forget_keeps; assumption
  apply settlePkg_keeps; apply judge_keeps; assumption

theorem execDigestDone_keeps {s₀ : State} (k : Fin 8) (e : DigRead) {s : State} (h₀ : Keeps s₀ s) :
    KeepsOut s₀ (execDigestDone k e s) := by
  unfold execDigestDone
  extract_lets +onlyGivenNames x0; refine Keeps.cut s₀ x0 ?_ fun h1 => ?_
  · unfold x0
    assumption
  clear_value x0; extract_lets +onlyGivenNames x2; refine CoreOk.cut s₀ x2 ?_ fun h3 => ?_
  · unfold x2
    apply Keeps.core; assumption
  clear_value x2; extract_lets +onlyGivenNames x4; apply KeepsOut.ite
  · apply KeepsOut.next; assumption
  apply KeepsOut.ite
  · apply KeepsOut.ite
    · apply KeepsOut.next; assumption
    split
    rename_i r5 r6 r7 r8 r9; refine Keeps.cut s₀ r8 (Keeps.of_snd₂ r9 ?_) fun h10 => ?_
    · apply digestRows_keeps; assumption
    apply KeepsOut.next; apply digShow_keeps; assumption
  apply KeepsOut.ite
  · apply KeepsOut.next; assumption
  split
  · apply KeepsOut.next; assumption
  extract_lets +onlyGivenNames x11; extract_lets +onlyGivenNames x12; refine Keeps.cut s₀ x12 ?_ fun h13 => ?_
  · unfold x12
    apply Keeps.upd₀; assumption
  clear_value x12; split
  · apply KeepsOut.next; apply judgeWhenDone_keeps; assumption
  apply KeepsOut.ite
  · apply KeepsOut.next; assumption
  apply KeepsOut.ite
  · apply KeepsOut.next; apply judgeWhenDone_keeps; assumption
  split
  extract_lets +onlyGivenNames x14; refine Keeps.cut s₀ x14 ?_ fun h15 => ?_
  · unfold x14
    apply setF_keeps; apply setF_keeps; assumption
  clear_value x14; split
  rename_i r16 r17 r18 r19 r20; refine Keeps.cut s₀ r19 (Keeps.of_snd₂ r20 ?_) fun h21 => ?_
  · apply digestRows_keeps; assumption
  extract_lets +onlyGivenNames x22; refine Keeps.cut s₀ x22 ?_ fun h23 => ?_
  · unfold x22
    apply digShow_keeps; assumption
  clear_value x22; extract_lets +onlyGivenNames x24; extract_lets +onlyGivenNames x25
  extract_lets +onlyGivenNames x26; extract_lets +onlyGivenNames x27; refine Keeps.cut s₀ x27 ?_ fun h28 => ?_
  · unfold x27
    apply Keeps.upd₀; assumption
  clear_value x27; apply KeepsOut.next; apply judgeWhenDone_keeps; assumption

theorem untaint_keeps {s₀ : State} {s : State} (pkg : Nat) (h₀ : Keeps s₀ s) :
    Keeps s₀ (State.untaint s pkg) := by
  unfold State.untaint
  extract_lets +onlyGivenNames x0; apply Keeps.upd₀; assumption

theorem endRepair_keeps {s₀ : State} {s : State} (r : DigRep) (h₀ : Keeps s₀ s) :
    Keeps s₀ (State.endRepair s r) := by
  unfold State.endRepair
  extract_lets +onlyGivenNames x0; extract_lets +onlyGivenNames x1; refine Keeps.cut s₀ x1 ?_ fun h2 => ?_
  · unfold x1
    apply untaint_keeps; apply Keeps.upd₀; assumption
  clear_value x1; apply Keeps.ite
  · split
    · apply addDigests_keeps; assumption
    assumption
  apply settlePkg_keeps; assumption

theorem nextCopy_keeps {s₀ : State} {s : State} (p : Pkg) (r : DigRep) (attempt : Nat) (h₀ : Keeps s₀ s) :
    Keeps s₀ (State.nextCopy s p r attempt) := by
  unfold State.nextCopy
  split
  · apply Keeps.ite
    · extract_lets +onlyGivenNames x0; apply Keeps.upd₀; assumption
    apply endRepair_keeps; apply report_keeps; assumption
  apply endRepair_keeps; apply report_keeps; assumption

theorem execRepairCopyDone_keeps {s₀ : State} (k : Fin 8) (e : DigRead) {s : State} (h₀ : Keeps s₀ s) :
    KeepsOut s₀ (execRepairCopyDone k e s) := by
  unfold execRepairCopyDone
  split
  · apply KeepsOut.next; assumption
  split
  · apply KeepsOut.next; apply endRepair_keeps; assumption
  apply KeepsOut.ite
  · apply KeepsOut.next; assumption
  apply KeepsOut.ite
  · apply KeepsOut.next; apply nextCopy_keeps; assumption
  split
  extract_lets +onlyGivenNames x0; split
  rename_i r1 r2 r3 r4; refine Keeps.cut s₀ r3 (Keeps.of_snd r4 ?_) fun h5 => ?_
  · apply copyRows_keeps; assumption
  apply KeepsOut.ite
  · apply KeepsOut.next; apply nextCopy_keeps; assumption
  extract_lets +onlyGivenNames x6; refine Keeps.cut s₀ x6 ?_ fun h7 => ?_
  · unfold x6
    apply Keeps.foldl
    · assumption
    intro u8 u9 h10; apply putRow_keeps; assumption
  clear_value x6; split
  · apply KeepsOut.next; apply endRepair_keeps; assumption
  split
  rename_i r11 r12 r13 r14 r15; refine Keeps.cut s₀ r14 (Keeps.of_snd₂ r15 ?_) fun h16 => ?_
  · apply digestRows_keeps; assumption
  apply KeepsOut.ite
  · extract_lets +onlyGivenNames x17; refine Keeps.cut s₀ x17 ?_ fun h18 => ?_
    · unfold x17
      apply bump_keeps; assumption
    clear_value x17; apply KeepsOut.next; apply endRepair_keeps; apply report_keeps; assumption
  apply KeepsOut.next; apply nextCopy_keeps; assumption

theorem execDigestSweep_keeps {s₀ : State} {s : State} (h₀ : Keeps s₀ s) :
    KeepsOut s₀ (execDigestSweep s) := by
  unfold execDigestSweep
  extract_lets +onlyGivenNames x0; apply KeepsOut.ite
  · apply KeepsOut.next; assumption
  extract_lets +onlyGivenNames x1; extract_lets +onlyGivenNames x2; refine Keeps.cut s₀ x2 ?_ fun h3 => ?_
  · unfold x2; apply Keeps.upd₀; assumption
  clear_value x2; apply KeepsOut.next; apply startSweep_keeps; assumption

theorem digCtrlWrite_keeps {s₀ : State} {s : State} (m : Master) (v : Word) (h₀ : Keeps s₀ s) :
    Keeps s₀ (State.digCtrlWrite s m v) := by
  unfold State.digCtrlWrite
  apply regWrite_keeps
  · assumption
  intro u0 h1; apply Keeps.ite
  · apply startSweep_keeps; assumption
  assumption

theorem execSweepNow_keeps {s₀ : State} (m : Master) (v : Word) {s : State} (h₀ : Keeps s₀ s) :
    KeepsOut s₀ (execSweepNow m v s) := by
  unfold execSweepNow
  apply KeepsOut.next; apply digCtrlWrite_keeps; assumption

end Sys2Proof
end

