-- ==== Sys2Proof/Laws/KeepsStoreOps.lean ====
section
/-! SUPPORT. `Keeps` of the operations of Sys2Proof/Machine/StoreOps.lean. -/

set_option linter.unusedTactic false
set_option linter.unreachableTactic false
set_option linter.tactic.unusedName false
set_option linter.unusedVariables false

namespace Sys2Proof

open Machine

theorem showFuses_keeps {s₀ : State} {s : State} (h₀ : Keeps s₀ s) :
    Keeps s₀ (State.showFuses s) := by
  unfold State.showFuses
  extract_lets +onlyGivenNames x0; refine Keeps.cut s₀ x0 ?_ fun h1 => ?_
  · unfold x0; apply setF_keeps; apply setF_keeps; apply setF_keeps; assumption
  clear_value x0; extract_lets +onlyGivenNames x2; refine Keeps.cut s₀ x2 ?_ fun h3 => ?_
  · unfold x2; apply setF_keeps; assumption
  clear_value x2; extract_lets +onlyGivenNames x4; refine Keeps.cut s₀ x4 ?_ fun h5 => ?_
  · unfold x4; apply setF_keeps; apply setF_keeps; assumption
  clear_value x4; apply setF_keeps; apply setF_keeps; assumption

theorem addFuse_keeps {s₀ s : State} (f w v : Nat) (h₀ : Keeps s₀ s) : Keeps s₀ (State.addFuse s f w v) := by
  refine h₀.trans ⟨⟨rfl, rfl, Nat.le_refl _, List.suffix_refl _⟩, fun u => { u with fuses := mwf_mset _ _ _ _ u.fuses },
    fun u a b h => ?_⟩
  unfold fuseBit State.addFuse at *
  by_cases e : a = f * 256 + w
  · subst e; simp only [mget_mset_same _ _ _ _ u.fuses, BitVec.getLsbD_or, h, Bool.true_or]
  · simpa only [mget_mset_ne _ e] using h

theorem blow_keeps {s₀ : State} {s : State} (f : Nat) (w : Nat) (n : Nat) (h₀ : Keeps s₀ s) :
    Keeps s₀ (State.blow s f w n) := by
  unfold State.blow
  split
  · assumption
  apply addFuse_keeps; assumption

theorem blowTo_keeps {s₀ : State} (c : Nat) (target : Nat) (a1 : Nat) {a2 : State} (h₀ : Keeps s₀ a2) :
    Keeps s₀ (State.blowTo c target a1 a2) := by
  induction a1 generalizing c target a2 with
  | zero =>
    unfold State.blowTo
    assumption
  | succ n ih =>
    unfold State.blowTo
    apply Keeps.ite
    · apply ih; apply blow_keeps; assumption
    assumption

theorem acceptSvn_keeps {s₀ : State} {s : State} (c : Nat) (svn : Nat) (commit : Bool) (h₀ : Keeps s₀ s) :
    Keeps s₀ (State.acceptSvn s c svn commit) := by
  unfold State.acceptSvn
  extract_lets +onlyGivenNames x0; refine Keeps.cut s₀ x0 ?_ fun h1 => ?_
  · unfold x0; apply Keeps.ite
    · apply blowTo_keeps; assumption
    assumption
  clear_value x0; extract_lets +onlyGivenNames x2; refine Keeps.cut s₀ x2 ?_ fun h3 => ?_
  · unfold x2; apply Keeps.ite
    · apply setF_keeps; assumption
    assumption
  clear_value x2; apply showFuses_keeps; assumption

theorem countErase_keeps {s₀ : State} {s : State} (l : Nat) (h₀ : Keeps s₀ s) :
    Keeps s₀ (State.countErase s l) := by
  unfold State.countErase
  extract_lets +onlyGivenNames x0; extract_lets +onlyGivenNames x1; extract_lets +onlyGivenNames x2
  refine Keeps.cut s₀ x2 ?_ fun h3 => ?_
  · unfold x2; apply Keeps.upd₀; assumption
  clear_value x2; apply setF_keeps; assumption

theorem showStore_keeps {s₀ : State} {s : State} (h₀ : Keeps s₀ s) :
    Keeps s₀ (State.showStore s) := by
  unfold State.showStore
  extract_lets +onlyGivenNames x0; refine Keeps.cut s₀ x0 ?_ fun h1 => ?_
  · unfold x0; apply setF_keeps; apply setF_keeps; assumption
  clear_value x0; apply setF_keeps; assumption

theorem writeAnchor_keeps {s₀ : State} {s : State} (active : Nat) (worn : Bool) (h₀ : Keeps s₀ s) :
    Keeps s₀ (State.writeAnchor s active worn) := by
  unfold State.writeAnchor
  extract_lets +onlyGivenNames x0; apply Keeps.ite
  · assumption
  extract_lets +onlyGivenNames x1; extract_lets +onlyGivenNames x2; refine Keeps.cut s₀ x2 ?_ fun h3 => ?_
  · unfold x2; apply countErase_keeps; assumption
  clear_value x2; apply Keeps.upd₀; assumption

theorem retireSector_keeps {s₀ : State} {s : State} (l : Nat) (h₀ : Keeps s₀ s) :
    Keeps s₀ (State.retireSector s l) := by
  unfold State.retireSector
  extract_lets +onlyGivenNames x0; extract_lets +onlyGivenNames x1; extract_lets +onlyGivenNames x2
  refine Keeps.cut s₀ x2 ?_ fun h3 => ?_
  · unfold x2; apply Keeps.upd₀; assumption
  clear_value x2; split
  · extract_lets +onlyGivenNames x4; extract_lets +onlyGivenNames x5; extract_lets +onlyGivenNames x6
    refine Keeps.cut s₀ x6 ?_ fun h7 => ?_
    · unfold x6; apply Keeps.upd₀; assumption
    clear_value x6; extract_lets +onlyGivenNames x8; refine Keeps.cut s₀ x8 ?_ fun h9 => ?_
    · unfold x8; apply writeAnchor_keeps; assumption
    clear_value x8; apply showStore_keeps; apply report_keeps; assumption
  extract_lets +onlyGivenNames x10; refine Keeps.cut s₀ x10 ?_ fun h11 => ?_
  · unfold x10; apply writeAnchor_keeps; apply setF_keeps; assumption
  clear_value x10; apply showStore_keeps; apply raiseCause_keeps; apply report_keeps; assumption

theorem nextJournal_keeps {s₀ : State} (a0 : Nat) (a1 : Nat) {a2 : State} (h₀ : Keeps s₀ a2) :
    Keeps s₀ (State.nextJournal a0 a1 a2).2 := by
  induction a0 generalizing a1 a2 with
  | zero =>
    unfold State.nextJournal
    apply Keeps.mk_snd; assumption
  | succ n ih =>
    unfold State.nextJournal
    extract_lets +onlyGivenNames x0; extract_lets +onlyGivenNames x1; refine Keeps.cut s₀ x1 ?_ fun h2 => ?_
    · unfold x1
      apply Keeps.ite
      · apply retireSector_keeps; assumption
      assumption
    clear_value x1; apply Keeps.ite_snd
    · apply ih; assumption
    apply Keeps.mk_snd; apply countErase_keeps; assumption

theorem journal_keeps {s₀ : State} {s : State} (h₀ : Keeps s₀ s) :
    Keeps s₀ (State.journal s) := by
  unfold State.journal
  extract_lets +onlyGivenNames x0; extract_lets +onlyGivenNames x1; refine Keeps.cut s₀ x1 ?_ fun h2 => ?_
  · unfold x1
    apply Keeps.upd₀; assumption
  clear_value x1; extract_lets +onlyGivenNames x3; apply Keeps.ite
  · apply Keeps.upd₀; assumption
  split
  rename_i r4 r5 r6 r7; refine Keeps.cut s₀ r6 (Keeps.of_snd r7 ?_) fun h8 => ?_
  · apply nextJournal_keeps; assumption
  apply Keeps.upd₀; assumption

theorem energyCheck_keeps {s₀ : State} {s : State} (h₀ : Keeps s₀ s) :
    Keeps s₀ (State.energyCheck s).2 := by
  unfold State.energyCheck
  apply Keeps.ite_snd
  · dsimp only; apply setF_keeps; assumption
  extract_lets +onlyGivenNames x0; extract_lets +onlyGivenNames x1; extract_lets +onlyGivenNames x2
  refine Keeps.cut s₀ x2 ?_ fun h3 => ?_
  · unfold x2; apply setF_keeps; apply setF_keeps; assumption
  clear_value x2; apply Keeps.ite_snd
  · dsimp only; assumption
  dsimp only; apply setF_keeps; assumption

theorem putAdapter_keeps {s₀ : State} {s : State} (p : Pkg) (l : List Byte) (h₀ : Keeps s₀ s) :
    Keeps s₀ (State.putAdapter s p l) := by
  unfold State.putAdapter
  extract_lets +onlyGivenNames x0; extract_lets +onlyGivenNames x1; refine Keeps.cut s₀ x1 ?_ fun h2 => ?_
  · unfold x1
    apply Keeps.foldl
    · assumption
    intro u3 u4 h5; apply putAdapterOn_keeps; assumption
  clear_value x1; apply Keeps.upd₀; assumption

theorem digestCopies_keeps {s₀ : State} (n : Nat) (a1 : List (Fin 8 × Nat)) (a2 : List (BitVec 64)) {a3 : State} (h₀ :
    Keeps s₀ a3) :
    Keeps s₀ (State.digestCopies n a1 a2 a3).2.2 := by
  induction a1 generalizing n a2 a3 with
  | nil =>
    unfold State.digestCopies
    apply Keeps.mk_snd₂; assumption
  | cons x l ih =>
    unfold State.digestCopies
    split
    rename_i r0 r1 r2 r3 r4; refine Keeps.cut s₀ r3 (Keeps.of_snd₂ r4 ?_) fun h5 => ?_
    · apply digestRows_keeps; assumption
    split
    rename_i r6 r7 r8 r9 r10; refine Keeps.cut s₀ r9 (Keeps.of_snd₂ r10 ?_) fun h11 => ?_
    · apply ih; assumption
    apply Keeps.mk_snd₂; assumption

theorem blameAt_keeps {s₀ : State} {s : State} (row : Nat) (k : Nat) (also : Option Nat) (h₀ : Keeps s₀ s) :
    Keeps s₀ (State.blameAt s row k also) := by
  unfold State.blameAt
  extract_lets +onlyGivenNames x0; extract_lets +onlyGivenNames x1; extract_lets +onlyGivenNames x2
  refine Keeps.cut s₀ x2 ?_ fun h3 => ?_
  · unfold x2
    apply report_keeps; apply bump_keeps; assumption
  clear_value x2; apply Keeps.ite
  · apply setF_keeps; assumption
  assumption

theorem copyRun_keeps {s₀ : State} (n : Nat) (src : Fin 8 × Nat) (dst : Fin 8 × Nat) {s : State} (h₀ : Keeps s₀ s) :
    Keeps s₀ (State.copyRun n src dst s) := by
  unfold State.copyRun
  apply Keeps.foldl
  · assumption
  intro u0 u1 h2; split
  rename_i r3 r4 r5 r6; refine Keeps.cut s₀ r5 (Keeps.of_snd r6 ?_) fun h7 => ?_
  · apply getRow_keeps; assumption
  apply putRow_keeps; assumption

theorem repairCopy_keeps {s₀ : State} (n : Nat) (d : BitVec 64) (dst : Fin 8 × Nat) (l : List (Fin 8 × Nat)) (t : Nat)
    (errs : List (BitVec 64)) {s : State} (h₀ : Keeps s₀ s) :
    Keeps s₀ (State.repairCopy n d dst l t errs s).2 := by
  induction l generalizing t errs s with
  | nil => exact report_keeps _ h₀
  | cons src l ih =>
    cases t with
    | zero => exact report_keeps _ h₀
    | succ t =>
      have h := digestRows_keeps dst.1 dst.2 n [] (copyRun_keeps n src dst h₀)
      exact Keeps.ite_snd (report_keeps _ (bump_keeps _ _ h)) (ih _ _ h)

theorem mendCopies_keeps {s₀ : State} (n : Nat) (d : BitVec 64) (rows : List (Fin 8 × Nat)) (good : List (Fin 8 × Nat))
    (a4 : List Copy) (a5 : List (BitVec 64)) {a6 : State} (h₀ : Keeps s₀ a6) :
    Keeps s₀ (State.mendCopies n d rows good a4 a5 a6).2 := by
  induction a4 generalizing n d rows good a5 a6 with
  | nil =>
    unfold State.mendCopies
    apply Keeps.mk_snd; assumption
  | cons x l ih =>
    unfold State.mendCopies
    split
    · apply ih; assumption
    split
    rename_i r0 r1 r2 r3 r4; refine Keeps.cut s₀ r3 (Keeps.of_snd₂ r4 ?_) fun h5 => ?_
    · apply digestRows_keeps; assumption
    extract_lets +onlyGivenNames x6; refine Keeps.cut s₀ x6 ?_ fun h7 => ?_
    · unfold x6
      apply Keeps.ite
      · assumption
      apply blameAt_keeps; assumption
    clear_value x6; extract_lets +onlyGivenNames x8; split
    rename_i r9 r10 r11 r12; refine Keeps.cut s₀ r11 (Keeps.of_snd r12 ?_) fun h13 => ?_
    · apply repairCopy_keeps; assumption
    apply ih; assumption

theorem agree_keeps {s₀ : State} {s : State} (j : Job) (p : Pkg) (errs : List (BitVec 64)) (h₀ : Keeps s₀ s) :
    Keeps s₀ (State.agree s j p errs).2 := by
  unfold State.agree
  extract_lets +onlyGivenNames x0; extract_lets +onlyGivenNames x1; split
  rename_i r2 r3 r4 r5 r6; refine Keeps.cut s₀ r5 (Keeps.of_snd₂ r6 ?_) fun h7 => ?_
  · apply digestCopies_keeps; assumption
  extract_lets +onlyGivenNames x8; apply Keeps.ite_snd
  · apply Keeps.mk_snd; assumption
  apply Keeps.ite_snd
  · apply Keeps.mk_snd; assumption
  split
  · unfold x8
    extract_lets +onlyGivenNames x10; split
    rename_i r11 r12 r13 r14; refine Keeps.cut s₀ r13 (Keeps.of_snd r14 ?_) fun h15 => ?_
    · apply mendCopies_keeps; assumption
    apply Keeps.mk_snd; assumption
  split
  rename_i r16 r17 r18 r19 r20; refine Keeps.cut s₀ r19 (Keeps.of_snd₂ r20 ?_) fun h21 => ?_
  · apply digestCopies_keeps; assumption
  split
  · apply Keeps.mk_snd; assumption
  apply Keeps.ite_snd
  · clear_value x1; split
    · apply Keeps.mk_snd; apply blameAt_keeps; assumption
    apply Keeps.mk_snd; assumption
  unfold x8
  extract_lets +onlyGivenNames x22; split
  rename_i r23 r24 r25 r26; refine Keeps.cut s₀ r25 (Keeps.of_snd r26 ?_) fun h27 => ?_
  · apply mendCopies_keeps; assumption
  apply Keeps.mk_snd; assumption

theorem ledgerCheck_keeps {s₀ : State} {s : State} (r : StoReq) (h₀ : Keeps s₀ s) :
    Keeps s₀ (State.ledgerCheck s r).2 := by
  unfold State.ledgerCheck
  split
  · apply Keeps.mk_snd; assumption
  apply Keeps.ite_snd
  · apply Keeps.mk_snd; assumption
  split
  · apply Keeps.mk_snd; assumption
  split
  rename_i r0 r1 r2 r3; refine Keeps.cut s₀ r2 (Keeps.of_snd r3 ?_) fun h4 => ?_
  · apply agree_keeps; assumption
  split
  · apply Keeps.mk_snd; assumption
  apply Keeps.ite_snd
  · apply Keeps.mk_snd; assumption
  extract_lets +onlyGivenNames x5; extract_lets +onlyGivenNames x6; extract_lets +onlyGivenNames x7
  apply Keeps.mk_snd; assumption

theorem ledgerDone_keeps {s₀ : State} {s : State} (o : StoObj) (h₀ : Keeps s₀ s) :
    Keeps s₀ (State.ledgerDone s o) := by
  unfold State.ledgerDone
  extract_lets +onlyGivenNames x0; extract_lets +onlyGivenNames x1; refine Keeps.cut s₀ x1 ?_ fun h2 => ?_
  · unfold x1
    clear_value x0; split
    · assumption
    extract_lets +onlyGivenNames x3; refine Keeps.cut s₀ x3 ?_ fun h4 => ?_
    · unfold x3
      apply putAdapter_keeps; assumption
    clear_value x3; apply Keeps.upd₀; assumption
  clear_value x1; apply setF_keeps; apply setF_keeps; apply setF_keeps; assumption

theorem stoReply_keeps {s₀ : State} {s : State} (r : StoReq) (code : Nat) (h₀ : Keeps s₀ s) :
    Keeps s₀ (State.stoReply s r code) := by
  unfold State.stoReply
  extract_lets +onlyGivenNames x0; refine Keeps.cut s₀ x0 ?_ fun h1 => ?_
  · unfold x0; apply Keeps.ite
    · apply setF_keeps; assumption
    assumption
  clear_value x0; apply complete_keeps; assumption

theorem stoObject_keeps {s₀ : State} {s : State} (r : StoReq) (h₀ : Keeps s₀ s) :
    Keeps s₀ (State.stoObject s r).2 := by
  unfold State.stoObject
  apply Keeps.ite_snd
  · apply ledgerCheck_keeps; assumption
  split; rename_i r0 r1 r2 r3; refine Keeps.cut s₀ r2 (Keeps.of_snd r3 ?_) fun h4 => ?_
  · apply source_keeps; assumption
  split
  · dsimp only; assumption
  apply Keeps.ite_snd
  · apply Keeps.ite_snd
    · dsimp only; assumption
    dsimp only; assumption
  apply Keeps.ite_snd
  · extract_lets +onlyGivenNames x5; apply Keeps.ite_snd
    · dsimp only; assumption
    dsimp only; assumption
  apply Keeps.ite_snd
  · dsimp only; assumption
  dsimp only; apply report_keeps; assumption

theorem stoCheck_keeps {s₀ : State} {s : State} (r : StoReq) (h₀ : Keeps s₀ s) :
    Keeps s₀ (State.stoCheck s r).2 := by
  unfold State.stoCheck
  apply Keeps.ite_snd
  · dsimp only; assumption
  extract_lets +onlyGivenNames x0; apply Keeps.ite_snd
  · split
    · dsimp only; assumption
    unfold x0; apply Keeps.ite_snd
    · dsimp only; assumption
    apply Keeps.ite_snd
    · dsimp only; assumption
    split; rename_i r1 r2 r3 r4; refine Keeps.cut s₀ r3 (Keeps.of_snd r4 ?_) fun h5 => ?_
    · apply energyCheck_keeps; assumption
    apply Keeps.ite_snd
    · dsimp only; assumption
    dsimp only; assumption
  split; rename_i r6 r7 r8 r9; refine Keeps.cut s₀ r8 (Keeps.of_snd r9 ?_) fun h10 => ?_
  · apply stoObject_keeps; assumption
  split
  · dsimp only; assumption
  apply Keeps.ite_snd
  · unfold x0; apply Keeps.ite_snd
    · dsimp only; assumption
    apply Keeps.ite_snd
    · dsimp only; assumption
    split; rename_i r11 r12 r13 r14; refine Keeps.cut s₀ r13 (Keeps.of_snd r14 ?_) fun h15 => ?_
    · apply energyCheck_keeps; assumption
    apply Keeps.ite_snd
    · dsimp only; assumption
    dsimp only; assumption
  extract_lets +onlyGivenNames x16; extract_lets +onlyGivenNames x17; extract_lets +onlyGivenNames x18
  extract_lets +onlyGivenNames x19; apply Keeps.ite_snd
  · dsimp only; assumption
  unfold x0; apply Keeps.ite_snd
  · dsimp only; assumption
  apply Keeps.ite_snd
  · dsimp only; assumption
  split; rename_i r20 r21 r22 r23; refine Keeps.cut s₀ r22 (Keeps.of_snd r23 ?_) fun h24 => ?_
  · apply energyCheck_keeps; assumption
  apply Keeps.ite_snd
  · dsimp only; assumption
  dsimp only; assumption

theorem stoNext_keeps {s₀ : State} (a0 : Nat) {a1 : State} (h₀ : Keeps s₀ a1) :
    Keeps s₀ (State.stoNext a0 a1) := by
  induction a0 generalizing a1 with
  | zero =>
    unfold State.stoNext
    assumption
  | succ n ih =>
    unfold State.stoNext
    split
    · apply Keeps.ite
      · apply showStore_keeps; assumption
      extract_lets +onlyGivenNames x0; extract_lets +onlyGivenNames x1; refine Keeps.cut s₀ x1 ?_ fun h2 => ?_
      · unfold x1
        apply Keeps.upd₀; assumption
      clear_value x1; split
      rename_i r3 r4 r5 r6; refine Keeps.cut s₀ r5 (Keeps.of_snd r6 ?_) fun h7 => ?_
      · apply stoCheck_keeps; assumption
      split
      · apply ih; apply stoReply_keeps; assumption
      apply showStore_keeps; apply Keeps.upd₀; assumption
    apply showStore_keeps; assumption

theorem stoRun_keeps {s₀ : State} {s : State} (h₀ : Keeps s₀ s) :
    Keeps s₀ (State.stoRun s) := by
  unfold State.stoRun
  apply stoNext_keeps; assumption

theorem setCur_keeps {s₀ : State} {s : State} (w : Option StoWrite) (h₀ : Keeps s₀ s) :
    Keeps s₀ (State.setCur s w) := by
  unfold State.setCur
  apply Keeps.upd₀; assumption

theorem packOut_keeps {s₀ : State} {s : State} (i : Nat) (leaves : Bool) (h₀ : Keeps s₀ s) :
    Keeps s₀ (State.packOut s i leaves) := by
  unfold State.packOut
  extract_lets +onlyGivenNames x0; extract_lets +onlyGivenNames x1; extract_lets +onlyGivenNames x2; apply Keeps.upd₀
  assumption

theorem stoCommit_keeps {s₀ : State} {s : State} (w : StoWrite) (h₀ : Keeps s₀ s) :
    Keeps s₀ (State.stoCommit s w) := by
  unfold State.stoCommit
  extract_lets +onlyGivenNames x0; apply Keeps.ite
  · assumption
  extract_lets +onlyGivenNames x1; extract_lets +onlyGivenNames x2; refine Keeps.cut s₀ x2 ?_ fun h3 => ?_
  · unfold x2
    apply Keeps.ite
    · apply Keeps.elim
      · assumption
      intro u4; apply packOut_keeps; assumption
    assumption
  clear_value x2; extract_lets +onlyGivenNames x5; apply Keeps.upd₀; assumption

theorem putCopy_keeps {s₀ : State} {s : State} (c : Nat) (i : Nat) (l : List Byte) (h₀ : Keeps s₀ s) :
    Keeps s₀ (State.putCopy s c i l) := by
  unfold State.putCopy
  extract_lets +onlyGivenNames x0; extract_lets +onlyGivenNames x1; apply Keeps.upd₀; assumption

theorem stoEnd_keeps {s₀ : State} {s : State} (w : StoWrite) (code : Nat) (h₀ : Keeps s₀ s) :
    Keeps s₀ (State.stoEnd s w code) := by
  unfold State.stoEnd
  extract_lets +onlyGivenNames x0; refine Keeps.cut s₀ x0 ?_ fun h1 => ?_
  · unfold x0; apply setCur_keeps; assumption
  clear_value x0; extract_lets +onlyGivenNames x2; refine Keeps.cut s₀ x2 ?_ fun h3 => ?_
  · unfold x2; apply Keeps.ite
    · apply ledgerDone_keeps; assumption
    assumption
  clear_value x2; apply stoRun_keeps; apply stoReply_keeps; assumption

theorem stoAfter_keeps {s₀ : State} {s : State} (w : StoWrite) (freed : List Nat) (h₀ : Keeps s₀ s) :
    Keeps s₀ (State.stoAfter s w freed) := by
  unfold State.stoAfter
  extract_lets +onlyGivenNames x0; apply stoEnd_keeps; apply Keeps.foldl
  · assumption
  intro u1 u2 h3; apply retireSector_keeps; assumption

theorem stoMismatch_keeps {s₀ : State} {s : State} (w : StoWrite) (l : Nat) (h₀ : Keeps s₀ s) :
    Keeps s₀ (State.stoMismatch s w l) := by
  unfold State.stoMismatch
  apply Keeps.ite
  · apply Keeps.ite
    · apply stoEnd_keeps; assumption
    apply Keeps.ite
    · apply stoEnd_keeps; assumption
    apply setCur_keeps; apply countErase_keeps; assumption
  extract_lets +onlyGivenNames x0; refine Keeps.cut s₀ x0 ?_ fun h1 => ?_
  · unfold x0
    apply retireSector_keeps; assumption
  clear_value x0; apply Keeps.ite
  · apply stoEnd_keeps; assumption
  split
  · apply stoEnd_keeps; assumption
  extract_lets +onlyGivenNames x2; apply Keeps.ite
  · apply stoEnd_keeps; assumption
  apply setCur_keeps; apply countErase_keeps; assumption

theorem flashDone_keeps {s₀ : State} {s : State} (bad : Bool) (h₀ : Keeps s₀ s) :
    Keeps s₀ (State.flashDone s bad) := by
  unfold State.flashDone
  split
  · apply stoRun_keeps; assumption
  split
  · extract_lets +onlyGivenNames x0; refine Keeps.cut s₀ x0 ?_ fun h1 => ?_
    · unfold x0
      apply Keeps.foldl
      · apply journal_keeps; assumption
      intro u2 u3 h4; apply countErase_keeps; assumption
    clear_value x0; apply setCur_keeps; assumption
  · extract_lets +onlyGivenNames x5; apply Keeps.ite
    · apply stoMismatch_keeps; assumption
    extract_lets +onlyGivenNames x6; refine Keeps.cut s₀ x6 ?_ fun h7 => ?_
    · unfold x6
      apply Keeps.ite
      · apply putCopy_keeps; assumption
      assumption
    clear_value x6; apply Keeps.ite
    · apply setCur_keeps; assumption
    apply setCur_keeps; assumption
  · extract_lets +onlyGivenNames x8; extract_lets +onlyGivenNames x9; refine Keeps.cut s₀ x9 ?_ fun h10 => ?_
    · unfold x9
      apply stoCommit_keeps; apply journal_keeps; assumption
    clear_value x9; apply Keeps.ite
    · apply setCur_keeps; assumption
    apply stoAfter_keeps; assumption
  apply stoEnd_keeps; apply writeAnchor_keeps; assumption

theorem stoCut_keeps {s₀ : State} {s : State} (h₀ : Keeps s₀ s) :
    Keeps s₀ (State.stoCut s) := by
  unfold State.stoCut
  extract_lets +onlyGivenNames x0; refine Keeps.cut s₀ x0 ?_ fun h1 => ?_
  · unfold x0; split
    · assumption
    split
    · apply Keeps.foldl
      · apply journal_keeps; assumption
      intro u2 u3 h4; apply countErase_keeps; assumption
    · apply Keeps.ite
      · apply putCopy_keeps; assumption
      assumption
    · apply stoCommit_keeps; apply journal_keeps; assumption
    apply writeAnchor_keeps; assumption
  clear_value x0; apply Keeps.upd₀; assumption

end Sys2Proof
end

