-- ==== Sys2Proof/Laws/KeepsResets.lean ====
section
/-! SUPPORT. `Keeps` of the operations of Sys2Proof/Machine/Resets.lean. -/

set_option linter.unusedTactic false
set_option linter.unreachableTactic false
set_option linter.tactic.unusedName false
set_option linter.unusedVariables false

namespace Sys2Proof

open Machine

theorem dropLink_keeps {s₀ : State} {s : State} (h₀ : Keeps s₀ s) :
    Keeps s₀ (State.dropLink s) := by
  unfold State.dropLink
  extract_lets +onlyGivenNames x0; refine Keeps.cut s₀ x0 ?_ fun h1 => ?_
  · unfold x0
    apply setF_keeps; assumption
  clear_value x0; apply Keeps.upd₀; assumption

theorem keepRegs_wf (mask : Nat → Nat) (m : SMap Word) : mwf resetWord (keepRegs mask m) = true := by
  have go : ∀ (l a : SMap Word), mwf resetWord a = true → mwf resetWord (l.foldl (fun a e =>
      let k := BitVec.ofNat 32 (mask e.1)
      mset resetWord a e.1 ((e.2 &&& k) ||| (resetWord e.1 &&& ~~~k))) a) = true := by
    intro l
    induction l with
    | nil => exact fun _ h => h
    | cons e l ih => exact fun _ h => ih _ (mwf_mset _ _ _ _ h)
  exact go m [] rfl

theorem reset_core (k : Fin 8) : State.reset.core k = Core.reset := by
  match k with
  | 0 => rfl | 1 => rfl | 2 => rfl | 3 => rfl | 4 => rfl | 5 => rfl | 6 => rfl | 7 => rfl

theorem reset_core_wf (k : Fin 8) : coreWf (State.reset.core k) = true := reset_core k ▸ rfl

theorem bare_keeps {s₀ s : State} (mask : Nat → Nat) (h₀ : Keeps s₀ s) : Keeps s₀ (State.bare s mask) :=
  (stoCut_keeps h₀).trans (.of rfl rfl (Nat.le_refl _) (List.suffix_refl _)
    (fun w => ⟨keepRegs_wf .., rfl, rfl, rfl, rfl, w.hostMem, w.fuses, rfl, reset_core_wf⟩) rfl)

theorem warm_keeps {s₀ : State} {c : Core} (pstate : Nat) (hc0 : CoreOk s₀ c) :
    CoreOk s₀ (Core.warm c pstate) := by
  unfold Core.warm
  extract_lets +onlyGivenNames x0; apply CoreOk.upd; assumption

theorem gradeLimits_keeps {s₀ : State} {s : State} (h₀ : Keeps s₀ s) :
    Keeps s₀ (State.gradeLimits s) := by
  unfold State.gradeLimits
  apply Keeps.ite
  · apply Keeps.foldl
    · assumption
    intro u0 u1 h2; apply setF_keeps; apply setF_keeps; assumption
  assumption

theorem warm_wf {c : Core} (p : Nat) (h : CoreWf c) : CoreWf (c.warm p) := h

theorem warmClear_keeps {s₀ s : State} (h₀ : Keeps s₀ s) : Keeps s₀ (State.warmClear s) := by
  have b := bare_keeps (fun o => aonMask o ||| warmMask o ||| s.lockMask o) (.refl s)
  refine gradeLimits_keeps (h₀.trans ⟨⟨b.1.1, b.1.2, b.1.3, b.1.4⟩, fun w => ?_, b.3⟩)
  have u := b.wf w
  refine ⟨u.regs, u.force, w.dram, w.dramPoison, w.dramBad, u.hostMem, u.fuses, w.sram, fun k => ?_⟩
  simpa [State.core, vget] using warm_wf (s.pstate k) (w.cores k)

theorem coldClear_keeps {s₀ : State} {s : State} (strap : Nat) (por : Bool) (h₀ : Keeps s₀ s) :
    Keeps s₀ (State.coldClear s strap por) := by
  unfold State.coldClear
  extract_lets +onlyGivenNames x0; refine Keeps.cut s₀ x0 ?_ fun h1 => ?_
  · unfold x0; apply bare_keeps; assumption
  clear_value x0; extract_lets +onlyGivenNames x2; extract_lets +onlyGivenNames x3
  refine Keeps.cut s₀ x3 ?_ fun h4 => ?_
  · unfold x3; refine Keeps.upd ?_ rfl rfl (Nat.le_refl _); assumption
  clear_value x3; apply gradeLimits_keeps; apply showFuses_keeps; apply setF_keeps; apply setF_keeps; assumption

theorem powerLost_keeps {s₀ : State} {s : State} (h₀ : Keeps s₀ s) :
    Keeps s₀ (State.powerLost s) := by
  unfold State.powerLost
  extract_lets +onlyGivenNames x0; refine Keeps.cut s₀ x0 ?_ fun h1 => ?_
  · unfold x0; apply bare_keeps; assumption
  clear_value x0; refine Keeps.upd ?_ rfl rfl (Nat.le_refl _); assumption

theorem toStandby_keeps {s₀ : State} {s : State} (h₀ : Keeps s₀ s) :
    Keeps s₀ (State.toStandby s) := by
  unfold State.toStandby
  apply setF_keeps; apply powerLost_keeps; assumption

theorem toBoot_keeps {s₀ : State} {s : State} (warm : Bool) (h₀ : Keeps s₀ s) :
    Keeps s₀ (State.toBoot s warm) := by
  unfold State.toBoot
  extract_lets +onlyGivenNames x0; refine Keeps.cut s₀ x0 ?_ fun h1 => ?_
  · unfold x0; apply setF_keeps; apply setF_keeps; assumption
  clear_value x0; apply setF_keeps; assumption

theorem warmReset_keeps {s₀ : State} {s : State} (h₀ : Keeps s₀ s) :
    Keeps s₀ (State.warmReset s) := by
  unfold State.warmReset
  apply Keeps.ite
  · assumption
  apply toBoot_keeps; apply warmClear_keeps; assumption

theorem coldReset_keeps {s₀ : State} {s : State} (strap : Nat) (h₀ : Keeps s₀ s) :
    Keeps s₀ (State.coldReset s strap) := by
  unfold State.coldReset
  apply Keeps.ite
  · assumption
  apply toBoot_keeps; apply coldClear_keeps; assumption

theorem toTamper_keeps {s₀ : State} {s : State} (h₀ : Keeps s₀ s) :
    Keeps s₀ (State.toTamper s) := by
  unfold State.toTamper
  extract_lets +onlyGivenNames x0; refine Keeps.cut s₀ x0 ?_ fun h1 => ?_
  · unfold x0
    apply dropLink_keeps; apply setF_keeps; assumption
  clear_value x0; refine Keeps.upd ?_ rfl rfl (Nat.le_refl _); assumption

theorem latchBlow_keeps {s₀ : State} {s : State} (odd : Bool) (h₀ : Keeps s₀ s) :
    Keeps s₀ (State.latchBlow s odd) := by
  unfold State.latchBlow
  apply Keeps.ite
  · apply showFuses_keeps; apply blow_keeps; assumption
  assumption

end Sys2Proof
end

