-- ==== Sys2Proof/Laws/KeepsPowerOps.lean ====
section
/-! SUPPORT. `Keeps` of the operations of Sys2Proof/Machine/PowerOps.lean. -/

set_option linter.unusedTactic false
set_option linter.unreachableTactic false
set_option linter.tactic.unusedName false
set_option linter.unusedVariables false

namespace Sys2Proof

open Machine

theorem trcRow_keeps {s₀ : State} {s : State} (l : List LogPkt) (h₀ : Keeps s₀ s) :
    Keeps s₀ (State.trcRow s l) := by
  unfold State.trcRow
  extract_lets +onlyGivenNames x0; extract_lets +onlyGivenNames x1; extract_lets +onlyGivenNames x2
  refine Keeps.cut s₀ x2 ?_ fun h3 => ?_
  · unfold x2
    apply fwPut_keeps; assumption
  clear_value x2; extract_lets +onlyGivenNames x4; extract_lets +onlyGivenNames x5
  refine Keeps.cut s₀ x5 ?_ fun h6 => ?_
  · unfold x5
    apply setF_keeps; assumption
  clear_value x5; extract_lets +onlyGivenNames x7; refine Keeps.cut s₀ x7 ?_ fun h8 => ?_
  · unfold x7
    apply Keeps.ite
    · apply setF_keeps; assumption
    assumption
  clear_value x7; extract_lets +onlyGivenNames x9; refine Keeps.cut s₀ x9 ?_ fun h10 => ?_
  · unfold x9
    apply Keeps.ite
    · apply setF_keeps; assumption
    assumption
  clear_value x9; apply Keeps.upd₀; assumption

theorem trcTake_keeps {s₀ : State} {s : State} (p : LogPkt) (h₀ : Keeps s₀ s) :
    Keeps s₀ (State.trcTake s p) := by
  unfold State.trcTake
  extract_lets +onlyGivenNames x0; extract_lets +onlyGivenNames x1; extract_lets +onlyGivenNames x2
  extract_lets +onlyGivenNames x3; refine Keeps.cut s₀ x3 ?_ fun h4 => ?_
  · unfold x3; apply Keeps.upd₀; assumption
  clear_value x3; apply Keeps.ite
  · apply trcRow_keeps; assumption
  assumption

theorem trcPad_keeps {s₀ : State} {s : State} (h₀ : Keeps s₀ s) :
    Keeps s₀ (State.trcPad s) := by
  unfold State.trcPad
  extract_lets +onlyGivenNames x0; apply Keeps.ite
  · assumption
  apply trcRow_keeps; assumption

theorem drainLog_keeps {s₀ : State} {s : State} (k : Fin 8) (h₀ : Keeps s₀ s) :
    Keeps s₀ (State.drainLog s k) := by
  unfold State.drainLog
  apply Keeps.foldl
  · assumption
  intro u0 u1 h2; apply Keeps.ite
  · apply trcTake_keeps; apply Keeps.setCore
    · assumption
    extract_lets +onlyGivenNames x3; refine CoreOk.cut s₀ x3 ?_ fun h4 => ?_
    · unfold x3; apply Keeps.core; assumption
    clear_value x3; apply CoreOk.upd; assumption
  assumption

theorem syncTriple_keeps {s₀ : State} {s : State} (k : Fin 8) (h₀ : Keeps s₀ s) :
    Keeps s₀ (State.syncTriple s k) := by
  unfold State.syncTriple
  extract_lets +onlyGivenNames x0; extract_lets +onlyGivenNames x1; extract_lets +onlyGivenNames x2
  extract_lets +onlyGivenNames x3; extract_lets +onlyGivenNames x4; extract_lets +onlyGivenNames x5
  refine Keeps.cut s₀ x5 ?_ fun h6 => ?_
  · unfold x5; apply log_keeps; assumption
  clear_value x5; extract_lets +onlyGivenNames x7; refine Keeps.cut s₀ x7 ?_ fun h8 => ?_
  · unfold x7; apply log_keeps; assumption
  clear_value x7; extract_lets +onlyGivenNames x9; refine Keeps.cut s₀ x9 ?_ fun h10 => ?_
  · unfold x9; apply log_keeps; assumption
  clear_value x9; apply Keeps.setCore
  · assumption
  extract_lets +onlyGivenNames x11; refine CoreOk.cut s₀ x11 ?_ fun h12 => ?_
  · unfold x11; apply Keeps.core; assumption
  clear_value x11; apply CoreOk.upd; assumption

theorem beginSleep_keeps {s₀ : State} {s : State} (k : Fin 8) (target : Nat) (why : Nat) (h₀ : Keeps s₀ s) :
    Keeps s₀ (State.beginSleep s k target why) := by
  unfold State.beginSleep
  extract_lets +onlyGivenNames x0; refine Keeps.cut s₀ x0 ?_ fun h1 => ?_
  · unfold x0; apply log_keeps; assumption
  clear_value x0; apply Keeps.setCore
  · assumption
  extract_lets +onlyGivenNames x2; refine CoreOk.cut s₀ x2 ?_ fun h3 => ?_
  · unfold x2; apply Keeps.core; assumption
  clear_value x2; apply CoreOk.upd; assumption

theorem powerCore_keeps {s₀ : State} {s : State} (k : Fin 8) (h₀ : Keeps s₀ s) :
    Keeps s₀ (State.powerCore s k) := by
  unfold State.powerCore
  extract_lets +onlyGivenNames x0; refine CoreOk.cut s₀ x0 ?_ fun h1 => ?_
  · unfold x0
    apply Keeps.core; assumption
  clear_value x0; extract_lets +onlyGivenNames x2; extract_lets +onlyGivenNames x3; extract_lets +onlyGivenNames x4
  extract_lets +onlyGivenNames x5; refine CoreOk.cut s₀ x5 ?_ fun h6 => ?_
  · unfold x5
    apply CoreOk.upd; assumption
  clear_value x5; extract_lets +onlyGivenNames x7; refine CoreOk.cut s₀ x7 ?_ fun h8 => ?_
  · unfold x7
    apply CoreOk.ite
    · refine CoreOk.put ?_ id id id id (fun _ => rfl) (fun _ => rfl); assumption
    assumption
  clear_value x7; extract_lets +onlyGivenNames x9; refine Keeps.cut s₀ x9 ?_ fun h10 => ?_
  · unfold x9
    apply bump_keeps; apply Keeps.setCore
    · assumption
    assumption
  clear_value x9; extract_lets +onlyGivenNames x11; refine Keeps.cut s₀ x11 ?_ fun h12 => ?_
  · unfold x11
    apply setF_keeps; apply setF_keeps; assumption
  clear_value x11; extract_lets +onlyGivenNames x13; refine Keeps.cut s₀ x13 ?_ fun h14 => ?_
  · unfold x13
    apply setF_keeps; assumption
  clear_value x13; apply setIsl_keeps; assumption

theorem napToDark_keeps {s₀ : State} {s : State} (k : Fin 8) (why : Nat) (h₀ : Keeps s₀ s) :
    Keeps s₀ (State.napToDark s k why) := by
  unfold State.napToDark
  apply powerCore_keeps; apply drainLog_keeps; apply beginSleep_keeps; assumption

theorem wakeCore_keeps {s₀ : State} {s : State} (k : Fin 8) (why : Nat) (h₀ : Keeps s₀ s) :
    Keeps s₀ (State.wakeCore s k why) := by
  unfold State.wakeCore
  extract_lets +onlyGivenNames x0; extract_lets +onlyGivenNames x1; extract_lets +onlyGivenNames x2
  extract_lets +onlyGivenNames x3; refine Keeps.cut s₀ x3 ?_ fun h4 => ?_
  · unfold x3
    apply setIsl_keeps; assumption
  clear_value x3; extract_lets +onlyGivenNames x5; refine Keeps.cut s₀ x5 ?_ fun h6 => ?_
  · unfold x5
    apply setF_keeps; apply setF_keeps; assumption
  clear_value x5; extract_lets +onlyGivenNames x7; refine Keeps.cut s₀ x7 ?_ fun h8 => ?_
  · unfold x7
    apply setF_keeps; assumption
  clear_value x7; extract_lets +onlyGivenNames x9; refine CoreOk.cut s₀ x9 ?_ fun h10 => ?_
  · unfold x9
    apply Keeps.core; assumption
  clear_value x9; extract_lets +onlyGivenNames x11; extract_lets +onlyGivenNames x12
  refine Keeps.cut s₀ x12 ?_ fun h13 => ?_
  · unfold x12
    apply Keeps.ite
    · apply log_keeps; assumption
    assumption
  clear_value x12; extract_lets +onlyGivenNames x14; refine CoreOk.cut s₀ x14 ?_ fun h15 => ?_
  · unfold x14
    apply Keeps.core; assumption
  clear_value x14; extract_lets +onlyGivenNames x16; refine Keeps.cut s₀ x16 ?_ fun h17 => ?_
  · unfold x16
    apply Keeps.setCore
    · assumption
    apply CoreOk.upd; assumption
  clear_value x16; extract_lets +onlyGivenNames x18; refine Keeps.cut s₀ x18 ?_ fun h19 => ?_
  · unfold x18
    apply syncTriple_keeps; apply log_keeps; assumption
  clear_value x18; extract_lets +onlyGivenNames x20; extract_lets +onlyGivenNames x22
  refine CoreOk.cut s₀ x22 ?_ fun h23 => ?_
  · unfold x22
    apply Keeps.core; assumption
  clear_value x22; extract_lets +onlyGivenNames x24; refine Keeps.cut s₀ x24 ?_ fun h25 => ?_
  · unfold x24
    apply Keeps.ite
    · apply Keeps.setCore
      · assumption
      apply CoreOk.upd; assumption
    assumption
  clear_value x24; apply Keeps.ite
  · extract_lets +onlyGivenNames x26; refine Keeps.cut s₀ x26 ?_ fun h27 => ?_
    · unfold x26
      apply setF_keeps
      unfold x20
      apply setF_keeps; apply Keeps.setCore
      · assumption
      extract_lets +onlyGivenNames x28; refine CoreOk.cut s₀ x28 ?_ fun h29 => ?_
      · unfold x28
        apply Keeps.core; assumption
      clear_value x28; apply CoreOk.upd; assumption
    clear_value x26; apply staleOnCore_keeps; apply reportAft_keeps; assumption
  apply Keeps.ite
  · unfold x20
    apply setF_keeps; apply Keeps.setCore
    · assumption
    extract_lets +onlyGivenNames x30; refine CoreOk.cut s₀ x30 ?_ fun h31 => ?_
    · unfold x30
      apply Keeps.core; assumption
    clear_value x30; apply CoreOk.upd; assumption
  apply setF_keeps; apply Keeps.setCore
  · assumption
  extract_lets +onlyGivenNames x32; refine CoreOk.cut s₀ x32 ?_ fun h33 => ?_
  · unfold x32
    apply Keeps.core; assumption
  clear_value x32; apply CoreOk.upd; assumption

theorem cancelStart_keeps {s₀ : State} {s : State} (j : Job) (h₀ : Keeps s₀ s) :
    Keeps s₀ (State.cancelStart s j) := by
  unfold State.cancelStart
  apply setJob_keeps; assumption

end Sys2Proof
end

