-- ==== Sys2Proof/Laws/KeepsLoader.lean ====
section
/-! SUPPORT. `Keeps` of the operations of Sys2Proof/Machine/Loader.lean. -/

set_option linter.unusedTactic false
set_option linter.unreachableTactic false
set_option linter.tactic.unusedName false
set_option linter.unusedVariables false

namespace Sys2Proof

open Machine

theorem showLoaded_keeps {s₀ : State} {s : State} (h₀ : Keeps s₀ s) :
    Keeps s₀ (State.showLoaded s) := by
  unfold State.showLoaded
  extract_lets +onlyGivenNames x0; extract_lets +onlyGivenNames x1; extract_lets +onlyGivenNames x2
  refine Keeps.cut s₀ x2 ?_ fun h3 => ?_
  · unfold x2; apply setF_keeps; apply setF_keeps; assumption
  clear_value x2; apply setF_keeps; apply setF_keeps; assumption

theorem showPins_keeps {s₀ : State} {s : State} (h₀ : Keeps s₀ s) :
    Keeps s₀ (State.showPins s) := by
  unfold State.showPins
  apply setF_keeps; assumption

theorem loadCode_keeps {s₀ : State} {s : State} (l : List Byte) (j : Job) (h₀ : Keeps s₀ s) :
    Keeps s₀ (State.loadCode s l j) := by
  unfold State.loadCode
  apply Keeps.foldl
  · assumption
  intro u0 u1 h2; extract_lets +onlyGivenNames x3; apply Keeps.forCores
  · assumption
  intro u4 u5 h6; apply Keeps.ite
  · extract_lets +onlyGivenNames x7; extract_lets +onlyGivenNames x8; extract_lets +onlyGivenNames x9
    refine CoreOk.cut s₀ x9 ?_ fun h10 => ?_
    · unfold x9; apply Keeps.core; assumption
    clear_value x9; apply Keeps.setCore
    · assumption
    refine CoreOk.put ?_ (mwf_msets _ _ _) (mwf_msets _ _ _) id id id id; assumption
  assumption

theorem showRole_keeps {s₀ : State} {s : State} (k : Fin 8) (h₀ : Keeps s₀ s) :
    Keeps s₀ (State.showRole s k) := by
  unfold State.showRole
  extract_lets +onlyGivenNames x0; apply setF_keeps; assumption

theorem loadImage_keeps {s₀ : State} {s : State} (l : List Byte) (h₀ : Keeps s₀ s) :
    Keeps s₀ (State.loadImage s l).2.2 := by
  unfold State.loadImage
  extract_lets +onlyGivenNames x0; apply Keeps.ite_snd₂
  · apply Keeps.mk_snd₂; assumption
  apply Keeps.ite_snd₂
  · apply Keeps.mk_snd₂; assumption
  apply Keeps.ite_snd₂
  · apply Keeps.mk_snd₂; assumption
  extract_lets +onlyGivenNames x1; apply Keeps.ite_snd₂
  · apply Keeps.mk_snd₂; assumption
  apply Keeps.ite_snd₂
  · apply Keeps.mk_snd₂; assumption
  extract_lets +onlyGivenNames x2; refine Keeps.cut s₀ x2 ?_ fun h3 => ?_
  · unfold x2
    apply loadCode_keeps; assumption
  clear_value x2; extract_lets +onlyGivenNames x4; refine Keeps.cut s₀ x4 ?_ fun h5 => ?_
  · unfold x4
    apply Keeps.upd₀; assumption
  clear_value x4; extract_lets +onlyGivenNames x6; refine Keeps.cut s₀ x6 ?_ fun h7 => ?_
  · unfold x6
    apply Keeps.ite
    · apply setF_keeps; apply setF_keeps; apply setF_keeps; assumption
    assumption
  clear_value x6; apply Keeps.mk_snd₂; apply showPins_keeps; apply showLoaded_keeps; apply Keeps.forCores
  · assumption
  intro u8 u9 h10; apply showRole_keeps; assumption

theorem execLoadimg_keeps {s₀ : State} (b : Fin 2) {s : State} (h₀ : Keeps s₀ s) :
    KeepsOut s₀ (execLoadimg b s) := by
  unfold execLoadimg
  split
  · apply KeepsOut.next; assumption
  apply KeepsOut.ite
  · apply KeepsOut.next; apply finish_keeps; assumption
  apply KeepsOut.ite
  · apply KeepsOut.next; assumption
  split
  rename_i r0 r1 r2 r3; refine Keeps.cut s₀ r2 (Keeps.of_snd r3 ?_) fun h4 => ?_
  · apply source_keeps; assumption
  split
  · apply KeepsOut.next; apply finish_keeps; assumption
  split
  rename_i r5 r6 r7 r8 r9; refine Keeps.cut s₀ r8 (Keeps.of_snd₂ r9 ?_) fun h10 => ?_
  · apply loadImage_keeps; assumption
  apply KeepsOut.next; apply finish_keeps; assumption

theorem removeJob_keeps {s₀ : State} {s : State} (j : Job) (h₀ : Keeps s₀ s) :
    Keeps s₀ (State.removeJob s j) := by
  unfold State.removeJob
  extract_lets +onlyGivenNames x0; extract_lets +onlyGivenNames x1; refine Keeps.cut s₀ x1 ?_ fun h2 => ?_
  · unfold x1; apply Keeps.forCores
    · assumption
    intro u3 u4 h5; extract_lets +onlyGivenNames x6; refine CoreOk.cut s₀ x6 ?_ fun h7 => ?_
    · unfold x6; apply Keeps.core; assumption
    clear_value x6; apply Keeps.setCore
    · assumption
    apply CoreOk.upd; assumption
  clear_value x1; extract_lets +onlyGivenNames x8; refine Keeps.cut s₀ x8 ?_ fun h9 => ?_
  · unfold x8; apply Keeps.foldl
    · assumption
    intro u10 u11 h12; apply Keeps.ite
    · apply beginClose_keeps; assumption
    assumption
  clear_value x8; extract_lets +onlyGivenNames x13; refine Keeps.cut s₀ x13 ?_ fun h14 => ?_
  · unfold x13; apply Keeps.foldl
    · assumption
    intro u15 u16 h17; extract_lets +onlyGivenNames x18; apply Keeps.ite
    · apply setOb_keeps; assumption
    assumption
  clear_value x13; extract_lets +onlyGivenNames x19; extract_lets +onlyGivenNames x20
  refine Keeps.cut s₀ x20 ?_ fun h21 => ?_
  · unfold x20; apply Keeps.upd₀; assumption
  clear_value x20; apply pruneStore_keeps; apply showPins_keeps; apply showLoaded_keeps; apply Keeps.forCores
  · assumption
  intro u22 u23 h24; apply settle_keeps; apply showRole_keeps; assumption

theorem execUnload_keeps {s₀ : State} (b : Fin 2) {s : State} (h₀ : Keeps s₀ s) :
    KeepsOut s₀ (execUnload b s) := by
  unfold execUnload
  split
  · apply KeepsOut.next; assumption
  apply KeepsOut.ite
  · apply KeepsOut.next; apply finish_keeps; assumption
  split
  · apply KeepsOut.next; apply finish_keeps; assumption
  apply KeepsOut.ite
  · apply KeepsOut.next; apply finish_keeps; assumption
  apply KeepsOut.next; apply finish_keeps; apply removeJob_keeps; assumption

end Sys2Proof
end

