-- ==== Sys2Proof/Laws/KeepsEdge.lean ====
section
/-! SUPPORT. `Keeps` of the operations of Sys2Proof/Machine/Edge.lean. -/

set_option linter.unusedTactic false
set_option linter.unreachableTactic false
set_option linter.tactic.unusedName false
set_option linter.unusedVariables false

namespace Sys2Proof

open Machine

theorem edgeNext_keeps {s₀ : State} {s : State} (fresh : List (Nat × Int)) (h₀ : Keeps s₀ s) :
    Keeps s₀ (State.edgeNext s fresh) := by
  unfold State.edgeNext
  apply Keeps.upd₀; assumption

theorem edgePut_keeps {s₀ : State} {s : State} (r : EdgeRun) (b : Nat) (rows : List ERow) (h₀ : Keeps s₀ s) :
    Keeps s₀ (State.edgePut s r b rows) := by
  unfold State.edgePut
  extract_lets +onlyGivenNames x0; refine Keeps.cut s₀ x0 ?_ fun h1 => ?_
  · unfold x0; apply modJob_keeps; assumption
  clear_value x0; apply edgeNext_keeps; assumption

theorem edgeStart_keeps {s₀ : State} {s : State} (r : EdgeRun) (h₀ : Keeps s₀ s) :
    Keeps s₀ (State.edgeStart s r) := by
  unfold State.edgeStart
  apply setF_keeps; apply Keeps.upd₀; assumption

theorem edgePair_keeps {s₀ : State} {s : State} (j : Job) (x : JFrame) (h₀ : Keeps s₀ s) :
    Keeps s₀ (State.edgePair s j x).2 := by
  unfold State.edgePair
  extract_lets +onlyGivenNames x0; apply Keeps.ite_snd
  · apply Keeps.mk_snd; assumption
  apply Keeps.ite_snd
  · apply Keeps.mk_snd; assumption
  apply Keeps.ite_snd
  · apply Keeps.mk_snd; apply modJob_keeps; assumption
  extract_lets +onlyGivenNames x1; split
  · apply Keeps.mk_snd; assumption
  split
  rename_i r2 r3 r4 r5; refine Keeps.cut s₀ r4 (Keeps.of_snd r5 ?_) fun h6 => ?_
  · apply lineM_keeps; assumption
  split
  rename_i r7 r8 r9 r10; refine Keeps.cut s₀ r9 (Keeps.of_snd r10 ?_) fun h11 => ?_
  · apply lineM_keeps; assumption
  extract_lets +onlyGivenNames x12; apply Keeps.mk_snd; apply modJob_keeps; assumption

theorem edgeUe_keeps {s₀ : State} {s : State} (id : Nat) (ue : List (Nat × Int × Nat)) (h₀ : Keeps s₀ s) :
    Keeps s₀ (State.edgeUe s id ue) := by
  unfold State.edgeUe
  apply Keeps.foldl
  · assumption
  intro u0 u1 h2; extract_lets +onlyGivenNames x3; split
  · assumption
  apply Keeps.ite
  · assumption
  extract_lets +onlyGivenNames x4; refine Keeps.cut s₀ x4 ?_ fun h5 => ?_
  · unfold x4
    apply modJob_keeps; assumption
  clear_value x4; apply report_keeps; assumption

theorem execEdgePlaneRowStart_keeps {s₀ : State} (id : Nat) (turn : EdgeTurn) {s : State} (h₀ : Keeps s₀ s) :
    KeepsOut s₀ (execEdgePlaneRowStart id turn s) := by
  unfold execEdgePlaneRowStart
  extract_lets +onlyGivenNames x0; refine Keeps.cut s₀ x0 ?_ fun h1 => ?_
  · unfold x0
    apply edgeUe_keeps; assumption
  clear_value x0; split
  · apply KeepsOut.next; assumption
  apply KeepsOut.ite
  · apply KeepsOut.next; assumption
  apply KeepsOut.ite
  · split
    · apply KeepsOut.next; assumption
    apply KeepsOut.next; apply edgeStart_keeps; assumption
  split
  · apply KeepsOut.next; assumption
  split
  rename_i r2 r3 r4 r5; refine Keeps.cut s₀ r4 (Keeps.of_snd r5 ?_) fun h6 => ?_
  · apply edgePair_keeps; assumption
  extract_lets +onlyGivenNames x7; extract_lets +onlyGivenNames x8; refine Keeps.cut s₀ x8 ?_ fun h9 => ?_
  · unfold x8
    apply modJob_keeps; assumption
  clear_value x8; apply KeepsOut.next; apply edgeStart_keeps; assumption

theorem execEdgeEnd_keeps {s₀ : State} {s : State} (h₀ : Keeps s₀ s) :
    KeepsOut s₀ (execEdgeEnd s) := by
  unfold execEdgeEnd
  split
  · apply KeepsOut.next; assumption
  extract_lets +onlyGivenNames x0; split
  · apply KeepsOut.ite
    · apply KeepsOut.next; apply setF_keeps; apply Keeps.upd₀; assumption
    apply KeepsOut.next; assumption
  extract_lets +onlyGivenNames x1; extract_lets +onlyGivenNames x2; extract_lets +onlyGivenNames x3
  extract_lets +onlyGivenNames x4; refine Keeps.cut s₀ x4 ?_ fun h5 => ?_
  · unfold x4
    apply setF_keeps; apply Keeps.upd₀; assumption
  clear_value x4; extract_lets +onlyGivenNames x6; refine Keeps.cut s₀ x6 ?_ fun h7 => ?_
  · unfold x6
    apply Keeps.ite
    · apply stripeReady_keeps; assumption
    assumption
  clear_value x6; apply KeepsOut.next; apply bandOver_keeps; assumption

theorem execPack_keeps {s₀ : State} {s : State} (h₀ : Keeps s₀ s) :
    KeepsOut s₀ (execPack s) := by
  unfold execPack
  split
  · apply KeepsOut.next; assumption
  apply KeepsOut.ite
  · apply KeepsOut.next; apply edgeNext_keeps; assumption
  extract_lets +onlyGivenNames x0; extract_lets +onlyGivenNames x1; apply KeepsOut.next; apply edgePut_keeps
  assumption

theorem execEconv_keeps {s₀ : State} {s : State} (h₀ : Keeps s₀ s) :
    KeepsOut s₀ (execEconv s) := by
  unfold execEconv
  split
  · apply KeepsOut.next; assumption
  extract_lets +onlyGivenNames x0; extract_lets +onlyGivenNames x1; extract_lets +onlyGivenNames x2
  extract_lets +onlyGivenNames x3; extract_lets +onlyGivenNames x4; refine Keeps.cut s₀ x4 ?_ fun h5 => ?_
  · unfold x4
    apply bump_keeps; assumption
  clear_value x4; extract_lets +onlyGivenNames x6; apply KeepsOut.ite
  · apply KeepsOut.next; apply edgeNext_keeps; apply modJob_keeps; assumption
  apply KeepsOut.next; apply edgePut_keeps; assumption

theorem execShuffle_keeps {s₀ : State} {s : State} (h₀ : Keeps s₀ s) :
    KeepsOut s₀ (execShuffle s) := by
  unfold execShuffle
  split
  · apply KeepsOut.next; assumption
  apply KeepsOut.next; apply edgePut_keeps; assumption

theorem execEdgeArgmax_keeps {s₀ : State} {s : State} (h₀ : Keeps s₀ s) :
    KeepsOut s₀ (execEdgeArgmax s) := by
  unfold execEdgeArgmax
  split
  · apply KeepsOut.next; assumption
  apply KeepsOut.next; apply edgePut_keeps; assumption

theorem landRow_keeps {s₀ : State} {s : State} (k : Fin 8) (r : Nat) (ws : Row) (h₀ : Keeps s₀ s) :
    Keeps s₀ (State.landRow s k r ws) := by
  unfold State.landRow
  apply Keeps.ite
  · assumption
  apply Keeps.ite
  · apply holdWrite_keeps; assumption
  apply putRow_keeps; apply waited_keeps; assumption

theorem stripeSent_keeps {s₀ : State} {s : State} (j : Job) (x : JFrame) (k : Nat) (h₀ : Keeps s₀ s) :
    Keeps s₀ (State.stripeSent s j x k) := by
  unfold State.stripeSent
  apply Keeps.ite
  · apply Keeps.upd₀; assumption
  apply stripeReady_keeps; assumption

theorem execEmit_keeps {s₀ : State} {s : State} (h₀ : Keeps s₀ s) :
    KeepsOut s₀ (execEmit s) := by
  unfold execEmit
  split
  · apply KeepsOut.next; assumption
  apply KeepsOut.ite
  · apply KeepsOut.next; apply edgeNext_keeps; assumption
  apply KeepsOut.ite
  · apply KeepsOut.next; assumption
  extract_lets +onlyGivenNames x0; extract_lets +onlyGivenNames x1; extract_lets +onlyGivenNames x2
  extract_lets +onlyGivenNames x3; extract_lets +onlyGivenNames x4; refine Keeps.cut s₀ x4 ?_ fun h5 => ?_
  · unfold x4
    apply Keeps.foldl
    · assumption
    intro u6 u7 h8; extract_lets +onlyGivenNames x9; split
    extract_lets +onlyGivenNames x10; refine Keeps.cut s₀ x10 ?_ fun h11 => ?_
    · unfold x10
      apply bump_keeps; assumption
    clear_value x10; extract_lets +onlyGivenNames x12; extract_lets +onlyGivenNames x13; apply Keeps.foldl
    · assumption
    intro u14 u15 h16; extract_lets +onlyGivenNames x17; extract_lets +onlyGivenNames x18
    extract_lets +onlyGivenNames x19; extract_lets +onlyGivenNames x20; apply Keeps.foldl
    · assumption
    intro u21 u22 h23; apply Keeps.foldl
    · assumption
    intro u24 u25 h26; apply landRow_keeps; assumption
  clear_value x4; extract_lets +onlyGivenNames x27; extract_lets +onlyGivenNames x28
  refine Keeps.cut s₀ x28 ?_ fun h29 => ?_
  · unfold x28
    apply edgeNext_keeps; assumption
  clear_value x28; apply KeepsOut.ite
  · apply KeepsOut.next; apply stripeSent_keeps; assumption
  apply KeepsOut.next; assumption

theorem execTake_keeps {s₀ : State} {s : State} (h₀ : Keeps s₀ s) :
    KeepsOut s₀ (execTake s) := by
  unfold execTake
  split
  · apply KeepsOut.next; assumption
  apply KeepsOut.ite
  · apply KeepsOut.next; apply edgeNext_keeps; assumption
  apply KeepsOut.ite
  · apply KeepsOut.next; apply Keeps.upd₀; assumption
  extract_lets +onlyGivenNames x0; extract_lets +onlyGivenNames x1; extract_lets +onlyGivenNames x2
  extract_lets +onlyGivenNames x3; extract_lets +onlyGivenNames x4; extract_lets +onlyGivenNames x5
  extract_lets +onlyGivenNames x6; refine Keeps.cut s₀ x6 ?_ fun h7 => ?_
  · unfold x6
    apply modJob_keeps; assumption
  clear_value x6; extract_lets +onlyGivenNames x8; extract_lets +onlyGivenNames x9
  refine Keeps.cut s₀ x9 ?_ fun h10 => ?_
  · unfold x9
    apply Keeps.upd₀; assumption
  clear_value x9; apply KeepsOut.ite
  · apply KeepsOut.next; apply edgeNext_keeps; assumption
  apply KeepsOut.ite
  · apply KeepsOut.next; apply edgeNext_keeps; apply poisonCommit_keeps; assumption
  extract_lets +onlyGivenNames x11; extract_lets +onlyGivenNames x12; extract_lets +onlyGivenNames x13
  apply KeepsOut.ite
  · apply KeepsOut.next; apply edgeNext_keeps; assumption
  apply KeepsOut.next; apply edgePut_keeps; assumption

theorem execOutRec_keeps {s₀ : State} {s : State} (h₀ : Keeps s₀ s) :
    KeepsOut s₀ (execOutRec s) := by
  unfold execOutRec
  split
  · apply KeepsOut.next; assumption
  extract_lets +onlyGivenNames x0; extract_lets +onlyGivenNames x1; apply KeepsOut.next; apply edgeNext_keeps
  apply Keeps.foldl
  · assumption
  intro u2 u3 h4; apply storeRow_keeps; assumption

theorem execBoxdec_keeps {s₀ : State} {s : State} (h₀ : Keeps s₀ s) :
    KeepsOut s₀ (execBoxdec s) := by
  unfold execBoxdec
  split
  · apply KeepsOut.next; assumption
  extract_lets +onlyGivenNames x0; extract_lets +onlyGivenNames x1; split
  extract_lets +onlyGivenNames x2; extract_lets +onlyGivenNames x3; refine Keeps.cut s₀ x3 ?_ fun h4 => ?_
  · unfold x3
    apply modJob_keeps; assumption
  clear_value x3; apply KeepsOut.next; apply edgeNext_keeps; apply bump_keeps; assumption

theorem suppress_keeps {s₀ : State} {s : State} (j : Job) (x : JFrame) (e : EdgeRec) (h₀ : Keeps s₀ s) :
    Keeps s₀ (State.suppress s j x e) := by
  unfold State.suppress
  split
  extract_lets +onlyGivenNames x0; extract_lets +onlyGivenNames x1; refine Keeps.cut s₀ x1 ?_ fun h2 => ?_
  · unfold x1
    apply modJob_keeps; assumption
  clear_value x1; extract_lets +onlyGivenNames x3; apply Keeps.upd₀; assumption

theorem execNms_keeps {s₀ : State} {s : State} (h₀ : Keeps s₀ s) :
    KeepsOut s₀ (execNms s) := by
  unfold execNms
  split
  · apply KeepsOut.ite
    · apply KeepsOut.next; apply bandOver_keeps; apply edgeNext_keeps; apply suppress_keeps; assumption
    apply KeepsOut.next; apply edgeNext_keeps; assumption
  split
  · apply KeepsOut.next; assumption
  apply KeepsOut.next; apply bandOver_keeps; apply suppress_keeps; assumption

theorem edgeCtrlWrite_keeps {s₀ : State} {s : State} (m : Master) (v : Word) (h₀ : Keeps s₀ s) :
    Keeps s₀ (State.edgeCtrlWrite s m v) := by
  unfold State.edgeCtrlWrite
  apply regWrite_keeps
  · assumption
  intro u0 h1; apply Keeps.ite
  · apply setF_keeps; apply setF_keeps; assumption
  assumption

theorem execEdgeClr_keeps {s₀ : State} (m : Master) (v : Word) {s : State} (h₀ : Keeps s₀ s) :
    KeepsOut s₀ (execEdgeClr m v s) := by
  unfold execEdgeClr
  apply KeepsOut.next; apply edgeCtrlWrite_keeps; assumption

end Sys2Proof
end

