-- ==== Sys2Proof/Laws/KeepsOutfeed.lean ====
section
/-! SUPPORT. `Keeps` of the operations of Sys2Proof/Machine/Outfeed.lean. -/

set_option linter.unusedTactic false
set_option linter.unreachableTactic false
set_option linter.tactic.unusedName false
set_option linter.unusedVariables false

namespace Sys2Proof

open Machine

theorem loadStream_keeps {s₀ : State} {s : State} (n : Fin 6) (h₀ : Keeps s₀ s) :
    Keeps s₀ (State.loadStream s n) := by
  unfold State.loadStream
  extract_lets +onlyGivenNames x0; extract_lets +onlyGivenNames x1; refine Keeps.cut s₀ x1 ?_ fun h2 => ?_
  · unfold x1; apply Keeps.ite
    · apply setF_keeps; assumption
    assumption
  clear_value x1; extract_lets +onlyGivenNames x3; refine Keeps.cut s₀ x3 ?_ fun h4 => ?_
  · unfold x3; apply takeForces_keeps; assumption
  clear_value x3; extract_lets +onlyGivenNames x5; extract_lets +onlyGivenNames x6
  refine Keeps.cut s₀ x6 ?_ fun h7 => ?_
  · unfold x6; apply Keeps.ite
    · apply setF_keeps; assumption
    assumption
  clear_value x6; extract_lets +onlyGivenNames x8; refine Keeps.cut s₀ x8 ?_ fun h9 => ?_
  · unfold x8; apply setF_keeps; assumption
  clear_value x8; apply setStream_keeps; assumption

theorem tapMemory_keeps {s₀ : State} {s : State} (n : Fin 6) (c : StreamCfg) (ref : Nat) (h₀ : Keeps s₀ s) :
    Keeps s₀ (State.tapMemory s n c ref) := by
  unfold State.tapMemory
  extract_lets +onlyGivenNames x0; apply Keeps.ite
  · assumption
  extract_lets +onlyGivenNames x1; apply Keeps.foldl
  · apply tapTurn_keeps; apply tapShot_keeps; assumption
  intro u2 u3 h4; split
  rename_i r5 r6 r7 r8; refine Keeps.cut s₀ r7 (Keeps.of_snd r8 ?_) fun h9 => ?_
  · apply unitGet_keeps; assumption
  apply tapRow_keeps; assumption

theorem beginOut_keeps {s₀ : State} {s : State} (n : Fin 6) (ref : Nat) (h₀ : Keeps s₀ s) :
    Keeps s₀ (State.beginOut s n ref) := by
  unfold State.beginOut
  extract_lets +onlyGivenNames x0; extract_lets +onlyGivenNames x1; extract_lets +onlyGivenNames x2
  extract_lets +onlyGivenNames x3; apply Keeps.ite
  · unfold x3
    extract_lets +onlyGivenNames x5; extract_lets +onlyGivenNames x6; apply Keeps.ite
    · extract_lets +onlyGivenNames x7; split
      · apply bump_keeps; apply setStream_keeps; apply tapMemory_keeps; assumption
      apply setStream_keeps; apply tapMemory_keeps; assumption
    extract_lets +onlyGivenNames x8; extract_lets +onlyGivenNames x9; extract_lets +onlyGivenNames x10
    refine Keeps.cut s₀ x10 ?_ fun h11 => ?_
    · unfold x10
      apply Keeps.upd₀; apply tapMemory_keeps; assumption
    clear_value x10; apply setStream_keeps; assumption
  split
  · assumption
  split
  · split
    · assumption
    unfold x3
    extract_lets +onlyGivenNames x12; apply Keeps.ite
    · extract_lets +onlyGivenNames x13; split
      · apply bump_keeps; apply setStream_keeps; assumption
      apply setStream_keeps; assumption
    extract_lets +onlyGivenNames x14; extract_lets +onlyGivenNames x15; extract_lets +onlyGivenNames x16
    refine Keeps.cut s₀ x16 ?_ fun h17 => ?_
    · unfold x16
      apply Keeps.upd₀; assumption
    clear_value x16; apply setStream_keeps; assumption
  · unfold x3
    extract_lets +onlyGivenNames x18; apply Keeps.ite
    · extract_lets +onlyGivenNames x19; split
      · apply bump_keeps; apply setStream_keeps; assumption
      apply setStream_keeps; assumption
    extract_lets +onlyGivenNames x20; extract_lets +onlyGivenNames x21; extract_lets +onlyGivenNames x22
    refine Keeps.cut s₀ x22 ?_ fun h23 => ?_
    · unfold x22
      apply Keeps.upd₀; assumption
    clear_value x22; apply setStream_keeps; assumption
  assumption

theorem skipFrame_keeps {s₀ : State} {s : State} (n : Fin 6) (h₀ : Keeps s₀ s) :
    Keeps s₀ (State.skipFrame s n) := by
  unfold State.skipFrame
  extract_lets +onlyGivenNames x0; extract_lets +onlyGivenNames x1; extract_lets +onlyGivenNames x2
  apply setStream_keeps; apply bump_keeps; assumption

theorem passOver_keeps {s₀ : State} {s : State} (n : Fin 6) (h₀ : Keeps s₀ s) :
    Keeps s₀ (State.passOver s n) := by
  unfold State.passOver
  extract_lets +onlyGivenNames x0; split
  · assumption
  apply Keeps.ite
  · assumption
  split
  · assumption
  apply setStream_keeps; assumption

theorem execStreamFrameStart_keeps {s₀ : State} (n : Fin 6) {s : State} (h₀ : Keeps s₀ s) :
    KeepsOut s₀ (execStreamFrameStart n s) := by
  unfold execStreamFrameStart
  extract_lets +onlyGivenNames x0; extract_lets +onlyGivenNames x1; split
  · apply KeepsOut.next; assumption
  apply KeepsOut.ite
  · apply KeepsOut.next; assumption
  extract_lets +onlyGivenNames x2; refine Keeps.cut s₀ x2 ?_ fun h3 => ?_
  · unfold x2
    apply loadStream_keeps; assumption
  clear_value x2; extract_lets +onlyGivenNames x4; extract_lets +onlyGivenNames x5
  refine Keeps.cut s₀ x5 ?_ fun h6 => ?_
  · unfold x5
    apply setStream_keeps; assumption
  clear_value x5; apply KeepsOut.ite
  · apply KeepsOut.next; apply pruneStore_keeps; assumption
  apply KeepsOut.ite
  · apply KeepsOut.next; apply pruneStore_keeps; apply skipFrame_keeps; assumption
  apply KeepsOut.next; apply pruneStore_keeps; apply beginOut_keeps; apply Keeps.ite
  · assumption
  apply passOver_keeps; assumption

theorem execLineReadyCheck_keeps {s₀ : State} (n : Fin 6) {s : State} (h₀ : Keeps s₀ s) :
    KeepsOut s₀ (execLineReadyCheck n s) := by
  unfold execLineReadyCheck
  extract_lets +onlyGivenNames x0; split
  · apply KeepsOut.next; assumption
  extract_lets +onlyGivenNames x1; apply KeepsOut.ite
  · apply KeepsOut.next; assumption
  extract_lets +onlyGivenNames x2; extract_lets +onlyGivenNames x3; apply KeepsOut.next; apply pruneStore_keeps
  apply setStream_keeps; assumption

theorem lineRows_keeps {s₀ : State} {s : State} (x : OutFrame) (i : Nat) (h₀ : Keeps s₀ s) :
    Keeps s₀ (State.lineRows s x i).2 := by
  unfold State.lineRows
  extract_lets +onlyGivenNames x0; apply Keeps.foldl_snd
  · apply Keeps.mk_snd; assumption
  intro u1 u2 h3; apply Keeps.ite_snd
  · extract_lets +onlyGivenNames x4; split
    rename_i r5 r6 r7 r8; refine Keeps.cut s₀ r7 (Keeps.of_snd r8 ?_) fun h9 => ?_
    · apply unitGet_keeps; assumption
    extract_lets +onlyGivenNames x10; extract_lets +onlyGivenNames x11; apply Keeps.mk_snd; assumption
  split
  · assumption
  apply Keeps.mk_snd; assumption

theorem lineCodes_keeps {s₀ : State} {s : State} (n : Nat) (x : OutFrame) (i : Nat) (h₀ : Keeps s₀ s) :
    Keeps s₀ (State.lineCodes s n x i).2.2.2 := by
  unfold State.lineCodes
  extract_lets +onlyGivenNames x0; extract_lets +onlyGivenNames x1; extract_lets +onlyGivenNames x2
  extract_lets +onlyGivenNames x3; extract_lets +onlyGivenNames x4; split
  rename_i r5 r6 r7 r8; refine Keeps.cut s₀ r7 (Keeps.of_snd r8 ?_) fun h9 => ?_
  · apply lineRows_keeps; assumption
  apply Keeps.ite_snd₃
  · extract_lets +onlyGivenNames x10; apply Keeps.mk_snd₃; assumption
  extract_lets +onlyGivenNames x11; extract_lets +onlyGivenNames x12; extract_lets +onlyGivenNames x13
  extract_lets +onlyGivenNames x14; apply Keeps.ite_snd₃
  · extract_lets +onlyGivenNames x15; apply Keeps.mk_snd₃; assumption
  extract_lets +onlyGivenNames x16; extract_lets +onlyGivenNames x17; extract_lets +onlyGivenNames x18
  extract_lets +onlyGivenNames x19; apply Keeps.ite_snd₃
  · apply Keeps.mk_snd₃; assumption
  split
  rename_i r20 r21 r22 r23; refine Keeps.cut s₀ r22 (Keeps.of_snd r23 ?_) fun h24 => ?_
  · apply lineRows_keeps; assumption
  extract_lets +onlyGivenNames x25; extract_lets +onlyGivenNames x26; extract_lets +onlyGivenNames x27
  extract_lets +onlyGivenNames x28; extract_lets +onlyGivenNames x29; apply Keeps.mk_snd₃; assumption

theorem txSend_keeps {s₀ : State} {s : State} (n : Nat) (i : Nat) (bs : List Byte) (h₀ : Keeps s₀ s) :
    Keeps s₀ (State.txSend s n i bs) := by
  unfold State.txSend
  apply Keeps.ite
  · apply emit_keeps; assumption
  assumption

theorem txShort_keeps {s₀ : State} {s : State} (n : Nat) (vc : Nat) (dt : Nat) (i : Nat) (v : Nat) (h₀ : Keeps s₀ s) :
    Keeps s₀ (State.txShort s n vc dt i v) := by
  unfold State.txShort
  apply txSend_keeps; assumption

theorem txLong_keeps {s₀ : State} {s : State} (n : Nat) (vc : Nat) (dt : Nat) (i : Nat) (bs : List Byte) (h₀ : Keeps s₀
    s) :
    Keeps s₀ (State.txLong s n vc dt i bs) := by
  unfold State.txLong
  apply txSend_keeps; assumption

theorem txDeskew_keeps {s₀ : State} {s : State} (h₀ : Keeps s₀ s) :
    Keeps s₀ (State.txDeskew s) := by
  unfold State.txDeskew
  extract_lets +onlyGivenNames x0; apply Keeps.ite
  · apply emit_keeps; assumption
  assumption

theorem txCfgWrite_keeps {s₀ : State} {s : State} (m : Master) (off : Nat) (v : Word) (h₀ : Keeps s₀ s) :
    Keeps s₀ (State.txCfgWrite s m off v) := by
  unfold State.txCfgWrite
  extract_lets +onlyGivenNames x0; apply regWrite_keeps
  · assumption
  intro u1 h2; apply Keeps.ite
  · apply emit_keeps; assumption
  assumption

theorem putLine_keeps {s₀ : State} {s : State} (n : Nat) (x : OutFrame) (i : Nat) (l : LineCodes) (h₀ : Keeps s₀ s) :
    Keeps s₀ (State.putLine s n x i l) := by
  unfold State.putLine
  extract_lets +onlyGivenNames x0; apply Keeps.ite
  · extract_lets +onlyGivenNames x1; refine Keeps.cut s₀ x1 ?_ fun h2 => ?_
    · unfold x1; apply unitPut_keeps; assumption
    clear_value x1; apply Keeps.ite
    · assumption
    apply unitPut_keeps; assumption
  extract_lets +onlyGivenNames x3; refine Keeps.cut s₀ x3 ?_ fun h4 => ?_
  · unfold x3; apply Keeps.ite
    · apply txSend_keeps; assumption
    assumption
  clear_value x3; apply txSend_keeps; assumption

theorem endOut_keeps {s₀ : State} {s : State} (n : Fin 6) (x : OutFrame) (cut : Bool) (incomplete : Bool) (h₀ : Keeps s₀
    s) :
    Keeps s₀ (State.endOut s n x cut incomplete) := by
  unfold State.endOut
  extract_lets +onlyGivenNames x0; extract_lets +onlyGivenNames x1; extract_lets +onlyGivenNames x2
  extract_lets +onlyGivenNames x3; refine Keeps.cut s₀ x3 ?_ fun h4 => ?_
  · unfold x3
    apply Keeps.ite
    · apply unitPut_keeps; assumption
    apply txDeskew_keeps; apply bumpWrap_keeps; apply txShort_keeps; apply txLong_keeps; assumption
  clear_value x3; extract_lets +onlyGivenNames x5; extract_lets +onlyGivenNames x6; extract_lets +onlyGivenNames x7
  refine Keeps.cut s₀ x7 ?_ fun h8 => ?_
  · unfold x7
    apply setStream_keeps; assumption
  clear_value x7; extract_lets +onlyGivenNames x9; refine Keeps.cut s₀ x9 ?_ fun h10 => ?_
  · unfold x9
    apply bumpWrap_keeps; apply setF_keeps; assumption
  clear_value x9; apply pruneStore_keeps; apply raiseCause_keeps; assumption

theorem makeLine_keeps {s₀ : State} {s : State} (n : Fin 6) (x : OutFrame) (h₀ : Keeps s₀ s) :
    Keeps s₀ (State.makeLine s n x) := by
  unfold State.makeLine
  extract_lets +onlyGivenNames x0; extract_lets +onlyGivenNames x1; extract_lets +onlyGivenNames x2; split
  rename_i r3 r4 r5 r6 r7 r8; refine Keeps.cut s₀ r7 (Keeps.of_snd₃ r8 ?_) fun h9 => ?_
  · apply Keeps.ite_snd₃
    · dsimp only; assumption
    apply lineCodes_keeps; assumption
  extract_lets +onlyGivenNames x10; extract_lets +onlyGivenNames x11; refine Keeps.cut s₀ x11 ?_ fun h12 => ?_
  · unfold x11; apply Keeps.ite
    · apply poisonCommit_keeps; assumption
    assumption
  clear_value x11; extract_lets +onlyGivenNames x13; extract_lets +onlyGivenNames x14
  refine Keeps.cut s₀ x14 ?_ fun h15 => ?_
  · unfold x14; apply Keeps.ite
    · assumption
    apply bump_keeps; assumption
  clear_value x14; extract_lets +onlyGivenNames x16; refine Keeps.cut s₀ x16 ?_ fun h17 => ?_
  · unfold x16; apply Keeps.ite
    · apply bump_keeps; assumption
    assumption
  clear_value x16; extract_lets +onlyGivenNames x18; refine Keeps.cut s₀ x18 ?_ fun h19 => ?_
  · unfold x18; apply putLine_keeps; assumption
  clear_value x18; extract_lets +onlyGivenNames x20; apply pruneStore_keeps; apply setStream_keeps; assumption

theorem putDet_keeps {s₀ : State} {s : State} (n : Fin 6) (x : OutFrame) (bs : List Byte) (incomplete : Bool) (h₀ :
    Keeps s₀ s) :
    Keeps s₀ (State.putDet s n x bs incomplete) := by
  unfold State.putDet
  extract_lets +onlyGivenNames x0; extract_lets +onlyGivenNames x1; refine Keeps.cut s₀ x1 ?_ fun h2 => ?_
  · unfold x1; apply Keeps.ite
    · apply unitPut_keeps; assumption
    apply txSend_keeps; apply txSend_keeps; assumption
  clear_value x1; extract_lets +onlyGivenNames x3; extract_lets +onlyGivenNames x4
  refine Keeps.cut s₀ x4 ?_ fun h5 => ?_
  · unfold x4; apply Keeps.upd₀; assumption
  clear_value x4; apply endOut_keeps; assumption

theorem execOutfeedLineTime_keeps {s₀ : State} (n : Fin 6) {s : State} (h₀ : Keeps s₀ s) :
    KeepsOut s₀ (execOutfeedLineTime n s) := by
  unfold execOutfeedLineTime
  split
  · apply KeepsOut.next; assumption
  apply KeepsOut.ite
  · split
    · apply KeepsOut.next; assumption
    apply KeepsOut.ite
    · apply KeepsOut.next; apply putDet_keeps; apply poisonCommit_keeps; assumption
    apply KeepsOut.next; apply putDet_keeps; assumption
  apply KeepsOut.ite
  · apply KeepsOut.next; assumption
  apply KeepsOut.ite
  · apply KeepsOut.next; apply endOut_keeps; assumption
  apply KeepsOut.next; apply makeLine_keeps; assumption

theorem ofCtrlWrite_keeps {s₀ : State} {s : State} (n : Fin 6) (m : Master) (v : Word) (h₀ : Keeps s₀ s) :
    Keeps s₀ (State.ofCtrlWrite s n m v) := by
  unfold State.ofCtrlWrite
  apply regWrite_keeps
  · assumption
  intro u0 h1; extract_lets +onlyGivenNames x2; extract_lets +onlyGivenNames x3
  refine Keeps.cut s₀ x3 ?_ fun h4 => ?_
  · unfold x3; apply Keeps.ite
    · assumption
    split
    · apply Keeps.ite
      · apply setF_keeps; assumption
      assumption
    apply Keeps.ite
    · apply setStream_keeps; assumption
    apply setF_keeps; assumption
  clear_value x3; apply Keeps.ite
  · extract_lets +onlyGivenNames x5; apply setStream_keeps; assumption
  assumption

theorem execCut_keeps {s₀ : State} (n : Fin 6) (m : Master) (v : Word) {s : State} (h₀ : Keeps s₀ s) :
    KeepsOut s₀ (execCut n m v s) := by
  unfold execCut
  apply KeepsOut.next; apply ofCtrlWrite_keeps; assumption

theorem execCutClose_keeps {s₀ : State} (n : Fin 6) {s : State} (h₀ : Keeps s₀ s) :
    KeepsOut s₀ (execCutClose n s) := by
  unfold execCutClose
  split
  · apply KeepsOut.next; assumption
  apply KeepsOut.ite
  · apply KeepsOut.next; apply endOut_keeps; assumption
  apply KeepsOut.next; assumption

theorem execStreamRelease_keeps {s₀ : State} (n : Fin 6) (m : Master) (v : Word) {s : State} (h₀ : Keeps s₀ s) :
    KeepsOut s₀ (execStreamRelease n m v s) := by
  unfold execStreamRelease
  apply KeepsOut.next; apply ofCtrlWrite_keeps; assumption

theorem ofTapReleaseWrite_keeps {s₀ : State} {s : State} (t : Fin 2) (m : Master) (v : Word) (h₀ : Keeps s₀ s) :
    Keeps s₀ (State.ofTapReleaseWrite s t m v) := by
  unfold State.ofTapReleaseWrite
  apply regWrite_keeps
  · assumption
  intro u0 h1; extract_lets +onlyGivenNames x2; apply setOutTap_keeps; assumption

theorem execTapRelease_keeps {s₀ : State} (t : Fin 4) (m : Master) (v : Word) {s : State} (h₀ : Keeps s₀ s) :
    KeepsOut s₀ (execTapRelease t m v s) := by
  unfold execTapRelease
  apply KeepsOut.ite
  · apply KeepsOut.next; apply inTapReleaseWrite_keeps; assumption
  apply KeepsOut.next; apply ofTapReleaseWrite_keeps; assumption

theorem txSenseWrite_keeps {s₀ : State} {s : State} (m : Master) (v : Word) (h₀ : Keeps s₀ s) :
    Keeps s₀ (State.txSenseWrite s m v) := by
  unfold State.txSenseWrite
  apply regWrite_keeps
  · assumption
  intro u0 h1; apply Keeps.ite
  · assumption
  apply Keeps.ite
  · apply setF_keeps; assumption
  apply setF_keeps; apply Keeps.upd₀; assumption

theorem execLoadSenseGo_keeps {s₀ : State} (m : Master) (v : Word) {s : State} (h₀ : Keeps s₀ s) :
    KeepsOut s₀ (execLoadSenseGo m v s) := by
  unfold execLoadSenseGo
  apply KeepsOut.next; apply txSenseWrite_keeps; assumption

theorem execLoadSenseDone_keeps {s₀ : State} (lanes : List (Nat × Bool)) {s : State} (h₀ : Keeps s₀ s) :
    KeepsOut s₀ (execLoadSenseDone lanes s) := by
  unfold execLoadSenseDone
  split
  · apply KeepsOut.next; assumption
  extract_lets +onlyGivenNames x0; apply KeepsOut.next; apply setF_keeps; apply setF_keeps; apply Keeps.upd₀
  assumption

theorem execSourceStoreSpace_keeps {s₀ : State} {s : State} (h₀ : Keeps s₀ s) :
    KeepsOut s₀ (execSourceStoreSpace s) := by
  unfold execSourceStoreSpace
  extract_lets +onlyGivenNames x0; refine Keeps.cut s₀ x0 ?_ fun h1 => ?_
  · unfold x0; apply pruneStore_keeps; assumption
  clear_value x0; apply KeepsOut.next; apply Keeps.upd₀; assumption

end Sys2Proof
end

