-- ==== Sys2Proof/Laws/KeepsCoffer.lean ====
section
/-! SUPPORT. `Keeps` of the operations of Sys2Proof/Machine/Coffer.lean. -/

set_option linter.unusedTactic false
set_option linter.unreachableTactic false
set_option linter.tactic.unusedName false
set_option linter.unusedVariables false

namespace Sys2Proof

open Machine

theorem cofSlot_keeps {s₀ : State} {s : State} (n : Nat) (h₀ : Keeps s₀ s) :
    Keeps s₀ (State.cofSlot s n).2 := by
  unfold State.cofSlot
  split; rename_i r0 r1 r2 r3; refine Keeps.cut s₀ r2 (Keeps.of_snd r3 ?_) fun h4 => ?_
  · apply cofWords_keeps; assumption
  extract_lets +onlyGivenNames x5; extract_lets +onlyGivenNames x6; extract_lets +onlyGivenNames x7
  extract_lets +onlyGivenNames x8; dsimp only; assumption

theorem cofShow_keeps {s₀ : State} {s : State} (h₀ : Keeps s₀ s) :
    Keeps s₀ (State.cofShow s) := by
  unfold State.cofShow
  extract_lets +onlyGivenNames x0; refine Keeps.cut s₀ x0 ?_ fun h1 => ?_
  · unfold x0; apply setF_keeps; assumption
  clear_value x0; split
  · apply setF_keeps; apply setF_keeps; apply setF_keeps; assumption
  apply setF_keeps; apply setF_keeps; apply setF_keeps; assumption

theorem setRun_keeps {s₀ : State} {s : State} (r : Option CofRun) (h₀ : Keeps s₀ s) :
    Keeps s₀ (State.setRun s r) := by
  unfold State.setRun
  refine Keeps.upd ?_ rfl rfl (Nat.le_refl _); assumption

theorem modRun_keeps {s₀ : State} {s : State} (f : CofRun → CofRun) (h₀ : Keeps s₀ s) :
    Keeps s₀ (State.modRun s f) := by
  unfold State.modRun
  apply setRun_keeps; assumption

theorem setCofQueue_keeps {s₀ : State} {s : State} (q : List CofSub) (h₀ : Keeps s₀ s) :
    Keeps s₀ (State.setCofQueue s q) := by
  unfold State.setCofQueue
  refine Keeps.upd ?_ rfl rfl (Nat.le_refl _); assumption

theorem cofNote_keeps {s₀ : State} {s : State} (which : Nat) (idx : Nat) (h₀ : Keeps s₀ s) :
    Keeps s₀ (State.cofNote s which idx) := by
  unfold State.cofNote
  extract_lets +onlyGivenNames x0; extract_lets +onlyGivenNames x1; refine Keeps.cut s₀ x1 ?_ fun h2 => ?_
  · unfold x1; apply raiseCause_keeps; apply setF_keeps; assumption
  clear_value x1; split
  · assumption
  apply Keeps.ite
  · assumption
  apply report_keeps; apply setRun_keeps; assumption

theorem cofWrite_keeps {s₀ : State} {s : State} (idx : Nat) (dst : Nat) (k : Nat) (fault : Bool) (poison : Bool) (r :
    CofRes) (h₀ : Keeps s₀ s) :
    Keeps s₀ (State.cofWrite s idx dst k fault poison r) := by
  unfold State.cofWrite
  extract_lets +onlyGivenNames x0; refine Keeps.cut s₀ x0 ?_ fun h1 => ?_
  · unfold x0
    apply Keeps.ite
    · apply cofNote_keeps; assumption
    assumption
  clear_value x0; extract_lets +onlyGivenNames x2; refine Keeps.cut s₀ x2 ?_ fun h3 => ?_
  · unfold x2
    apply Keeps.ite
    · apply cofNote_keeps; assumption
    assumption
  clear_value x2; extract_lets +onlyGivenNames x4; refine Keeps.cut s₀ x4 ?_ fun h5 => ?_
  · unfold x4
    apply Keeps.ite
    · apply cofNote_keeps; assumption
    assumption
  clear_value x4; split
  rename_i r6 r7 r8 r9; refine Keeps.cut s₀ r8 (Keeps.of_snd r9 ?_) fun h10 => ?_
  · apply cofWord_keeps; assumption
  extract_lets +onlyGivenNames x11; extract_lets +onlyGivenNames x12; extract_lets +onlyGivenNames x13
  apply cofPuts_keeps; assumption

theorem cofPlain_keeps {s₀ : State} {s : State} (k : Nat) (w : BitVec 64) (h₀ : Keeps s₀ s) :
    Keeps s₀ (State.cofPlain s k w).2 := by
  unfold State.cofPlain
  split
  · extract_lets +onlyGivenNames x0; split; rename_i r1 r2 r3 r4
    refine Keeps.cut s₀ r3 (Keeps.of_snd r4 ?_) fun h5 => ?_
    · apply cofSlot_keeps; assumption
    split; rename_i r6 r7 r8 r9; refine Keeps.cut s₀ r8 (Keeps.of_snd r9 ?_) fun h10 => ?_
    · apply cofSlot_keeps; assumption
    split; rename_i r11 r12 r13 r14; refine Keeps.cut s₀ r13 (Keeps.of_snd r14 ?_) fun h15 => ?_
    · apply cofSlot_keeps; assumption
    split; rename_i r16 r17 r18 r19; refine Keeps.cut s₀ r18 (Keeps.of_snd r19 ?_) fun h20 => ?_
    · apply cofSlot_keeps; assumption
    extract_lets +onlyGivenNames x21; extract_lets +onlyGivenNames x22; extract_lets +onlyGivenNames x23
    extract_lets +onlyGivenNames x24; extract_lets +onlyGivenNames x25; extract_lets +onlyGivenNames x26; dsimp only
    assumption
  · split; rename_i r27 r28 r29 r30; refine Keeps.cut s₀ r29 (Keeps.of_snd r30 ?_) fun h31 => ?_
    · apply cofSlot_keeps; assumption
    extract_lets +onlyGivenNames x32; dsimp only; assumption
  · split; rename_i r33 r34 r35 r36; refine Keeps.cut s₀ r35 (Keeps.of_snd r36 ?_) fun h37 => ?_
    · apply cofWords_keeps; assumption
    extract_lets +onlyGivenNames x38; extract_lets +onlyGivenNames x39; extract_lets +onlyGivenNames x40; dsimp only
    assumption
  dsimp only; assumption

theorem beginPass_keeps {s₀ : State} {s : State} (h₀ : Keeps s₀ s) :
    Keeps s₀ (State.beginPass s) := by
  unfold State.beginPass
  apply modRun_keeps; assumption

theorem cofEnd_keeps {s₀ : State} {s : State} (code : Nat) (h₀ : Keeps s₀ s) :
    Keeps s₀ (State.cofEnd s code) := by
  unfold State.cofEnd
  split
  · assumption
  split
  rename_i r0 r1 r2 r3; refine Keeps.cut s₀ r2 (Keeps.of_snd r3 ?_) fun h4 => ?_
  · apply Keeps.ite_snd
    · apply Keeps.mk_snd; assumption
    apply Keeps.mk_snd; apply draw_keeps; assumption
  extract_lets +onlyGivenNames x5; refine Keeps.cut s₀ x5 ?_ fun h6 => ?_
  · unfold x5
    apply cofShow_keeps; apply setRun_keeps; assumption
  clear_value x5; extract_lets +onlyGivenNames x7; extract_lets +onlyGivenNames x8; extract_lets +onlyGivenNames x9
  refine Keeps.cut s₀ x9 ?_ fun h10 => ?_
  · unfold x9
    refine Keeps.upd ?_ rfl rfl (Nat.le_refl _); assumption
  clear_value x9; apply complete_keeps; assumption

theorem gateFault_keeps {s₀ : State} {s : State} (h₀ : Keeps s₀ s) :
    Keeps s₀ (State.gateFault s) := by
  unfold State.gateFault
  split
  · assumption
  apply Keeps.ite
  · assumption
  apply cofEnd_keeps; apply report_keeps; assumption

theorem plainGate_keeps {s₀ : State} {s : State} (opc : Nat) (h₀ : Keeps s₀ s) :
    Keeps s₀ (State.plainGate s opc) := by
  unfold State.plainGate
  split
  · apply gateFault_keeps; assumption
  apply Keeps.ite
  · apply beginPass_keeps; assumption
  split
  rename_i r0 r1 r2 r3; refine Keeps.cut s₀ r2 (Keeps.of_snd r3 ?_) fun h4 => ?_
  · apply cofPlain_keeps; assumption
  extract_lets +onlyGivenNames x5; refine Keeps.cut s₀ x5 ?_ fun h6 => ?_
  · unfold x5
    apply cofWrite_keeps; assumption
  clear_value x5; apply modRun_keeps; assumption

theorem refreshGate_keeps {s₀ : State} {s : State} (opc : Nat) (h₀ : Keeps s₀ s) :
    Keeps s₀ (State.refreshGate s opc) := by
  unfold State.refreshGate
  split
  · apply gateFault_keeps; assumption
  extract_lets +onlyGivenNames x0; apply Keeps.ite
  · apply setRun_keeps; assumption
  apply Keeps.ite
  · apply beginPass_keeps; assumption
  apply setRun_keeps; assumption

theorem execLinGate_keeps {s₀ : State} {s : State} (h₀ : Keeps s₀ s) :
    KeepsOut s₀ (execLinGate s) := by
  unfold execLinGate
  apply KeepsOut.next; apply plainGate_keeps; assumption

theorem execNotGate_keeps {s₀ : State} {s : State} (h₀ : Keeps s₀ s) :
    KeepsOut s₀ (execNotGate s) := by
  unfold execNotGate
  apply KeepsOut.next; apply plainGate_keeps; assumption

theorem execTrivGate_keeps {s₀ : State} {s : State} (h₀ : Keeps s₀ s) :
    KeepsOut s₀ (execTrivGate s) := by
  unfold execTrivGate
  apply KeepsOut.next; apply plainGate_keeps; assumption

theorem execConstGate_keeps {s₀ : State} {s : State} (h₀ : Keeps s₀ s) :
    KeepsOut s₀ (execConstGate s) := by
  unfold execConstGate
  apply KeepsOut.next; apply plainGate_keeps; assumption

theorem execGateAnd_keeps {s₀ : State} {s : State} (h₀ : Keeps s₀ s) :
    KeepsOut s₀ (execGateAnd s) := by
  unfold execGateAnd
  apply KeepsOut.next; apply refreshGate_keeps; assumption

theorem execGateOr_keeps {s₀ : State} {s : State} (h₀ : Keeps s₀ s) :
    KeepsOut s₀ (execGateOr s) := by
  unfold execGateOr
  apply KeepsOut.next; apply refreshGate_keeps; assumption

theorem execGateXor_keeps {s₀ : State} {s : State} (h₀ : Keeps s₀ s) :
    KeepsOut s₀ (execGateXor s) := by
  unfold execGateXor
  apply KeepsOut.next; apply refreshGate_keeps; assumption

theorem execNand_keeps {s₀ : State} {s : State} (h₀ : Keeps s₀ s) :
    KeepsOut s₀ (execNand s) := by
  unfold execNand
  apply KeepsOut.next; apply refreshGate_keeps; assumption

theorem execNor_keeps {s₀ : State} {s : State} (h₀ : Keeps s₀ s) :
    KeepsOut s₀ (execNor s) := by
  unfold execNor
  apply KeepsOut.next; apply refreshGate_keeps; assumption

theorem execXnor_keeps {s₀ : State} {s : State} (h₀ : Keeps s₀ s) :
    KeepsOut s₀ (execXnor s) := by
  unfold execXnor
  apply KeepsOut.next; apply refreshGate_keeps; assumption

theorem execMuxGate_keeps {s₀ : State} {s : State} (h₀ : Keeps s₀ s) :
    KeepsOut s₀ (execMuxGate s) := by
  unfold execMuxGate
  apply KeepsOut.next; apply refreshGate_keeps; assumption

theorem execLut3_keeps {s₀ : State} {s : State} (h₀ : Keeps s₀ s) :
    KeepsOut s₀ (execLut3 s) := by
  unfold execLut3
  apply KeepsOut.next; apply refreshGate_keeps; assumption

theorem execEndGate_keeps {s₀ : State} {s : State} (h₀ : Keeps s₀ s) :
    KeepsOut s₀ (execEndGate s) := by
  unfold execEndGate
  split
  · apply KeepsOut.next; apply gateFault_keeps; assumption
  apply KeepsOut.ite
  · apply KeepsOut.next; apply beginPass_keeps; assumption
  apply KeepsOut.next; apply cofEnd_keeps; apply setRun_keeps; assumption

theorem execEngineStart_keeps {s₀ : State} {s : State} (h₀ : Keeps s₀ s) :
    KeepsOut s₀ (execEngineStart s) := by
  unfold execEngineStart
  split
  · extract_lets +onlyGivenNames x0; apply KeepsOut.next; apply cofShow_keeps; apply setRun_keeps
    apply setCofQueue_keeps; assumption
  apply KeepsOut.next; assumption

theorem gateSrcs_keeps {s₀ : State} {s : State} (w : BitVec 64) (h₀ : Keeps s₀ s) :
    Keeps s₀ (State.gateSrcs s w).2.2.2 := by
  unfold State.gateSrcs
  split; rename_i r0 r1 r2 r3; refine Keeps.cut s₀ r2 (Keeps.of_snd r3 ?_) fun h4 => ?_
  · apply cofSlot_keeps; assumption
  split; rename_i r5 r6 r7 r8; refine Keeps.cut s₀ r7 (Keeps.of_snd r8 ?_) fun h9 => ?_
  · apply cofSlot_keeps; assumption
  apply Keeps.ite_snd₃
  · split; rename_i r10 r11 r12 r13; refine Keeps.cut s₀ r12 (Keeps.of_snd r13 ?_) fun h14 => ?_
    · apply cofSlot_keeps; assumption
    dsimp only; assumption
  dsimp only; assumption

theorem gateDone_keeps {s₀ : State} {s : State} (k : Nat) (fault : Bool) (poison : Bool) (first : Option (List Nat)) (g
    : CofGate) (h₀ : Keeps s₀ s) :
    Keeps s₀ (State.gateDone s k fault poison first g) := by
  unfold State.gateDone
  extract_lets +onlyGivenNames x0; split
  rename_i r1 r2 r3 r4 r5 r6; refine Keeps.cut s₀ r5 (Keeps.of_snd₃ r6 ?_) fun h7 => ?_
  · apply gateSrcs_keeps; assumption
  extract_lets +onlyGivenNames x8; extract_lets +onlyGivenNames x9; extract_lets +onlyGivenNames x10
  extract_lets +onlyGivenNames x11; extract_lets +onlyGivenNames x12; apply cofWrite_keeps; assumption

theorem keyFaulted_keeps {s₀ : State} {s : State} (k : Nat) (w : Nat) (batch : List CofGate) (h₀ : Keeps s₀ s) :
    Keeps s₀ (State.keyFaulted s k w batch) := by
  unfold State.keyFaulted
  extract_lets +onlyGivenNames x0; refine Keeps.cut s₀ x0 ?_ fun h1 => ?_
  · unfold x0; apply raiseCause_keeps; apply setF_keeps; assumption
  clear_value x0; extract_lets +onlyGivenNames x2; extract_lets +onlyGivenNames x3
  refine Keeps.cut s₀ x3 ?_ fun h4 => ?_
  · unfold x3; apply modRun_keeps; assumption
  clear_value x3; extract_lets +onlyGivenNames x5; extract_lets +onlyGivenNames x6
  refine Keeps.cut s₀ x6 ?_ fun h7 => ?_
  · unfold x6; apply report_keeps; assumption
  clear_value x6; refine Keeps.upd ?_ rfl rfl (Nat.le_refl _); assumption

theorem execRefreshPass_keeps {s₀ : State} {s : State} (h₀ : Keeps s₀ s) :
    KeepsOut s₀ (execRefreshPass s) := by
  unfold execRefreshPass
  split
  · apply KeepsOut.next; assumption
  apply KeepsOut.ite
  · apply KeepsOut.next; assumption
  extract_lets +onlyGivenNames x0; extract_lets +onlyGivenNames x1; extract_lets +onlyGivenNames x2
  refine Keeps.cut s₀ x2 ?_ fun h3 => ?_
  · unfold x2
    apply bumpWrap_keeps; assumption
  clear_value x2; extract_lets +onlyGivenNames x4; refine Keeps.cut s₀ x4 ?_ fun h5 => ?_
  · unfold x4
    apply modRun_keeps; assumption
  clear_value x4; extract_lets +onlyGivenNames x6; refine Keeps.cut s₀ x6 ?_ fun h7 => ?_
  · unfold x6
    clear_value x1; split
    · apply Keeps.ite
      · assumption
      apply keyFaulted_keeps; assumption
    assumption
  clear_value x6; extract_lets +onlyGivenNames x8; extract_lets +onlyGivenNames x9; extract_lets +onlyGivenNames x10
  extract_lets +onlyGivenNames x11; extract_lets +onlyGivenNames x12; refine Keeps.cut s₀ x12 ?_ fun h13 => ?_
  · unfold x12
    apply Keeps.ite
    · split
      · split
        rename_i r14 r15 r16 r17 r18 r19; refine Keeps.cut s₀ r18 (Keeps.of_snd₃ r19 ?_) fun h20 => ?_
        · apply gateSrcs_keeps; assumption
        apply modRun_keeps; assumption
      assumption
    apply modRun_keeps; apply Keeps.foldl
    · assumption
    intro u21 u22 h23; apply gateDone_keeps; assumption
  clear_value x12; apply KeepsOut.ite
  · apply KeepsOut.next; apply cofEnd_keeps; assumption
  apply KeepsOut.next; apply cofShow_keeps; assumption

theorem execKeyStreamData_keeps {s₀ : State} (a : KeyArrival) {s : State} (h₀ : Keeps s₀ s) :
    KeepsOut s₀ (execKeyStreamData a s) := by
  unfold execKeyStreamData
  split
  · apply KeepsOut.next; assumption
  apply KeepsOut.ite
  · apply KeepsOut.next; assumption
  extract_lets +onlyGivenNames x0; extract_lets +onlyGivenNames x1; refine Keeps.cut s₀ x1 ?_ fun h2 => ?_
  · unfold x1
    apply bump_keeps; apply bump_keeps; assumption
  clear_value x1; extract_lets +onlyGivenNames x3; refine Keeps.cut s₀ x3 ?_ fun h4 => ?_
  · unfold x3
    split
    · apply Keeps.ite
      · assumption
      apply modRun_keeps; apply keyFaulted_keeps; assumption
    assumption
  clear_value x3; extract_lets +onlyGivenNames x5; refine Keeps.cut s₀ x5 ?_ fun h6 => ?_
  · unfold x5
    apply Keeps.foldl
    · assumption
    intro u7 u8 h9; apply report_keeps; assumption
  clear_value x5; apply KeepsOut.next; apply modRun_keeps; assumption

theorem cofRefused_keeps {s₀ : State} {s : State} (b : Fin 2) (e : InFlight) (blk : List Byte) (code : Nat) (h₀ : Keeps
    s₀ s) :
    Keeps s₀ (State.cofRefused s b e blk code) := by
  unfold State.cofRefused
  split
  rename_i r0 r1 r2 r3; refine Keeps.cut s₀ r2 (Keeps.of_snd r3 ?_) fun h4 => ?_
  · apply draw_keeps; assumption
  split
  rename_i r5 r6 r7 r8; refine Keeps.cut s₀ r7 (Keeps.of_snd r8 ?_) fun h9 => ?_
  · apply draw_keeps; assumption
  apply finish_keeps; assumption

theorem execCofsub_keeps {s₀ : State} (b : Fin 2) {s : State} (h₀ : Keeps s₀ s) :
    KeepsOut s₀ (execCofsub b s) := by
  unfold execCofsub
  split
  · apply KeepsOut.next; assumption
  apply KeepsOut.ite
  · apply KeepsOut.next; apply finish_keeps; assumption
  apply KeepsOut.ite
  · apply KeepsOut.next; assumption
  split
  rename_i r0 r1 r2 r3; refine Keeps.cut s₀ r2 (Keeps.of_snd r3 ?_) fun h4 => ?_
  · apply source_keeps; assumption
  split
  · apply KeepsOut.next; apply finish_keeps; assumption
  extract_lets +onlyGivenNames x5; apply KeepsOut.ite
  · apply KeepsOut.next; apply cofRefused_keeps; assumption
  apply KeepsOut.ite
  · apply KeepsOut.next; apply cofRefused_keeps; assumption
  apply KeepsOut.ite
  · apply KeepsOut.next; assumption
  split
  rename_i r6 r7 r8 r9; refine Keeps.cut s₀ r8 (Keeps.of_snd r9 ?_) fun h10 => ?_
  · apply source_keeps; assumption
  split
  · apply KeepsOut.next; apply cofRefused_keeps; assumption
  extract_lets +onlyGivenNames x11; apply KeepsOut.ite
  · apply KeepsOut.next; apply cofRefused_keeps; assumption
  extract_lets +onlyGivenNames x12; apply KeepsOut.next; apply cofShow_keeps; apply setCofQueue_keeps
  apply accept_keeps; assumption

theorem setKey_keeps {s₀ : State} {s : State} (k : Fin 4) (q : KeySet) (h₀ : Keeps s₀ s) :
    Keeps s₀ (State.setKey s k q) := by
  unfold State.setKey
  refine Keeps.upd ?_ rfl rfl (Nat.le_refl _); assumption

theorem setKs_keeps {s₀ : State} {s : State} (f : Fld) (k : Nat) (v : Nat) (h₀ : Keeps s₀ s) :
    Keeps s₀ (State.setKs s f k v) := by
  unfold State.setKs
  apply setF_keeps; assumption

theorem execKsload_keeps {s₀ : State} (b : Fin 2) {s : State} (h₀ : Keeps s₀ s) :
    KeepsOut s₀ (execKsload b s) := by
  unfold execKsload
  split
  · apply KeepsOut.next; assumption
  extract_lets +onlyGivenNames x0; extract_lets +onlyGivenNames x1; apply KeepsOut.ite
  · apply KeepsOut.next; apply finish_keeps; assumption
  apply KeepsOut.ite
  · apply KeepsOut.next; apply finish_keeps; assumption
  apply KeepsOut.ite
  · apply KeepsOut.next; apply finish_keeps; assumption
  apply KeepsOut.ite
  · apply KeepsOut.next; assumption
  split
  rename_i r2 r3 r4 r5; refine Keeps.cut s₀ r4 (Keeps.of_snd r5 ?_) fun h6 => ?_
  · apply source_keeps; assumption
  split
  · apply KeepsOut.next; apply finish_keeps; assumption
  extract_lets +onlyGivenNames x7; apply KeepsOut.ite
  · apply KeepsOut.next; apply finish_keeps; assumption
  extract_lets +onlyGivenNames x8; refine Keeps.cut s₀ x8 ?_ fun h9 => ?_
  · unfold x8
    apply dramPut_keeps; assumption
  clear_value x8; extract_lets +onlyGivenNames x10; refine Keeps.cut s₀ x10 ?_ fun h11 => ?_
  · unfold x10
    apply setKey_keeps; assumption
  clear_value x10; extract_lets +onlyGivenNames x12; refine Keeps.cut s₀ x12 ?_ fun h13 => ?_
  · unfold x12
    apply setKs_keeps; apply setKs_keeps; assumption
  clear_value x12; apply KeepsOut.next; apply finish_keeps; assumption

theorem dropSlots_keeps {s₀ : State} {s : State} (k : Nat) (h₀ : Keeps s₀ s) :
    Keeps s₀ (State.dropSlots s k) := by
  unfold State.dropSlots
  apply Keeps.foldl
  · assumption
  intro u0 u1 h2; split; rename_i r3 r4 r5 r6; refine Keeps.cut s₀ r5 (Keeps.of_snd r6 ?_) fun h7 => ?_
  · apply cofWord_keeps; assumption
  apply Keeps.ite
  · apply cofPut_keeps; assumption
  assumption

theorem unloadKey_keeps {s₀ : State} {s : State} (k : Fin 4) (h₀ : Keeps s₀ s) :
    Keeps s₀ (State.unloadKey s k) := by
  unfold State.unloadKey
  extract_lets +onlyGivenNames x0; refine Keeps.cut s₀ x0 ?_ fun h1 => ?_
  · unfold x0; apply setKey_keeps; assumption
  clear_value x0; apply setKs_keeps; apply setKs_keeps; assumption

theorem execKsunload_keeps {s₀ : State} (b : Fin 2) {s : State} (h₀ : Keeps s₀ s) :
    KeepsOut s₀ (execKsunload b s) := by
  unfold execKsunload
  split
  · apply KeepsOut.next; assumption
  extract_lets +onlyGivenNames x0; extract_lets +onlyGivenNames x1; apply KeepsOut.ite
  · apply KeepsOut.next; apply finish_keeps; assumption
  apply KeepsOut.ite
  · apply KeepsOut.next; apply finish_keeps; assumption
  apply KeepsOut.ite
  · apply KeepsOut.next; apply finish_keeps; assumption
  apply KeepsOut.next; apply finish_keeps; apply dropSlots_keeps; apply unloadKey_keeps; assumption

theorem execKeyDigestRecheck_keeps {s₀ : State} {s : State} (h₀ : Keeps s₀ s) :
    KeepsOut s₀ (execKeyDigestRecheck s) := by
  unfold execKeyDigestRecheck
  split
  · apply KeepsOut.next; assumption
  extract_lets +onlyGivenNames x0; extract_lets +onlyGivenNames x1; extract_lets +onlyGivenNames x2
  extract_lets +onlyGivenNames x3; extract_lets +onlyGivenNames x4; refine Keeps.cut s₀ x4 ?_ fun h5 => ?_
  · unfold x4; refine Keeps.upd ?_ rfl rfl (Nat.le_refl _); assumption
  clear_value x4; apply KeepsOut.ite
  · apply KeepsOut.next; assumption
  apply KeepsOut.next; apply setKs_keeps; assumption

theorem execSlotHeaderWrite_keeps {s₀ : State} (n : Fin 4096) (h : BitVec 64) {s : State} (h₀ : Keeps s₀ s) :
    KeepsOut s₀ (execSlotHeaderWrite n h s) := by
  unfold execSlotHeaderWrite
  apply KeepsOut.next; apply cofHostWrite_keeps; assumption

theorem cofFlush_keeps {s₀ : State} {s : State} (h₀ : Keeps s₀ s) :
    Keeps s₀ (State.cofFlush s) := by
  unfold State.cofFlush
  extract_lets +onlyGivenNames x0; extract_lets +onlyGivenNames x1; refine Keeps.cut s₀ x1 ?_ fun h2 => ?_
  · unfold x1; apply cofShow_keeps; apply setCofQueue_keeps; assumption
  clear_value x1; apply Keeps.foldl
  · assumption
  intro u3 u4 h5; split; rename_i r6 r7 r8 r9; refine Keeps.cut s₀ r8 (Keeps.of_snd r9 ?_) fun h10 => ?_
  · apply draw_keeps; assumption
  split; rename_i r11 r12 r13 r14; refine Keeps.cut s₀ r13 (Keeps.of_snd r14 ?_) fun h15 => ?_
  · apply draw_keeps; assumption
  apply complete_keeps; assumption

theorem cofCtrlWrite_keeps {s₀ : State} {s : State} (m : Master) (v : Word) (h₀ : Keeps s₀ s) :
    Keeps s₀ (State.cofCtrlWrite s m v) := by
  unfold State.cofCtrlWrite
  apply regWrite_keeps
  · assumption
  intro u0 h1; extract_lets +onlyGivenNames x2; extract_lets +onlyGivenNames x3
  refine Keeps.cut s₀ x3 ?_ fun h4 => ?_
  · unfold x3; apply Keeps.ite
    · split
      · assumption
      apply Keeps.ite
      · apply setRun_keeps; assumption
      apply cofEnd_keeps; assumption
    assumption
  clear_value x3; extract_lets +onlyGivenNames x5; refine Keeps.cut s₀ x5 ?_ fun h6 => ?_
  · unfold x5; apply Keeps.ite
    · apply cofFlush_keeps; assumption
    assumption
  clear_value x5; apply Keeps.ite
  · apply setF_keeps; apply setF_keeps; apply setF_keeps; apply setF_keeps; assumption
  assumption

theorem execCofCancel_keeps {s₀ : State} (m : Master) (v : Word) {s : State} (h₀ : Keeps s₀ s) :
    KeepsOut s₀ (execCofCancel m v s) := by
  unfold execCofCancel
  apply KeepsOut.next; apply cofCtrlWrite_keeps; assumption

theorem execCofFlush_keeps {s₀ : State} (m : Master) (v : Word) {s : State} (h₀ : Keeps s₀ s) :
    KeepsOut s₀ (execCofFlush m v s) := by
  unfold execCofFlush
  apply KeepsOut.next; apply cofCtrlWrite_keeps; assumption

theorem execCofClr_keeps {s₀ : State} (m : Master) (v : Word) {s : State} (h₀ : Keeps s₀ s) :
    KeepsOut s₀ (execCofClr m v s) := by
  unfold execCofClr
  apply KeepsOut.next; apply cofCtrlWrite_keeps; assumption

end Sys2Proof
end

