-- ==== Sys2Proof/Laws/KeepsFaults.lean ====
section
/-! SUPPORT. `Keeps` of the operations of Sys2Proof/Machine/Faults.lean. -/

set_option linter.unusedTactic false
set_option linter.unreachableTactic false
set_option linter.tactic.unusedName false
set_option linter.unusedVariables false

namespace Sys2Proof

open Machine

theorem execFaultRecord_keeps {s₀ : State} (aft : Bool) {s : State} (h₀ : Keeps s₀ s) :
    KeepsOut s₀ (execFaultRecord aft s) := by
  unfold execFaultRecord
  apply KeepsOut.ite
  · apply KeepsOut.ite
    · apply KeepsOut.next; assumption
    extract_lets +onlyGivenNames x0; extract_lets +onlyGivenNames x1; refine Keeps.cut s₀ x1 ?_ fun h2 => ?_
    · unfold x1
      apply report_keeps; assumption
    clear_value x1; extract_lets +onlyGivenNames x3; extract_lets +onlyGivenNames x4
    refine Keeps.cut s₀ x4 ?_ fun h5 => ?_
    · unfold x4
      apply Keeps.ite
      · apply Keeps.upd₀; assumption
      assumption
    clear_value x4; split
    · apply KeepsOut.next; assumption
    apply KeepsOut.ite
    · apply KeepsOut.next; assumption
    apply KeepsOut.next; apply acceptRec_keeps; apply Keeps.upd₀; assumption
  split
  · apply KeepsOut.next; assumption
  apply KeepsOut.ite
  · apply KeepsOut.next; assumption
  apply KeepsOut.next; apply acceptRec_keeps; apply Keeps.upd₀; assumption

theorem execKillNotice_keeps {s₀ : State} (g : Fin 6) {s : State} (h₀ : Keeps s₀ s) :
    KeepsOut s₀ (execKillNotice g s) := by
  unfold execKillNotice
  split
  · apply KeepsOut.next; assumption
  extract_lets +onlyGivenNames x0; extract_lets +onlyGivenNames x1; refine Keeps.cut s₀ x1 ?_ fun h2 => ?_
  · unfold x1; apply Keeps.upd₀; assumption
  clear_value x1; apply KeepsOut.next; apply modJob_keeps; assumption

theorem relax_keeps {s₀ : State} {s : State} (k : Fin 8) (h₀ : Keeps s₀ s) :
    Keeps s₀ (State.relax s k) := by
  unfold State.relax
  extract_lets +onlyGivenNames x0; apply Keeps.ite
  · assumption
  extract_lets +onlyGivenNames x1; extract_lets +onlyGivenNames x2; refine Keeps.cut s₀ x2 ?_ fun h3 => ?_
  · unfold x2; apply setIsl_keeps; apply setF_keeps; assumption
  clear_value x2; extract_lets +onlyGivenNames x4; extract_lets +onlyGivenNames x5
  refine Keeps.cut s₀ x5 ?_ fun h6 => ?_
  · unfold x5; apply report_keeps; assumption
  clear_value x5; apply Keeps.ite
  · apply setF_keeps; apply Keeps.setCore
    · assumption
    extract_lets +onlyGivenNames x7; refine CoreOk.cut s₀ x7 ?_ fun h8 => ?_
    · unfold x7; apply Keeps.core; assumption
    clear_value x7; apply CoreOk.upd; assumption
  assumption

theorem fltCoreWrite_keeps {s₀ : State} {s : State} (k : Fin 8) (m : Master) (v : Word) (h₀ : Keeps s₀ s) :
    Keeps s₀ (State.fltCoreWrite s k m v) := by
  unfold State.fltCoreWrite
  apply regWrite_keeps
  · assumption
  intro u0 h1; extract_lets +onlyGivenNames x2; refine Keeps.cut s₀ x2 ?_ fun h3 => ?_
  · unfold x2; apply Keeps.ite
    · apply relax_keeps; assumption
    assumption
  clear_value x2; apply Keeps.ite
  · apply quarantine_keeps; assumption
  assumption

theorem execRelax_keeps {s₀ : State} (k : Fin 8) (m : Master) (v : Word) {s : State} (h₀ : Keeps s₀ s) :
    KeepsOut s₀ (execRelax k m v s) := by
  unfold execRelax
  apply KeepsOut.next; apply fltCoreWrite_keeps; assumption

theorem execForceQ_keeps {s₀ : State} (k : Fin 8) (m : Master) (v : Word) {s : State} (h₀ : Keeps s₀ s) :
    KeepsOut s₀ (execForceQ k m v s) := by
  unfold execForceQ
  apply KeepsOut.next; apply fltCoreWrite_keeps; assumption

theorem execTestPeriod_keeps {s₀ : State} {s : State} (h₀ : Keeps s₀ s) :
    KeepsOut s₀ (execTestPeriod s) := by
  unfold execTestPeriod
  extract_lets +onlyGivenNames x0; apply KeepsOut.ite
  · apply KeepsOut.next; assumption
  extract_lets +onlyGivenNames x1; extract_lets +onlyGivenNames x2; refine Keeps.cut s₀ x2 ?_ fun h3 => ?_
  · unfold x2; apply Keeps.upd₀; assumption
  clear_value x2; apply KeepsOut.next; apply queueTest_keeps; assumption

theorem execTestreq_keeps {s₀ : State} (b : Fin 2) {s : State} (h₀ : Keeps s₀ s) :
    KeepsOut s₀ (execTestreq b s) := by
  unfold execTestreq
  split
  · apply KeepsOut.next; assumption
  extract_lets +onlyGivenNames x0; extract_lets +onlyGivenNames x1; extract_lets +onlyGivenNames x2
  extract_lets +onlyGivenNames x3; apply KeepsOut.ite
  · apply KeepsOut.next; apply finish_keeps; assumption
  extract_lets +onlyGivenNames x4; extract_lets +onlyGivenNames x5; apply KeepsOut.next; apply finish_keeps
  apply queueTest_keeps; assumption

theorem showSlots_keeps {s₀ : State} {s : State} (h₀ : Keeps s₀ s) :
    Keeps s₀ (State.showSlots s) := by
  unfold State.showSlots
  apply setF_keeps; assumption

theorem saveSlot_keeps {s₀ : State} {s : State} (k : Fin 8) (t : TestSlot) (h₀ : Keeps s₀ s) :
    Keeps s₀ (State.saveSlot s k t) := by
  unfold State.saveSlot
  extract_lets +onlyGivenNames x0; extract_lets +onlyGivenNames x1; extract_lets +onlyGivenNames x2
  refine Keeps.cut s₀ x2 ?_ fun h3 => ?_
  · unfold x2
    apply dramPut_keeps; apply dramPut_keeps; assumption
  clear_value x2; extract_lets +onlyGivenNames x4; refine Keeps.cut s₀ x4 ?_ fun h5 => ?_
  · unfold x4
    apply dramPut_keeps; assumption
  clear_value x4; apply dramMark_keeps; assumption

theorem openSlot_keeps {s₀ : State} {s : State} (k : Fin 8) (o : StoObj) (pack : Nat) (pat : Nat) (h₀ : Keeps s₀ s) :
    Keeps s₀ (State.openSlot s k o pack pat) := by
  unfold State.openSlot
  extract_lets +onlyGivenNames x0; extract_lets +onlyGivenNames x1; extract_lets +onlyGivenNames x2
  refine CoreOk.cut s₀ x2 (Keeps.core h₀ _) fun h3 => ?_
  clear_value x2; extract_lets +onlyGivenNames x4; extract_lets +onlyGivenNames x5; extract_lets +onlyGivenNames x6
  extract_lets +onlyGivenNames x7; extract_lets +onlyGivenNames x8; extract_lets +onlyGivenNames x9
  extract_lets +onlyGivenNames x10; refine Keeps.cut s₀ x10 (saveSlot_keeps _ _ h₀) fun h11 => ?_
  clear_value x10; extract_lets +onlyGivenNames x12; refine Keeps.cut s₀ x12 ?_ fun h13 => ?_
  · unfold x12; apply Keeps.setCore
    · assumption
    refine CoreOk.put ?_ (mwf_msets _ _ _) id (mwf_msets _ _ _) id (mwf_msets _ _ _) id; assumption
  clear_value x12; extract_lets +onlyGivenNames x14; extract_lets +onlyGivenNames x15
  extract_lets +onlyGivenNames x16; refine Keeps.cut s₀ x16 ?_ fun h17 => ?_
  · unfold x16; apply Keeps.upd₀; assumption
  clear_value x16; apply settle_keeps; apply showSlots_keeps; apply log_keeps; assumption

theorem execTestSlotOpen_keeps {s₀ : State} (k : Fin 8) {s : State} (h₀ : Keeps s₀ s) :
    KeepsOut s₀ (execTestSlotOpen k s) := by
  unfold execTestSlotOpen
  split
  · apply KeepsOut.next; assumption
  apply KeepsOut.ite
  · apply KeepsOut.next; apply askWake_keeps; assumption
  extract_lets +onlyGivenNames x0; split
  · apply KeepsOut.next; apply Keeps.upd₀; assumption
  apply KeepsOut.ite
  · apply KeepsOut.next; assumption
  extract_lets +onlyGivenNames x1; extract_lets +onlyGivenNames x2; refine Keeps.cut s₀ x2 ?_ fun h3 => ?_
  · unfold x2; apply Keeps.upd₀; assumption
  clear_value x2; extract_lets +onlyGivenNames x4; extract_lets +onlyGivenNames x5
  refine Keeps.cut s₀ x5 ?_ fun h6 => ?_
  · unfold x5; apply setF_keeps; assumption
  clear_value x5; apply KeepsOut.next; apply openSlot_keeps; assumption

theorem closeSlot_keeps {s₀ : State} {s : State} (k : Fin 8) (t : TestSlot) (pass : Bool) (h₀ : Keeps s₀ s) :
    Keeps s₀ (State.closeSlot s k t pass) := by
  unfold State.closeSlot
  extract_lets +onlyGivenNames x0; refine CoreOk.cut s₀ x0 ?_ fun h1 => ?_
  · unfold x0; apply Keeps.core; assumption
  clear_value x0; extract_lets +onlyGivenNames x2; refine Keeps.cut s₀ x2 ?_ fun h3 => ?_
  · unfold x2; apply Keeps.setCore
    · assumption
    refine CoreOk.put ?_ (mwf_msets _ _ _) id (mwf_msets _ _ _) id (mwf_msets _ _ _) id; assumption
  clear_value x2; extract_lets +onlyGivenNames x4; extract_lets +onlyGivenNames x5; extract_lets +onlyGivenNames x6
  refine Keeps.cut s₀ x6 ?_ fun h7 => ?_
  · unfold x6; apply Keeps.upd₀; assumption
  clear_value x6; apply settle_keeps; apply showSlots_keeps; apply log_keeps; assumption

theorem keepResult_keeps {s₀ : State} {s : State} (k : Nat) (pack : Nat) (pat : Nat) (pass : Bool) (h₀ : Keeps s₀ s) :
    Keeps s₀ (State.keepResult s k pack pat pass) := by
  unfold State.keepResult
  extract_lets +onlyGivenNames x0; extract_lets +onlyGivenNames x1; extract_lets +onlyGivenNames x2
  extract_lets +onlyGivenNames x3; extract_lets +onlyGivenNames x4; extract_lets +onlyGivenNames x5; apply Keeps.upd₀
  assumption

theorem execTestSlotDone_keeps {s₀ : State} (k : Fin 8) (cycles : Nat) {s : State} (h₀ : Keeps s₀ s) :
    KeepsOut s₀ (execTestSlotDone k cycles s) := by
  unfold execTestSlotDone
  split
  · apply KeepsOut.next; assumption
  extract_lets +onlyGivenNames x0; apply KeepsOut.ite
  · apply KeepsOut.next; assumption
  extract_lets +onlyGivenNames x1; split; rename_i r2 r3 r4 r5 r6
  refine Keeps.cut s₀ r5 (Keeps.of_snd₂ r6 ?_) fun h7 => ?_
  · apply digestRows_keeps; assumption
  extract_lets +onlyGivenNames x8; extract_lets +onlyGivenNames x9; extract_lets +onlyGivenNames x10
  refine Keeps.cut s₀ x10 ?_ fun h11 => ?_
  · unfold x10; apply keepResult_keeps; apply closeSlot_keeps; assumption
  clear_value x10; extract_lets +onlyGivenNames x12; refine Keeps.cut s₀ x12 ?_ fun h13 => ?_
  · unfold x12; apply raiseCause_keeps; assumption
  clear_value x12; extract_lets +onlyGivenNames x14; apply KeepsOut.ite
  · apply KeepsOut.next; assumption
  apply KeepsOut.next; apply reportAft_keeps; assumption

theorem execTestSlotTimeout_keeps {s₀ : State} (k : Fin 8) {s : State} (h₀ : Keeps s₀ s) :
    KeepsOut s₀ (execTestSlotTimeout k s) := by
  unfold execTestSlotTimeout
  split
  · apply KeepsOut.next; assumption
  apply KeepsOut.ite
  · apply KeepsOut.next; assumption
  apply KeepsOut.next; apply reportAft_keeps; apply closeSlot_keeps; assumption

theorem execUrgentBorrow_keeps {s₀ : State} {s : State} (h₀ : Keeps s₀ s) :
    KeepsOut s₀ (execUrgentBorrow s) := by
  unfold execUrgentBorrow
  extract_lets +onlyGivenNames x0; split
  · extract_lets +onlyGivenNames x1; extract_lets +onlyGivenNames x2; apply KeepsOut.ite
    · extract_lets +onlyGivenNames x3; refine Keeps.cut s₀ x3 ?_ fun h4 => ?_
      · unfold x3; apply Keeps.foldl
        · assumption
        intro u5 u6 h7; apply setJob_keeps; assumption
      clear_value x3; apply KeepsOut.next; apply Keeps.upd₀; assumption
    extract_lets +onlyGivenNames x8; apply KeepsOut.next; apply setF_keeps; apply Keeps.upd₀; assumption
  apply KeepsOut.next; assumption

end Sys2Proof
end

