-- ==== Sys2Proof/Laws/KeepsPower.lean ====
section
/-! SUPPORT. `Keeps` of the operations of Sys2Proof/Machine/Power.lean. -/

set_option linter.unusedTactic false
set_option linter.unreachableTactic false
set_option linter.tactic.unusedName false
set_option linter.unusedVariables false

namespace Sys2Proof

open Machine

theorem islReq_keeps {s₀ : State} {s : State} (k : Fin 8) (q : Nat) (h₀ : Keeps s₀ s) :
    Keeps s₀ (State.islReq s k q) := by
  unfold State.islReq
  extract_lets +onlyGivenNames x0; apply Keeps.ite
  · apply Keeps.ite
    · assumption
    apply Keeps.ite
    · apply beginSleep_keeps; assumption
    unfold x0
    apply setF_keeps; assumption
  apply Keeps.ite
  · apply Keeps.ite
    · assumption
    apply Keeps.ite
    · unfold x0
      apply setF_keeps; assumption
    apply Keeps.ite
    · apply napToDark_keeps; assumption
    apply beginSleep_keeps; assumption
  apply Keeps.ite
  · apply askWake_keeps; assumption
  assumption

theorem pwrIslWrite_keeps {s₀ : State} {s : State} (k : Fin 8) (m : Master) (v : Word) (h₀ : Keeps s₀ s) :
    Keeps s₀ (State.pwrIslWrite s k m v) := by
  unfold State.pwrIslWrite
  apply regWrite_keeps
  · assumption
  intro u0 h1; apply islReq_keeps; assumption

theorem execNapRequest_keeps {s₀ : State} (k : Fin 8) (m : Master) (v : Word) {s : State} (h₀ : Keeps s₀ s) :
    KeepsOut s₀ (execNapRequest k m v s) := by
  unfold execNapRequest
  apply KeepsOut.next; apply pwrIslWrite_keeps; assumption

theorem execDarkRequest_keeps {s₀ : State} (k : Fin 8) (m : Master) (v : Word) {s : State} (h₀ : Keeps s₀ s) :
    KeepsOut s₀ (execDarkRequest k m v s) := by
  unfold execDarkRequest
  apply KeepsOut.next; apply pwrIslWrite_keeps; assumption

theorem execRunRequest_keeps {s₀ : State} (k : Fin 8) (m : Master) (v : Word) {s : State} (h₀ : Keeps s₀ s) :
    KeepsOut s₀ (execRunRequest k m v s) := by
  unfold execRunRequest
  apply KeepsOut.next; apply pwrIslWrite_keeps; assumption

theorem execAutoNap_keeps {s₀ : State} (k : Fin 8) {s : State} (h₀ : Keeps s₀ s) :
    KeepsOut s₀ (execAutoNap k s) := by
  unfold execAutoNap
  extract_lets +onlyGivenNames x0; refine CoreOk.cut s₀ x0 ?_ fun h1 => ?_
  · unfold x0; apply Keeps.core; assumption
  clear_value x0; apply KeepsOut.ite
  · apply KeepsOut.next; apply beginSleep_keeps; assumption
  apply KeepsOut.next; assumption

theorem execLogbookFlushDone_keeps {s₀ : State} (k : Fin 8) {s : State} (h₀ : Keeps s₀ s) :
    KeepsOut s₀ (execLogbookFlushDone k s) := by
  unfold execLogbookFlushDone
  apply KeepsOut.ite
  · apply KeepsOut.next; apply powerCore_keeps; assumption
  apply KeepsOut.next; assumption

theorem execNapFlushTimeout_keeps {s₀ : State} (k : Fin 8) {s : State} (h₀ : Keeps s₀ s) :
    KeepsOut s₀ (execNapFlushTimeout k s) := by
  unfold execNapFlushTimeout
  apply KeepsOut.ite
  · apply KeepsOut.next; apply powerCore_keeps; assumption
  apply KeepsOut.next; assumption

theorem execCoreWake_keeps {s₀ : State} (k : Fin 8) {s : State} (h₀ : Keeps s₀ s) :
    KeepsOut s₀ (execCoreWake k s) := by
  unfold execCoreWake
  split
  · apply KeepsOut.next; assumption
  apply KeepsOut.ite
  · apply KeepsOut.next; apply wakeCore_keeps; assumption
  apply KeepsOut.next; assumption

theorem sleepOne_keeps {s₀ : State} (k : Fin 8) {s : State} (h₀ : Keeps s₀ s) :
    Keeps s₀ (State.sleepOne k s) := by
  unfold State.sleepOne
  extract_lets +onlyGivenNames x0; apply Keeps.ite
  · extract_lets +onlyGivenNames x1; extract_lets +onlyGivenNames x2; refine Keeps.cut s₀ x2 ?_ fun h3 => ?_
    · unfold x2
      apply setIsl_keeps; assumption
    clear_value x2; apply Keeps.ite
    · apply napToDark_keeps; assumption
    assumption
  apply powerCore_keeps; apply drainLog_keeps; apply beginSleep_keeps; assumption

theorem enterSleep_keeps {s₀ : State} {s : State} (h₀ : Keeps s₀ s) :
    Keeps s₀ (State.enterSleep s) := by
  unfold State.enterSleep
  extract_lets +onlyGivenNames x0; refine Keeps.cut s₀ x0 ?_ fun h1 => ?_
  · unfold x0
    apply trcPad_keeps; apply Keeps.forCores
    · assumption
    intro u2 u3 h4; apply sleepOne_keeps; assumption
  clear_value x0; extract_lets +onlyGivenNames x5; refine Keeps.cut s₀ x5 ?_ fun h6 => ?_
  · unfold x5
    apply setF_keeps; apply setF_keeps; apply dropLink_keeps; assumption
  clear_value x5; extract_lets +onlyGivenNames x7; refine Keeps.cut s₀ x7 ?_ fun h8 => ?_
  · unfold x7
    apply setF_keeps; apply setF_keeps; assumption
  clear_value x7; apply setF_keeps; assumption

theorem stopForPower_keeps {s₀ : State} {s : State} (j : Job) (h₀ : Keeps s₀ s) :
    Keeps s₀ (State.stopForPower s j) := by
  unfold State.stopForPower
  extract_lets +onlyGivenNames x0; refine Keeps.cut s₀ x0 ?_ fun h1 => ?_
  · unfold x0; apply cancelStart_keeps; assumption
  clear_value x0; apply Keeps.ite
  · apply askStop_keeps; assumption
  assumption

theorem devReq_keeps {s₀ : State} {s : State} (q : Nat) (h₀ : Keeps s₀ s) :
    Keeps s₀ (State.devReq s q) := by
  unfold State.devReq
  apply Keeps.ite
  · apply Keeps.ite
    · apply enterSleep_keeps; assumption
    apply setF_keeps; assumption
  apply Keeps.ite
  · apply Keeps.ite
    · extract_lets +onlyGivenNames x0; extract_lets +onlyGivenNames x1; refine Keeps.cut s₀ x1 ?_ fun h2 => ?_
      · unfold x1; apply Keeps.upd₀; assumption
      clear_value x1; apply Keeps.foldl
      · assumption
      intro u3 u4 h5; apply stopForPower_keeps; assumption
    apply setF_keeps; assumption
  assumption

theorem pwrDevWrite_keeps {s₀ : State} {s : State} (m : Master) (v : Word) (h₀ : Keeps s₀ s) :
    Keeps s₀ (State.pwrDevWrite s m v) := by
  unfold State.pwrDevWrite
  apply regWrite_keeps
  · assumption
  intro u0 h1; apply devReq_keeps; assumption

theorem execSleepRequest_keeps {s₀ : State} (m : Master) (v : Word) {s : State} (h₀ : Keeps s₀ s) :
    KeepsOut s₀ (execSleepRequest m v s) := by
  unfold execSleepRequest
  apply KeepsOut.next; apply pwrDevWrite_keeps; assumption

theorem execPowerdownRequest_keeps {s₀ : State} (m : Master) (v : Word) {s : State} (h₀ : Keeps s₀ s) :
    KeepsOut s₀ (execPowerdownRequest m v s) := by
  unfold execPowerdownRequest
  apply KeepsOut.next; apply pwrDevWrite_keeps; assumption

theorem wakeOne_keeps {s₀ : State} (k : Fin 8) {s : State} (h₀ : Keeps s₀ s) :
    Keeps s₀ (State.wakeOne k s) := by
  unfold State.wakeOne
  apply Keeps.ite
  · apply wakeCore_keeps; assumption
  assumption

theorem execWakeEvent_keeps {s₀ : State} (src : Fin 3) {s : State} (h₀ : Keeps s₀ s) :
    KeepsOut s₀ (execWakeEvent src s) := by
  unfold execWakeEvent
  apply KeepsOut.ite
  · apply KeepsOut.next; assumption
  apply KeepsOut.ite
  · extract_lets +onlyGivenNames x0; refine Keeps.cut s₀ x0 ?_ fun h1 => ?_
    · unfold x0; apply Keeps.forCores
      · assumption
      intro u2 u3 h4; apply setF_keeps; apply Keeps.setCore
      · assumption
      extract_lets +onlyGivenNames x5; refine CoreOk.cut s₀ x5 ?_ fun h6 => ?_
      · unfold x5; apply Keeps.core; assumption
      clear_value x5; refine CoreOk.put ?_ id id id id (fun _ => rfl) (fun _ => rfl); assumption
    clear_value x0; apply KeepsOut.next; apply toTamper_keeps; assumption
  extract_lets +onlyGivenNames x7; refine Keeps.cut s₀ x7 ?_ fun h8 => ?_
  · unfold x7; apply setF_keeps; assumption
  clear_value x7; extract_lets +onlyGivenNames x9; refine Keeps.cut s₀ x9 ?_ fun h10 => ?_
  · unfold x9; apply brgTrain_keeps; apply Keeps.forCores
    · assumption
    intro u11 u12 h13; apply wakeOne_keeps; assumption
  clear_value x9; extract_lets +onlyGivenNames x14; refine Keeps.cut s₀ x14 ?_ fun h15 => ?_
  · unfold x14; apply startSweep_keeps; assumption
  clear_value x14; extract_lets +onlyGivenNames x16; refine Keeps.cut s₀ x16 ?_ fun h17 => ?_
  · unfold x16; apply Keeps.upd₀; assumption
  clear_value x16; apply KeepsOut.next; assumption

theorem railCross_keeps {s₀ : State} {s : State} (ix : Nat) (beyond : Bool) (h₀ : Keeps s₀ s) :
    Keeps s₀ (State.railCross s ix beyond).2 := by
  unfold State.railCross
  extract_lets +onlyGivenNames x0; dsimp only; apply Keeps.upd₀; assumption

theorem railWarn_keeps {s₀ : State} {s : State} (n : Nat) (h₀ : Keeps s₀ s) :
    Keeps s₀ (State.railWarn s n) := by
  unfold State.railWarn
  extract_lets +onlyGivenNames x0; refine Keeps.cut s₀ x0 ?_ fun h1 => ?_
  · unfold x0; apply setF_keeps; apply setF_keeps; assumption
  clear_value x0; apply raiseCause_keeps; apply report_keeps; assumption

theorem killAll_keeps {s₀ : State} {s : State} (cls : Nat) (h₀ : Keeps s₀ s) :
    Keeps s₀ (State.killAll s cls) := by
  unfold State.killAll
  apply Keeps.foldl
  · assumption
  intro u0 u1 h2; apply killJob_keeps; assumption

theorem railStop_keeps {s₀ : State} {s : State} (n : Nat) (h₀ : Keeps s₀ s) :
    Keeps s₀ (State.railStop s n) := by
  unfold State.railStop
  extract_lets +onlyGivenNames x0; refine Keeps.cut s₀ x0 ?_ fun h1 => ?_
  · unfold x0; apply killAll_keeps; apply setF_keeps; assumption
  clear_value x0; apply toStandby_keeps; apply writeRec_keeps; assumption

theorem railOne_keeps {s₀ : State} {s : State} (n : Nat) (v : Nat) (h₀ : Keeps s₀ s) :
    Keeps s₀ (State.railOne s n v) := by
  unfold State.railOne
  extract_lets +onlyGivenNames x0; refine Keeps.cut s₀ x0 ?_ fun h1 => ?_
  · unfold x0; apply setF_keeps; assumption
  clear_value x0; extract_lets +onlyGivenNames x2; extract_lets +onlyGivenNames x3; split; rename_i r4 r5 r6 r7
  refine Keeps.cut s₀ r6 (Keeps.of_snd r7 ?_) fun h8 => ?_
  · apply railCross_keeps; assumption
  extract_lets +onlyGivenNames x9; refine Keeps.cut s₀ x9 ?_ fun h10 => ?_
  · unfold x9; apply Keeps.ite
    · apply railWarn_keeps; assumption
    assumption
  clear_value x9; split; rename_i r11 r12 r13 r14; refine Keeps.cut s₀ r13 (Keeps.of_snd r14 ?_) fun h15 => ?_
  · apply railCross_keeps; assumption
  apply Keeps.ite
  · assumption
  apply Keeps.ite
  · apply railStop_keeps; assumption
  extract_lets +onlyGivenNames x16; extract_lets +onlyGivenNames x17; refine Keeps.cut s₀ x17 ?_ fun h18 => ?_
  · unfold x17; apply setF_keeps; assumption
  clear_value x17; apply Keeps.ite
  · apply Keeps.setCore
    · assumption
    extract_lets +onlyGivenNames x19; refine CoreOk.cut s₀ x19 ?_ fun h20 => ?_
    · unfold x19; apply Keeps.core; assumption
    clear_value x19; apply CoreOk.upd; assumption
  apply quarantine_keeps; apply report_keeps; assumption

theorem powerFail_keeps {s₀ : State} {s : State} (h₀ : Keeps s₀ s) :
    Keeps s₀ (State.powerFail s) := by
  unfold State.powerFail
  apply Keeps.ite
  · apply toStandby_keeps; apply setF_keeps; assumption
  assumption

theorem execRailSample_keeps {s₀ : State} (vals : List Nat) {s : State} (h₀ : Keeps s₀ s) :
    KeepsOut s₀ (execRailSample vals s) := by
  unfold execRailSample
  apply KeepsOut.ite
  · apply KeepsOut.next; assumption
  extract_lets +onlyGivenNames x0; extract_lets +onlyGivenNames x1; refine Keeps.cut s₀ x1 ?_ fun h2 => ?_
  · unfold x1; apply Keeps.upd₀; assumption
  clear_value x1; extract_lets +onlyGivenNames x3; refine Keeps.cut s₀ x3 ?_ fun h4 => ?_
  · unfold x3; apply Keeps.foldl
    · assumption
    intro u5 u6 h7; apply railOne_keeps; assumption
  clear_value x3; apply KeepsOut.next; apply powerFail_keeps; assumption

theorem tempOne_keeps {s₀ : State} {s : State} (n : Nat) (v : Int) (h₀ : Keeps s₀ s) :
    Keeps s₀ (State.tempOne s n v) := by
  unfold State.tempOne
  extract_lets +onlyGivenNames x0; extract_lets +onlyGivenNames x1; extract_lets +onlyGivenNames x2
  extract_lets +onlyGivenNames x3; refine Keeps.cut s₀ x3 ?_ fun h4 => ?_
  · unfold x3; apply setF_keeps; assumption
  clear_value x3; extract_lets +onlyGivenNames x5; refine Keeps.cut s₀ x5 ?_ fun h6 => ?_
  · unfold x5; apply Keeps.ite
    · apply setF_keeps; assumption
    assumption
  clear_value x5; extract_lets +onlyGivenNames x7; refine Keeps.cut s₀ x7 ?_ fun h8 => ?_
  · unfold x7; apply setF_keeps; assumption
  clear_value x7; apply Keeps.ite
  · extract_lets +onlyGivenNames x9; refine Keeps.cut s₀ x9 ?_ fun h10 => ?_
    · unfold x9; apply setF_keeps; apply setF_keeps; assumption
    clear_value x9; apply raiseCause_keeps; apply report_keeps; assumption
  assumption

theorem execTempSample_keeps {s₀ : State} (vals : List Int) {s : State} (h₀ : Keeps s₀ s) :
    KeepsOut s₀ (execTempSample vals s) := by
  unfold execTempSample
  apply KeepsOut.ite
  · apply KeepsOut.next; assumption
  apply KeepsOut.next; apply Keeps.foldl
  · assumption
  intro u0 u1 h2; apply tempOne_keeps; assumption

theorem execThermTrip_keeps {s₀ : State} (n : Fin 12) {s : State} (h₀ : Keeps s₀ s) :
    KeepsOut s₀ (execThermTrip n s) := by
  unfold execThermTrip
  apply KeepsOut.ite
  · apply KeepsOut.next; assumption
  extract_lets +onlyGivenNames x0; extract_lets +onlyGivenNames x1; extract_lets +onlyGivenNames x2
  refine Keeps.cut s₀ x2 ?_ fun h3 => ?_
  · unfold x2; apply writeRec_keeps; apply setF_keeps; assumption
  clear_value x2; extract_lets +onlyGivenNames x4; extract_lets +onlyGivenNames x5
  refine Keeps.cut s₀ x5 ?_ fun h6 => ?_
  · unfold x5; apply toStandby_keeps; apply Keeps.upd₀; assumption
  clear_value x5; apply KeepsOut.next; apply Keeps.ite
  · apply toTamper_keeps; assumption
  assumption

theorem execMarginLoopTick_keeps {s₀ : State} (k : Fin 8) (margin : Nat) {s : State} (h₀ : Keeps s₀ s) :
    KeepsOut s₀ (execMarginLoopTick k margin s) := by
  unfold execMarginLoopTick
  apply KeepsOut.ite
  · apply KeepsOut.next; assumption
  extract_lets +onlyGivenNames x0; extract_lets +onlyGivenNames x1; extract_lets +onlyGivenNames x2
  extract_lets +onlyGivenNames x3; extract_lets +onlyGivenNames x4; extract_lets +onlyGivenNames x5
  extract_lets +onlyGivenNames x6; extract_lets +onlyGivenNames x7; split; extract_lets +onlyGivenNames x8
  extract_lets +onlyGivenNames x9; extract_lets +onlyGivenNames x10; extract_lets +onlyGivenNames x11
  extract_lets +onlyGivenNames x12; extract_lets +onlyGivenNames x13; extract_lets +onlyGivenNames x14
  refine Keeps.cut s₀ x14 ?_ fun h15 => ?_
  · unfold x14; apply setIsl_keeps; assumption
  clear_value x14; extract_lets +onlyGivenNames x16; refine Keeps.cut s₀ x16 ?_ fun h17 => ?_
  · unfold x16; apply setF_keeps; apply setF_keeps; apply setF_keeps; assumption
  clear_value x16; extract_lets +onlyGivenNames x18; extract_lets +onlyGivenNames x19
  refine Keeps.cut s₀ x19 ?_ fun h20 => ?_
  · unfold x19; unfold x18; apply Keeps.ite
    · apply setF_keeps; assumption
    assumption
  clear_value x19; extract_lets +onlyGivenNames x21; refine Keeps.cut s₀ x21 ?_ fun h22 => ?_
  · unfold x21; unfold x18; apply Keeps.ite
    · apply setF_keeps; assumption
    assumption
  clear_value x21; extract_lets +onlyGivenNames x23; refine Keeps.cut s₀ x23 ?_ fun h24 => ?_
  · unfold x23; unfold x18; apply Keeps.ite
    · apply setF_keeps; assumption
    assumption
  clear_value x23; extract_lets +onlyGivenNames x25; refine Keeps.cut s₀ x25 ?_ fun h26 => ?_
  · unfold x25; unfold x18; apply Keeps.ite
    · apply setF_keeps; assumption
    assumption
  clear_value x25; extract_lets +onlyGivenNames x27; refine Keeps.cut s₀ x27 ?_ fun h28 => ?_
  · unfold x27; unfold x18; apply Keeps.ite
    · apply setF_keeps; assumption
    assumption
  clear_value x27; extract_lets +onlyGivenNames x29; refine Keeps.cut s₀ x29 ?_ fun h30 => ?_
  · unfold x29; apply Keeps.ite
    · apply log_keeps; assumption
    assumption
  clear_value x29; apply KeepsOut.ite
  · apply KeepsOut.next; assumption
  extract_lets +onlyGivenNames x31; extract_lets +onlyGivenNames x32; refine Keeps.cut s₀ x32 ?_ fun h33 => ?_
  · unfold x32; apply log_keeps; apply setF_keeps; assumption
  clear_value x32; apply KeepsOut.next; apply report_keeps; assumption

theorem execClockStretch_keeps {s₀ : State} (k : Fin 8) {s : State} (h₀ : Keeps s₀ s) :
    KeepsOut s₀ (execClockStretch k s) := by
  unfold execClockStretch
  apply KeepsOut.ite
  · apply KeepsOut.next; assumption
  apply KeepsOut.next; apply bump_keeps; apply setIsl_keeps; assumption

theorem execMarginShortfallLimit_keeps {s₀ : State} (k : Fin 8) {s : State} (h₀ : Keeps s₀ s) :
    KeepsOut s₀ (execMarginShortfallLimit k s) := by
  unfold execMarginShortfallLimit
  split
  · apply KeepsOut.next; assumption
  apply KeepsOut.ite
  · apply KeepsOut.next; apply quarantine_keeps; apply setIsl_keeps; assumption
  apply KeepsOut.next; assumption

theorem capIsl_keeps {s₀ : State} (est : Nat) (k : Fin 8) {s : State} (h₀ : Keeps s₀ s) :
    Keeps s₀ (State.capIsl est k s) := by
  unfold State.capIsl
  extract_lets +onlyGivenNames x0; extract_lets +onlyGivenNames x1; extract_lets +onlyGivenNames x2
  extract_lets +onlyGivenNames x3; extract_lets +onlyGivenNames x4; extract_lets +onlyGivenNames x5
  extract_lets +onlyGivenNames x6; extract_lets +onlyGivenNames x7; apply setIsl_keeps; assumption

theorem execPowerCapTick_keeps {s₀ : State} (est : Nat) {s : State} (h₀ : Keeps s₀ s) :
    KeepsOut s₀ (execPowerCapTick est s) := by
  unfold execPowerCapTick
  apply KeepsOut.ite
  · apply KeepsOut.next; assumption
  extract_lets +onlyGivenNames x0; refine Keeps.cut s₀ x0 ?_ fun h1 => ?_
  · unfold x0; apply setF_keeps; assumption
  clear_value x0; extract_lets +onlyGivenNames x2; refine Keeps.cut s₀ x2 ?_ fun h3 => ?_
  · unfold x2; apply Keeps.forCores
    · assumption
    intro u4 u5 h6; apply capIsl_keeps; assumption
  clear_value x2; extract_lets +onlyGivenNames x7; extract_lets +onlyGivenNames x8; extract_lets +onlyGivenNames x9
  apply KeepsOut.next; apply setF_keeps; assumption

theorem execClipEpisodeTimer_keeps {s₀ : State} (k : Fin 8) {s : State} (h₀ : Keeps s₀ s) :
    KeepsOut s₀ (execClipEpisodeTimer k s) := by
  unfold execClipEpisodeTimer
  extract_lets +onlyGivenNames x0; split
  · apply KeepsOut.next; assumption
  apply KeepsOut.ite
  · apply KeepsOut.next; apply raiseCause_keeps; apply setIsl_keeps; assumption
  apply KeepsOut.next; assumption

theorem execTraceFunnelPacket_keeps {s₀ : State} {s : State} (h₀ : Keeps s₀ s) :
    KeepsOut s₀ (execTraceFunnelPacket s) := by
  unfold execTraceFunnelPacket
  apply KeepsOut.ite
  · apply KeepsOut.next; assumption
  split
  · apply KeepsOut.next; assumption
  split
  · apply KeepsOut.next; assumption
  extract_lets +onlyGivenNames x0; refine CoreOk.cut s₀ x0 ?_ fun h1 => ?_
  · unfold x0; apply Keeps.core; assumption
  clear_value x0; extract_lets +onlyGivenNames x2; refine Keeps.cut s₀ x2 ?_ fun h3 => ?_
  · unfold x2; apply Keeps.setCore
    · assumption
    apply CoreOk.upd; assumption
  clear_value x2; apply KeepsOut.next; apply trcTake_keeps; apply Keeps.upd₀; assumption

theorem execTraceRowPad_keeps {s₀ : State} {s : State} (h₀ : Keeps s₀ s) :
    KeepsOut s₀ (execTraceRowPad s) := by
  unfold execTraceRowPad
  apply KeepsOut.ite
  · apply KeepsOut.next; apply trcPad_keeps; assumption
  apply KeepsOut.next; assumption

theorem execSyncTriple_keeps {s₀ : State} (k : Fin 8) {s : State} (h₀ : Keeps s₀ s) :
    KeepsOut s₀ (execSyncTriple k s) := by
  unfold execSyncTriple
  extract_lets +onlyGivenNames x0; refine CoreOk.cut s₀ x0 ?_ fun h1 => ?_
  · unfold x0; apply Keeps.core; assumption
  clear_value x0; apply KeepsOut.ite
  · apply KeepsOut.next; apply syncTriple_keeps; assumption
  apply KeepsOut.next; assumption

theorem trcCtrlWrite_keeps {s₀ : State} {s : State} (m : Master) (v : Word) (h₀ : Keeps s₀ s) :
    Keeps s₀ (State.trcCtrlWrite s m v) := by
  unfold State.trcCtrlWrite
  extract_lets +onlyGivenNames x0; apply regWrite_keeps
  · assumption
  intro u1 h2; extract_lets +onlyGivenNames x3; refine Keeps.cut s₀ x3 ?_ fun h4 => ?_
  · unfold x3
    apply Keeps.ite
    · apply Keeps.forCores
      · assumption
      intro u5 u6 h7; apply Keeps.setCore
      · assumption
      extract_lets +onlyGivenNames x8; refine CoreOk.cut s₀ x8 ?_ fun h9 => ?_
      · unfold x8
        apply Keeps.core; assumption
      clear_value x8; apply CoreOk.upd; assumption
    assumption
  clear_value x3; apply Keeps.ite
  · apply setF_keeps; apply setF_keeps; apply Keeps.forCores
    · assumption
    intro u10 u11 h12; apply setF_keeps; assumption
  assumption

theorem execTrcClr_keeps {s₀ : State} (m : Master) (v : Word) {s : State} (h₀ : Keeps s₀ s) :
    KeepsOut s₀ (execTrcClr m v s) := by
  unfold execTrcClr
  apply KeepsOut.next; apply trcCtrlWrite_keeps; assumption

end Sys2Proof
end

