-- ==== Sys2Proof/Laws/KeepsCommands.lean ====
section
/-! SUPPORT. `Keeps` of the operations of Sys2Proof/Machine/Commands.lean. -/

set_option linter.unusedTactic false
set_option linter.unreachableTactic false
set_option linter.tactic.unusedName false
set_option linter.unusedVariables false

namespace Sys2Proof

open Machine

theorem ringBell_keeps {s₀ : State} {s : State} (b : Fin 2) (v : Nat) (h₀ : Keeps s₀ s) :
    Keeps s₀ (State.ringBell s b v) := by
  unfold State.ringBell
  apply Keeps.ite
  · apply setF_keeps; assumption
  apply setF_keeps; assumption

theorem bellDue_keeps {s₀ : State} {s : State} (c : Fin 2) (h₀ : Keeps s₀ s) :
    Keeps s₀ (State.bellDue s c) := by
  unfold State.bellDue
  extract_lets +onlyGivenNames x0; split
  · assumption
  apply Keeps.ite
  · apply ringBell_keeps; apply setRing_keeps; assumption
  assumption

theorem sqTailWrite_keeps {s₀ : State} {s : State} (b : Fin 2) (m : Master) (v : Word) (h₀ : Keeps s₀ s) :
    Keeps s₀ (State.sqTailWrite s b m v) := by
  unfold State.sqTailWrite
  extract_lets +onlyGivenNames x0; apply regWrite_keeps
  · assumption
  intro u1 h2; extract_lets +onlyGivenNames x3; extract_lets +onlyGivenNames x4
  refine Keeps.cut s₀ x4 ?_ fun h5 => ?_
  · unfold x4; apply setF_keeps; assumption
  clear_value x4; apply Keeps.ite
  · apply ringBell_keeps; assumption
  apply setRing_keeps; assumption

theorem execSqDoorbell_keeps {s₀ : State} (b : Fin 2) (m : Master) (v : Word) {s : State} (h₀ : Keeps s₀ s) :
    KeepsOut s₀ (execSqDoorbell b m v s) := by
  unfold execSqDoorbell
  apply KeepsOut.next; apply sqTailWrite_keeps; assumption

theorem execCommandFetch_keeps {s₀ : State} (b : Fin 2) {s : State} (h₀ : Keeps s₀ s) :
    KeepsOut s₀ (execCommandFetch b s) := by
  unfold execCommandFetch
  extract_lets +onlyGivenNames x0; refine Keeps.cut s₀ x0 ?_ fun h1 => ?_
  · unfold x0
    apply bellDue_keeps; assumption
  clear_value x0; apply KeepsOut.ite
  · apply KeepsOut.next; assumption
  split
  rename_i r2 r3 r4 r5; refine Keeps.cut s₀ r4 (Keeps.of_snd r5 ?_) fun h6 => ?_
  · apply fwGet_keeps; assumption
  extract_lets +onlyGivenNames x7; refine Keeps.cut s₀ x7 ?_ fun h8 => ?_
  · unfold x7
    apply setF_keeps; assumption
  clear_value x7; extract_lets +onlyGivenNames x9; extract_lets +onlyGivenNames x10; extract_lets +onlyGivenNames x11
  apply KeepsOut.next; apply refuseNext_keeps; apply setRing_keeps; assumption

theorem postHeld_keeps {s₀ : State} (b : Fin 2) (a1 : Nat) {a2 : State} (h₀ : Keeps s₀ a2) :
    Keeps s₀ (State.postHeld b a1 a2) := by
  induction a1 generalizing b a2 with
  | zero =>
    unfold State.postHeld
    assumption
  | succ n ih =>
    unfold State.postHeld
    extract_lets +onlyGivenNames x0; split
    · assumption
    apply Keeps.ite
    · assumption
    apply ih; apply cqWrite_keeps; apply setRing_keeps; assumption

theorem cqHeadWrite_keeps {s₀ : State} {s : State} (b : Fin 2) (m : Master) (v : Word) (h₀ : Keeps s₀ s) :
    Keeps s₀ (State.cqHeadWrite s b m v) := by
  unfold State.cqHeadWrite
  apply regWrite_keeps
  · assumption
  intro u0 h1; apply postHeld_keeps; assumption

theorem execCqHeadWrite_keeps {s₀ : State} (b : Fin 2) (m : Master) (v : Word) {s : State} (h₀ : Keeps s₀ s) :
    KeepsOut s₀ (execCqHeadWrite b m v s) := by
  unfold execCqHeadWrite
  apply KeepsOut.next; apply cqHeadWrite_keeps; assumption

theorem imaskWrite_keeps {s₀ : State} {s : State} (m : Master) (v : Word) (h₀ : Keeps s₀ s) :
    Keeps s₀ (State.imaskWrite s m v) := by
  unfold State.imaskWrite
  extract_lets +onlyGivenNames x0; apply regWrite_keeps
  · assumption
  intro u1 h2; extract_lets +onlyGivenNames x3; extract_lets +onlyGivenNames x4; apply Keeps.foldl
  · assumption
  intro u5 u6 h7; apply emit_keeps; assumption

theorem execHostImaskWrite_keeps {s₀ : State} (m : Master) (v : Word) {s : State} (h₀ : Keeps s₀ s) :
    KeepsOut s₀ (execHostImaskWrite m v s) := by
  unfold execHostImaskWrite
  apply KeepsOut.next; apply imaskWrite_keeps; assumption

theorem execNop_keeps {s₀ : State} (b : Fin 2) {s : State} (h₀ : Keeps s₀ s) :
    KeepsOut s₀ (execNop b s) := by
  unfold execNop
  split
  · apply KeepsOut.next; assumption
  apply KeepsOut.next; apply finish_keeps; assumption

theorem zeroRows_keeps {s₀ : State} {s : State} (ks : List (Fin 8)) (first : Nat) (n : Nat) (h₀ : Keeps s₀ s) :
    Keeps s₀ (State.zeroRows s ks first n) := by
  unfold State.zeroRows
  apply Keeps.foldl
  · assumption
  intro u0 u1 h2; apply fwRows_keeps; assumption

theorem applyLedger_keeps {s₀ : State} {s : State} (p : Pkg) (h₀ : Keeps s₀ s) :
    Keeps s₀ (State.applyLedger s p) := by
  unfold State.applyLedger
  split
  · assumption
  extract_lets +onlyGivenNames x0; apply Keeps.ite
  · apply putAdapter_keeps; assumption
  apply report_keeps; assumption

theorem loadPkg_keeps {s₀ : State} {s : State} (l : List Byte) (cut : Option Nat) (h₀ : Keeps s₀ s) :
    Keeps s₀ (State.loadPkg s l cut).2 := by
  unfold State.loadPkg
  apply Keeps.ite_snd
  · dsimp only; assumption
  apply Keeps.ite_snd
  · dsimp only; assumption
  apply Keeps.ite_snd
  · dsimp only; assumption
  split
  · dsimp only; assumption
  · dsimp only; assumption
  apply Keeps.ite_snd
  · dsimp only; assumption
  split
  · dsimp only; assumption
  extract_lets +onlyGivenNames x0; extract_lets +onlyGivenNames x1; apply Keeps.ite_snd
  · dsimp only; assumption
  extract_lets +onlyGivenNames x2; extract_lets +onlyGivenNames x3; extract_lets +onlyGivenNames x4
  extract_lets +onlyGivenNames x5; extract_lets +onlyGivenNames x6; refine Keeps.cut s₀ x6 ?_ fun h7 => ?_
  · unfold x6; apply Keeps.foldl
    · assumption
    intro u8 u9 h10; apply beginWeights_keeps; assumption
  clear_value x6; split
  · dsimp only; apply zeroRows_keeps; assumption
  extract_lets +onlyGivenNames x11; refine Keeps.cut s₀ x11 ?_ fun h12 => ?_
  · unfold x11; apply Keeps.foldl
    · assumption
    intro u13 u14 h15; apply fwRows_keeps; assumption
  clear_value x11; apply Keeps.ite_snd
  · dsimp only; apply zeroRows_keeps; assumption
  apply Keeps.ite_snd
  · dsimp only; apply zeroRows_keeps; assumption
  extract_lets +onlyGivenNames x16; refine Keeps.cut s₀ x16 ?_ fun h17 => ?_
  · unfold x16; apply acceptSvn_keeps; assumption
  clear_value x16; extract_lets +onlyGivenNames x18; extract_lets +onlyGivenNames x19
  refine Keeps.cut s₀ x19 ?_ fun h20 => ?_
  · unfold x19; apply applyLedger_keeps; apply Keeps.upd₀; assumption
  clear_value x19; dsimp only; apply settlePkg_keeps; apply addDigests_keeps; assumption

theorem execLoadpkg_keeps {s₀ : State} (b : Fin 2) (cut : Option Nat) {s : State} (h₀ : Keeps s₀ s) :
    KeepsOut s₀ (execLoadpkg b cut s) := by
  unfold execLoadpkg
  split
  · apply KeepsOut.next; assumption
  apply KeepsOut.ite
  · apply KeepsOut.next; apply finish_keeps; assumption
  apply KeepsOut.ite
  · apply KeepsOut.next; assumption
  split
  rename_i r0 r1 r2 r3; refine Keeps.cut s₀ r2 (Keeps.of_snd r3 ?_) fun h4 => ?_
  · apply source_keeps; assumption
  split
  · apply KeepsOut.next; apply finish_keeps; assumption
  split
  rename_i r5 r6 r7 r8; refine Keeps.cut s₀ r7 (Keeps.of_snd r8 ?_) fun h9 => ?_
  · apply loadPkg_keeps; assumption
  apply KeepsOut.next; apply finish_keeps; assumption

theorem execUnloadpkg_keeps {s₀ : State} (b : Fin 2) {s : State} (h₀ : Keeps s₀ s) :
    KeepsOut s₀ (execUnloadpkg b s) := by
  unfold execUnloadpkg
  split
  · apply KeepsOut.next; assumption
  extract_lets +onlyGivenNames x0; apply KeepsOut.ite
  · apply KeepsOut.next; apply finish_keeps; assumption
  apply KeepsOut.ite
  · apply KeepsOut.next; apply finish_keeps; assumption
  extract_lets +onlyGivenNames x1; extract_lets +onlyGivenNames x2; refine Keeps.cut s₀ x2 ?_ fun h3 => ?_
  · unfold x2; apply Keeps.upd₀; assumption
  clear_value x2; apply KeepsOut.next; apply finish_keeps; assumption

theorem startSession_keeps {s₀ : State} {s : State} (j : Job) (h₀ : Keeps s₀ s) :
    Keeps s₀ (State.startSession s j).2 := by
  unfold State.startSession
  split
  · dsimp only; assumption
  extract_lets +onlyGivenNames x0; apply Keeps.ite_snd
  · dsimp only; assumption
  extract_lets +onlyGivenNames x1; refine Keeps.cut s₀ x1 ?_ fun h2 => ?_
  · unfold x1; apply Keeps.foldl
    · assumption
    intro u3 u4 h5; apply Keeps.ite
    · apply wakeCore_keeps; assumption
    assumption
  clear_value x1; dsimp only; apply Keeps.foldl
  · assumption
  intro u6 u7 h8; apply fwRows_keeps; assumption

theorem execStart_keeps {s₀ : State} (b : Fin 2) {s : State} (h₀ : Keeps s₀ s) :
    KeepsOut s₀ (execStart b s) := by
  unfold execStart
  split
  · apply KeepsOut.next; assumption
  apply KeepsOut.ite
  · apply KeepsOut.next; apply finish_keeps; assumption
  split
  · apply KeepsOut.next; apply finish_keeps; assumption
  apply KeepsOut.ite
  · apply KeepsOut.next; apply finish_keeps; assumption
  split; rename_i r0 r1 r2 r3; refine Keeps.cut s₀ r2 (Keeps.of_snd r3 ?_) fun h4 => ?_
  · apply Keeps.ite_snd
    · apply startSession_keeps; assumption
    dsimp only; assumption
  extract_lets +onlyGivenNames x5; refine Keeps.cut s₀ x5 ?_ fun h6 => ?_
  · unfold x5; apply Keeps.ite
    · apply setF_keeps; assumption
    assumption
  clear_value x5; apply KeepsOut.ite
  · apply KeepsOut.next; apply finish_keeps; assumption
  extract_lets +onlyGivenNames x7; refine Keeps.cut s₀ x7 ?_ fun h8 => ?_
  · unfold x7; apply Keeps.foldl
    · assumption
    intro u9 u10 h11; apply askWake_keeps; assumption
  clear_value x7; extract_lets +onlyGivenNames x12; refine Keeps.cut s₀ x12 ?_ fun h13 => ?_
  · unfold x12; apply modJob_keeps; assumption
  clear_value x12; extract_lets +onlyGivenNames x14; refine Keeps.cut s₀ x14 ?_ fun h15 => ?_
  · unfold x14; apply finish_keeps; assumption
  clear_value x14; apply KeepsOut.next; apply Keeps.ite
  · assumption
  apply memNext_keeps; apply activate_keeps; assumption

theorem execStop_keeps {s₀ : State} (b : Fin 2) {s : State} (h₀ : Keeps s₀ s) :
    KeepsOut s₀ (execStop b s) := by
  unfold execStop
  split
  · apply KeepsOut.next; assumption
  apply KeepsOut.ite
  · apply KeepsOut.next; apply finish_keeps; assumption
  split
  · apply KeepsOut.next; apply finish_keeps; assumption
  apply KeepsOut.ite
  · apply KeepsOut.next; apply finish_keeps; apply modJob_keeps; assumption
  apply KeepsOut.ite
  · apply KeepsOut.next; apply finish_keeps; assumption
  apply KeepsOut.next; apply askStop_keeps; apply accept_keeps; assumption

theorem ofCfgAct_keeps {s₀ : State} (n : Fin 6) (v : Nat) {s : State} (h₀ : Keeps s₀ s) :
    Keeps s₀ (State.ofCfgAct n v s) := by
  unfold State.ofCfgAct
  apply Keeps.ite
  · apply setStream_keeps; assumption
  assumption

theorem execRoute_keeps {s₀ : State} (b : Fin 2) {s : State} (h₀ : Keeps s₀ s) :
    KeepsOut s₀ (execRoute b s) := by
  unfold execRoute
  split
  · apply KeepsOut.next; assumption
  extract_lets +onlyGivenNames x0; apply KeepsOut.ite
  · apply KeepsOut.next; apply finish_keeps; assumption
  apply KeepsOut.ite
  · apply KeepsOut.next; apply finish_keeps; assumption
  extract_lets +onlyGivenNames x1; refine Keeps.cut s₀ x1 ?_ fun h2 => ?_
  · unfold x1; apply Keeps.foldl
    · assumption
    intro u3 u4 h5; apply regWrite_keeps
    · assumption
    intro u6 h7; unfold id; assumption
  clear_value x1; apply KeepsOut.next; apply finish_keeps; apply ofCfgAct_keeps; assumption

theorem execStorewr_keeps {s₀ : State} (c : StoreCmd) {s : State} (h₀ : Keeps s₀ s) :
    KeepsOut s₀ (execStorewr c s) := by
  unfold execStorewr
  split
  · apply KeepsOut.next; assumption
  extract_lets +onlyGivenNames x0; extract_lets +onlyGivenNames x1; apply KeepsOut.ite
  · apply KeepsOut.next; apply finish_keeps; assumption
  extract_lets +onlyGivenNames x2; extract_lets +onlyGivenNames x3; refine Keeps.cut s₀ x3 ?_ fun h4 => ?_
  · unfold x3
    apply accept_keeps; assumption
  clear_value x3; apply KeepsOut.next; apply stoRun_keeps; apply Keeps.upd₀; assumption

theorem execClaim_keeps {s₀ : State} (b : Fin 2) {s : State} (h₀ : Keeps s₀ s) :
    KeepsOut s₀ (execClaim b s) := by
  unfold execClaim
  split
  · apply KeepsOut.next; assumption
  apply KeepsOut.ite
  · apply KeepsOut.next; assumption
  apply KeepsOut.ite
  · apply KeepsOut.next; apply finish_keeps; assumption
  extract_lets +onlyGivenNames x0; extract_lets +onlyGivenNames x1; extract_lets +onlyGivenNames x2
  apply KeepsOut.ite
  · apply KeepsOut.next; apply finish_keeps; assumption
  extract_lets +onlyGivenNames x3; refine Keeps.cut s₀ x3 ?_ fun h4 => ?_
  · unfold x3; apply Keeps.foldl
    · assumption
    intro u5 u6 h7; apply setOwner_keeps; assumption
  clear_value x3; apply KeepsOut.next; apply finish_keeps; assumption

theorem execClaimRelease_keeps {s₀ : State} (b : Fin 2) {s : State} (h₀ : Keeps s₀ s) :
    KeepsOut s₀ (execClaimRelease b s) := by
  unfold execClaimRelease
  split
  · apply KeepsOut.next; assumption
  apply KeepsOut.ite
  · apply KeepsOut.next; assumption
  apply KeepsOut.ite
  · apply KeepsOut.next; apply finish_keeps; assumption
  extract_lets +onlyGivenNames x0; extract_lets +onlyGivenNames x1; extract_lets +onlyGivenNames x2
  refine Keeps.cut s₀ x2 ?_ fun h3 => ?_
  · unfold x2; apply Keeps.foldl
    · assumption
    intro u4 u5 h6; apply Keeps.ite
    · apply setOwner_keeps; assumption
    assumption
  clear_value x2; apply KeepsOut.next; apply finish_keeps; assumption

end Sys2Proof
end

