-- ==== Sys2Proof/Laws/KeepsSecOps.lean ====
section
/-! SUPPORT. `Keeps` of the operations of Sys2Proof/Machine/SecOps.lean. -/

set_option linter.unusedTactic false
set_option linter.unreachableTactic false
set_option linter.tactic.unusedName false
set_option linter.unusedVariables false

namespace Sys2Proof

open Machine

theorem secResetWrite_keeps {s₀ : State} {s : State} (m : Master) (strap : Nat) (v : Word) (h₀ : Keeps s₀ s) :
    Keeps s₀ (State.secResetWrite s m strap v) := by
  unfold State.secResetWrite
  apply regWrite_keeps
  · assumption
  intro u0 h1; apply Keeps.ite
  · apply coldReset_keeps; assumption
  apply Keeps.ite
  · apply warmReset_keeps; assumption
  assumption

theorem execSecResetWarm_keeps {s₀ : State} (m : Master) (v : Word) {s : State} (h₀ : Keeps s₀ s) :
    KeepsOut s₀ (execSecResetWarm m v s) := by
  unfold execSecResetWarm
  apply KeepsOut.next; apply secResetWrite_keeps; assumption

theorem execSecResetCold_keeps {s₀ : State} (m : Master) (v : Word) (strap : Nat) {s : State} (h₀ : Keeps s₀ s) :
    KeepsOut s₀ (execSecResetCold m v strap s) := by
  unfold execSecResetCold
  apply KeepsOut.next; apply secResetWrite_keeps; assumption

theorem wdogWrite_keeps {s₀ : State} {s : State} (m : Master) (v : Word) (h₀ : Keeps s₀ s) :
    Keeps s₀ (State.wdogWrite s m v) := by
  unfold State.wdogWrite
  apply regWrite_keeps
  · assumption
  intro u0 h1; apply Keeps.ite
  · refine Keeps.upd ?_ rfl rfl (Nat.le_refl _); assumption
  assumption

theorem execWatchdogKick_keeps {s₀ : State} (m : Master) (v : Word) {s : State} (h₀ : Keeps s₀ s) :
    KeepsOut s₀ (execWatchdogKick m v s) := by
  unfold execWatchdogKick
  apply KeepsOut.next; apply wdogWrite_keeps; assumption

theorem execWatchdogExpiry_keeps {s₀ : State} {s : State} (h₀ : Keeps s₀ s) :
    KeepsOut s₀ (execWatchdogExpiry s) := by
  unfold execWatchdogExpiry
  apply KeepsOut.ite
  · apply KeepsOut.next; apply setF_keeps; apply warmReset_keeps; assumption
  apply KeepsOut.next; assumption

theorem fuseProgram_keeps {s₀ : State} {s : State} (f : Nat) (w : Nat) (v : Nat) (h₀ : Keeps s₀ s) :
    Keeps s₀ (State.fuseProgram s f w v) := by
  unfold State.fuseProgram
  apply Keeps.ite
  · assumption
  extract_lets +onlyGivenNames x0; extract_lets +onlyGivenNames x1; extract_lets +onlyGivenNames x2
  extract_lets +onlyGivenNames x3; apply Keeps.ite
  · apply setF_keeps; assumption
  apply showFuses_keeps; apply addFuse_keeps; assumption

theorem fuseWrite_keeps {s₀ : State} {s : State} (m : Master) (v : Word) (h₀ : Keeps s₀ s) :
    Keeps s₀ (State.fuseWrite s m v) := by
  unfold State.fuseWrite
  extract_lets +onlyGivenNames x0; apply regWrite_keeps
  · assumption
  intro u1 h2; apply Keeps.ite
  · apply fuseProgram_keeps; assumption
  assumption

theorem execFuseProgram_keeps {s₀ : State} (m : Master) (v : Word) {s : State} (h₀ : Keeps s₀ s) :
    KeepsOut s₀ (execFuseProgram m v s) := by
  unfold execFuseProgram
  apply KeepsOut.next; apply fuseWrite_keeps; assumption

theorem tamperBoot_keeps {s₀ : State} {s : State} (h₀ : Keeps s₀ s) :
    Keeps s₀ (State.tamperBoot s) := by
  unfold State.tamperBoot
  apply setF_keeps; apply toTamper_keeps; assumption

theorem tamper_keeps {s₀ : State} {s : State} (src : Nat) (h₀ : Keeps s₀ s) :
    Keeps s₀ (State.tamper s src) := by
  unfold State.tamper
  extract_lets +onlyGivenNames x0; refine Keeps.cut s₀ x0 ?_ fun h1 => ?_
  · unfold x0; apply bump_keeps; apply setF_keeps; assumption
  clear_value x0; extract_lets +onlyGivenNames x2; refine Keeps.cut s₀ x2 ?_ fun h3 => ?_
  · unfold x2; apply setF_keeps; apply setF_keeps; assumption
  clear_value x2; extract_lets +onlyGivenNames x4; extract_lets +onlyGivenNames x5
  refine Keeps.cut s₀ x5 ?_ fun h6 => ?_
  · unfold x5; apply writeRec_keeps; assumption
  clear_value x5; apply Keeps.ite
  · assumption
  apply Keeps.ite
  · apply tamperBoot_keeps; apply latchBlow_keeps; assumption
  apply Keeps.ite
  · apply latchBlow_keeps; assumption
  extract_lets +onlyGivenNames x7; apply Keeps.ite
  · assumption
  extract_lets +onlyGivenNames x8; refine Keeps.cut s₀ x8 ?_ fun h9 => ?_
  · unfold x8; apply latchBlow_keeps; apply killAll_keeps; assumption
  clear_value x8; apply Keeps.ite
  · apply toTamper_keeps; assumption
  apply toTamper_keeps; apply powerLost_keeps; assumption

theorem execTamperEvent_keeps {s₀ : State} (src : BitVec 7) {s : State} (h₀ : Keeps s₀ s) :
    KeepsOut s₀ (execTamperEvent src s) := by
  unfold execTamperEvent
  extract_lets +onlyGivenNames x0; apply KeepsOut.ite
  · apply KeepsOut.next; assumption
  apply KeepsOut.next; apply tamper_keeps; assumption

theorem debugFail_keeps {s₀ : State} {s : State} (h₀ : Keeps s₀ s) :
    Keeps s₀ (State.debugFail s) := by
  unfold State.debugFail
  extract_lets +onlyGivenNames x0; extract_lets +onlyGivenNames x1; extract_lets +onlyGivenNames x2
  refine Keeps.cut s₀ x2 ?_ fun h3 => ?_
  · unfold x2; refine Keeps.upd ?_ rfl rfl (Nat.le_refl _); assumption
  apply Keeps.ite
  · apply tamper_keeps; assumption
  assumption

theorem startRom_keeps {s₀ : State} {s : State} (h₀ : Keeps s₀ s) :
    Keeps s₀ (State.startRom s) := by
  unfold State.startRom
  extract_lets +onlyGivenNames x0; refine Keeps.cut s₀ x0 ?_ fun h1 => ?_
  · unfold x0; apply setF_keeps; assumption
  clear_value x0; refine Keeps.upd ?_ rfl rfl (Nat.le_refl _); assumption

theorem unlock_keeps {s₀ : State} {s : State} (h₀ : Keeps s₀ s) :
    Keeps s₀ (State.unlock s) := by
  unfold State.unlock
  extract_lets +onlyGivenNames x0; refine Keeps.cut s₀ x0 ?_ fun h1 => ?_
  · unfold x0; apply setF_keeps; apply latchBlow_keeps; assumption
  clear_value x0; apply startRom_keeps; apply setF_keeps; apply setF_keeps; assumption

theorem tokenVerify_keeps {s₀ : State} {s : State} (h₀ : Keeps s₀ s) :
    Keeps s₀ (State.tokenVerify s) := by
  unfold State.tokenVerify
  extract_lets +onlyGivenNames x0; extract_lets +onlyGivenNames x1; extract_lets +onlyGivenNames x2
  refine Keeps.cut s₀ x2 ?_ fun h3 => ?_
  · unfold x2; apply setF_keeps; assumption
  clear_value x2; extract_lets +onlyGivenNames x4; apply Keeps.ite
  · apply Keeps.ite
    · apply unlock_keeps; apply setF_keeps; assumption
    unfold x4; apply setF_keeps; assumption
  apply Keeps.ite
  · apply Keeps.ite
    · extract_lets +onlyGivenNames x5; extract_lets +onlyGivenNames x6; refine Keeps.cut s₀ x6 ?_ fun h7 => ?_
      · unfold x6; refine Keeps.upd ?_ rfl rfl (Nat.le_refl _); assumption
      clear_value x6; apply setF_keeps; apply setF_keeps; assumption
    apply debugFail_keeps; unfold x4; apply setF_keeps; assumption
  unfold x4; apply setF_keeps; assumption

theorem tokenWrite_keeps {s₀ : State} {s : State} (m : Master) (v : Word) (h₀ : Keeps s₀ s) :
    Keeps s₀ (State.tokenWrite s m v) := by
  unfold State.tokenWrite
  apply regWrite_keeps
  · assumption
  intro u0 h1; apply Keeps.ite
  · apply tokenVerify_keeps; assumption
  assumption

theorem execTokenVerify_keeps {s₀ : State} (m : Master) (v : Word) {s : State} (h₀ : Keeps s₀ s) :
    KeepsOut s₀ (execTokenVerify m v s) := by
  unfold execTokenVerify
  apply KeepsOut.next; apply tokenWrite_keeps; assumption

theorem tokenPut_keeps {s₀ : State} {s : State} (m : Master) (i : Nat) (v : Word) (h₀ : Keeps s₀ s) :
    Keeps s₀ (State.tokenPut s m i v) := by
  unfold State.tokenPut
  apply regWrite_keeps
  · assumption
  intro u0 h1; refine Keeps.upd ?_ rfl rfl (Nat.le_refl _); assumption

theorem fuseDataWrite_keeps {s₀ : State} {s : State} (m : Master) (v : Word) (h₀ : Keeps s₀ s) :
    Keeps s₀ (State.fuseDataWrite s m v) := by
  unfold State.fuseDataWrite
  apply regWrite_keeps
  · assumption
  intro u0 h1; refine Keeps.upd ?_ rfl rfl (Nat.le_refl _); assumption

theorem stageVerify_keeps {s₀ : State} {s : State} (len : Nat) (h₀ : Keeps s₀ s) :
    Keeps s₀ (State.stageVerify s len) := by
  unfold State.stageVerify
  extract_lets +onlyGivenNames x0; extract_lets +onlyGivenNames x1; extract_lets +onlyGivenNames x2
  refine Keeps.cut s₀ x2 ?_ fun h3 => ?_
  · unfold x2; apply setF_keeps; assumption
  clear_value x2; apply Keeps.ite
  · refine Keeps.upd ?_ rfl rfl (Nat.le_refl _); assumption
  refine Keeps.upd ?_ rfl rfl (Nat.le_refl _); assumption

theorem stageWrite_keeps {s₀ : State} {s : State} (m : Master) (v : Word) (h₀ : Keeps s₀ s) :
    Keeps s₀ (State.stageWrite s m v) := by
  unfold State.stageWrite
  apply regWrite_keeps
  · assumption
  intro u0 h1; apply Keeps.ite
  · apply stageVerify_keeps; assumption
  assumption

theorem execStageVerify_keeps {s₀ : State} (m : Master) (v : Word) {s : State} (h₀ : Keeps s₀ s) :
    KeepsOut s₀ (execStageVerify m v s) := by
  unfold execStageVerify
  apply KeepsOut.next; apply stageWrite_keeps; assumption

end Sys2Proof
end

