-- ==== Sys2Proof/Laws/KeepsHostOps.lean ====
section
/-! SUPPORT. `Keeps` of the operations of Sys2Proof/Machine/HostOps.lean. -/

set_option linter.unusedTactic false
set_option linter.unreachableTactic false
set_option linter.tactic.unusedName false
set_option linter.unusedVariables false

namespace Sys2Proof

open Machine

theorem setBulk_keeps {s₀ : State} {s : State} (c : Fin 2) (x : BulkSt) (h₀ : Keeps s₀ s) :
    Keeps s₀ (State.setBulk s c x) := by
  unfold State.setBulk
  extract_lets +onlyGivenNames x0; extract_lets +onlyGivenNames x1; refine Keeps.cut s₀ x1 ?_ fun h2 => ?_
  · unfold x1; apply Keeps.upd₀; assumption
  clear_value x1; apply setF_keeps; assumption

theorem bulkErr_keeps {s₀ : State} {s : State} (src : Nat) (h₀ : Keeps s₀ s) :
    Keeps s₀ (State.bulkErr s src) := by
  unfold State.bulkErr
  apply Keeps.ite
  · apply setF_keeps; assumption
  assumption

theorem rowOut_keeps {s₀ : State} {s : State} (b : RowBuf) (h₀ : Keeps s₀ s) :
    Keeps s₀ (State.rowOut s b) := by
  unfold State.rowOut
  split; rename_i r0 r1 r2 r3; refine Keeps.cut s₀ r2 (Keeps.of_snd r3 ?_) fun h4 => ?_
  · apply devWrite_keeps; assumption
  apply Keeps.ite
  · apply bulkErr_keeps; assumption
  assumption

theorem rowPut_keeps {s₀ : State} {s : State} (src : Nat) (p : RowPut) (h₀ : Keeps s₀ s) :
    KeepsOpt s₀ (State.rowPut s src p) := by
  unfold State.rowPut
  extract_lets +onlyGivenNames x0; extract_lets +onlyGivenNames x1; split
  · extract_lets +onlyGivenNames x2; apply KeepsOpt.ite
    · apply KeepsOpt.some; apply rowOut_keeps; apply Keeps.upd₀; assumption
    apply KeepsOpt.some; apply Keeps.upd₀; assumption
  extract_lets +onlyGivenNames x3; apply KeepsOpt.ite
  · apply KeepsOpt.some; apply rowOut_keeps; assumption
  apply KeepsOpt.ite
  · exact KeepsOpt.none
  apply KeepsOpt.some; apply Keeps.upd₀; assumption

theorem rowPutAll_keeps {s₀ : State} (src : Nat) (a1 : List RowPut) {a2 : State} (h₀ : Keeps s₀ a2) :
    Keeps s₀ (State.rowPutAll src a1 a2).2 := by
  induction a1 generalizing src a2 with
  | nil =>
    unfold State.rowPutAll
    dsimp only; assumption
  | cons x l ih =>
    unfold State.rowPutAll
    split
    · dsimp only; assumption
    rename_i r0 r1 r2; refine Keeps.cut s₀ r1 (KeepsOpt.of r2 ?_) fun h3 => ?_
    · apply rowPut_keeps; assumption
    apply ih; assumption

theorem rowRetry_keeps {s₀ : State} {s : State} (h₀ : Keeps s₀ s) :
    Keeps s₀ (State.rowRetry s) := by
  unfold State.rowRetry
  extract_lets +onlyGivenNames x0; split; rename_i r1 r2 r3 r4
  refine Keeps.cut s₀ r3 (Keeps.of_snd r4 ?_) fun h5 => ?_
  · apply rowPutAll_keeps; apply Keeps.upd₀; assumption
  apply Keeps.upd₀; assumption

theorem rowDiscard_keeps {s₀ : State} {s : State} (p : RowBuf → Bool) (h₀ : Keeps s₀ s) :
    Keeps s₀ (State.rowDiscard s p) := by
  unfold State.rowDiscard
  extract_lets +onlyGivenNames x0; extract_lets +onlyGivenNames x1; extract_lets +onlyGivenNames x2
  refine Keeps.cut s₀ x2 ?_ fun h3 => ?_
  · unfold x2
    apply Keeps.upd₀; assumption
  clear_value x2; extract_lets +onlyGivenNames x4; refine Keeps.cut s₀ x4 ?_ fun h5 => ?_
  · unfold x4
    apply Keeps.foldl
    · assumption
    intro u6 u7 h8; apply bulkErr_keeps; apply report_keeps; assumption
  clear_value x4; apply Keeps.ite
  · assumption
  apply bellDue_keeps; apply bellDue_keeps; apply rowRetry_keeps; assumption

theorem rowFlush_keeps {s₀ : State} {s : State} (h₀ : Keeps s₀ s) :
    Keeps s₀ (State.rowFlush s) := by
  unfold State.rowFlush
  apply rowDiscard_keeps; assumption

theorem execRowBufferTimeout_keeps {s₀ : State} {s : State} (h₀ : Keeps s₀ s) :
    KeepsOut s₀ (execRowBufferTimeout s) := by
  unfold execRowBufferTimeout
  apply KeepsOut.next; apply rowDiscard_keeps; assumption

theorem ctlRead_keeps {s₀ : State} {s : State} (m : Master) (off : Nat) (h₀ : Keeps s₀ s) :
    Keeps s₀ (State.ctlRead s m off).2 := by
  unfold State.ctlRead
  extract_lets +onlyGivenNames x0; apply Keeps.ite_snd
  · apply regRead_keeps; assumption
  apply Keeps.ite_snd
  · dsimp only; apply setReg_keeps; assumption
  apply Keeps.ite_snd
  · dsimp only; assumption
  apply Keeps.ite_snd
  · extract_lets +onlyGivenNames x1; dsimp only; assumption
  apply Keeps.ite_snd
  · dsimp only; apply setReg_keeps; assumption
  apply regRead_keeps; assumption

theorem regBytes_keeps {s₀ : State} {s : State} (m : Master) (off : Nat) (a1 : Nat) (h₀ : Keeps s₀ s) :
    Keeps s₀ (State.regBytes s m off a1).2 := by
  induction a1 generalizing s m off with
  | zero =>
    unfold State.regBytes
    dsimp only; assumption
  | succ n ih =>
    unfold State.regBytes
    split; rename_i r0 r1 r2 r3; refine Keeps.cut s₀ r2 (Keeps.of_snd r3 ?_) fun h4 => ?_
    · apply ctlRead_keeps; assumption
    split; rename_i r5 r6 r7 r8; refine Keeps.cut s₀ r7 (Keeps.of_snd r8 ?_) fun h9 => ?_
    · apply ih; assumption
    dsimp only; assumption

theorem readRun_keeps {s₀ : State} {s : State} (m : Master) (a : Nat) (n : Nat) (h₀ : Keeps s₀ s) :
    Keeps s₀ (State.readRun s m a n).2.2 := by
  unfold State.readRun
  extract_lets +onlyGivenNames x0; split
  · apply Keeps.ite_snd₂
    · apply Keeps.mk_snd₂; apply holdRead_keeps; assumption
    split
    rename_i r1 r2 r3 r4 r5; refine Keeps.cut s₀ r4 (Keeps.of_snd₂ r5 ?_) fun h6 => ?_
    · apply devRead_keeps; assumption
    apply Keeps.mk_snd₂; assumption
  · split
    · rename_i r7 r8 r9; refine Keeps.cut s₀ r8 (KeepsOpt.of r9 ?_) fun h10 => ?_
      · apply KeepsOpt.ite
        · apply winRead_keeps; assumption
        apply KeepsOpt.none
      apply Keeps.mk_snd₂; assumption
    split
    rename_i r11 r12 r13 r14 r15; refine Keeps.cut s₀ r14 (Keeps.of_snd₂ r15 ?_) fun h16 => ?_
    · apply devRead_keeps; assumption
    apply Keeps.mk_snd₂; assumption
  · apply Keeps.ite_snd₂
    · split
      rename_i r17 r18 r19 r20; refine Keeps.cut s₀ r19 (Keeps.of_snd r20 ?_) fun h21 => ?_
      · apply regBytes_keeps; assumption
      apply Keeps.mk_snd₂; assumption
    apply Keeps.mk_snd₂; apply glbError_keeps; assumption
  split
  rename_i r22 r23 r24 r25 r26; refine Keeps.cut s₀ r25 (Keeps.of_snd₂ r26 ?_) fun h27 => ?_
  · apply devRead_keeps; assumption
  apply Keeps.mk_snd₂; assumption

theorem readRuns_keeps {s₀ : State} (m : Master) (a1 : List (Nat × Nat)) {a2 : State} (h₀ : Keeps s₀ a2) :
    Keeps s₀ (State.readRuns m a1 a2).2.2 := by
  induction a1 generalizing m a2 with
  | nil =>
    unfold State.readRuns
    dsimp only; assumption
  | cons x l ih =>
    unfold State.readRuns
    split; rename_i r0 r1 r2 r3 r4; refine Keeps.cut s₀ r3 (Keeps.of_snd₂ r4 ?_) fun h5 => ?_
    · apply readRun_keeps; assumption
    split; rename_i r6 r7 r8 r9 r10; refine Keeps.cut s₀ r9 (Keeps.of_snd₂ r10 ?_) fun h11 => ?_
    · apply ih; assumption
    dsimp only; assumption

theorem answer_keeps {s₀ : State} {s : State} (m : Master) (l : List (Byte × Bool)) (h₀ : Keeps s₀ s) :
    Keeps s₀ (State.answer s m l) := by
  unfold State.answer
  apply emit_keeps; assumption

theorem answerRuns_keeps {s₀ : State} {s : State} (m : Master) (l : List (Option (List (Byte × Bool)))) (h₀ : Keeps s₀
    s) :
    Keeps s₀ (State.answerRuns s m l) := by
  unfold State.answerRuns
  apply Keeps.ite
  · apply answer_keeps; assumption
  apply Keeps.foldl
  · assumption
  intro u0 u1 h2; split
  · apply answer_keeps; assumption
  assumption

theorem setPtr_keeps {s₀ : State} {s : State} (c : Fin 2) (p : Nat) (h₀ : Keeps s₀ s) :
    Keeps s₀ (State.setPtr s c p) := by
  unfold State.setPtr
  apply setF_keeps; apply setF_keeps; assumption

theorem prefetch_keeps {s₀ : State} {s : State} (m : Master) (old : List (Nat × Byte × Bool)) (a1 : List Nat) (h₀ :
    Keeps s₀ s) :
    Keeps s₀ (State.prefetch s m old a1).1 := by
  induction a1 generalizing s m old with
  | nil =>
    unfold State.prefetch
    dsimp only; assumption
  | cons x l ih =>
    unfold State.prefetch
    split
    · split; rename_i r0 r1 r2 r3; refine Keeps.cut s₀ r1 (Keeps.of_fst r3 ?_) fun h4 => ?_
      · apply ih; assumption
      dsimp only; assumption
    apply Keeps.ite_fst
    · split; rename_i r5 r6 r7 r8 r9; refine Keeps.cut s₀ r8 (Keeps.of_snd₂ r9 ?_) fun h10 => ?_
      · apply devRead_keeps; assumption
      split; rename_i r11 r12 r13 r14; refine Keeps.cut s₀ r12 (Keeps.of_fst r14 ?_) fun h15 => ?_
      · apply ih; assumption
      dsimp only; assumption
    dsimp only; assumption

theorem bulkRead_keeps {s₀ : State} {s : State} (c : Fin 2) (n : Nat) (ahead : Nat) (h₀ : Keeps s₀ s) :
    Keeps s₀ (State.bulkRead s c n ahead).2.2 := by
  unfold State.bulkRead
  extract_lets +onlyGivenNames x0; extract_lets +onlyGivenNames x1; extract_lets +onlyGivenNames x2
  extract_lets +onlyGivenNames x3; extract_lets +onlyGivenNames x4; split; rename_i r5 r6 r7 r8 r9
  refine Keeps.cut s₀ r8 (Keeps.of_snd₂ r9 ?_) fun h10 => ?_
  · apply Keeps.ite_snd₂
    · dsimp only; assumption
    apply readRuns_keeps; assumption
  extract_lets +onlyGivenNames x11; extract_lets +onlyGivenNames x12; refine Keeps.cut s₀ x12 ?_ fun h13 => ?_
  · unfold x12; apply Keeps.ite
    · apply bulkErr_keeps; assumption
    assumption
  clear_value x12; extract_lets +onlyGivenNames x14; extract_lets +onlyGivenNames x15
  extract_lets +onlyGivenNames x16; extract_lets +onlyGivenNames x17; split; rename_i r18 r19 r20 r21
  refine Keeps.cut s₀ r19 (Keeps.of_fst r21 ?_) fun h22 => ?_
  · apply Keeps.ite_fst
    · apply prefetch_keeps; assumption
    dsimp only; assumption
  dsimp only; apply setPtr_keeps; apply setBulk_keeps; assumption

theorem bulkRegNow_keeps {s₀ : State} {s : State} (c : Fin 2) (m : Master) (off : Nat) (v : Nat) (h₀ : Keeps s₀ s) :
    Keeps s₀ (State.bulkRegNow s c m off v) := by
  unfold State.bulkRegNow
  apply regWrite_keeps
  · assumption
  intro u0 h1; extract_lets +onlyGivenNames x2; extract_lets +onlyGivenNames x3
  refine Keeps.cut s₀ x3 ?_ fun h4 => ?_
  · unfold x3; apply setBulk_keeps; assumption
  clear_value x3; apply Keeps.ite
  · apply rowFlush_keeps; assumption
  assumption

theorem bulkRegWrite_keeps {s₀ : State} {s : State} (c : Fin 2) (m : Master) (off : Nat) (v : Word) (h₀ : Keeps s₀ s) :
    Keeps s₀ (State.bulkRegWrite s c m off v) := by
  unfold State.bulkRegWrite
  split
  · rename_i r0 r1 r2; refine Keeps.cut s₀ r1 (KeepsOpt.of r2 ?_) fun h3 => ?_
    · apply refuseWrite_keeps; assumption
    assumption
  extract_lets +onlyGivenNames x4; extract_lets +onlyGivenNames x5; apply Keeps.ite
  · apply setBulk_keeps; assumption
  apply bulkRegNow_keeps; assumption

theorem execBulkPointerWrite_keeps {s₀ : State} (c : Fin 2) (reg : Fin 3) (m : Master) (v : Word) {s : State} (h₀ :
    Keeps s₀ s) :
    KeepsOut s₀ (execBulkPointerWrite c reg m v s) := by
  unfold execBulkPointerWrite
  extract_lets +onlyGivenNames x0; apply KeepsOut.next; apply bulkRegWrite_keeps; assumption

theorem execBulkFlush_keeps {s₀ : State} (c : Fin 2) (m : Master) (v : Word) {s : State} (h₀ : Keeps s₀ s) :
    KeepsOut s₀ (execBulkFlush c m v s) := by
  unfold execBulkFlush
  apply KeepsOut.next; apply bulkRegWrite_keeps; assumption

theorem ringRestart_keeps {s₀ : State} {s : State} (h₀ : Keeps s₀ s) :
    Keeps s₀ (State.ringRestart s) := by
  unfold State.ringRestart
  extract_lets +onlyGivenNames x0; refine Keeps.cut s₀ x0 ?_ fun h1 => ?_
  · unfold x0; apply setF_keeps; apply setF_keeps; apply setF_keeps; assumption
  clear_value x0; extract_lets +onlyGivenNames x2; refine Keeps.cut s₀ x2 ?_ fun h3 => ?_
  · unfold x2; apply setF_keeps; apply setF_keeps; assumption
  clear_value x2; extract_lets +onlyGivenNames x4; extract_lets +onlyGivenNames x5
  refine Keeps.cut s₀ x5 ?_ fun h6 => ?_
  · unfold x5; apply setRing_keeps; assumption
  clear_value x5; apply postHeld_keeps; apply Keeps.upd₀; assumption

theorem ringCtrlWrite_keeps {s₀ : State} {s : State} (b : Fin 2) (m : Master) (v : Word) (h₀ : Keeps s₀ s) :
    Keeps s₀ (State.ringCtrlWrite s b m v) := by
  unfold State.ringCtrlWrite
  apply regWrite_keeps
  · assumption
  intro u0 h1; apply Keeps.ite
  · apply ringRestart_keeps; assumption
  assumption

theorem execRingEnable_keeps {s₀ : State} (b : Fin 2) (m : Master) (v : Word) {s : State} (h₀ : Keeps s₀ s) :
    KeepsOut s₀ (execRingEnable b m v s) := by
  unfold execRingEnable
  apply KeepsOut.next; apply ringCtrlWrite_keeps; assumption

theorem execPowerdownDrainDone_keeps {s₀ : State} {s : State} (h₀ : Keeps s₀ s) :
    KeepsOut s₀ (execPowerdownDrainDone s) := by
  unfold execPowerdownDrainDone
  apply KeepsOut.ite
  · apply KeepsOut.next; apply toStandby_keeps; apply trcPad_keeps; apply rowFlush_keeps; assumption
  apply KeepsOut.next; assumption

end Sys2Proof
end

