-- ==== Sys2Proof/Laws/KeepsSensors.lean ====
section
/-! SUPPORT. `Keeps` of the operations of Sys2Proof/Machine/Sensors.lean. -/

set_option linter.unusedTactic false
set_option linter.unreachableTactic false
set_option linter.tactic.unusedName false
set_option linter.unusedVariables false

namespace Sys2Proof

open Machine

theorem setI2c_keeps {s₀ : State} {s : State} (m : Fin 2) (x : I2cSt) (h₀ : Keeps s₀ s) :
    Keeps s₀ (State.setI2c s m x) := by
  unfold State.setI2c
  apply Keeps.upd₀; assumption

theorem i2cEnd_keeps {s₀ : State} {s : State} (m : Fin 2) (bit : Fld) (d : Nat) (h₀ : Keeps s₀ s) :
    Keeps s₀ (State.i2cEnd s m bit d) := by
  unfold State.i2cEnd
  extract_lets +onlyGivenNames x0; refine Keeps.cut s₀ x0 ?_ fun h1 => ?_
  · unfold x0; apply raiseCause_keeps; apply setF_keeps; apply setF_keeps; assumption
  clear_value x0; apply setI2c_keeps; assumption

theorem i2cBegin_keeps {s₀ : State} {s : State} (m : Fin 2) (frame : Bool) (d : Nat) (sda : Nat) (h₀ : Keeps s₀ s) :
    Keeps s₀ (State.i2cBegin s m frame d sda) := by
  unfold State.i2cBegin
  apply Keeps.ite
  · apply i2cEnd_keeps; assumption
  apply Keeps.ite
  · apply i2cEnd_keeps; assumption
  apply setI2c_keeps; assumption

theorem i2cNext_keeps {s₀ : State} {s : State} (m : Fin 2) (sda : Nat) (h₀ : Keeps s₀ s) :
    Keeps s₀ (State.i2cNext s m sda) := by
  unfold State.i2cNext
  extract_lets +onlyGivenNames x0; extract_lets +onlyGivenNames x1; refine Keeps.cut s₀ x1 ?_ fun h2 => ?_
  · unfold x1
    apply Keeps.ite
    · apply i2cBegin_keeps; apply setI2c_keeps; assumption
    assumption
  clear_value x1; extract_lets +onlyGivenNames x3; apply Keeps.ite
  · assumption
  split
  · apply i2cBegin_keeps; apply setI2c_keeps; assumption
  assumption

theorem i2cCtrlWrite_keeps {s₀ : State} {s : State} (m : Fin 2) (sda : Nat) (mm : Master) (v : Word) (h₀ : Keeps s₀ s) :
    Keeps s₀ (State.i2cCtrlWrite s m sda mm v) := by
  unfold State.i2cCtrlWrite
  apply regWrite_keeps
  · assumption
  intro u0 h1; extract_lets +onlyGivenNames x2; apply Keeps.ite
  · assumption
  apply i2cNext_keeps; apply setI2c_keeps; assumption

theorem execI2cGo_keeps {s₀ : State} (m : Fin 2) (sda : Nat) (mm : Master) (v : Word) {s : State} (h₀ : Keeps s₀ s) :
    KeepsOut s₀ (execI2cGo m sda mm v s) := by
  unfold execI2cGo
  apply KeepsOut.next; apply i2cCtrlWrite_keeps; assumption

theorem execI2cFrameListStart_keeps {s₀ : State} (m : Fin 2) (sda : Nat) {s : State} (h₀ : Keeps s₀ s) :
    KeepsOut s₀ (execI2cFrameListStart m sda s) := by
  unfold execI2cFrameListStart
  extract_lets +onlyGivenNames x0; extract_lets +onlyGivenNames x1; apply KeepsOut.ite
  · apply KeepsOut.next; assumption
  apply KeepsOut.next; apply i2cNext_keeps; apply setI2c_keeps; assumption

theorem i2cDrive_keeps {s₀ : State} {s : State} (m : Nat) (addr : Nat) (wr : List Byte) (reads : Bool) (h₀ : Keeps s₀ s)
    :
    Keeps s₀ (State.i2cDrive s m addr wr reads) := by
  unfold State.i2cDrive
  extract_lets +onlyGivenNames x0; extract_lets +onlyGivenNames x1; refine Keeps.cut s₀ x1 ?_ fun h2 => ?_
  · unfold x1
    apply Keeps.ite
    · assumption
    apply emit_keeps; assumption
  clear_value x1; apply Keeps.ite
  · apply emit_keeps; assumption
  assumption

theorem execI2cDescriptorDone_keeps {s₀ : State} (m : Fin 2) (ack : Bool) (bytes : List Byte) (sda : Nat) {s : State}
    (h₀ : Keeps s₀ s) :
    KeepsOut s₀ (execI2cDescriptorDone m ack bytes sda s) := by
  unfold execI2cDescriptorDone
  extract_lets +onlyGivenNames x0; apply KeepsOut.ite
  · apply KeepsOut.next; assumption
  extract_lets +onlyGivenNames x1; extract_lets +onlyGivenNames x2; extract_lets +onlyGivenNames x3
  refine Keeps.cut s₀ x3 ?_ fun h4 => ?_
  · unfold x3
    apply i2cDrive_keeps; assumption
  clear_value x3; apply KeepsOut.ite
  · apply KeepsOut.next; apply i2cNext_keeps; apply i2cEnd_keeps; assumption
  extract_lets +onlyGivenNames x5; refine Keeps.cut s₀ x5 ?_ fun h6 => ?_
  · unfold x5
    apply Keeps.ite
    · assumption
    apply setReg_keeps; assumption
  clear_value x5; apply KeepsOut.ite
  · apply KeepsOut.next; apply i2cNext_keeps; apply i2cEnd_keeps; assumption
  apply KeepsOut.ite
  · apply KeepsOut.next; apply i2cNext_keeps; apply setI2c_keeps; assumption
  extract_lets +onlyGivenNames x7; refine Keeps.cut s₀ x7 ?_ fun h8 => ?_
  · unfold x7
    apply i2cBegin_keeps; assumption
  clear_value x7; apply KeepsOut.next; apply i2cNext_keeps; assumption

theorem execI2cStretchTimeout_keeps {s₀ : State} (m : Fin 2) (e : I2cStretch) {s : State} (h₀ : Keeps s₀ s) :
    KeepsOut s₀ (execI2cStretchTimeout m e s) := by
  unfold execI2cStretchTimeout
  extract_lets +onlyGivenNames x0; apply KeepsOut.ite
  · apply KeepsOut.next; assumption
  apply KeepsOut.next; apply i2cNext_keeps; apply i2cEnd_keeps; assumption

theorem probeRun_keeps {s₀ : State} {s : State} (res : List (Bool × Byte × Byte)) (h₀ : Keeps s₀ s) :
    Keeps s₀ (State.probeRun s res) := by
  unfold State.probeRun
  extract_lets +onlyGivenNames x0; refine Keeps.cut s₀ x0 ?_ fun h1 => ?_
  · unfold x0
    apply Keeps.foldl
    · assumption
    intro u2 u3 h4; extract_lets +onlyGivenNames x5; extract_lets +onlyGivenNames x6
    refine Keeps.cut s₀ x6 ?_ fun h7 => ?_
    · unfold x6
      apply i2cDrive_keeps; assumption
    clear_value x6; extract_lets +onlyGivenNames x8; extract_lets +onlyGivenNames x9
    refine Keeps.cut s₀ x9 ?_ fun h10 => ?_
    · unfold x9
      apply setF_keeps; apply setF_keeps; assumption
    clear_value x9; apply setF_keeps; assumption
  clear_value x0; apply setF_keeps; assumption

theorem probeCtrlWrite_keeps {s₀ : State} {s : State} (res : List (Bool × Byte × Byte)) (m : Master) (v : Word) (h₀ :
    Keeps s₀ s) :
    Keeps s₀ (State.probeCtrlWrite s res m v) := by
  unfold State.probeCtrlWrite
  apply regWrite_keeps
  · assumption
  intro u0 h1; apply Keeps.ite
  · assumption
  apply Keeps.ite
  · apply setF_keeps; assumption
  apply probeRun_keeps; assumption

theorem execProbeGo_keeps {s₀ : State} (res : List (Bool × Byte × Byte)) (m : Master) (v : Word) {s : State} (h₀ : Keeps
    s₀ s) :
    KeepsOut s₀ (execProbeGo res m v s) := by
  unfold execProbeGo
  apply KeepsOut.next; apply probeCtrlWrite_keeps; assumption

theorem setTrig_keeps {s₀ : State} {s : State} (t : Fin 2) (x : TrigSt) (h₀ : Keeps s₀ s) :
    Keeps s₀ (State.setTrig s t x) := by
  unfold State.setTrig
  apply Keeps.upd₀; assumption

theorem trigPulse_keeps {s₀ : State} {s : State} (t : Fin 2) (w : Nat) (h₀ : Keeps s₀ s) :
    Keeps s₀ (State.trigPulse s t w) := by
  unfold State.trigPulse
  apply setTrig_keeps; assumption

theorem trigWrite_keeps {s₀ : State} {s : State} (t : Fin 2) (m : Master) (v : Word) (h₀ : Keeps s₀ s) :
    Keeps s₀ (State.trigWrite s t m v) := by
  unfold State.trigWrite
  apply regWrite_keeps
  · assumption
  intro u0 h1; apply Keeps.ite
  · apply trigPulse_keeps; assumption
  assumption

theorem execTrigFire_keeps {s₀ : State} (t : Fin 2) (m : Master) (v : Word) {s : State} (h₀ : Keeps s₀ s) :
    KeepsOut s₀ (execTrigFire t m v s) := by
  unfold execTrigFire
  apply KeepsOut.next; apply trigWrite_keeps; assumption

theorem execTriggerEdge_keeps {s₀ : State} (t : Fin 2) {s : State} (h₀ : Keeps s₀ s) :
    KeepsOut s₀ (execTriggerEdge t s) := by
  unfold execTriggerEdge
  extract_lets +onlyGivenNames x0; split
  · apply KeepsOut.next; assumption
  apply KeepsOut.ite
  · apply KeepsOut.next; apply trigPulse_keeps; apply setTrig_keeps; assumption
  apply KeepsOut.next; assumption

theorem execTriggerPulseEnd_keeps {s₀ : State} (t : Fin 2) {s : State} (h₀ : Keeps s₀ s) :
    KeepsOut s₀ (execTriggerPulseEnd t s) := by
  unfold execTriggerPulseEnd
  extract_lets +onlyGivenNames x0; apply KeepsOut.ite
  · apply KeepsOut.next; apply setTrig_keeps; assumption
  apply KeepsOut.next; assumption

theorem execRstRelease_keeps {s₀ : State} (m : Master) (v : Word) {s : State} (h₀ : Keeps s₀ s) :
    KeepsOut s₀ (execRstRelease m v s) := by
  unfold execRstRelease
  apply KeepsOut.next; apply regWrite_keeps
  · assumption
  intro u0 h1; unfold id; assumption

end Sys2Proof
end

