-- ==== Sys2Proof/Laws/KeepsRegActions.lean ====
section
/-! SUPPORT. `Keeps` of the operations of Sys2Proof/Machine/RegActions.lean. -/

set_option linter.unusedTactic false
set_option linter.unreachableTactic false
set_option linter.tactic.unusedName false
set_option linter.unusedVariables false

namespace Sys2Proof

open Machine

theorem plainWrite_keeps {s₀ : State} {s : State} (m : Master) (off : Nat) (v : Word) (h₀ : Keeps s₀ s) :
    Keeps s₀ (State.plainWrite s m off v) := by
  unfold State.plainWrite
  apply regWrite_keeps
  · assumption
  intro u0 h1; unfold id; assumption

theorem pwrWrite_keeps {s₀ : State} {s : State} (m : Master) (off : Nat) (v : Word) (h₀ : Keeps s₀ s) :
    Keeps s₀ (State.pwrWrite s m off v) := by
  unfold State.pwrWrite
  apply Keeps.ite
  · apply pwrDevWrite_keeps; assumption
  apply Keeps.ite
  · apply regWrite_keeps
    · assumption
    intro u0 h1; apply Keeps.forCores
    · assumption
    intro u2 u3 h4; apply Keeps.ite
    · apply setF_keeps; assumption
    assumption
  split
  · apply pwrIslWrite_keeps; assumption
  apply plainWrite_keeps; assumption

theorem timeWrite_keeps {s₀ : State} {s : State} (m : Master) (off : Nat) (v : Word) (h₀ : Keeps s₀ s) :
    Keeps s₀ (State.timeWrite s m off v) := by
  unfold State.timeWrite
  apply Keeps.ite
  · apply timeCtrlWrite_keeps; assumption
  apply Keeps.ite
  · apply stCtrlWrite_keeps; assumption
  apply Keeps.ite
  · apply dxCtrlWrite_keeps; assumption
  apply Keeps.ite
  · apply dxClrWrite_keeps; assumption
  apply Keeps.ite
  · apply digCtrlWrite_keeps; assumption
  split
  · extract_lets +onlyGivenNames x0; apply regWrite_keeps
    · assumption
    intro u1 h2; apply fsgCtrlAct_keeps; assumption
  apply plainWrite_keeps; assumption

theorem hostWrite_keeps {s₀ : State} {s : State} (m : Master) (off : Nat) (v : Word) (h₀ : Keeps s₀ s) :
    Keeps s₀ (State.hostWrite s m off v) := by
  unfold State.hostWrite
  apply Keeps.ite
  · apply imaskWrite_keeps; assumption
  apply Keeps.ite
  · apply raiseCause_keeps; apply setReg_keeps; assumption
  extract_lets +onlyGivenNames x0; apply Keeps.ite
  · apply plainWrite_keeps; assumption
  apply Keeps.ite
  · apply sqTailWrite_keeps; assumption
  apply Keeps.ite
  · apply cqHeadWrite_keeps; assumption
  apply Keeps.ite
  · apply ringCtrlWrite_keeps; assumption
  apply Keeps.ite
  · apply bulkRegWrite_keeps; assumption
  apply plainWrite_keeps; assumption

theorem inCtxWrite_keeps {s₀ : State} {s : State} (n : Nat) (m : Master) (v : Word) (h₀ : Keeps s₀ s) :
    Keeps s₀ (State.inCtxWrite s n m v) := by
  unfold State.inCtxWrite
  extract_lets +onlyGivenNames x0; extract_lets +onlyGivenNames x1; extract_lets +onlyGivenNames x2; apply Keeps.ite
  · apply plainWrite_keeps; assumption
  extract_lets +onlyGivenNames x3; apply regWrite_keeps
  · assumption
  intro u4 h5; apply glbError_keeps; assumption

theorem inWrite_keeps {s₀ : State} {s : State} (e : WriteEnv) (m : Master) (off : Nat) (v : Word) (h₀ : Keeps s₀ s) :
    Keeps s₀ (State.inWrite s e m off v) := by
  unfold State.inWrite
  apply Keeps.ite
  · apply defTableWrite_keeps; assumption
  apply Keeps.ite
  · apply defCtrlWrite_keeps; assumption
  apply Keeps.ite
  · apply probeCtrlWrite_keeps; assumption
  split
  · apply inCtxWrite_keeps; assumption
  · apply inReleaseWrite_keeps; assumption
  · apply inTapReleaseWrite_keeps; assumption
  · apply i2cCtrlWrite_keeps; assumption
  · apply trigWrite_keeps; assumption
  apply plainWrite_keeps; assumption

theorem ofWrite_keeps {s₀ : State} {s : State} (m : Master) (off : Nat) (v : Word) (h₀ : Keeps s₀ s) :
    Keeps s₀ (State.ofWrite s m off v) := by
  unfold State.ofWrite
  apply Keeps.ite
  · apply txSenseWrite_keeps; assumption
  apply Keeps.ite
  · apply txCfgWrite_keeps; assumption
  split
  · apply regWrite_keeps
    · assumption
    intro u0 h1; apply ofCfgAct_keeps; assumption
  · apply ofCtrlWrite_keeps; assumption
  · apply ofTapReleaseWrite_keeps; assumption
  apply plainWrite_keeps; assumption

theorem fltWrite_keeps {s₀ : State} {s : State} (m : Master) (off : Nat) (v : Word) (h₀ : Keeps s₀ s) :
    Keeps s₀ (State.fltWrite s m off v) := by
  unfold State.fltWrite
  split
  · apply fltCoreWrite_keeps; assumption
  apply Keeps.ite
  · apply regWrite_keeps
    · assumption
    intro u0 h1; apply showRing_keeps; assumption
  apply plainWrite_keeps; assumption

theorem secWrite_keeps {s₀ : State} {s : State} (e : WriteEnv) (m : Master) (off : Nat) (v : Word) (h₀ : Keeps s₀ s) :
    Keeps s₀ (State.secWrite s e m off v) := by
  unfold State.secWrite
  apply Keeps.ite
  · apply secResetWrite_keeps; assumption
  apply Keeps.ite
  · apply wdogWrite_keeps; assumption
  apply Keeps.ite
  · apply tokenWrite_keeps; assumption
  apply Keeps.ite
  · apply stageWrite_keeps; assumption
  apply Keeps.ite
  · apply fuseWrite_keeps; assumption
  apply Keeps.ite
  · apply fuseDataWrite_keeps; assumption
  split
  · apply tokenPut_keeps; assumption
  apply plainWrite_keeps; assumption

theorem trcWrite_keeps {s₀ : State} {s : State} (m : Master) (off : Nat) (v : Word) (h₀ : Keeps s₀ s) :
    Keeps s₀ (State.trcWrite s m off v) := by
  unfold State.trcWrite
  apply Keeps.ite
  · apply trcCtrlWrite_keeps; assumption
  apply Keeps.ite
  · apply regWrite_keeps
    · assumption
    intro u0 h1; apply setF_keeps; assumption
  apply plainWrite_keeps; assumption

theorem lnkWrite_keeps {s₀ : State} {s : State} (m : Master) (off : Nat) (v : Word) (h₀ : Keeps s₀ s) :
    Keeps s₀ (State.lnkWrite s m off v) := by
  unfold State.lnkWrite
  split
  · apply lnkCtrlWrite_keeps; assumption
  apply Keeps.ite
  · apply regWrite_keeps
    · assumption
    intro u0 h1; apply lnkCfgAct_keeps; assumption
  apply plainWrite_keeps; assumption

theorem coreWrite_keeps {s₀ : State} {s : State} (m : Master) (off : Nat) (v : Word) (h₀ : Keeps s₀ s) :
    Keeps s₀ (State.coreWrite s m off v) := by
  unfold State.coreWrite
  extract_lets +onlyGivenNames x0; apply Keeps.ite
  · apply coreCtrlWrite_keeps; assumption
  apply Keeps.ite
  · apply spClrWrite_keeps; assumption
  apply Keeps.ite
  · apply ckCtrlWrite_keeps; assumption
  apply Keeps.ite
  · apply digGoWrite_keeps; assumption
  apply Keeps.ite
  · apply notMine_keeps; assumption
  apply plainWrite_keeps; assumption

theorem ctlWrite_keeps {s₀ : State} {s : State} (e : WriteEnv) (m : Master) (off : Nat) (v : Word) (h₀ : Keeps s₀ s) :
    Keeps s₀ (State.ctlWrite s e m off v) := by
  unfold State.ctlWrite
  split
  · apply pwrWrite_keeps; assumption
  · apply timeWrite_keeps; assumption
  · apply hostWrite_keeps; assumption
  · apply inWrite_keeps; assumption
  · apply ofWrite_keeps; assumption
  · apply Keeps.ite
    · apply edgeCtrlWrite_keeps; assumption
    apply plainWrite_keeps; assumption
  · apply Keeps.ite
    · apply cofCtrlWrite_keeps; assumption
    apply plainWrite_keeps; assumption
  · apply fltWrite_keeps; assumption
  · apply secWrite_keeps; assumption
  · apply trcWrite_keeps; assumption
  · apply lnkWrite_keeps; assumption
  · apply Keeps.ite
    · apply brgCtrlWrite_keeps; assumption
    apply plainWrite_keeps; assumption
  · apply plainWrite_keeps; assumption
  · apply plainWrite_keeps; assumption
  · apply plainWrite_keeps; assumption
  apply Keeps.ite
  · apply coreWrite_keeps; assumption
  assumption

theorem accWrite_keeps {s₀ : State} {s : State} (e : WriteEnv) (w : RegWrite) (h₀ : Keeps s₀ s) :
    Keeps s₀ (State.accWrite s e w) := by
  unfold State.accWrite
  apply Keeps.ite
  · apply ctlWrite_keeps; assumption
  apply Keeps.ite
  · apply ctlWrite_keeps; apply ctlWrite_keeps; assumption
  apply Keeps.ite
  · apply glbError_keeps; assumption
  assumption

theorem accRead_keeps {s₀ : State} {s : State} (m : Master) (off : Nat) (width : Nat) (h₀ : Keeps s₀ s) :
    Keeps s₀ (State.accRead s m off width).2 := by
  unfold State.accRead
  apply Keeps.ite_snd
  · split; rename_i r0 r1 r2 r3; refine Keeps.cut s₀ r2 (Keeps.of_snd r3 ?_) fun h4 => ?_
    · apply ctlRead_keeps; assumption
    split; rename_i r5 r6 r7 r8; refine Keeps.cut s₀ r7 (Keeps.of_snd r8 ?_) fun h9 => ?_
    · apply ctlRead_keeps; assumption
    dsimp only; assumption
  apply Keeps.ite_snd
  · split; rename_i r10 r11 r12 r13; refine Keeps.cut s₀ r12 (Keeps.of_snd r13 ?_) fun h14 => ?_
    · apply ctlRead_keeps; assumption
    dsimp only; assumption
  dsimp only; apply glbError_keeps; assumption

theorem cycleWrites_keeps {s₀ : State} (e : WriteEnv) (a1 : List RegWrite) (a2 : List (Nat × Nat)) {a3 : State} (h₀ :
    Keeps s₀ a3) :
    Keeps s₀ (State.cycleWrites e a1 a2 a3) := by
  induction a1 generalizing e a2 a3 with
  | nil =>
    unfold State.cycleWrites
    assumption
  | cons x l ih =>
    unfold State.cycleWrites
    extract_lets +onlyGivenNames x0; extract_lets +onlyGivenNames x1; extract_lets +onlyGivenNames x2
    extract_lets +onlyGivenNames x3; extract_lets +onlyGivenNames x4; refine Keeps.cut s₀ x4 ?_ fun h5 => ?_
    · unfold x4
      apply Keeps.ite
      · assumption
      apply accWrite_keeps; assumption
    clear_value x4; apply ih; assumption

theorem execRegisterWrite_keeps {s₀ : State} (e : WriteEnv) (l : List RegWrite) {s : State} (h₀ : Keeps s₀ s) :
    KeepsOut s₀ (execRegisterWrite e l s) := by
  unfold execRegisterWrite
  extract_lets +onlyGivenNames x0; extract_lets +onlyGivenNames x1; refine Keeps.cut s₀ x1 ?_ fun h2 => ?_
  · unfold x1
    apply cycleWrites_keeps; assumption
  clear_value x1; apply KeepsOut.next; apply Keeps.ite
  · apply glbError_keeps; assumption
  assumption

theorem execRegisterRead_keeps {s₀ : State} (m : Master) (off : Nat) (width : Nat) {s : State} (h₀ : Keeps s₀ s) :
    KeepsOut s₀ (execRegisterRead m off width s) := by
  unfold execRegisterRead
  split; rename_i r0 r1 r2 r3; refine Keeps.cut s₀ r2 (Keeps.of_snd r3 ?_) fun h4 => ?_
  · apply accRead_keeps; assumption
  apply KeepsOut.next; apply emit_keeps; assumption

theorem execTimeNowLoRead_keeps {s₀ : State} (m : Master) {s : State} (h₀ : Keeps s₀ s) :
    KeepsOut s₀ (execTimeNowLoRead m s) := by
  unfold execTimeNowLoRead
  split; rename_i r0 r1 r2 r3; refine Keeps.cut s₀ r2 (Keeps.of_snd r3 ?_) fun h4 => ?_
  · apply ctlRead_keeps; assumption
  apply KeepsOut.next; apply emit_keeps; assumption

theorem execDigResLoRead_keeps {s₀ : State} (k : Fin 8) (m : Master) {s : State} (h₀ : Keeps s₀ s) :
    KeepsOut s₀ (execDigResLoRead k m s) := by
  unfold execDigResLoRead
  split; rename_i r0 r1 r2 r3; refine Keeps.cut s₀ r2 (Keeps.of_snd r3 ?_) fun h4 => ?_
  · apply ctlRead_keeps; assumption
  apply KeepsOut.next; apply emit_keeps; assumption

theorem execHostMboxIn_keeps {s₀ : State} (l : List (Master × Word)) {s : State} (h₀ : Keeps s₀ s) :
    KeepsOut s₀ (execHostMboxIn l s) := by
  unfold execHostMboxIn
  extract_lets +onlyGivenNames x0; extract_lets +onlyGivenNames x1; refine Keeps.cut s₀ x1 ?_ fun h2 => ?_
  · unfold x1; apply Keeps.foldl
    · assumption
    intro u3 u4 h5; apply plainWrite_keeps; assumption
  clear_value x1; apply KeepsOut.next; apply Keeps.ite
  · apply glbError_keeps; assumption
  assumption

theorem withinAft_keeps {s₀ : State} {s : State} (f : State → State) (h₀ : Keeps s₀ s) (h_f : ∀ a0, Keeps s₀ a0 → Keeps
    s₀ (f a0)) :
    Keeps s₀ (State.withinAft s f) := by
  unfold State.withinAft
  apply Keeps.ite
  · apply h_f; assumption
  apply setF_keeps; apply h_f; apply setF_keeps; assumption

theorem crWrite_keeps {s₀ : State} {s : State} (e : WriteEnv) (off : Nat) (v : Word) (h₀ : Keeps s₀ s) :
    Keeps s₀ (State.crWrite s e off v) := by
  unfold State.crWrite
  apply Keeps.ite
  · apply plainWrite_keeps; assumption
  apply ctlWrite_keeps; assumption

theorem execControlRegisterAnswer_keeps {s₀ : State} (k : Fin 8) (x : Fin 3) (e : WriteEnv) {s : State} (h₀ : Keeps s₀
    s) :
    KeepsOut s₀ (execControlRegisterAnswer k x e s) := by
  unfold execControlRegisterAnswer
  extract_lets +onlyGivenNames x0; split
  · apply KeepsOut.next; assumption
  extract_lets +onlyGivenNames x1; apply KeepsOut.ite
  · apply KeepsOut.next; assumption
  extract_lets +onlyGivenNames x2; refine Keeps.cut s₀ x2 ?_ fun h3 => ?_
  · unfold x2
    apply setCtx_keeps; assumption
  clear_value x2; extract_lets +onlyGivenNames x4; refine Keeps.cut s₀ x4 ?_ fun h5 => ?_
  · unfold x4
    apply Keeps.ite
    · apply regOp_keeps; apply Keeps.ite
      · apply withinAft_keeps
        · assumption
        intro u6 h7; apply ctlWrite_keeps; assumption
      apply crWrite_keeps; assumption
    split
    rename_i r8 r9 r10 r11; refine Keeps.cut s₀ r10 (Keeps.of_snd r11 ?_) fun h12 => ?_
    · apply Keeps.ite_snd
      · apply Keeps.mk_snd; assumption
      apply ctlRead_keeps; assumption
    apply regOp_keeps; assumption
  clear_value x4; apply KeepsOut.next; apply takeHalt_keeps; assumption

theorem execRemoteRegisterAccess_keeps {s₀ : State} (b : LinkSet) (e : WriteEnv) {s : State} (h₀ : Keeps s₀ s)
    :
    KeepsOut s₀ (execRemoteRegisterAccess b e s) := by
  unfold execRemoteRegisterAccess
  split
  · apply KeepsOut.next; assumption
  rename_i r0 r1 r2 r3; refine Keeps.cut s₀ r2 (KeepsOptSnd.of r3 ?_) fun h4 => ?_
  · apply takeMsg_keeps; assumption
  apply KeepsOut.ite
  · apply KeepsOut.next; assumption
  apply KeepsOut.ite
  · apply KeepsOut.next; apply partnerCaps_keeps; assumption
  extract_lets +onlyGivenNames x5; extract_lets +onlyGivenNames x6; extract_lets +onlyGivenNames x7
  apply KeepsOut.ite
  · extract_lets +onlyGivenNames x9; extract_lets +onlyGivenNames x10; refine Keeps.cut s₀ x10 ?_ fun h11 => ?_
    · unfold x10
      apply reportAft_keeps; assumption
    clear_value x10; apply KeepsOut.next
    unfold x7
    extract_lets +onlyGivenNames x12; apply Keeps.getD
    · assumption
    apply linkSend_keeps; assumption
  apply KeepsOut.ite
  · apply KeepsOut.next; assumption
  apply KeepsOut.ite
  · apply KeepsOut.next
    unfold x7
    extract_lets +onlyGivenNames x13; apply Keeps.getD
    · apply ctlWrite_keeps; assumption
    apply linkSend_keeps; apply ctlWrite_keeps; assumption
  split
  rename_i r14 r15 r16 r17; refine Keeps.cut s₀ r16 (Keeps.of_snd r17 ?_) fun h18 => ?_
  · apply ctlRead_keeps; assumption
  apply KeepsOut.next
  unfold x7
  extract_lets +onlyGivenNames x19; apply Keeps.getD
  · assumption
  apply linkSend_keeps; assumption

end Sys2Proof
end

