-- ==== Sys2Proof/Laws/KeepsBoot.lean ====
section
/-! SUPPORT. `Keeps` of the operations of Sys2Proof/Machine/Boot.lean. -/

set_option linter.unusedTactic false
set_option linter.unreachableTactic false
set_option linter.tactic.unusedName false
set_option linter.unusedVariables false

namespace Sys2Proof

open Machine

theorem dark_keeps {s₀ s : State} (torn : Bool) (h₀ : Keeps s₀ s) : Keeps s₀ (State.dark s torn) := by
  unfold State.dark
  extract_lets +onlyGivenNames y x
  have h : Keeps s₀ x := by
    unfold x; apply Keeps.ite
    · apply Keeps.upd₀; assumption
    apply stoCut_keeps; assumption
  clear_value x
  exact h.trans (.of rfl rfl (Nat.le_refl _) (List.suffix_refl _)
    (fun w => ⟨rfl, rfl, rfl, rfl, rfl, w.hostMem, w.fuses, rfl, reset_core_wf⟩) rfl)

theorem execAonPowerLoss_keeps {s₀ : State} (torn : Bool) {s : State} (h₀ : Keeps s₀ s) :
    KeepsOut s₀ (execAonPowerLoss torn s) := by
  unfold execAonPowerLoss
  apply KeepsOut.ite
  · apply KeepsOut.next; assumption
  apply KeepsOut.next; apply dark_keeps; assumption

theorem execPowerOn_keeps {s₀ : State} (strap : Nat) {s : State} (h₀ : Keeps s₀ s) :
    KeepsOut s₀ (execPowerOn strap s) := by
  unfold execPowerOn
  apply KeepsOut.ite
  · apply KeepsOut.next; assumption
  extract_lets +onlyGivenNames x0; extract_lets +onlyGivenNames x1; refine Keeps.cut s₀ x1 ?_ fun h2 => ?_
  · unfold x1; refine Keeps.upd ?_ rfl rfl (Nat.le_refl _); assumption
  clear_value x1; apply KeepsOut.next; apply gradeLimits_keeps; apply showFuses_keeps; apply setF_keeps; assumption

theorem execColdReset_keeps {s₀ : State} (strap : Nat) (temps : List Int) {s : State} (h₀ : Keeps s₀ s) :
    KeepsOut s₀ (execColdReset strap temps s) := by
  unfold execColdReset
  extract_lets +onlyGivenNames x0; apply KeepsOut.ite
  · apply KeepsOut.next; assumption
  extract_lets +onlyGivenNames x1; refine Keeps.cut s₀ x1 ?_ fun h2 => ?_
  · unfold x1; apply coldClear_keeps; assumption
  clear_value x1; extract_lets +onlyGivenNames x3; extract_lets +onlyGivenNames x4
  refine Keeps.cut s₀ x4 ?_ fun h5 => ?_
  · unfold x4; apply Keeps.ite
    · apply setF_keeps; apply Keeps.upd₀; assumption
    assumption
  clear_value x4; apply KeepsOut.next; apply toBoot_keeps; assumption

theorem execResetNShortPulse_keeps {s₀ : State} {s : State} (h₀ : Keeps s₀ s) :
    KeepsOut s₀ (execResetNShortPulse s) := by
  unfold execResetNShortPulse
  apply KeepsOut.next; assumption

theorem boardOne_keeps {s₀ : State} {s : State} (e : WriteEnv) (off : Nat) (v : Nat) (h₀ : Keeps s₀ s) :
    Keeps s₀ (State.boardOne s e off v) := by
  unfold State.boardOne
  extract_lets +onlyGivenNames x0; apply Keeps.ite
  · apply bump_keeps; assumption
  extract_lets +onlyGivenNames x1; extract_lets +onlyGivenNames x2; refine Keeps.cut s₀ x2 ?_ fun h3 => ?_
  · unfold x2; apply ctlWrite_keeps; apply setReg_keeps; assumption
  clear_value x2; apply Keeps.ite
  · assumption
  extract_lets +onlyGivenNames x4; extract_lets +onlyGivenNames x5; refine Keeps.cut s₀ x5 ?_ fun h6 => ?_
  · unfold x5; apply setReg_keeps; assumption
  clear_value x5; apply Keeps.ite
  · apply bump_keeps; assumption
  assumption

theorem boardApply_keeps {s₀ : State} (e : WriteEnv) (step : Nat) (a1 : List (Nat × Nat)) {a2 : State} (h₀ : Keeps s₀
    a2) :
    Keeps s₀ (State.boardApply e step a1 a2) := by
  induction a1 generalizing e step a2 with
  | nil =>
    unfold State.boardApply
    assumption
  | cons x l ih =>
    unfold State.boardApply
    apply Keeps.ite
    · apply ih; apply boardOne_keeps; assumption
    assumption

theorem boardGroup_keeps {s₀ : State} {s : State} (e : WriteEnv) (p : Nat → Bool) (h₀ : Keeps s₀ s) :
    Keeps s₀ (State.boardGroup s e p) := by
  unfold State.boardGroup
  apply boardApply_keeps; assumption

theorem takePins_keeps {s₀ : State} {s : State} (h₀ : Keeps s₀ s) :
    Keeps s₀ (State.takePins s) := by
  unfold State.takePins
  extract_lets +onlyGivenNames x0; extract_lets +onlyGivenNames x1; extract_lets +onlyGivenNames x2
  extract_lets +onlyGivenNames x3; refine Keeps.cut s₀ x3 ?_ fun h4 => ?_
  · unfold x3; apply setForce_keeps; assumption
  clear_value x3; extract_lets +onlyGivenNames x5; refine Keeps.cut s₀ x5 ?_ fun h6 => ?_
  · unfold x5; apply Keeps.ite
    · apply glbError_keeps; assumption
    assumption
  clear_value x5; apply showPins_keeps; assumption

theorem bootFail_keeps {s₀ : State} {s : State} (code : Nat) (h₀ : Keeps s₀ s) :
    Keeps s₀ (State.bootFail s code) := by
  unfold State.bootFail
  extract_lets +onlyGivenNames x0; refine Keeps.cut s₀ x0 ?_ fun h1 => ?_
  · unfold x0; apply setF_keeps; assumption
  clear_value x0; extract_lets +onlyGivenNames x2; refine Keeps.cut s₀ x2 ?_ fun h3 => ?_
  · unfold x2; apply Keeps.forCores
    · assumption
    intro u4 u5 h6; apply setF_keeps; assumption
  clear_value x2; extract_lets +onlyGivenNames x7; refine Keeps.cut s₀ x7 ?_ fun h8 => ?_
  · unfold x7; apply setF_keeps; assumption
  clear_value x7; apply Keeps.upd₀; assumption

theorem atStep_keeps {s₀ : State} {s : State} (n : Nat) (h₀ : Keeps s₀ s) :
    Keeps s₀ (State.atStep s n) := by
  unfold State.atStep
  apply setF_keeps; assumption

theorem showKey_keeps {s₀ : State} {s : State} (h₀ : Keeps s₀ s) :
    Keeps s₀ (State.showKey s) := by
  unfold State.showKey
  extract_lets +onlyGivenNames x0; refine Keeps.cut s₀ x0 ?_ fun h1 => ?_
  · unfold x0; apply Keeps.foldl
    · assumption
    intro u2 u3 h4; apply setF_keeps; assumption
  clear_value x0; extract_lets +onlyGivenNames x5; apply setF_keeps; apply setF_keeps; assumption

theorem endSelfCheck_keeps {s₀ : State} {s : State} (h₀ : Keeps s₀ s) :
    Keeps s₀ (State.endSelfCheck s) := by
  unfold State.endSelfCheck
  extract_lets +onlyGivenNames x0; refine Keeps.cut s₀ x0 ?_ fun h1 => ?_
  · unfold x0; apply showKey_keeps; apply showFuses_keeps; assumption
  clear_value x0; apply Keeps.ite
  · apply startRom_keeps; assumption
  extract_lets +onlyGivenNames x2; refine Keeps.cut s₀ x2 ?_ fun h3 => ?_
  · unfold x2; apply tamperBoot_keeps; assumption
  clear_value x2; apply Keeps.ite
  · apply setF_keeps; apply Keeps.foldl
    · assumption
    intro u4 u5 h6; apply setF_keeps; apply draw_keeps; assumption
  assumption

theorem startRails_keeps {s₀ : State} {s : State} (e : WriteEnv) (image : List Byte) (h₀ : Keeps s₀ s) :
    Keeps s₀ (State.startRails s e image) := by
  unfold State.startRails
  extract_lets +onlyGivenNames x0; extract_lets +onlyGivenNames x1; refine Keeps.cut s₀ x1 ?_ fun h2 => ?_
  · unfold x1; refine Keeps.upd ?_ rfl rfl (Nat.le_refl _); assumption
  extract_lets +onlyGivenNames x3; refine Keeps.cut s₀ x3 ?_ fun h4 => ?_
  · unfold x3; apply boardGroup_keeps; apply atStep_keeps; assumption
  apply Keeps.ite
  · apply takePins_keeps; apply probeRun_keeps; assumption
  assumption

theorem endRom_keeps {s₀ : State} {s : State} (e : WriteEnv) (h₀ : Keeps s₀ s) :
    Keeps s₀ (State.endRom s e) := by
  unfold State.endRom
  apply Keeps.ite
  · assumption
  apply Keeps.ite
  · apply startRails_keeps; assumption
  apply Keeps.ite
  · split
    · apply startRails_keeps; assumption
    apply Keeps.ite
    · apply bootFail_keeps; assumption
    apply setF_keeps; refine Keeps.upd ?_ rfl rfl (Nat.le_refl _); assumption
  assumption

theorem mount_keeps {s₀ : State} {s : State} (h₀ : Keeps s₀ s) :
    Keeps s₀ (State.mount s) := by
  unfold State.mount
  extract_lets +onlyGivenNames x0; refine Keeps.cut s₀ x0 ?_ fun h1 => ?_
  · unfold x0; apply setF_keeps; assumption
  clear_value x0; apply Keeps.ite
  · apply showStore_keeps; assumption
  apply showStore_keeps; apply setF_keeps; apply Keeps.upd₀; assumption

theorem endSecure_keeps {s₀ : State} {s : State} (e : WriteEnv) (h₀ : Keeps s₀ s) :
    Keeps s₀ (State.endSecure s e) := by
  unfold State.endSecure
  extract_lets +onlyGivenNames x0; refine Keeps.cut s₀ x0 ?_ fun h1 => ?_
  · unfold x0; apply acceptSvn_keeps; assumption
  clear_value x0; extract_lets +onlyGivenNames x2; extract_lets +onlyGivenNames x3
  refine Keeps.cut s₀ x3 ?_ fun h4 => ?_
  · unfold x3; apply setF_keeps; apply setF_keeps; apply setF_keeps; assumption
  clear_value x3; extract_lets +onlyGivenNames x5; refine Keeps.cut s₀ x5 ?_ fun h6 => ?_
  · unfold x5; apply setF_keeps; apply setF_keeps; assumption
  clear_value x5; extract_lets +onlyGivenNames x7; refine Keeps.cut s₀ x7 ?_ fun h8 => ?_
  · unfold x7; apply setReg_keeps; assumption
  clear_value x7; extract_lets +onlyGivenNames x9; refine Keeps.cut s₀ x9 ?_ fun h10 => ?_
  · unfold x9; apply setReg_keeps; assumption
  clear_value x9; extract_lets +onlyGivenNames x11; refine Keeps.cut s₀ x11 ?_ fun h12 => ?_
  · unfold x11; apply takeForces_keeps; assumption
  clear_value x11; extract_lets +onlyGivenNames x13; refine Keeps.cut s₀ x13 ?_ fun h14 => ?_
  · unfold x13; apply Keeps.upd₀; assumption
  clear_value x13; apply boardGroup_keeps; apply atStep_keeps; apply setF_keeps; apply mount_keeps; assumption

theorem powerUp_keeps {s₀ : State} (k : Fin 8) {s : State} (h₀ : Keeps s₀ s) :
    Keeps s₀ (State.powerUp k s) := by
  unfold State.powerUp
  split
  rename_i r0 r1 r2 r3; refine Keeps.cut s₀ r2 (Keeps.of_snd r3 ?_) fun h4 => ?_
  · apply draw_keeps; assumption
  split
  rename_i r5 r6 r7 r8; refine Keeps.cut s₀ r7 (Keeps.of_snd r8 ?_) fun h9 => ?_
  · apply draw_keeps; assumption
  extract_lets +onlyGivenNames x10; extract_lets +onlyGivenNames x11; extract_lets +onlyGivenNames x12
  extract_lets +onlyGivenNames x13; refine Keeps.cut s₀ x13 ?_ fun h14 => ?_
  · unfold x13
    apply Keeps.ite
    · apply setF_keeps; assumption
    assumption
  clear_value x13; extract_lets +onlyGivenNames x15; refine Keeps.cut s₀ x15 ?_ fun h16 => ?_
  · unfold x15
    apply Keeps.ite
    · apply takeForce_keeps; apply setF_keeps; assumption
    assumption
  clear_value x15; extract_lets +onlyGivenNames x17; refine Keeps.cut s₀ x17 ?_ fun h18 => ?_
  · unfold x17
    apply setF_keeps; apply setIsl_keeps; assumption
  clear_value x17; extract_lets +onlyGivenNames x19; refine Keeps.cut s₀ x19 ?_ fun h20 => ?_
  · unfold x19
    apply setF_keeps; apply setF_keeps; assumption
  clear_value x19; extract_lets +onlyGivenNames x21; refine CoreOk.cut s₀ x21 ?_ fun h22 => ?_
  · unfold x21
    apply Keeps.core; assumption
  clear_value x21; extract_lets +onlyGivenNames x23; refine Keeps.cut s₀ x23 ?_ fun h24 => ?_
  · unfold x23
    apply Keeps.setCore
    · assumption
    apply CoreOk.upd; assumption
  clear_value x23; extract_lets +onlyGivenNames x25; refine Keeps.cut s₀ x25 ?_ fun h26 => ?_
  · unfold x25
    apply Keeps.ite
    · apply setF_keeps; assumption
    assumption
  clear_value x25; extract_lets +onlyGivenNames x27; refine CoreOk.cut s₀ x27 ?_ fun h28 => ?_
  · unfold x27
    apply Keeps.core; assumption
  clear_value x27; extract_lets +onlyGivenNames x29; refine Keeps.cut s₀ x29 ?_ fun h30 => ?_
  · unfold x29
    apply Keeps.ite
    · apply staleOnCore_keeps; apply reportAft_keeps; apply setF_keeps; apply Keeps.setCore
      · assumption
      apply CoreOk.upd; assumption
    assumption
  clear_value x29; apply Keeps.ite
  · apply setF_keeps; assumption
  assumption

theorem startInit_keeps {s₀ : State} (k : Fin 8) {s : State} (h₀ : Keeps s₀ s) :
    Keeps s₀ (State.startInit k s) := by
  unfold State.startInit
  apply setF_keeps; apply Keeps.setCore
  · assumption
  extract_lets +onlyGivenNames x0; refine CoreOk.cut s₀ x0 ?_ fun h1 => ?_
  · unfold x0; apply Keeps.core; assumption
  clear_value x0; apply CoreOk.upd; assumption

theorem endAft_keeps {s₀ : State} {s : State} (e : WriteEnv) (h₀ : Keeps s₀ s) :
    Keeps s₀ (State.endAft s e) := by
  unfold State.endAft
  extract_lets +onlyGivenNames x0; refine Keeps.cut s₀ x0 ?_ fun h1 => ?_
  · unfold x0; apply boardGroup_keeps; apply Keeps.forCores
    · assumption
    intro u2 u3 h4; apply powerUp_keeps; assumption
  clear_value x0; apply Keeps.ite
  · assumption
  apply Keeps.ite
  · apply atStep_keeps; assumption
  apply atStep_keeps; apply Keeps.forCores
  · assumption
  intro u5 u6 h7; apply startInit_keeps; assumption

theorem setOwners_keeps {s₀ : State} {s : State} (h₀ : Keeps s₀ s) :
    Keeps s₀ (State.setOwners s) := by
  unfold State.setOwners
  extract_lets +onlyGivenNames x0; apply Keeps.foldl
  · assumption
  intro u1 u2 h3; apply Keeps.ite
  · assumption
  apply setOwner_keeps; assumption

theorem endBoot_keeps {s₀ : State} {s : State} (h₀ : Keeps s₀ s) :
    Keeps s₀ (State.endBoot s) := by
  unfold State.endBoot
  extract_lets +onlyGivenNames x0; extract_lets +onlyGivenNames x1; extract_lets +onlyGivenNames x2
  refine Keeps.cut s₀ x2 ?_ fun h3 => ?_
  · unfold x2; refine Keeps.upd ?_ rfl rfl (Nat.le_refl _); assumption
  clear_value x2; apply setF_keeps; apply atStep_keeps; apply setOwners_keeps; assumption

theorem execBootStepComplete_keeps {s₀ : State} (e : WriteEnv) {s : State} (h₀ : Keeps s₀ s) :
    KeepsOut s₀ (execBootStepComplete e s) := by
  unfold execBootStepComplete
  apply KeepsOut.ite
  · apply KeepsOut.next; assumption
  apply KeepsOut.next; split
  · apply Keeps.ite
    · apply bootFail_keeps; assumption
    apply atStep_keeps; assumption
  · apply endSelfCheck_keeps; assumption
  · apply endRom_keeps; assumption
  · apply atStep_keeps; assumption
  · apply endSecure_keeps; assumption
  · apply brgTrain_keeps; apply atStep_keeps; assumption
  · apply Keeps.ite
    · apply atStep_keeps; assumption
    apply Keeps.ite
    · assumption
    apply atStep_keeps; apply setF_keeps; assumption
  · apply endAft_keeps; assumption
  · apply Keeps.ite
    · assumption
    apply atStep_keeps; assumption
  · apply endBoot_keeps; assumption
  assumption

theorem execBootStepTimeout_keeps {s₀ : State} (code : Nat) {s : State} (h₀ : Keeps s₀ s) :
    KeepsOut s₀ (execBootStepTimeout code s) := by
  unfold execBootStepTimeout
  apply KeepsOut.ite
  · apply KeepsOut.next; assumption
  apply KeepsOut.next; apply bootFail_keeps; assumption

theorem execPackageAutoload_keeps {s₀ : State} (cut : Option (Nat × Nat)) {s : State} (h₀ : Keeps s₀ s) :
    KeepsOut s₀ (execPackageAutoload cut s) := by
  unfold execPackageAutoload
  apply KeepsOut.ite
  · apply KeepsOut.next; assumption
  extract_lets +onlyGivenNames x0; extract_lets +onlyGivenNames x1; extract_lets +onlyGivenNames x2
  refine Keeps.cut s₀ x2 ?_ fun h3 => ?_
  · unfold x2; refine Keeps.upd ?_ rfl rfl (Nat.le_refl _); assumption
  clear_value x2; apply KeepsOut.next; apply Keeps.foldl
  · assumption
  intro u4 u5 h6; extract_lets +onlyGivenNames x7; split; rename_i r8 r9 r10 r11
  refine Keeps.cut s₀ r10 (Keeps.of_snd r11 ?_) fun h12 => ?_
  · apply loadPkg_keeps; assumption
  apply Keeps.ite
  · apply bump_keeps; assumption
  apply bump_keeps; assumption

theorem execFlashOperationDone_keeps {s₀ : State} (bad : Bool) {s : State} (h₀ : Keeps s₀ s) :
    KeepsOut s₀ (execFlashOperationDone bad s) := by
  unfold execFlashOperationDone
  apply KeepsOut.next; apply flashDone_keeps; assumption

end Sys2Proof
end

