-- ==== Sys2Proof/Laws/KeepsHost.lean ====
section
/-! SUPPORT. `Keeps` of the operations of Sys2Proof/Machine/Host.lean. -/

set_option linter.unusedTactic false
set_option linter.unreachableTactic false
set_option linter.tactic.unusedName false
set_option linter.unusedVariables false

namespace Sys2Proof

open Machine

theorem regPuts_keeps {s₀ : State} (e : WriteEnv) (m : Master) (off : Nat) (l : List Byte) {s : State} (h₀ : Keeps s₀ s) :
    Keeps s₀ (State.regPuts e m off l s) := by
  fun_induction State.regPuts e m off l s with
  | case1 off a b c d l s ih => exact ih (ctlWrite_keeps _ _ _ _ h₀)
  | case2 off s => exact h₀

theorem hostPutOne_keeps {s₀ : State} {s : State} (e : WriteEnv) (m : Master) (src : Nat) (a : Nat) (bs : List Byte)
    (h₀ : Keeps s₀ s) :
    Keeps s₀ (State.hostPutOne s e m src a bs) := by
  unfold State.hostPutOne
  split
  · apply Keeps.ite
    · apply regPuts_keeps; assumption
    apply accWrite_keeps; assumption
  split; rename_i r0 r1 r2 r3; refine Keeps.cut s₀ r2 (Keeps.of_snd r3 ?_) fun h4 => ?_
  · apply devWrite_keeps; assumption
  apply Keeps.ite
  · apply bulkErr_keeps; assumption
  assumption

theorem execBar4Access_keeps {s₀ : State} (off : Nat) (n : Nat) (data : Option (List Byte)) (e : WriteEnv) {s : State}
    (h₀ : Keeps s₀ s) :
    KeepsOut s₀ (execBar4Access off n data e s) := by
  unfold execBar4Access
  extract_lets +onlyGivenNames x0; extract_lets +onlyGivenNames x1; extract_lets +onlyGivenNames x2
  extract_lets +onlyGivenNames x3; extract_lets +onlyGivenNames x4; split
  · apply KeepsOut.ite
    · apply KeepsOut.next; assumption
    apply KeepsOut.ite
    · apply KeepsOut.next; apply report_keeps; assumption
    apply KeepsOut.ite
    · apply KeepsOut.ite
      · split
        rename_i r5 r6 r7 r8; refine Keeps.cut s₀ r7 (Keeps.of_snd r8 ?_) fun h9 => ?_
        · apply rowPutAll_keeps; assumption
        apply KeepsOut.next; apply rowRetry_keeps; apply Keeps.upd₀; assumption
      apply KeepsOut.next; apply Keeps.upd₀; assumption
    apply KeepsOut.next; apply hostPutOne_keeps; assumption
  apply KeepsOut.ite
  · apply KeepsOut.next; apply answer_keeps; assumption
  apply KeepsOut.ite
  · split
    rename_i r10 r11 r12 r13; refine Keeps.cut s₀ r12 (Keeps.of_snd r13 ?_) fun h14 => ?_
    · apply refuseRead_keeps; assumption
    apply KeepsOut.next; apply answer_keeps; assumption
  split
  · apply KeepsOut.ite
    · split
      rename_i r15 r16 r17 r18; refine Keeps.cut s₀ r17 (Keeps.of_snd r18 ?_) fun h19 => ?_
      · apply accRead_keeps; assumption
      apply KeepsOut.next; apply emit_keeps; assumption
    apply KeepsOut.ite
    · apply KeepsOut.next; apply answer_keeps; apply glbError_keeps; assumption
    split
    rename_i r20 r21 r22 r23; refine Keeps.cut s₀ r22 (Keeps.of_snd r23 ?_) fun h24 => ?_
    · apply regBytes_keeps; assumption
    apply KeepsOut.next; apply answer_keeps; assumption
  split
  rename_i r25 r26 r27 r28 r29; refine Keeps.cut s₀ r28 (Keeps.of_snd₂ r29 ?_) fun h30 => ?_
  · apply readRuns_keeps; assumption
  apply KeepsOut.next; apply answerRuns_keeps; assumption

theorem bulkBad_keeps {s₀ : State} {s : State} (c : Fin 2) (h₀ : Keeps s₀ s) :
    Keeps s₀ (State.bulkBad s c) := by
  unfold State.bulkBad
  extract_lets +onlyGivenNames x0; refine Keeps.cut s₀ x0 ?_ fun h1 => ?_
  · unfold x0; apply glbError_keeps; assumption
  clear_value x0; apply Keeps.ite
  · apply Keeps.upd₀; assumption
  assumption

theorem bulkPost_keeps {s₀ : State} {s : State} (c : Fin 2) (bs : List Byte) (h₀ : Keeps s₀ s) :
    Keeps s₀ (State.bulkPost s c bs) := by
  unfold State.bulkPost
  extract_lets +onlyGivenNames x0; apply Keeps.ite
  · apply bulkBad_keeps; assumption
  apply Keeps.ite
  · assumption
  apply setPtr_keeps; apply setBulk_keeps; assumption

theorem hspLate_keeps {s₀ : State} {s : State} (h₀ : Keeps s₀ s) :
    Keeps s₀ (State.hspLate s) := by
  unfold State.hspLate
  apply Keeps.upd₀; assumption

theorem hspBad_keeps {s₀ : State} {s : State} (h₀ : Keeps s₀ s) :
    Keeps s₀ (State.hspBad s) := by
  unfold State.hspBad
  apply Keeps.upd₀; assumption

theorem bulkWrite_keeps {s₀ : State} {s : State} (c : Fin 2) (bs : List Byte) (h₀ : Keeps s₀ s) :
    Keeps s₀ (State.bulkWrite s c bs) := by
  unfold State.bulkWrite
  apply Keeps.ite
  · assumption
  apply Keeps.ite
  · apply Keeps.ite
    · apply Keeps.ite
      · apply hspBad_keeps; assumption
      assumption
    apply Keeps.ite
    · apply bulkBad_keeps; assumption
    refine Keeps.upd ?_ rfl rfl (Nat.le_refl _); assumption
  apply Keeps.ite
  · apply Keeps.ite
    · apply hspBad_keeps; assumption
    assumption
  extract_lets +onlyGivenNames x0; apply Keeps.ite
  · apply bulkPost_keeps; assumption
  apply setBulk_keeps; assumption

theorem execBulkDataWrite_keeps {s₀ : State} (c : Fin 2) (bs : List Byte) {s : State} (h₀ : Keeps s₀ s) :
    KeepsOut s₀ (execBulkDataWrite c bs s) := by
  unfold execBulkDataWrite
  apply KeepsOut.next; apply bulkWrite_keeps; assumption

theorem hspOut_keeps {s₀ : State} {s : State} (l : List Byte) (h₀ : Keeps s₀ s) :
    Keeps s₀ (State.hspOut s l) := by
  unfold State.hspOut
  apply emit_keeps; assumption

theorem bulkReadNow_keeps {s₀ : State} {s : State} (c : Fin 2) (n : Nat) (ahead : Nat) (h₀ : Keeps s₀ s) :
    Keeps s₀ (State.bulkReadNow s c n ahead) := by
  unfold State.bulkReadNow
  extract_lets +onlyGivenNames x0; extract_lets +onlyGivenNames x1; apply Keeps.ite
  · extract_lets +onlyGivenNames x2; refine Keeps.cut s₀ x2 ?_ fun h3 => ?_
    · unfold x2; apply bulkBad_keeps; assumption
    clear_value x2; apply Keeps.ite
    · apply answer_keeps; assumption
    apply hspOut_keeps; assumption
  apply Keeps.ite
  · split; rename_i r4 r5 r6 r7 r8; refine Keeps.cut s₀ r7 (Keeps.of_snd₂ r8 ?_) fun h9 => ?_
    · apply bulkRead_keeps; assumption
    apply answerRuns_keeps; assumption
  apply Keeps.ite
  · apply hspOut_keeps; apply hspLate_keeps; apply setPtr_keeps; assumption
  split; rename_i r10 r11 r12 r13 r14; refine Keeps.cut s₀ r13 (Keeps.of_snd₂ r14 ?_) fun h15 => ?_
  · apply bulkRead_keeps; assumption
  extract_lets +onlyGivenNames x16; apply Keeps.ite
  · apply hspOut_keeps; apply hspBad_keeps; assumption
  apply hspOut_keeps; assumption

theorem bulkReadLate_keeps {s₀ : State} {s : State} (c : Fin 2) (n : Nat) (ahead : Nat) (h₀ : Keeps s₀ s) :
    Keeps s₀ (State.bulkReadLate s c n ahead) := by
  unfold State.bulkReadLate
  extract_lets +onlyGivenNames x0; apply Keeps.ite
  · apply bulkBad_keeps; assumption
  apply Keeps.ite
  · apply setPtr_keeps; assumption
  apply bulkRead_keeps; assumption

theorem execBulkDataRead_keeps {s₀ : State} (c : Fin 2) (n : Nat) (ahead : Nat) {s : State} (h₀ : Keeps s₀ s) :
    KeepsOut s₀ (execBulkDataRead c n ahead s) := by
  unfold execBulkDataRead
  extract_lets +onlyGivenNames x0; extract_lets +onlyGivenNames x1; apply KeepsOut.ite
  · apply KeepsOut.next; assumption
  apply KeepsOut.ite
  · apply KeepsOut.next; apply Keeps.ite
    · apply answer_keeps; assumption
    apply hspOut_keeps; apply hspBad_keeps; assumption
  apply KeepsOut.ite
  · apply KeepsOut.next; apply bulkReadNow_keeps; assumption
  apply KeepsOut.ite
  · apply KeepsOut.next; apply setBulk_keeps; assumption
  apply KeepsOut.next; apply hspOut_keeps; apply hspLate_keeps; apply setBulk_keeps; assumption

theorem drainBulk_keeps {s₀ : State} (e : WriteEnv) (c : Fin 2) (a1 : List (Nat × List Byte)) {a2 : State} (h₀ : Keeps
    s₀ a2) :
    Keeps s₀ (State.drainBulk e c a1 a2).2 := by
  induction a1 generalizing e c a2 with
  | nil =>
    unfold State.drainBulk
    dsimp only; assumption
  | cons x l ih =>
    unfold State.drainBulk
    apply Keeps.ite_snd
    · split; rename_i r0 r1 r2 r3; refine Keeps.cut s₀ r2 (Keeps.of_snd r3 ?_) fun h4 => ?_
      · apply rowPutAll_keeps; assumption
      apply Keeps.ite_snd
      · apply ih; assumption
      dsimp only; assumption
    apply ih; apply hostPutOne_keeps; assumption

theorem bulkRelease_keeps {s₀ : State} (c : Fin 2) (l : List BulkAcc) {s : State} (h₀ : Keeps s₀ s) :
    Keeps s₀ (State.bulkRelease c l s).2 := by
  fun_induction State.bulkRelease c l s with
  | case1 => exact h₀
  | case2 s bs l h ih => exact ih (bulkPost_keeps _ _ h₀)
  | case3 => exact h₀
  | case4 s off v l h ih => exact ih (bulkRegNow_keeps _ _ _ _ h₀)
  | case5 => exact h₀
  | case6 s n ahead l h ih => exact ih (bulkReadNow_keeps _ _ _ h₀)
  | case7 => exact h₀
  | case8 s n ahead l h ih => exact ih (bulkReadLate_keeps _ _ _ h₀)
  | case9 => exact h₀

theorem execBulkDrain_keeps {s₀ : State} (c : Fin 2) (e : WriteEnv) {s : State} (h₀ : Keeps s₀ s) :
    KeepsOut s₀ (execBulkDrain c e s) := by
  unfold execBulkDrain
  extract_lets +onlyGivenNames x0; split
  rename_i r1 r2 r3 r4; refine Keeps.cut s₀ r3 (Keeps.of_snd r4 ?_) fun h5 => ?_
  · apply drainBulk_keeps; apply setBulk_keeps; assumption
  extract_lets +onlyGivenNames x6; extract_lets +onlyGivenNames x7; refine Keeps.cut s₀ x7 ?_ fun h8 => ?_
  · unfold x7
    apply rowRetry_keeps; apply setBulk_keeps; assumption
  clear_value x7; apply KeepsOut.ite
  · apply KeepsOut.next; assumption
  extract_lets +onlyGivenNames x9; split
  rename_i r10 r11 r12 r13; refine Keeps.cut s₀ r12 (Keeps.of_snd r13 ?_) fun h14 => ?_
  · apply bulkRelease_keeps; apply setBulk_keeps; assumption
  apply KeepsOut.next; apply bellDue_keeps; apply setBulk_keeps; assumption

theorem hspPuts_keeps {s₀ : State} (e : WriteEnv) (off : Nat) (l : List Byte) {s : State} (h₀ : Keeps s₀ s) :
    Keeps s₀ (State.hspPuts e off l s) := by
  fun_induction State.hspPuts e off l s with
  | case1 off a b c d l s o t ih => exact ih (accWrite_keeps _ _ (Keeps.ite (hspBad_keeps h₀) h₀))
  | case2 off s => exact h₀

theorem execHspWriteFrame_keeps {s₀ : State} (addr : BitVec 32) (data : List Byte) (e : WriteEnv) {s : State} (h₀ :
    Keeps s₀ s) :
    KeepsOut s₀ (execHspWriteFrame addr data e s) := by
  unfold execHspWriteFrame
  apply KeepsOut.ite
  · apply KeepsOut.next; assumption
  extract_lets +onlyGivenNames x0; extract_lets +onlyGivenNames x1; refine Keeps.cut s₀ x1 ?_ fun h2 => ?_
  · unfold x1; apply Keeps.upd₀; assumption
  clear_value x1; extract_lets +onlyGivenNames x3; apply KeepsOut.ite
  · apply KeepsOut.next; apply hspBad_keeps; assumption
  apply KeepsOut.ite
  · apply KeepsOut.next; apply bulkWrite_keeps; assumption
  extract_lets +onlyGivenNames x4; refine Keeps.cut s₀ x4 ?_ fun h5 => ?_
  · unfold x4; apply hspPuts_keeps; assumption
  clear_value x4; apply KeepsOut.ite
  · apply KeepsOut.next; assumption
  apply KeepsOut.next; apply hspBad_keeps; apply glbError_keeps; assumption

theorem hspGets_keeps {s₀ : State} (late : List Nat) (off : Nat) (a2 : Nat) (a3 : Nat) {a4 : State} (h₀ : Keeps s₀ a4) :
    Keeps s₀ (State.hspGets late off a2 a3 a4).2 := by
  induction a2 generalizing late off a3 a4 with
  | zero =>
    unfold State.hspGets
    apply Keeps.mk_snd; assumption
  | succ n ih =>
    unfold State.hspGets
    extract_lets +onlyGivenNames x0; refine Keeps.cut s₀ x0 ?_ fun h1 => ?_
    · unfold x0
      apply Keeps.ite
      · apply hspBad_keeps; assumption
      assumption
    clear_value x0; split
    rename_i r2 r3 r4 r5; refine Keeps.cut s₀ r4 (Keeps.of_snd r5 ?_) fun h6 => ?_
    · apply accRead_keeps; assumption
    extract_lets +onlyGivenNames x7; refine Keeps.cut s₀ x7 ?_ fun h8 => ?_
    · unfold x7
      apply Keeps.ite
      · apply hspLate_keeps; assumption
      assumption
    clear_value x7; split
    rename_i r9 r10 r11 r12; refine Keeps.cut s₀ r11 (Keeps.of_snd r12 ?_) fun h13 => ?_
    · apply ih; assumption
    apply Keeps.mk_snd; assumption

theorem execHspReadFrame_keeps {s₀ : State} (addr : BitVec 32) (n : Nat) (ahead : Nat) (late : List Nat) {s : State}
    (h₀ : Keeps s₀ s) :
    KeepsOut s₀ (execHspReadFrame addr n ahead late s) := by
  unfold execHspReadFrame
  apply KeepsOut.ite
  · apply KeepsOut.next; assumption
  extract_lets +onlyGivenNames x0; extract_lets +onlyGivenNames x1; refine Keeps.cut s₀ x1 ?_ fun h2 => ?_
  · unfold x1; apply Keeps.upd₀; assumption
  clear_value x1; extract_lets +onlyGivenNames x3; apply KeepsOut.ite
  · apply KeepsOut.next; apply hspBad_keeps; assumption
  apply KeepsOut.ite
  · apply execBulkDataRead_keeps; assumption
  extract_lets +onlyGivenNames x4; split; rename_i r5 r6 r7 r8
  refine Keeps.cut s₀ r7 (Keeps.of_snd r8 ?_) fun h9 => ?_
  · apply hspGets_keeps; assumption
  extract_lets +onlyGivenNames x10; refine Keeps.cut s₀ x10 ?_ fun h11 => ?_
  · unfold x10; apply hspOut_keeps; assumption
  clear_value x10; apply KeepsOut.ite
  · apply KeepsOut.next; assumption
  apply KeepsOut.next; apply hspBad_keeps; apply glbError_keeps; assumption

theorem execHspStatusFrame_keeps {s₀ : State} {s : State} (h₀ : Keeps s₀ s) :
    KeepsOut s₀ (execHspStatusFrame s) := by
  unfold execHspStatusFrame
  apply KeepsOut.ite
  · apply KeepsOut.next; assumption
  extract_lets +onlyGivenNames x0; extract_lets +onlyGivenNames x1; apply KeepsOut.next; apply hspOut_keeps
  apply Keeps.upd₀; assumption

theorem linkDown_keeps {s₀ : State} {s : State} (h₀ : Keeps s₀ s) :
    Keeps s₀ (State.linkDown s) := by
  unfold State.linkDown
  apply Keeps.ite
  · assumption
  extract_lets +onlyGivenNames x0; refine Keeps.cut s₀ x0 ?_ fun h1 => ?_
  · unfold x0
    apply dropLink_keeps; assumption
  clear_value x0; apply Keeps.ite
  · assumption
  extract_lets +onlyGivenNames x2; refine Keeps.cut s₀ x2 ?_ fun h3 => ?_
  · unfold x2
    apply setF_keeps; apply report_keeps; assumption
  clear_value x2; apply raiseCause_keeps; apply Keeps.upd₀; assumption

theorem execPcieLinkDown_keeps {s₀ : State} {s : State} (h₀ : Keeps s₀ s) :
    KeepsOut s₀ (execPcieLinkDown s) := by
  unfold execPcieLinkDown
  apply KeepsOut.next; apply linkDown_keeps; assumption

theorem execEndpointReset_keeps {s₀ : State} {s : State} (h₀ : Keeps s₀ s) :
    KeepsOut s₀ (execEndpointReset s) := by
  unfold execEndpointReset
  apply KeepsOut.next; apply linkDown_keeps; assumption

theorem execPcieLinkUp_keeps {s₀ : State} (width : BitVec 4) (speed : BitVec 4) {s : State} (h₀ : Keeps s₀ s) :
    KeepsOut s₀ (execPcieLinkUp width speed s) := by
  unfold execPcieLinkUp
  apply KeepsOut.ite
  · apply KeepsOut.next; assumption
  apply KeepsOut.ite
  · apply KeepsOut.next; assumption
  extract_lets +onlyGivenNames x0; refine Keeps.cut s₀ x0 ?_ fun h1 => ?_
  · unfold x0
    apply setF_keeps; apply setF_keeps; assumption
  clear_value x0; apply KeepsOut.next; apply raiseCause_keeps; apply setF_keeps; assumption

theorem execHostReadFail_keeps {s₀ : State} (lo : Nat) (n : Nat) (fails : Bool) {s : State} (h₀ : Keeps s₀ s) :
    KeepsOut s₀ (execHostReadFail lo n fails s) := by
  unfold execHostReadFail
  extract_lets +onlyGivenNames x0; apply KeepsOut.next; apply Keeps.upd₀; assumption

theorem setCfg_keeps {s₀ : State} {s : State} (c : CfgSpace) (h₀ : Keeps s₀ s) :
    Keeps s₀ (State.setCfg s c) := by
  unfold State.setCfg
  apply Keeps.upd₀; assumption

theorem capWrite_keeps {s₀ : State} {s : State} (i : Nat) (j : Nat) (v : Nat) (h₀ : Keeps s₀ s) :
    Keeps s₀ (State.capWrite s i j v) := by
  unfold State.capWrite
  extract_lets +onlyGivenNames x0; extract_lets +onlyGivenNames x1; split
  · apply setCfg_keeps; assumption
  · apply setCfg_keeps; assumption
  · unfold x1
    apply setCfg_keeps; assumption
  · apply setCfg_keeps; assumption
  · unfold x1
    apply setCfg_keeps; assumption
  · apply setCfg_keeps; assumption
  · unfold x1
    apply setCfg_keeps; assumption
  · unfold x1
    apply setCfg_keeps; assumption
  · unfold x1
    apply setCfg_keeps; assumption
  · unfold x1
    apply setCfg_keeps; assumption
  · unfold x1
    apply setCfg_keeps; assumption
  assumption

theorem cfgWrite_keeps {s₀ : State} {s : State} (d : Nat) (v : Nat) (h₀ : Keeps s₀ s) :
    Keeps s₀ (State.cfgWrite s d v) := by
  unfold State.cfgWrite
  extract_lets +onlyGivenNames x0; split
  · apply Keeps.upd₀; assumption
  apply Keeps.ite
  · apply setCfg_keeps; assumption
  apply Keeps.ite
  · apply setCfg_keeps; assumption
  apply Keeps.ite
  · assumption
  split
  · apply capWrite_keeps; assumption
  assumption

theorem execConfigurationRequest_keeps {s₀ : State} (off : Nat) (val : Option Word) {s : State} (h₀ : Keeps s₀ s) :
    KeepsOut s₀ (execConfigurationRequest off val s) := by
  unfold execConfigurationRequest
  apply KeepsOut.ite
  · apply KeepsOut.next; assumption
  extract_lets +onlyGivenNames x0; extract_lets +onlyGivenNames x1; apply KeepsOut.ite
  · apply KeepsOut.next; apply emit_keeps; assumption
  split
  · apply KeepsOut.next; apply cfgWrite_keeps; assumption
  split
  apply KeepsOut.ite
  · apply KeepsOut.next; apply emit_keeps; assumption
  apply KeepsOut.next; apply emit_keeps; apply draw_keeps; assumption

end Sys2Proof
end

