-- ==== Sys2Proof/Laws/State.lean ====
section
/-! SUPPORT. What each update of the state leaves alone: one lemma per field and per update, and the laws of register fields
and of the cores. -/

namespace Sys2Proof.Machine

/-! ### State.setReg -/

@[simp] theorem State.setReg_pending (s : State) (a : Nat) (v : Word) : (s.setReg a v).pending = s.pending := rfl
@[simp] theorem State.setReg_force (s : State) (a : Nat) (v : Word) : (s.setReg a v).force = s.force := rfl
@[simp] theorem State.setReg_off (s : State) (a : Nat) (v : Word) : (s.setReg a v).off = s.off := rfl
@[simp] theorem State.setReg_time (s : State) (a : Nat) (v : Word) : (s.setReg a v).time = s.time := rfl
@[simp] theorem State.setReg_fsg (s : State) (a : Nat) (v : Word) : (s.setReg a v).fsg = s.fsg := rfl
@[simp] theorem State.setReg_brg (s : State) (a : Nat) (v : Word) : (s.setReg a v).brg = s.brg := rfl
@[simp] theorem State.setReg_flt (s : State) (a : Nat) (v : Word) : (s.setReg a v).flt = s.flt := rfl
@[simp] theorem State.setReg_cores (s : State) (a : Nat) (v : Word) : (s.setReg a v).cores = s.cores := rfl
@[simp] theorem State.setReg_jobs (s : State) (a : Nat) (v : Word) : (s.setReg a v).jobs = s.jobs := rfl
@[simp] theorem State.setReg_intake (s : State) (a : Nat) (v : Word) : (s.setReg a v).intake = s.intake := rfl
@[simp] theorem State.setReg_edge (s : State) (a : Nat) (v : Word) : (s.setReg a v).edge = s.edge := rfl
@[simp] theorem State.setReg_out (s : State) (a : Nat) (v : Word) : (s.setReg a v).out = s.out := rfl
@[simp] theorem State.setReg_host (s : State) (a : Nat) (v : Word) : (s.setReg a v).host = s.host := rfl
@[simp] theorem State.setReg_cof (s : State) (a : Nat) (v : Word) : (s.setReg a v).cof = s.cof := rfl
@[simp] theorem State.setReg_lnk (s : State) (a : Nat) (v : Word) : (s.setReg a v).lnk = s.lnk := rfl
@[simp] theorem State.setReg_pkgs (s : State) (a : Nat) (v : Word) : (s.setReg a v).pkgs = s.pkgs := rfl
@[simp] theorem State.setReg_dig (s : State) (a : Nat) (v : Word) : (s.setReg a v).dig = s.dig := rfl
@[simp] theorem State.setReg_sec (s : State) (a : Nat) (v : Word) : (s.setReg a v).sec = s.sec := rfl
@[simp] theorem State.setReg_pwr (s : State) (a : Nat) (v : Word) : (s.setReg a v).pwr = s.pwr := rfl
@[simp] theorem State.setReg_trc (s : State) (a : Nat) (v : Word) : (s.setReg a v).trc = s.trc := rfl
@[simp] theorem State.setReg_sto (s : State) (a : Nat) (v : Word) : (s.setReg a v).sto = s.sto := rfl
@[simp] theorem State.setReg_fwLocks (s : State) (a : Nat) (v : Word) : (s.setReg a v).fwLocks = s.fwLocks := rfl
@[simp] theorem State.setReg_ddrSize (s : State) (a : Nat) (v : Word) : (s.setReg a v).ddrSize = s.ddrSize := rfl
@[simp] theorem State.setReg_dram (s : State) (a : Nat) (v : Word) : (s.setReg a v).dram = s.dram := rfl
@[simp] theorem State.setReg_dramPoison (s : State) (a : Nat) (v : Word) : (s.setReg a v).dramPoison = s.dramPoison := rfl
@[simp] theorem State.setReg_dramBad (s : State) (a : Nat) (v : Word) : (s.setReg a v).dramBad = s.dramBad := rfl
@[simp] theorem State.setReg_hostMem (s : State) (a : Nat) (v : Word) : (s.setReg a v).hostMem = s.hostMem := rfl
@[simp] theorem State.setReg_free (s : State) (a : Nat) (v : Word) : (s.setReg a v).free = s.free := rfl
@[simp] theorem State.setReg_wire (s : State) (a : Nat) (v : Word) : (s.setReg a v).wire = s.wire := rfl
@[simp] theorem State.setReg_inForce (s : State) (a : Nat) (v : Word) (o : Nat) : (s.setReg a v).inForce o = s.inForce o :=
  rfl
@[simp] theorem State.setReg_forceF (s : State) (a : Nat) (v : Word) (g : Fld) : (s.setReg a v).forceF g = s.forceF g := rfl
@[simp] theorem State.setReg_core (s : State) (a : Nat) (v : Word) (q : Fin 8) : (s.setReg a v).core q = s.core q := rfl
@[simp] theorem State.setReg_ctx (s : State) (a : Nat) (v : Word) (q : Fin 8) (y : Fin 3) : (s.setReg a v).ctx q y = s.ctx q y :=
  rfl
@[simp] theorem State.setReg_job (s : State) (a : Nat) (v : Word) (i : Nat) : (s.setReg a v).job i = s.job i := rfl
@[simp] theorem State.setReg_ring (s : State) (a : Nat) (v : Word) (e : Fin 2) : (s.setReg a v).ring e = s.ring e := rfl

/-! ### State.setF -/

@[simp] theorem State.setF_pending (s : State) (f : Fld) (v : Nat) : (s.setF f v).pending = s.pending := rfl
@[simp] theorem State.setF_force (s : State) (f : Fld) (v : Nat) : (s.setF f v).force = s.force := rfl
@[simp] theorem State.setF_off (s : State) (f : Fld) (v : Nat) : (s.setF f v).off = s.off := rfl
@[simp] theorem State.setF_time (s : State) (f : Fld) (v : Nat) : (s.setF f v).time = s.time := rfl
@[simp] theorem State.setF_fsg (s : State) (f : Fld) (v : Nat) : (s.setF f v).fsg = s.fsg := rfl
@[simp] theorem State.setF_brg (s : State) (f : Fld) (v : Nat) : (s.setF f v).brg = s.brg := rfl
@[simp] theorem State.setF_flt (s : State) (f : Fld) (v : Nat) : (s.setF f v).flt = s.flt := rfl
@[simp] theorem State.setF_cores (s : State) (f : Fld) (v : Nat) : (s.setF f v).cores = s.cores := rfl
@[simp] theorem State.setF_jobs (s : State) (f : Fld) (v : Nat) : (s.setF f v).jobs = s.jobs := rfl
@[simp] theorem State.setF_intake (s : State) (f : Fld) (v : Nat) : (s.setF f v).intake = s.intake := rfl
@[simp] theorem State.setF_edge (s : State) (f : Fld) (v : Nat) : (s.setF f v).edge = s.edge := rfl
@[simp] theorem State.setF_out (s : State) (f : Fld) (v : Nat) : (s.setF f v).out = s.out := rfl
@[simp] theorem State.setF_host (s : State) (f : Fld) (v : Nat) : (s.setF f v).host = s.host := rfl
@[simp] theorem State.setF_cof (s : State) (f : Fld) (v : Nat) : (s.setF f v).cof = s.cof := rfl
@[simp] theorem State.setF_lnk (s : State) (f : Fld) (v : Nat) : (s.setF f v).lnk = s.lnk := rfl
@[simp] theorem State.setF_pkgs (s : State) (f : Fld) (v : Nat) : (s.setF f v).pkgs = s.pkgs := rfl
@[simp] theorem State.setF_dig (s : State) (f : Fld) (v : Nat) : (s.setF f v).dig = s.dig := rfl
@[simp] theorem State.setF_sec (s : State) (f : Fld) (v : Nat) : (s.setF f v).sec = s.sec := rfl
@[simp] theorem State.setF_pwr (s : State) (f : Fld) (v : Nat) : (s.setF f v).pwr = s.pwr := rfl
@[simp] theorem State.setF_trc (s : State) (f : Fld) (v : Nat) : (s.setF f v).trc = s.trc := rfl
@[simp] theorem State.setF_sto (s : State) (f : Fld) (v : Nat) : (s.setF f v).sto = s.sto := rfl
@[simp] theorem State.setF_fwLocks (s : State) (f : Fld) (v : Nat) : (s.setF f v).fwLocks = s.fwLocks := rfl
@[simp] theorem State.setF_ddrSize (s : State) (f : Fld) (v : Nat) : (s.setF f v).ddrSize = s.ddrSize := rfl
@[simp] theorem State.setF_dram (s : State) (f : Fld) (v : Nat) : (s.setF f v).dram = s.dram := rfl
@[simp] theorem State.setF_dramPoison (s : State) (f : Fld) (v : Nat) : (s.setF f v).dramPoison = s.dramPoison := rfl
@[simp] theorem State.setF_dramBad (s : State) (f : Fld) (v : Nat) : (s.setF f v).dramBad = s.dramBad := rfl
@[simp] theorem State.setF_hostMem (s : State) (f : Fld) (v : Nat) : (s.setF f v).hostMem = s.hostMem := rfl
@[simp] theorem State.setF_free (s : State) (f : Fld) (v : Nat) : (s.setF f v).free = s.free := rfl
@[simp] theorem State.setF_wire (s : State) (f : Fld) (v : Nat) : (s.setF f v).wire = s.wire := rfl
@[simp] theorem State.setF_inForce (s : State) (f : Fld) (v : Nat) (o : Nat) : (s.setF f v).inForce o = s.inForce o := rfl
@[simp] theorem State.setF_forceF (s : State) (f : Fld) (v : Nat) (g : Fld) : (s.setF f v).forceF g = s.forceF g := rfl
@[simp] theorem State.setF_core (s : State) (f : Fld) (v : Nat) (q : Fin 8) : (s.setF f v).core q = s.core q := rfl
@[simp] theorem State.setF_ctx (s : State) (f : Fld) (v : Nat) (q : Fin 8) (y : Fin 3) : (s.setF f v).ctx q y = s.ctx q y :=
  rfl
@[simp] theorem State.setF_job (s : State) (f : Fld) (v : Nat) (i : Nat) : (s.setF f v).job i = s.job i := rfl
@[simp] theorem State.setF_ring (s : State) (f : Fld) (v : Nat) (e : Fin 2) : (s.setF f v).ring e = s.ring e := rfl

/-! ### State.setForce -/

@[simp] theorem State.setForce_pending (s : State) (a : Nat) (v : Word) : (s.setForce a v).pending = s.pending := rfl
@[simp] theorem State.setForce_regs (s : State) (a : Nat) (v : Word) : (s.setForce a v).regs = s.regs := rfl
@[simp] theorem State.setForce_off (s : State) (a : Nat) (v : Word) : (s.setForce a v).off = s.off := rfl
@[simp] theorem State.setForce_time (s : State) (a : Nat) (v : Word) : (s.setForce a v).time = s.time := rfl
@[simp] theorem State.setForce_fsg (s : State) (a : Nat) (v : Word) : (s.setForce a v).fsg = s.fsg := rfl
@[simp] theorem State.setForce_brg (s : State) (a : Nat) (v : Word) : (s.setForce a v).brg = s.brg := rfl
@[simp] theorem State.setForce_flt (s : State) (a : Nat) (v : Word) : (s.setForce a v).flt = s.flt := rfl
@[simp] theorem State.setForce_cores (s : State) (a : Nat) (v : Word) : (s.setForce a v).cores = s.cores := rfl
@[simp] theorem State.setForce_jobs (s : State) (a : Nat) (v : Word) : (s.setForce a v).jobs = s.jobs := rfl
@[simp] theorem State.setForce_intake (s : State) (a : Nat) (v : Word) : (s.setForce a v).intake = s.intake := rfl
@[simp] theorem State.setForce_edge (s : State) (a : Nat) (v : Word) : (s.setForce a v).edge = s.edge := rfl
@[simp] theorem State.setForce_out (s : State) (a : Nat) (v : Word) : (s.setForce a v).out = s.out := rfl
@[simp] theorem State.setForce_host (s : State) (a : Nat) (v : Word) : (s.setForce a v).host = s.host := rfl
@[simp] theorem State.setForce_cof (s : State) (a : Nat) (v : Word) : (s.setForce a v).cof = s.cof := rfl
@[simp] theorem State.setForce_lnk (s : State) (a : Nat) (v : Word) : (s.setForce a v).lnk = s.lnk := rfl
@[simp] theorem State.setForce_pkgs (s : State) (a : Nat) (v : Word) : (s.setForce a v).pkgs = s.pkgs := rfl
@[simp] theorem State.setForce_dig (s : State) (a : Nat) (v : Word) : (s.setForce a v).dig = s.dig := rfl
@[simp] theorem State.setForce_sec (s : State) (a : Nat) (v : Word) : (s.setForce a v).sec = s.sec := rfl
@[simp] theorem State.setForce_pwr (s : State) (a : Nat) (v : Word) : (s.setForce a v).pwr = s.pwr := rfl
@[simp] theorem State.setForce_trc (s : State) (a : Nat) (v : Word) : (s.setForce a v).trc = s.trc := rfl
@[simp] theorem State.setForce_sto (s : State) (a : Nat) (v : Word) : (s.setForce a v).sto = s.sto := rfl
@[simp] theorem State.setForce_fwLocks (s : State) (a : Nat) (v : Word) : (s.setForce a v).fwLocks = s.fwLocks := rfl
@[simp] theorem State.setForce_ddrSize (s : State) (a : Nat) (v : Word) : (s.setForce a v).ddrSize = s.ddrSize := rfl
@[simp] theorem State.setForce_dram (s : State) (a : Nat) (v : Word) : (s.setForce a v).dram = s.dram := rfl
@[simp] theorem State.setForce_dramPoison (s : State) (a : Nat) (v : Word) : (s.setForce a v).dramPoison = s.dramPoison :=
  rfl
@[simp] theorem State.setForce_dramBad (s : State) (a : Nat) (v : Word) : (s.setForce a v).dramBad = s.dramBad := rfl
@[simp] theorem State.setForce_hostMem (s : State) (a : Nat) (v : Word) : (s.setForce a v).hostMem = s.hostMem := rfl
@[simp] theorem State.setForce_free (s : State) (a : Nat) (v : Word) : (s.setForce a v).free = s.free := rfl
@[simp] theorem State.setForce_wire (s : State) (a : Nat) (v : Word) : (s.setForce a v).wire = s.wire := rfl
@[simp] theorem State.setForce_getReg (s : State) (a : Nat) (v : Word) (o : Nat) : (s.setForce a v).getReg o = s.getReg o :=
  rfl
@[simp] theorem State.setForce_getF (s : State) (a : Nat) (v : Word) (g : Fld) : (s.setForce a v).getF g = s.getF g := rfl
@[simp] theorem State.setForce_flag (s : State) (a : Nat) (v : Word) (g : Fld) : (s.setForce a v).flag g = s.flag g := rfl
@[simp] theorem State.setForce_core (s : State) (a : Nat) (v : Word) (q : Fin 8) : (s.setForce a v).core q = s.core q := rfl
@[simp] theorem State.setForce_ctx (s : State) (a : Nat) (v : Word) (q : Fin 8) (y : Fin 3) : (s.setForce a v).ctx q y = s.ctx q y :=
  rfl
@[simp] theorem State.setForce_job (s : State) (a : Nat) (v : Word) (i : Nat) : (s.setForce a v).job i = s.job i := rfl
@[simp] theorem State.setForce_dev (s : State) (a : Nat) (v : Word) : (s.setForce a v).dev = s.dev := rfl
@[simp] theorem State.setForce_brgUp (s : State) (a : Nat) (v : Word) : (s.setForce a v).brgUp = s.brgUp := rfl
@[simp] theorem State.setForce_pstate (s : State) (a : Nat) (v : Word) (q : Fin 8) : (s.setForce a v).pstate q = s.pstate q :=
  rfl
@[simp] theorem State.setForce_ring (s : State) (a : Nat) (v : Word) (e : Fin 2) : (s.setForce a v).ring e = s.ring e := rfl

/-! ### State.takeForce -/

@[simp] theorem State.takeForce_pending (s : State) (a : Nat) : (s.takeForce a).pending = s.pending := rfl
@[simp] theorem State.takeForce_regs (s : State) (a : Nat) : (s.takeForce a).regs = s.regs := rfl
@[simp] theorem State.takeForce_off (s : State) (a : Nat) : (s.takeForce a).off = s.off := rfl
@[simp] theorem State.takeForce_time (s : State) (a : Nat) : (s.takeForce a).time = s.time := rfl
@[simp] theorem State.takeForce_fsg (s : State) (a : Nat) : (s.takeForce a).fsg = s.fsg := rfl
@[simp] theorem State.takeForce_brg (s : State) (a : Nat) : (s.takeForce a).brg = s.brg := rfl
@[simp] theorem State.takeForce_flt (s : State) (a : Nat) : (s.takeForce a).flt = s.flt := rfl
@[simp] theorem State.takeForce_cores (s : State) (a : Nat) : (s.takeForce a).cores = s.cores := rfl
@[simp] theorem State.takeForce_jobs (s : State) (a : Nat) : (s.takeForce a).jobs = s.jobs := rfl
@[simp] theorem State.takeForce_intake (s : State) (a : Nat) : (s.takeForce a).intake = s.intake := rfl
@[simp] theorem State.takeForce_edge (s : State) (a : Nat) : (s.takeForce a).edge = s.edge := rfl
@[simp] theorem State.takeForce_out (s : State) (a : Nat) : (s.takeForce a).out = s.out := rfl
@[simp] theorem State.takeForce_host (s : State) (a : Nat) : (s.takeForce a).host = s.host := rfl
@[simp] theorem State.takeForce_cof (s : State) (a : Nat) : (s.takeForce a).cof = s.cof := rfl
@[simp] theorem State.takeForce_lnk (s : State) (a : Nat) : (s.takeForce a).lnk = s.lnk := rfl
@[simp] theorem State.takeForce_pkgs (s : State) (a : Nat) : (s.takeForce a).pkgs = s.pkgs := rfl
@[simp] theorem State.takeForce_dig (s : State) (a : Nat) : (s.takeForce a).dig = s.dig := rfl
@[simp] theorem State.takeForce_sec (s : State) (a : Nat) : (s.takeForce a).sec = s.sec := rfl
@[simp] theorem State.takeForce_pwr (s : State) (a : Nat) : (s.takeForce a).pwr = s.pwr := rfl
@[simp] theorem State.takeForce_trc (s : State) (a : Nat) : (s.takeForce a).trc = s.trc := rfl
@[simp] theorem State.takeForce_sto (s : State) (a : Nat) : (s.takeForce a).sto = s.sto := rfl
@[simp] theorem State.takeForce_fwLocks (s : State) (a : Nat) : (s.takeForce a).fwLocks = s.fwLocks := rfl
@[simp] theorem State.takeForce_ddrSize (s : State) (a : Nat) : (s.takeForce a).ddrSize = s.ddrSize := rfl
@[simp] theorem State.takeForce_dram (s : State) (a : Nat) : (s.takeForce a).dram = s.dram := rfl
@[simp] theorem State.takeForce_dramPoison (s : State) (a : Nat) : (s.takeForce a).dramPoison = s.dramPoison := rfl
@[simp] theorem State.takeForce_dramBad (s : State) (a : Nat) : (s.takeForce a).dramBad = s.dramBad := rfl
@[simp] theorem State.takeForce_hostMem (s : State) (a : Nat) : (s.takeForce a).hostMem = s.hostMem := rfl
@[simp] theorem State.takeForce_free (s : State) (a : Nat) : (s.takeForce a).free = s.free := rfl
@[simp] theorem State.takeForce_wire (s : State) (a : Nat) : (s.takeForce a).wire = s.wire := rfl
@[simp] theorem State.takeForce_getReg (s : State) (a : Nat) (o : Nat) : (s.takeForce a).getReg o = s.getReg o := rfl
@[simp] theorem State.takeForce_getF (s : State) (a : Nat) (g : Fld) : (s.takeForce a).getF g = s.getF g := rfl
@[simp] theorem State.takeForce_flag (s : State) (a : Nat) (g : Fld) : (s.takeForce a).flag g = s.flag g := rfl
@[simp] theorem State.takeForce_core (s : State) (a : Nat) (q : Fin 8) : (s.takeForce a).core q = s.core q := rfl
@[simp] theorem State.takeForce_ctx (s : State) (a : Nat) (q : Fin 8) (y : Fin 3) : (s.takeForce a).ctx q y = s.ctx q y :=
  rfl
@[simp] theorem State.takeForce_job (s : State) (a : Nat) (i : Nat) : (s.takeForce a).job i = s.job i := rfl
@[simp] theorem State.takeForce_dev (s : State) (a : Nat) : (s.takeForce a).dev = s.dev := rfl
@[simp] theorem State.takeForce_brgUp (s : State) (a : Nat) : (s.takeForce a).brgUp = s.brgUp := rfl
@[simp] theorem State.takeForce_pstate (s : State) (a : Nat) (q : Fin 8) : (s.takeForce a).pstate q = s.pstate q := rfl
@[simp] theorem State.takeForce_ring (s : State) (a : Nat) (e : Fin 2) : (s.takeForce a).ring e = s.ring e := rfl

/-! ### State.bump -/

@[simp] theorem State.bump_pending (s : State) (f : Fld) (n : Nat) : (s.bump f n).pending = s.pending := rfl
@[simp] theorem State.bump_force (s : State) (f : Fld) (n : Nat) : (s.bump f n).force = s.force := rfl
@[simp] theorem State.bump_off (s : State) (f : Fld) (n : Nat) : (s.bump f n).off = s.off := rfl
@[simp] theorem State.bump_time (s : State) (f : Fld) (n : Nat) : (s.bump f n).time = s.time := rfl
@[simp] theorem State.bump_fsg (s : State) (f : Fld) (n : Nat) : (s.bump f n).fsg = s.fsg := rfl
@[simp] theorem State.bump_brg (s : State) (f : Fld) (n : Nat) : (s.bump f n).brg = s.brg := rfl
@[simp] theorem State.bump_flt (s : State) (f : Fld) (n : Nat) : (s.bump f n).flt = s.flt := rfl
@[simp] theorem State.bump_cores (s : State) (f : Fld) (n : Nat) : (s.bump f n).cores = s.cores := rfl
@[simp] theorem State.bump_jobs (s : State) (f : Fld) (n : Nat) : (s.bump f n).jobs = s.jobs := rfl
@[simp] theorem State.bump_intake (s : State) (f : Fld) (n : Nat) : (s.bump f n).intake = s.intake := rfl
@[simp] theorem State.bump_edge (s : State) (f : Fld) (n : Nat) : (s.bump f n).edge = s.edge := rfl
@[simp] theorem State.bump_out (s : State) (f : Fld) (n : Nat) : (s.bump f n).out = s.out := rfl
@[simp] theorem State.bump_host (s : State) (f : Fld) (n : Nat) : (s.bump f n).host = s.host := rfl
@[simp] theorem State.bump_cof (s : State) (f : Fld) (n : Nat) : (s.bump f n).cof = s.cof := rfl
@[simp] theorem State.bump_lnk (s : State) (f : Fld) (n : Nat) : (s.bump f n).lnk = s.lnk := rfl
@[simp] theorem State.bump_pkgs (s : State) (f : Fld) (n : Nat) : (s.bump f n).pkgs = s.pkgs := rfl
@[simp] theorem State.bump_dig (s : State) (f : Fld) (n : Nat) : (s.bump f n).dig = s.dig := rfl
@[simp] theorem State.bump_sec (s : State) (f : Fld) (n : Nat) : (s.bump f n).sec = s.sec := rfl
@[simp] theorem State.bump_pwr (s : State) (f : Fld) (n : Nat) : (s.bump f n).pwr = s.pwr := rfl
@[simp] theorem State.bump_trc (s : State) (f : Fld) (n : Nat) : (s.bump f n).trc = s.trc := rfl
@[simp] theorem State.bump_sto (s : State) (f : Fld) (n : Nat) : (s.bump f n).sto = s.sto := rfl
@[simp] theorem State.bump_fwLocks (s : State) (f : Fld) (n : Nat) : (s.bump f n).fwLocks = s.fwLocks := rfl
@[simp] theorem State.bump_ddrSize (s : State) (f : Fld) (n : Nat) : (s.bump f n).ddrSize = s.ddrSize := rfl
@[simp] theorem State.bump_dram (s : State) (f : Fld) (n : Nat) : (s.bump f n).dram = s.dram := rfl
@[simp] theorem State.bump_dramPoison (s : State) (f : Fld) (n : Nat) : (s.bump f n).dramPoison = s.dramPoison := rfl
@[simp] theorem State.bump_dramBad (s : State) (f : Fld) (n : Nat) : (s.bump f n).dramBad = s.dramBad := rfl
@[simp] theorem State.bump_hostMem (s : State) (f : Fld) (n : Nat) : (s.bump f n).hostMem = s.hostMem := rfl
@[simp] theorem State.bump_free (s : State) (f : Fld) (n : Nat) : (s.bump f n).free = s.free := rfl
@[simp] theorem State.bump_wire (s : State) (f : Fld) (n : Nat) : (s.bump f n).wire = s.wire := rfl
@[simp] theorem State.bump_inForce (s : State) (f : Fld) (n : Nat) (o : Nat) : (s.bump f n).inForce o = s.inForce o := rfl
@[simp] theorem State.bump_forceF (s : State) (f : Fld) (n : Nat) (g : Fld) : (s.bump f n).forceF g = s.forceF g := rfl
@[simp] theorem State.bump_core (s : State) (f : Fld) (n : Nat) (q : Fin 8) : (s.bump f n).core q = s.core q := rfl
@[simp] theorem State.bump_ctx (s : State) (f : Fld) (n : Nat) (q : Fin 8) (y : Fin 3) : (s.bump f n).ctx q y = s.ctx q y :=
  rfl
@[simp] theorem State.bump_job (s : State) (f : Fld) (n : Nat) (i : Nat) : (s.bump f n).job i = s.job i := rfl
@[simp] theorem State.bump_ring (s : State) (f : Fld) (n : Nat) (e : Fin 2) : (s.bump f n).ring e = s.ring e := rfl

/-! ### State.bumpWrap -/

@[simp] theorem State.bumpWrap_pending (s : State) (f : Fld) (n : Nat) : (s.bumpWrap f n).pending = s.pending := rfl
@[simp] theorem State.bumpWrap_force (s : State) (f : Fld) (n : Nat) : (s.bumpWrap f n).force = s.force := rfl
@[simp] theorem State.bumpWrap_off (s : State) (f : Fld) (n : Nat) : (s.bumpWrap f n).off = s.off := rfl
@[simp] theorem State.bumpWrap_time (s : State) (f : Fld) (n : Nat) : (s.bumpWrap f n).time = s.time := rfl
@[simp] theorem State.bumpWrap_fsg (s : State) (f : Fld) (n : Nat) : (s.bumpWrap f n).fsg = s.fsg := rfl
@[simp] theorem State.bumpWrap_brg (s : State) (f : Fld) (n : Nat) : (s.bumpWrap f n).brg = s.brg := rfl
@[simp] theorem State.bumpWrap_flt (s : State) (f : Fld) (n : Nat) : (s.bumpWrap f n).flt = s.flt := rfl
@[simp] theorem State.bumpWrap_cores (s : State) (f : Fld) (n : Nat) : (s.bumpWrap f n).cores = s.cores := rfl
@[simp] theorem State.bumpWrap_jobs (s : State) (f : Fld) (n : Nat) : (s.bumpWrap f n).jobs = s.jobs := rfl
@[simp] theorem State.bumpWrap_intake (s : State) (f : Fld) (n : Nat) : (s.bumpWrap f n).intake = s.intake := rfl
@[simp] theorem State.bumpWrap_edge (s : State) (f : Fld) (n : Nat) : (s.bumpWrap f n).edge = s.edge := rfl
@[simp] theorem State.bumpWrap_out (s : State) (f : Fld) (n : Nat) : (s.bumpWrap f n).out = s.out := rfl
@[simp] theorem State.bumpWrap_host (s : State) (f : Fld) (n : Nat) : (s.bumpWrap f n).host = s.host := rfl
@[simp] theorem State.bumpWrap_cof (s : State) (f : Fld) (n : Nat) : (s.bumpWrap f n).cof = s.cof := rfl
@[simp] theorem State.bumpWrap_lnk (s : State) (f : Fld) (n : Nat) : (s.bumpWrap f n).lnk = s.lnk := rfl
@[simp] theorem State.bumpWrap_pkgs (s : State) (f : Fld) (n : Nat) : (s.bumpWrap f n).pkgs = s.pkgs := rfl
@[simp] theorem State.bumpWrap_dig (s : State) (f : Fld) (n : Nat) : (s.bumpWrap f n).dig = s.dig := rfl
@[simp] theorem State.bumpWrap_sec (s : State) (f : Fld) (n : Nat) : (s.bumpWrap f n).sec = s.sec := rfl
@[simp] theorem State.bumpWrap_pwr (s : State) (f : Fld) (n : Nat) : (s.bumpWrap f n).pwr = s.pwr := rfl
@[simp] theorem State.bumpWrap_trc (s : State) (f : Fld) (n : Nat) : (s.bumpWrap f n).trc = s.trc := rfl
@[simp] theorem State.bumpWrap_sto (s : State) (f : Fld) (n : Nat) : (s.bumpWrap f n).sto = s.sto := rfl
@[simp] theorem State.bumpWrap_fwLocks (s : State) (f : Fld) (n : Nat) : (s.bumpWrap f n).fwLocks = s.fwLocks := rfl
@[simp] theorem State.bumpWrap_ddrSize (s : State) (f : Fld) (n : Nat) : (s.bumpWrap f n).ddrSize = s.ddrSize := rfl
@[simp] theorem State.bumpWrap_dram (s : State) (f : Fld) (n : Nat) : (s.bumpWrap f n).dram = s.dram := rfl
@[simp] theorem State.bumpWrap_dramPoison (s : State) (f : Fld) (n : Nat) : (s.bumpWrap f n).dramPoison = s.dramPoison := rfl
@[simp] theorem State.bumpWrap_dramBad (s : State) (f : Fld) (n : Nat) : (s.bumpWrap f n).dramBad = s.dramBad := rfl
@[simp] theorem State.bumpWrap_hostMem (s : State) (f : Fld) (n : Nat) : (s.bumpWrap f n).hostMem = s.hostMem := rfl
@[simp] theorem State.bumpWrap_free (s : State) (f : Fld) (n : Nat) : (s.bumpWrap f n).free = s.free := rfl
@[simp] theorem State.bumpWrap_wire (s : State) (f : Fld) (n : Nat) : (s.bumpWrap f n).wire = s.wire := rfl
@[simp] theorem State.bumpWrap_inForce (s : State) (f : Fld) (n : Nat) (o : Nat) : (s.bumpWrap f n).inForce o = s.inForce o :=
  rfl
@[simp] theorem State.bumpWrap_forceF (s : State) (f : Fld) (n : Nat) (g : Fld) : (s.bumpWrap f n).forceF g = s.forceF g :=
  rfl
@[simp] theorem State.bumpWrap_core (s : State) (f : Fld) (n : Nat) (q : Fin 8) : (s.bumpWrap f n).core q = s.core q := rfl
@[simp] theorem State.bumpWrap_ctx (s : State) (f : Fld) (n : Nat) (q : Fin 8) (y : Fin 3) : (s.bumpWrap f n).ctx q y = s.ctx q y :=
  rfl
@[simp] theorem State.bumpWrap_job (s : State) (f : Fld) (n : Nat) (i : Nat) : (s.bumpWrap f n).job i = s.job i := rfl
@[simp] theorem State.bumpWrap_ring (s : State) (f : Fld) (n : Nat) (e : Fin 2) : (s.bumpWrap f n).ring e = s.ring e := rfl

/-! ### State.setCore -/

@[simp] theorem State.setCore_pending (s : State) (k : Fin 8) (c : Core) : (s.setCore k c).pending = s.pending := rfl
@[simp] theorem State.setCore_regs (s : State) (k : Fin 8) (c : Core) : (s.setCore k c).regs = s.regs := rfl
@[simp] theorem State.setCore_force (s : State) (k : Fin 8) (c : Core) : (s.setCore k c).force = s.force := rfl
@[simp] theorem State.setCore_off (s : State) (k : Fin 8) (c : Core) : (s.setCore k c).off = s.off := rfl
@[simp] theorem State.setCore_time (s : State) (k : Fin 8) (c : Core) : (s.setCore k c).time = s.time := rfl
@[simp] theorem State.setCore_fsg (s : State) (k : Fin 8) (c : Core) : (s.setCore k c).fsg = s.fsg := rfl
@[simp] theorem State.setCore_brg (s : State) (k : Fin 8) (c : Core) : (s.setCore k c).brg = s.brg := rfl
@[simp] theorem State.setCore_flt (s : State) (k : Fin 8) (c : Core) : (s.setCore k c).flt = s.flt := rfl
@[simp] theorem State.setCore_jobs (s : State) (k : Fin 8) (c : Core) : (s.setCore k c).jobs = s.jobs := rfl
@[simp] theorem State.setCore_intake (s : State) (k : Fin 8) (c : Core) : (s.setCore k c).intake = s.intake := rfl
@[simp] theorem State.setCore_edge (s : State) (k : Fin 8) (c : Core) : (s.setCore k c).edge = s.edge := rfl
@[simp] theorem State.setCore_out (s : State) (k : Fin 8) (c : Core) : (s.setCore k c).out = s.out := rfl
@[simp] theorem State.setCore_host (s : State) (k : Fin 8) (c : Core) : (s.setCore k c).host = s.host := rfl
@[simp] theorem State.setCore_cof (s : State) (k : Fin 8) (c : Core) : (s.setCore k c).cof = s.cof := rfl
@[simp] theorem State.setCore_lnk (s : State) (k : Fin 8) (c : Core) : (s.setCore k c).lnk = s.lnk := rfl
@[simp] theorem State.setCore_pkgs (s : State) (k : Fin 8) (c : Core) : (s.setCore k c).pkgs = s.pkgs := rfl
@[simp] theorem State.setCore_dig (s : State) (k : Fin 8) (c : Core) : (s.setCore k c).dig = s.dig := rfl
@[simp] theorem State.setCore_sec (s : State) (k : Fin 8) (c : Core) : (s.setCore k c).sec = s.sec := rfl
@[simp] theorem State.setCore_pwr (s : State) (k : Fin 8) (c : Core) : (s.setCore k c).pwr = s.pwr := rfl
@[simp] theorem State.setCore_trc (s : State) (k : Fin 8) (c : Core) : (s.setCore k c).trc = s.trc := rfl
@[simp] theorem State.setCore_sto (s : State) (k : Fin 8) (c : Core) : (s.setCore k c).sto = s.sto := rfl
@[simp] theorem State.setCore_fwLocks (s : State) (k : Fin 8) (c : Core) : (s.setCore k c).fwLocks = s.fwLocks := rfl
@[simp] theorem State.setCore_ddrSize (s : State) (k : Fin 8) (c : Core) : (s.setCore k c).ddrSize = s.ddrSize := rfl
@[simp] theorem State.setCore_dram (s : State) (k : Fin 8) (c : Core) : (s.setCore k c).dram = s.dram := rfl
@[simp] theorem State.setCore_dramPoison (s : State) (k : Fin 8) (c : Core) : (s.setCore k c).dramPoison = s.dramPoison :=
  rfl
@[simp] theorem State.setCore_dramBad (s : State) (k : Fin 8) (c : Core) : (s.setCore k c).dramBad = s.dramBad := rfl
@[simp] theorem State.setCore_hostMem (s : State) (k : Fin 8) (c : Core) : (s.setCore k c).hostMem = s.hostMem := rfl
@[simp] theorem State.setCore_free (s : State) (k : Fin 8) (c : Core) : (s.setCore k c).free = s.free := rfl
@[simp] theorem State.setCore_wire (s : State) (k : Fin 8) (c : Core) : (s.setCore k c).wire = s.wire := rfl
@[simp] theorem State.setCore_getReg (s : State) (k : Fin 8) (c : Core) (o : Nat) : (s.setCore k c).getReg o = s.getReg o :=
  rfl
@[simp] theorem State.setCore_getF (s : State) (k : Fin 8) (c : Core) (g : Fld) : (s.setCore k c).getF g = s.getF g := rfl
@[simp] theorem State.setCore_flag (s : State) (k : Fin 8) (c : Core) (g : Fld) : (s.setCore k c).flag g = s.flag g := rfl
@[simp] theorem State.setCore_inForce (s : State) (k : Fin 8) (c : Core) (o : Nat) : (s.setCore k c).inForce o = s.inForce o :=
  rfl
@[simp] theorem State.setCore_forceF (s : State) (k : Fin 8) (c : Core) (g : Fld) : (s.setCore k c).forceF g = s.forceF g :=
  rfl
@[simp] theorem State.setCore_job (s : State) (k : Fin 8) (c : Core) (i : Nat) : (s.setCore k c).job i = s.job i := rfl
@[simp] theorem State.setCore_dev (s : State) (k : Fin 8) (c : Core) : (s.setCore k c).dev = s.dev := rfl
@[simp] theorem State.setCore_brgUp (s : State) (k : Fin 8) (c : Core) : (s.setCore k c).brgUp = s.brgUp := rfl
@[simp] theorem State.setCore_pstate (s : State) (k : Fin 8) (c : Core) (q : Fin 8) : (s.setCore k c).pstate q = s.pstate q :=
  rfl
@[simp] theorem State.setCore_ring (s : State) (k : Fin 8) (c : Core) (e : Fin 2) : (s.setCore k c).ring e = s.ring e := rfl

/-! ### State.setCtx -/

@[simp] theorem State.setCtx_pending (s : State) (k : Fin 8) (x : Fin 3) (c : Ctx) : (s.setCtx k x c).pending = s.pending :=
  rfl
@[simp] theorem State.setCtx_regs (s : State) (k : Fin 8) (x : Fin 3) (c : Ctx) : (s.setCtx k x c).regs = s.regs := rfl
@[simp] theorem State.setCtx_force (s : State) (k : Fin 8) (x : Fin 3) (c : Ctx) : (s.setCtx k x c).force = s.force := rfl
@[simp] theorem State.setCtx_off (s : State) (k : Fin 8) (x : Fin 3) (c : Ctx) : (s.setCtx k x c).off = s.off := rfl
@[simp] theorem State.setCtx_time (s : State) (k : Fin 8) (x : Fin 3) (c : Ctx) : (s.setCtx k x c).time = s.time := rfl
@[simp] theorem State.setCtx_fsg (s : State) (k : Fin 8) (x : Fin 3) (c : Ctx) : (s.setCtx k x c).fsg = s.fsg := rfl
@[simp] theorem State.setCtx_brg (s : State) (k : Fin 8) (x : Fin 3) (c : Ctx) : (s.setCtx k x c).brg = s.brg := rfl
@[simp] theorem State.setCtx_flt (s : State) (k : Fin 8) (x : Fin 3) (c : Ctx) : (s.setCtx k x c).flt = s.flt := rfl
@[simp] theorem State.setCtx_jobs (s : State) (k : Fin 8) (x : Fin 3) (c : Ctx) : (s.setCtx k x c).jobs = s.jobs := rfl
@[simp] theorem State.setCtx_intake (s : State) (k : Fin 8) (x : Fin 3) (c : Ctx) : (s.setCtx k x c).intake = s.intake := rfl
@[simp] theorem State.setCtx_edge (s : State) (k : Fin 8) (x : Fin 3) (c : Ctx) : (s.setCtx k x c).edge = s.edge := rfl
@[simp] theorem State.setCtx_out (s : State) (k : Fin 8) (x : Fin 3) (c : Ctx) : (s.setCtx k x c).out = s.out := rfl
@[simp] theorem State.setCtx_host (s : State) (k : Fin 8) (x : Fin 3) (c : Ctx) : (s.setCtx k x c).host = s.host := rfl
@[simp] theorem State.setCtx_cof (s : State) (k : Fin 8) (x : Fin 3) (c : Ctx) : (s.setCtx k x c).cof = s.cof := rfl
@[simp] theorem State.setCtx_lnk (s : State) (k : Fin 8) (x : Fin 3) (c : Ctx) : (s.setCtx k x c).lnk = s.lnk := rfl
@[simp] theorem State.setCtx_pkgs (s : State) (k : Fin 8) (x : Fin 3) (c : Ctx) : (s.setCtx k x c).pkgs = s.pkgs := rfl
@[simp] theorem State.setCtx_dig (s : State) (k : Fin 8) (x : Fin 3) (c : Ctx) : (s.setCtx k x c).dig = s.dig := rfl
@[simp] theorem State.setCtx_sec (s : State) (k : Fin 8) (x : Fin 3) (c : Ctx) : (s.setCtx k x c).sec = s.sec := rfl
@[simp] theorem State.setCtx_pwr (s : State) (k : Fin 8) (x : Fin 3) (c : Ctx) : (s.setCtx k x c).pwr = s.pwr := rfl
@[simp] theorem State.setCtx_trc (s : State) (k : Fin 8) (x : Fin 3) (c : Ctx) : (s.setCtx k x c).trc = s.trc := rfl
@[simp] theorem State.setCtx_sto (s : State) (k : Fin 8) (x : Fin 3) (c : Ctx) : (s.setCtx k x c).sto = s.sto := rfl
@[simp] theorem State.setCtx_fwLocks (s : State) (k : Fin 8) (x : Fin 3) (c : Ctx) : (s.setCtx k x c).fwLocks = s.fwLocks :=
  rfl
@[simp] theorem State.setCtx_ddrSize (s : State) (k : Fin 8) (x : Fin 3) (c : Ctx) : (s.setCtx k x c).ddrSize = s.ddrSize :=
  rfl
@[simp] theorem State.setCtx_dram (s : State) (k : Fin 8) (x : Fin 3) (c : Ctx) : (s.setCtx k x c).dram = s.dram := rfl
@[simp] theorem State.setCtx_dramPoison (s : State) (k : Fin 8) (x : Fin 3) (c : Ctx) : (s.setCtx k x c).dramPoison = s.dramPoison :=
  rfl
@[simp] theorem State.setCtx_dramBad (s : State) (k : Fin 8) (x : Fin 3) (c : Ctx) : (s.setCtx k x c).dramBad = s.dramBad :=
  rfl
@[simp] theorem State.setCtx_hostMem (s : State) (k : Fin 8) (x : Fin 3) (c : Ctx) : (s.setCtx k x c).hostMem = s.hostMem :=
  rfl
@[simp] theorem State.setCtx_free (s : State) (k : Fin 8) (x : Fin 3) (c : Ctx) : (s.setCtx k x c).free = s.free := rfl
@[simp] theorem State.setCtx_wire (s : State) (k : Fin 8) (x : Fin 3) (c : Ctx) : (s.setCtx k x c).wire = s.wire := rfl
@[simp] theorem State.setCtx_getReg (s : State) (k : Fin 8) (x : Fin 3) (c : Ctx) (o : Nat) : (s.setCtx k x c).getReg o = s.getReg o :=
  rfl
@[simp] theorem State.setCtx_getF (s : State) (k : Fin 8) (x : Fin 3) (c : Ctx) (g : Fld) : (s.setCtx k x c).getF g = s.getF g :=
  rfl
@[simp] theorem State.setCtx_flag (s : State) (k : Fin 8) (x : Fin 3) (c : Ctx) (g : Fld) : (s.setCtx k x c).flag g = s.flag g :=
  rfl
@[simp] theorem State.setCtx_inForce (s : State) (k : Fin 8) (x : Fin 3) (c : Ctx) (o : Nat) : (s.setCtx k x c).inForce o = s.inForce o :=
  rfl
@[simp] theorem State.setCtx_forceF (s : State) (k : Fin 8) (x : Fin 3) (c : Ctx) (g : Fld) : (s.setCtx k x c).forceF g = s.forceF g :=
  rfl
@[simp] theorem State.setCtx_job (s : State) (k : Fin 8) (x : Fin 3) (c : Ctx) (i : Nat) : (s.setCtx k x c).job i = s.job i :=
  rfl
@[simp] theorem State.setCtx_dev (s : State) (k : Fin 8) (x : Fin 3) (c : Ctx) : (s.setCtx k x c).dev = s.dev := rfl
@[simp] theorem State.setCtx_brgUp (s : State) (k : Fin 8) (x : Fin 3) (c : Ctx) : (s.setCtx k x c).brgUp = s.brgUp := rfl
@[simp] theorem State.setCtx_pstate (s : State) (k : Fin 8) (x : Fin 3) (c : Ctx) (q : Fin 8) : (s.setCtx k x c).pstate q = s.pstate q :=
  rfl
@[simp] theorem State.setCtx_ring (s : State) (k : Fin 8) (x : Fin 3) (c : Ctx) (e : Fin 2) : (s.setCtx k x c).ring e = s.ring e :=
  rfl

/-! ### State.emit -/

@[simp] theorem State.emit_pending (s : State) (w : Wire) : (s.emit w).pending = s.pending := rfl
@[simp] theorem State.emit_regs (s : State) (w : Wire) : (s.emit w).regs = s.regs := rfl
@[simp] theorem State.emit_force (s : State) (w : Wire) : (s.emit w).force = s.force := rfl
@[simp] theorem State.emit_off (s : State) (w : Wire) : (s.emit w).off = s.off := rfl
@[simp] theorem State.emit_time (s : State) (w : Wire) : (s.emit w).time = s.time := rfl
@[simp] theorem State.emit_fsg (s : State) (w : Wire) : (s.emit w).fsg = s.fsg := rfl
@[simp] theorem State.emit_brg (s : State) (w : Wire) : (s.emit w).brg = s.brg := rfl
@[simp] theorem State.emit_flt (s : State) (w : Wire) : (s.emit w).flt = s.flt := rfl
@[simp] theorem State.emit_cores (s : State) (w : Wire) : (s.emit w).cores = s.cores := rfl
@[simp] theorem State.emit_jobs (s : State) (w : Wire) : (s.emit w).jobs = s.jobs := rfl
@[simp] theorem State.emit_intake (s : State) (w : Wire) : (s.emit w).intake = s.intake := rfl
@[simp] theorem State.emit_edge (s : State) (w : Wire) : (s.emit w).edge = s.edge := rfl
@[simp] theorem State.emit_out (s : State) (w : Wire) : (s.emit w).out = s.out := rfl
@[simp] theorem State.emit_host (s : State) (w : Wire) : (s.emit w).host = s.host := rfl
@[simp] theorem State.emit_cof (s : State) (w : Wire) : (s.emit w).cof = s.cof := rfl
@[simp] theorem State.emit_lnk (s : State) (w : Wire) : (s.emit w).lnk = s.lnk := rfl
@[simp] theorem State.emit_pkgs (s : State) (w : Wire) : (s.emit w).pkgs = s.pkgs := rfl
@[simp] theorem State.emit_dig (s : State) (w : Wire) : (s.emit w).dig = s.dig := rfl
@[simp] theorem State.emit_sec (s : State) (w : Wire) : (s.emit w).sec = s.sec := rfl
@[simp] theorem State.emit_pwr (s : State) (w : Wire) : (s.emit w).pwr = s.pwr := rfl
@[simp] theorem State.emit_trc (s : State) (w : Wire) : (s.emit w).trc = s.trc := rfl
@[simp] theorem State.emit_sto (s : State) (w : Wire) : (s.emit w).sto = s.sto := rfl
@[simp] theorem State.emit_fwLocks (s : State) (w : Wire) : (s.emit w).fwLocks = s.fwLocks := rfl
@[simp] theorem State.emit_ddrSize (s : State) (w : Wire) : (s.emit w).ddrSize = s.ddrSize := rfl
@[simp] theorem State.emit_dram (s : State) (w : Wire) : (s.emit w).dram = s.dram := rfl
@[simp] theorem State.emit_dramPoison (s : State) (w : Wire) : (s.emit w).dramPoison = s.dramPoison := rfl
@[simp] theorem State.emit_dramBad (s : State) (w : Wire) : (s.emit w).dramBad = s.dramBad := rfl
@[simp] theorem State.emit_hostMem (s : State) (w : Wire) : (s.emit w).hostMem = s.hostMem := rfl
@[simp] theorem State.emit_free (s : State) (w : Wire) : (s.emit w).free = s.free := rfl
@[simp] theorem State.emit_getReg (s : State) (w : Wire) (o : Nat) : (s.emit w).getReg o = s.getReg o := rfl
@[simp] theorem State.emit_getF (s : State) (w : Wire) (g : Fld) : (s.emit w).getF g = s.getF g := rfl
@[simp] theorem State.emit_flag (s : State) (w : Wire) (g : Fld) : (s.emit w).flag g = s.flag g := rfl
@[simp] theorem State.emit_inForce (s : State) (w : Wire) (o : Nat) : (s.emit w).inForce o = s.inForce o := rfl
@[simp] theorem State.emit_forceF (s : State) (w : Wire) (g : Fld) : (s.emit w).forceF g = s.forceF g := rfl
@[simp] theorem State.emit_core (s : State) (w : Wire) (q : Fin 8) : (s.emit w).core q = s.core q := rfl
@[simp] theorem State.emit_ctx (s : State) (w : Wire) (q : Fin 8) (y : Fin 3) : (s.emit w).ctx q y = s.ctx q y := rfl
@[simp] theorem State.emit_job (s : State) (w : Wire) (i : Nat) : (s.emit w).job i = s.job i := rfl
@[simp] theorem State.emit_dev (s : State) (w : Wire) : (s.emit w).dev = s.dev := rfl
@[simp] theorem State.emit_brgUp (s : State) (w : Wire) : (s.emit w).brgUp = s.brgUp := rfl
@[simp] theorem State.emit_pstate (s : State) (w : Wire) (q : Fin 8) : (s.emit w).pstate q = s.pstate q := rfl
@[simp] theorem State.emit_ring (s : State) (w : Wire) (e : Fin 2) : (s.emit w).ring e = s.ring e := rfl

/-! ### State.drawn -/

@[simp] theorem State.drawn_pending (s : State) (n : Nat) : (s.drawn n).pending = s.pending := rfl
@[simp] theorem State.drawn_regs (s : State) (n : Nat) : (s.drawn n).regs = s.regs := rfl
@[simp] theorem State.drawn_force (s : State) (n : Nat) : (s.drawn n).force = s.force := rfl
@[simp] theorem State.drawn_off (s : State) (n : Nat) : (s.drawn n).off = s.off := rfl
@[simp] theorem State.drawn_time (s : State) (n : Nat) : (s.drawn n).time = s.time := rfl
@[simp] theorem State.drawn_fsg (s : State) (n : Nat) : (s.drawn n).fsg = s.fsg := rfl
@[simp] theorem State.drawn_brg (s : State) (n : Nat) : (s.drawn n).brg = s.brg := rfl
@[simp] theorem State.drawn_flt (s : State) (n : Nat) : (s.drawn n).flt = s.flt := rfl
@[simp] theorem State.drawn_cores (s : State) (n : Nat) : (s.drawn n).cores = s.cores := rfl
@[simp] theorem State.drawn_jobs (s : State) (n : Nat) : (s.drawn n).jobs = s.jobs := rfl
@[simp] theorem State.drawn_intake (s : State) (n : Nat) : (s.drawn n).intake = s.intake := rfl
@[simp] theorem State.drawn_edge (s : State) (n : Nat) : (s.drawn n).edge = s.edge := rfl
@[simp] theorem State.drawn_out (s : State) (n : Nat) : (s.drawn n).out = s.out := rfl
@[simp] theorem State.drawn_host (s : State) (n : Nat) : (s.drawn n).host = s.host := rfl
@[simp] theorem State.drawn_cof (s : State) (n : Nat) : (s.drawn n).cof = s.cof := rfl
@[simp] theorem State.drawn_lnk (s : State) (n : Nat) : (s.drawn n).lnk = s.lnk := rfl
@[simp] theorem State.drawn_pkgs (s : State) (n : Nat) : (s.drawn n).pkgs = s.pkgs := rfl
@[simp] theorem State.drawn_dig (s : State) (n : Nat) : (s.drawn n).dig = s.dig := rfl
@[simp] theorem State.drawn_sec (s : State) (n : Nat) : (s.drawn n).sec = s.sec := rfl
@[simp] theorem State.drawn_pwr (s : State) (n : Nat) : (s.drawn n).pwr = s.pwr := rfl
@[simp] theorem State.drawn_trc (s : State) (n : Nat) : (s.drawn n).trc = s.trc := rfl
@[simp] theorem State.drawn_sto (s : State) (n : Nat) : (s.drawn n).sto = s.sto := rfl
@[simp] theorem State.drawn_fwLocks (s : State) (n : Nat) : (s.drawn n).fwLocks = s.fwLocks := rfl
@[simp] theorem State.drawn_ddrSize (s : State) (n : Nat) : (s.drawn n).ddrSize = s.ddrSize := rfl
@[simp] theorem State.drawn_dram (s : State) (n : Nat) : (s.drawn n).dram = s.dram := rfl
@[simp] theorem State.drawn_dramPoison (s : State) (n : Nat) : (s.drawn n).dramPoison = s.dramPoison := rfl
@[simp] theorem State.drawn_dramBad (s : State) (n : Nat) : (s.drawn n).dramBad = s.dramBad := rfl
@[simp] theorem State.drawn_hostMem (s : State) (n : Nat) : (s.drawn n).hostMem = s.hostMem := rfl
@[simp] theorem State.drawn_wire (s : State) (n : Nat) : (s.drawn n).wire = s.wire := rfl
@[simp] theorem State.drawn_getReg (s : State) (n : Nat) (o : Nat) : (s.drawn n).getReg o = s.getReg o := rfl
@[simp] theorem State.drawn_getF (s : State) (n : Nat) (g : Fld) : (s.drawn n).getF g = s.getF g := rfl
@[simp] theorem State.drawn_flag (s : State) (n : Nat) (g : Fld) : (s.drawn n).flag g = s.flag g := rfl
@[simp] theorem State.drawn_inForce (s : State) (n : Nat) (o : Nat) : (s.drawn n).inForce o = s.inForce o := rfl
@[simp] theorem State.drawn_forceF (s : State) (n : Nat) (g : Fld) : (s.drawn n).forceF g = s.forceF g := rfl
@[simp] theorem State.drawn_core (s : State) (n : Nat) (q : Fin 8) : (s.drawn n).core q = s.core q := rfl
@[simp] theorem State.drawn_ctx (s : State) (n : Nat) (q : Fin 8) (y : Fin 3) : (s.drawn n).ctx q y = s.ctx q y := rfl
@[simp] theorem State.drawn_job (s : State) (n : Nat) (i : Nat) : (s.drawn n).job i = s.job i := rfl
@[simp] theorem State.drawn_dev (s : State) (n : Nat) : (s.drawn n).dev = s.dev := rfl
@[simp] theorem State.drawn_brgUp (s : State) (n : Nat) : (s.drawn n).brgUp = s.brgUp := rfl
@[simp] theorem State.drawn_pstate (s : State) (n : Nat) (q : Fin 8) : (s.drawn n).pstate q = s.pstate q := rfl
@[simp] theorem State.drawn_ring (s : State) (n : Nat) (e : Fin 2) : (s.drawn n).ring e = s.ring e := rfl

/-! ### State.report -/

@[simp] theorem State.report_pending (s : State) (r : FRec) : (s.report r).pending = s.pending := rfl
@[simp] theorem State.report_regs (s : State) (r : FRec) : (s.report r).regs = s.regs := rfl
@[simp] theorem State.report_force (s : State) (r : FRec) : (s.report r).force = s.force := rfl
@[simp] theorem State.report_off (s : State) (r : FRec) : (s.report r).off = s.off := rfl
@[simp] theorem State.report_time (s : State) (r : FRec) : (s.report r).time = s.time := rfl
@[simp] theorem State.report_fsg (s : State) (r : FRec) : (s.report r).fsg = s.fsg := rfl
@[simp] theorem State.report_brg (s : State) (r : FRec) : (s.report r).brg = s.brg := rfl
@[simp] theorem State.report_cores (s : State) (r : FRec) : (s.report r).cores = s.cores := rfl
@[simp] theorem State.report_jobs (s : State) (r : FRec) : (s.report r).jobs = s.jobs := rfl
@[simp] theorem State.report_intake (s : State) (r : FRec) : (s.report r).intake = s.intake := rfl
@[simp] theorem State.report_edge (s : State) (r : FRec) : (s.report r).edge = s.edge := rfl
@[simp] theorem State.report_out (s : State) (r : FRec) : (s.report r).out = s.out := rfl
@[simp] theorem State.report_host (s : State) (r : FRec) : (s.report r).host = s.host := rfl
@[simp] theorem State.report_cof (s : State) (r : FRec) : (s.report r).cof = s.cof := rfl
@[simp] theorem State.report_lnk (s : State) (r : FRec) : (s.report r).lnk = s.lnk := rfl
@[simp] theorem State.report_pkgs (s : State) (r : FRec) : (s.report r).pkgs = s.pkgs := rfl
@[simp] theorem State.report_dig (s : State) (r : FRec) : (s.report r).dig = s.dig := rfl
@[simp] theorem State.report_sec (s : State) (r : FRec) : (s.report r).sec = s.sec := rfl
@[simp] theorem State.report_pwr (s : State) (r : FRec) : (s.report r).pwr = s.pwr := rfl
@[simp] theorem State.report_trc (s : State) (r : FRec) : (s.report r).trc = s.trc := rfl
@[simp] theorem State.report_sto (s : State) (r : FRec) : (s.report r).sto = s.sto := rfl
@[simp] theorem State.report_fwLocks (s : State) (r : FRec) : (s.report r).fwLocks = s.fwLocks := rfl
@[simp] theorem State.report_ddrSize (s : State) (r : FRec) : (s.report r).ddrSize = s.ddrSize := rfl
@[simp] theorem State.report_dram (s : State) (r : FRec) : (s.report r).dram = s.dram := rfl
@[simp] theorem State.report_dramPoison (s : State) (r : FRec) : (s.report r).dramPoison = s.dramPoison := rfl
@[simp] theorem State.report_dramBad (s : State) (r : FRec) : (s.report r).dramBad = s.dramBad := rfl
@[simp] theorem State.report_hostMem (s : State) (r : FRec) : (s.report r).hostMem = s.hostMem := rfl
@[simp] theorem State.report_free (s : State) (r : FRec) : (s.report r).free = s.free := rfl
@[simp] theorem State.report_wire (s : State) (r : FRec) : (s.report r).wire = s.wire := rfl
@[simp] theorem State.report_getReg (s : State) (r : FRec) (o : Nat) : (s.report r).getReg o = s.getReg o := rfl
@[simp] theorem State.report_getF (s : State) (r : FRec) (g : Fld) : (s.report r).getF g = s.getF g := rfl
@[simp] theorem State.report_flag (s : State) (r : FRec) (g : Fld) : (s.report r).flag g = s.flag g := rfl
@[simp] theorem State.report_inForce (s : State) (r : FRec) (o : Nat) : (s.report r).inForce o = s.inForce o := rfl
@[simp] theorem State.report_forceF (s : State) (r : FRec) (g : Fld) : (s.report r).forceF g = s.forceF g := rfl
@[simp] theorem State.report_core (s : State) (r : FRec) (q : Fin 8) : (s.report r).core q = s.core q := rfl
@[simp] theorem State.report_ctx (s : State) (r : FRec) (q : Fin 8) (y : Fin 3) : (s.report r).ctx q y = s.ctx q y := rfl
@[simp] theorem State.report_job (s : State) (r : FRec) (i : Nat) : (s.report r).job i = s.job i := rfl
@[simp] theorem State.report_dev (s : State) (r : FRec) : (s.report r).dev = s.dev := rfl
@[simp] theorem State.report_brgUp (s : State) (r : FRec) : (s.report r).brgUp = s.brgUp := rfl
@[simp] theorem State.report_pstate (s : State) (r : FRec) (q : Fin 8) : (s.report r).pstate q = s.pstate q := rfl
@[simp] theorem State.report_ring (s : State) (r : FRec) (e : Fin 2) : (s.report r).ring e = s.ring e := rfl

/-! ### State.setJob -/

@[simp] theorem State.setJob_pending (s : State) (j : Job) : (s.setJob j).pending = s.pending := rfl
@[simp] theorem State.setJob_regs (s : State) (j : Job) : (s.setJob j).regs = s.regs := rfl
@[simp] theorem State.setJob_force (s : State) (j : Job) : (s.setJob j).force = s.force := rfl
@[simp] theorem State.setJob_off (s : State) (j : Job) : (s.setJob j).off = s.off := rfl
@[simp] theorem State.setJob_time (s : State) (j : Job) : (s.setJob j).time = s.time := rfl
@[simp] theorem State.setJob_fsg (s : State) (j : Job) : (s.setJob j).fsg = s.fsg := rfl
@[simp] theorem State.setJob_brg (s : State) (j : Job) : (s.setJob j).brg = s.brg := rfl
@[simp] theorem State.setJob_flt (s : State) (j : Job) : (s.setJob j).flt = s.flt := rfl
@[simp] theorem State.setJob_cores (s : State) (j : Job) : (s.setJob j).cores = s.cores := rfl
@[simp] theorem State.setJob_intake (s : State) (j : Job) : (s.setJob j).intake = s.intake := rfl
@[simp] theorem State.setJob_edge (s : State) (j : Job) : (s.setJob j).edge = s.edge := rfl
@[simp] theorem State.setJob_out (s : State) (j : Job) : (s.setJob j).out = s.out := rfl
@[simp] theorem State.setJob_host (s : State) (j : Job) : (s.setJob j).host = s.host := rfl
@[simp] theorem State.setJob_cof (s : State) (j : Job) : (s.setJob j).cof = s.cof := rfl
@[simp] theorem State.setJob_lnk (s : State) (j : Job) : (s.setJob j).lnk = s.lnk := rfl
@[simp] theorem State.setJob_pkgs (s : State) (j : Job) : (s.setJob j).pkgs = s.pkgs := rfl
@[simp] theorem State.setJob_dig (s : State) (j : Job) : (s.setJob j).dig = s.dig := rfl
@[simp] theorem State.setJob_sec (s : State) (j : Job) : (s.setJob j).sec = s.sec := rfl
@[simp] theorem State.setJob_pwr (s : State) (j : Job) : (s.setJob j).pwr = s.pwr := rfl
@[simp] theorem State.setJob_trc (s : State) (j : Job) : (s.setJob j).trc = s.trc := rfl
@[simp] theorem State.setJob_sto (s : State) (j : Job) : (s.setJob j).sto = s.sto := rfl
@[simp] theorem State.setJob_fwLocks (s : State) (j : Job) : (s.setJob j).fwLocks = s.fwLocks := rfl
@[simp] theorem State.setJob_ddrSize (s : State) (j : Job) : (s.setJob j).ddrSize = s.ddrSize := rfl
@[simp] theorem State.setJob_dram (s : State) (j : Job) : (s.setJob j).dram = s.dram := rfl
@[simp] theorem State.setJob_dramPoison (s : State) (j : Job) : (s.setJob j).dramPoison = s.dramPoison := rfl
@[simp] theorem State.setJob_dramBad (s : State) (j : Job) : (s.setJob j).dramBad = s.dramBad := rfl
@[simp] theorem State.setJob_hostMem (s : State) (j : Job) : (s.setJob j).hostMem = s.hostMem := rfl
@[simp] theorem State.setJob_free (s : State) (j : Job) : (s.setJob j).free = s.free := rfl
@[simp] theorem State.setJob_wire (s : State) (j : Job) : (s.setJob j).wire = s.wire := rfl
@[simp] theorem State.setJob_getReg (s : State) (j : Job) (o : Nat) : (s.setJob j).getReg o = s.getReg o := rfl
@[simp] theorem State.setJob_getF (s : State) (j : Job) (g : Fld) : (s.setJob j).getF g = s.getF g := rfl
@[simp] theorem State.setJob_flag (s : State) (j : Job) (g : Fld) : (s.setJob j).flag g = s.flag g := rfl
@[simp] theorem State.setJob_inForce (s : State) (j : Job) (o : Nat) : (s.setJob j).inForce o = s.inForce o := rfl
@[simp] theorem State.setJob_forceF (s : State) (j : Job) (g : Fld) : (s.setJob j).forceF g = s.forceF g := rfl
@[simp] theorem State.setJob_core (s : State) (j : Job) (q : Fin 8) : (s.setJob j).core q = s.core q := rfl
@[simp] theorem State.setJob_ctx (s : State) (j : Job) (q : Fin 8) (y : Fin 3) : (s.setJob j).ctx q y = s.ctx q y := rfl
@[simp] theorem State.setJob_dev (s : State) (j : Job) : (s.setJob j).dev = s.dev := rfl
@[simp] theorem State.setJob_brgUp (s : State) (j : Job) : (s.setJob j).brgUp = s.brgUp := rfl
@[simp] theorem State.setJob_pstate (s : State) (j : Job) (q : Fin 8) : (s.setJob j).pstate q = s.pstate q := rfl
@[simp] theorem State.setJob_ring (s : State) (j : Job) (e : Fin 2) : (s.setJob j).ring e = s.ring e := rfl

/-! ### State.modJob -/

@[simp] theorem State.modJob_pending (s : State) (i : Nat) (h : Job → Job) : (s.modJob i h).pending = s.pending := rfl
@[simp] theorem State.modJob_regs (s : State) (i : Nat) (h : Job → Job) : (s.modJob i h).regs = s.regs := rfl
@[simp] theorem State.modJob_force (s : State) (i : Nat) (h : Job → Job) : (s.modJob i h).force = s.force := rfl
@[simp] theorem State.modJob_off (s : State) (i : Nat) (h : Job → Job) : (s.modJob i h).off = s.off := rfl
@[simp] theorem State.modJob_time (s : State) (i : Nat) (h : Job → Job) : (s.modJob i h).time = s.time := rfl
@[simp] theorem State.modJob_fsg (s : State) (i : Nat) (h : Job → Job) : (s.modJob i h).fsg = s.fsg := rfl
@[simp] theorem State.modJob_brg (s : State) (i : Nat) (h : Job → Job) : (s.modJob i h).brg = s.brg := rfl
@[simp] theorem State.modJob_flt (s : State) (i : Nat) (h : Job → Job) : (s.modJob i h).flt = s.flt := rfl
@[simp] theorem State.modJob_cores (s : State) (i : Nat) (h : Job → Job) : (s.modJob i h).cores = s.cores := rfl
@[simp] theorem State.modJob_intake (s : State) (i : Nat) (h : Job → Job) : (s.modJob i h).intake = s.intake := rfl
@[simp] theorem State.modJob_edge (s : State) (i : Nat) (h : Job → Job) : (s.modJob i h).edge = s.edge := rfl
@[simp] theorem State.modJob_out (s : State) (i : Nat) (h : Job → Job) : (s.modJob i h).out = s.out := rfl
@[simp] theorem State.modJob_host (s : State) (i : Nat) (h : Job → Job) : (s.modJob i h).host = s.host := rfl
@[simp] theorem State.modJob_cof (s : State) (i : Nat) (h : Job → Job) : (s.modJob i h).cof = s.cof := rfl
@[simp] theorem State.modJob_lnk (s : State) (i : Nat) (h : Job → Job) : (s.modJob i h).lnk = s.lnk := rfl
@[simp] theorem State.modJob_pkgs (s : State) (i : Nat) (h : Job → Job) : (s.modJob i h).pkgs = s.pkgs := rfl
@[simp] theorem State.modJob_dig (s : State) (i : Nat) (h : Job → Job) : (s.modJob i h).dig = s.dig := rfl
@[simp] theorem State.modJob_sec (s : State) (i : Nat) (h : Job → Job) : (s.modJob i h).sec = s.sec := rfl
@[simp] theorem State.modJob_pwr (s : State) (i : Nat) (h : Job → Job) : (s.modJob i h).pwr = s.pwr := rfl
@[simp] theorem State.modJob_trc (s : State) (i : Nat) (h : Job → Job) : (s.modJob i h).trc = s.trc := rfl
@[simp] theorem State.modJob_sto (s : State) (i : Nat) (h : Job → Job) : (s.modJob i h).sto = s.sto := rfl
@[simp] theorem State.modJob_fwLocks (s : State) (i : Nat) (h : Job → Job) : (s.modJob i h).fwLocks = s.fwLocks := rfl
@[simp] theorem State.modJob_ddrSize (s : State) (i : Nat) (h : Job → Job) : (s.modJob i h).ddrSize = s.ddrSize := rfl
@[simp] theorem State.modJob_dram (s : State) (i : Nat) (h : Job → Job) : (s.modJob i h).dram = s.dram := rfl
@[simp] theorem State.modJob_dramPoison (s : State) (i : Nat) (h : Job → Job) : (s.modJob i h).dramPoison = s.dramPoison :=
  rfl
@[simp] theorem State.modJob_dramBad (s : State) (i : Nat) (h : Job → Job) : (s.modJob i h).dramBad = s.dramBad := rfl
@[simp] theorem State.modJob_hostMem (s : State) (i : Nat) (h : Job → Job) : (s.modJob i h).hostMem = s.hostMem := rfl
@[simp] theorem State.modJob_free (s : State) (i : Nat) (h : Job → Job) : (s.modJob i h).free = s.free := rfl
@[simp] theorem State.modJob_wire (s : State) (i : Nat) (h : Job → Job) : (s.modJob i h).wire = s.wire := rfl
@[simp] theorem State.modJob_getReg (s : State) (i : Nat) (h : Job → Job) (o : Nat) : (s.modJob i h).getReg o = s.getReg o :=
  rfl
@[simp] theorem State.modJob_getF (s : State) (i : Nat) (h : Job → Job) (g : Fld) : (s.modJob i h).getF g = s.getF g := rfl
@[simp] theorem State.modJob_flag (s : State) (i : Nat) (h : Job → Job) (g : Fld) : (s.modJob i h).flag g = s.flag g := rfl
@[simp] theorem State.modJob_inForce (s : State) (i : Nat) (h : Job → Job) (o : Nat) : (s.modJob i h).inForce o = s.inForce o :=
  rfl
@[simp] theorem State.modJob_forceF (s : State) (i : Nat) (h : Job → Job) (g : Fld) : (s.modJob i h).forceF g = s.forceF g :=
  rfl
@[simp] theorem State.modJob_core (s : State) (i : Nat) (h : Job → Job) (q : Fin 8) : (s.modJob i h).core q = s.core q := rfl
@[simp] theorem State.modJob_ctx (s : State) (i : Nat) (h : Job → Job) (q : Fin 8) (y : Fin 3) : (s.modJob i h).ctx q y = s.ctx q y :=
  rfl
@[simp] theorem State.modJob_dev (s : State) (i : Nat) (h : Job → Job) : (s.modJob i h).dev = s.dev := rfl
@[simp] theorem State.modJob_brgUp (s : State) (i : Nat) (h : Job → Job) : (s.modJob i h).brgUp = s.brgUp := rfl
@[simp] theorem State.modJob_pstate (s : State) (i : Nat) (h : Job → Job) (q : Fin 8) : (s.modJob i h).pstate q = s.pstate q :=
  rfl
@[simp] theorem State.modJob_ring (s : State) (i : Nat) (h : Job → Job) (e : Fin 2) : (s.modJob i h).ring e = s.ring e := rfl

/-! ### State.setRing -/

@[simp] theorem State.setRing_pending (s : State) (b : Fin 2) (r : RingSt) : (s.setRing b r).pending = s.pending := rfl
@[simp] theorem State.setRing_regs (s : State) (b : Fin 2) (r : RingSt) : (s.setRing b r).regs = s.regs := rfl
@[simp] theorem State.setRing_force (s : State) (b : Fin 2) (r : RingSt) : (s.setRing b r).force = s.force := rfl
@[simp] theorem State.setRing_off (s : State) (b : Fin 2) (r : RingSt) : (s.setRing b r).off = s.off := rfl
@[simp] theorem State.setRing_time (s : State) (b : Fin 2) (r : RingSt) : (s.setRing b r).time = s.time := rfl
@[simp] theorem State.setRing_fsg (s : State) (b : Fin 2) (r : RingSt) : (s.setRing b r).fsg = s.fsg := rfl
@[simp] theorem State.setRing_brg (s : State) (b : Fin 2) (r : RingSt) : (s.setRing b r).brg = s.brg := rfl
@[simp] theorem State.setRing_flt (s : State) (b : Fin 2) (r : RingSt) : (s.setRing b r).flt = s.flt := rfl
@[simp] theorem State.setRing_cores (s : State) (b : Fin 2) (r : RingSt) : (s.setRing b r).cores = s.cores := rfl
@[simp] theorem State.setRing_jobs (s : State) (b : Fin 2) (r : RingSt) : (s.setRing b r).jobs = s.jobs := rfl
@[simp] theorem State.setRing_intake (s : State) (b : Fin 2) (r : RingSt) : (s.setRing b r).intake = s.intake := rfl
@[simp] theorem State.setRing_edge (s : State) (b : Fin 2) (r : RingSt) : (s.setRing b r).edge = s.edge := rfl
@[simp] theorem State.setRing_out (s : State) (b : Fin 2) (r : RingSt) : (s.setRing b r).out = s.out := rfl
@[simp] theorem State.setRing_cof (s : State) (b : Fin 2) (r : RingSt) : (s.setRing b r).cof = s.cof := rfl
@[simp] theorem State.setRing_lnk (s : State) (b : Fin 2) (r : RingSt) : (s.setRing b r).lnk = s.lnk := rfl
@[simp] theorem State.setRing_pkgs (s : State) (b : Fin 2) (r : RingSt) : (s.setRing b r).pkgs = s.pkgs := rfl
@[simp] theorem State.setRing_dig (s : State) (b : Fin 2) (r : RingSt) : (s.setRing b r).dig = s.dig := rfl
@[simp] theorem State.setRing_sec (s : State) (b : Fin 2) (r : RingSt) : (s.setRing b r).sec = s.sec := rfl
@[simp] theorem State.setRing_pwr (s : State) (b : Fin 2) (r : RingSt) : (s.setRing b r).pwr = s.pwr := rfl
@[simp] theorem State.setRing_trc (s : State) (b : Fin 2) (r : RingSt) : (s.setRing b r).trc = s.trc := rfl
@[simp] theorem State.setRing_sto (s : State) (b : Fin 2) (r : RingSt) : (s.setRing b r).sto = s.sto := rfl
@[simp] theorem State.setRing_fwLocks (s : State) (b : Fin 2) (r : RingSt) : (s.setRing b r).fwLocks = s.fwLocks := rfl
@[simp] theorem State.setRing_ddrSize (s : State) (b : Fin 2) (r : RingSt) : (s.setRing b r).ddrSize = s.ddrSize := rfl
@[simp] theorem State.setRing_dram (s : State) (b : Fin 2) (r : RingSt) : (s.setRing b r).dram = s.dram := rfl
@[simp] theorem State.setRing_dramPoison (s : State) (b : Fin 2) (r : RingSt) : (s.setRing b r).dramPoison = s.dramPoison :=
  rfl
@[simp] theorem State.setRing_dramBad (s : State) (b : Fin 2) (r : RingSt) : (s.setRing b r).dramBad = s.dramBad := rfl
@[simp] theorem State.setRing_hostMem (s : State) (b : Fin 2) (r : RingSt) : (s.setRing b r).hostMem = s.hostMem := rfl
@[simp] theorem State.setRing_free (s : State) (b : Fin 2) (r : RingSt) : (s.setRing b r).free = s.free := rfl
@[simp] theorem State.setRing_wire (s : State) (b : Fin 2) (r : RingSt) : (s.setRing b r).wire = s.wire := rfl
@[simp] theorem State.setRing_getReg (s : State) (b : Fin 2) (r : RingSt) (o : Nat) : (s.setRing b r).getReg o = s.getReg o :=
  rfl
@[simp] theorem State.setRing_getF (s : State) (b : Fin 2) (r : RingSt) (g : Fld) : (s.setRing b r).getF g = s.getF g := rfl
@[simp] theorem State.setRing_flag (s : State) (b : Fin 2) (r : RingSt) (g : Fld) : (s.setRing b r).flag g = s.flag g := rfl
@[simp] theorem State.setRing_inForce (s : State) (b : Fin 2) (r : RingSt) (o : Nat) : (s.setRing b r).inForce o = s.inForce o :=
  rfl
@[simp] theorem State.setRing_forceF (s : State) (b : Fin 2) (r : RingSt) (g : Fld) : (s.setRing b r).forceF g = s.forceF g :=
  rfl
@[simp] theorem State.setRing_core (s : State) (b : Fin 2) (r : RingSt) (q : Fin 8) : (s.setRing b r).core q = s.core q :=
  rfl
@[simp] theorem State.setRing_ctx (s : State) (b : Fin 2) (r : RingSt) (q : Fin 8) (y : Fin 3) : (s.setRing b r).ctx q y = s.ctx q y :=
  rfl
@[simp] theorem State.setRing_job (s : State) (b : Fin 2) (r : RingSt) (i : Nat) : (s.setRing b r).job i = s.job i := rfl
@[simp] theorem State.setRing_dev (s : State) (b : Fin 2) (r : RingSt) : (s.setRing b r).dev = s.dev := rfl
@[simp] theorem State.setRing_brgUp (s : State) (b : Fin 2) (r : RingSt) : (s.setRing b r).brgUp = s.brgUp := rfl
@[simp] theorem State.setRing_pstate (s : State) (b : Fin 2) (r : RingSt) (q : Fin 8) : (s.setRing b r).pstate q = s.pstate q :=
  rfl

/-! ### State.raiseCause -/

/-- Raising a cause changes control registers and the wires only. -/
theorem State.raiseCause_frame (s : State) (n : Nat) :
    s.raiseCause n = { s with regs := (s.raiseCause n).regs, wire := (s.raiseCause n).wire } := by
  unfold State.raiseCause
  dsimp only
  split
  · rfl
  · split <;> rfl

@[simp] theorem State.raiseCause_pending (s : State) (n : Nat) : (s.raiseCause n).pending = s.pending :=
  by rw [s.raiseCause_frame n]
@[simp] theorem State.raiseCause_force (s : State) (n : Nat) : (s.raiseCause n).force = s.force :=
  by rw [s.raiseCause_frame n]
@[simp] theorem State.raiseCause_off (s : State) (n : Nat) : (s.raiseCause n).off = s.off := by rw [s.raiseCause_frame n]
@[simp] theorem State.raiseCause_time (s : State) (n : Nat) : (s.raiseCause n).time = s.time := by rw [s.raiseCause_frame n]
@[simp] theorem State.raiseCause_fsg (s : State) (n : Nat) : (s.raiseCause n).fsg = s.fsg := by rw [s.raiseCause_frame n]
@[simp] theorem State.raiseCause_brg (s : State) (n : Nat) : (s.raiseCause n).brg = s.brg := by rw [s.raiseCause_frame n]
@[simp] theorem State.raiseCause_flt (s : State) (n : Nat) : (s.raiseCause n).flt = s.flt := by rw [s.raiseCause_frame n]
@[simp] theorem State.raiseCause_cores (s : State) (n : Nat) : (s.raiseCause n).cores = s.cores :=
  by rw [s.raiseCause_frame n]
@[simp] theorem State.raiseCause_jobs (s : State) (n : Nat) : (s.raiseCause n).jobs = s.jobs := by rw [s.raiseCause_frame n]
@[simp] theorem State.raiseCause_intake (s : State) (n : Nat) : (s.raiseCause n).intake = s.intake :=
  by rw [s.raiseCause_frame n]
@[simp] theorem State.raiseCause_edge (s : State) (n : Nat) : (s.raiseCause n).edge = s.edge := by rw [s.raiseCause_frame n]
@[simp] theorem State.raiseCause_out (s : State) (n : Nat) : (s.raiseCause n).out = s.out := by rw [s.raiseCause_frame n]
@[simp] theorem State.raiseCause_host (s : State) (n : Nat) : (s.raiseCause n).host = s.host := by rw [s.raiseCause_frame n]
@[simp] theorem State.raiseCause_cof (s : State) (n : Nat) : (s.raiseCause n).cof = s.cof := by rw [s.raiseCause_frame n]
@[simp] theorem State.raiseCause_lnk (s : State) (n : Nat) : (s.raiseCause n).lnk = s.lnk := by rw [s.raiseCause_frame n]
@[simp] theorem State.raiseCause_pkgs (s : State) (n : Nat) : (s.raiseCause n).pkgs = s.pkgs := by rw [s.raiseCause_frame n]
@[simp] theorem State.raiseCause_dig (s : State) (n : Nat) : (s.raiseCause n).dig = s.dig := by rw [s.raiseCause_frame n]
@[simp] theorem State.raiseCause_sec (s : State) (n : Nat) : (s.raiseCause n).sec = s.sec := by rw [s.raiseCause_frame n]
@[simp] theorem State.raiseCause_pwr (s : State) (n : Nat) : (s.raiseCause n).pwr = s.pwr := by rw [s.raiseCause_frame n]
@[simp] theorem State.raiseCause_trc (s : State) (n : Nat) : (s.raiseCause n).trc = s.trc := by rw [s.raiseCause_frame n]
@[simp] theorem State.raiseCause_sto (s : State) (n : Nat) : (s.raiseCause n).sto = s.sto := by rw [s.raiseCause_frame n]
@[simp] theorem State.raiseCause_fwLocks (s : State) (n : Nat) : (s.raiseCause n).fwLocks = s.fwLocks :=
  by rw [s.raiseCause_frame n]
@[simp] theorem State.raiseCause_ddrSize (s : State) (n : Nat) : (s.raiseCause n).ddrSize = s.ddrSize :=
  by rw [s.raiseCause_frame n]
@[simp] theorem State.raiseCause_dram (s : State) (n : Nat) : (s.raiseCause n).dram = s.dram := by rw [s.raiseCause_frame n]
@[simp] theorem State.raiseCause_dramPoison (s : State) (n : Nat) : (s.raiseCause n).dramPoison = s.dramPoison :=
  by rw [s.raiseCause_frame n]
@[simp] theorem State.raiseCause_dramBad (s : State) (n : Nat) : (s.raiseCause n).dramBad = s.dramBad :=
  by rw [s.raiseCause_frame n]
@[simp] theorem State.raiseCause_hostMem (s : State) (n : Nat) : (s.raiseCause n).hostMem = s.hostMem :=
  by rw [s.raiseCause_frame n]
@[simp] theorem State.raiseCause_free (s : State) (n : Nat) : (s.raiseCause n).free = s.free := by rw [s.raiseCause_frame n]
@[simp] theorem State.raiseCause_inForce (s : State) (n : Nat) (o : Nat) : (s.raiseCause n).inForce o = s.inForce o :=
  by rw [s.raiseCause_frame n]; rfl
@[simp] theorem State.raiseCause_forceF (s : State) (n : Nat) (g : Fld) : (s.raiseCause n).forceF g = s.forceF g :=
  by rw [s.raiseCause_frame n]; rfl
@[simp] theorem State.raiseCause_core (s : State) (n : Nat) (q : Fin 8) : (s.raiseCause n).core q = s.core q :=
  by rw [s.raiseCause_frame n]; rfl
@[simp] theorem State.raiseCause_ctx (s : State) (n : Nat) (q : Fin 8) (y : Fin 3) : (s.raiseCause n).ctx q y = s.ctx q y :=
  by rw [s.raiseCause_frame n]; rfl
@[simp] theorem State.raiseCause_job (s : State) (n : Nat) (i : Nat) : (s.raiseCause n).job i = s.job i :=
  by rw [s.raiseCause_frame n]; rfl
@[simp] theorem State.raiseCause_ring (s : State) (n : Nat) (e : Fin 2) : (s.raiseCause n).ring e = s.ring e :=
  by rw [s.raiseCause_frame n]; rfl

/-! ### State.glbError -/

@[simp] theorem State.glbError_pending (s : State) (f : Fld) : (s.glbError f).pending = s.pending :=
  (s.setF f 1).raiseCause_pending 30
@[simp] theorem State.glbError_force (s : State) (f : Fld) : (s.glbError f).force = s.force :=
  (s.setF f 1).raiseCause_force 30
@[simp] theorem State.glbError_off (s : State) (f : Fld) : (s.glbError f).off = s.off := (s.setF f 1).raiseCause_off 30
@[simp] theorem State.glbError_time (s : State) (f : Fld) : (s.glbError f).time = s.time := (s.setF f 1).raiseCause_time 30
@[simp] theorem State.glbError_fsg (s : State) (f : Fld) : (s.glbError f).fsg = s.fsg := (s.setF f 1).raiseCause_fsg 30
@[simp] theorem State.glbError_brg (s : State) (f : Fld) : (s.glbError f).brg = s.brg := (s.setF f 1).raiseCause_brg 30
@[simp] theorem State.glbError_flt (s : State) (f : Fld) : (s.glbError f).flt = s.flt := (s.setF f 1).raiseCause_flt 30
@[simp] theorem State.glbError_cores (s : State) (f : Fld) : (s.glbError f).cores = s.cores :=
  (s.setF f 1).raiseCause_cores 30
@[simp] theorem State.glbError_jobs (s : State) (f : Fld) : (s.glbError f).jobs = s.jobs := (s.setF f 1).raiseCause_jobs 30
@[simp] theorem State.glbError_intake (s : State) (f : Fld) : (s.glbError f).intake = s.intake :=
  (s.setF f 1).raiseCause_intake 30
@[simp] theorem State.glbError_edge (s : State) (f : Fld) : (s.glbError f).edge = s.edge := (s.setF f 1).raiseCause_edge 30
@[simp] theorem State.glbError_out (s : State) (f : Fld) : (s.glbError f).out = s.out := (s.setF f 1).raiseCause_out 30
@[simp] theorem State.glbError_host (s : State) (f : Fld) : (s.glbError f).host = s.host := (s.setF f 1).raiseCause_host 30
@[simp] theorem State.glbError_cof (s : State) (f : Fld) : (s.glbError f).cof = s.cof := (s.setF f 1).raiseCause_cof 30
@[simp] theorem State.glbError_lnk (s : State) (f : Fld) : (s.glbError f).lnk = s.lnk := (s.setF f 1).raiseCause_lnk 30
@[simp] theorem State.glbError_pkgs (s : State) (f : Fld) : (s.glbError f).pkgs = s.pkgs := (s.setF f 1).raiseCause_pkgs 30
@[simp] theorem State.glbError_dig (s : State) (f : Fld) : (s.glbError f).dig = s.dig := (s.setF f 1).raiseCause_dig 30
@[simp] theorem State.glbError_sec (s : State) (f : Fld) : (s.glbError f).sec = s.sec := (s.setF f 1).raiseCause_sec 30
@[simp] theorem State.glbError_pwr (s : State) (f : Fld) : (s.glbError f).pwr = s.pwr := (s.setF f 1).raiseCause_pwr 30
@[simp] theorem State.glbError_trc (s : State) (f : Fld) : (s.glbError f).trc = s.trc := (s.setF f 1).raiseCause_trc 30
@[simp] theorem State.glbError_sto (s : State) (f : Fld) : (s.glbError f).sto = s.sto := (s.setF f 1).raiseCause_sto 30
@[simp] theorem State.glbError_fwLocks (s : State) (f : Fld) : (s.glbError f).fwLocks = s.fwLocks :=
  (s.setF f 1).raiseCause_fwLocks 30
@[simp] theorem State.glbError_ddrSize (s : State) (f : Fld) : (s.glbError f).ddrSize = s.ddrSize :=
  (s.setF f 1).raiseCause_ddrSize 30
@[simp] theorem State.glbError_dram (s : State) (f : Fld) : (s.glbError f).dram = s.dram := (s.setF f 1).raiseCause_dram 30
@[simp] theorem State.glbError_dramPoison (s : State) (f : Fld) : (s.glbError f).dramPoison = s.dramPoison :=
  (s.setF f 1).raiseCause_dramPoison 30
@[simp] theorem State.glbError_dramBad (s : State) (f : Fld) : (s.glbError f).dramBad = s.dramBad :=
  (s.setF f 1).raiseCause_dramBad 30
@[simp] theorem State.glbError_hostMem (s : State) (f : Fld) : (s.glbError f).hostMem = s.hostMem :=
  (s.setF f 1).raiseCause_hostMem 30
@[simp] theorem State.glbError_free (s : State) (f : Fld) : (s.glbError f).free = s.free := (s.setF f 1).raiseCause_free 30
@[simp] theorem State.glbError_inForce (s : State) (f : Fld) (o : Nat) : (s.glbError f).inForce o = s.inForce o :=
  (s.setF f 1).raiseCause_inForce 30 o
@[simp] theorem State.glbError_forceF (s : State) (f : Fld) (g : Fld) : (s.glbError f).forceF g = s.forceF g :=
  (s.setF f 1).raiseCause_forceF 30 g
@[simp] theorem State.glbError_core (s : State) (f : Fld) (q : Fin 8) : (s.glbError f).core q = s.core q :=
  (s.setF f 1).raiseCause_core 30 q
@[simp] theorem State.glbError_ctx (s : State) (f : Fld) (q : Fin 8) (y : Fin 3) : (s.glbError f).ctx q y = s.ctx q y :=
  (s.setF f 1).raiseCause_ctx 30 q y
@[simp] theorem State.glbError_job (s : State) (f : Fld) (i : Nat) : (s.glbError f).job i = s.job i :=
  (s.setF f 1).raiseCause_job 30 i
@[simp] theorem State.glbError_ring (s : State) (f : Fld) (e : Fin 2) : (s.glbError f).ring e = s.ring e :=
  (s.setF f 1).raiseCause_ring 30 e

/-! ### Bits and register fields -/

/-- The bits of a register with a field replaced, at that field. -/
theorem bitsOf_putBits_same (x : Word) {lo w : Nat} (v : Nat) (h : lo + w ≤ 32) :
    bitsOf (putBits x lo w v).toNat lo w = v % 2 ^ w := by
  unfold putBits bitsOf
  have hx := x.isLt
  generalize x.toNat = n at *
  rw [BitVec.toNat_ofNat]
  have e : 2 ^ 32 = 2 ^ lo * (2 ^ w * 2 ^ (32 - lo - w)) := by
    rw [← pow_add, ← pow_add]; congr 1; omega
  have hl : 0 < 2 ^ lo := by positivity
  have hw : 0 < 2 ^ w := by positivity
  have d1 := Nat.div_add_mod n (2 ^ lo)
  have d2 := Nat.div_add_mod (n / 2 ^ lo) (2 ^ w)
  have m1 := Nat.mod_lt n hl
  have hv := Nat.mod_lt v hw
  set q := n / 2 ^ lo / 2 ^ w
  have key : n - n / 2 ^ lo % 2 ^ w * 2 ^ lo + v % 2 ^ w * 2 ^ lo = 2 ^ lo * (2 ^ w * q + v % 2 ^ w) + n % 2 ^ lo := by
    have : n = 2 ^ lo * (2 ^ w * q) + n / 2 ^ lo % 2 ^ w * 2 ^ lo + n % 2 ^ lo := by
      conv_lhs => rw [← d1, ← d2]
      ring
    have e2 : n - n / 2 ^ lo % 2 ^ w * 2 ^ lo = 2 ^ lo * (2 ^ w * q) + n % 2 ^ lo := by omega
    rw [e2]; ring
  rw [key, e, Nat.mod_mul_right_div_self, Nat.mod_mul_right_mod, Nat.mul_add_div hl, Nat.div_eq_of_lt m1, Nat.add_zero,
    Nat.mul_add_mod, Nat.mod_mod]

/-- The bits of a register with a field replaced, beside that field. -/
theorem bitsOf_putBits_ne (x : Word) {lo w lo' w' : Nat} (v : Nat) (h : lo + w ≤ 32) (h' : lo' + w' ≤ 32)
    (hd : lo + w ≤ lo' ∨ lo' + w' ≤ lo) :
    bitsOf (putBits x lo w v).toNat lo' w' = bitsOf x.toNat lo' w' := by
  unfold putBits bitsOf
  have hx := x.isLt
  generalize x.toNat = n at *
  rw [BitVec.toNat_ofNat]
  have hl : 0 < 2 ^ lo := by positivity
  have hw : 0 < 2 ^ w := by positivity
  have hv := Nat.mod_lt v hw
  have d1 := Nat.div_add_mod n (2 ^ lo)
  have d2 := Nat.div_add_mod (n / 2 ^ lo) (2 ^ w)
  have m1 := Nat.mod_lt n hl
  set q := n / 2 ^ lo / 2 ^ w with hq
  have hn : n = 2 ^ lo * (2 ^ w * q) + n / 2 ^ lo % 2 ^ w * 2 ^ lo + n % 2 ^ lo := by
    conv_lhs => rw [← d1, ← d2]
    ring
  have e2 : n - n / 2 ^ lo % 2 ^ w * 2 ^ lo + v % 2 ^ w * 2 ^ lo
      = 2 ^ (lo + w) * q + (v % 2 ^ w * 2 ^ lo + n % 2 ^ lo) := by
    have : n - n / 2 ^ lo % 2 ^ w * 2 ^ lo = 2 ^ lo * (2 ^ w * q) + n % 2 ^ lo := by omega
    rw [this, pow_add]; ring
  have lowlt : ∀ z, z < 2 ^ w → z * 2 ^ lo + n % 2 ^ lo < 2 ^ (lo + w) := by
    intro z hz
    rw [pow_add]
    calc z * 2 ^ lo + n % 2 ^ lo < z * 2 ^ lo + 2 ^ lo := by omega
      _ = (z + 1) * 2 ^ lo := by ring
      _ ≤ 2 ^ w * 2 ^ lo := Nat.mul_le_mul_right _ hz
      _ = 2 ^ lo * 2 ^ w := by ring
  rw [e2]
  have hn' : n = 2 ^ (lo + w) * q + (n / 2 ^ lo % 2 ^ w * 2 ^ lo + n % 2 ^ lo) := by
    conv_lhs => rw [hn]
    rw [pow_add]; ring
  have hqn : q = n / 2 ^ (lo + w) := by rw [hq, Nat.div_div_eq_div_mul, pow_add]
  have tot : 2 ^ (lo + w) * q + (v % 2 ^ w * 2 ^ lo + n % 2 ^ lo) < 2 ^ 32 := by
    have h1 := lowlt _ hv
    have h2 : q < 2 ^ (32 - (lo + w)) := by
      rw [hqn]; apply Nat.div_lt_of_lt_mul; rw [← pow_add]
      rwa [show lo + w + (32 - (lo + w)) = 32 by omega]
    calc 2 ^ (lo + w) * q + (v % 2 ^ w * 2 ^ lo + n % 2 ^ lo) < 2 ^ (lo + w) * q + 2 ^ (lo + w) := by omega
      _ = 2 ^ (lo + w) * (q + 1) := by ring
      _ ≤ 2 ^ (lo + w) * 2 ^ (32 - (lo + w)) := Nat.mul_le_mul_left _ h2
      _ = 2 ^ 32 := by rw [← pow_add]; congr 1; omega
  rw [Nat.mod_eq_of_lt tot]
  rcases hd with hd | hd
  · obtain ⟨c, rfl⟩ := Nat.exists_eq_add_of_le hd
    rw [pow_add 2 (lo + w) c, ← Nat.div_div_eq_div_mul, ← Nat.div_div_eq_div_mul, Nat.mul_add_div (by positivity),
      Nat.div_eq_of_lt (lowlt _ hv), Nat.add_zero, hqn]
  · have p1 : 2 ^ lo = 2 ^ (lo' + w') * 2 ^ (lo - (lo' + w')) := by rw [← pow_add]; congr 1; omega
    have a1 : (2 ^ (lo + w) * q + (v % 2 ^ w * 2 ^ lo + n % 2 ^ lo)) % 2 ^ (lo' + w') = n % 2 ^ lo % 2 ^ (lo' + w') := by
      rw [show 2 ^ (lo + w) * q + (v % 2 ^ w * 2 ^ lo + n % 2 ^ lo)
        = 2 ^ (lo' + w') * (2 ^ (lo - (lo' + w')) * (2 ^ w * q + v % 2 ^ w)) + n % 2 ^ lo by rw [pow_add 2 lo w, p1]; ring]
      exact Nat.mul_add_mod ..
    have a2 : n % 2 ^ (lo' + w') = n % 2 ^ lo % 2 ^ (lo' + w') := by
      conv_lhs => rw [← d1]
      rw [p1, Nat.mul_assoc, Nat.mul_add_mod]
    have ex : ∀ z, z / 2 ^ lo' % 2 ^ w' = z % 2 ^ (lo' + w') / 2 ^ lo' := by
      intro z; rw [pow_add, Nat.mod_mul_right_div_self]
    rw [ex, ex, a1, ← a2]

/-- A control register after it is written. -/
theorem State.getReg_setReg_same (s : State) (o : Nat) (v : Word) (h : mwf resetWord s.regs = true) :
    (s.setReg o v).getReg o = v := mget_mset_same _ o v s.regs h

/-- A control register after another is written. -/
theorem State.getReg_setReg_ne (s : State) {o a : Nat} (v : Word) (h : o ≠ a) : (s.setReg a v).getReg o = s.getReg o :=
  mget_mset_ne _ h v s.regs

/-- The registers keep their canonical form. -/
theorem State.setReg_wf (s : State) (o : Nat) (v : Word) (h : mwf resetWord s.regs = true) :
    mwf resetWord (s.setReg o v).regs = true := mwf_mset _ o v s.regs h

theorem State.setF_wf (s : State) (f : Fld) (v : Nat) (h : mwf resetWord s.regs = true) :
    mwf resetWord (s.setF f v).regs = true := s.setReg_wf _ _ h

theorem State.raiseCause_wf (s : State) (n : Nat) (h : mwf resetWord s.regs = true) :
    mwf resetWord (s.raiseCause n).regs = true := by
  unfold State.raiseCause
  dsimp only
  split
  · exact h
  · split
    · exact s.setF_wf _ _ h
    · exact s.setF_wf _ _ h

theorem State.glbError_wf (s : State) (f : Fld) (h : mwf resetWord s.regs = true) :
    mwf resetWord (s.glbError f).regs = true := (s.setF f 1).raiseCause_wf 30 (s.setF_wf f 1 h)

/-- A register field after it is written. -/
theorem State.getF_setF_same (s : State) (f : Fld) (v : Nat) (h : mwf resetWord s.regs = true) (hf : f.lo + f.w ≤ 32) :
    (s.setF f v).getF f = v % 2 ^ f.w := by
  unfold State.getF State.setF
  rw [s.getReg_setReg_same _ _ h, bitsOf_putBits_same _ _ hf]

/-- A register field after a field of another register is written. -/
theorem State.getF_setF_off (s : State) {f g : Fld} (v : Nat) (h : g.off ≠ f.off) : (s.setF f v).getF g = s.getF g := by
  unfold State.getF State.setF
  rw [s.getReg_setReg_ne _ h]

/-- A register field after another field is written. -/
theorem State.getF_setF_ne (s : State) {f g : Fld} (v : Nat) (h : mwf resetWord s.regs = true) (hf : f.lo + f.w ≤ 32)
    (hg : g.lo + g.w ≤ 32) (hd : g.off ≠ f.off ∨ f.lo + f.w ≤ g.lo ∨ g.lo + g.w ≤ f.lo) :
    (s.setF f v).getF g = s.getF g := by
  by_cases e : g.off = f.off
  · unfold State.getF State.setF
    rw [e, s.getReg_setReg_same _ _ h, bitsOf_putBits_ne _ _ hf hg (by omega)]
  · exact s.getF_setF_off v e

/-- A register other than HOST_ICAUSE after a cause is raised. -/
theorem State.getReg_raiseCause (s : State) (n : Nat) {o : Nat} (h : o ≠ F.HOST_ICAUSE.off) :
    (s.raiseCause n).getReg o = s.getReg o := by
  unfold State.raiseCause
  dsimp only
  split
  · rfl
  · split
    · exact s.getReg_setReg_ne _ h
    · exact s.getReg_setReg_ne _ h

/-- A field of a register other than HOST_ICAUSE after a cause is raised. -/
theorem State.getF_raiseCause (s : State) (n : Nat) {g : Fld} (h : g.off ≠ F.HOST_ICAUSE.off) :
    (s.raiseCause n).getF g = s.getF g := by
  unfold State.getF
  rw [s.getReg_raiseCause n h]

/-- Bit `n` of HOST_ICAUSE is set once cause `n` has been raised. -/
theorem State.cause_set (s : State) {n : Nat} (hn : n < 32) (h : mwf resetWord s.regs = true) :
    (s.raiseCause n).getF ⟨F.HOST_ICAUSE.off, n, 1⟩ = 1 := by
  have one : (s.setF ⟨F.HOST_ICAUSE.off, n, 1⟩ 1).getF ⟨F.HOST_ICAUSE.off, n, 1⟩ = 1 :=
    s.getF_setF_same _ 1 h (by simp only; omega)
  unfold State.raiseCause
  dsimp only
  split
  · rename_i e
    have l : s.getF ⟨F.HOST_ICAUSE.off, n, 1⟩ < 2 := Nat.mod_lt _ (Nat.two_pow_pos 1)
    have z : s.getF ⟨F.HOST_ICAUSE.off, n, 1⟩ ≠ 0 := by simpa [State.flag] using e
    omega
  · split
    · exact one
    · exact one

/-! ### Cores and contexts -/

@[simp] theorem State.core_setCore_same (s : State) (k : Fin 8) (c : Core) : (s.setCore k c).core k = c := vget_vset_same ..

theorem State.core_setCore_ne (s : State) {k q : Fin 8} (c : Core) (h : q ≠ k) : (s.setCore k c).core q = s.core q :=
  vget_vset_ne _ h _

@[simp] theorem State.ctx_setCtx_same (s : State) (k : Fin 8) (x : Fin 3) (c : Ctx) : (s.setCtx k x c).ctx k x = c := by
  unfold State.ctx State.setCtx
  rw [State.core_setCore_same]
  exact vget_vset_same ..

theorem State.ctx_setCtx_ne (s : State) {k q : Fin 8} {x y : Fin 3} (c : Ctx) (h : q ≠ k ∨ y ≠ x) :
    (s.setCtx k x c).ctx q y = s.ctx q y := by
  unfold State.ctx State.setCtx
  by_cases e : q = k
  · subst e
    rw [State.core_setCore_same]
    exact vget_vset_ne _ (by simpa using h) _
  · rw [State.core_setCore_ne _ _ e]

@[simp] theorem State.setCore_setCore (s : State) (k : Fin 8) (b c : Core) : (s.setCore k b).setCore k c = s.setCore k c := by
  unfold State.setCore vset
  simp

@[simp] theorem State.setCtx_setCtx (s : State) (k : Fin 8) (x : Fin 3) (b c : Ctx) :
    (s.setCtx k x b).setCtx k x c = s.setCtx k x c := by
  conv_lhs => unfold State.setCtx
  rw [State.core_setCore_same, State.setCore_setCore]
  unfold State.setCtx vset
  simp

end Sys2Proof.Machine
end

