-- ==== Sys2Proof/Laws/Operands.lean ====
section
/-! SUPPORT. The registers of a context after they are written, and how an instruction of a context runs: the lemmas that the
statements about stripe instructions cite in place of the definitions. -/

namespace Sys2Proof.Machine

/-! ### Registers -/

theorem reg32_eq {a b : Nat} (ha : a < 32) (hb : b < 32) : reg32 a = reg32 b ↔ a = b := by
  simp [reg32, Fin.ext_iff, Nat.mod_eq_of_lt ha, Nat.mod_eq_of_lt hb]

theorem tok16_eq {a b : Nat} (ha : a < 16) (hb : b < 16) : tok16 a = tok16 b ↔ a = b := by
  simp [tok16, Fin.ext_iff, Nat.mod_eq_of_lt ha, Nat.mod_eq_of_lt hb]

/-- An S register after one is written (R204). -/
theorem Ctx.rs_ws (c : Ctx) (v : Word) {i n : Nat} (hi : i < 32) (hn : n < 32) :
    (c.ws i v).rs n = if n = i ∧ n ≠ 0 then v else c.rs n := by
  unfold Ctx.ws Ctx.rs
  by_cases h0 : n = 0
  · simp [h0]
  · by_cases hi0 : i = 0
    · have : ¬ (n = i) := by omega
      simp [h0, hi0]
    · simp only [h0, hi0, if_false]
      by_cases e : n = i
      · subst e; simp [h0]
      · have : reg32 n ≠ reg32 i := fun q => e ((reg32_eq hn hi).1 q)
        simp [e, vget_vset_ne _ this]

/-- Writing an S register changes S registers and register parity only. -/
theorem Ctx.ws_frame (c : Ctx) (i : Nat) (v : Word) : c.ws i v = { c with s := (c.ws i v).s, parBad := (c.ws i v).parBad } := by
  unfold Ctx.ws
  split <;> rfl

theorem Ctx.ws_parity (c : Ctx) (i : Nat) (v : Word) {n : Nat} (h : n ≠ i) :
    mget (dflt false) (c.ws i v).parBad n = mget (dflt false) c.parBad n := by
  unfold Ctx.ws
  split
  · rfl
  · exact mget_mset_ne _ h false c.parBad

theorem bitsOf_one (x i : Nat) : (bitsOf x i 1 == 1) = x.testBit i := by
  rw [Nat.testBit_eq_decide_div_mod_eq]
  unfold bitsOf
  rw [Bool.beq_eq_decide_eq, pow_one]

/-- A predicate as a bit of P7–P0. -/
theorem Ctx.rp_eq (c : Ctx) (i : Nat) : c.rp i = c.preds.testBit i := bitsOf_one _ _

theorem Ctx.preds_testBit (c : Ctx) (i : Nat) : c.preds.testBit i = (decide (i = 0) || c.p.getLsbD i) := by
  unfold Ctx.preds
  cases i with
  | zero => simp [Nat.testBit_zero]
  | succ i =>
    rw [Nat.testBit_succ, show (c.p.toNat / 2 * 2 + 1) / 2 = c.p.toNat / 2 by omega, ← Nat.testBit_succ]
    simp [BitVec.getLsbD]

theorem Ctx.preds_lt (c : Ctx) : c.preds < 256 := by
  have := c.p.isLt
  unfold Ctx.preds
  omega

/-- A predicate after one is written (R204). -/
theorem Ctx.rp_wp (c : Ctx) (b : Bool) {i n : Nat} (hi : i < 8) (hn : n < 8) :
    (c.wp i b).rp n = if n = i ∧ n ≠ 0 then b else c.rp n := by
  unfold Ctx.wp
  split
  · rename_i h
    have : ¬ (n = i ∧ n ≠ 0) := by omega
    simp [this]
  · rename_i h
    have hp := c.preds_lt
    have hl : bitsOf c.preds i 1 * 2 ^ i ≤ c.preds := by
      unfold bitsOf
      rw [pow_one]
      have := Nat.div_mul_le_self c.preds (2 ^ i)
      have h2 : c.preds / 2 ^ i % 2 ≤ c.preds / 2 ^ i := Nat.mod_le _ _
      exact (Nat.mul_le_mul_right _ h2).trans this
    have h128 : 2 ^ i ≤ 128 := by
      have : 2 ^ i ≤ 2 ^ 7 := Nat.pow_le_pow_right (by omega) (by omega)
      omega
    have e : (putBits (BitVec.ofNat 32 c.preds) i 1 (if b then 1 else 0)).toNat
        = c.preds - bitsOf c.preds i 1 * 2 ^ i + (if b then 2 ^ i else 0) := by
      unfold putBits
      have e1 : (BitVec.ofNat 32 c.preds).toNat = c.preds := by
        rw [BitVec.toNat_ofNat]; exact Nat.mod_eq_of_lt (by omega)
      have e2 : (if b then 1 else 0) % 2 ^ 1 * 2 ^ i = (if b then 2 ^ i else 0) := by cases b <;> simp
      rw [e1, e2, BitVec.toNat_ofNat]
      apply Nat.mod_eq_of_lt
      cases b <;> simp <;> omega
    have g : ∀ m, (BitVec.ofNat 32 c.preds).toNat.testBit m = c.preds.testBit m := by
      intro m
      rw [BitVec.toNat_ofNat, Nat.mod_eq_of_lt (by omega)]
    rw [Ctx.rp_eq, Ctx.rp_eq, Ctx.preds_testBit]
    simp only [BitVec.getLsbD, BitVec.toNat_ofNat, Nat.testBit_mod_two_pow, hn, decide_true, Bool.true_and]
    rw [← e, ← bitsOf_one]
    by_cases q : n = i
    · subst q
      rw [bitsOf_putBits_same _ _ (by omega)]
      cases b <;> simp [h]
    · rw [bitsOf_putBits_ne _ _ (by omega) (by omega) (by omega), bitsOf_one, g]
      have z : (decide (n = 0) || c.preds.testBit n) = c.preds.testBit n := by
        rw [Ctx.preds_testBit]; cases decide (n = 0) <;> simp
      simp [q, z]

theorem Ctx.wp_frame (c : Ctx) (i : Nat) (b : Bool) : c.wp i b = { c with p := (c.wp i b).p, parBad := (c.wp i b).parBad } := by
  unfold Ctx.wp
  split <;> rfl

theorem Ctx.wp_parity (c : Ctx) (i : Nat) (b : Bool) {n : Nat} (h : n ≠ 32 + i) :
    mget (dflt false) (c.wp i b).parBad n = mget (dflt false) c.parBad n := by
  unfold Ctx.wp
  split
  · rfl
  · exact mget_mset_ne _ h false c.parBad

theorem Ctx.rdesc_wdesc (c : Ctx) (v : BitVec 256) {i n : Nat} (hi : i < 32) (hn : n < 32) :
    (c.wdesc i v).rdesc n = if n = i then v else c.rdesc n := by
  unfold Ctx.wdesc Ctx.rdesc
  by_cases e : n = i
  · subst e; simp
  · have : reg32 n ≠ reg32 i := fun q => e ((reg32_eq hn hi).1 q)
    simp [e, vget_vset_ne _ this]

/-! ### Tokens -/

theorem Ctx.token_setToken (c : Ctx) (v : Tok) {i n : Nat} (hi : i < 16) (hn : n < 16) :
    (c.setToken i v).token n = if n = i then v else c.token n := by
  unfold Ctx.setToken Ctx.token
  by_cases e : n = i
  · subst e; simp
  · have : tok16 n ≠ tok16 i := fun q => e ((tok16_eq hn hi).1 q)
    simp [e, vget_vset_ne _ this]

/-! ### Fields of an instruction word -/

theorem fld_lt (w : BitVec 64) (hi lo : Nat) : fld w hi lo < 2 ^ (hi + 1 - lo) := Nat.mod_lt _ (by positivity)

theorem fRd_lt (w : BitVec 64) : fRd w < 32 := fld_lt w 47 43
theorem fRa_lt (w : BitVec 64) : fRa w < 32 := fld_lt w 42 38
theorem fTk_lt (w : BitVec 64) : fTk w < 16 := fld_lt w 37 34
theorem fTtk_lt (w : BitVec 64) : fTtk w < 16 := fld_lt w 35 32

/-- ALU and compare instructions come from two major opcodes each (Tables IS-4 to IS-6). -/
theorem fMaj_of_opOf {w : BitVec 64} {o : OpC} (h : opOf w = some o) :
    (o ∈ ([.add, .sub, .and_, .or_, .xor_, .sll, .srl, .sra, .mul, .mulh, .mulhu, .min_, .max_, .minu, .maxu] : List OpC) →
      fMaj w = 0 ∨ fMaj w = 1) ∧
    (o ∈ ([.eq, .ne, .lt, .ge, .ltu, .geu, .tst] : List OpC) → fMaj w = 2 ∨ fMaj w = 3) := by
  have hc : opCode w = some o := by
    unfold opOf at h
    split at h
    · cases h
    · split at h
      · rename_i p e _; cases h; exact e
      · cases h
  have mem : ∀ {l : List OpC} {n : Nat}, l[n]? = some o → o ∈ l := fun e => List.mem_of_getElem? e
  have no : ∀ (a l : List OpC), (a.all fun q => !l.contains q) = true → o ∈ a → o ∈ l → False := by
    intro a l h ha hl
    have := List.all_eq_true.1 h o ha
    simp_all
  unfold opCode at hc
  dsimp only at hc
  split at hc
  case h_1 e => exact ⟨fun _ => .inl e, fun q => (no _ _ (by decide) q (mem hc)).elim⟩
  case h_2 e => exact ⟨fun _ => .inr e, fun q => (no _ _ (by decide) q (mem hc)).elim⟩
  case h_3 e => exact ⟨fun q => (no _ _ (by decide) q (mem hc)).elim, fun _ => .inl e⟩
  case h_4 e => exact ⟨fun q => (no _ _ (by decide) q (mem hc)).elim, fun _ => .inr e⟩
  all_goals
    first
    | (have hm := mem hc
       exact ⟨fun q => (no _ _ (by decide) q hm).elim, fun q => (no _ _ (by decide) q hm).elim⟩)
    | (split at hc
       · cases hc
         exact ⟨fun q => absurd q (by decide), fun q => absurd q (by decide)⟩
       · cases hc)
    | cases hc

/-! ### How an instruction of a context runs -/

/-- An instruction that executes has its effect. -/
theorem State.instr_run {s : State} {k : Fin 8} {x : Fin 3} {o : OpC} {w : BitVec 64} (h : s.fetchOp k x = .run o w)
    (body : BitVec 64 → State → State) : s.instr k x o body = body w s := by
  unfold State.instr
  rw [h]
  simp

/-- An instruction that is guarded off only moves on (R207). -/
theorem State.instr_skip {s : State} {k : Fin 8} {x : Fin 3} {o : OpC} (h : s.fetchOp k x = .skip o)
    (body : BitVec 64 → State → State) : s.instr k x o body = s.advance k x := by
  unfold State.instr
  rw [h]
  simp

/-- A fetch or decode exception is raised whatever the instruction (R148, R150, R208). -/
theorem State.instr_exc {s : State} {k : Fin 8} {x : Fin 3} {e : Nat} (h : s.fetchOp k x = .exc e) (o : OpC)
    (body : BitVec 64 → State → State) : s.instr k x o body = s.raise k x (s.ctx k x).pc e none 0 := by
  unfold State.instr
  rw [h]

theorem State.instr_no {s : State} {k : Fin 8} {x : Fin 3} (h : s.fetchOp k x = .no) (o : OpC)
    (body : BitVec 64 → State → State) : s.instr k x o body = s := by
  unfold State.instr
  rw [h]

/-- A register word that fails parity halts the context (R439). -/
theorem State.instr_parity {s : State} {k : Fin 8} {x : Fin 3} {o : OpC} (h : s.fetchOp k x = .parity o)
    (body : BitVec 64 → State → State) : s.instr k x o body = s.regParity k x := by
  unfold State.instr
  rw [h]
  simp

/-- What stands at the program counter when an instruction executes (R148, R150, R207, R208, R439). -/
theorem State.fetchOp_run {s : State} {k : Fin 8} {x : Fin 3} {o : OpC} {w : BitVec 64} (h : s.fetchOp k x = .run o w) :
    s.canIssue k x = true ∧ (s.imemRange k x).1 ≤ (s.ctx k x).pc ∧
      (s.ctx k x).pc < (s.imemRange k x).1 + (s.imemRange k x).2 ∧
      mget (dflt false) (s.core k).imemBad (s.ctx k x).pc = false ∧ w = mget (dflt 0#64) (s.core k).imem (s.ctx k x).pc ∧
      opOf w = some o ∧ guardOn w (s.ctx k x).preds = true := by
  unfold State.fetchOp at h
  dsimp only at h
  split at h
  · cases h
  rename_i hi
  split at h
  · cases h
  rename_i hr
  split at h
  · cases h
  rename_i hb
  split at h
  · cases h
  rename_i p hp
  split at h
  · cases h
  split at h
  · cases h
  rename_i hg
  split at h
  · cases h
  injection h with e1 e2
  subst e1 e2
  rw [not_or] at hr
  refine ⟨by simpa using hi, by omega, by omega, by simpa using hb, rfl, hp, by simpa using hg⟩

end Sys2Proof.Machine
end

