-- ==== Sys2Proof/Laws/Registers.lean ====
section
/-! SUPPORT. What a register write can change before its action: the register itself, the status it sets and the interrupt
cause of that status. -/

namespace Sys2Proof

open Machine

theorem RegsOnly.refl (l : List Nat) (s : State) : RegsOnly l s s := ⟨rfl, fun _ _ => rfl⟩

theorem RegsOnly.trans {l l' : List Nat} {a b c : State} (h : RegsOnly l a b) (h' : RegsOnly l' b c) :
    RegsOnly (l ++ l') a c := by
  refine ⟨?_, fun o ho => ?_⟩
  · rw [h'.1, h.1]
  · rw [List.mem_append, not_or] at ho
    rw [h'.2 o ho.2, h.2 o ho.1]

theorem RegsOnly.mono {l l' : List Nat} {a b : State} (h : RegsOnly l a b) (hl : ∀ o ∈ l, o ∈ l') : RegsOnly l' a b :=
  ⟨h.1, fun o ho => h.2 o (fun m => ho (hl o m))⟩

theorem Machine.State.setReg_only (s : State) (o : Nat) (v : Word) : RegsOnly [o] s (s.setReg o v) :=
  ⟨rfl, fun _ h => s.getReg_setReg_ne v (by simpa using h)⟩

theorem Machine.State.setF_only (s : State) (f : Fld) (v : Nat) : RegsOnly [f.off] s (s.setF f v) := s.setReg_only _ _

theorem Machine.State.raiseCause_only (s : State) (n : Nat) : RegsOnly [F.HOST_ICAUSE.off] s (s.raiseCause n) :=
  ⟨s.raiseCause_frame n, fun _ h => s.getReg_raiseCause n (by simpa using h)⟩

theorem Machine.State.glbError_only (s : State) (f : Fld) : RegsOnly [f.off, F.HOST_ICAUSE.off] s (s.glbError f) :=
  (s.setF_only f 1).trans (State.raiseCause_only _ 30)

theorem Machine.State.bump_only (s : State) (f : Fld) (n : Nat) : RegsOnly [f.off] s (s.bump f n) := s.setF_only f _

theorem Machine.State.adjust_only (s : State) (off old v : Nat) :
    RegsOnly [F.TIME_STATUS_SLEW_CLIP.off, (F.IN_PORT_STAT_CFG_BUSY 0).off, (F.IN_PORT_STAT_CFG_BUSY 1).off,
      F.OF_TX_STAT_CFG_BUSY.off, F.LNK_CFG_CFG_BUSY.off, F.GLB_STATUS_BAD_ENCODING.off, F.HOST_ICAUSE.off]
      s (s.adjust off old v).2 := by
  have f (g : Fld) (w : Nat) (hg : g.off ∈ [F.TIME_STATUS_SLEW_CLIP.off, (F.IN_PORT_STAT_CFG_BUSY 0).off,
      (F.IN_PORT_STAT_CFG_BUSY 1).off, F.OF_TX_STAT_CFG_BUSY.off, F.LNK_CFG_CFG_BUSY.off]) :
      RegsOnly _ s (s.setF g w) := (State.setF_only s g w).mono (by intro o ho; rw [List.mem_singleton.1 ho]; exact hg)
  unfold State.adjust
  dsimp only
  repeat' first
    | split
    | exact RegsOnly.refl _ _
    | exact (f _ _ (by decide)).mono (by simp)
    | exact (State.glbError_only s _).mono (by decide)

/-- Offsets whose written value the owning chapter changes before it is stored. -/
def adjusted (off : Nat) : Bool :=
  [F.TIME_SLEW_PPB.off, 0x040000, 0x040040, F.OF_TX_CFG_ENABLE.off, F.LNK_CFG_CHIP.off, F.LNK_ROUTE_ROUTE.off,
    F.GLB_GPIO_OUT_OUT.off, F.PWR_LOOP_MARGIN_MIN.off, F.SEC_TAMPER_CFG_EN.off].contains off
  || (decide (0x010200 ≤ off) && decide (off < 0x010320))
  || (decide (0x040100 ≤ off) && decide (off < 0x040300) && decide (off % 64 = 0))

theorem Machine.State.adjust_plain (s : State) {off : Nat} (old v : Nat) (h : adjusted off = false) :
    s.adjust off old v = (v, s) := by
  simp only [adjusted, List.contains_cons, List.contains_nil, Bool.or_eq_false_iff, beq_eq_false_iff_ne, ne_eq,
    Bool.and_eq_false_iff, decide_eq_false_iff_not, Bool.or_false] at h
  obtain ⟨⟨⟨h1, h2, h3, h4, h5, h6, h7, h8, h9⟩, h10⟩, h11⟩ := h
  unfold State.adjust
  rw [if_neg h1, if_neg (by omega), if_neg (by omega), if_neg h4, if_neg h5, if_neg h6, if_neg h7, if_neg h8, if_neg h9,
    if_neg (by omega)]

/-- What storing a write changes: the register, the status it meets and the cause of that status. -/
theorem Machine.State.storeFields_only (s : State) {off : Nat} (v : Nat) (h : adjusted off = false) :
    RegsOnly [off, F.GLB_STATUS_BAD_ENCODING.off, F.HOST_ICAUSE.off] s (s.storeFields off v) := by
  unfold State.storeFields
  split
  · exact RegsOnly.refl _ _
  · dsimp only
    rw [s.adjust_plain _ _ h]
    dsimp only
    generalize writeFields _ _ _ _ = z
    have g (u : State) (b : Bool) (f : Fld) (hf : f.off = F.GLB_STATUS_BAD_ENCODING.off) :
        RegsOnly [F.GLB_STATUS_BAD_ENCODING.off, F.HOST_ICAUSE.off] u (if b then u.glbError f else u) := by
      cases b
      · exact RegsOnly.refl _ _
      · simpa [hf] using u.glbError_only f
    have a := s.setReg_only off (BitVec.ofNat 32 z.1)
    have b := g (s.setReg off (BitVec.ofNat 32 z.1)) z.2.1 F.GLB_STATUS_BAD_ENCODING rfl
    exact ((a.trans b).trans (g _ z.2.2 F.GLB_STATUS_LOCKED_WRITE rfl)).mono (by simp)

theorem Machine.State.storeFields_wf (s : State) (off v : Nat) (h : mwf resetWord s.regs = true) :
    mwf resetWord (s.storeFields off v).regs = true := by
  have a : mwf resetWord (s.adjust off (s.getReg off).toNat v).2.regs = true := by
    generalize (s.getReg off).toNat = old
    unfold State.adjust
    dsimp only
    repeat' first
      | split
      | exact h
      | exact s.setF_wf _ _ h
      | exact s.glbError_wf _ h
  have g (u : State) (b : Bool) (f : Fld) (hu : mwf resetWord u.regs = true) :
      mwf resetWord (if b then u.glbError f else u).regs = true := by
    cases b
    · exact hu
    · exact u.glbError_wf f hu
  unfold State.storeFields
  split
  · exact h
  · exact g _ _ _ (g _ _ _ (State.setReg_wf _ _ _ a))

end Sys2Proof
end

