-- ==== Sys2Proof/WellFormed.lean ====
section
/-! DEFINITION. Commands whose operands lie in the ranges that their rows give them. The machine gives every command a meaning; this
says which ones a sender can make. -/

namespace Sys2Proof

/-- Ranges of what the world answers: SDA patterns, probe entries, BOOT[2:0]. -/
def WriteEnv.wf (e : WriteEnv) : Bool := decide (e.sda < 3) && decide (e.probe.length ≤ 8) && decide (e.strap < 8)

/-- A register write lies in the 2 MiB range, is 1, 2, 4 or 8 bytes wide, and its value fits. -/
def RegWrite.wf (w : RegWrite) : Bool :=
  decide (w.off < 2 ^ 21) && (w.width == 1 || w.width == 2 || w.width == 4 || w.width == 8) && decide (w.val < 2 ^ (8 * w.width))

/-- The fields of a bridge message fit their header (Table TH-6). -/
def BrgMsg.wf (m : BrgMsg) : Bool :=
  decide (m.cls < 8) && decide (m.opc < 16) && decide (m.tag < 4096) && decide (m.job < 4096) && decide (m.len < 32)
    && decide (m.data.length = m.len)

/-- The operands of a command are in range. -/
def Instr.wf : Instr → Bool
  | .registerWrite e l => e.wf && l.all RegWrite.wf
  | .timeNowLoRead _ => true
  | .digResLoRead _ _ => true
  | .brgTrain _ _ => true
  | .brgTrainingDone _ _ _ => true
  | .brgTrainingFail _ _ => true
  | .brgClrCnt _ _ => true
  | .bridgeGroupReceive _ _ => true
  | .bridgeMessageSend _ offered => offered.all BrgMsg.wf
  | .bridgeMessageReceive _ => true
  | .bridgeTimeMessage _ => true
  | .bridgeNakLimit _ => true
  | .bridgeLockLoss _ _ => true
  | .laneSwap _ lane => decide (lane < 48)
  | .laneFailNoSpare _ lane => decide (lane < 48)
  | .bridgeRetrainTimer => true
  | .stripeStart id _ => decide (id < 4096)
  | .stripeAbort id => decide (id < 4096)
  | .bandComplete id => decide (id < 4096)
  | .timeSet _ _ => true
  | .dtimeStepDone => true
  | .timeSlewWrite _ _ => true
  | .fsgEdge _ => true
  | .fsgPulseEnd _ => true
  | .stClr _ _ => true
  | .longPacket _ vc dt ecc _ payload => decide (vc < 16) && decide (dt < 64) && decide (ecc < 3) && decide (payload.length < 65536)
  | .lineStartPacket _ vc ecc line => decide (vc < 16) && decide (ecc < 3) && decide (line < 65536)
  | .frameStartPacket _ vc ecc => decide (vc < 16) && decide (ecc < 3)
  | .frameEndPacket _ vc ecc => decide (vc < 16) && decide (ecc < 3)
  | .frameTimeout _ => true
  | .deskewBurst _ _ steps => decide (steps.length ≤ 4)
  | .inCtxRelease _ _ _ => true
  | .defectSwap _ _ => true
  | .i2cGo _ sda _ _ => decide (sda < 3)
  | .i2cFrameListStart _ sda => decide (sda < 3)
  | .i2cDescriptorDone _ _ bytes sda => decide (bytes.length ≤ 4) && decide (sda < 3)
  | .i2cStretchTimeout _ e => decide (e.sda < 3)
  | .probeGo res _ _ => decide (res.length ≤ 8)
  | .trigFire _ _ _ => true
  | .triggerEdge _ => true
  | .rstRelease _ _ => true
  | .coreHalt _ _ _ _ => true
  | .coreResume _ _ _ _ => true
  | .clrSat _ _ _ => true
  | .clrPerf _ _ _ => true
  | .unitInstructionStart _ _ _ _ _ => true
  | .unitInstructionComplete _ _ _ _ => true
  | .issueStallRelease _ _ => true
  | .pairDigest _ => true
  | .pairTimeout _ => true
  | .scrubPassStart _ => true
  | .scrubRow _ _ => true
  | .scratchpadInitDone _ fails => fails.all (fun r => decide (r < 131072))
  | .heldAccessTimeout _ => true
  | .wakePassDone _ => true
  | .weightWriteEnd _ => true
  | .inboundRowWrite _ job r e => decide (job < 4096) && decide (r < 131072) && decide (e.ws.length = 64)
  | .spClr _ _ _ => true
  | .add _ _ => true
  | .sub _ _ => true
  | .andOp _ _ => true
  | .orOp _ _ => true
  | .xorOp _ _ => true
  | .sll _ _ => true
  | .srl _ _ => true
  | .sra _ _ => true
  | .mul _ _ => true
  | .mulh _ _ => true
  | .mulhu _ _ => true
  | .min _ _ => true
  | .max _ _ => true
  | .minu _ _ => true
  | .maxu _ _ => true
  | .eq _ _ => true
  | .ne _ _ => true
  | .lt _ _ => true
  | .ge _ _ => true
  | .ltu _ _ => true
  | .geu _ _ => true
  | .tst _ _ => true
  | .pand _ _ => true
  | .por _ _ => true
  | .pxor _ _ => true
  | .pandn _ _ => true
  | .pnot _ _ => true
  | .ptos _ _ => true
  | .predStop _ _ => true
  | .lb _ _ => true
  | .lbu _ _ => true
  | .lh _ _ => true
  | .lhu _ _ => true
  | .lw _ _ => true
  | .sb _ _ => true
  | .sh _ _ => true
  | .sw _ _ => true
  | .dget _ _ => true
  | .dset _ _ => true
  | .dld _ _ => true
  | .dsto _ _ => true
  | .dcpy _ _ => true
  | .info _ _ => true
  | .br _ _ => true
  | .bcc _ _ => true
  | .call _ _ => true
  | .jr _ _ => true
  | .endstripe _ _ => true
  | .eret _ _ => true
  | .twait _ _ => true
  | .twaitm _ _ => true
  | .ttest _ _ => true
  | .bar _ _ => true
  | .gsend _ _ => true
  | .grecv _ _ => true
  | .guylineRowsArrive _ _ _ => true
  | .wwait _ _ => true
  | .trap _ _ => true
  | .halt _ _ => true
  | .crr _ _ => true
  | .crw _ _ => true
  | .controlRegisterAnswer _ _ e => e.wf
  | .srseed _ _ => true
  | .logput _ _ => true
  | .conv _ _ => true
  | .wino _ _ => true
  | .mmul _ _ => true
  | .dwconv _ _ => true
  | .ewise _ _ => true
  | .lutDirect _ _ => true
  | .lutPwl _ _ => true
  | .pool _ _ => true
  | .resize _ _ => true
  | .argmax _ _ => true
  | .dcmpCompare _ _ => true
  | .dcmpForce _ _ => true
  | .dmrgMerge _ _ => true
  | .dmrgAdd _ _ => true
  | .dmrgDilate _ _ => true
  | .bwdDgrad _ _ => true
  | .bwdWgrad _ _ => true
  | .opt _ _ => true
  | .xfixShelf _ _ => true
  | .xfixDrawer _ _ => true
  | .dmaRead _ _ => true
  | .dmaWrite _ _ => true
  | .rxferRead _ _ => true
  | .rxferWrite _ _ => true
  | .rcopy _ _ => true
  | .smld _ _ => true
  | .smst _ _ => true
  | .psend _ _ => true
  | .qstatCurrent _ _ => true
  | .qstatHistory _ _ => true
  | .quant _ _ => true
  | .deqFloat _ _ => true
  | .deqIntmul _ _ => true
  | .qcvt _ _ => true
  | .ckctl _ _ => true
  | .digest _ _ => true
  | .ptest _ _ => true
  | .checkBlockDone _ _ _ _ _ _ => true
  | .replayDone _ _ _ _ => true
  | .edgePlaneRowStart id _ => decide (id < 4096)
  | .pack => true
  | .econv => true
  | .emit => true
  | .take => true
  | .shuffle => true
  | .edgeArgmax => true
  | .boxdec => true
  | .nms => true
  | .outRec => true
  | .edgeEnd => true
  | .edgeClr _ _ => true
  | .dxInvalidate _ _ => true
  | .dxClr _ _ => true
  | .sessionStepStart => true
  | .streamFrameStart _ => true
  | .lineReadyCheck _ => true
  | .outfeedLineTime _ => true
  | .cut _ _ _ => true
  | .cutClose _ => true
  | .streamRelease _ _ _ => true
  | .tapRelease _ _ _ => true
  | .loadSenseGo _ _ => true
  | .loadSenseDone lanes => decide (lanes.length ≤ 5)
  | .sourceStoreSpace => true
  | .slotHeaderWrite _ _ => true
  | .ksload _ => true
  | .ksunload _ => true
  | .cofsub _ => true
  | .engineStart => true
  | .endGate => true
  | .linGate => true
  | .notGate => true
  | .trivGate => true
  | .constGate => true
  | .gateAnd => true
  | .gateOr => true
  | .gateXor => true
  | .nand => true
  | .nor => true
  | .xnor => true
  | .muxGate => true
  | .lut3 => true
  | .refreshPass => true
  | .keyStreamData _ => true
  | .keyDigestRecheck => true
  | .cofCancel _ _ => true
  | .cofFlush _ _ => true
  | .cofClr _ _ => true
  | .ckClr _ _ _ => true
  | .digGo _ _ _ => true
  | .digestDone _ _ => true
  | .repairCopyDone _ _ => true
  | .digestSweep => true
  | .sweepNow _ _ => true
  | .faultRecord _ => true
  | .killNotice _ => true
  | .relax _ _ _ => true
  | .forceQ _ _ _ => true
  | .testreq _ => true
  | .testPeriod => true
  | .testSlotOpen _ => true
  | .testSlotTimeout _ => true
  | .testSlotDone _ _ => true
  | .urgentBorrow => true
  | .lnkTrain _ _ _ => true
  | .lnkTrainingDone _ _ _ _ _ _ => true
  | .lnkTrainingFail _ _ => true
  | .linkRetrainTimer _ => true
  | .linkGroupReceive _ _ => true
  | .linkNakLimit _ => true
  | .linkFlitTimeout _ => true
  | .linkLockLoss _ => true
  | .partnerLost _ => true
  | .linkMessageSend _ => true
  | .windowMessage _ _ => true
  | .rxferAck _ => true
  | .linkTimeExchange _ _ _ _ _ => true
  | .syncEdgeTime _ _ _ => true
  | .remoteRegisterAccess _ e => e.wf
  | .windowOpenInbound _ => true
  | .windowCloseInbound _ => true
  | .windowOpenOutbound _ => true
  | .windowCloseOutbound _ => true
  | .closeNotice _ => true
  | .windowCloseDeadline _ => true
  | .nop _ => true
  | .loadpkg _ _ => true
  | .unloadpkg _ => true
  | .loadimg _ => true
  | .unload _ => true
  | .start _ => true
  | .stop _ => true
  | .route _ => true
  | .storewr _ => true
  | .claim _ => true
  | .claimRelease _ => true
  | .sqDoorbell _ _ _ => true
  | .commandFetch _ => true
  | .cqHeadWrite _ _ _ => true
  | .hostImaskWrite _ _ => true
  | .hostMboxIn _ => true
  | .pcieLinkDown => true
  | .ringEnable _ _ _ => true
  | .hostReadFail _ _ _ => true
  | .bar4Access off n _ e => e.wf && decide (off < 2 ^ 33) && decide (0 < n) && decide (n ≤ 512)
  | .bulkDataWrite _ bs => decide (bs.length ≤ 4096)
  | .bulkDataRead _ n ahead => decide (0 < n) && decide (ahead ≤ 1024)
  | .bulkPointerWrite _ _ _ _ => true
  | .bulkDrain _ e => e.wf
  | .bulkFlush _ _ _ => true
  | .rowBufferTimeout => true
  | .hspWriteFrame _ data e => e.wf && decide (data.length ≤ 4096)
  | .hspReadFrame _ n ahead _ => decide (n ≤ 4096) && decide (ahead ≤ 1024)
  | .hspStatusFrame => true
  | .endpointReset => true
  | .napRequest _ _ _ => true
  | .darkRequest _ _ _ => true
  | .runRequest _ _ _ => true
  | .autoNap _ => true
  | .logbookFlushDone _ => true
  | .napFlushTimeout _ => true
  | .coreWake _ => true
  | .sleepRequest _ _ => true
  | .powerdownRequest _ _ => true
  | .powerdownDrainDone => true
  | .wakeEvent _ => true
  | .railSample vals => decide (vals.length = 18) && vals.all (fun v => decide (v < 65536))
  | .tempSample vals => decide (vals.length = 12)
  | .marginLoopTick _ _ => true
  | .clockStretch _ => true
  | .marginShortfallLimit _ => true
  | .powerCapTick _ => true
  | .clipEpisodeTimer _ => true
  | .thermTrip _ => true
  | .traceFunnelPacket => true
  | .traceRowPad => true
  | .syncTriple _ => true
  | .trcClr _ _ => true
  | .powerOn strap => decide (strap < 8)
  | .aonPowerLoss _ => true
  | .coldReset strap temps => decide (strap < 8) && decide (temps.length = 12)
  | .resetNShortPulse => true
  | .secResetWarm _ _ => true
  | .secResetCold _ _ strap => decide (strap < 8)
  | .watchdogKick _ _ => true
  | .watchdogExpiry => true
  | .bootStepComplete e => e.wf
  | .bootStepTimeout code => decide (1 ≤ code) && decide (code ≤ 12)
  | .stageVerify _ _ => true
  | .packageAutoload _ => true
  | .tamperEvent _ => true
  | .tokenVerify _ _ => true
  | .fuseProgram _ _ => true
  | .flashOperationDone _ => true
  | .triggerPulseEnd _ => true
  | .pcieLinkUp _ _ => true
  | .configurationRequest off _ => decide (off % 4 = 0) && decide (off < 4096)
  | .registerRead _ off width => decide (off < 2 ^ 21) && (width == 1 || width == 2 || width == 4 || width == 8)
  | .genericShortPacket _ => true
  | .ulps _ _ => true

end Sys2Proof
end

