-- ==== Sys2Proof/Tests/Slice0.lean ====
section
/-! SUPPORT. Tests: small checks of one command each, and for every statement states and operands that meet its hypotheses. Expected
values are worked out by hand from the rules and tables of the spec that the tests name. -/

namespace Sys2Proof.Tests

open Machine

set_option Elab.async false

theorem test_reset_queue : State.reset.pending = [] := rfl

/-! ### Helpers -/

/-- Environment operands of a register write: SDA free, no probe results, straps 0. -/
def env0 : WriteEnv := ⟨0, [], 0⟩

/-- The next state of a command satisfies a check. -/
def nx (o : Host.Outcome State Fault Refusal) (p : State → Bool) : Bool :=
  match o with
  | .next t => p t
  | _ => false

/-- The command runs and satisfies a check. -/
def ran (i : Instr) (s : State) (p : State → Bool) : Bool := nx (exec i s) p

/-- The command leaves the state as it was. -/
def still (i : Instr) (s : State) : Bool := nx (exec i s) (fun t => decide (t = s))

/-- The memories are in canonical form. -/
def wfB (s : State) : Bool :=
  mwf resetWord s.regs && mwf resetWord s.force && mwf (dflt 0) s.dram && mwf (dflt false) s.dramPoison
    && mwf (dflt false) s.dramBad && mwf (dflt 0) s.hostMem && mwf (dflt 0) s.sec.fuses && mwf zeroWord s.cof.sram
    && allCores.all (fun k => coreWf (s.core k))

/-- A part in a device state with the bridge up and every core in a power state. -/
def inState (d p : Nat) : State :=
  let s := (State.reset.setF F.PWR_DEV_STATE d).setF F.BRG_STATUS_UP 1
  allCores.foldl (fun s k => s.setF (F.CORE_STATUS_PSTATE k) p) s

/-- READY with the cores idle. -/
def ready : State := inState devReady 1

/-- What a job takes on a core. -/
def share0 : CoreShare :=
  { used := true, imemFirst := 0, imemCount := 16, smemFirst := 0, smemCount := 256, awnFirst := 0, awnCount := 4,
    rows := [⟨1, 8, 15, 0⟩] }

/-- A job of two cores, in-line. -/
def job0 : Job :=
  { id := 1, version := 1, inline := true, session := false, paired := false, s := 8, a := 0, entry := 4, handler := 0xFFFF, tail := 0,
    dlBase := 0, dlStep := 0, inctx := 0, width := 32, height := 16, tiles := [16, 16, 0, 0, 0, 0, 0, 0], tilesNext := none,
    tilesBack := none, share := List.replicate 8 share0, models := [], fsgs := [], pins := [], streams := [2], taps := [],
    inctxs := [0], i2cs := [], keysets := [], windows := [(1, 3, 0)], grants := [⟨0x030010, 0x030014, 3⟩], edge := ⟨[], [], 1⟩, covers := [], smemInit := [],
    state := .running, killCls := 0, startPend := none, startTag := none, stopping := false, frame := 0, frames := [], fs := 0,
    fsPrev := 0, prevAborted := false, slackLast := 0, slackMin := 2147483647, miss := 0, abort := 0, recent := [], dxCtrl := dxReset,
    dxForce := dxReset, dxInval := false, dxDelta := 0, dxRefresh := 0, dxStaleN := 0, dxOff := 0, dxScene := 0, dxChanged := 0,
    dxPos := 0, stale := [], span := 0, points := [], stepAt := none, lastStep := 0, steps := 0 }

/-- A context whose program runs at word 5 with S1 = 7, S2 = −3 (all but two bits), P1 and P3. -/
def ctx0 : Ctx :=
  { Ctx.reset with job := some 1, running := true, halted := false, pc := 5, p := 0x0A,
                   tiles := [16, 16, 0, 0, 0, 0, 0, 0], nStr := 2, s := (Ctx.reset.s.set 1 7).set 2 0xFFFFFFFD, d := Ctx.reset.d.set 4 (BitVec.ofNat 256 (0xABCD * 2 ^ 32)) }

/-- A part that runs a program: word `w` at the program counter of context 0 of core 0. -/
def prog (w : Nat) : State :=
  let s := { inState devRun 0 with jobs := [job0] }
  let c := s.core 0
  s.setCore 0 { c with imem := mset (dflt 0#64) [] 5 (BitVec.ofNat 64 w), ctx := c.ctx.set 0 ctx0, smem := [(8, 0x80), (9, 0xFF), (11, 1)] }

/-- The same with another job and context. -/
def progWith (w : Nat) (j : Job) (c : Ctx) : State := ({ prog w with jobs := [j] }).setCtx 0 0 c

/-- Words of formats R and I, B, T and X from their fields (Tables IS-2, IS-3, IT-1). -/
def wR (maj min rd ra rb : Nat) : Nat := maj * 2 ^ 58 + min * 2 ^ 48 + rd * 2 ^ 43 + ra * 2 ^ 38 + rb * 2 ^ 33
def wI (maj min rd ra imm : Nat) : Nat := maj * 2 ^ 58 + min * 2 ^ 48 + rd * 2 ^ 43 + ra * 2 ^ 38 + imm
def wB (maj ra rb aux off : Nat) : Nat := maj * 2 ^ 58 + ra * 2 ^ 43 + rb * 2 ^ 38 + aux * 2 ^ 16 + off
def wT (maj rd ra mode tk mask imm : Nat) : Nat :=
  maj * 2 ^ 58 + rd * 2 ^ 43 + ra * 2 ^ 38 + mode * 2 ^ 36 + tk * 2 ^ 32 + mask * 2 ^ 16 + imm
def wX (maj dd da db tk sx sub aux : Nat) : Nat :=
  maj * 2 ^ 58 + dd * 2 ^ 48 + da * 2 ^ 43 + db * 2 ^ 38 + tk * 2 ^ 34 + sx * 2 ^ 29 + sub * 2 ^ 24 + aux

/-- The word runs as the instruction. -/
def runs (w : Nat) (o : OpC) : Bool := decide ((prog w).fetchOp 0 0 = .run o (BitVec.ofNat 64 w))

/-- A descriptor of one row of 32 FP16 elements at a row (Table IT-2). -/
def desc (row : Nat) : BitVec 256 :=
  BitVec.ofNat 256 (row + 5 * 2 ^ 21 + 2 ^ 32 + 2 ^ 64 + 2 ^ 80 + 32 * 2 ^ 96 + 2 ^ 112)

/-- A scalar register that the instruction leaves with a value, its program counter moved on. -/
def gets (i : Instr) (o : OpC) (w r v : Nat) : Bool :=
  runs w o && ran i (prog w) (fun t => (t.ctx 0 0).rs r == BitVec.ofNat 32 v && (t.ctx 0 0).pc == 6 && (t.ctx 0 0).rs 1 == 7)

/-- A predicate that the instruction leaves with a value. -/
def getsP (i : Instr) (o : OpC) (w r : Nat) (v : Bool) : Bool :=
  runs w o && ran i (prog w) (fun t => (t.ctx 0 0).rp r == v && (t.ctx 0 0).pc == 6)

/-! ### Scalar instructions: expected values from Tables IS-5 to IS-9 by hand -/

theorem test_alu : [
    gets (.add 0 0) .add (wR 0 0 3 1 2) 3 4, gets (.add 0 0) .add (wI 1 0 3 1 0xFFFFFFFF) 3 6,
    gets (.sub 0 0) .sub (wR 0 1 3 2 1) 3 0xFFFFFFF6, gets (.andOp 0 0) .and_ (wR 0 2 3 1 2) 3 5,
    gets (.orOp 0 0) .or_ (wI 1 3 3 1 8) 3 15, gets (.xorOp 0 0) .xor_ (wR 0 4 3 1 2) 3 0xFFFFFFFA,
    gets (.sll 0 0) .sll (wI 1 5 3 1 33) 3 14, gets (.srl 0 0) .srl (wI 1 6 3 2 31) 3 1,
    gets (.sra 0 0) .sra (wI 1 7 3 2 31) 3 0xFFFFFFFF, gets (.mul 0 0) .mul (wR 0 8 3 2 2) 3 9,
    gets (.mulh 0 0) .mulh (wR 0 9 3 1 2) 3 0xFFFFFFFF, gets (.mulhu 0 0) .mulhu (wR 0 10 3 1 2) 3 6,
    gets (.min 0 0) .min_ (wR 0 11 3 1 2) 3 0xFFFFFFFD, gets (.max 0 0) .max_ (wR 0 12 3 1 2) 3 7,
    gets (.minu 0 0) .minu (wR 0 13 3 1 2) 3 7, gets (.maxu 0 0) .maxu (wR 0 14 3 1 2) 3 0xFFFFFFFD,
    gets (.add 0 0) .add (wR 0 0 0 1 2) 0 0].all id = true := by decide +kernel

theorem test_predicates : [
    getsP (.eq 0 0) .eq (wI 3 0 2 1 7) 2 true, getsP (.ne 0 0) .ne (wR 2 1 2 1 2) 2 true,
    getsP (.lt 0 0) .lt (wR 2 2 2 2 1) 2 true, getsP (.ge 0 0) .ge (wR 2 3 2 2 1) 2 false,
    getsP (.ltu 0 0) .ltu (wR 2 4 2 2 1) 2 false, getsP (.geu 0 0) .geu (wR 2 5 2 2 1) 2 true,
    getsP (.tst 0 0) .tst (wI 3 6 2 1 8) 2 false, getsP (.pand 0 0) .pand (wR 4 0 2 1 3) 2 true,
    getsP (.por 0 0) .por (wR 4 1 2 4 3) 2 true, getsP (.pxor 0 0) .pxor (wR 4 2 2 1 3) 2 false,
    getsP (.pandn 0 0) .pandn (wR 4 3 2 1 4) 2 true, getsP (.pnot 0 0) .pnot (wR 4 4 2 4 0) 2 true,
    gets (.ptos 0 0) .ptos (wR 4 5 3 0 0) 3 0x0B, getsP (.predStop 0 0) .predStop (wR 4 6 0 1 0) 2 true,
    getsP (.eq 0 0) .eq (wI 3 0 0 1 8) 0 true].all id = true := by decide +kernel

theorem test_loads : [
    gets (.lb 0 0) .lb (wI 5 0 3 1 1) 3 0xFFFFFF80, gets (.lbu 0 0) .lbu (wI 5 1 3 1 1) 3 0x80,
    gets (.lh 0 0) .lh (wI 5 2 3 1 1) 3 0xFFFFFF80, gets (.lhu 0 0) .lhu (wI 5 3 3 1 1) 3 0xFF80,
    gets (.lw 0 0) .lw (wI 5 4 3 1 1) 3 0x0100FF80,
    runs (wI 7 2 4 1 (2 ^ 32 - 7)) .dld && ran (.dld 0 0) (prog (wI 7 2 4 1 (2 ^ 32 - 7)))
      (fun t => ((t.ctx 0 0).rdesc 4).extractLsb' 64 32 == 0x0100FF80#32),
    gets (.lw 0 0) .lw (wI 5 4 3 1 245) 3 0].all id = true := by decide +kernel

theorem test_stores : [
    runs (wI 6 0 2 1 (2 ^ 32 - 7)) .sb && ran (.sb 0 0) (prog (wI 6 0 2 1 (2 ^ 32 - 7)))
      (fun t => (t.core 0).smem == [(0, 0xFD), (8, 0x80), (9, 0xFF), (11, 1)]),
    runs (wI 6 1 2 1 1) .sh && ran (.sh 0 0) (prog (wI 6 1 2 1 1)) (fun t => (t.core 0).smem == [(8, 0xFD), (9, 0xFF), (11, 1)]),
    runs (wI 6 2 3 1 1) .sw && ran (.sw 0 0) (prog (wI 6 2 3 1 1)) (fun t => (t.core 0).smem == []),
    runs (wI 7 3 4 1 (2 ^ 32 - 7)) .dsto && ran (.dsto 0 0) (prog (wI 7 3 4 1 (2 ^ 32 - 7)))
      (fun t => (t.core 0).smem == [(4, 0xCD), (5, 0xAB)])].all id = true := by decide +kernel

/-- MISALIGN 0x03 and SMEM_RANGE 0x04 (Table IS-12), at the first byte beyond the range of 256 and across its end. -/
theorem test_smem_checks : [(wI 5 4 3 1 2, 3), (wI 5 4 3 1 249, 4), (wI 5 4 3 1 (2 ^ 32 - 11), 4), (wI 5 4 3 0 65536, 4)].all (fun e =>
    runs e.1 .lw && ran (.lw 0 0) (prog e.1) (fun t => (t.ctx 0 0).halted && (t.ctx 0 0).ecause.toNat % 256 == e.2
      && (t.ctx 0 0).epc == 5)) = true := by decide +kernel

theorem test_descriptors : [
    gets (.dget 0 0) .dget (wI 7 0 3 4 1) 3 0xABCD,
    runs (wI 7 1 4 1 7) .dset && ran (.dset 0 0) (prog (wI 7 1 4 1 7)) (fun t => ((t.ctx 0 0).rdesc 4).extractLsb' 224 32 == 7#32
      && ((t.ctx 0 0).rdesc 4).extractLsb' 32 32 == 0xABCD#32),
    runs (wI 7 4 5 4 0) .dcpy && ran (.dcpy 0 0) (prog (wI 7 4 5 4 0)) (fun t => (t.ctx 0 0).rdesc 5 == ctx0.rdesc 4),
    gets (.info 0 0) .info (wI 8 0 3 0 2) 3 1, gets (.info 0 0) .info (wI 8 0 3 0 6) 3 16,
    gets (.info 0 0) .info (wI 8 0 3 0 7) 3 5, gets (.info 0 0) .info (wI 8 0 3 0 14) 3 3].all id = true := by decide +kernel

/-! ### Fetch, exceptions, branches, tokens -/

/-- What the fetch answers. -/
def gives (s : State) (f : Fetch) : Bool := decide (s.fetchOp 0 0 = f)

/-- Major 0x3E minor 31, a word with no instruction. -/
def illegalWord : Nat := 0x0F * 2 ^ 58

theorem test_fetch :
    let s := prog (wI 1 0 3 1 0)
    let c := s.ctx 0 0
    let guarded (gp gn : Nat) := prog (wI 1 0 3 1 0 + 2 ^ 57 + gn * 2 ^ 56 + gp * 2 ^ 53)
    [gives (s.setCtx 0 0 { c with pc := 16 }) (.exc 0x02), gives (s.setCtx 0 0 { c with pc := 0 }) (.run .add 0),
     gives (s.setCore 0 { s.core 0 with imemBad := [(5, true)] }) (.exc 0x05), gives (prog illegalWord) (.exc 0x01),
     gives (s.setCtx 0 0 { c with halted := true }) .no, gives (guarded 1 1) (.skip .add), gives (guarded 2 0) (.skip .add),
     ran (.add 0 0) (guarded 2 0) (fun t => (t.ctx 0 0).pc == 6 && (t.ctx 0 0).rs 3 == 0),
     gives (s.setCtx 0 0 { c with parBad := [(1, true)] }) (.parity .add),
     ran (.add 0 0) (s.setCtx 0 0 { c with parBad := [(1, true)] }) (fun t => (t.ctx 0 0).halted && t.flt.aft.length == 1),
     still (.sub 0 0) s, ran (.add 0 0) (prog illegalWord) (fun t => (t.ctx 0 0).ecause == 1 && (t.ctx 0 0).halted)].all id = true := by
  decide +kernel

theorem test_exceptions :
    let j := { job0 with handler := 12 }
    let t0 := prog (wI 0x3F 0 0 0 0x1234)
    let eret := wI 0x15 0 0 0 0
    [runs (wI 0x3F 0 0 0 0x1234) .trap, ran (.trap 0 0) t0 (fun t => (t.ctx 0 0).halted && (t.ctx 0 0).ecause == 0x1234000D
       && t.flt.aft.any (fun q => q.kill && q.cls == 0x31 && q.opc == 0x1234)),
     ran (.trap 0 0) (progWith (wI 0x3F 0 0 0 0x1234) j ctx0) (fun t => (t.ctx 0 0).pc == 12 && (t.ctx 0 0).handler && t.flt.aft == []),
     runs eret .eret, ran (.eret 0 0) (progWith eret j { ctx0 with handler := true, epc := 9 }) (fun t => (t.ctx 0 0).pc == 10
       && !(t.ctx 0 0).handler), ran (.eret 0 0) (prog eret) (fun t => (t.ctx 0 0).ecause == 1),
     decide (((prog 0).raise 0 0 5 9 (some 2) 0).ctx 0 0 = { ctx0 with epc := 5, ecause := 0x1209, pc := 6 })].all id = true := by
  decide +kernel

theorem test_branches :
    let at_ (w pc : Nat) (i : Instr) := ran i (prog w) (fun t => (t.ctx 0 0).pc == pc && !(t.ctx 0 0).halted)
    let range (w : Nat) (i : Instr) := ran i (prog w) (fun t => (t.ctx 0 0).ecause == 2 && (t.ctx 0 0).epc == 5)
    [runs (wB 0x10 0 0 0 0xFFFB) .br, at_ (wB 0x10 0 0 0 0xFFFB) 0 (.br 0 0), range (wB 0x10 0 0 0 0xFFFA) (.br 0 0),
     at_ (wB 0x10 0 0 0 10) 15 (.br 0 0), range (wB 0x10 0 0 0 11) (.br 0 0), at_ (wB 0x11 1 2 1 3) 8 (.bcc 0 0),
     at_ (wB 0x11 1 2 0 3) 6 (.bcc 0 0), at_ (wB 0x11 1 2 4 3) 8 (.bcc 0 0), at_ (wB 0x11 2 1 2 3) 8 (.bcc 0 0),
     runs (wB 0x13 1 0 0 0) .jr, at_ (wB 0x13 1 0 0 0) 7 (.jr 0 0), range (wB 0x13 2 0 0 0) (.jr 0 0),
     runs (wB 0x12 0 0 0 3) .call, at_ (wB 0x12 0 0 0 3) 8 (.call 0 0), range (wB 0x12 0 0 0 64) (.call 0 0),
     ran (.call 0 0) (prog (wB 0x12 0 0 0 3)) (fun t => (t.ctx 0 0).rs 31 == 6)].all id = true := by decide +kernel

theorem test_tokens :
    let with_ (w : Nat) (l : List Tok) := progWith w job0 { ctx0 with tok := Vector.ofFn (fun i : Fin 16 => nth ⟨.free, 0⟩ l i.val) }
    let one := wT 0x18 0 0 0 1 0 0
    let many := wT 0x19 0 0 0 0 0x7 0
    [runs one .twait, runs many .twaitm, runs (wT 0x1A 2 0 0 1 0 0) .ttest,
     still (.twait 0 0) (with_ one [⟨.free, 0⟩, ⟨.busy, 0⟩]),
     ran (.twait 0 0) (with_ one [⟨.done, 0⟩, ⟨.done, 0⟩]) (fun t => ((t.ctx 0 0).token 1).st == .free
       && ((t.ctx 0 0).token 0).st == .done && (t.ctx 0 0).pc == 6),
     ran (.twaitm 0 0) (with_ many [⟨.done, 0⟩, ⟨.fault, 9⟩, ⟨.fault, 8⟩, ⟨.busy, 0⟩]) (fun t => (t.ctx 0 0).ecause == 0x1109
       && ((t.ctx 0 0).token 1).st == .free && ((t.ctx 0 0).token 2).st == .fault && ((t.ctx 0 0).token 0).st == .free),
     ran (.ttest 0 0) (with_ (wT 0x1A 2 0 0 1 0 0) [⟨.free, 0⟩, ⟨.busy, 0⟩]) (fun t => !(t.ctx 0 0).rp 2),
     ran (.twaitm 0 0) (prog (wT 0x19 0 0 0 0 0 0)) (fun t => (t.ctx 0 0).pc == 6)].all id = true := by decide +kernel


/-! ### Ends of stripes and programs, waits for others -/

theorem test_ends :
    let es := wB 0x14 0 0 0 0
    let h := wI 0x3F 1 0 0 0
    let tok (l : List Tok) : Ctx := { ctx0 with tok := Vector.ofFn (fun i : Fin 16 => nth ⟨.free, 0⟩ l i.val) }
    let done := (progWith h job0 ctx0).setCtx 1 0 { Ctx.reset with job := some 1, ended := true }
    [runs es .endstripe, runs h .halt, still (.endstripe 0 0) (progWith es job0 (tok [⟨.busy, 0⟩])),
     ran (.endstripe 0 0) (progWith es job0 (tok [⟨.done, 0⟩, ⟨.fault, 9⟩])) (fun t => (t.ctx 0 0).ecause == 0x1109),
     ran (.endstripe 0 0) (progWith es job0 (tok [⟨.done, 0⟩])) (fun t => !(t.ctx 0 0).running && (t.ctx 0 0).pc == 6
       && ((t.ctx 0 0).token 0).st == .free), still (.halt 0 0) (progWith h job0 (tok [⟨.free, 0⟩, ⟨.busy, 0⟩])),
     ran (.halt 0 0) (prog h) (fun t => (t.ctx 0 0).ended && (t.ctx 0 0).halted && t.jobs.all (fun j => j.state == .running)),
     ran (.halt 0 0) done (fun t => t.jobs.all (fun j => j.state == .halted))].all id = true := by decide +kernel

theorem test_barriers :
    let b (mode : Nat) := wT 0x1B 0 0 mode 0 0 0
    let other (n : Nat) := (prog (b 1)).setCtx 1 0 { ctx0 with bars := n }
    [runs (b 0) .bar, ran (.bar 0 0) (prog (b 0)) (fun t => (t.ctx 0 0).pc == 6 && (t.ctx 0 0).bars == 0),
     ran (.bar 0 0) (other 0) (fun t => (t.ctx 0 0).atBar && (t.ctx 0 0).bars == 1),
     ran (.bar 0 0) (other 1) (fun t => !(t.ctx 0 0).atBar && (t.ctx 0 0).bars == 1 && (t.ctx 0 0).pc == 6)].all id = true := by
  decide +kernel

theorem test_guyline :
    let c := { ctx0 with d := Ctx.reset.d.set 4 (desc 8) }
    let s (w : Nat) (c : Ctx) := progWith w job0 c
    let send := wT 0x1C 4 0 1 2 0 0
    let recv := wT 0x1D 4 0 1 2 0 0
    let q : GReq := { send := true, right := true, tok := 2, desc := desc 8, job := 1, stripe := 0, got := 0, cause := 0 }
    let busy := c.setToken 2 ⟨.busy, 0⟩
    let going := (s 0 { busy with greqs := [q] }).setCtx 1 0 { ctx0 with d := Ctx.reset.d }
    [descLegal (desc 8), runs send .gsend, ran (.gsend 0 0) (s send c) (fun t => (t.ctx 0 0).greqs.length == 1
       && ((t.ctx 0 0).token 2).st == .busy && (t.ctx 0 0).pc == 6),
     ran (.grecv 0 0) (s recv c) (fun t => (t.ctx 0 0).greqs.all (fun g => !g.send && g.right)),
     ran (.gsend 0 0) (s (wT 0x1C 4 0 0 2 0 0) c) (fun t => ((t.ctx 0 0).token 2).st == .done && (t.ctx 0 0).greqs == []),
     ran (.gsend 0 0) (s send busy) (fun t => (t.ctx 0 0).ecause == 7),
     ran (.gsend 0 0) (s send { c with greqs := List.replicate 4 q }) (fun t => (t.ctx 0 0).stallG.isSome && (t.ctx 0 0).pc == 5),
     job0.neighbour ctx0 0 true == some 1, going.localAllowed 1 0 false 8 false, rowPoisoned (going.getRow 0 8).1 == false,
     ran (.guylineRowsArrive 0 0 { right := true, conf := 2 }) going (fun t => (t.core 1).ring.length == 1 && ((t.ctx 0 0).token 2).st == .done)].all id
    = true := by decide +kernel

theorem test_window_wait :
    let w := wT 0x1E 2 1 0 0 0 3
    let open_ (n : Nat) : State :=
      let s := prog w
      { s with lnk := { s.lnk with iw := vset s.lnk.iw 3 { InWin.reset with st := .open_, arrivals := BitVec.ofNat 32 n } } }
    [runs w .wwait, ran (.wwait 0 0) (open_ 7) (fun t => (t.ctx 0 0).rp 2), still (.wwait 0 0) (open_ 6),
     ran (.wwait 0 0) (prog w) (fun t => !(t.ctx 0 0).rp 2 && (t.ctx 0 0).pc == 6)].all id = true := by decide +kernel

/-! ### System and format X -/

theorem test_program_registers :
    let r (imm : Nat) := wI 0x3F 2 3 0 imm
    let w (imm : Nat) := wI 0x3F 3 1 0 imm
    let own := 0x100000 + 4
    let asked := progWith 0 job0 { ctx0 with crWait := some { write := false, off := own, rd := 3, val := 0 } }
    [runs (r own) .crr, runs (w 0x030010) .crw, ran (.crr 0 0) (prog (r own)) (fun t => (t.ctx 0 0).crWait.isSome && (t.ctx 0 0).pc == 5),
     ran (.crr 0 0) (prog (r 0x030014)) (fun t => (t.ctx 0 0).crWait.isSome), ran (.crr 0 0) (prog (r 0x030018)) (fun t =>
       (t.ctx 0 0).rs 3 == 0 && (t.ctx 0 0).pc == 6 && t.flt.aft.any (fun q => q.cls == 4 && q.addr == 0x030018)),
     ran (.crr 0 0) (prog (r 2)) (fun t => (t.ctx 0 0).ecause == 3),
     ran (.crw 0 0) (prog (w 0x030010)) (fun t => (t.ctx 0 0).crWait.isSome), ran (.crw 0 0) (prog (w own)) (fun t =>
       (t.ctx 0 0).pc == 6 && t.flt.aft.length == 1),
     ran (.controlRegisterAnswer 0 0 env0) (asked.setF F.BRG_STATUS_UP 0) (fun t => (t.ctx 0 0).pc == 6
       && (t.ctx 0 0).crWait.isNone)].all id = true := by decide +kernel

theorem test_seed_and_log :
    let q : UInst := (prog 0).capture 0 0 .add 0
    let busy := { ctx0 with queues := ctx0.queues.set 1 [q] }
    let seed := wI 0x3F 4 0 1 0
    let logp := wI 0x3F 5 0 1 0xABCD
    let on := (prog logp).setF ⟨(F.TRC_CORE_EN 0).off, (F.TRC_CORE_EN 0).lo + 5, 1⟩ 1
    [runs seed .srseed, ran (.srseed 0 0) (prog seed) (fun t => (t.ctx 0 0).sr == 7 ^^^ 0x4E385053D5A71C93#64),
     still (.srseed 0 0) (progWith seed job0 busy), runs logp .logput, ran (.logput 0 0) on (fun t =>
       (t.core 0).log.any (fun p => p.typ == 0x50 && p.val == 0x7ABCD)),
     runs (wX 0x3C 0 0 0 0 0 1 0) .ckctl, ran (.ckctl 0 0) (prog (wX 0x3C 0 0 0 0 0 1 0)) (fun t => (t.ctx 0 0).ck == 1)].all id
    = true := by decide +kernel

theorem test_issue :
    let c := { ctx0 with d := (Ctx.reset.d.set 4 (desc 8)).set 5 (desc 9) }
    let rc := wX 0x32 5 4 0 2 0 0 0
    let s := progWith rc job0 c
    let q : UInst := s.capture 0 0 .rcopy (BitVec.ofNat 64 rc)
    let full := { c with queues := c.queues.set 3 (List.replicate 16 q) }
    let stalled := { c with stalled := some (3, q) }
    let run := { (c.setToken 2 ⟨.busy, 0⟩) with queues := c.queues.set 3 [q] }
    let fin := { (c.setToken 2 ⟨.busy, 0⟩) with queues := c.queues.set 3 [{ q with started := true }] }
    [decide (s.fetchOp 0 0 = .run .rcopy (BitVec.ofNat 64 rc)), s.issueCheck 0 0 .rcopy q == 0,
     ran (.rcopy 0 0) s (fun t => ((t.ctx 0 0).queue 3).map (·.word) == [BitVec.ofNat 64 rc] && ((t.ctx 0 0).token 2).st == .busy && (t.ctx 0 0).pc == 6),
     ran (.rcopy 0 0) (s.setCtx 0 0 full) (fun t => (t.ctx 0 0).stalled.isSome && (t.ctx 0 0).pc == 5),
     ran (.rcopy 0 0) (s.setCtx 0 0 (c.setToken 2 ⟨.done, 0⟩)) (fun t => (t.ctx 0 0).ecause == 7),
     ran (.rcopy 0 0) (s.setCtx 0 0 ctx0) (fun t => (t.ctx 0 0).ecause == 1),
     ran (.issueStallRelease 0 0) (s.setCtx 0 0 stalled) (fun t => ((t.ctx 0 0).queue 3).map (·.word) == [BitVec.ofNat 64 rc] && (t.ctx 0 0).pc == 6),
     still (.issueStallRelease 0 0) (s.setCtx 0 0 { stalled with queues := full.queues }),
     ran (.unitInstructionStart 0 0 3 {} 0) (s.setCtx 0 0 run) (fun t => ((t.ctx 0 0).queue 3).all (·.started)),
     still (.unitInstructionStart 0 0 3 {} 0) (s.setCtx 0 0 fin),
     ran (.unitInstructionComplete 0 0 3 {}) (s.setCtx 0 0 fin) (fun t => (t.ctx 0 0).queue 3 == []
       && ((t.ctx 0 0).token 2).st == .done), still (.unitInstructionComplete 0 0 3 {}) (s.setCtx 0 0 run)].all id = true := by
  decide +kernel

/-- RCOPY of a row by START and COMPLETE: the row of D4 stands in the row of D5. -/
theorem test_rcopy :
    let c := { ctx0 with d := (Ctx.reset.d.set 4 (desc 8)).set 5 (desc 9) }
    let rc := wX 0x32 5 4 0 2 0 0 0
    let row : Row := (List.range 64).map (fun n => (BitVec.ofNat 64 (n * n), false))
    let s := (progWith rc job0 c).putRow 0 8 row
    ran (.rcopy 0 0) s (fun t => ran (.unitInstructionStart 0 0 3 {} 0) t (fun t =>
      ran (.unitInstructionComplete 0 0 3 {}) t (fun t => (t.getRow 0 9).1 == row))) = true := by decide +kernel

/-- A descriptor of layout PM: base row, element type, extents, and its other fields. -/
def descX (row ty d0 d1 d2 d3 rest : Nat) : BitVec 256 :=
  BitVec.ofNat 256 (row + ty * 2 ^ 21 + 2 ^ 32 + d0 * 2 ^ 64 + d1 * 2 ^ 80 + d2 * 2 ^ 96 + d3 * 2 ^ 112 + rest)

/-- The job of the transfers below: rows 8 to 31, all of SMEM, and a binding to window 9 of chip 2 over port 0. -/
def workJob : Job := { job0 with share := List.replicate 8 { share0 with smemCount := 65536, rows := [⟨1, 8, 31, 0⟩] }, frames := [] }

/-- A part at an instruction of format X, with the descriptors D4, D5 and D6 and S3. -/
def workAt (w : Nat) (d : BitVec 256 × BitVec 256 × BitVec 256) (s3 : Nat) : State :=
  let s := progWith w workJob { ctx0 with d := ((Ctx.reset.d.set 4 d.1).set 5 d.2.1).set 6 d.2.2, s := ctx0.s.set 3 (BitVec.ofNat 32 s3) }
  let s := s.setReg F.LNK_ROUTE_ROUTE.off 0x10
  { s with lnk := { s.lnk with ob := vset s.lnk.ob 0 ⟨true, 2, 9, 5, 1⟩ } }

/-- What UnitsCarryInstructionsOut asks of a state before an instruction, and its captured operands meet a further condition. -/
def worksB (s : State) (o : OpC) (w : Nat) (p : State → UInst → Bool) : Bool :=
  let q : UInst := { s.capture 0 0 o (BitVec.ofNat 64 w) with sr := (s.ctx 0 0).sr, srN := (s.ctx 0 0).srN }
  gives s (.run o (BitVec.ofNat 64 w)) && wfB s && s.issueCheck 0 0 o q == 0 && (s.ctx 0 0).queue (unitOf o) == [] && p s q

/-- Rows that an instruction may read, with no poison in them, and rows that it may write. -/
def goodB (s : State) (rows : List (Bool × Nat)) : Bool :=
  rows.all (fun r => s.unitAllowed 0 0 1 r.1 r.2 false && (List.range 64).all (fun n => !(s.peek 0 [] r.1 r.2 n).2))
def mineB (s : State) (rows : List (Bool × Nat)) : Bool := rows.all (fun r => s.unitAllowed 0 0 1 r.1 r.2 true)

/-- The rows of a captured operand. -/
def rowsB (d : BitVec 256) : List (Bool × Nat) := (descOf d).rows.map (fun r => ((descOf d).space, r))

/-- The rows that an instruction of the array, vector or quantise unit reads and writes are its job's. -/
def tensorB (o : OpC) (s : State) (q : UInst) : Bool :=
  goodB s (tensorReads (s.peek 0 []) (s.unitEnv 0 0 q) o q)
    && mineB s ((tensorEval (s.peek 0 []) (s.unitEnv 0 0 q) o q).rows.map (fun r => (r.1, r.2.1)))

theorem test_unit_work :
    let a := descX 8 5 1 1 32 1 0
    let d := (a, descX 9 5 1 1 32 1 0, descX 10 5 1 1 32 1 0)
    let wd := (descX 8 0 2 2 1 1 (12 * 2 ^ 128 + 2 ^ 145 + 2 ^ 148 + 2 * 2 ^ 151), descX 10 8 2 2 1 1 0, descX 20 7 16 1 1 1 (2 * 2 ^ 18 + 3 * 2 ^ 32))
    let add := wX 0x24 5 4 6 1 0 0 0
    let wino := wX 0x21 5 4 6 1 0 0 0
    let x (maj sub aux : Nat) := wX maj 0 4 0 1 3 sub aux
    let dma (sub aux : Nat) := wX 0x30 0 4 2 1 3 sub aux
    let idle (s : State) : Bool := allCores.all (fun y => (s.core y).held == []) && (List.finRange 3).all (fun y => (s.ctx 0 y).queue 3 == [])
      && (s.core 0).pairHeld == [] && s.lnk.waits == [] && !s.brg.training && s.jobs.all (fun j => !j.paired)
    let reads (s : State) (q : UInst) : Bool := idle s && goodB s (rowsB q.da)
    let writes (s : State) (q : UInst) : Bool := idle s && mineB s (rowsB q.da)
    let port (s : State) (q : UInst) : Bool := s.bindingOf 1 (bitsOf (fAux q.word) 0 3) (bitsOf (fAux q.word) 3 8) == some 0
      && s.routeTo 2 == some 0 && s.getF (F.LNK_STAT_DUP_CHIP 0) == 0
    let dram (s : State) (q : UInst) : Bool := s.brgUp && s.region (dmaAddr q 0) == .dram && decide (dmaAddr q 0 + 512 ≤ s.ddrSize)
      && (s.dramDenied (dmaAddr q 0) 512).isNone && !s.dramPois (dmaAddr q 0) && !s.gateDrops 1 0 && !s.gateDrops 1 3
    [worksB (workAt add d 0) .ewise add (tensorB .ewise),
     worksB (workAt wino wd 0) .wino wino (fun s q => tensorB .wino s q && !winoRefused 0 (descOf q.da) (descOf q.db)),
     worksB (workAt (x 0x3D 0 0) d 16) .digest (x 0x3D 0 0) reads, worksB (workAt (x 0x3E 0 0) d 16) .ptest (x 0x3E 0 0) reads,
     worksB (workAt (x 0x33 0 0) d 1024) .smld (x 0x33 0 0) reads, worksB (workAt (x 0x34 0 0) d 1024) .smst (x 0x34 0 0) writes,
     worksB (workAt (wX 0x32 5 4 0 1 0 0 0) d 0) .rcopy (wX 0x32 5 4 0 1 0 0 0) (fun s q => reads s q && mineB s (rowsB q.dd)),
     worksB (workAt (dma 0 0) d 64) .dmaRead (dma 0 0) (fun s q => writes s q && dram s q),
     worksB (workAt (dma 1 1024) d 64) .dmaWrite (dma 1 1024) (fun s q => reads s q && dram s q),
     worksB (workAt (wX 0x35 0 4 0 1 0 0 3) d 0) .psend (wX 0x35 0 4 0 1 0 0 3) (fun s q => reads s q && (s.job 1).isSome && s.brgUp),
     worksB (workAt (x 0x31 0 74) d 2) .rxferRead (x 0x31 0 74) (fun s q => writes s q && port s q),
     worksB (workAt (x 0x31 1 74) d 2) .rxferWrite (x 0x31 1 74) (fun s q => reads s q && port s q)].all id = true := by decide +kernel


/-! ### Registers -/

/-- A register write lands. -/
def landsB (s : State) (m : Master) (off : Nat) : Bool :=
  s.pathOpen m off true && (!aftBlock off || s.brgUp) && s.mayWrite m off && (!s.asleep off || off % 65536 == 4)

/-- A one-register command that lands and leaves a check satisfied. -/
def acts (i : Instr) (s : State) (p : State → Bool) : Bool :=
  (match i.regWriteOf with
    | some (m, off) => landsB s m off
    | none => false) && wfB s && ran i s p

/-- Writes of one register. -/
noncomputable def put (s : State) (off n v : Nat) (p : State → Bool) : Bool := ran (.registerWrite env0 [⟨.host, off, n, v⟩]) s p

/-- A read and its answer. -/
noncomputable def reads (s : State) (off n v : Nat) (p : State → Bool) : Bool :=
  ran (.registerRead .host off n) s (fun t => t.wire.head? == some (.answer 1 v false) && p t)

theorem test_register_widths :
    let s := ready
    let lo := F.TIME_SET_LO_SET_LO.off
    let both := put s lo 8 (5 + 9 * 2 ^ 32) (fun t => t.getReg lo == 5 && t.getReg F.TIME_SET_HI_SET_HI.off == 9)
    [both, put s lo 4 0xFFFFFFFF (fun t => t.getReg lo == 0xFFFFFFFF), put s lo 2 1 (fun t => t.getReg lo == 0
       && t.getF F.GLB_STATUS_BAD_WIDTH == 1), put s (lo + 1) 4 1 (fun t => t.getF F.GLB_STATUS_BAD_WIDTH == 1),
     reads s 0 4 0x08801F3C (fun t => decide (t.regs = s.regs)), reads s 2 2 0x0880 (fun _ => true), reads s 1 1 0x1F (fun _ => true),
     reads s 3 2 0 (fun t => t.getF F.GLB_STATUS_BAD_WIDTH == 1), reads s 0 0 0 (fun t => t.getF F.GLB_STATUS_BAD_WIDTH == 1),
     reads s 2 4 0 (fun t => t.getF F.GLB_STATUS_BAD_WIDTH == 1)].all id = true := by decide +kernel

theorem test_latches :
    let s := { ready with time := { ready.time with now := 7 * 2 ^ 32 + 5 } }
    let d := (ready.setReg (F.DIG_RES_LO 3).off 11).setCore 3 { ready.core 3 with digHi := 13 }
    [ran (.timeNowLoRead .host) s (fun t => t.wire == [.answer 1 5 false] && reads t F.TIME_NOW_HI_NOW_HI.off 4 7 (fun _ => true)),
     ran (.digResLoRead 3 .lcp) d (fun t => t.wire == [.answer 0 11 false] && reads t (F.DIG_RES_HI 3).off 4 13 (fun _ => true))].all id
    = true := by decide +kernel

theorem test_refused_writes :
    let s := ready
    let off := (F.CORE_CTRL_HALT0 2).off
    let clr (m : Master) := Instr.clrSat 2 m 0
    [acts (clr .host) s (fun _ => true), still (clr .host) (inState devStandby 1),
     ran (clr .host) (s.setF F.BRG_STATUS_UP 0) (fun t => t.getF F.GLB_STATUS_AFT_UNREACHABLE == 1),
     ran (clr .host) (s.setOwner (blockOf off) 3) (fun t => t.getF F.GLB_STATUS_NOT_OWNER == 1 && t.getF F.GLB_DENYCNT == 1),
     ran (clr .host) (inState devReady 2) (fun t => t.getF (F.CORE_STATUS_CORE_ASLEEP 2) == 1),
     s.mayWrite .hsp F.HOST_MBOX_IN.off, ran (.hostMboxIn [(.hsp, 9), (.lcp, 8)]) s (fun t => t.getReg F.HOST_MBOX_IN.off == 9
       && t.getF F.GLB_STATUS_COLLIDE == 1)].all id = true := by decide +kernel

theorem test_access_codes :
    let s := ready
    let gpio := F.GLB_STATUS_BAD_WIDTH.off
    [put s 0 4 0 (fun t => decide (t.regs = s.regs)),
     put (s.setF F.GLB_STATUS_BAD_WIDTH 1) gpio 4 0xFFFFFFFF (fun t => t.getF F.GLB_STATUS_BAD_WIDTH == 0),
     put s F.EDGE_CTRL_CLR.off 4 1 (fun t => t.getF F.EDGE_CTRL_CLR == 0),
     put (s.setF F.GLB_PIN_LOCK_LOCK 1) F.GLB_PIN_LOCK_LOCK.off 4 0 (fun t => t.getF F.GLB_PIN_LOCK_LOCK == 1)].all id = true := by
  decide +kernel

theorem test_core_control :
    let s := prog 0
    let halted := progWith 0 job0 { ctx0 with halted := true }
    let stalled := progWith 0 job0 { ctx0 with crWait := some { write := false, off := 0, rd := 1, val := 0 } }
    [acts (.coreHalt 0 0 .host 0) s (fun t => (t.ctx 0 0).halted && t.getF (F.CORE_STATUS_HALTED0 0) == 1),
     acts (.coreHalt 0 0 .host 0) stalled (fun t => (t.ctx 0 0).haltReq && !(t.ctx 0 0).halted),
     acts (.coreResume 0 0 .host 0) halted (fun t => !(t.ctx 0 0).halted), acts (.coreResume 0 1 .host 0) s (fun t =>
       decide (t.ctx 0 1 = s.ctx 0 1)),
     acts (.clrSat 0 .host 0) (s.setReg (F.CORE_SAT 0).off 5) (fun t => t.getReg (F.CORE_SAT 0).off == 0),
     acts (.clrPerf 0 .host 0) (s.setReg (F.CORE_PERF_CYC 0).off 5) (fun t => t.getReg (F.CORE_PERF_CYC 0).off == 0),
     acts (.spClr 0 .host 0) (s.setReg (F.CORE_SP_CE 0).off 5) (fun t => t.getReg (F.CORE_SP_CE 0).off == 0),
     acts (.ckClr 0 .host 0) (s.setF (F.CK_TRANSIENT 0) 5) (fun t => t.getF (F.CK_TRANSIENT 0) == 0),
     acts (.edgeClr .host 0) (s.setReg F.EDGE_SAT.off 5) (fun t => t.getReg F.EDGE_SAT.off == 0)].all id = true := by decide +kernel

theorem test_job_figures :
    let j := { job0 with slackLast := -5, miss := 3, dxDelta := 4 }
    let s := { (prog 0).setF F.ST_SEL_JOB 1 with jobs := [j] }
    [(s.job (s.getF F.ST_SEL_JOB)).isSome,
     acts (.stClr .host 0) s (fun t => t.jobs.all (fun j => j.miss == 0 && j.slackLast == 0 && j.dxDelta == 4)),
     acts (.dxClr .host 0) s (fun t => t.jobs.all (fun j => j.dxDelta == 0 && j.miss == 3)),
     acts (.dxInvalidate .host 0) s (fun t => t.jobs.all (·.dxInval))].all id = true := by decide +kernel

/-! ### Checks, replays, digests -/

theorem test_digests :
    let s := ready
    let busy := (s.setCore 1 { s.core 1 with digBusy := true, digRow := 0, digCnt := 0 }).setF (F.DIG_GO_BUSY 1) 1
    let per := s.setF F.DIG_CTRL_PERIOD 1
    let late := { per with time := { s.time with now := 1000000 } }
    [landsB s .host (F.DIG_GO_GO 1).off, ran (.digGo 1 .host 1) s (fun t => t.getF F.GLB_STATUS_NOT_OWNER == 1 && !(t.core 1).digBusy),
     ran (.digGo 1 .lcp 1) ((s.setReg (F.DIG_ROW_FIRST 1).off 7).setReg (F.DIG_CNT_COUNT 1).off 2) (fun t => (t.core 1).digBusy
       && (t.core 1).digRow == 7 && (t.core 1).digCnt == 2), ran (.digestDone 1 {}) busy (fun t => !(t.core 1).digBusy
       && t.getF (F.DIG_GO_BUSY 1) == 0 && t.getF (F.DIG_GO_POISON 1) == 0),
     ran .digestSweep late (fun t => t.dig.lastSweep == 1000000), still .digestSweep per,
     acts (.sweepNow .host 0) s (fun _ => true)].all id = true := by decide +kernel

theorem test_sweep_and_repair :
    let p : Pkg := { id := 5, version := 1, digest := 0, svn := 0, first := 4, rows := 1, cores := [0, 1], adapt := 0, export_ := 0,
                     shadow := 0, judged := true, owed := [] }
    let s := { ready with pkgs := [p] }
    let rows := (s.copyRows 0 [4]).1
    let put_ := (s.copyRows 0 [4]).2.putRow 1 4 (rows.getD 0 [])
    [p.segs == 1, p.segRows 0 == (4, 1), acts (.sweepNow .host 0) s (fun t => t.dig.todo == [⟨5, 0, 0, 1⟩, ⟨5, 0, 1, 1⟩]),
     rows.all (fun w => !rowPoisoned w), !(put_.digestRows 1 4 1).2.1].all id = true := by decide +kernel


/-- An array instruction with one check block of 16 cells, all 0, of FP16; a cell that comes out as another code. -/
def ckInst : UInst :=
  { (prog 0).capture 0 0 .conv 0 with
      dd := desc 9, ck := 1, started := true, tok := 2, cells := List.replicate 16 (fvInt 0, fvInt 0),
      effs := [.row 0 false 9 (List.replicate 64 (0#64, false))] }
def ckErr (c : Nat) : CellErr := { o := 0, p := 0, code := c }

/-- The instruction at the front of the array queue, with its checks on and `n` replays made. -/
def ckState (i : UInst) (n : Nat) : State :=
  let s := progWith 0 job0 { ctx0 with queues := ctx0.queues.set 0 [i], replays := n }
  s.setForce (F.CK_CTRL_ENABLE 0).off (putBits (s.inForce (F.CK_CTRL_ENABLE 0).off) (F.CK_CTRL_ENABLE 0).lo 1 1)
def ckFront (t : State) : UInst := ((t.ctx 0 0).queue 0).headD ckInst

/-- A wrong cell mismatches its lines; so does a lane that forms another sum, and lanes that agree with the cell do not. -/
theorem test_check_blocks :
    let off := (ckState ckInst 0).setForce (F.CK_CTRL_ENABLE 0).off 0
    let go (lines : List LineSum) (errs : List CellErr) := Instr.checkBlockDone 0 0 0 0 lines errs
    let lands (t : State) : Bool := (ckFront t).checked == [(0, 0)] && (ckFront t).replay.isNone
    let mends (t : State) : Bool := (ckFront t).replay.isSome && (t.ctx 0 0).replays == 1
    [wfB (ckState ckInst 0), still (go [] []) (ckState { ckInst with started := false } 0), ran (go [] [ckErr 0x3C00]) off lands,
     ran (go [] []) (ckState ckInst 0) lands, ran (go [] [ckErr 0x3C00]) (ckState ckInst 0) mends,
     ran (go [⟨true, 0, 1⟩] []) (ckState ckInst 0) mends,
     ran (go [⟨true, 0, 1⟩, ⟨false, 0, 1⟩] [ckErr 0x3C00]) (ckState ckInst 0) lands,
     ran (go [] [ckErr 0x3C00]) (ckState ckInst 255) (fun t => t.getF (F.CK_STATUS_STORM 0) == 1 && t.flt.aft.any (fun q => q.cls == 0x24)),
     ran (go [] [ckErr 0x3C00]) (ckState { ckInst with satB := [(0, 0)] } 0) lands].all id = true := by decide +kernel

theorem test_replays :
    let s := ckState { ckInst with replay := some { o := 0, p := 0, errs := [ckErr 0x3C00], addr := 0 } } 0
    let ends (l : List LineSum) (errs : List CellErr) (f : Fld) (cls : Nat) : Bool :=
      ran (.replayDone 0 0 l errs) s (fun t => t.getF f == 1 && (ckFront t).replay.isNone && t.flt.aft.any (fun r => r.cls == cls))
    [wfB s, still (.replayDone 0 0 [] []) (prog 0), ends [] [ckErr 0x3C00] (F.CK_CHECKER 0) 0x20,
     ends [⟨true, 0, 1⟩, ⟨false, 0, 1⟩] [ckErr 0x3C00] (F.CK_CHECKER 0) 0x21, ends [] [] (F.CK_TRANSIENT 0) 0x22,
     ends [] [ckErr 0x4000] (F.CK_PERSISTENT 0) 0x23].all id = true := by decide +kernel

/-! ### Time, frame sync, sensors -/

theorem test_time :
    let s := (ready.setReg F.TIME_SET_LO_SET_LO.off 9).setReg F.TIME_SET_HI_SET_HI.off 1
    let at_ := { s with time := { s.time with now := 100, aft := 90 } }
    let busy := at_.setF F.PWR_DEV_STATE devRun
    [acts (.timeSet .host 0) at_ (fun t => t.time.now == 2 ^ 32 + 9 && t.time.stepPending == some (2 ^ 32 - 91)
       && t.getF F.TIME_STATUS_STEPPING == 1), acts (.timeSet .host 0) busy (fun t => t.time == busy.time
       && t.getF F.TIME_STATUS_STEP_REFUSED == 1),
     ran .dtimeStepDone { at_ with time := { at_.time with stepPending := some (-91) } } (fun t => t.time.aft == 2 ^ 64 - 1),
     acts (.timeSlewWrite .host 200000) s (fun t => t.getF F.TIME_SLEW_PPB == 200000 && t.getF F.TIME_STATUS_SLEW_CLIP == 0),
     acts (.timeSlewWrite .host 200001) s (fun t => t.getF F.TIME_SLEW_PPB == 200000 && t.getF F.TIME_STATUS_SLEW_CLIP == 1),
     acts (.timeSlewWrite .host 0xFCF2C0) s (fun t => t.getF F.TIME_STATUS_SLEW_CLIP == 0),
     acts (.timeSlewWrite .host 0xFCF2BF) s (fun t => t.getF F.TIME_STATUS_SLEW_CLIP == 1 && t.getF F.TIME_SLEW_PPB == 0xFCF2C0),
     nx (step s) (fun t => t.time.now == 1 && t.time.aft == 1), nx (step { s with off := true }) (fun t => decide (t = { s with off := true })),
     s.time.slew == 0 && s.time.aftSlew == 0 && s.time.trim == 0 && s.getF F.TIME_SLEW_PPB == 0].all id = true := by decide +kernel

/-- A field with its value written and in force. -/
def both (s : State) (x : Fld) (v : Nat) : State := (s.setF x v).setForce x.off (putBits (s.inForce x.off) x.lo x.w v)

theorem test_frame_sync :
    let f (s : State) (x : Fld) (v : Nat) := (s.setF x v).setForce x.off (putBits (s.inForce x.off) x.lo x.w v)
    let s := f (f (f ready (F.FSG_CTRL_ENABLE 1) 1) (F.FSG_PERIOD 1) 1000) (F.FSG_START_LO 1) 50
    let at_ (s : State) (n : Nat) : State := ({ s with time := { s.time with now := n } }).setGen 1 { s.gen 1 with armed := true }
    let wide := s.setF (F.FSG_WIDTH 1) 10
    let slave := f wide (F.FSG_CTRL_MODE 1) 2
    let high := (at_ s 60).setGen 1 { s.gen 1 with level := true, pulseEnd := 60 }
    [wfB (at_ wide 50), still (.fsgEdge 0) s, still (.fsgEdge 1) (at_ wide 49), still (.fsgEdge 1) (wide),
     ran (.fsgEdge 1) (at_ wide 50) (fun t => (t.gen 1).level && (t.gen 1).pulseEnd == 60 && t.getF (F.FSG_COUNT 1) == 1),
     ran (.fsgEdge 1) (at_ s 50) (fun t => !(t.gen 1).level && t.getF (F.FSG_CTRL_BAD_WIDTH 1) == 1 && t.getF (F.FSG_COUNT 1) == 1),
     ran (.fsgEdge 1) (at_ (s.setF (F.FSG_WIDTH 1) 1000) 50) (fun t => t.getF (F.FSG_CTRL_BAD_WIDTH 1) == 1),
     ran (.fsgEdge 1) (at_ (f wide (F.FSG_CTRL_MODE 1) 1) 50) (fun t => !(t.gen 1).armed),
     ran (.fsgEdge 1) ((at_ slave 80).setGen 1 { s.gen 1 with linkEdges := [80] }) (fun t => (t.gen 1).lastEdge == 80),
     ran (.fsgEdge 1) ((at_ slave 120).setGen 1 { s.gen 1 with lastEdge := 80, prevEdge := 40 }) (fun t => (t.gen 1).lastEdge == 120
       && (t.gen 1).holdover == 1), ran (.fsgPulseEnd 1) high (fun t => !(t.gen 1).level),
     still (.fsgPulseEnd 1) { high with time := { s.time with now := 59 } }].all id = true := by decide +kernel

theorem test_triggers :
    let s := (both (ready.setF (F.IN_TRIG_ENABLE 0) 1) (F.IN_TRIG_WIDTH 0) 5).setF (F.IN_TRIG_DELAY 0) 7
    let at_ (n : Nat) : State := ({ s with time := { s.time with now := n } }).setTrig 0 { level := false, pulseEnd := 0, due := [(17, 5), (27, 5)] }
    let high := (at_ 22).setTrig 0 { level := true, pulseEnd := 22, due := [] }
    [wfB s, ran (.triggerEdge 0) (at_ 17) (fun t => t.trig 0 == { level := true, pulseEnd := 22, due := [(27, 5)] }),
     still (.triggerEdge 0) (at_ 16), ran (.triggerPulseEnd 0) high (fun t => !(t.trig 0).level),
     still (.triggerPulseEnd 0) (at_ 22), acts (.trigFire 0 .host 1) (at_ 3) (fun t => (t.trig 0).level && (t.trig 0).pulseEnd == 8),
     acts (.rstRelease .host 1) s (fun t => t.getF F.IN_SENS_RST_RELEASE == 1)].all id = true := by decide +kernel

theorem test_sensor_lists :
    let d (s : State) (frame : Bool) (n lo hi : Nat) :=
      (s.setReg (listWord 0 frame (2 * n)) (BitVec.ofNat 32 lo)).setReg (listWord 0 frame (2 * n + 1)) (BitVec.ofNat 32 hi)
    let one := 0x36 + 2 ^ 7
    let s := d ready false 0 one 0
    let i := ready.i2cOf 0
    let going := ready.setI2c 0 { i with run := .imm }
    let fl := (ready.setForce (F.IN_I2C_CTRL_FL_EN 0).off (putBits (ready.inForce (F.IN_I2C_CTRL_FL_EN 0).off) (F.IN_I2C_CTRL_FL_EN 0).lo 1 1))
    [wfB s, !descBad (s.i2cDesc 0 false 0), acts (.i2cGo 0 0 .host 1) s (fun t => (t.i2cOf 0).run == .imm && (t.i2cOf 0).idx == 0),
     acts (.i2cGo 0 2 .host 1) s (fun t => t.getF (F.IN_I2C_STAT_BUS_STUCK 0) == 1), acts (.i2cGo 0 0 .host 1) ready (fun t => t.getF (F.IN_I2C_STAT_BAD_DESC 0) == 1),
     acts (.i2cGo 0 0 .host 1) going (fun t => t.intake == going.intake),
     acts (.i2cGo 0 0 .host 1) (ready.setI2c 0 { i with run := .frame }) (fun t => (t.i2cOf 0).wait == some 0),
     fl.forceF (F.IN_I2C_CTRL_FL_EN 0) == 1, ran (.i2cFrameListStart 0 0) fl (fun t => (t.i2cOf 0).ran),
     still (.i2cStretchTimeout 0 ⟨0, 0⟩) going, ran (.i2cStretchTimeout 0 ⟨65536, 0⟩) going (fun t => t.getF (F.IN_I2C_STAT_TIMEOUT 0) == 1),
     ran (.i2cDescriptorDone 0 false [] 0) going (fun t => t.getF (F.IN_I2C_STAT_NAK 0) == 1),
     !ready.anyCtxOn, acts (.probeGo [] .host 1) ready (fun t => t.getF F.IN_PROBE_CTRL_DONE == 1),
     acts (.probeGo [] .host 1) (both ready (F.IN_CTX_ENABLE 0) 1) (fun t => t.getF F.IN_PROBE_CTRL_PROBE_BUSY == 1)].all id = true := by
  decide +kernel

/-! ### Stripes -/

/-- A band of a frame that is ready. -/
def band0 (k : Nat) : StripeRec :=
  { k := k, ready := some 5, deadline := some 100, done := none, started := [], finished := [], aborted := false, scene := false,
    counted := false, settled := false }

/-- A frame in progress. -/
def frame0 : JFrame :=
  { no := 3, fs := 0, ctx := 0, src := 0, h := 16, depth := 10, flags := 0, buf := none, tiles := [16, 16, 0, 0, 0, 0, 0, 0], bands := [band0 0, band0 1], lines := [],
    lastPair := [], nextQ := 0, ended := false, bufs := [], res := [], taken := [], cands := [], seen := 0, overflow := false,
    suppressed := false }

theorem test_stripes :
    let j := { job0 with frames := [frame0] }
    let idle := { ctx0 with running := false }
    let s := { inState devRun 1 with jobs := [j] }
    let s := (s.setCtx 0 0 idle).setCtx 1 0 idle
    let at_ (n : Nat) : State := { s with time := { s.time with now := n } }
    let with_ (done : StripeRec) (s : State) : State := { s with jobs := [{ j with frames := [{ frame0 with bands := [done, band0 1] }] }] }
    let fin := with_ { band0 0 with finished := [0, 1] } (at_ 120)
    let ses := { job0 with session := true, inline := false, inctx := 255 }
    [s.canStart j 0, wfB s, ran (.stripeStart 1 0) s (fun t => (t.ctx 0 0).running && (t.ctx 0 0).pc == 4 && (t.ctx 0 0).frame == 3
       && (t.ctx 0 0).rs 1 == 7), still (.stripeStart 1 2) s, still (.stripeAbort 1) (at_ 99),
     ran (.stripeAbort 1) (at_ 100) (fun t => t.jobs.all (fun j => j.abort == 1 && j.miss == 1)
       && t.getF ⟨F.HOST_ICAUSE.off, 4, 1⟩ == 1), still (.bandComplete 1) (at_ 50),
     ran (.bandComplete 1) fin (fun t => t.jobs.all (fun j => j.slackLast == -20 && j.miss == 1)),
     ran (.bandComplete 1) { fin with time := { s.time with now := 100 } } (fun t => t.jobs.all (fun j => j.slackLast == 0 && j.miss == 0)),
     ran .sessionStepStart { (at_ 7).setF F.AD_CFG_GATE 0 with jobs := [ses] } (fun t => t.jobs.all (fun j => j.stepAt == some 7))].all id = true := by
  decide +kernel


/-! ### Power and trace -/

theorem test_core_sleep :
    let s := ready
    let flush := s.setCore 2 { s.core 2 with logFlush := true, sleepTo := psNap }
    let late := { flush with time := { s.time with aft := 20000 } }
    let nap := (inState devReady psNap).setIsl 2 { s.isl 2 with wakeWhy := some 1 }
    let dark := (inState devReady psDark).setIsl 2 { s.isl 2 with wakeWhy := some 1 }
    let lost := nap.setCore 2 { nap.core 2 with retLost := true }
    let run := { inState devRun 0 with jobs := [job0] }
    let auto := s.setF (F.PWR_ISL_AUTO_NAP 2) 1
    [s.napOk 2 && s.darkOk 2, acts (.napRequest 2 .host 1) s (fun t => (t.core 2).logFlush && (t.core 2).sleepTo == psNap && t.pstate 2 == 1),
     acts (.darkRequest 2 .host 2) s (fun t => (t.core 2).logFlush && (t.core 2).sleepTo == psDark),
     acts (.napRequest 0 .host 1) run (fun t => t.getF (F.PWR_ISL_CLIP_REQ_REFUSED 0) == 1), acts (.darkRequest 0 .host 2) run (fun t =>
       t.getF (F.PWR_ISL_CLIP_REQ_REFUSED 0) == 1), acts (.darkRequest 2 .host 2) nap (fun t => t.pstate 2 == psDark),
     acts (.napRequest 2 .host 1) nap (fun t => decide (t.cores = nap.cores)),
     acts (.runRequest 2 .host 0) (inState devReady psNap) (fun t => (t.isl 2).wakeWhy == some 1),
     acts (.runRequest 2 .host 0) flush (fun t => !(t.core 2).logFlush),
     ran (.autoNap 2) { auto with time := { s.time with now := 1000000 } } (fun t => (t.core 2).logFlush), still (.autoNap 2) s,
     ran (.logbookFlushDone 2) flush (fun t => t.pstate 2 == psNap), ran (.napFlushTimeout 2) late (fun t => t.pstate 2 == psNap),
     still (.napFlushTimeout 2) flush, ran (.coreWake 2) nap (fun t => t.pstate 2 == 1 && (t.core 2).waking),
     ran (.coreWake 2) dark (fun t => (t.core 2).initing), ran (.coreWake 2) lost (fun t => (t.core 2).initing
       && t.getF (F.SP_STATUS_RET_LOST 2) == 1), still (.coreWake 2) s].all id = true := by decide +kernel

theorem test_device_states :
    let s := ready
    let down := { s with pwr := { s.pwr with powerdown := true } }
    [acts (.sleepRequest .host 1) s (fun t => t.dev == devSleep && !t.brgUp && allCores.all (fun k => decide (2 ≤ t.pstate k))),
     acts (.sleepRequest .host 1) (inState devRun 1) (fun t => t.dev == devRun && t.getF F.PWR_DEV_REFUSED == 1),
     acts (.powerdownRequest .host 2) s (fun t => t.pwr.powerdown), acts (.powerdownRequest .lcp 2) (inState devBoot 1) (fun t =>
       t.getF F.PWR_DEV_REFUSED == 1), down.drained].all id = true := by
  decide +kernel

theorem test_wake_and_powerdown :
    let s := ready
    let asleep := (inState devSleep 2).setF F.PWR_SLEEP_WAKE_PIN 1
    let latched := { asleep with sec := { s.sec with fuses := [(0x400, 1#32), (0x800, 1#32)] } }
    let down := { s with pwr := { s.pwr with powerdown := true } }
    [ran .powerdownDrainDone down (fun t => t.dev == devStandby), still .powerdownDrainDone s,
     asleep.wakes 0, ran (.wakeEvent 0) asleep (fun t => t.dev == devReady && t.brg.training), latched.latched,
     ran (.wakeEvent 0) latched (fun t => t.dev == devTamper), still (.wakeEvent 1) asleep, still (.wakeEvent 0) s].all id = true := by
  decide +kernel

theorem test_monitors :
    let s := ready
    let ok := (List.range 18).map (fun r => match (s.railLimits r).1 with
      | some (a, _) => a
      | none => 0)
    let low := setNth ok 0 1
    let temps := (List.replicate 12 0).set 3 (200 * 16)
    [ok.length == 18, ran (.railSample ok) s (fun t => t.getF (F.PWR_RAIL_VAL_MV 0) == nth 0 ok 0 && decide (t.flt = s.flt)),
     ran (.railSample low) s (fun t => t.dev == devReady),
     ran (.tempSample temps) s (fun t => t.getF (F.PWR_TEMP_VAL 3) == 3200 && t.getF F.PWR_STATUS_TEMP_WARN == 1
       && t.getF ⟨F.HOST_ICAUSE.off, 25, 1⟩ == 1),
     still (.thermTrip 3) { s with pwr := { s.pwr with trip := true } }].all id = true := by decide +kernel

theorem test_margin_loop :
    let at_ (v f : Nat) : State := ready.setIsl 1 { ready.isl 1 with v := v, f := f }
    let lo := ready.getF F.PWR_LOOP_MARGIN_MIN
    let hi := ready.getF F.PWR_LOOP_MARGIN_MAX
    let ft := ready.getF (F.PWR_ISL_F_TARGET 1)
    let flim := min (ft * 64 / 64) (min (ready.fCap 1) 1400)
    let vm := ready.vLimit 1
    let ticks (s : State) (m v f : Nat) : Bool := ran (.marginLoopTick 1 m) s (fun t => (t.isl 1).v == v && (t.isl 1).f == f)
    let short := ready.setIsl 1 { ready.isl 1 with shortAt := some 0, clipAt := some 0 }
    let late := { short with time := { short.time with now := 1000000 } }
    [decide (0 < lo), decide (lo ≤ hi), decide (640 ≤ vm), ticks (at_ 600 flim) (lo - 1) 605 flim, ticks (at_ vm flim) (lo - 1) vm (max 200 (flim - ft / 64)),
     ticks (at_ 600 flim) lo 600 flim, ticks (at_ 600 flim) (hi + 1) 595 flim, ticks (at_ 584 flim) (hi + 1) 584 flim,
     ticks (at_ 600 (flim + 1)) hi 600 (max flim (flim + 1 - ft / 64)), ticks (at_ 600 (flim - 1)) (hi + 1) 600 flim,
     still (.marginLoopTick 1 0) (inState devReady 2), ran (.clockStretch 1) ready (fun t => (t.isl 1).stretched
       && t.getF (F.PWR_ISL_STRETCH 1) == 1), ran (.marginShortfallLimit 1) late (fun t => t.getF (F.CORE_STATUS_QUAR 1) == 1),
     still (.marginShortfallLimit 1) ready, ran (.powerCapTick 70000) ready (fun t => t.getF F.PWR_EST_EST == 65535),
     ran (.clipEpisodeTimer 1) late (fun t => t.getF ⟨F.HOST_ICAUSE.off, 24, 1⟩ == 1), still (.clipEpisodeTimer 1) ready].all id = true := by
  decide +kernel

theorem test_trace :
    let s := (ready.setF F.TRC_CTRL_SINK_EN 1).setF F.TRC_SIZE 14
    let p : LogPkt := { typ := 9, src := 0, time := 0, val := 0 }
    let logged := s.setCore 3 { s.core 3 with log := [p, p] }
    let old := { s with trc := { s.trc with row := [p] }, time := { s.time with aft := 10000 } }
    let due := s.setCore 3 { s.core 3 with logSince := 64 * 65536 }
    [s.trcDrains, ran .traceFunnelPacket logged (fun t => (t.core 3).log == [p] && t.trc.row == [p] && t.trc.turn == 4),
     ran .traceFunnelPacket { logged with trc := { s.trc with row := List.replicate 31 p } } (fun t => t.trc.row == []
       && t.getF F.TRC_HEAD == 512), still .traceFunnelPacket ready, ran .traceRowPad old (fun t => t.trc.row == []), still .traceRowPad s,
     ran (.syncTriple 3) due (fun t => (t.core 3).log.map (·.typ) == [1, 2, 3]),
     acts (.trcClr .host 1) (s.setF F.TRC_HEAD 512) (fun t => t.getF F.TRC_HEAD == 0)].all id = true := by decide +kernel

/-! ### Resets, boot, security -/

theorem test_resets :
    let s := ready.putRow 1 3 (List.replicate 64 (5#64, false))
    let off := { s with off := true }
    let held := inState devTamper 1
    let wd := { (s.setF F.SEC_WDOG_TIMEOUT 1) with sec := { s.sec with wdogOn := true }, time := { s.time with now := 1000000 } }
    [wfB s, ran (.powerOn 5) State.reset (fun t => decide (t = State.reset)), ran (.powerOn 5) off (fun t => !t.off && t.getF F.SEC_BOOT_STRAP == 5),
     ran (.aonPowerLoss false) s (fun t => t.off && t.regs == []), ran (.coldReset 3 []) s (fun t => t.dev == devBoot
       && t.getF F.SEC_BOOT_STEP == 1 && t.getF F.SEC_BOOT_STRAP == 3 && (t.core 1).sp == []), still (.coldReset 3 []) held,
     still .resetNShortPulse s, acts (.secResetWarm .host 1) s (fun t => t.dev == devBoot && decide ((t.core 1).sp = (s.core 1).sp)
       && t.getF F.SEC_BOOT_WARM == 1), acts (.secResetCold .host 2 1) s (fun t => t.dev == devBoot && t.getF F.SEC_BOOT_STRAP == 1
       && (t.core 1).sp == []), wd.wdogRuns, ran .watchdogExpiry wd (fun t => t.getF F.SEC_BOOT_WDOG == 1 && t.dev == devBoot),
     still .watchdogExpiry s, acts (.watchdogKick .host 1) wd (fun t => t.sec.wdogAt == 1000000)].all id = true := by decide +kernel

theorem test_boot :
    let at_ (n : Nat) : State := (inState devBoot 1).setF F.SEC_BOOT_STEP n
    let down (n : Nat) : State := (at_ n).setF F.BRG_STATUS_UP 0
    let go := Instr.bootStepComplete env0
    let to_ (s : State) (n : Nat) : Bool := ran go s (fun t => t.getF F.SEC_BOOT_STEP == n)
    let strap (s : State) (n : Nat) : State := { s with sec := { s.sec with strap := n } }
    let latched : State := { (at_ 2).setF F.SEC_STATUS_POR 0 with sec := { (at_ 2).sec with fuses := [(0x400, 1#32), (0x800, 1#32)] } }
    let failed := (at_ 5).setF F.SEC_BOOT_CODE 7
    let rom := { at_ 3 with sec := { (at_ 3).sec with romMode := true } }
    [wfB (at_ 1), to_ (at_ 1) 2, ran go (strap (at_ 1) 4) (fun t => t.getF F.SEC_BOOT_CODE == 1), to_ (at_ 2) 3,
     ran go (strap (at_ 2) 1) (fun t => t.sec.romMode), latched.latched, ran go (at_ 3) (fun t => t.getF F.SEC_BOOT_CODE == 6), ran go (strap (at_ 3) 3) (fun t => t.sec.romMode),
     to_ (at_ 4) 5, (at_ 5).board == [], ran go (at_ 5) (fun t => t.getF F.SEC_BOOT_STEP == 6 && t.getF F.SEC_TAMPER_CFG_LOCK == 1),
     to_ (at_ 6) 7, to_ (at_ 7) 8, still go { down 7 with brg := { (at_ 7).brg with training := true } },
     ran go (down 7) (fun t => t.getF F.SEC_STATUS_AFT_OFF == 1 && t.getF F.SEC_BOOT_STEP == 10),
     to_ (at_ 9) 10,
     ran go (at_ 10) (fun t => t.dev == devReady && t.host.cfgUp && t.getF F.SEC_BOOT_STEP == 11), still go failed,
     ran (.bootStepTimeout 0x0A) (at_ 6) (fun t => t.getF F.SEC_BOOT_CODE == 0x0A), ran (.bootStepTimeout 0x0C) (at_ 6) (fun t =>
       t.getF F.SEC_BOOT_CODE == 0x0B), still (.bootStepTimeout 1) rom].all id = true := by decide +kernel

theorem test_security :
    let s := ready
    let board := (inState devBoot 1).setF F.SEC_BOOT_STEP 4
    let data : State := { board with sec := { s.sec with fuseData := 6 } }
    let again : State := { data with sec := { data.sec with fuses := [(0x500, 1#32), (0x800, 1#32)] } }
    let rom : State := { inState devBoot 1 with sec := { s.sec with romMode := true, stage := List.replicate 8 0 } }
    let debugTok := { s with sec := { s.sec with token := [(0, 0x5444384E)] } }
    let unlock := { s with sec := { s.sec with token := [(0, 0x5455384E)] } }
    [acts (.tokenVerify .host 1) s (fun t => t.getF F.SEC_TOKEN_CTRL_FAIL == 1 && t.sec == s.sec),
     acts (.tokenVerify .host 1) unlock (fun t => t.getF F.SEC_TOKEN_CTRL_FAIL == 1), debugTok.tokenGood (debugTok.tokenBytes.take 288) 5 == false,
     acts (.tokenVerify .host 1) debugTok (fun t => t.sec.debugFails == 1),
     acts (.fuseProgram .host 5) s (fun t => t.sec.fuses == s.sec.fuses), acts (.fuseProgram .lcp 5) data (fun t => t.fuse 5 0 == 2),
     acts (.fuseProgram .lcp 5) again (fun t => t.getF F.SEC_BOOT_FUSE_REFUSED == 1 && t.fuse 5 0 == 1),
     acts (.stageVerify .host 8) rom (fun t => t.getF F.SEC_BOOT_CODE == 6 && t.sec.stage == [] && t.sec.romMode),
     acts (.stageVerify .host 8) s (fun t => decide (t.sec = s.sec))].all id = true := by decide +kernel

theorem test_tamper :
    let s := (ready.setF F.SEC_TAMPER_CFG_EN 0x7F).setF F.SEC_TAMPER_CFG_LEVEL 1
    [wfB s, s.tamperArmed 4 == 4, s.tamperArmed 1 == 0, still (.tamperEvent 1) s].all id = true := by decide +kernel

theorem test_store :
    let s := ready
    let auto := { s with sec := { s.sec with autoload := true } }
    let o : StoObj := { target := 1, id := 1, version := 1, bytes := [], ext := [] }
    let model := { auto with sto := { s.sto with objs := [o] } }
    [still (.packageAutoload none) s, ran (.packageAutoload none) auto (fun t => !t.sec.autoload),
     ran (.packageAutoload none) model (fun t => t.getF F.STO_LOAD_FAIL == 1), still (.flashOperationDone false) s].all id = true := by
  decide +kernel


/-! ### Operands out of range -/

/-- One command per check of `Instr.wf`, with an operand just outside its range. -/
noncomputable def illFormed : List Instr :=
  let zero : BrgMsg := { cls := 0, opc := 0, tag := 0, job := 0, len := 0, srcu := 0, dstu := 0, addr := 0, pmask := 0, inl := 0, resv := 0, data := [] }
  let e : WriteEnv := ⟨3, [], 0⟩
  [.registerWrite e [], .registerWrite ⟨0, List.replicate 9 (true, 0, 0), 0⟩ [], .registerWrite ⟨0, [], 8⟩ [],
   .registerWrite env0 [⟨.host, 2 ^ 21, 4, 0⟩], .registerWrite env0 [⟨.host, 0, 3, 0⟩], .registerWrite env0 [⟨.host, 0, 4, 2 ^ 32⟩],
   .bridgeMessageSend .f2a [{ zero with cls := 8 }], .bridgeMessageSend .f2a [{ zero with opc := 16 }],
   .bridgeMessageSend .f2a [{ zero with tag := 4096 }], .bridgeMessageSend .f2a [{ zero with job := 4096 }],
   .bridgeMessageSend .f2a [{ zero with len := 32, data := List.replicate 32 0 }], .bridgeMessageSend .f2a [{ zero with len := 1 }],
   .laneSwap .f2a 48, .laneFailNoSpare .f2a 48, .stripeStart 4096 0, .stripeAbort 4096, .bandComplete 4096,
   .longPacket 0 16 0 0 true [], .longPacket 0 0 64 0 true [], .longPacket 0 0 0 3 true [], .lineStartPacket 0 16 0 0,
   .lineStartPacket 0 0 3 0, .lineStartPacket 0 0 0 65536, .frameStartPacket 0 16 0, .frameStartPacket 0 0 3, .frameEndPacket 0 16 0,
   .frameEndPacket 0 0 3, .deskewBurst 0 0 [0, 0, 0, 0, 0], .i2cGo 0 3 .host 0, .i2cFrameListStart 0 3,
   .i2cDescriptorDone 0 true [0, 0, 0, 0, 0] 0, .i2cDescriptorDone 0 true [] 3, .i2cStretchTimeout 0 ⟨0, 3⟩,
   .probeGo (List.replicate 9 (true, 0, 0)) .host 0, .scratchpadInitDone 0 [131072], .inboundRowWrite 0 4096 0 ⟨(List.replicate 64 (0, 0)), 0⟩,
   .inboundRowWrite 0 0 131072 ⟨(List.replicate 64 (0, 0)), 0⟩, .inboundRowWrite 0 0 0 ⟨[], 0⟩, .controlRegisterAnswer 0 0 e,
   .edgePlaneRowStart 4096 { post := true }, .loadSenseDone (List.replicate 6 (0, true)), .remoteRegisterAccess { port := 0, set := 0 } e, .bar4Access 0 4 none e,
   .bar4Access (2 ^ 33) 4 none env0, .bar4Access 0 0 none env0, .bar4Access 0 513 none env0, .bulkDataRead 0 0 0, .bulkDataRead 0 4 1025,
   .bulkDrain 0 e, .hspWriteFrame 0 [] e, .hspReadFrame 0 4097 0 [], .hspReadFrame 0 4 1025 [], .railSample [],
   .railSample (List.replicate 18 65536), .tempSample [], .powerOn 8, .coldReset 8 (List.replicate 12 0), .coldReset 0 [],
   .secResetCold .host 0 8, .bootStepComplete e, .bootStepTimeout 0, .bootStepTimeout 13, .configurationRequest 2 none,
   .configurationRequest 4096 none, .registerRead .host (2 ^ 21) 4, .registerRead .host 0 3]

theorem test_ill_formed_refused : illFormed.all (fun i => !i.wf) = true := by decide +kernel

theorem test_well_formed :
    [Instr.wf (.registerWrite env0 [⟨.host, 2 ^ 21 - 4, 4, 2 ^ 32 - 1⟩]), Instr.wf (.laneSwap .f2a 47), Instr.wf (.stripeStart 4095 7),
     Instr.wf (.configurationRequest 4092 none), Instr.wf (.bootStepTimeout 12), Instr.wf (.bar4Access (2 ^ 33 - 1) 512 none env0)].all id
    = true := by decide +kernel

/-! ### The bridge -/

theorem test_bridge_training :
    let s := ready
    let trains := ({ s.setF F.BRG_STATUS_UP 0 with brg := { s.brg with training := true, trainAt := 5 } })
    let at_ (s : State) (n : Nat) : State := { s with time := { s.time with now := n } }
    let early := at_ trains 400000
    let down := { s.setF F.BRG_STATUS_UP 0 with brg := { s.brg with wasUp := true, downAt := 0 } }
    let noisy := s.setDir .f2a { s.dir .f2a with lpar := [(3, 200)] }
    let none_ := noisy.setF F.BRG_BAD_F2A1 (3 * 2 ^ 16)
    [acts (.brgTrain .host 1) s (fun t => !t.brgUp && t.brg.training), acts (.brgClrCnt .host 2) (s.setF F.BRG_ERRCNT 5) (fun t =>
       t.getF F.BRG_ERRCNT == 0), ran (.brgTrainingDone 0 1 9) early (fun t => t.brgUp && t.getF F.BRG_STATUS_WIDTH == 0
       && t.getF F.BRG_STATUS_TDELAY == 9 && t.getF F.BRG_STATUS_SPARE_F2A == 2 && t.getF F.BRG_STATUS_SPARE_A2F == 1),
     ran (.brgTrainingDone 7 0 9) early (fun t => t.getF F.BRG_STATUS_WIDTH == 1), still (.brgTrainingDone (2 ^ 27 - 1) 0 9) early,
     ran (.brgTrainingFail (2 ^ 27 - 1) 0) early (fun t => t.getF F.BRG_STATUS_FAIL == 1 && !t.brg.training),
     ran (.brgTrainingFail 0 0) (at_ trains 2000006) (fun t => t.getF F.BRG_STATUS_FAIL == 1), still (.brgTrainingFail 0 0) early,
     down.getF F.BRG_CTRL_RETRY_MAX != 0, ran .bridgeRetrainTimer (at_ down 1000000) (fun t => t.brg.training && t.brg.retrains == 1),
     still .bridgeRetrainTimer (at_ down 999999), (noisy.freeSpare .f2a).isSome, ran (.laneSwap .f2a 3) noisy (fun t =>
       (t.dir .f2a).swapLane == some 3 && (t.dir .a2f).swapOut == [(1, 3)] && (t.dir .f2a).lmap == (noisy.dir .f2a).lmap), still (.laneSwap .f2a 4) noisy,
     still (.laneFailNoSpare .f2a 4) noisy,
     none_.freeSpare .f2a == none, ran (.laneFailNoSpare .f2a 3) none_ (fun t => t.brg.training && !t.brgUp && (t.badLanes .f2a).testBit 3)].all id = true := by decide +kernel

theorem test_bridge_down :
    let s := { (inState devRun 1) with jobs := [job0] }
    let nak := s.setDir .a2f { s.dir .a2f with naks := 8 }
    let fell (t : State) : Bool := !t.brgUp && t.getF F.BRG_STATUS_DOWNS == 1 && t.jobs.all (fun j => j.state == .dead)
    [wfB nak, ran (.bridgeNakLimit .a2f) nak fell, still (.bridgeNakLimit .f2a) nak, ran (.bridgeLockLoss .f2a 7) s fell,
     still (.bridgeLockLoss .f2a 6) s].all id = true := by decide +kernel

theorem crc32_lt (l : List Bool) : crc32 l < 2 ^ 32 := by
  have h : ∀ (l : List Bool) (c : Nat), c < 2 ^ 32 → l.foldl (crcStep 32 0xEDB88320) c < 2 ^ 32 := by
    intro l
    induction l with
    | nil => intro c h; exact h
    | cons b l ih =>
      intro c h
      refine ih _ ?_
      have d : c / 2 < 2 ^ 32 := by omega
      have e : ∀ x : Bool, (if x then c / 2 ^^^ 0xEDB88320 % 2 ^ 32 else c / 2) < 2 ^ 32 := by
        intro x
        cases x
        · exact d
        · exact Nat.xor_lt_two_pow d (Nat.mod_lt _ (Nat.two_pow_pos 32))
      exact e _
  exact Nat.xor_lt_two_pow (h l _ (by decide)) (by decide)

/-- A group that carries its own CRC: what a sender makes is what a receiver finds good, with the fields below the CRC and the
swap fields above it at choice. -/
theorem test_sealed_group (fl : List (BitVec 256)) (n sw : Nat) (hn : n < 2 ^ 132) (hs : sw < 256) :
    let g : FlitGroup := ⟨fl, BitVec.ofNat 256 (n + groupCrc ⟨fl, BitVec.ofNat 256 n, 0⟩ * 2 ^ 132 + sw * 2 ^ 164), 0⟩
    groupCrc g = bitsOf g.link.toNat 132 32 ∧ g.link.toNat % 2 ^ 132 = n ∧ bitsOf g.link.toNat 164 8 = sw := by
  have hc : groupCrc ⟨fl, BitVec.ofNat 256 n, 0⟩ < 2 ^ 32 := crc32_lt _
  generalize hx : groupCrc ⟨fl, BitVec.ofNat 256 n, 0⟩ = x at hc ⊢
  have e : (BitVec.ofNat 256 (n + x * 2 ^ 132 + sw * 2 ^ 164)).toNat = n + x * 2 ^ 132 + sw * 2 ^ 164 := by
    rw [BitVec.toNat_ofNat]; exact Nat.mod_eq_of_lt (by omega)
  have f : (BitVec.ofNat 256 n).toNat = n := by rw [BitVec.toNat_ofNat]; exact Nat.mod_eq_of_lt (by omega)
  have m : (n + x * 2 ^ 132 + sw * 2 ^ 164) % 2 ^ 132 = n := by omega
  refine ⟨?_, ?_, ?_⟩
  · simp only [groupCrc, f, Nat.mod_eq_of_lt hn] at hx
    simp only [groupCrc, e, m, hx, bitsOf]
    omega
  · simp only [e, m]
  · simp only [e, bitsOf]
    omega

theorem test_sealed_link_group (fl : List (BitVec 256)) (n : Nat) (hn : n < 2 ^ 76) :
    let g : FlitGroup := ⟨fl, BitVec.ofNat 256 (n + lnkCrc ⟨fl, BitVec.ofNat 256 n, 0⟩ * 2 ^ 76), 0⟩
    lnkCrc g = bitsOf g.link.toNat 76 32 ∧ g.link.toNat % 2 ^ 76 = n := by
  have hc : lnkCrc ⟨fl, BitVec.ofNat 256 n, 0⟩ < 2 ^ 32 := crc32_lt _
  generalize hx : lnkCrc ⟨fl, BitVec.ofNat 256 n, 0⟩ = x at hc ⊢
  have e : (BitVec.ofNat 256 (n + x * 2 ^ 76)).toNat = n + x * 2 ^ 76 := by
    rw [BitVec.toNat_ofNat]; exact Nat.mod_eq_of_lt (by omega)
  have f : (BitVec.ofNat 256 n).toNat = n := by rw [BitVec.toNat_ofNat]; exact Nat.mod_eq_of_lt (by omega)
  have m : (n + x * 2 ^ 76) % 2 ^ 76 = n := by omega
  refine ⟨?_, ?_⟩
  · simp only [lnkCrc, f, Nat.mod_eq_of_lt hn] at hx
    simp only [lnkCrc, e, m, hx, bitsOf]
    omega
  · simp only [e, m]

theorem test_bridge_messages :
    let s := ready
    let again := s.setDir .f2a { s.dir .f2a with resend := [(9, ⟨[], 0, 0⟩)] }
    let header (n : Nat) := s.setDir .a2f { s.dir .a2f with rx := setNth (s.dir .a2f).rx (n % 8) [BitVec.ofNat 256 n, 0] }
    let at_ (n : Nat) : State := { s with time := { s.time with now := n } }
    let sent (n : Nat) (t : State) : Bool := t.wire.any (fun w => match w with
      | .group 0 q _ => q == n
      | _ => false)
    [wfB s, still (.bridgeMessageSend .f2a []) (s.setF F.BRG_STATUS_UP 0),
     ran (.bridgeMessageSend .f2a []) again (fun t => sent 9 t && (t.dir .f2a).resend == []),
     ran (.bridgeMessageSend .f2a []) s (fun t => sent 0 t && (t.dir .f2a).seq == 1),
     ran (.bridgeTimeMessage .f2a) (at_ 100) (fun t => t.time.aft == 100 && t.getF F.BRG_STATUS_TSYNC == 1),
     ran (.bridgeTimeMessage .f2a) (at_ 60) (fun t => t.time.aft == 0 && t.time.aftSlew == 60),
     ran (.bridgeMessageReceive ⟨.a2f, 7⟩) (header 7) (fun t => t.getF F.BRG_ERRCNT == 1 && t.flt.fore.any (fun q => q.cls == 0x33)),
     ran (.bridgeMessageReceive ⟨.a2f, 3⟩) (header 3) (fun t => (t.dir .a2f).delivered.length == 1 && t.getF F.BRG_ERRCNT == 0),
     still (.bridgeMessageReceive ⟨.a2f, 3⟩) s].all id = true := by decide +kernel

/-! ### What a core does by itself -/

theorem test_core_units :
    let s := ready
    let c := s.core 2
    let at_ (n : Nat) (c : Core) : State := { s with time := { s.time with now := n, aft := n } }.setCore 2 c
    let per := (at_ 1000000 c).setF (F.SP_SCRUB_PERIOD 2) 1
    let zeros : List (BitVec 64 × BitVec 8) := List.replicate 64 (0#64, 0#8)
    let busy := at_ 0 { c with scrubbing := true, scrubPos := 5, sp := [(320, ⟨1, 0⟩), (400, ⟨9, 9⟩)] }
    let init := at_ 0 { c with initing := true, sp := [(3, ⟨1, 1⟩)] }
    let acc : HeldAcc := { write := true, row := 0, ws := [], since := 0, who := 1, lo := 0, n := 4 }
    let job := { s with jobs := [job0] }
    [wfB per, wfB busy, ran (.scrubPassStart 2) per (fun t => (t.core 2).scrubbing && t.getF (F.SP_STATUS_SCRUB_BUSY 2) == 1),
     still (.scrubPassStart 2) s, ran (.scrubPassStart 2) (per.setCore 2 { c with scrubbing := true }) (fun t => (t.core 2).scrubDue
       && t.getF (F.SP_SCRUB_LATE 2) == 1), (readWord ⟨1, 0⟩).1 == .corrected, ran (.scrubRow 2 ⟨false, 0⟩) busy (fun t =>
       (t.core 2).scrubPos == 6 && mget zeroWord (t.core 2).sp 320 == ⟨0, 0⟩ && mget zeroWord (t.core 2).sp 400 == ⟨9, 9⟩),
     ran (.scrubRow 2 ⟨true, 0⟩) busy (fun t => mget zeroWord (t.core 2).sp 320 == ⟨1, 0⟩), still (.scrubRow 2 ⟨false, 0⟩) s,
     ran (.scratchpadInitDone 2 []) init (fun t => (t.core 2).sp == [] && t.getF (F.SP_STATUS_SPARE 2) == 32),
     ran (.scratchpadInitDone 2 [7]) init (fun t => (t.core 2).remapped == [7] && t.getF (F.SP_STATUS_SPARE 2) == 31),
     still (.scratchpadInitDone 2 []) s, ran (.heldAccessTimeout 2) (at_ 5000000 { c with held := [acc] }) (fun t => (t.core 2).held == []),
     still (.heldAccessTimeout 2) s, ran (.wakePassDone 2) (at_ 0 { c with waking := true }) (fun t => !(t.core 2).waking),
     still (.wakePassDone 2) s, ran (.weightWriteEnd 2) (at_ 0 { c with weightWrite := [(4, 9)] }) (fun t => (t.core 2).weightWrite.isEmpty),
     (at_ 0 c).weightsDone 2, ran (.inboundRowWrite 2 1 0 ⟨zeros, 0⟩) s (fun t => t.flt.aft.any (fun q => q.cls == 0x03)),
     ran (.inboundRowWrite 2 1 0 ⟨[], 0⟩) s (fun t => t.flt.aft.any (fun q => q.cls == 0x02)), job.rowAllowed 1 1 9 true,
     ran (.inboundRowWrite 1 1 9 ⟨(List.replicate 64 (3#64, checkByte 3)), 0⟩) job (fun t =>
       mget zeroWord (t.core 1).sp (9 * 64) == ⟨3, checkByte 3⟩ && mget zeroWord (t.core 1).sp (8 * 64) == ⟨0, 0⟩)].all id = true := by
  decide +kernel

theorem test_pairs :
    let s := ready
    let e (l : List (BitVec 64 × Bool)) : UEff := .result 0 0 0 true l
    let h (l : List (BitVec 64 × Bool)) : HeldRow :=
      { seq := 5, ctx := 0, job := 1, eff := e l, since := 0, tag := 0, frame := 0, stripe := 0 }
    let held (l : List (BitVec 64 × Bool)) (d : BitVec 64) :=
      (s.setCore 0 { s.core 0 with pairHeld := [h l] }).setCore 1 { s.core 1 with pairDig := [(5, d)] }
    let row := List.replicate 64 (3#64, false)
    let late := { held row 0 with time := { s.time with aft := 100000000 } }
    [crc64 [] == 0, still (.pairDigest 0) s, still (.pairTimeout 0) s, ran (.pairDigest 0) (held [] 0) (fun t =>
       (t.core 0).pairHeld.isEmpty && t.flt.aft.isEmpty), ran (.pairDigest 0) (held [] 1) (fun t => (t.core 0).pairHeld.isEmpty
       && t.flt.aft.any (fun q => q.cls == 0x25 && q.unit == 0x10)), ran (.pairTimeout 0) late (fun t => (t.core 0).pairHeld.isEmpty
       && t.flt.aft.any (fun q => q.cls == 0x26)), s.getF (F.CORE_PAIR_WINDOW 0) != 0, still (.pairTimeout 0) (held row 0)].all id
    = true := by decide +kernel

/-! ### Register writes that start something -/

theorem test_unit_registers :
    let s := ready
    let c := s.inCtx 2
    let full := s.setInCtx 2 { c with bufs := setNth c.bufs 1 { (c.bufs.getD 1 ⟨false, false, 0, 0, 0, 0, 0, 0, 0, 0, [], (0, 0)⟩) with full := true } }
    let tap := s.setInTap 1 { s.inTap 1 with full := [false, true, false, false] }
    let otap := s.setOutTap 1 { s.outTap 1 with full := [false, true, false, false] }
    let strm := s.setStream 3 { s.stream 3 with full := setNth (s.stream 3).full 1 true }
    let sub : CofSub := { bank := 0, tag := 0, irq := false, blkTag := 0, ksid := 0, batch := true, first := 0, count := 1, words := [] }
    let run : CofRun := { sub := sub, start := 0, idx := 0, batch := [], passing := true, second := false, muxHalf := [], npass := 0,
                          cycles := 0, firsts := [], keyFault := false, cancel := false }
    let coffer := { s with cof := { s.cof with run := some run } }
    let queued := { s with cof := { s.cof with queue := [] } }
    let step (n : Nat) := s.setF (F.FLT_CORE_STEP 1) n
    [wfB full, acts (.inCtxRelease 2 .host 1) full (fun t => t.inCtx 2 == c), acts (.defectSwap .host 1) s (fun t => t.intake.swap),
     acts (.tapRelease 1 .host 1) tap (fun t => (t.inTap 1).full == [false, false, false, false]),
     acts (.tapRelease 3 .host 1) otap (fun t => (t.outTap 1).full == [false, false, false, false]),
     acts (.cut 3 .host 1) s (fun t => t.out == s.out), acts (.streamRelease 3 .host 4) strm (fun t => t.stream 3 == s.stream 3),
     acts (.loadSenseGo .host 1) s (fun t => t.out.sense == some 0), acts (.loadSenseGo .host 1) (s.setF F.OF_TX_CFG_ENABLE 1) (fun t =>
       t.out.sense == none && t.getF F.OF_TX_STAT_SENSE_BUSY == 1), acts (.cofCancel .host 1) coffer (fun t =>
       t.cof.run.any (·.cancel)), acts (.cofCancel .host 1) s (fun t => t.cof == s.cof), acts (.cofFlush .host 2) queued (fun t =>
       t.cof.queue == []), acts (.cofClr .host 4) (s.setF F.COF_PASSES 9) (fun t => t.getF F.COF_PASSES == 0),
     acts (.relax 1 .host 256) (step 2) (fun t => t.getF (F.FLT_CORE_STEP 1) == 1 && t.flt.fore.any (fun q => q.cls == 0x53)),
     acts (.relax 1 .host 256) (step 0) (fun t => t.flt == s.flt), acts (.relax 1 .host 256) ((step 4).setF (F.CORE_STATUS_QUAR 1) 1)
       (fun t => t.getF (F.CORE_STATUS_QUAR 1) == 0), acts (.forceQ 1 .host 512) s (fun t => t.getF (F.FLT_CORE_STEP 1) == 4),
     acts (.lnkTrain 1 .host 1) (s.setF (F.LNK_STAT_UP 1) 1) (fun t => t.getF (F.LNK_STAT_UP 1) == 0 && (t.port 1).training)].all id
    = true := by decide +kernel

theorem test_host_registers :
    let s := (ready.setF (F.RING_CFG_SQ_SIZE 0) 4).setF (F.RING_CFG_CQ_SIZE 0) 4
    let busy := s.setBulk 0 { s.bulk 0 with buf := [(0, [1])] }
    let held := s.setRing 0 { s.ring 0 with held := [{ tag := 3, opc := 0, result := 0, replayed := false, irq := false, vals := [] }] }
    let irq := (s.setF F.HOST_STATUS_LINK_UP 1).setReg F.HOST_ICAUSE.off 4
    let masked := irq.setReg F.HOST_IMASK.off 0xFFFFFFFF
    let lost := { (s.setF F.HOST_STATUS_LINK_UP 1).setF (F.SQ_TAIL 0) 9 with host := { s.host with lost := true } }
    [wfB s, acts (.sqDoorbell 0 .host 5) busy (fun t => (t.ring 0).bell == some 5 && t.getF (F.SQ_TAIL 0) == 0),
     acts (.sqDoorbell 0 .host 5) s (fun t => t.getF (F.SQ_TAIL 0) == 5 && (t.ring 0).bell == none),
     acts (.sqDoorbell 0 .host 16) s (fun t => t.getF (F.SQ_TAIL 0) == 0 && t.getF (F.RING_CTRL_RING_ERR 0) == 0),
     acts (.sqDoorbell 0 .host 17) s (fun t => t.getF (F.SQ_TAIL 0) == 0 && t.getF (F.RING_CTRL_RING_ERR 0) == 1),
     acts (.cqHeadWrite 0 .host 7) s (fun t => t.getF (F.CQ_HEAD 0) == 7), acts (.cqHeadWrite 0 .host 7) held (fun t =>
       (t.ring 0).held == [] && t.getF (F.CQ_TAIL_TAIL 0) == 1), acts (.hostImaskWrite .host 0) masked (fun t => t.wire == [.msix 2]),
     acts (.hostImaskWrite .host 4) masked (fun t => t.wire == []), acts (.ringEnable 0 .host 1) lost (fun t => !t.host.lost
       && t.getF (F.SQ_TAIL 0) == 0 && t.getF (F.RING_CTRL_ENABLE 0) == 1), acts (.ringEnable 1 .hsp 1) s (fun t => t.host == s.host),
     acts (.bulkPointerWrite 0 0 .host 64) s (fun t => t.bulkPtr 0 == 64), acts (.bulkPointerWrite 0 0 .host 64) busy (fun t =>
       t.bulkPtr 0 == 0 && (t.bulk 0).wait.length == 1), acts (.bulkFlush 0 .host 0) s (fun t => t.host.rows == [])].all id = true := by
  decide +kernel


/-! ### Intake -/

/-- An open memory-path frame of 4 × 2 RAW8 pixels. -/
def inFrame0 : InFrame :=
  { fs := 1, src := 0, w := 4, h := 2, dt := 0x2A, inline := false, badline := 0, timeout := 5, numbered := false, base := 4096, pitch := 256,
    flags := 0, next := 0, lnum := none, last := 0, buf := some 0, hist := [], made := [], stat := (0, 0) }

/-- Port A on, context 2 of virtual channel 1 and RAW8 enabled, 4 × 2. -/
def intake0 : State :=
  let s := both (both (both (ready.setF (F.IN_PORT_CFG_ENABLE 0) 1) (F.IN_CTX_ENABLE 2) 1) (F.IN_CTX_VC 2) 1) (F.IN_CTX_DT 2) 0x2A
  both (both s (F.IN_CTX_SIZE_WIDTH 2) 4) (F.IN_CTX_SIZE_HEIGHT 2) 2

theorem test_packets :
    let s := intake0
    let open_ := s.setInCtx 2 { s.inCtx 2 with cur := some inFrame0 }
    let full := s.setInCtx 2 { s.inCtx 2 with cur := some { inFrame0 with next := 2 } }
    let a := inFrame0.addr 0 0
    let data : List Byte := [9, 8, 7, 6]
    let go (ok : Bool) (dt ecc : Nat) (l : List Byte) := Instr.longPacket 0 1 dt ecc ok l
    let one (i : Instr) (f : Fld) := ran i s (fun t => t.getF f == 1 && t.intake == s.intake)
    [wfB open_, still (go true 0x2A 0 data) ready, one (.genericShortPacket 0) (F.IN_PORT_STAT_IGNORED 0), one (go true 0x2A 2 data)
       (F.IN_PORT_ERR_ECC2 0), one (.lineStartPacket 0 1 2 1) (F.IN_PORT_ERR_ECC2 0), one (go true 0x10 0 data) (F.IN_PORT_STAT_IGNORED 0),
     one (go true 0x2B 0 data) (F.IN_PORT_STAT_UNMATCHED 0), (open_.dramDenied a 8).isNone, decide (a + 8 ≤ s.ddrSize),
     ran (go true 0x2A 0 data) open_ (fun t => (t.inCtx 2).cur.any (fun f => f.next == 1) && mget (dflt 0) t.dram a == 9
       && mget (dflt 0) t.dram (a + 1) == 0 && mget (dflt 0) t.dram (a + 6) == 6 && mget (dflt 0) t.dram (a + 8) == 0),
     ran (go true 0x2A 0 data) full (fun t => (t.inCtx 2).cur.any (fun f => f.next == 2 && f.flags == 2)),
     ran (go false 0x2A 0 data) open_ (fun t => t.getF (F.IN_CTX_CNT_CRC 2) == 1 && (t.inCtx 2).cur.any (fun f => f.flags.testBit 2)),
     still (.lineStartPacket 0 1 0 0) open_, ran (.lineStartPacket 0 1 0 9) open_ (fun t => (t.inCtx 2).cur.any (fun f => f.lnum == some 8)),
     ran (.deskewBurst 0 4000 [25, -33]) s (fun t => t.getF (F.IN_PORTA_SKEW_STEPS 0) == 25 && t.getF (F.IN_PORTA_SKEW_STEPS 1) == 223
       && t.getF (F.IN_PORT_STAT_SKEW_WARN 0) == 1 && t.getF (F.IN_PORT_STAT_SKEW_RANGE 0) == 1),
     ran (.deskewBurst 0 4000 [24]) s (fun t => t.getF (F.IN_PORT_STAT_SKEW_WARN 0) == 0),
     ran (.ulps 0 true) s (fun t => t.getF (F.IN_PORT_STAT_ULPS 0) == 1)].all id = true := by decide +kernel

theorem test_frames :
    let s := { intake0 with time := { intake0.time with now := 77 } }
    let at_ (f : InFrame) (n : Nat) : State := { s with time := { s.time with now := n } }.setInCtx 2 { s.inCtx 2 with cur := some f }
    let odd := both s (F.IN_CTX_SIZE_WIDTH 2) 5
    let ended (extra : Nat) (t : State) : Bool := (t.inCtx 2).cur.isNone && t.getF (F.IN_CTX_STAT_FRAMES 2) == 1
      && t.getF (F.IN_CTX_STAT_FLAGS 2) == extra && ((t.inCtx 2).bufs[0]?).any (fun b => b.full && b.fs == 1 && b.w == 4)
    [ran (.frameStartPacket 0 1 0) s (fun t => (t.inCtx 2).cur.any (fun f => f.fs == 77 && f.w == 4 && f.h == 2 && f.next == 0)
       && (t.inCtx 2).count == 1), ran (.frameStartPacket 0 1 0) odd (fun t => (t.inCtx 2).cur.isNone && t.getF (F.IN_CTX_ENABLE 2) == 0
       && t.getF F.GLB_STATUS_BAD_ENCODING == 1), ran (.frameStartPacket 0 1 0) (both s (F.IN_CTX_ENABLE 2) 0) (fun t => (t.inCtx 2).cur.isNone),
     ran (.frameEndPacket 0 1 0) (at_ { inFrame0 with next := 2 } 9) (ended 0), ran (.frameEndPacket 0 1 0) (at_ inFrame0 9) (ended 1),
     still (.frameEndPacket 0 1 0) s, still (.frameTimeout 2) s, ran (.frameTimeout 2) (at_ inFrame0 5000) (ended 17),
     still (.frameTimeout 2) (at_ inFrame0 4999), still (.frameTimeout 2) (at_ { inFrame0 with timeout := 0 } 9000)].all id = true := by
  decide +kernel

/-! ### Outfeed -/

/-- A stream's frame of 4 × 3 from job 1's frame 3. -/
def outFrame0 : OutFrame :=
  { cfg := { geo := { cx := 0, cy := 0, cw := 4, ch := 3, ow := 4, oh := 3, fmt := 0 }, src := 0, mem := false, csc := 0, sinkMem := true,
             vc := 0, timeref := 0, base := 4, pitch := 256, fillY := 0, fillU := 0, fillV := 0, offset := 100, line := 10, memsrc := 0,
             mempitch := 0, coef := [] },
    job := 1, frame := none, sw := 4, sh := 3, fh := 16, fs := 0, src := 0, flags := 0, ref := 1000, line := 0, checked := 0, missing := [], filled := 0,
    firstFilled := 0xFFFF, buf := some 1, txNo := 0, cut := false, killed := false, miss := false, lastAt := 0 }

theorem test_streams :
    let st := { ready.stream 2 with cur := some outFrame0 }
    let at_ (n : Nat) (x : OutFrame) : State := { ready with time := { ready.time with now := n } }.setStream 2 { st with cur := some x }
    let cur (t : State) (p : OutFrame → Bool) : Bool := (t.stream 2).cur.any p
    let last := { outFrame0 with line := 3, checked := 3 }
    let ended (t : State) : Bool := (t.stream 2).cur.isNone && (t.stream 2).seq == 1 && nth false (t.stream 2).full 1
      && t.getF (F.OF_STAT_FRAMES 2) == 1 && t.getF ⟨F.HOST_ICAUSE.off, 7, 1⟩ == 1
    [wfB (at_ 0 outFrame0), still (.streamFrameStart 2) ready, still (.lineReadyCheck 2) ready, still (.lineReadyCheck 2) (at_ 99 outFrame0),
     ran (.lineReadyCheck 2) (at_ 100 outFrame0) (fun t => cur t (fun x => x.checked == 1 && x.missing == [0])),
     still (.outfeedLineTime 2) (at_ 1099 outFrame0), ran (.outfeedLineTime 2) (at_ 1130 last) ended,
     ran (.outfeedLineTime 2) (at_ 1100 { outFrame0 with checked := 1, missing := [0] }) (fun t => cur t (fun x => x.line == 1
       && x.filled == 1 && x.firstFilled == 0) && t.getF (F.OF_CNT_FILLED 2) == 1), still (.cutClose 2) (at_ 0 outFrame0),
     ran (.cutClose 2) (at_ 0 { outFrame0 with cut := true }) (fun t => ended t && (t.getF (F.OF_STAT_FLAGS 2)).testBit 2)].all id = true := by
  decide +kernel

theorem test_stream_starts :
    let f (s : State) (l : List (Fld × Nat)) : State := l.foldl (fun s e => s.setF e.1 e.2) s
    let s := f (ready.setGen 0 { ready.gen 0 with lastEdge := 500 }) [(F.OF_CFG_ENABLE 2, 1), (F.OF_CFG_SRC_KIND 2, 1), (F.OF_CFG_TIMEREF 2, 1),
      (F.OF_CFG_SINK 2, 1), (F.OF_CROP_WH_W 2, 16), (F.OF_CROP_WH_H 2, 8), (F.OF_OUT_WH_W 2, 16), (F.OF_OUT_WH_H 2, 8), (F.OF_PITCH 2, 256)]
    let x := s.stream 2
    let busy := (both (both s (F.OF_CFG_ENABLE 2) 1) (F.OF_CFG_TIMEREF 2) 1).setStream 2 { x with cur := some outFrame0 }
    let full := s.setStream 2 { x with full := List.replicate 8 true }
    let u := s.loadStream 2
    [s.refOf 2 1 == some 500, u.streamOn 2, u.forceF (F.OF_CFG_TIMEREF 2) == 1, still (.streamFrameStart 2) (s.setStream 2 { x with lastRef := some 500 }),
     ran (.streamFrameStart 2) s (fun t => (t.stream 2).lastRef == some 500 && (t.stream 2).nextBuf == 1 % (u.forceF (F.OF_CFG_NBUF 2) + 1)
       && (t.stream 2).cur.any (fun x => x.buf == some 0 && x.ref == 500 && x.line == 0)),
     ran (.streamFrameStart 2) full (fun t => (t.stream 2).cur.isNone && t.getF (F.OF_CNT_DROP 2) == 1),
     ran (.streamFrameStart 2) busy (fun t => (t.stream 2).overrun && t.getF (F.OF_CNT_OVERRUN 2) == 1)].all id = true := by
  decide +kernel

theorem test_load_sense :
    let s := { ready with out := { ready.out with sense := some 5 } }
    let f (i : Nat) : Fld := ⟨F.OF_TX_SENSE_CODES.off, F.OF_TX_SENSE_CODES.lo + 2 * i, 2⟩
    [still (.loadSenseDone []) ready, ran (.loadSenseDone [(19, false), (20, false), (201, false), (80, false), (125, true)]) s (fun t =>
       t.getF F.OF_TX_SENSE_DONE == 1 && t.getF (f 0) == 2 && t.getF (f 1) == 3 && t.getF (f 2) == 0 && t.getF (f 3) == 1 && t.getF (f 4) == 2),
     ran .sourceStoreSpace s (fun t => t.edge == s.edge)].all id = true := by decide +kernel


/-! ### The Edge engine -/

/-- An Edge record from its first bytes. -/
def eRec (l : List Nat) : EdgeRec := (l.map (BitVec.ofNat 8)) ++ List.replicate (32 - l.length) 0

/-- A part whose Edge engine stands at a record: the frame and the run can be varied. -/
def edgeAt (r : EdgeRec) (x : JFrame) (f : EdgeRun → EdgeRun) : State :=
  let j := { job0 with width := 4, edge := ⟨[r], [], 1⟩, frames := [x] }
  let run : EdgeRun := { job := 1, frame := 3, post := false, band := 0, row := ⟨0, [], []⟩, t := 0, ptr := 0, fresh := [], held := false, start := 7 }
  { inState devRun 1 with jobs := [j], edge := ⟨some (f run), [], []⟩, time := { State.reset.time with now := 9 } }

/-- The row of a buffer of frame 3 of job 1. -/
def eRow (t : State) (b : Nat) (q : Int) : Option (List (List Nat)) :=
  ((t.job 1).bind (fun j => (j.frameNo 3).bind (fun x => x.rowOf b q))).map (·.vals)

/-- The run went to its next record. -/
def eWent (t : State) : Bool := t.edge.run.any (fun r => r.ptr == 1)

theorem test_edge_records :
    let put (v : List (List Nat)) : JFrame := { frame0 with bufs := [(1, ⟨0, v, v.map (fun _ => false)⟩)] }
    let sole (r : EdgeRun) : EdgeRun := { r with fresh := [(1, 0)] }
    let post (r : EdgeRun) : EdgeRun := { r with post := true, band := 2 }
    let px := [512, 0, 0, 0, 0, 0, 0, 0]
    let packed := edgeAt (eRec [1, 0, 2]) frame0 (fun r => { r with row := ⟨0, [px, px], []⟩ })
    let s := edgeAt (eRec [3]) { frame0 with bands := [{ band0 0 with ready := none }] } (fun r => { r with row := ⟨3, [], []⟩ })
    let out := (edgeAt (eRec [9, 1, 0, 0, 0]) (put [[5], [6], [7], [8]]) sole).setStream 2 { ready.stream 2 with cur := some { outFrame0 with frame := some 3 } }
    [wfB packed, still .pack s, still .emit packed, still .nms ready, still .edgeEnd ready, still .sourceStoreSpace ready,
     ran .pack packed (fun t => eWent t && eRow t 2 0 == some [[0x3800, 0, 0x3800, 0], [0, 0, 0, 0], [0, 0, 0, 0], [0, 0, 0, 0]]),
     ran .emit s (fun t => eWent t && t.jobs.all (fun j => j.frames.all (fun x => x.bands.all (fun b => b.ready == some 9)))),
     ran .take (edgeAt (eRec [4, 0, 1, 0, 6]) frame0 id) (fun t => eWent t && t.jobs.length == 1),
     ran .take (edgeAt (eRec [4, 0, 1, 0, 0]) frame0 post) eWent,
     ran .shuffle (edgeAt (eRec [5, 1, 2, 0, 1]) (put [[1, 2, 3, 4]]) sole) (fun t => eRow t 2 0 == some [[1], [2]] && eRow t 2 1 == some [[3], [4]]),
     ran .edgeArgmax (edgeAt (eRec [6, 1, 2]) (put [[0x3C00, 0x4000, 0x4000]]) sole) (fun t => eRow t 2 0 == some [[1]]),
     ran .outRec out (fun t => t.out.store.any (fun g => g.vals == [[5], [6], [7], [8]] && g.row == 0)),
     ran .nms (edgeAt (eRec [8, 0, 0]) { frame0 with bands := [band0 0, band0 1, { band0 2 with done := some 8 }] } post) (fun t => eWent t && t.out.dets.any (fun d => d.job == 1 && d.frame == 3)
       && t.getF F.EDGE_STATUS_NMS_BUSY == 0), ran .edgeEnd (edgeAt (eRec [10]) frame0 id) (fun t => t.edge.run.isNone
       && t.edge.busy == [(7, 9)])].all id = true := by decide +kernel

theorem test_edge_rows :
    let line := List.replicate 8 3
    let j := { job0 with width := 4, edge := ⟨[eRec [10]], [], 1⟩, frames := [{ frame0 with lines := [(line, false), (line, false)] }] }
    let s := { inState devRun 1 with jobs := [j], time := { State.reset.time with now := 9 } }
    [j.preWork.isSome, j.postWork.isNone, ran (.edgePlaneRowStart 1 { post := false }) s (fun t => t.edge.run.any (fun r => r.job == 1 && r.frame == 3
       && r.band == 0 && r.ptr == 0 && r.start == 9) && t.getF F.EDGE_STATUS_BUSY == 1), still (.edgePlaneRowStart 1 { post := true }) s,
     still (.edgePlaneRowStart 2 { post := false }) s].all id = true := by decide +kernel

/-! ### The Coffer -/

/-- A gate word (Table CF-6) and a run that stands at it. -/
def gWord (o d a b c x : Nat) : BitVec 64 := BitVec.ofNat 64 (o * 2 ^ 58 + d * 2 ^ 46 + a * 2 ^ 34 + b * 2 ^ 22 + c * 2 ^ 10 + x)

/-- The Coffer in front of a word, key set 2, with slot 1 a trivial true at level 3. -/
def cofAt (w : BitVec 64) (f : CofRun → CofRun) : State :=
  let sub : CofSub := { bank := 0, tag := 5, irq := false, blkTag := 6, ksid := 2, batch := true, first := 0, count := 16, words := [cleanWord w] }
  let run : CofRun := { sub := sub, start := 0, idx := 0, batch := [], passing := false, second := false, muxHalf := [], npass := 0,
                        cycles := 0, firsts := [none, none, none, none], keyFault := false, cancel := false }
  let word (v : Nat) : SpWord := ⟨BitVec.ofNat 64 v, checkByte (BitVec.ofNat 64 v)⟩
  { ready with cof := { ready.cof with run := some (f run), sram := [(408, word (3 + 2 * 16 + 256)), (809, word (2 ^ 28))] } }

theorem test_gates :
    let s := cofAt (gWord 2 4 1 0 0 0) id
    let g (w : BitVec 64) : CofGate := ⟨w, 0⟩
    let gate := gWord 0x10 4 1 1 0 0
    let went (t : State) (cyc : Nat) : Bool := t.cof.run.any (fun r => r.idx == 1 && r.cycles == cyc)
    let again := cofAt (gWord 2 4 1 0 0 0) (fun r => { r with batch := [g (gWord 0x10 1 2 3 0 0)] })
    let ended := cofAt 0 id
    let waiting := { ready with cof := { ready.cof with queue := (cofAt 0 id).cof.run.toList.map (·.sub) } }
    [wfB s, !(s.cofSlot 1).1.poison, (s.nextGate 2).isSome, ran .notGate again (fun t =>
       t.cof.run.any (fun r => r.passing && r.idx == 0)), ran .constGate (cofAt (gWord 4 7 0 0 0 9) id) (fun t => went t 16
       && (mget zeroWord t.cof.sram (408 * 7)).data == 0x100000320 && (mget zeroWord t.cof.sram (408 * 7 + 401)).data == 9 * 2 ^ 28), ((cofAt (gWord 1 7 1 1 1 0x3B) id).nextGate 1).isSome,
     still .notGate ready, still .constGate s,
     ran .gateAnd (cofAt gate id) (fun t => t.cof.run.any (fun r => r.batch.length == 1 && r.idx == 1 && !r.passing)),
     ran .gateAnd (cofAt gate (fun r => { r with sub := { r.sub with batch := false } })) (fun t =>
       t.cof.run.any (fun r => r.batch.length == 1 && r.passing)), ran .muxGate (cofAt (gWord 0x16 4 1 1 1 0) (fun r =>
       { r with batch := (upFrom 0 63).map (fun _ => g (gWord 0x10 9 1 1 0 0)) })) (fun t => t.cof.run.any (fun r => r.passing && r.batch.length == 63)),
     ran .endGate ended (fun t => t.cof.run.isNone && t.getF F.COF_STATUS_BUSY == 0), ran .endGate (cofAt 0 (fun r => { r with batch := [g gate] }))
       (fun t => t.cof.run.any (·.passing)), ran .engineStart waiting (fun t => t.cof.run.any (fun r => r.idx == 0) && t.cof.queue == []
       && t.getF F.COF_STATUS_BUSY == 1), still .engineStart ready, still .refreshPass s, still (.keyStreamData { n := 5 }) s,
     ran (.keyStreamData { n := 5 }) (cofAt gate (fun r => { r with passing := true })) (fun t => t.getF F.COF_STALL == 5)].all id = true := by
  decide +kernel


/-! ### Commands of the rings -/

/-- Parameter bytes from byte 8 of an entry, each value with its width. -/
def pars (l : List (Nat × Nat)) : List Byte := ((l.flatMap (fun (e : Nat × Nat) => leBytes e.1 e.2)) ++ List.replicate 56 0).take 56

/-- A state with one command in flight on the HOST ring; its completion ring has no space, so a completion stays held and shows. -/
def withCmd (s : State) (opc : Nat) (l : List (Nat × Nat)) : State :=
  (s.setF (F.RING_CFG_CQ_SIZE 0) 0).setRing 0 { inflight := [{ tag := 7, opc := opc, irq := false, pars := pars l, begun := false }], held := [], bell := none }

/-- The codes of the completions held, with their values. -/
def codes (t : State) : List (Nat × List Nat) := (t.ring 0).held.map (fun e => (e.result, (e.vals.take 12).map (·.toNat)))

/-- The command ends with a code and its values. -/
def ends (i : Instr) (s : State) (c : Nat) (l : List Nat) : Bool := ran i s (fun t => codes t == [(c, l)] && (t.ring 0).inflight == [])

/-- Bytes in DRAM. -/
def inDram (s : State) (a : Nat) (l : List Byte) : State := s.dramPut a l

theorem test_coffer_commands :
    let s := ready
    let ks (n : Nat) (l : Bool) (s : State) : State := { s with cof := { s.cof with keys := vset s.cof.keys (Fin.ofNat 4 n) ⟨l, 9, 0, 0⟩ } }
    let load (slot len : Nat) := withCmd s 9 [(1, slot), (7, 0), (8, 4096), (8, len)]
    let blk (a n : Nat) := leBytes 8 a ++ leBytes 4 n ++ [2, 1, 0, 0] ++ leBytes 2 16 ++ leBytes 2 4 ++ leBytes 4 6 ++ List.replicate 40 0
    let img := [0x4E, 0x38, 0x47, 0x50, 1, 0, 0, 0] ++ leBytes 8 9 ++ leBytes 4 1 ++ List.replicate 108 0 ++ List.replicate 8 0
    let sub (key : Bool) (b : List Byte) := ks 2 key (withCmd (inDram (inDram s 4096 b) 8192 img) 11 [(8, 4096)])
    let reck := ks 2 true { s with cof := { s.cof with recheck := [2] } }
    let bad := { reck with dramPoison := [((s.keyBase 2 + 4096) / 8, true)] }
    [wfB (load 0 0), still (.ksload 0) s, still (.ksunload 0) s, still (.cofsub 0) s, ends (.ksload 0) (withCmd s 9 [(1, 0), (1, 1)]) 0x71 [],
     ends (.ksload 0) (load 4 200000000) 0x71 [], ends (.ksload 0) (ks 3 true (load 3 200000000)) 0x33 [], ends (.ksload 0) (load 3 190713855) 0x31 [],
     ends (.ksunload 0) (withCmd (ks 2 true s) 10 [(1, 3)]) 0x3A [], !(ks 2 true (withCmd s 10 [(1, 2)])).keyInUse 2, (sub true (blk 8192 136)).nextCmd 0 11 != none, ends (.cofsub 0) (sub true (blk 8193 136)) 0x35 [6, 0, 0, 0, 0, 0, 0, 0, 255, 255, 255, 255],
     ends (.cofsub 0) (sub false (blk 8192 136)) 0x3A [6, 0, 0, 0, 0, 0, 0, 0, 255, 255, 255, 255], ran (.cofsub 0) (sub true (blk 8192 136)) (fun t => t.cof.queue.length == 1
       && codes t == [] && t.cof.queue.all (fun q => q.tag == 7 && q.ksid == 2 && q.first == 16 && q.count == 4 && q.batch)),
     still .keyDigestRecheck s, ran .keyDigestRecheck bad (fun t => t.cof.recheck == [] && bitsOf (t.getF F.COF_KS_SUSPECT) 2 1 == 1)].all id
    = true := by decide +kernel

theorem test_slot_header :
    let s := ready
    let busy := cofAt 0 id
    [ran (.slotHeaderWrite 3 0x105) s (fun t => mget zeroWord t.cof.sram (408 * 3) == ⟨0x100000505#64, checkByte 0x100000505#64⟩),
     ran (.slotHeaderWrite 3 0x105) busy (fun t => t.getF F.COF_STICKY_SLOT_LOCKED == 1 && t.getF F.COF_LOCKED == 1)].all id = true := by
  decide +kernel

/-! ### Faults and field tests -/

theorem test_fault_records :
    let s := { inState devRun 1 with jobs := [job0] }
    let r : FRec := { mkRec 77 0x27 0x10 with job := 1, kill := true, opc := 5, addr := 6 }
    let fore := { s with flt := { s.flt with fore := [r] } }
    let full := (fore.setF F.FLT_RING_CFG_ENABLE 1).setF F.FLT_RING_CFG_SIZE 0
    let lost := { s with flt := { s.flt with aftLost := 3 } }
    let note := { s with flt := { s.flt with notices := [(1, 4)] } }
    [wfB fore, still (.faultRecord true) s, still (.faultRecord false) s, still (.faultRecord true) ({ s with flt := { s.flt with aft := [r] } }.setF F.BRG_STATUS_UP 0),
     ran (.faultRecord true) lost (fun t => t.flt.fore.any (fun q => q.cls == 0x55 && q.opc == 3) && t.flt.aftLost == 0),
     full.ringFull, ran (.faultRecord false) fore (fun t => t.flt.fore == [] && t.flt.seq == 1),
     ran (.killNotice 4) note (fun t => t.flt.notices == [] && t.jobs.all (fun j => j.points == [(4, 0)])), still (.killNotice 3) note].all id
    = true := by decide +kernel

/-- A stored Field Pattern Pack of one pattern for core 1, at word 3, with a bound of 100 cycles. -/
def pack0 : StoObj :=
  { target := 2, id := 0, version := 1, bytes := List.replicate 6 0 ++ [1, 0] ++ List.replicate 120 0 ++ [2, 0, 0, 0, 3, 0] ++ List.replicate 18 0
      ++ leBytes 4 100 ++ List.replicate 36 0, ext := [] }

theorem test_field_tests :
    let s := { ready with sto := { ready.sto with objs := [pack0] } }.setF F.FLT_TCFG_PERIOD 1
    let at_ (n : Nat) (s : State) : State := { s with time := { s.time with now := n } }
    let req (u : Bool) : TestReq := { todo := [(1, 0, 0)], urgent := u, at_ := 0, deferred := false }
    let asked (u : Bool) := { s with flt := { s.flt with tests := [req u] } }
    let cmd (l : List (Nat × Nat)) := withCmd s 12 l
    let slot : TestSlot := { core := 1, pack := 0, pat := 0, entry := pack0.pattern 0, start := 5, savedImem := [(3, 9)], savedSmem := [(4, 8)], savedRows := [] }
    let open_ (x : Ctx) := { s.setCtx 1 2 x with flt := { s.flt with slots := [slot] } }
    let going := open_ { Ctx.reset with running := true, halted := false }
    let per := s.getF F.FLT_TCFG_PERIOD * 1000000000
    let due := s.getF F.FLT_TCFG2_URGENT_MS * 1000000
    [s.packs.length == 1, pack0.npat == 1, s.testWork 0xFF none none == [(1, 0, 0)], still (.testreq 0) s, ends (.testreq 0) (cmd [(1, 2), (1, 1)]) 0x71 [],
     ran (.testreq 0) (cmd [(1, 2), (1, 0), (1, 0xFF), (1, 1)]) (fun t => t.flt.tests.all (fun r => r.urgent && r.todo == [(1, 0, 0)])
       && t.flt.tests.length == 1), per != 0, ran .testPeriod (at_ per s) (fun t => t.flt.tests.length == 1 && t.flt.lastPeriodic == per),
     still .testPeriod (at_ (per - 1) s), still (.testSlotOpen 1) s, ran (.testSlotOpen 1) (asked false) (fun t => t.getF F.FLT_TSTAT_BUSY == 1
       && (t.ctx 1 2).pc == 3 && (t.ctx 1 2).running && !(t.ctx 1 2).halted && t.flt.rotor == 2 && t.flt.tests == []),
     ran (.testSlotOpen 1) ((asked false).setF (F.CORE_STATUS_PSTATE 1) 2) (fun t => (t.isl 1).wakeWhy == some 4), still (.testSlotDone 1 5) s,
     still (.testSlotTimeout 1) s, still (.testSlotDone 1 5) going, ran (.testSlotDone 1 101) (open_ { Ctx.reset with ended := true }) (fun t =>
       (t.slotOn 1).isNone && t.ctx 1 2 == Ctx.reset && mget (dflt 0) (t.core 1).imem 3 == 9 && mget (dflt 0) (t.core 1).smem 4 == 8
       && t.flt.results == [(0, 0, 0, 2)] && t.getF ⟨F.HOST_ICAUSE.off, 27, 1⟩ == 1), still (.testSlotTimeout 1) (at_ 300004 going),
     ran (.testSlotTimeout 1) (at_ 300005 going) (fun t => (t.slotOn 1).isNone && t.flt.aft.any (fun q => q.cls == 0x59)),
     still .urgentBorrow (asked false), ran .urgentBorrow (at_ due (asked true)) (fun t => t.getF F.FLT_TSTAT_URG_DEFER == 1
       && t.flt.tests.all (·.deferred))].all id = true := by decide +kernel


/-! ### Shaelo link -/

theorem test_ports :
    let s := ready
    let x := s.port 0
    let at_ (n : Nat) (s : State) : State := { s with time := { s.time with now := n } }
    let trains := at_ 1669205 (s.setPort 0 { x with training := true, trainAt := 5 })
    let up := s.setF (F.LNK_STAT_UP 0) 1
    let caps : BitVec 32 := 0x10000880
    let failed := (s.setF (F.LNK_STAT_FAIL 0) 1).setF (F.LNK_CTRL_RETRY_MAX 0) 1
    let down := (s.setPort 0 { x with isDown := true, downAt := 0 }).setF (F.LNK_CTRL_HOLD 0) 2
    let bound := { (down.setReg F.LNK_ROUTE_ROUTE.off 0x10) with jobs := [job0] }
    let bound := { bound with lnk := { bound.lnk with ob := vset bound.lnk.ob 3 ⟨true, 2, 9, 0, 1⟩, iw := vset bound.lnk.iw 4 { InWin.reset with st := .open_, srcMask := 4 } } }
    let fell (t : State) : Bool := !t.portUp 0 && (t.port 0).training && (t.port 0).isDown && t.getF (F.LNK_STAT_DOWNS 0) == 1
    [wfB trains, ran (.linkNakLimit 0) (up.setPort 0 { x with naks := 8 }) fell, still (.linkNakLimit 0) up,
     ran (.linkFlitTimeout 0) (at_ 10000 up) fell, still (.linkFlitTimeout 0) (at_ 9999 up), ran (.linkLockLoss 0) up fell,
     still (.linkLockLoss 0) s, still (.lnkTrainingDone 0 15 false 1 2 3) s, still (.lnkTrainingDone 0 1 false 1 2 3) trains,
     ran (.lnkTrainingDone 0 3 true 1 caps 5) trains (fun t => t.portUp 0 && t.getF (F.LNK_STAT_WIDTH 0) == 1 && t.getF (F.LNK_STAT_PEER 0) == 5
       && t.getF (F.LNK_STAT_REVERSED 0) == 1 && !(t.port 0).training), ran (.lnkTrainingDone 0 15 false 1 2 3) trains (fun t =>
       !t.portUp 0 && t.getF (F.LNK_STAT_FAIL 0) == 1 && (t.port 0).failAt == 1669205), ran (.lnkTrainingFail 0 ⟨1, 0⟩) trains (fun t =>
       t.getF (F.LNK_STAT_FAIL 0) == 1), ran (.lnkTrainingFail 0 ⟨15, 0⟩) (at_ 5000006 trains) (fun t => t.getF (F.LNK_STAT_FAIL 0) == 1),
     still (.lnkTrainingFail 0 ⟨15, 0⟩) (at_ 5000005 trains), ran (.linkRetrainTimer 0) (at_ 1000000 failed) (fun t => (t.port 0).training
       && (t.port 0).retrains == 1), still (.linkRetrainTimer 0) (at_ 999999 failed), still (.partnerLost 0) (at_ 1999999 down),
     ran (.partnerLost 0) (at_ 2000000 bound) (fun t => t.getF (F.LNK_STAT_LOST 0) == 1 && !(vget t.lnk.ob 3).open_
       && (vget t.lnk.iw 4).st == .closed && t.jobs.all (fun j => j.state == .dead) && t.getF ⟨F.HOST_ICAUSE.off, 22, 1⟩ == 1)].all id
    = true := by decide +kernel

theorem test_port_traffic :
    let s := ready.setF (F.LNK_STAT_UP 0) 1
    let again := s.setPort 0 { s.port 0 with resend := [(9, ⟨[], 0, 0⟩)] }
    let link (n : Nat) : FlitGroup := ⟨[], BitVec.ofNat 256 n, 0⟩
    let master := (s.setF (F.LNK_CAP1 0) 8).setReg F.LNK_ROUTE_ROUTE.off 1
    let f (x : Fld) (v : Nat) (s : State) := (s.setF x v).setForce x.off (putBits (s.inForce x.off) x.lo x.w v)
    let gen := f (F.FSG_CTRL_MODE 1) 2 (f (F.FSG_CTRL_ENABLE 1) 1 master)
    let m : LinkMsg := { mkLink 5 1 3 2 0 with inl := F.TIME_SET_LO_SET_LO.off + 77 * 2 ^ 32 }
    let chip := s.getF F.LNK_CFG_CHIP
    let asks (m : LinkMsg) (s : State) := s.setPort 0 { s.port 0 with rx := setNth (s.port 0).rx m.cls (lnkFlits { m with dstc := chip }) }
    let edge : LinkMsg := { mkLink 3 1 3 2 0 with win := 1, inl := 99 }
    let sent (n : Nat) (t : State) : Bool := t.wire.any (fun w => match w with
      | .link 0 q _ => q == n
      | _ => false)
    let open_ := ((s.setF F.LNK_CFG_REMOTE_EN 1).setF (F.LNK_RGRANT_FIRST 0) 0).setF (F.LNK_RGRANT_LAST 0) 0x1FFFFC
    [wfB s, ran (.linkMessageSend 0) again (fun t => sent 9 t && (t.port 0).resend == []), ran (.linkMessageSend 0) s (fun t =>
       sent 0 t && (t.port 0).seq == 1), still (.linkMessageSend 0) ready, still (.linkGroupReceive 0 (link 0)) ready,
     ran (.linkTimeExchange 0 10 25 25 20) s (fun t => t.getF F.LNK_TDELAY_DELAY == 5 && t.time == s.time),
     master.towardMaster 0, ran (.linkTimeExchange 0 10 25 25 20) master (fun t => t.getF F.LNK_TIME_OFFSET == 10 && t.time.now == 10
       && (t.port 0).locks == 1 && t.getF F.TIME_STATUS_STEPPING == 1), ran (.linkTimeExchange 0 10 15 15 20) (master.setPort 0
       { s.port 0 with good := 15, locks := 1 }) (fun t => t.getF F.LNK_TIME_LOCKED == 1 && t.time.slew == 0),
     ran (.syncEdgeTime 0 0 1) (asks edge gen) (fun t => (t.gen 1).linkEdges == [99]), still (.syncEdgeTime 0 0 1) gen, still (.syncEdgeTime 0 0 2) (asks edge gen),
     still (.remoteRegisterAccess { port := 0, set := 0 } env0) s, ran (.remoteRegisterAccess { port := 0, set := 0 } env0) (asks m s) (fun t => t.flt.aft.any (fun q => q.cls == 0x04)
       && t.getReg F.TIME_SET_LO_SET_LO.off == 0), ran (.remoteRegisterAccess { port := 0, set := 0 } env0) (asks m open_) (fun t =>
       t.getReg F.TIME_SET_LO_SET_LO.off == 77 && t.flt.aft == []), ran (.remoteRegisterAccess { port := 0, set := 0 } env0) (asks { m with opc := 0 } open_)
       (fun t => t.getReg F.TIME_SET_LO_SET_LO.off == 0 && t.flt.aft == []), still (.remoteRegisterAccess { port := 0, set := 0 } env0) (asks { m with cls := 0 } s)].all id
    = true := by decide +kernel

/-! ### Windows -/

/-- A job whose core 1 has rows 8 to 15 of a class that a window may take, and which claims window 3 and a binding to window 9 of chip 2. -/
def winJob : Job :=
  { job0 with share := List.replicate 8 { share0 with rows := [⟨3, 8, 15, 0⟩] }, windows := [(0, 3, 0), (2, 9, 1)] }

theorem test_window_commands :
    let s := ({ ready with jobs := [winJob] }).setF F.LNK_CFG_CHIP 0
    let c (l : List (Nat × Nat)) (s : State) := withCmd s 8 l
    let open_ := [(1, 0), (7, 0), (1, 3), (1, 1), (1, 3), (1, 0), (4, 8), (4, 4), (1, 2), (1, 0), (2, 5), (2, 1)]
    let win (w : InWin) (s : State) : State := { s with lnk := { s.lnk with iw := vset s.lnk.iw 3 w } }
    let live : InWin := { InWin.reset with st := .open_, core := 1, first := 8, count := 4, perm := 3, srcMask := 4, key := 5, job := 1 }
    let close (w : InWin) := c [(1, 1), (7, 0), (1, 3)] (win w s)
    let xfer : WinXfer := { src := 2, tag := 1, rows := [1], read := false }
    let up := (s.setF (F.LNK_STAT_UP 0) 1).setReg F.LNK_ROUTE_ROUTE.off 0x10
    let out (op : Nat) (s : State) := c [(1, op), (7, 0), (1, 2), (1, 9), (2, 5), (2, 1)] s
    let bound (s : State) : State := { s with lnk := { s.lnk with ob := vset s.lnk.ob 0 ⟨true, 2, 9, 5, 1⟩ } }
    [wfB s, still (.windowOpenInbound 0) s, ran (.windowOpenInbound 0) (c open_ s) (fun t => (vget t.lnk.iw 3).st == .open_
       && (vget t.lnk.iw 3).first == 8 && (vget t.lnk.iw 3).count == 4 && (vget t.lnk.iw 3).key == 5),
     ends (.windowOpenInbound 0) (c open_ (win live s)) 0x53 [], ends (.windowCloseInbound 0) (c [(1, 1), (7, 0), (1, 32)] s) 0x51 [],
     ends (.windowCloseInbound 0) (close InWin.reset) 0x50 [3], ends (.windowCloseInbound 0) (close { live with st := .closing, closer := some (0, 1) }) 0x53 [],
     ran (.windowCloseInbound 0) (close { live with st := .closing }) (fun t => (vget t.lnk.iw 3).closer == some (0, 7)),
     ran (.windowCloseInbound 0) (close live) (fun t => (vget t.lnk.iw 3).st == .closed), ran (.windowCloseInbound 0)
       (close { live with xfers := [xfer] }) (fun t => (vget t.lnk.iw 3).st == .closing && (vget t.lnk.iw 3).closer == some (0, 7)),
     ends (.windowOpenOutbound 0) (c [(1, 2), (7, 0), (1, 8)] s) 0x51 [], ends (.windowOpenOutbound 0) (c [(1, 2), (7, 0), (1, 2), (1, 8), (2, 5), (2, 1)] s) 0x54 [],
     ends (.windowOpenOutbound 0) (out 2 s) 0x55 [], ran (.windowOpenOutbound 0) (out 2 up) (fun t => vget t.lnk.ob 0 == ⟨true, 2, 9, 5, 1⟩),
     ends (.windowCloseOutbound 0) (out 3 s) 0x51 [], ran (.windowCloseOutbound 0) (out 3 (bound s)) (fun t => !(vget t.lnk.ob 0).open_)].all id
    = true := by decide +kernel

theorem test_window_messages :
    let s := ({ ready with jobs := [winJob] }).setF F.LNK_CFG_CHIP 0
    let live : InWin := { InWin.reset with st := .open_, core := 1, first := 8, count := 4, perm := 3, srcMask := 4, key := 5, job := 1 }
    let s : State := { s with lnk := { s.lnk with iw := vset s.lnk.iw 3 live } }
    let got (m : LinkMsg) (s : State) := s.setPort 0 { s.port 0 with rx := setNth (s.port 0).rx m.cls (lnkFlits m) }
    let row : List (BitVec 256) := List.replicate 16 (BitVec.ofNat 256 7)
    let put : LinkMsg := { mkLink 0 0 1 2 0 with win := 3, len := 16, arrive := true, row := 1, key := 5, data := row }
    let wait : RxWait := { core := 1, ctx := 0, tok := 0, tag := 1, bind := 0, chip := 2, read := true, rows := [10], awn := false, who := none, lo := 0, n := 0 }
    let waits (w : RxWait) (s : State) : State := { s with lnk := { s.lnk with waits := [w] } }
    let bound : State := { s with lnk := { s.lnk with ob := vset s.lnk.ob 0 ⟨true, 2, 9, 5, 1⟩ } }
    let closing : State := { s with lnk := { s.lnk with iw := vset s.lnk.iw 3 { live with st := .closing } } }
    let go (b : Fin 16) := Instr.windowMessage ⟨0, b⟩ []
    let get : LinkMsg := { mkLink 1 0 1 2 0 with win := 3, row := 1, key := 5 }
    let held (s : State) : State := s.setCore 1 { s.core 1 with initing := true }
    let late (s : State) : State := (s.setPort 0 { s.port 0 with late := [1] }).setReg F.LNK_ROUTE_ROUTE.off 0x20
    [still (go 0) s, still (.rxferAck { port := 0, set := 0 }) s, still (.closeNotice { port := 0, set := 0 }) s, ran (go 6) (got { mkLink 6 0 1 2 0 with resv := 0 } s) (fun t =>
       t.flt.aft.any (fun q => q.cls == 0x33)), ran (go 0) (got (mkLink 0 0 1 2 4) (s.setReg F.LNK_ROUTE_ROUTE.off 0x200)) (fun t =>
       t.lnk.forwarded.length == 1 && decide (t.cores = s.cores)), ran (go 0) (got { put with key := 6 } s) (fun t => t.getF F.LNK_DENY == 1
       && decide (t.cores = s.cores)), s.winCheck 0 put == none, s.winHeld 0 0 put == none,
     ran (go 1) (got get (held s)) (fun t => (t.core 1).held.length == 1 && (t.port 0).rx == (got get s |>.port 0).rx), ran (go 1) (late (got get (held s))) (fun t =>
       (vget t.lnk.iw 3).arrivals == 0 && t.getF F.LNK_DENY == 0 && (t.port 1).queue.length == 1), ran (.rxferAck { port := 0, set := 0 }) (got (mkLink 2 3 1 2 0) (waits wait s)) (fun t => t.lnk.waits == []),
     ran (.rxferAck { port := 0, set := 0 }) (got { mkLink 2 1 1 2 0 with row := 10 } (waits { wait with read := false } s)) (fun t => t.lnk.waits == []
       && decide (t.cores = s.cores)), ran (.rxferAck { port := 0, set := 0 }) (got { mkLink 2 0 1 2 0 with len := 16, data := row } (waits wait s)) (fun t =>
       t.lnk.waits == [] && (mget zeroWord (t.core 1).sp (64 * 10)).data == 7), ran (.closeNotice { port := 0, set := 0 }) (got { mkLink 4 1 0 2 0 with win := 9 } bound)
       (fun t => !(vget t.lnk.ob 0).open_), still (.windowCloseDeadline 3) s, ran (.windowCloseDeadline 3) { closing with time := { s.time with now := 50000 } }
       (fun t => (vget t.lnk.iw 3).st == .closed)].all id = true := by decide +kernel


/-! ### Rings -/

theorem test_rings :
    let s := ((((ready.setF (F.RING_CTRL_ENABLE 0) 1).setF (F.RING_CFG_SQ_SIZE 0) 4).setF (F.RING_CFG_CQ_SIZE 0) 4).setF (F.SQ_TAIL 0) 1).setF
      F.HOST_STATUS_LINK_UP 1
    let entry (l : List Byte) := inDram s 0 l
    let started (opc : Nat) (t : State) : Bool := (t.ring 0).inflight.map (fun e => (e.tag, e.opc, e.irq)) == [(7, opc, true)] && t.getF (F.SQ_HEAD 0) == 1
    let over_ (t : State) (c : Nat) : Bool := (t.ring 0).inflight == [] && t.getF (F.SQ_HEAD 0) == 1 && t.getF (F.CQ_TAIL_TAIL 0) == 1
      && (mget (dflt 0) t.dram 0).toNat == 7 && (mget (dflt 0) t.dram 3).toNat == c
    let at_ (s : State) := (s.setReg (F.SQ_BASE_LO 0).off 4096)
    let put (l : List Byte) := at_ (inDram s 4096 l)
    let wrap := (ready.setF (F.RING_CFG_CQ_SIZE 0) 4).setF (F.CQ_TAIL_TAIL 0) 15 |>.setF (F.CQ_HEAD 0) 3
    let full := (ready.setF (F.RING_CFG_CQ_SIZE 0) 0)
    [wfB (entry []), still (.commandFetch 0) ready, ran (.commandFetch 0) (put [9, 1, 7, 0]) (started 9), ran (.commandFetch 0)
       (put [0x0F, 1, 7, 0]) (fun t => over_ t 0x70), ran (.commandFetch 0) (put [9, 2, 7, 0]) (fun t => over_ t 0x71),
     ran (.commandFetch 0) (put [9, 1, 7, 0, 1]) (fun t => over_ t 0x71), ran (.commandFetch 0) { put [9, 1, 7, 0] with dramPoison := [(513, true)] }
       (fun t => over_ t 0x74), (let t := wrap.complete 0 7 0 0 []
        t.getF (F.CQ_TAIL_TAIL 0) == 0 && t.getF (F.CQ_TAIL_PHASE 0) == 1 - wrap.getF (F.CQ_TAIL_PHASE 0)),
     (let t := full.complete 0 7 0 5 []
      codes t == [(5, [])] && decide (t.regs = full.regs))].all id = true := by decide +kernel

theorem test_ring_commands :
    let s := ready
    let owned := s.setOwner 6 3
    let mine := s.setOwner 6 2
    let job := { s with jobs := [job0] }
    let req : StoReq := { bank := 0, tag := 0, target := 1, job := 0, src := 0, len := 4, errs := [] }
    let work : StoWrite := { req := req, obj := pack0, remove := false, phase := .intent, idx := 0, bad := false }
    let route := [(1, 2), (3, 0), (4, 0), (2, 5), (2, 6), (8, 0), (4, 7), (4, 8), (4, 0), (4, 9), (4, 0)]
    [ends (.nop 0) (withCmd s 0 []) 0 [], ends (.nop 0) (withCmd s 0 [(1, 1)]) 0x71 [], still (.nop 0) s, still (.claim 0) (withCmd s 14 [(4, 64), (1, 1)]),
     still (.claimRelease 0) (withCmd s 14 [(4, 64)]), ends (.claim 0) (withCmd s 14 [(4, 0x8000)]) 0x71 [], ends (.claim 0) (withCmd owned 14 [(4, 64)]) 0x76 [],
     ran (.claim 0) (withCmd s 14 [(4, 64)]) (fun t => t.owner 6 == 2 && (codes t).map (·.1) == [0]), ran (.claimRelease 0)
       (withCmd mine 14 [(4, 64), (1, 1)]) (fun t => t.owner 6 == 0), ends (.claimRelease 0) (withCmd s 14 [(4, 64), (1, 3)]) 0x71 [],
     ends (.route 0) (withCmd s 7 [(1, 6)]) 0x71 [], ends (.route 0) (withCmd s 7 [(1, 2)]) 0x77 [], ran (.route 0) (withCmd job 7 route) (fun t =>
       codes t == [(0, [])] && t.getF (F.OF_CROP_XY_X 2) == 5 && t.getF (F.OF_CROP_XY_Y 2) == 6 && t.getF (F.OF_BASE 2) == 7 && t.getF (F.OF_PITCH 2) == 8
       && t.getF (F.OF_OFFSET 2) == 9 && (t.stream 2).stop), ends (.storewr ⟨0, []⟩) (withCmd s 13 [(1, 1), (1, 0), (2, 1)]) 0x71 [],
     ran (.storewr ⟨0, []⟩) (withCmd { s with sto := { s.sto with cur := some work } } 13 [(1, 1)]) (fun t => t.sto.queue.length == 1 && codes t == [])].all id = true := by
  decide +kernel

theorem test_packages_and_images :
    let s := ready
    let p : Pkg := { id := 5, version := 1, digest := 0, svn := 0, first := 4, rows := 1, cores := [0, 1], adapt := 0, export_ := 0,
                     shadow := 0, judged := true, owed := [] }
    let loaded := { s with pkgs := [p] }
    let used := { loaded with jobs := [{ job0 with models := [{ pkg := 5, digest := 0, version := 0 }] }] }
    let src := [(8, 4096), (4, 64)]
    let bad (opc : Nat) := { withCmd s opc src with dramPoison := [(512, true)] }
    let idle := { s with jobs := [{ job0 with state := .loaded }] }
    let held := { idle with lnk := { idle.lnk with ob := vset idle.lnk.ob 3 ⟨true, 2, 9, 5, 1⟩, iw := vset idle.lnk.iw 4 { InWin.reset with st := .open_, job := 1 } } }
    let ctx := held.setCtx 2 1 { Ctx.reset with job := some 1, running := true }
    [still (.loadpkg 0 none) s, still (.unloadpkg 0) s, ends (.unloadpkg 0) (withCmd s 2 [(4, 5)]) 0x71 [], ends (.unloadpkg 0) (withCmd used 2 [(4, 5)]) 0x75 [],
     ran (.unloadpkg 0) (withCmd loaded 2 [(4, 5)]) (fun t => t.pkgs == [] && codes t == [(0, [])]), ends (.loadpkg 0 none) (bad 1) 0x74 [],
     ends (.loadpkg 0 none) (withCmd s 1 src) 0x60 [], ends (.loadpkg 0 none) (withCmd (s.setF F.SEC_STATUS_DEBUG 1) 1 src) 0x6B [],
     still (.loadimg 0) s, still (.unload 0) s, ends (.loadimg 0) (bad 3) 0x74 [], ends (.loadimg 0) (withCmd s 3 src) 1 [],
     ends (.unload 0) (withCmd s 4 [(2, 1)]) 0x72 [], ends (.unload 0) (withCmd { s with jobs := [job0] } 4 [(2, 1)]) 0x73 [],
     ran (.unload 0) (withCmd ctx 4 [(2, 1)]) (fun t => t.jobs == [] && codes t == [(0, [])] && (t.ctx 2 1).job == none && !(t.ctx 2 1).running
       && !(vget t.lnk.ob 3).open_ && (vget t.lnk.iw 4).st == .closed)].all id = true := by decide +kernel

theorem test_jobs :
    let s := ready
    let has (j : Job) := { s with jobs := [j] }
    let idle := { job0 with state := .loaded }
    let mem := { idle with inline := false }
    let ses := { mem with session := true, inctx := 255 }
    let start (j : Job) := withCmd (has j) 5 [(2, 1)]
    let stop (j : Job) := withCmd (has j) 6 [(2, 1)]
    let j (t : State) (p : Job → Bool) : Bool := t.jobs.all p && t.jobs.length == 1
    [still (.start 0) s, still (.stop 0) s, ends (.start 0) (withCmd s 5 [(2, 9)]) 0x72 [], ends (.start 0) (start job0) 0x73 [],
     ends (.start 0) (withCmd s 5 [(2, 1), (1, 1)]) 0x71 [], ran (.start 0) (start idle) (fun t => codes t == [(0, [])]
       && j t (fun j => j.startPend == some (0, 7) && j.state == .loaded)), ran (.start 0) (start mem) (fun t => j t (fun j => j.state == .running)
       && t.dev == devRun && (t.ctx 0 1).pc == 4 && (t.ctx 0 1).job == some 1), ran (.start 0) (start ses) (fun t => j t (fun j => j.state == .running)
       && t.getF F.AD_STATUS_RUNNING == 1), ends (.stop 0) (stop idle) 0x73 [], ran (.stop 0) (stop { idle with startPend := some (0, 3) }) (fun t =>
       j t (fun j => j.startPend == none)), ran (.stop 0) (stop job0) (fun t => j t (fun j => j.state == .loaded && !j.stopping)),
     ran (.stop 0) (stop { job0 with frames := [frame0] }) (fun t => j t (fun j => j.stopping && j.frames.length == 1 && j.state == .running)),
     ran (.stop 0) (stop { job0 with inline := false, frames := [frame0] }) (fun t => j t (fun j => j.frames.length == 0))].all id = true := by
  decide +kernel

/-! ### Host port -/

theorem test_bar4 :
    let s := (ready.setF F.HOST_STATUS_LINK_UP 1).setF (F.HOST_W4_ENABLE 0) 1
    let win (b : Nat) := s.setF (F.HOST_W4_BASE 0) b
    let sp := win 1024
    let w (off n : Nat) (l : List Byte) := Instr.bar4Access off n (some l) env0
    let r (off n : Nat) := Instr.bar4Access off n none env0
    let row : RowBuf := { addr := 0x010000000200, bytes := [(3, 9)], since := 0, src := 2 }
    let held := { s with host := { s.host with rows := [row] } }
    [wfB s, s.pathOpen .host (F.HOST_W4_BASE 0).off true, still (w 0 4 [1, 2, 3, 4]) { s with off := true }, ran (r 0 4) { s with off := true }
       (fun t => t.wire == [.answer 1 0xFFFFFFFF false]), ran (w 0 4 [1, 2, 3, 4]) (s.setF (F.HOST_W4_ENABLE 0) 0) (fun t =>
       t.flt.fore.any (fun q => q.cls == 0x01) && decide (t.regs = (s.setF (F.HOST_W4_ENABLE 0) 0).regs)), ran (w 64 4 [1, 2, 3, 4]) (win 0) (fun t =>
       mget (dflt 0) t.dram 64 == 1 && mget (dflt 0) t.dram 67 == 4 && mget (dflt 0) t.dram 68 == 0), ran (r 64 4) (inDram (win 0) 64 [1, 2, 3, 4])
       (fun t => t.wire == [.answer 1 0x04030201 false]), ran (w (0x210 * 0) 4 [1, 2, 3, 4]) (win 0x3C00) (fun t => t.dram == []),
     ran (w 515 1 [9]) sp (fun t => t.host.rows == [row]), sp.region (1024 * 2 ^ 30 + 512) == .sp 0 1 0, !sp.spHeld 0, still .rowBufferTimeout s,
     ran .rowBufferTimeout { held with time := { s.time with now := 100000 } } (fun t => t.host.rows == [] && t.flt.fore.any (fun q => q.cls == 0x02)),
     ran .rowBufferTimeout { held with time := { s.time with now := 99999 } } (fun t => t.host.rows == [row])].all id = true := by decide +kernel

theorem test_bulk :
    let s := ready.setF F.HOST_STATUS_LINK_UP 1
    let x := s.bulk 0
    let ptr (n : Nat) := s.setReg (F.BULK_ADDR_LO 0).off (BitVec.ofNat 32 n)
    let busy := s.setBulk 0 { x with buf := [(64, [1, 2, 3, 4])] }
    let bell := s.setRing 0 { s.ring 0 with bell := some 3 }
    let rom : State := { inState devBoot 1 with sec := { s.sec with romMode := true } }
    let bell' := bell.setF (F.RING_CFG_SQ_SIZE 0) 4
    [wfB s, still (.bulkDataWrite 0 [1, 2, 3, 4]) { s with off := true }, ran (.bulkDataWrite 0 [1, 2, 3, 4]) (ptr 64) (fun t =>
       (t.bulk 0).buf == [(64, [1, 2, 3, 4])] && t.bulkPtr 0 == 68 && t.getF (F.BULK_STATUS_DRAINING 0) == 1), ran (.bulkDataWrite 0 [1, 2, 3])
       (ptr 64) (fun t => t.getF F.GLB_STATUS_BAD_WIDTH == 1 && t.bulkPtr 0 == 64), ran (.bulkDataWrite 0 (List.replicate 4096 0)) busy (fun t =>
       (t.bulk 0).wait.length == 1), ran (.bulkDataWrite ⟨rom.romPath % 2, by omega⟩ [1, 2, 3, 4]) rom (fun t => t.sec.stage == [1, 2, 3, 4]),
     ran (.bulkDataRead 0 4 0) busy (fun t => (t.bulk 0).wait.length == 1), ran (.bulkDataRead 1 4 0) (s.setBulk 1 { x with buf := [(64, [1])] })
       (fun t => t.host.hspLate && t.wire == [.hsp [0, 0, 0, 0]]), ran (.bulkDataRead 0 4 0) (inDram (ptr 64) 64 [1, 2, 3, 4]) (fun t =>
       t.wire == [.answer 1 0x04030201 false] && t.bulkPtr 0 == 68), ran (.bulkDrain 0 env0) busy (fun t => (t.bulk 0).buf == []
       && mget (dflt 0) t.dram 64 == 1 && mget (dflt 0) t.dram 67 == 4), ran (.bulkDrain 0 env0) s (fun t => t.bulk 0 == x),
     ran (.bulkDrain 0 env0) bell' (fun t => (t.ring 0).bell == none && t.getF (F.SQ_TAIL 0) == 3)].all id = true := by decide +kernel

theorem test_hsp :
    let s := ready
    let off := F.TIME_SET_LO_SET_LO.off
    let a (n : Nat) : BitVec 32 := BitVec.ofNat 32 n
    [s.hspAlive, still .hspStatusFrame { s with off := true }, ran (.hspWriteFrame (a (2 ^ 31)) [] env0) s (fun t => t.host.hspBad),
     ran (.hspReadFrame (a (2 ^ 31)) 4 0 []) s (fun t => t.host.hspBad && t.wire == []), ran (.hspWriteFrame (a off) [5, 0, 0, 0] env0) s (fun t =>
       t.getReg off == 5 && !t.host.hspBad), ran (.hspReadFrame 0 4 0 []) s (fun t => t.wire == [.hsp [0x3C, 0x1F, 0x80, 0x08]]),
     ran (.hspReadFrame 0 4 0 [0]) (s.setF F.HSP_CFG_DUMMY 4) (fun t => t.wire == [.hsp [0, 0, 0, 0]] && t.host.hspLate),
     ran (.hspWriteFrame (a (2 ^ 30)) [1, 2, 3, 4] env0) s (fun t => (t.bulk 1).buf == [(0, [1, 2, 3, 4])]),
     ran .hspStatusFrame { s with host := { s.host with hspLate := true, hspBad := true } } (fun t => t.wire == [.hsp [10]] && !t.host.hspLate
       && !t.host.hspBad)].all id = true := by decide +kernel

theorem test_pcie :
    let s := ready
    let up := s.setF F.HOST_STATUS_LINK_UP 1
    let cfg := { up with host := { up.host with cfgUp := true } }
    let lost (t : State) : Bool := t.getF F.HOST_STATUS_LINK_UP == 0 && t.getF F.HOST_STATUS_LINK_LOST == 1 && t.host.lost
      && t.flt.fore.any (fun q => q.cls == 0x35)
    [wfB s, ran (.pcieLinkUp 2 4) s (fun t => t.getF F.HOST_STATUS_LINK_UP == 1 && t.getF F.HOST_STATUS_WIDTH == 2 && t.getF F.HOST_STATUS_SPEED == 4
       && t.getF ⟨F.HOST_ICAUSE.off, 31, 1⟩ == 1), still (.pcieLinkUp 2 4) up, still .pcieLinkDown s, ran .pcieLinkDown up lost, ran .endpointReset up lost,
     ran (.hostReadFail 100 8 true) up (fun t => (t.hostGet 96 5).isNone && (t.hostGet 96 4).isSome && (t.hostGet 108 4).isSome),
     still (.configurationRequest 0 none) s, ran (.configurationRequest 0 none) up (fun t => t.wire == [.cfgRetry]),
     ran (.configurationRequest 0 none) cfg (fun t => t.wire == [.cfg 0x08801F3C]), still (.configurationRequest 0 (some 5)) cfg,
     ran (.configurationRequest 44 none) cfg (fun t => t.wire == [.cfg (2 * 65536 + 0x1F3C)] || t.wire == [.cfg (65536 + 0x1F3C)]),
     ran (.configurationRequest 4 none) cfg (fun t => t.free == 1), still (.pcieLinkUp 8 4) s,
     ran (.configurationRequest 4 (some 0x406)) cfg (fun t => t.host.cfg.cmd == 0x406)].all id = true := by decide +kernel

/-! ### Steps and fuses -/

theorem test_steps :
    let s := ready
    let queued := { s with pending := [.defectSwap .host 1, .clrSat 0 .host 0] }
    [nx (step queued) (fun t => t.pending == [.clrSat 0 .host 0] && t.intake.swap), wfB State.reset, nx (step State.reset) (fun t => t.time.now == 1),
     State.reset.fuse 8 0 == 1].all id = true := by decide +kernel

/-! ### Further forms of the statements -/

theorem test_paired_start :
    let j := { job0 with paired := true, tiles := [32, 0, 0, 0, 0, 0, 0, 0], frames := [{ frame0 with tiles := [32, 0, 0, 0, 0, 0, 0, 0] }] }
    let idle := { ctx0 with running := false }
    let s := (({ inState devRun 1 with jobs := [j] }).setCtx 0 0 idle).setCtx 1 0 idle
    let mem := { job0 with id := 2, inline := false, frames := [frame0] }
    let waits := { s with jobs := [{ job0 with frames := [frame0] }, mem] }
    [j.pairOf 0 == [0, 1], s.canStart j 0 && s.canStart j 1, ran (.stripeStart 1 0) s (fun t => (t.ctx 0 0).running && (t.ctx 1 0).running
       && (t.ctx 1 0).pc == 4), waits.canStart mem 0 == false || still (.stripeStart 2 0) waits].all id = true := by decide +kernel

theorem test_trigger_schedule :
    let f (s : State) (x : Fld) (v : Nat) := (s.setF x v).setForce x.off (putBits (s.inForce x.off) x.lo x.w v)
    let s := f (f (f (f ready (F.FSG_CTRL_ENABLE 1) 1) (F.FSG_PERIOD 1) 1000) (F.FSG_START_LO 1) 50) (F.FSG_WIDTH 1) 10
    let s := (((s.setF (F.IN_TRIG_GEN 0) 1).setF (F.IN_TRIG_ENABLE 0) 1).setF (F.IN_TRIG_DELAY 0) 7).setF (F.IN_TRIG_WIDTH 0) 5
    let s := { s with time := { s.time with now := 50 } }.setGen 1 { s.gen 1 with armed := true }
    ran (.fsgEdge 1) s (fun t => (t.trig 0).due == [(57, 5)] && (t.trig 1).due == []) = true := by decide +kernel

theorem test_start_waits :
    let d := (descX 8 5 1 1 32 1 0, descX 9 5 1 1 32 1 0, descX 10 5 1 1 32 1 0)
    let w := wX 0x30 0 4 2 1 3 0 0
    let s := workAt w d 64
    let i : UInst := s.capture 0 0 .dmaRead (BitVec.ofNat 64 w)
    let c := s.ctx 0 0
    let s := s.setCtx 0 0 { (c.setToken 1 ⟨.busy, 0⟩) with queues := c.queues.set 3 [i] }
    let retrains := { s with brg := { s.brg with training := true, wasUp := false } }
    let both := s.setCtx 0 1 { s.ctx 0 1 with queues := c.queues.set 3 [i] }
    let later := both.setCtx 0 0 { both.ctx 0 0 with lastX := true }
    [s.startWait 0 0 3 i == none, retrains.brgBusy, still (.unitInstructionStart 0 0 3 {} 0) retrains, both.turn 0 0 3, !both.turn 0 1 3,
     later.turn 0 1 3 && !later.turn 0 0 3, still (.unitInstructionStart 0 0 3 {} 0) later].all id = true := by decide +kernel

theorem test_held_accesses :
    let s := ready
    let c := s.core 2
    let acc (w : Bool) (who : Nat) : HeldAcc := { write := w, row := 0, ws := [], since := 0, who := who, lo := 5, n := 1 }
    let at_ (a : HeldAcc) : State := { s with time := { s.time with now := 5000000 } }.setCore 2 { c with held := [a] }
    let i : UInst := { s.capture 1 0 .dmaRead 0 with pc := 5, tok := 1 }
    let queued (i : UInst) (a : HeldAcc) : State := (at_ a).setCtx 1 0 { s.ctx 1 0 with queues := (s.ctx 1 0).queues.set 3 [i] }
    let go (a : HeldAcc) (p : State → Bool) : Bool := ran (.heldAccessTimeout 2) (at_ a) (fun t => (t.core 2).held == [] && p t)
    [wfB (at_ (acc false 1)), go (acc false 1) (fun t => t.wire.any (fun w => match w with
       | .answer 1 _ true => true
       | _ => false)), go (acc false 10) (fun t => t.brg.f2a.late), go (acc false 11) (fun t => t.brg.a2f.late),
     go (acc false 35) (fun t => (t.port 1).late == [3]), go (acc true 7) (fun t => decide (t.flt = s.flt)),
     ran (.heldAccessTimeout 2) (queued i (acc false 68)) (fun t => ((t.ctx 1 0).queue 3).all (·.late)),
     ran (.heldAccessTimeout 2) (queued { i with started := true, cause := 0 } (acc true 20)) (fun t =>
       ((t.ctx 1 0).queue 3).all (fun q => q.cause == excUnitPoison))].all id = true := by decide +kernel

theorem test_poison_records :
    let s := { inState devRun 1 with jobs := [job0] }
    let at_ (n : Nat) : State := { s with flt := { s.flt with fore := [mkRec n 2 0x50] } }
    [(at_ 0).foundNow (mkRec 0 2 0x50), still (.faultRecord false) (at_ 0), ran (.faultRecord false) { at_ 0 with time := { s.time with now := 1 } }
       (fun t => t.flt.fore == [] && t.getF F.FLT_STATUS_AON_HEAD == 1)].all id = true := by decide +kernel

theorem test_open_frames :
    let s := (intake0.setF (F.IN_CTX_VC 2) 3).setInCtx 2 { intake0.inCtx 2 with cur := some inFrame0 }
    ran (.frameStartPacket 0 1 0) s (fun t => (t.inCtx 2).cur.isNone && t.getF (F.IN_CTX_STAT_FLAGS 2) == 17) = true := by decide +kernel

theorem test_margin_limits :
    let vm := ready.vLimit 1
    let ft := ready.getF (F.PWR_ISL_F_TARGET 1)
    let s := ready.setIsl 1 { ready.isl 1 with v := vm + 5, f := 900 }
    let third := { ready with pwr := { ready.pwr with railRun := mset (dflt 0) [] 1 2 } }
    [decide (ready.pstate 1 < 2), ran (.marginLoopTick 1 0) s (fun t => (t.isl 1).v == max 580 vm && (t.isl 1).f == max 200 (900 - ft / 64)),
     ready.served, mget (dflt 0) third.pwr.railRun 1 == 2, (third.railCross 1 true).1, (ready.railLimits 0).2.any (fun l => decide (1 < l.1)),
     wfB third].all id = true := by decide +kernel

theorem test_edge_more :
    let put (v : List (List Nat)) : JFrame := { frame0 with bufs := [(1, ⟨0, v, v.map (fun _ => false)⟩)] }
    let sole (r : EdgeRun) : EdgeRun := { r with fresh := [(1, 0)] }
    let conv := edgeAt (eRec [2, 1, 2, 0, 1, 1, 1, 1]) (put [[0x3C00], [0x4200], [0x4000], [0]]) sole
    let box := edgeAt (eRec [7, 1, 0, 0, 1, 1, 4, 0, 0, 0, 0, 0x3C, 0, 0x3C, 0, 0, 0, 0, 0, 0]) (put [[0, 0, 0, 0, 0x3C00], [0, 0, 0, 0, 0xBC00], [0, 0, 0, 0, 0x4000], [0, 0, 0, 0, 0]]) sole
    let box := { box with jobs := box.jobs.map (fun j => { j with edge := { j.edge with consts := [0, 0x40, 0, 0x40] } }) }
    let row (v : Nat) : Row := List.replicate 64 (BitVec.ofNat 64 v, false)
    let res : List ResRow := [⟨2, 0, 0, 16, true, row 1⟩, ⟨2, 0, 1, 16, true, row 2⟩]
    let take := edgeAt (eRec [4, 0, 2, 0, 0, 1, 5]) { frame0 with res := res } (fun r => { r with post := true, band := 2 })
    let last := { frame0 with bands := [{ band0 0 with ready := none }] }
    let late := edgeAt (eRec [3]) last (fun r => { r with row := ⟨7, [], []⟩ })
    let acc : HeldAcc := { write := true, row := 0, ws := [], since := 0, who := 7, lo := 0, n := 0 }
    let held := late.setCore 0 { late.core 0 with initing := true, held := [acc] }
    [wfB conv, ran .econv conv (fun t => eWent t && eRow t 2 0 == some [[0], [0], [0], [0]]), ran .boxdec box (fun t => eWent t
       && t.jobs.all (fun j => j.frames.all (fun x => x.seen == 1 && !x.overflow
         && x.cands.all (fun c => (c.x0, c.y0, c.x1, c.y1, c.score) == (4, 4, 12, 12, 0x3C00))))),
     ran .take take (fun t => eWent t && t.jobs.all (fun j => j.frames.all (fun x => x.res == [] && (x.bufs.map (fun b => b.2.vals.length)) == [32]
       && x.bufs.all (fun b => nth [] b.2.vals 0 == [1] && nth [] b.2.vals 16 == [2])))),
     ran .emit held (fun t => eWent t && t.edge.landing == [(1, 3, 0)] && t.jobs.all (fun j => j.frames.all (fun x => x.bands.all (fun b => b.ready == none))))].all id
    = true := by decide +kernel

theorem test_gate_sources :
    let lat (r : CofRun) : CofRun := { r with sub := { r.sub with batch := false } }
    let ok (w : BitVec 64) (l : List Nat) (cls : Nat) : Bool :=
      let s := cofAt w lat
      (s.badKeyWord 2).isNone && wfB s && l.all (fun a =>
        let x := (s.cofSlot a).1
        !x.spent && x.valid && !x.poison && (x.trivial || x.ksid == 2) && decide (x.level + cls ≤ 8))
    [ok (gWord 0x10 4 1 1 0 0) [1, 1] 1, ok (gWord 0x17 4 1 1 1 0) [1, 1, 1] 5, ok (gWord 0x16 4 1 1 1 0) [1, 1, 1] 3].all id = true := by
  decide +kernel

theorem test_link_forms :
    let s := ready.setF (F.LNK_STAT_UP 0) 1
    let chip := s.getF F.LNK_CFG_CHIP
    let dup := (s.setF (F.LNK_STAT_DUP_CHIP 0) 1).setPort 0 { s.port 0 with queue := [mkLink 0 0 1 0 2] }
    let asks (m : LinkMsg) (s : State) := s.setPort 0 { s.port 0 with rx := setNth (s.port 0).rx m.cls (lnkFlits { m with dstc := chip }) }
    let open_ := ((s.setF F.LNK_CFG_REMOTE_EN 1).setF (F.LNK_RGRANT_FIRST 0) 0).setF (F.LNK_RGRANT_LAST 0) 0x1FFFFC
    let reg : LinkMsg := { mkLink 5 1 3 2 0 with inl := F.TIME_SET_LO_SET_LO.off }
    let caps : LinkMsg := { mkLink 5 2 3 2 0 with inl := 0x10000880 + 13 * 2 ^ 32 }
    let live : InWin := { InWin.reset with st := .open_, core := 1, first := 8, count := 4, perm := 3, srcMask := 4, key := 5, job := 1 }
    let dead : WinXfer := { src := 2, tag := 1, rows := [1, 2], read := false }
    let win (w : InWin) : State := { s with lnk := { s.lnk with iw := vset s.lnk.iw 3 w } }
    let put : LinkMsg := { mkLink 0 0 1 2 0 with win := 3, len := 16, arrive := true, row := 1, key := 5, data := List.replicate 16 0 }
    let busy := (win live).setCore 1 { s.core 1 with initing := true }
    [wfB dup, ran (.linkMessageSend 0) dup (fun t => (t.port 0).queue.length == 1), ran (.remoteRegisterAccess { port := 0, set := 0 } env0) (asks caps s) (fun t =>
       t.getF (F.LNK_CAP0 0) == 0x10000880 && t.getF (F.LNK_CAP1 0) == 13), still (.remoteRegisterAccess { port := 0, set := 0 } env0) ((asks reg open_).setF F.BRG_STATUS_UP 0),
     ran (.windowMessage ⟨0, 0⟩ []) (asks put busy) (fun t => (t.core 1).held.map (·.who) == [16] && (nth [] (t.port 0).rx 0).length == 17),
     ran (.windowMessage ⟨0, 0⟩ []) (asks put (win { live with dead := [dead] })) (fun t => (vget t.lnk.iw 3).arrivals == 0
       && (vget t.lnk.iw 3).dead == [{ dead with rows := [2] }])].all id = true := by decide +kernel

theorem test_bridge_forms :
    let s := ready
    let swap := s.setDir .f2a { s.dir .f2a with swapLane := some 3 }
    let time := s.setDir .f2a { s.dir .f2a with rx := setNth (s.dir .f2a).rx 4 [BitVec.ofNat 256 (4 + 100 * 2 ^ 128)] }
    [(s.dir .f2a).expect == 0, (s.dir .f2a).lmap.length == 48, swap.freeSpare .f2a == some 48, decide (nth 0 (s.dir .f2a).lmap 3 < 50),
     ran (.bridgeMessageReceive ⟨.f2a, 4⟩) time (fun t => t.getF F.BRG_STATUS_TSYNC == 1 || t.time.aftSlew != 0)].all id = true := by decide +kernel

/-! ### Clauses at their boundaries -/

/-- A BAR held by a WEIGHT write (R199), one that a due test slot stops (R489), and a stripe of a pair whose secondary is quarantined
(R166). -/
theorem test_held_barriers :
    let w := wT 0x1B 0 0 0 0 0 0
    let j := { job0 with share := List.replicate 8 { share0 with rows := [⟨0, 8, 15, 0⟩] } }
    let busy (s : State) : State := s.setCore 3 { s.core 3 with weightWrite := [(15, 1)] }
    let s := prog w
    let mem := ({ prog w with jobs := [{ job0 with session := true, inline := false }], flt := { s.flt with tests := [{ todo := [(0, 0, 0)], urgent := false, at_ := 0, deferred := false }] } }).setCtx
      0 1 ctx0
    let due := ((mem.setCtx 0 0 Ctx.reset).setF F.FLT_TCFG_PAR 1).setF (F.CORE_STATUS_ACTIVE 0) 1
    let pair := { job0 with paired := true, tiles := [32, 0, 0, 0, 0, 0, 0, 0], frames := [{ frame0 with tiles := [32, 0, 0, 0, 0, 0, 0, 0] }] }
    let quar := ((({ inState devRun 1 with jobs := [pair] }).setCtx 0 0 { ctx0 with running := false }).setF (F.CORE_STATUS_QUAR 1) 1)
    [(busy (progWith w j ctx0)).weightHold ctx0, ran (.bar 0 0) (busy (progWith w j ctx0)) (fun t => (t.ctx 0 0).held && (t.ctx 0 0).pc == 5),
     due.slotDue 0, !due.weightHold (due.ctx 0 1), !due.ready0 0, decide (due.fetchOp 0 1 = .run .bar (BitVec.ofNat 64 w)), still (.bar 0 1) due,
     quar.leftOut pair 1, !quar.leftOut pair 0, quar.canStart pair 0, ran (.stripeStart 1 0) quar (fun t => (t.ctx 0 0).running
       && !(t.ctx 1 0).running)].all id = true := by decide +kernel

/-- The instruction stays in its queue until its check blocks are judged (R441). -/
theorem test_checked_work :
    let wd := (descX 8 0 2 2 1 1 (12 * 2 ^ 128 + 2 ^ 145 + 2 ^ 148 + 2 * 2 ^ 151), descX 10 8 2 2 1 1 0, descX 20 7 16 1 1 1 (2 * 2 ^ 18 + 3 * 2 ^ 32))
    let wino := wX 0x21 5 4 6 1 0 0 0
    let s := workAt wino wd 0
    let s := (s.setCtx 0 0 { s.ctx 0 0 with ck := 1 }).setForce (F.CK_CTRL_ENABLE 0).off 1
    let dd := descOf (s.capture 0 0 .wino (BitVec.ofNat 64 wino)).dd
    [worksB s .wino wino (fun s q => tensorB .wino s q && !winoRefused 0 (descOf q.da) (descOf q.db)), s.forceF (F.CK_CTRL_ENABLE 0) != 0,
     dd.d2 * (dd.d0 * dd.d1 * dd.d3) != 0].all id = true := by decide +kernel

/-- A step of DTIME behind a time message (R48); an uncorrectable word of Edge line memory (R467). -/
theorem test_step_and_line_errors :
    let s := ready
    let step : State := { s with time := { s.time with stepPending := some 9 } }
    let behind := step.setDir .f2a { s.dir .f2a with rx := setNth (s.dir .f2a).rx 4 [4] }
    let row : ERow := { q := 2, vals := [[5, 6]], pois := [false, false] }
    let e := edgeAt (eRec [10]) { frame0 with bufs := [(1, row)] } id
    let bad := e.edgeUe 1 [(1, 2, 1)]
    [ran .dtimeStepDone step (fun t => t.time.aft == 9), still .dtimeStepDone behind, wfB e,
     bad.flt.fore.any (fun q => q.cls == 0x17 && q.job == 1 && q.poison),
     (bad.job 1).elim false (fun j => j.frames.any (fun x => x.bufs == [(1, { row with pois := [false, true] })]))].all id = true := by
  decide +kernel

/-- Coffer memory errors (R416, R435–R437) and a slot held until its completion is posted (R432). -/
theorem test_coffer_errors :
    let gate := gWord 0x10 4 1 1 0 0
    let broken := cofAt gate (fun r => { r with sub := { r.sub with words := [poisonWord 0] } })
    let pass := cofAt gate (fun r => { r with passing := true, idx := 1, batch := [⟨gate, 0⟩], sub := { r.sub with batch := false } })
    let kept := withCmd { ready with cof := { ready.cof with ended := [(0, 7, 0, 16)] } } 11 []
    let kept := kept.setRing 0 { kept.ring 0 with held := [{ result := 0x30, opc := 11, irq := false, tag := 7, vals := [], replayed := false }] }
    let hit : KeyArrival := { n := 5, bad := some 3, ce := 2, ue := [4], gate := [] }
    [broken.cof.run.any (fun r => r.next == some none), ran .gateAnd broken (fun t => t.cof.run.isNone && t.flt.fore.any (fun q => q.cls == 0x44 && q.unit == 7)),
     ran (.keyStreamData hit) pass (fun t => t.getF F.COF_STALL == 5 && t.getF F.COF_CE == 2 && t.getF F.COF_STICKY_KEY_FAULT == 1 && t.cof.recheck == [2]
       && t.flt.fore.any (fun q => q.cls == 0x45) && t.flt.fore.any (fun q => q.cls == 0x44 && q.addr == 0x030000CC0000 + 32)
       && t.cof.run.any (fun r => r.keyBad)),
     ran (.slotHeaderWrite 3 0x105) kept (fun t => t.getF F.COF_STICKY_SLOT_LOCKED == 1 && t.getF ⟨F.HOST_ICAUSE.off, 21, 1⟩ == 1)].all id = true := by
  decide +kernel

/-- Commands that wait for rows a core holds (R192), a doorbell that comes before its master's Bulk writes (R539), entries that are
refused at once or behind another (R540, R541), and WINDOW commands with bytes that must be zero (R543). -/
theorem test_waiting_commands :
    let s := ready.setCore 2 { ready.core 2 with initing := true }
    let row := 0x010000000000 + 2 * 131072 * 512
    let w (opc : Nat) (l : List (Nat × Nat)) := withCmd s opc l
    let img := inDram (withCmd { s with cof := { s.cof with keys := vset s.cof.keys 2 ⟨true, 9, 0, 0⟩ } } 11 [(8, 4096)]) 4096
      (leBytes 8 row ++ leBytes 4 136 ++ [2, 1, 0, 0] ++ leBytes 2 16 ++ leBytes 2 4 ++ leBytes 4 6 ++ List.replicate 40 0)
    let req : StoReq := { bank := 0, tag := 7, target := 1, job := 0, src := row, len := 512, errs := [] }
    let slow := (s.setF F.HOST_STATUS_LINK_UP 1).setBulk 0 { s.bulk 0 with buf := [(64, [1])] }
    let rings := ((((ready.setF (F.RING_CTRL_ENABLE 0) 1).setF (F.RING_CFG_SQ_SIZE 0) 4).setF (F.RING_CFG_CQ_SIZE 0) 4).setF (F.SQ_TAIL 0) 1).setF
      F.HOST_STATUS_LINK_UP 1
    let put (l : List Byte) := (inDram rings 4096 l).setReg (F.SQ_BASE_LO 0).off 4096
    let behind := (put [0x0F, 1, 7, 0]).setRing 0
      { rings.ring 0 with inflight := [{ tag := 3, opc := 9, irq := false, pars := pars [], begun := false }] }
    let win (op n : Nat) := withCmd ready 8 [(1, op), (1, n)]
    [s.fwHeld row 512, still (.ksload 0) (w 9 [(1, 2), (7, 0), (8, row), (8, 190713856)]), still (.loadpkg 0 none) (w 1 [(8, row), (4, 512)]),
     still (.loadimg 0) (w 3 [(8, row), (4, 512)]), still (.cofsub 0) (w 11 [(8, row)]), still (.cofsub 0) img,
     (s.accept 0).stoHeld req, ran (.storewr ⟨0, []⟩) (w 13 [(1, 1), (7, 0), (8, row), (4, 512)]) (fun t => t.sto.queue.length == 1),
     !slow.bulkSeen 0, landsB slow .host (F.SQ_TAIL 0).off,
     ran (.sqDoorbell 0 .host 3) slow (fun t => (t.ring 0).bell == some 3 && t.getF (F.SQ_TAIL 0) == 0),
     ran (.commandFetch 0) behind (fun t => (t.ring 0).inflight.map (·.bad) == [none, some 0x70] && t.getF (F.SQ_HEAD 0) == 1),
     ends (.windowOpenInbound 0) (win 0 1) 0x71 [], ends (.windowCloseInbound 0) (win 1 1) 0x71 [],
     ends (.windowOpenOutbound 0) (win 2 1) 0x71 [], ends (.windowCloseOutbound 0) (win 3 1) 0x71 []].all id = true := by decide +kernel

/-- A port whose partner has this chip's number (R504), the dateline (R508), and training that fails (R505). -/
theorem test_link_bounds :
    let s := ready.setF (F.LNK_STAT_UP 0) 1
    let chip := s.getF F.LNK_CFG_CHIP
    let dup := s.setF (F.LNK_STAT_DUP_CHIP 0) 1
    let got (m : LinkMsg) (s : State) := s.setPort 0 { s.port 0 with rx := setNth (s.port 0).rx m.cls (lnkFlits m) }
    let mine (m : LinkMsg) : LinkMsg := { m with dstc := chip }
    let wait : RxWait := { core := 1, ctx := 0, tok := 0, tag := 1, bind := 0, chip := 2, read := true, rows := [10], awn := false, who := none, lo := 0, n := 0 }
    let waits (s : State) : State := { s with lnk := { s.lnk with waits := [wait] } }
    let bound (s : State) : State := { s with lnk := { s.lnk with ob := vset s.lnk.ob 0 ⟨true, 2, 9, 5, 1⟩ } }
    let gone (t : State) : Bool := (t.port 0).rx.all (·.isEmpty)
    let f (x : Fld) (v : Nat) (s : State) := both s x v
    let gen := f (F.FSG_CTRL_MODE 1) 2 (f (F.FSG_CTRL_ENABLE 1) 1 dup)
    let ring := (((((both s F.LNK_CFG_TOPO 2).setF F.LNK_CFG_CHIP 0).setF (F.LNK_STAT_PEER 0) 4).setF (F.LNK_STAT_UP 1) 1).setReg F.LNK_ROUTE_ROUTE.off 0x200)
    let fails := ({ ready with time := { ready.time with now := 1649205 } }).setPort 0 { ready.port 0 with training := true, trainAt := 5 }
    [ran (.rxferAck { port := 0, set := 0 }) (got (mine (mkLink 2 3 1 2 0)) (waits dup)) (fun t => gone t && t.lnk.waits == [wait]),
     ran (.closeNotice { port := 0, set := 0 }) (got (mine { mkLink 4 1 0 2 0 with win := 9 }) (bound dup)) (fun t => gone t && (vget t.lnk.ob 0).open_),
     still (.linkTimeExchange 0 10 25 25 20) dup, ran (.syncEdgeTime 0 0 1) (got (mine { mkLink 3 1 3 2 0 with win := 1, inl := 99 }) gen) (fun t =>
       gone t && (t.gen 1).linkEdges == []), ran (.windowMessage ⟨0, 0⟩ []) (got (mkLink 0 0 1 2 4) (dup.setReg F.LNK_ROUTE_ROUTE.off 0x200)) (fun t =>
       t.lnk.forwarded == []), ring.dateline 0, ran (.windowMessage ⟨0, 0⟩ []) (got (mkLink 0 0 1 2 4) (ring.setReg F.LNK_ROUTE_ROUTE.off 0x200))
       (fun t => (t.port 1).queue.map (·.vc) == [1]),
     ran (.lnkTrainingFail 0 ⟨1, 0⟩) fails (fun t => t.getF (F.LNK_STAT_FAIL 0) == 1)].all id = true := by decide +kernel

/-- The host paths at their bounds: a register read frame that is refused (R532), a Bulk read by the HSP before the buffer drained
(R535, R536), D3hot (R528), and a control register that only the firmware writes (R547). -/
theorem test_host_bounds :
    let s := ready.setF F.HOST_STATUS_LINK_UP 1
    let busy := s.setBulk 1 { s.bulk 1 with buf := [(64, [1])] }
    let d3 : State := { s with host := { s.host with cfg := { s.host.cfg with pmcsr := 3 } } }
    let mb := F.HOST_MBOX_OUT.off
    let grants := { job0 with grants := [⟨mb, mb, 3⟩] }
    let crw := progWith (wI 0x3F 3 1 0 mb) grants ctx0
    let asks := progWith 0 grants { ctx0 with crWait := some { write := true, off := mb, rd := 1, val := 7 } }
    [s.hspRefuses 2, ran (.hspReadFrame 2 4 0 []) s (fun t => t.host.hspBad), ran (.bulkDataRead 1 4 0) busy (fun t => t.host.hspLate
       && t.wire == [.hsp [0, 0, 0, 0]] && (t.bulk 1).wait == [.late 4 0]), ran (.bulkDataWrite 1 [1, 2, 3, 4]) (s.setF F.PWR_DEV_STATE devStandby)
       (fun t => t.host.hspBad), !d3.pathOpen .host 0 false, s.pathOpen .host 0 false, ran (.crw 0 0) crw (fun t => (t.ctx 0 0).crWait.isSome),
     ran (.controlRegisterAnswer 0 0 env0) asks (fun t => t.getReg mb == asks.getReg mb && (t.ctx 0 0).crWait.isNone)].all id = true := by decide +kernel

/-- Pair rows that wait while the bridge retrains (R54), a swap asked for while another is under way (R53), and the odd core of a
pair that an urgent request asks for (R493). -/
theorem test_retrain_bounds :
    let s := ready
    let busy := { s with brg := { s.brg with training := true, wasUp := false } }
    let h : HeldRow := { seq := 5, ctx := 0, job := 1, eff := .result 0 0 0 true [], since := 0, tag := 0, frame := 0, stripe := 0 }
    let held (s : State) := (s.setCore 0 { s.core 0 with pairHeld := [h] }).setCore 1 { s.core 1 with pairDig := [(5, 0)] }
    let noisy := s.setDir .f2a { s.dir .f2a with lpar := [(3, 200)], swapLane := some 4 }
    let req : TestReq := { todo := [(1, 0, 0)], urgent := true, at_ := 0, deferred := false }
    let job := { job0 with paired := true, inline := false, tiles := [16, 0, 16, 0, 0, 0, 0, 0], recent := [(0, 900, 1000)] }
    let urgent : State := { s with jobs := [job], flt := { s.flt with tests := [req] }, time := { s.time with now := 10 ^ 12 } }
    let n := 5 * 8 + 2 ^ 27
    [busy.brgBusy, busy.rowWaits h, still (.pairDigest 0) (held busy), still (.pairTimeout 0) (held busy), (noisy.freeSpare .f2a).isSome,
     still (.laneSwap .f2a 3) noisy, decide (n < 2 ^ 132), bitsOf n 3 12 != (s.dir .f2a).expect, bitsOf n 27 1 == 1,
     urgent.lends job 0, ran .urgentBorrow urgent (fun t => t.flt.borrow == some (1, 10 ^ 12)
       && t.jobs.all (fun j => j.tilesNext == some [0, 0, 32, 0, 0, 0, 0, 0]))].all id = true := by decide +kernel

/-- The places of the power-management and the MSI-X capability (log entry 131): every one of them lies behind the header, and a dword
far behind them lies in none. -/
theorem test_capabilities : capOf (capAt 0 + 1) = some (0, 1) ∧ capOf (capAt 2) = some (2, 0) ∧ 16 ≤ capAt 0 ∧ 16 ≤ capAt 2 ∧
    capOf 1000 = none := by
  have g (i : Nat) : Config.capGap i % 10 < 10 := Nat.mod_lt _ (by decide)
  have a0 := g 0; have a1 := g 1; have a2 := g 2; have a4 := g 4; have a5 := g 5
  have l : capLen 0 = 2 ∧ capLen 1 = 15 ∧ capLen 2 = 3 ∧ capLen 3 = 11 ∧ capLen 4 = 3 ∧ capLen 5 = 2 := ⟨rfl, rfl, rfl, rfl, rfl, rfl⟩
  have c : capAt 0 = 16 + Config.capGap 0 % 10 ∧ capAt 1 = 18 + Config.capGap 0 % 10 + Config.capGap 1 % 10 ∧
      capAt 2 = 33 + Config.capGap 0 % 10 + Config.capGap 1 % 10 + Config.capGap 2 % 10 ∧ capAt 3 = 64 ∧
      capAt 4 = 75 + Config.capGap 4 % 10 ∧ capAt 5 = 78 + Config.capGap 4 % 10 + Config.capGap 5 % 10 := ⟨rfl, rfl, rfl, rfl, rfl, rfl⟩
  have f (d : Nat) : capOf d = ((([0, 1, 2, 3, 4, 5] : List Nat).find? (fun i => decide (capAt i ≤ d ∧ d < capAt i + capLen i))).map
    (fun i => (i, d - capAt i))) := rfl
  refine ⟨?_, ?_, by omega, by omega, ?_⟩
  · rw [f, List.find?_cons_of_pos (by simp; omega)]; simp
  · rw [f, List.find?_cons_of_neg (by simp; omega), List.find?_cons_of_neg (by simp; omega), List.find?_cons_of_pos (by simp; omega)]; simp
  · rw [f, List.find?_eq_none.2 (by simp; omega)]; rfl

end Sys2Proof.Tests
end

section
/-! PROOF. O19: the widths of register accesses (R14 to R16) and the upper halves that a read of a lower half latches (R87, R456). -/

namespace Sys2Proof.Machine

/-! ### The writes of one master in a cycle -/

/-- Writes of one cycle to different registers, none of which has been written in it: each is its access, in order. -/
theorem State.cycleWrites_distinct (e : WriteEnv) : ∀ (l : List RegWrite) (done : List (Nat × Nat)) (s : State),
    (l.map RegWrite.off).Nodup → (∀ w ∈ l, ∀ d ∈ done, d.1 ≠ w.off) →
    State.cycleWrites e l done s = l.foldl (fun s w => s.accWrite e w) s
  | [], _, _, _, _ => rfl
  | w :: l, done, s, hn, hd => by
    rw [List.map_cons, List.nodup_cons] at hn
    have hw : ∀ d ∈ done, d.1 ≠ w.off := hd w List.mem_cons_self
    have ran : done.foldl (fun a d => if d.1 = w.off then a ||| sameAction w.off d.2 w.val else a) 0 = 0 :=
      (List.foldl_ext _ (fun a _ => a) 0 fun _ d h => if_neg (hw d h)).trans (List.foldl_fixed done)
    have fresh : done.contains (w.off, w.val) = false := by
      simpa using fun h => hw _ h rfl
    have rest (b : Bool) : ∀ x ∈ l, ∀ d ∈ (if b then (w.off, w.val) :: done else done), d.1 ≠ x.off := by
      intro x hx d h
      have hne : w.off ≠ x.off := fun h' => hn.1 (h' ▸ List.mem_map_of_mem hx)
      cases b with
      | false => exact hd x (List.mem_cons_of_mem _ hx) d h
      | true =>
        rcases List.mem_cons.1 h with rfl | h
        · exact hne
        · exact hd x (List.mem_cons_of_mem _ hx) d h
    unfold State.cycleWrites
    simp only [ran, fresh, Nat.and_zero, Nat.sub_zero, bne_self_eq_false, Bool.false_and, Bool.or_self, Bool.and_false,
      Bool.false_eq_true, if_false]
    exact State.cycleWrites_distinct e l _ _ hn.2 (rest _)

/-- The writes of one master keep their order. -/
theorem cycleOrder_of_master (m : Master) (l : List RegWrite) (h : ∀ w ∈ l, w.m = m) : cycleOrder l = l := by
  have part (q : Master) : l.filter (fun w => w.m == q) = if m = q then l else [] := by
    split
    · rename_i e
      exact List.filter_eq_self.2 fun w hw => by simp [h w hw, e]
    · rename_i e
      exact List.filter_eq_nil_iff.2 fun w hw => by simp [h w hw, e]
  unfold cycleOrder
  cases m <;> simp [part]

/-- One master does not collide with itself. -/
theorem collides_of_master (m : Master) (l : List RegWrite) (h : ∀ w ∈ l, w.m = m) : collides l = false := by
  simp only [collides, List.any_eq_false, Bool.not_eq_true]
  intro a ha b hb
  simp [h a ha, h b hb]

/-- A register write by one master whose words are different registers is the accesses of these words, in order. -/
theorem exec_registerWrite_of_master (e : WriteEnv) (m : Master) (l : List RegWrite) (s : State)
    (hm : ∀ w ∈ l.flatMap RegWrite.words, w.m = m) (hn : ((l.flatMap RegWrite.words).map RegWrite.off).Nodup) :
    exec (.registerWrite e l) s = .next ((l.flatMap RegWrite.words).foldl (fun s w => s.accWrite e w) s) := by
  change execRegisterWrite e l s = _
  simp only [execRegisterWrite, collides_of_master m _ hm, cycleOrder_of_master m _ hm]
  rw [State.cycleWrites_distinct e _ _ _ hn (by simp)]
  rfl

/-- A write that is not a 64-bit one of whole words is one access. -/
theorem exec_registerWrite_single (e : WriteEnv) (w : RegWrite) (s : State) (h : ¬ (w.off % 4 = 0 ∧ w.width = 8)) :
    exec (.registerWrite e [w]) s = .next (s.accWrite e w) := by
  have hw : [w].flatMap RegWrite.words = [w] := by simp [RegWrite.words, h]
  rw [exec_registerWrite_of_master e w.m [w] s (by simp [hw]) (by simp [hw]), hw]
  rfl

/-- A 64-bit write of whole words is two accesses, the lower address first (R14). -/
theorem exec_registerWrite_double (e : WriteEnv) (m : Master) (off v : Nat) (s : State) (h : off % 4 = 0) :
    exec (.registerWrite e [⟨m, off, 8, v⟩]) s =
      .next ((s.accWrite e ⟨m, off, 4, v % 2 ^ 32⟩).accWrite e ⟨m, off + 4, 4, v / 2 ^ 32⟩) := by
  have hw : [(⟨m, off, 8, v⟩ : RegWrite)].flatMap RegWrite.words = [⟨m, off, 4, v % 2 ^ 32⟩, ⟨m, off + 4, 4, v / 2 ^ 32⟩] := by
    simp [RegWrite.words, h]
  rw [exec_registerWrite_of_master e m _ s (by simp [hw]) (by simp [hw]), hw]
  rfl

/-- A write of any other width or alignment is dropped with BAD_WIDTH, when its path is open (R16). -/
theorem State.accWrite_refused (s : State) (e : WriteEnv) (m : Master) (off n v : Nat)
    (h : ¬ (off % 4 = 0 ∧ (n = 4 ∨ n = 8))) (hp : s.pathOpen m off true = true) :
    s.accWrite e ⟨m, off, n, v⟩ = s.glbError F.GLB_STATUS_BAD_WIDTH := by
  unfold State.accWrite
  rw [if_neg fun c => h ⟨c.1, .inl c.2⟩, if_neg fun c => h ⟨c.1, .inr c.2⟩, if_pos hp]

/-! ### Reads by width -/

theorem exec_registerRead (m : Master) (off n : Nat) (s : State) :
    exec (.registerRead m off n) s =
      .next ((s.accRead m off n).2.emit (.answer (masterRank m) (s.accRead m off n).1 false)) := rfl

/-- A 64-bit read of whole words is two reads, the lower address first (R14). -/
theorem State.accRead_double (s : State) (m : Master) {off : Nat} (h : off % 4 = 0) :
    s.accRead m off 8 =
      ((s.ctlRead m off).1.toNat + ((s.ctlRead m off).2.ctlRead m (off + 4)).1.toNat * 2 ^ 32,
        ((s.ctlRead m off).2.ctlRead m (off + 4)).2) := by
  unfold State.accRead
  rw [if_pos ⟨rfl, h⟩]

/-- A read within a word reads that word and returns the addressed bytes (R15). -/
theorem State.accRead_narrow (s : State) (m : Master) {off n : Nat} (h0 : 0 < n) (h : off % 4 + n ≤ 4) :
    s.accRead m off n =
      (bitsOf (s.ctlRead m (off - off % 4)).1.toNat (8 * (off % 4)) (8 * n), (s.ctlRead m (off - off % 4)).2) := by
  unfold State.accRead
  rw [if_neg (by omega), if_pos (by omega)]

/-- A read of a whole word. -/
theorem State.accRead_word (s : State) (m : Master) {off : Nat} (h : off % 4 = 0) :
    s.accRead m off 4 = ((s.ctlRead m off).1.toNat, (s.ctlRead m off).2) := by
  rw [s.accRead_narrow m (by omega) (by omega), h, Nat.sub_zero]
  simp [bitsOf, Nat.mod_eq_of_lt (s.ctlRead m off).1.isLt]

/-- A read of any other width or alignment returns zero, with BAD_WIDTH (R15). -/
theorem State.accRead_refused (s : State) (m : Master) {off n : Nat} (h : ¬ (0 < n ∧ off % 4 + n ≤ 4))
    (h8 : ¬ (n = 8 ∧ off % 4 = 0)) : s.accRead m off n = (0, s.glbError F.GLB_STATUS_BAD_WIDTH) := by
  unfold State.accRead
  rw [if_neg h8, if_neg fun c => h c.2]

/-- A GLB_STATUS error bit is set once it has been raised. -/
theorem State.getF_glbError_same (s : State) {f : Fld} (h : mwf resetWord s.regs = true) (hf : f.lo + f.w ≤ 32)
    (hw : 0 < f.w) (ho : f.off ≠ F.HOST_ICAUSE.off) : (s.glbError f).getF f = 1 := by
  rw [State.glbError, State.getF_raiseCause _ _ ho, s.getF_setF_same f 1 h hf, Nat.one_mod_two_pow hw]

/-! ### Paths and values of reads -/

/-- Outside GLB, a read's path is open for the registers of a block alike. -/
theorem State.pathOpen_read_block (s : State) (m : Master) {o a : Nat} (h : blockOf a = blockOf o) (h0 : blockOf o ≠ 0) :
    s.pathOpen m a false = s.pathOpen m o false := by
  have low {x : Nat} (hx : blockOf x ≠ 0) : (x == 0) = false ∧ (x == 4) = false := by
    unfold blockOf at hx
    exact ⟨beq_false_of_ne (by omega), beq_false_of_ne (by omega)⟩
  unfold State.pathOpen
  cases m with
  | lcp | link => rfl
  | host | hsp => simp only [h, low h0, low (h ▸ h0), Bool.false_eq_true, if_false]

/-- A field of a register after another register is written. -/
theorem State.getF_setReg_ne (s : State) {f : Fld} {a : Nat} (v : Word) (h : f.off ≠ a) :
    (s.setReg a v).getF f = s.getF f := by
  unfold State.getF
  rw [s.getReg_setReg_ne v h]

theorem State.flag_setReg_ne (s : State) {f : Fld} {a : Nat} (v : Word) (h : f.off ≠ a) :
    (s.setReg a v).flag f = s.flag f := by
  unfold State.flag
  rw [s.getF_setReg_ne v h]

/-- The paths depend on three registers only. -/
theorem State.pathOpen_setReg (s : State) (m : Master) (o : Nat) (w : Bool) {a : Nat} (v : Word)
    (h : a ∉ [F.PWR_DEV_STATE.off, F.SEC_STATUS_UNLOCK_MODE.off, F.SEC_BOOT_CODE.off]) :
    (s.setReg a v).pathOpen m o w = s.pathOpen m o w := by
  simp only [List.mem_cons, List.not_mem_nil, or_false, not_or] at h
  obtain ⟨hd, hu, hb⟩ := h
  have dev : (s.setReg a v).dev = s.dev := s.getF_setReg_ne v (Ne.symm hd)
  unfold State.pathOpen
  rw [dev, s.flag_setReg_ne v (Ne.symm hu), s.getF_setReg_ne v (Ne.symm hb)]
  rfl

theorem State.brgUp_setReg (s : State) {a : Nat} (v : Word) (h : F.BRG_STATUS_UP.off ≠ a) :
    (s.setReg a v).brgUp = s.brgUp := s.flag_setReg_ne v h

/-- A register's read reaches it: its path is open, and the Aft half can be reached (R33). -/
structure State.Reads (s : State) (m : Master) (off : Nat) : Prop where
  path : s.pathOpen m off false = true
  aft : aftBlock off = true → s.brgUp = true

/-- Where a read of a register reaches it, so does one of another register of its block, also after the latter has changed. -/
theorem State.Reads.setReg {s : State} {m : Master} {o a : Nat} (r : s.Reads m o) (v : Word) (h : blockOf a = blockOf o)
    (h0 : blockOf o ≠ 0) (ha : a ∉ [F.PWR_DEV_STATE.off, F.SEC_STATUS_UNLOCK_MODE.off, F.SEC_BOOT_CODE.off])
    (hu : F.BRG_STATUS_UP.off ≠ a) : (s.setReg a v).Reads m a where
  path := by rw [s.pathOpen_setReg m a false v ha, s.pathOpen_read_block m h h0, r.path]
  aft hb := by
    rw [s.brgUp_setReg v hu]
    exact r.aft (by simpa only [aftBlock, h] using hb)

theorem State.Reads.not_refused {s : State} {m : Master} {off : Nat} (r : s.Reads m off) :
    (!s.pathOpen m off false || (aftBlock off && !s.brgUp)) = false := by
  rw [r.path]
  cases h : aftBlock off with
  | false => rfl
  | true => rw [r.aft h]; rfl

theorem State.Reads.regRead {s : State} {m : Master} {off : Nat} (r : s.Reads m off) :
    s.regRead m off = (s.seeReg off, s) := by
  obtain ⟨path, aft⟩ := Bool.or_eq_false_iff.1 r.not_refused
  unfold State.regRead
  rw [path, aft]
  rfl

/-- In a core's block, the registers behind the row range table are not computed when read. -/
theorem State.seeReg_core (s : State) {off : Nat} (h : 0x100000 ≤ off) (h' : 0x200 ≤ off % 65536) :
    s.seeReg off = s.getReg off := by
  have low {o : Nat} (ho : o < 0x100000) : off ≠ o := by omega
  have live : s.liveReg off = none := by
    unfold State.liveReg
    dsimp only
    iterate 16 rw [if_neg (low (by decide))]
    rw [if_neg (by omega), if_neg (low (by decide)), if_neg (by omega), if_neg (by omega)]
    split
    · iterate 6 rw [if_neg (by omega)]
    · rfl
  rw [State.seeReg, live, Option.getD_none]

/-- A read that neither latches nor looks into a table or a meter shows the register and changes nothing. -/
theorem State.Reads.ctlRead_plain {s : State} {m : Master} {off : Nat} (r : s.Reads m off)
    (h : off ∉ [F.TIME_NOW_LO_NOW_LO.off, F.EDGE_LOAD_LOAD.off]) (ht : ¬ (0x048000 ≤ off ∧ off < 0x04C000))
    (hd : off % 65536 ≠ 0x23C) : s.ctlRead m off = (s.seeReg off, s) := by
  simp only [List.mem_cons, List.not_mem_nil, or_false, not_or] at h
  have hres : off ≠ (F.DIG_RES_LO (coreOfOff off)).off := by
    simp only [F.DIG_RES_LO]
    omega
  unfold State.ctlRead
  rw [if_neg (by simp [r.not_refused]), if_neg h.1, if_neg h.2, if_neg ht, if_neg (by simp [hres]), r.regRead]

/-! ### The latches -/

/-- A read of TIME_NOW_LO shows the lower half of DTIME and latches the upper one (R87). -/
theorem State.Reads.ctlRead_timeNowLo {s : State} {m : Master} (r : s.Reads m F.TIME_NOW_LO_NOW_LO.off) :
    s.ctlRead m F.TIME_NOW_LO_NOW_LO.off =
      (BitVec.ofNat 32 s.time.now, s.setReg F.TIME_NOW_HI_NOW_HI.off (BitVec.ofNat 32 (s.time.now / 2 ^ 32))) := by
  unfold State.ctlRead
  rw [if_neg (by simp [r.not_refused]), if_pos rfl]

theorem State.Reads.ctlRead_timeNowHi {s : State} {m : Master} (r : s.Reads m F.TIME_NOW_HI_NOW_HI.off) :
    s.ctlRead m F.TIME_NOW_HI_NOW_HI.off = (s.getReg F.TIME_NOW_HI_NOW_HI.off, s) := by
  rw [r.ctlRead_plain (by decide) (by decide) (by decide)]
  rfl

theorem coreOfOff_digResLo (k : Fin 8) : coreOfOff (F.DIG_RES_LO k).off = k := by
  have := k.isLt
  apply Fin.ext
  simp only [coreOfOff, coreOf, blockOf, F.DIG_RES_LO]
  omega

/-- A read of DIG_RES_LO shows the lower half of the digest and latches the upper one (R456). -/
theorem State.Reads.ctlRead_digResLo {s : State} {m : Master} {k : Fin 8} (r : s.Reads m (F.DIG_RES_LO k).off) :
    s.ctlRead m (F.DIG_RES_LO k).off =
      (s.getReg (F.DIG_RES_LO k).off, s.setReg (F.DIG_RES_HI k).off (s.core k).digHi) := by
  have hk := k.isLt
  have lo : (F.DIG_RES_LO k).off = 0x10023C + 0x10000 * k.val := rfl
  have high {o : Nat} (ho : o < 0x100000) : (F.DIG_RES_LO k).off ≠ o := by omega
  unfold State.ctlRead
  simp only [coreOfOff_digResLo, and_true]
  rw [if_neg (by simp [r.not_refused]), if_neg (high (by decide)), if_neg (high (by decide)), if_neg (by omega),
    if_pos (by omega), s.seeReg_core (by omega) (by omega)]

theorem State.Reads.ctlRead_digResHi {s : State} {m : Master} {k : Fin 8} (r : s.Reads m (F.DIG_RES_HI k).off) :
    s.ctlRead m (F.DIG_RES_HI k).off = (s.getReg (F.DIG_RES_HI k).off, s) := by
  have hi : (F.DIG_RES_HI k).off = 0x100240 + 0x10000 * k.val := rfl
  have high {o : Nat} (ho : o < 0x100000) : (F.DIG_RES_HI k).off ≠ o := by omega
  rw [r.ctlRead_plain (by simp [high (show F.TIME_NOW_LO_NOW_LO.off < 0x100000 by decide),
    high (show F.EDGE_LOAD_LOAD.off < 0x100000 by decide)]) (by omega) (by omega), s.seeReg_core (by omega) (by omega)]

theorem exec_timeNowLoRead (m : Master) (s : State) :
    exec (.timeNowLoRead m) s = .next ((s.ctlRead m F.TIME_NOW_LO_NOW_LO.off).2.emit
      (.answer (masterRank m) (s.ctlRead m F.TIME_NOW_LO_NOW_LO.off).1.toNat false)) := rfl

theorem exec_digResLoRead (k : Fin 8) (m : Master) (s : State) :
    exec (.digResLoRead k m) s = .next ((s.ctlRead m (F.DIG_RES_LO k).off).2.emit
      (.answer (masterRank m) (s.ctlRead m (F.DIG_RES_LO k).off).1.toNat false)) := rfl

end Sys2Proof.Machine

namespace Sys2Proof

open Machine

/-- A refused access changes the status registers only, and sets BAD_WIDTH (R15, R16). -/
theorem Machine.State.badWidth_only (s : State) : RegsOnly statusRegs s (s.glbError F.GLB_STATUS_BAD_WIDTH) ∧
    (mwf resetWord s.regs = true → (s.glbError F.GLB_STATUS_BAD_WIDTH).getF F.GLB_STATUS_BAD_WIDTH = 1) :=
  ⟨s.glbError_only _, fun h => s.getF_glbError_same h (by decide) (by decide) (by decide)⟩

/-- The upper half that a read of TIME_NOW_LO latches is what a read of TIME_NOW_HI then shows (R87). -/
theorem timeNow_latched (m : Master) (s : State) (hs : mwf resetWord s.regs = true)
    (r : s.Reads m F.TIME_NOW_LO_NOW_LO.off) :
    let t := s.setReg F.TIME_NOW_HI_NOW_HI.off (BitVec.ofNat 32 (s.time.now / 2 ^ 32))
    exec (.timeNowLoRead m) s = .next (t.emit (.answer (masterRank m) (s.time.now % 2 ^ 32) false)) ∧
      exec (.registerRead m F.TIME_NOW_HI_NOW_HI.off 4) t =
        .next (t.emit (.answer (masterRank m) (s.time.now / 2 ^ 32 % 2 ^ 32) false)) := by
  intro t
  have hi : t.Reads m F.TIME_NOW_HI_NOW_HI.off := r.setReg _ (by decide) (by decide) (by decide) (by decide)
  constructor
  · rw [exec_timeNowLoRead, r.ctlRead_timeNowLo, BitVec.toNat_ofNat]
  · rw [exec_registerRead, t.accRead_word m (by decide), hi.ctlRead_timeNowHi, s.getReg_setReg_same _ _ hs,
      BitVec.toNat_ofNat]

/-- The upper half that a read of DIG_RES_LO latches is what a read of DIG_RES_HI then shows (R456). -/
theorem digRes_latched (m : Master) (k : Fin 8) (s : State) (hs : mwf resetWord s.regs = true)
    (r : s.Reads m (F.DIG_RES_LO k).off) :
    let t := s.setReg (F.DIG_RES_HI k).off (s.core k).digHi
    exec (.digResLoRead k m) s = .next (t.emit (.answer (masterRank m) (s.getReg (F.DIG_RES_LO k).off).toNat false)) ∧
      exec (.registerRead m (F.DIG_RES_HI k).off 4) t =
        .next (t.emit (.answer (masterRank m) (s.core k).digHi.toNat false)) := by
  intro t
  have lo : (F.DIG_RES_LO k).off = 0x10023C + 0x10000 * k.val := rfl
  have hi : (F.DIG_RES_HI k).off = 0x100240 + 0x10000 * k.val := rfl
  have high {o : Nat} (ho : o < 0x100000) : (F.DIG_RES_HI k).off ≠ o := by omega
  have reads : t.Reads m (F.DIG_RES_HI k).off := r.setReg _ (by unfold blockOf; omega) (by unfold blockOf; omega)
    (by simp [high (show F.PWR_DEV_STATE.off < 0x100000 by decide), high (show F.SEC_STATUS_UNLOCK_MODE.off < 0x100000 by decide),
      high (show F.SEC_BOOT_CODE.off < 0x100000 by decide)]) (high (by decide)).symm
  constructor
  · rw [exec_digResLoRead, r.ctlRead_digResLo]
  · rw [exec_registerRead, t.accRead_word m (by omega), reads.ctlRead_digResHi, s.getReg_setReg_same _ _ hs]

/-- Settles O19: by the width of the access, and by the reads of the two latching registers. -/
theorem registerAccessAndLatches : Obligations.RegisterAccessAndLatches := by
  unfold Obligations.RegisterAccessAndLatches
  refine ⟨fun e m off n v s => ⟨fun h => ?double, fun h hp => ?dropped, fun h => ?both, fun h0 h => ?narrow,
    fun h h8 => ?refused⟩, fun m k s hs => ⟨fun ⟨path, aft⟩ => ?time, fun ⟨path, aft⟩ => ?digest⟩⟩
  case double =>
    exact ⟨_, exec_registerWrite_single e _ s (by simp), by
      rw [exec_registerWrite_double e m off v s h, exec_registerWrite_single e _ _ (by simp)]⟩
  case dropped =>
    refine ⟨_, ?_, s.badWidth_only⟩
    rw [exec_registerWrite_single e _ s (fun c => h ⟨c.1, .inr c.2⟩), s.accWrite_refused e m off n v h hp]
  case both =>
    exact ⟨_, _, _, _, by rw [exec_registerRead, s.accRead_word m h],
      by rw [exec_registerRead, State.accRead_word _ m (by omega)], by rw [exec_registerRead, s.accRead_double m h]⟩
  case narrow =>
    refine ⟨_, _, by rw [exec_registerRead, s.accRead_word m (by omega)], ?_⟩
    rw [exec_registerRead, s.accRead_narrow m h0 h]
    rfl
  case refused =>
    exact ⟨_, by rw [exec_registerRead, s.accRead_refused m h h8], s.badWidth_only⟩
  case time =>
    obtain ⟨lo, hi⟩ := timeNow_latched m s hs ⟨path, aft⟩
    exact ⟨_, lo, s.setReg_only _ _, hi⟩
  case digest =>
    obtain ⟨lo, hi⟩ := digRes_latched m k s hs ⟨path, aft⟩
    exact ⟨_, lo, s.setReg_only _ _, hi⟩

end Sys2Proof
end

section
/-! PROOF. O25: the edges of the frame-sync generators (R92 to R94, R520), the trigger outputs (R133) and SENSOR_RST_N (R134). -/

namespace Sys2Proof.Machine

/-! ### Values taken into force (R21, R22) -/

/-- Taking registers into force changes the values in force only. -/
theorem State.takeForces_frame (s : State) (l : List Nat) : s.takeForces l = { s with force := (s.takeForces l).force } := by
  unfold State.takeForces
  induction l generalizing s with
  | nil => rfl
  | cons a l ih =>
    rw [List.foldl_cons, ih]
    rfl

@[simp] theorem State.takeForces_regs (s : State) (l : List Nat) : (s.takeForces l).regs = s.regs := by
  rw [s.takeForces_frame l]
@[simp] theorem State.takeForces_getReg (s : State) (l : List Nat) (o : Nat) : (s.takeForces l).getReg o = s.getReg o := by
  rw [s.takeForces_frame l]; rfl
@[simp] theorem State.takeForces_getF (s : State) (l : List Nat) (f : Fld) : (s.takeForces l).getF f = s.getF f := by
  rw [s.takeForces_frame l]; rfl

theorem State.takeForces_force_wf {s : State} (l : List Nat) (h : mwf resetWord s.force = true) :
    mwf resetWord (s.takeForces l).force = true := by
  unfold State.takeForces
  induction l generalizing s with
  | nil => exact h
  | cons a l ih => exact ih (mwf_mset _ _ _ _ h)

/-- A register in force after some are taken into force: its written word when it is one of them. -/
theorem State.inForce_takeForces {s : State} (l : List Nat) (h : mwf resetWord s.force = true) (o : Nat) :
    (s.takeForces l).inForce o = if o ∈ l then s.getReg o else s.inForce o := by
  unfold State.takeForces
  induction l generalizing s with
  | nil => simp
  | cons a l ih =>
    rw [List.foldl_cons, ih (mwf_mset _ _ _ _ h), State.takeForce_getReg]
    by_cases ho : o = a
    · subst ho
      have here : (s.takeForce o).inForce o = s.getReg o := mget_mset_same _ _ _ _ h
      simp [here]
    · have away : (s.takeForce a).inForce o = s.inForce o := mget_mset_ne _ ho _ _
      simp [away, ho]

theorem State.forceF_takeForces_mem {s : State} {l : List Nat} {f : Fld} (h : mwf resetWord s.force = true) (hf : f.off ∈ l) :
    (s.takeForces l).forceF f = s.getF f := by
  unfold State.forceF
  rw [State.inForce_takeForces l h, if_pos hf]
  rfl

theorem State.forceF_takeForces_notMem {s : State} {l : List Nat} {f : Fld} (h : mwf resetWord s.force = true)
    (hf : f.off ∉ l) : (s.takeForces l).forceF f = s.forceF f := by
  unfold State.forceF
  rw [State.inForce_takeForces l h, if_neg hf]

/-! ### Generators and triggers in the state -/

@[simp] theorem State.gen_setGen_same (s : State) (n : Fin 4) (g : FsgSt) : (s.setGen n g).gen n = g := vget_vset_same ..

theorem State.gen_setGen_ne (s : State) {n q : Fin 4} (g : FsgSt) (h : q ≠ n) : (s.setGen n g).gen q = s.gen q :=
  vget_vset_ne _ h _

@[simp] theorem State.trig_setTrig_same (s : State) (t : Fin 2) (x : TrigSt) : (s.setTrig t x).trig t = x := vget_vset_same ..

theorem State.trig_setTrig_ne (s : State) {t q : Fin 2} (x : TrigSt) (h : q ≠ t) : (s.setTrig t x).trig q = s.trig q :=
  vget_vset_ne _ h _

@[simp] theorem State.setTrig_setTrig (s : State) (t : Fin 2) (x y : TrigSt) :
    (s.setTrig t x).setTrig t y = s.setTrig t y := by
  unfold State.setTrig vset
  simp

/-! ### Triggers that take an edge (R133) -/

/-- What one trigger does at an edge of a generator: one round of `State.trigEdges`. -/
def State.trigTake (s : State) (n : Fin 4) (e : Nat) (q : Fin 2) : State :=
  let s := if s.getF (F.IN_TRIG_GEN q) = n.val then s.takeForces (trigRegs q) else s
  if s.forceF (F.IN_TRIG_ENABLE q) = 1 ∧ s.forceF (F.IN_TRIG_GEN q) = n.val then
    s.setTrig q { s.trig q with
      due := (s.trig q).due ++ [(e + s.forceF (F.IN_TRIG_DELAY q), s.forceF (F.IN_TRIG_WIDTH q))] }
  else s

theorem State.trigEdges_eq (s : State) (n : Fin 4) (e : Nat) :
    s.trigEdges n e = (s.trigTake n e 0).trigTake n e 1 := rfl

/-- A trigger that takes an edge changes values in force and triggers only. -/
theorem State.trigTake_frame (s : State) (n : Fin 4) (e : Nat) (q : Fin 2) : s.trigTake n e q =
    { s with force := (s.trigTake n e q).force, intake := { s.intake with trig := (s.trigTake n e q).intake.trig } } := by
  have pulse (u : State) (hu : u = { s with force := u.force }) (x : TrigSt) : u.setTrig q x =
      { s with force := (u.setTrig q x).force, intake := { s.intake with trig := (u.setTrig q x).intake.trig } } := by
    rw [hu]; rfl
  have keep (u : State) (hu : u = { s with force := u.force }) : u =
      { s with force := u.force, intake := { s.intake with trig := u.intake.trig } } := by rw [hu]
  have taken := s.takeForces_frame (trigRegs q)
  unfold State.trigTake
  dsimp only
  split_ifs
  · exact pulse _ taken _
  · exact keep _ taken
  · exact pulse s rfl _
  · rfl

@[simp] theorem State.trigTake_getF (s : State) (n : Fin 4) (e : Nat) (q : Fin 2) (f : Fld) :
    (s.trigTake n e q).getF f = s.getF f := by
  rw [s.trigTake_frame n e q]; rfl

theorem State.trigTake_force_wf {s : State} (n : Fin 4) (e : Nat) (q : Fin 2) (h : mwf resetWord s.force = true) :
    mwf resetWord (s.trigTake n e q).force = true := by
  unfold State.trigTake
  dsimp only
  split_ifs
  · exact State.takeForces_force_wf _ h
  · exact State.takeForces_force_wf _ h
  · exact h
  · exact h

/-- A trigger that takes an edge leaves the other trigger as it was. -/
theorem State.trigTake_trig_ne (s : State) (n : Fin 4) (e : Nat) {q r : Fin 2} (h : r ≠ q) :
    (s.trigTake n e q).trig r = s.trig r := by
  have taken : (s.takeForces (trigRegs q)).trig r = s.trig r := by rw [s.takeForces_frame]; rfl
  unfold State.trigTake
  dsimp only
  split_ifs
  · rw [State.trig_setTrig_ne _ _ h, taken]
  · exact taken
  · exact s.trig_setTrig_ne _ h
  · rfl

/-- A trigger that takes an edge leaves the values in force of every other register as they were. -/
theorem State.trigTake_forceF {s : State} (n : Fin 4) (e : Nat) {q : Fin 2} {f : Fld} (h : mwf resetWord s.force = true)
    (hf : f.off ∉ trigRegs q) : (s.trigTake n e q).forceF f = s.forceF f := by
  have taken := State.forceF_takeForces_notMem h hf
  unfold State.trigTake
  dsimp only
  split_ifs
  · exact taken
  · exact taken
  · rfl
  · rfl

/-- A trigger follows a generator: by the words last written, which come into force at the generator's edge. -/
def State.follows (s : State) (n : Fin 4) (q : Fin 2) : Prop :=
  s.getF (F.IN_TRIG_GEN q) = n.val ∧ s.getF (F.IN_TRIG_ENABLE q) = 1

/-- A trigger that has taken an edge at `e`, with its DELAY and WIDTH as written. -/
def State.trigWith (s : State) (e : Nat) (q : Fin 2) : TrigSt :=
  { s.trig q with due := (s.trig q).due ++ [(e + s.getF (F.IN_TRIG_DELAY q), s.getF (F.IN_TRIG_WIDTH q))] }

/-- The fields of a trigger's registers that a taken edge brings into force. -/
theorem trigFields_mem (q : Fin 2) : (F.IN_TRIG_ENABLE q).off ∈ trigRegs q ∧ (F.IN_TRIG_GEN q).off ∈ trigRegs q ∧
    (F.IN_TRIG_DELAY q).off ∈ trigRegs q ∧ (F.IN_TRIG_WIDTH q).off ∈ trigRegs q := by
  revert q
  decide

theorem State.trigTake_follows {s : State} {n : Fin 4} (e : Nat) {q : Fin 2} (h : mwf resetWord s.force = true)
    (hq : s.follows n q) : (s.trigTake n e q).trig q = s.trigWith e q := by
  obtain ⟨gen, on⟩ := hq
  obtain ⟨mE, mG, mD, mW⟩ := trigFields_mem q
  have same : (s.takeForces (trigRegs q)).trig q = s.trig q := by rw [s.takeForces_frame]; rfl
  unfold State.trigTake
  dsimp only
  rw [if_pos gen, State.forceF_takeForces_mem h mE, State.forceF_takeForces_mem h mG, State.forceF_takeForces_mem h mD,
    State.forceF_takeForces_mem h mW, if_pos ⟨on, gen⟩, State.trig_setTrig_same, same]
  rfl

/-- A trigger that follows another generator, or none, takes no edge. -/
theorem State.trigTake_stays {s : State} {n : Fin 4} (e : Nat) {q : Fin 2} (h : mwf resetWord s.force = true)
    (hq : ¬ s.follows n q) (hg : s.getF (F.IN_TRIG_GEN q) = n.val ∨ s.forceF (F.IN_TRIG_GEN q) ≠ n.val) :
    (s.trigTake n e q).trig q = s.trig q := by
  obtain ⟨mE, -, -, -⟩ := trigFields_mem q
  unfold State.trigTake
  dsimp only
  by_cases gen : s.getF (F.IN_TRIG_GEN q) = n.val
  · rw [if_pos gen, State.forceF_takeForces_mem h mE, if_neg (fun on => hq ⟨gen, on.1⟩), s.takeForces_frame]
    rfl
  · have away := hg.resolve_left gen
    rw [if_neg gen, if_neg (fun on => away on.2)]

/-! The two triggers take an edge one after the other, and neither sees the other. -/

theorem State.trigEdges_frame (s : State) (n : Fin 4) (e : Nat) : s.trigEdges n e =
    { s with force := (s.trigEdges n e).force, intake := { s.intake with trig := (s.trigEdges n e).intake.trig } } := by
  rw [s.trigEdges_eq, State.trigTake_frame, s.trigTake_frame n e 0]

@[simp] theorem State.trigEdges_regs (s : State) (n : Fin 4) (e : Nat) : (s.trigEdges n e).regs = s.regs := by
  rw [s.trigEdges_frame n e]

@[simp] theorem State.trigEdges_getF (s : State) (n : Fin 4) (e : Nat) (f : Fld) : (s.trigEdges n e).getF f = s.getF f := by
  rw [s.trigEdges_frame n e]; rfl

@[simp] theorem State.trigEdges_gen (s : State) (n : Fin 4) (e : Nat) (q : Fin 4) : (s.trigEdges n e).gen q = s.gen q := by
  rw [s.trigEdges_frame n e]; rfl

theorem State.trigEdges_forceF {s : State} (n : Fin 4) (e : Nat) {f : Fld} (h : mwf resetWord s.force = true)
    (h0 : f.off ∉ trigRegs 0) (h1 : f.off ∉ trigRegs 1) : (s.trigEdges n e).forceF f = s.forceF f := by
  rw [s.trigEdges_eq, State.trigTake_forceF n e (State.trigTake_force_wf n e 0 h) h1, State.trigTake_forceF n e h h0]

theorem State.trigEdges_follows {s : State} {n : Fin 4} (e : Nat) {q : Fin 2} (h : mwf resetWord s.force = true)
    (hq : s.follows n q) : (s.trigEdges n e).trig q = s.trigWith e q := by
  rw [s.trigEdges_eq]
  match q, hq with
  | 0, hq => rw [State.trigTake_trig_ne _ n e (by decide), State.trigTake_follows e h hq]
  | 1, hq =>
    have hq' : (s.trigTake n e 0).follows n 1 := by simpa [State.follows] using hq
    rw [State.trigTake_follows e (State.trigTake_force_wf n e 0 h) hq']
    simp [State.trigWith, State.trigTake_trig_ne]

theorem State.trigEdges_stays {s : State} {n : Fin 4} (e : Nat) {q : Fin 2} (h : mwf resetWord s.force = true)
    (hq : ¬ s.follows n q) (hg : s.getF (F.IN_TRIG_GEN q) = n.val ∨ s.forceF (F.IN_TRIG_GEN q) ≠ n.val) :
    (s.trigEdges n e).trig q = s.trig q := by
  rw [s.trigEdges_eq]
  match q, hq, hg with
  | 0, hq, hg => rw [State.trigTake_trig_ne _ n e (by decide), State.trigTake_stays e h hq hg]
  | 1, hq, hg =>
    have hq' : ¬ (s.trigTake n e 0).follows n 1 := by simpa [State.follows] using hq
    have hg' : (s.trigTake n e 0).getF (F.IN_TRIG_GEN 1) = n.val ∨ (s.trigTake n e 0).forceF (F.IN_TRIG_GEN 1) ≠ n.val := by
      rw [State.trigTake_getF, State.trigTake_forceF n e h (by decide)]
      exact hg
    exact (State.trigTake_stays e (State.trigTake_force_wf n e 0 h) hq' hg').trans (s.trigTake_trig_ne n e (by decide))

/-! ### The edge of a generator (R92, R93) -/

/-- WIDTH in force is 0, or not below a PERIOD that counts (R93, R94). -/
abbrev State.badPulse (s : State) (n : Fin 4) : Prop :=
  s.forceF (F.FSG_WIDTH n) = 0 ∨
    (s.forceF (F.FSG_CTRL_MODE n) ≠ 2 ∧ s.forceF (F.FSG_PERIOD n) ≤ s.forceF (F.FSG_WIDTH n))

/-- The same of the values written, which an edge takes into force (R22). -/
def State.badWritten (s : State) (n : Fin 4) : Prop :=
  s.getF (F.FSG_WIDTH n) = 0 ∨ (s.getF (F.FSG_CTRL_MODE n) ≠ 2 ∧ s.getF (F.FSG_PERIOD n) ≤ s.getF (F.FSG_WIDTH n))

theorem fsgFields_mem (n : Nat) : (F.FSG_CTRL_MODE n).off ∈ fsgRegs n ∧ (F.FSG_PERIOD n).off ∈ fsgRegs n ∧
    (F.FSG_WIDTH n).off ∈ fsgRegs n := by
  simp [fsgRegs, F.FSG_CTRL_MODE, F.FSG_CTRL_ENABLE]

theorem State.badPulse_takeForces {s : State} (n : Fin 4) (h : mwf resetWord s.force = true) :
    (s.takeForces (fsgRegs n)).badPulse n ↔ s.badWritten n := by
  obtain ⟨mM, mP, mW⟩ := fsgFields_mem n
  unfold State.badPulse
  rw [State.forceF_takeForces_mem h mM, State.forceF_takeForces_mem h mP, State.forceF_takeForces_mem h mW]
  rfl

/-- The registers of an edge: the count, and BAD_WIDTH when there is no pulse. -/
def State.fsgCounted (s : State) (n : Fin 4) : State :=
  if s.badPulse n then (s.bumpWrap (F.FSG_COUNT n) 1).setF (F.FSG_CTRL_BAD_WIDTH n) 1 else s.bumpWrap (F.FSG_COUNT n) 1

/-- The generator at its edge at `e`. -/
def State.fsgPulsed (s : State) (n : Fin 4) (e : Nat) : FsgSt :=
  { s.gen n with prevEdge := (s.gen n).lastEdge, lastEdge := e, level := !decide (s.badPulse n),
                 pulseEnd := e + s.forceF (F.FSG_WIDTH n) }

theorem State.fsgCounted_frame (s : State) (n : Fin 4) : s.fsgCounted n = { s with regs := (s.fsgCounted n).regs } := by
  unfold State.fsgCounted
  split <;> rfl

theorem State.fsgFire_eq (s : State) (n : Fin 4) (e : Nat) :
    s.fsgFire n e = ((s.fsgCounted n).setGen n (s.fsgPulsed n e)).trigEdges n e := by
  have gen : (s.fsgCounted n).gen n = s.gen n := by rw [s.fsgCounted_frame]; rfl
  unfold State.fsgPulsed
  rw [← gen]
  rfl

theorem State.fsgCounted_only (s : State) (n : Fin 4) :
    RegsOnly [(F.FSG_COUNT n).off, (F.FSG_CTRL_BAD_WIDTH n).off] s (s.fsgCounted n) := by
  have count : RegsOnly [(F.FSG_COUNT n).off] s (s.bumpWrap (F.FSG_COUNT n) 1) := s.setF_only _ _
  unfold State.fsgCounted
  split
  · exact count.trans (State.setF_only _ _ _)
  · exact count.mono (by simp)

theorem State.fsgCounted_count {s : State} (n : Fin 4) (h : mwf resetWord s.regs = true) :
    (s.fsgCounted n).getF (F.FSG_COUNT n) = (s.getF (F.FSG_COUNT n) + 1) % 2 ^ 32 := by
  have count : (s.bumpWrap (F.FSG_COUNT n) 1).getF (F.FSG_COUNT n) = (s.getF (F.FSG_COUNT n) + 1) % 2 ^ 32 := by
    rw [State.bumpWrap, State.getF_setF_same _ _ _ h (by simp [F.FSG_COUNT])]
    exact Nat.mod_mod ..
  unfold State.fsgCounted
  split
  · rw [State.getF_setF_off _ _ (by simp [F.FSG_COUNT, F.FSG_CTRL_BAD_WIDTH]), count]
  · exact count

theorem State.fsgCounted_badWidth {s : State} {n : Fin 4} (h : mwf resetWord s.regs = true) (hb : s.badPulse n) :
    (s.fsgCounted n).getF (F.FSG_CTRL_BAD_WIDTH n) = 1 := by
  have counted : mwf resetWord (s.bumpWrap (F.FSG_COUNT n) 1).regs = true := s.setF_wf _ _ h
  unfold State.fsgCounted
  rw [if_pos hb, State.getF_setF_same _ _ _ counted (by simp [F.FSG_CTRL_BAD_WIDTH])]
  rfl

theorem State.fsgCounted_wf {s : State} (n : Fin 4) (h : mwf resetWord s.regs = true) :
    mwf resetWord (s.fsgCounted n).regs = true := by
  unfold State.fsgCounted
  split
  · exact State.setF_wf _ _ _ (s.setF_wf _ _ h)
  · exact s.setF_wf _ _ h

/-! What an edge does before the generator turns to its next one. -/

/-- From `s` to `t`, generator `n` has had an edge at `e`: it has counted it, and the triggers that follow it have taken it. -/
structure EdgeTaken (n : Fin 4) (e : Nat) (s t : State) : Prop where
  frame : t = { s with regs := t.regs, force := t.force, wire := t.wire, fsg := t.fsg,
                       intake := { s.intake with trig := t.intake.trig }, lnk := { s.lnk with port := t.lnk.port } }
  others : ∀ q, q ≠ n → t.gen q = s.gen q
  follows : ∀ q, s.follows n q → t.trig q = s.trigWith e q
  stays : ∀ q : Fin 2, ¬ s.follows n q → (s.getF (F.IN_TRIG_GEN q) = n.val ∨ s.forceF (F.IN_TRIG_GEN q) ≠ n.val) →
    t.trig q = s.trig q
  count : t.getF (F.FSG_COUNT n) = (s.getF (F.FSG_COUNT n) + 1) % 2 ^ 32
  prevEdge : (t.gen n).prevEdge = (s.gen n).lastEdge
  lastEdge : (t.gen n).lastEdge = e
  pulseEnd : (t.gen n).pulseEnd = e + s.getF (F.FSG_WIDTH n)
  level : (t.gen n).level = true ↔ ¬ s.badWritten n
  badWidth : s.badWritten n → t.getF (F.FSG_CTRL_BAD_WIDTH n) = 1

/-- The state in which a generator has counted an edge at `e` and begun its pulse, and the triggers have not yet seen it. -/
def State.fsgMarked (s : State) (n : Fin 4) (e : Nat) : State :=
  ((s.takeForces (fsgRegs n)).fsgCounted n).setGen n ((s.takeForces (fsgRegs n)).fsgPulsed n e)

/-- The state in which a generator has had its edge at `e`, and has not yet looked for the next one. -/
def State.fsgEdged (s : State) (n : Fin 4) (e : Nat) : State := (s.takeForces (fsgRegs n)).fsgFire n e

theorem State.fsgEdged_eq (s : State) (n : Fin 4) (e : Nat) : s.fsgEdged n e = (s.fsgMarked n e).trigEdges n e :=
  State.fsgFire_eq ..

theorem State.fsgMarked_frame (s : State) (n : Fin 4) (e : Nat) : s.fsgMarked n e =
    { s with regs := (s.fsgMarked n e).regs, force := (s.takeForces (fsgRegs n)).force, fsg := (s.fsgMarked n e).fsg } := by
  unfold State.fsgMarked
  rw [State.fsgCounted_frame, s.takeForces_frame]
  rfl

@[simp] theorem State.fsgMarked_trig (s : State) (n : Fin 4) (e : Nat) (q : Fin 2) :
    (s.fsgMarked n e).trig q = s.trig q := by
  rw [s.fsgMarked_frame]; rfl

theorem State.fsgMarked_forceF (s : State) (n : Fin 4) (e : Nat) (f : Fld) :
    (s.fsgMarked n e).forceF f = (s.takeForces (fsgRegs n)).forceF f := by
  rw [s.fsgMarked_frame]; rfl

theorem State.fsgMarked_force_wf {s : State} (n : Fin 4) (e : Nat) (h : mwf resetWord s.force = true) :
    mwf resetWord (s.fsgMarked n e).force = true := by
  rw [s.fsgMarked_frame]
  exact State.takeForces_force_wf _ h

theorem State.fsgMarked_gen_ne (s : State) {n q : Fin 4} (e : Nat) (h : q ≠ n) : (s.fsgMarked n e).gen q = s.gen q := by
  rw [State.fsgMarked, State.gen_setGen_ne _ _ h, State.fsgCounted_frame, s.takeForces_frame]
  rfl

/-- The registers of the triggers are none of those of the generators. -/
theorem trigRegs_apart (n : Fin 4) {q : Fin 2} {o : Nat} (h : o ∈ trigRegs q) :
    o ∉ fsgRegs n ∧ o ∉ [(F.FSG_COUNT n).off, (F.FSG_CTRL_BAD_WIDTH n).off] := by
  simp only [trigRegs, F.IN_TRIG_ENABLE, F.IN_TRIG_DELAY, F.IN_TRIG_WIDTH, List.mem_cons, List.not_mem_nil, or_false] at h
  simp only [fsgRegs, F.FSG_CTRL_ENABLE, F.FSG_START_LO, F.FSG_START_HI, F.FSG_PERIOD, F.FSG_FRAC, F.FSG_WIDTH,
    F.FSG_COUNT, F.FSG_CTRL_BAD_WIDTH, List.mem_cons, List.not_mem_nil, or_false]
  omega

theorem State.fsgMarked_getF_trig (s : State) (n : Fin 4) (e : Nat) {q : Fin 2} {f : Fld} (hf : f.off ∈ trigRegs q) :
    (s.fsgMarked n e).getF f = s.getF f := by
  have counted : (s.fsgMarked n e).getReg f.off = s.getReg f.off :=
    ((State.fsgCounted_only (s.takeForces (fsgRegs n)) n).2 _ (trigRegs_apart n hf).2).trans (s.takeForces_getReg _ _)
  unfold State.getF
  rw [counted]

theorem State.fsgMarked_follows (s : State) (n : Fin 4) (e : Nat) (q : Fin 2) :
    (s.fsgMarked n e).follows n q ↔ s.follows n q := by
  obtain ⟨mE, mG, -, -⟩ := trigFields_mem q
  unfold State.follows
  rw [s.fsgMarked_getF_trig n e mG, s.fsgMarked_getF_trig n e mE]

theorem State.fsgMarked_trigWith (s : State) (n : Fin 4) (e : Nat) (q : Fin 2) :
    (s.fsgMarked n e).trigWith e q = s.trigWith e q := by
  obtain ⟨-, -, mD, mW⟩ := trigFields_mem q
  unfold State.trigWith
  rw [s.fsgMarked_getF_trig n e mD, s.fsgMarked_getF_trig n e mW, s.fsgMarked_trig]

theorem State.fsgEdged_gen (s : State) (n : Fin 4) (e : Nat) :
    (s.fsgEdged n e).gen n = (s.takeForces (fsgRegs n)).fsgPulsed n e := by
  rw [s.fsgEdged_eq, State.trigEdges_gen, State.fsgMarked, State.gen_setGen_same]

/-- An edge leaves a generator's place in its series as it was. -/
theorem State.fsgEdged_series (s : State) (n : Fin 4) (e : Nat) :
    ((s.fsgEdged n e).gen n).linkEdges = (s.gen n).linkEdges ∧ ((s.fsgEdged n e).gen n).holdover = (s.gen n).holdover := by
  rw [s.fsgEdged_gen, s.takeForces_frame]
  exact ⟨rfl, rfl⟩

/-- After an edge, MODE in force is the one written. -/
theorem State.fsgEdged_mode {s : State} (n : Fin 4) (e : Nat) (h : mwf resetWord s.force = true) :
    (s.fsgEdged n e).forceF (F.FSG_CTRL_MODE n) = s.getF (F.FSG_CTRL_MODE n) := by
  have mem := (fsgFields_mem n).1
  have far (q : Fin 2) : (F.FSG_CTRL_MODE n).off ∉ trigRegs q := fun t => (trigRegs_apart n t).1 mem
  rw [s.fsgEdged_eq, State.trigEdges_forceF n e (State.fsgMarked_force_wf n e h) (far 0) (far 1), s.fsgMarked_forceF,
    State.forceF_takeForces_mem h mem]

theorem State.fsgEdged_regs_wf {s : State} (n : Fin 4) (e : Nat) (h : mwf resetWord s.regs = true) :
    mwf resetWord (s.fsgEdged n e).regs = true := by
  rw [s.fsgEdged_eq, State.trigEdges_regs]
  exact State.fsgCounted_wf n (by rwa [State.takeForces_regs])

theorem State.edgeTaken_fsgEdged {s : State} (n : Fin 4) (e : Nat) (hr : mwf resetWord s.regs = true)
    (hf : mwf resetWord s.force = true) : EdgeTaken n e s (s.fsgEdged n e) := by
  have bad := State.badPulse_takeForces n hf
  have wf : mwf resetWord (s.takeForces (fsgRegs n)).regs = true := by rwa [State.takeForces_regs]
  have marked := State.fsgMarked_force_wf n e hf
  have own := s.fsgEdged_gen n e
  have getF (f : Fld) : (s.fsgEdged n e).getF f = ((s.takeForces (fsgRegs n)).fsgCounted n).getF f := by
    rw [s.fsgEdged_eq, State.trigEdges_getF]
    rfl
  have gen : (s.takeForces (fsgRegs n)).gen n = s.gen n := by rw [s.takeForces_frame]; rfl
  exact
    { frame := by rw [s.fsgEdged_eq, State.trigEdges_frame, s.fsgMarked_frame]
      others := fun q hq => by rw [s.fsgEdged_eq, State.trigEdges_gen, s.fsgMarked_gen_ne e hq]
      follows := fun q hq => by
        rw [s.fsgEdged_eq, State.trigEdges_follows e marked ((s.fsgMarked_follows n e q).2 hq), s.fsgMarked_trigWith]
      stays := fun q hq hg => by
        have mG := (trigFields_mem q).2.1
        have force : (s.fsgMarked n e).forceF (F.IN_TRIG_GEN q) = s.forceF (F.IN_TRIG_GEN q) := by
          rw [s.fsgMarked_forceF, State.forceF_takeForces_notMem hf (trigRegs_apart n mG).1]
        rw [s.fsgEdged_eq, State.trigEdges_stays e marked (fun t => hq ((s.fsgMarked_follows n e q).1 t))
          (by rwa [s.fsgMarked_getF_trig n e mG, force]), s.fsgMarked_trig]
      count := by rw [getF, State.fsgCounted_count n wf, State.takeForces_getF]
      prevEdge := by rw [own, State.fsgPulsed, gen]
      lastEdge := by rw [own]; rfl
      pulseEnd := by rw [own, ← State.forceF_takeForces_mem hf (fsgFields_mem n).2.2]; rfl
      level := by rw [own, ← bad]; simp only [State.fsgPulsed, Bool.not_eq_true', decide_eq_false_iff_not]
      badWidth := fun b => by rw [getF, State.fsgCounted_badWidth wf (bad.2 b)] }

/-! ### After the edge: the next one is found, and its time is sent (R520) -/

/-- From `s` to `t`, edge times of generator `n` are sent: messages at the ports, and how far they have been sent. -/
structure EdgeSent (n : Fin 4) (s t : State) : Prop where
  frame : t = { s with fsg := t.fsg, lnk := { s.lnk with port := t.lnk.port } }
  others : ∀ q, q ≠ n → t.gen q = s.gen q
  own : t.gen n = { s.gen n with sent := (t.gen n).sent }

theorem EdgeSent.refl (n : Fin 4) (s : State) : EdgeSent n s s := ⟨rfl, fun _ _ => rfl, rfl⟩

theorem EdgeSent.trans {n : Fin 4} {a b c : State} (h : EdgeSent n a b) (h' : EdgeSent n b c) : EdgeSent n a c where
  frame := by rw [h'.frame, h.frame]
  others q hq := by rw [h'.others q hq, h.others q hq]
  own := by rw [h'.own, h.own]

/-- A message is queued at a port. -/
theorem State.linkSend_frame (s : State) (m : LinkMsg) :
    (s.linkSend m).getD s = { s with lnk := { s.lnk with port := ((s.linkSend m).getD s).lnk.port } } := by
  unfold State.linkSend
  split
  · rfl
  · split <;> rfl

theorem State.sendEdgeTime_frame (s : State) (n : Fin 4) (m : Nat) :
    s.sendEdgeTime n m = { s with lnk := { s.lnk with port := (s.sendEdgeTime n m).lnk.port } } := by
  unfold State.sendEdgeTime
  dsimp only
  generalize s.getF F.LNK_CFG_CHIP = me
  generalize List.filter _ _ = l
  induction l generalizing s with
  | nil => rfl
  | cons c l ih => rw [List.foldl_cons, ih, State.linkSend_frame]

theorem State.sendEdgeTime_sent (s : State) (n : Fin 4) (m : Nat) : EdgeSent n s (s.sendEdgeTime n m) := by
  have gens (q : Fin 4) : (s.sendEdgeTime n m).gen q = s.gen q := by rw [s.sendEdgeTime_frame]; rfl
  exact ⟨by rw [s.sendEdgeTime_frame], fun q _ => gens q, by rw [gens]⟩

theorem State.setGen_sent (s : State) (n : Fin 4) (k : Nat) : EdgeSent n s (s.setGen n { s.gen n with sent := k }) :=
  ⟨rfl, fun _ hq => s.gen_setGen_ne _ hq, by rw [State.gen_setGen_same]⟩

theorem State.sendOne_sent (s : State) (n : Fin 4) (m k : Nat) :
    EdgeSent n s ((s.sendEdgeTime n m).setGen n { s.gen n with sent := k }) := by
  have gen : (s.sendEdgeTime n m).gen n = s.gen n := by rw [s.sendEdgeTime_frame]; rfl
  rw [← gen]
  exact (s.sendEdgeTime_sent n m).trans (State.setGen_sent ..)

theorem State.sendEdges_sent (n : Fin 4) (t fuel : Nat) (s : State) : EdgeSent n s (State.sendEdges n t fuel s) := by
  induction fuel generalizing s with
  | zero => exact .refl n s
  | succ fuel ih =>
    unfold State.sendEdges
    dsimp only
    split
    · exact .refl n s
    · exact (s.sendOne_sent n _ _).trans (ih _)

theorem State.sendEdge_sent (s : State) (n : Fin 4) : EdgeSent n s (s.sendEdge n) := by
  have reached := s.setGen_sent n (max (s.gen n).sent (s.gen n).next)
  unfold State.sendEdge
  dsimp only
  split
  · split
    · split
      · exact reached.trans (State.sendOne_sent ..)
      · exact reached
    · exact reached.trans (State.sendEdges_sent ..)
  · exact .refl n s

/-- From `s` to `t`, generator `n` turns to its next edge: its place in the series, what is sent of it, and the status of an
edge that is held over. -/
structure EdgeRest (n : Fin 4) (s t : State) : Prop where
  frame : t = { s with regs := t.regs, wire := t.wire, fsg := t.fsg, lnk := { s.lnk with port := t.lnk.port } }
  others : ∀ q, q ≠ n → t.gen q = s.gen q
  own : t.gen n = { s.gen n with next := (t.gen n).next, armed := (t.gen n).armed, linkEdges := (t.gen n).linkEdges,
                                 sent := (t.gen n).sent, holdover := (t.gen n).holdover }
  regs : ∀ o, o ∉ [F.LNK_TIME_SYNC_HOLD.off, F.HOST_ICAUSE.off] → t.getReg o = s.getReg o

theorem EdgeRest.trans {n : Fin 4} {a b c : State} (h : EdgeRest n a b) (h' : EdgeRest n b c) : EdgeRest n a c where
  frame := by rw [h'.frame, h.frame]
  others q hq := by rw [h'.others q hq, h.others q hq]
  own := by rw [h'.own, h.own]
  regs o ho := by rw [h'.regs o ho, h.regs o ho]

theorem EdgeSent.rest {n : Fin 4} {s t : State} (h : EdgeSent n s t) : EdgeRest n s t where
  frame := by rw [h.frame]
  others := h.others
  own := by rw [h.own]
  regs o _ := by rw [h.frame]; rfl

/-- Another place in the series. -/
theorem State.setGen_rest (s : State) (n : Fin 4) {g : FsgSt} (h : g = { s.gen n with
    next := g.next, armed := g.armed, linkEdges := g.linkEdges, sent := g.sent, holdover := g.holdover }) :
    EdgeRest n s (s.setGen n g) :=
  ⟨rfl, fun _ hq => s.gen_setGen_ne g hq, by rw [State.gen_setGen_same]; exact h, fun _ _ => rfl⟩

/-- The status of a held-over edge. -/
theorem State.syncHold_rest (s : State) (n : Fin 4) : EdgeRest n s ((s.setF F.LNK_TIME_SYNC_HOLD 1).raiseCause 26) := by
  have only : RegsOnly [F.LNK_TIME_SYNC_HOLD.off, F.HOST_ICAUSE.off] s ((s.setF F.LNK_TIME_SYNC_HOLD 1).raiseCause 26) :=
    (s.setF_only _ 1).trans (State.raiseCause_only _ 26)
  have gens (q : Fin 4) : ((s.setF F.LNK_TIME_SYNC_HOLD 1).raiseCause 26).gen q = s.gen q := by
    rw [only.1]; rfl
  exact ⟨by rw [only.1], fun q _ => gens q, by rw [gens], only.2⟩

/-- The registers that an edge counts in are none of those of a held-over edge's status. -/
theorem fsgCounters_apart (n : Fin 4) : (F.FSG_COUNT n).off ∉ [F.LNK_TIME_SYNC_HOLD.off, F.HOST_ICAUSE.off] ∧
    (F.FSG_CTRL_BAD_WIDTH n).off ∉ [F.LNK_TIME_SYNC_HOLD.off, F.HOST_ICAUSE.off] := by
  revert n
  decide

/-- What follows the edge changes nothing of what the edge did. -/
theorem EdgeTaken.rest {n : Fin 4} {e : Nat} {s u t : State} (h : EdgeTaken n e s u) (r : EdgeRest n u t) :
    EdgeTaken n e s t := by
  have trig : t.trig = u.trig := by rw [r.frame]; rfl
  have getF {f : Fld} (hf : f.off ∉ [F.LNK_TIME_SYNC_HOLD.off, F.HOST_ICAUSE.off]) : t.getF f = u.getF f := by
    unfold State.getF
    rw [r.regs _ hf]
  obtain ⟨farCount, farBad⟩ := fsgCounters_apart n
  exact
    { frame := by rw [r.frame, h.frame]
      others := fun q hq => by rw [r.others q hq, h.others q hq]
      follows := fun q hq => by rw [trig, h.follows q hq]
      stays := fun q hq hg => by rw [trig, h.stays q hq hg]
      count := by rw [getF farCount, h.count]
      prevEdge := by rw [r.own, h.prevEdge]
      lastEdge := by rw [r.own, h.lastEdge]
      pulseEnd := by rw [r.own, h.pulseEnd]
      level := by rw [r.own, h.level]
      badWidth := fun b => by rw [getF farBad, h.badWidth b] }

/-! ### When an edge is due (R92, R94, R520) -/

theorem State.fsgDue_disabled {s : State} {n : Fin 4} (h : s.getF (F.FSG_CTRL_ENABLE n) = 0) : s.fsgDue n = none := by
  simp [State.fsgDue, State.flag, h]

/-- A generator that makes its own edges. -/
theorem State.fsgDue_own {s : State} {n : Fin 4} (h : s.getF (F.FSG_CTRL_ENABLE n) = 1)
    (hm : s.forceF (F.FSG_CTRL_MODE n) ≠ 2) :
    s.fsgDue n = if (s.gen n).armed then some (s.fsgEdgeTime n (s.gen n).next, false) else none := by
  simp [State.fsgDue, State.flag, h, hm]

/-- A SLAVE generator with an edge time from its master. -/
theorem State.fsgDue_received {s : State} {n : Fin 4} {e : Nat} {l : List Nat} (h : s.getF (F.FSG_CTRL_ENABLE n) = 1)
    (hm : s.forceF (F.FSG_CTRL_MODE n) = 2) (hl : (s.gen n).linkEdges = e :: l) : s.fsgDue n = some (e, false) := by
  simp [State.fsgDue, State.flag, h, hm, hl]

/-- A SLAVE generator without an edge time holds over at its last period. -/
theorem State.fsgDue_heldOver {s : State} {n : Fin 4} (h : s.getF (F.FSG_CTRL_ENABLE n) = 1)
    (hm : s.forceF (F.FSG_CTRL_MODE n) = 2) (hl : (s.gen n).linkEdges = []) (h4 : (s.gen n).holdover < 4)
    (hp : (s.gen n).prevEdge < (s.gen n).lastEdge) (h0 : 0 < (s.gen n).prevEdge) :
    s.fsgDue n = some (2 * (s.gen n).lastEdge - (s.gen n).prevEdge, true) := by
  simp [State.fsgDue, State.flag, h, hm, hl, h4, hp, h0]

/-! ### FSG_EDGE and FSG_PULSE_END -/

theorem exec_fsgEdge_idle {s : State} {n : Fin 4} (h : s.fsgDue n = none) : exec (.fsgEdge n) s = .next s := by
  change execFsgEdge n s = _
  unfold execFsgEdge
  rw [h]

theorem exec_fsgEdge_early {s : State} {n : Fin 4} {e : Nat} {hold : Bool} (h : s.fsgDue n = some (e, hold))
    (ht : s.time.now < e) : exec (.fsgEdge n) s = .next s := by
  change execFsgEdge n s = _
  unfold execFsgEdge
  rw [h]
  exact if_pos ht

/-- A held-over edge counts itself and sets SYNC_HOLD. -/
theorem exec_fsgEdge_heldOver {s : State} {n : Fin 4} {e : Nat} (h : s.fsgDue n = some (e, true)) (ht : e ≤ s.time.now) :
    exec (.fsgEdge n) s = .next ((((s.fsgEdged n e).setGen n { (s.fsgEdged n e).gen n with
      holdover := ((s.fsgEdged n e).gen n).holdover + 1 }).setF F.LNK_TIME_SYNC_HOLD 1).raiseCause 26) := by
  change execFsgEdge n s = _
  unfold execFsgEdge
  rw [h]
  exact if_neg (Nat.not_lt.2 ht)

/-- After an edge that is its own or its master's, a generator turns to the next one as its MODE says. -/
theorem exec_fsgEdge_due {s : State} {n : Fin 4} {e : Nat} (h : s.fsgDue n = some (e, false)) (ht : e ≤ s.time.now) :
    ∃ t, exec (.fsgEdge n) s = .next t ∧ EdgeRest n (s.fsgEdged n e) t ∧
      ((s.fsgEdged n e).forceF (F.FSG_CTRL_MODE n) = 1 → (t.gen n).armed = false) ∧
      ((s.fsgEdged n e).forceF (F.FSG_CTRL_MODE n) = 2 →
        (t.gen n).linkEdges = ((s.fsgEdged n e).gen n).linkEdges.drop 1 ∧ (t.gen n).holdover = 0) := by
  change ∃ t, execFsgEdge n s = _ ∧ _
  unfold execFsgEdge
  rw [h]
  dsimp only
  rw [if_neg (Nat.not_lt.2 ht), if_neg (by decide)]
  rw [← State.fsgEdged]
  generalize s.fsgEdged n e = u
  split_ifs with slave oneshot
  · exact ⟨_, rfl, u.setGen_rest n rfl, fun c => absurd (c.symm.trans slave) (by decide), fun _ => by simp⟩
  · exact ⟨_, rfl, u.setGen_rest n rfl, fun _ => by simp, fun c => absurd c slave⟩
  · split
    · exact ⟨_, rfl, u.setGen_rest n rfl, fun c => absurd c oneshot, fun c => absurd c slave⟩
    · exact ⟨_, rfl, (u.setGen_rest n rfl).trans (State.sendEdge_sent ..).rest, fun c => absurd c oneshot,
        fun c => absurd c slave⟩

theorem exec_fsgPulseEnd (n : Fin 4) (s : State) : exec (.fsgPulseEnd n) s =
    .next (if (s.gen n).level ∧ (s.gen n).pulseEnd ≤ s.time.now then s.setGen n { s.gen n with level := false } else s) := by
  change execFsgPulseEnd n s = _
  unfold execFsgPulseEnd
  dsimp only
  split <;> rfl

/-! ### Register writes that land -/

/-- A write that is not refused is stored, and its action follows. -/
theorem State.regWrite_lands {s : State} {m : Master} {off : Nat} (h : Lands s m off) (v : Nat) (act : State → State) :
    s.regWrite false m off v act = act (s.storeFields off v) := by
  have aft : (aftBlock off && !s.brgUp) = false := by
    cases b : aftBlock off with
    | false => rfl
    | true => rw [h.aft b]; rfl
  have awake : (s.asleep off && off % 65536 != 4) = false := by
    cases b : s.asleep off with
    | false => rfl
    | true => rw [h.awake b]; rfl
  unfold State.regWrite State.refuseWrite
  simp [h.path, aft, h.owner, awake]

/-- The word of a register that a write has been stored in. -/
theorem State.getReg_storeFields {s : State} {off : Nat} {r : RegDesc} (v : Nat) (h : mwf resetWord s.regs = true)
    (hr : regAt off = some r) (ha : adjusted off = false) (ho : off ∉ statusRegs) :
    (s.storeFields off v).getReg off = BitVec.ofNat 32
      (writeFields (s.lockSet off) v r.fields ((s.getReg off).toNat, false, false)).1 := by
  have keep (u : State) (b : Bool) {f : Fld} (hf : f.off = F.GLB_STATUS_BAD_WIDTH.off) :
      (if b then u.glbError f else u).getReg off = u.getReg off := by
    cases b with
    | false => rfl
    | true => exact (u.glbError_only f).2 off (hf ▸ ho)
  unfold State.storeFields
  rw [hr]
  dsimp only
  rw [s.adjust_plain _ _ ha]
  dsimp only
  rw [keep _ _ (f := F.GLB_STATUS_LOCKED_WRITE) rfl, keep _ _ (f := F.GLB_STATUS_BAD_ENCODING) rfl, s.getReg_setReg_same _ _ h]

/-- Bit `i` of a word that it has been set in. -/
theorem bitsOf_or_set {b : Word} {i : Nat} (v : Word) (h : b.getLsbD i = true) : bitsOf (v ||| b).toNat i 1 = 1 := by
  rw [← beq_iff_eq, bitsOf_one, BitVec.testBit_toNat, BitVec.getLsbD_or, h, Bool.or_true]

/-! ### Trigger outputs and SENSOR_RST_N (R133, R134) -/

/-- The oldest edge that a trigger has taken is due: its pulse begins. -/
theorem exec_triggerEdge_due {s : State} {t : Fin 2} {d : Nat × Nat} {l : List (Nat × Nat)} (h : (s.trig t).due = d :: l)
    (hd : d.1 ≤ s.time.now) : exec (.triggerEdge t) s =
      .next (s.setTrig t { level := decide (0 < d.2), pulseEnd := s.time.now + d.2, due := l }) := by
  change execTriggerEdge t s = _
  unfold execTriggerEdge State.trigPulse
  dsimp only
  rw [h]
  dsimp only
  rw [if_pos hd, State.trig_setTrig_same, State.setTrig_setTrig]
  rfl

theorem exec_triggerEdge_early {s : State} {t : Fin 2} (h : ∀ d ∈ (s.trig t).due.head?, s.time.now < d.1) :
    exec (.triggerEdge t) s = .next s := by
  change execTriggerEdge t s = _
  unfold execTriggerEdge
  dsimp only
  cases due : (s.trig t).due with
  | nil => rfl
  | cons d l => exact if_neg (Nat.not_le.2 (h d (by rw [due]; rfl)))

theorem exec_triggerPulseEnd (t : Fin 2) (s : State) : exec (.triggerPulseEnd t) s =
    .next (if (s.trig t).level ∧ (s.trig t).pulseEnd ≤ s.time.now then s.setTrig t { s.trig t with level := false } else s) := by
  change execTriggerPulseEnd t s = _
  unfold execTriggerPulseEnd
  dsimp only
  split <;> rfl

/-- FIRE stores the write and begins a pulse. -/
theorem exec_trigFire {s : State} {t : Fin 2} {m : Master} (v : Word) (h : Lands s m (F.IN_TRIG_FIRE t).off) :
    exec (.trigFire t m v) s = .next ((s.storeFields (F.IN_TRIG_FIRE t).off (v ||| 8#32).toNat).trigPulse t
      ((s.storeFields (F.IN_TRIG_FIRE t).off (v ||| 8#32).toNat).forceF (F.IN_TRIG_WIDTH t))) := by
  change Host.Outcome.next (s.trigWrite t m (v ||| 8#32)) = _
  rw [State.trigWrite, State.regWrite_lands h, if_pos (bitsOf_or_set v rfl)]

theorem exec_rstRelease {s : State} {m : Master} (v : Word) (h : Lands s m F.IN_SENS_RST_RELEASE.off) :
    exec (.rstRelease m v) s = .next (s.storeFields F.IN_SENS_RST_RELEASE.off (v ||| 1#32).toNat) :=
  congrArg _ (State.regWrite_lands h _ id)

/-- IN_SENS.RST_RELEASE is a plain field: it holds the bit written. -/
theorem State.getF_storeFields_rstRelease {s : State} (v : Word) (h : mwf resetWord s.regs = true) :
    (s.storeFields F.IN_SENS_RST_RELEASE.off v.toNat).getF F.IN_SENS_RST_RELEASE = bitsOf v.toNat 0 1 := by
  have field : regAt F.IN_SENS_RST_RELEASE.off = some ⟨0x040A20, 0x4, 1, 4, 1, [⟨0, 1, .rw, .imm, 0, []⟩]⟩ := by decide
  rw [State.getF, State.getReg_storeFields _ h field (by decide) (by decide)]
  exact (bitsOf_putBits_same _ _ (by decide)).trans (Nat.mod_mod ..)

theorem trigFire_plain (t : Fin 2) : adjusted (F.IN_TRIG_FIRE t).off = false := by
  revert t
  decide

/-- A FIRE that lands drives its trigger's pulse at the WIDTH in force, and leaves the edges that the trigger has taken (R133). -/
theorem trigFire_pulses {s : State} {t : Fin 2} {m : Master} (v : Word) (h : Lands s m (F.IN_TRIG_FIRE t).off) :
    ∃ u, exec (.trigFire t m v) s = .next u ∧
      u.trig t = { level := decide (0 < s.forceF (F.IN_TRIG_WIDTH t)),
                   pulseEnd := s.time.now + s.forceF (F.IN_TRIG_WIDTH t), due := (s.trig t).due } ∧
      u = { s with regs := u.regs, force := u.force, wire := u.wire, intake := { s.intake with trig := u.intake.trig } } := by
  have stored := (s.storeFields_only (v ||| 8#32).toNat (trigFire_plain t)).1
  refine ⟨_, exec_trigFire v h, ?_, ?_⟩
  · rw [State.trigPulse, State.trig_setTrig_same, stored]
    rfl
  · rw [stored]
    rfl

end Sys2Proof.Machine

namespace Sys2Proof

open Machine

/-- A due edge of a generator's own series, or one that its master has sent, is taken (R92, R94). -/
theorem fsgEdge_taken {s : State} {n : Fin 4} {e : Nat} (hr : mwf resetWord s.regs = true) (hf : mwf resetWord s.force = true)
    (h : s.fsgDue n = some (e, false)) (ht : e ≤ s.time.now) : ∃ t, exec (.fsgEdge n) s = .next t ∧ EdgeTaken n e s t ∧
      (s.getF (F.FSG_CTRL_MODE n) = 1 → (t.gen n).armed = false) ∧
      (s.getF (F.FSG_CTRL_MODE n) = 2 → (t.gen n).linkEdges = (s.gen n).linkEdges.drop 1 ∧ (t.gen n).holdover = 0) := by
  obtain ⟨t, ran, rest, oneshot, slave⟩ := exec_fsgEdge_due h ht
  rw [State.fsgEdged_mode n e hf] at oneshot slave
  rw [(s.fsgEdged_series n e).1] at slave
  exact ⟨t, ran, (State.edgeTaken_fsgEdged n e hr hf).rest rest, oneshot, slave⟩

/-- SYNC_HOLD and its cause are set once they are raised. -/
theorem syncHold_shown {s : State} (h : mwf resetWord s.regs = true) :
    ((s.setF F.LNK_TIME_SYNC_HOLD 1).raiseCause 26).getF F.LNK_TIME_SYNC_HOLD = 1 ∧
      ((s.setF F.LNK_TIME_SYNC_HOLD 1).raiseCause 26).getF ⟨F.HOST_ICAUSE.off, 26, 1⟩ = 1 := by
  constructor
  · rw [State.getF_raiseCause _ _ (by decide), s.getF_setF_same _ _ h (by decide)]
    rfl
  · exact State.cause_set _ (by decide) (s.setF_wf _ _ h)

/-- A due hold-over edge is taken, counted, and shown (R520). -/
theorem fsgEdge_heldOver {s : State} {n : Fin 4} {e : Nat} (hr : mwf resetWord s.regs = true)
    (hf : mwf resetWord s.force = true) (h : s.fsgDue n = some (e, true)) (ht : e ≤ s.time.now) :
    ∃ t, exec (.fsgEdge n) s = .next t ∧ EdgeTaken n e s t ∧ (t.gen n).holdover = (s.gen n).holdover + 1 ∧
      t.getF F.LNK_TIME_SYNC_HOLD = 1 ∧ t.getF ⟨F.HOST_ICAUSE.off, 26, 1⟩ = 1 := by
  have wf := State.fsgEdged_regs_wf n e hr
  refine ⟨_, exec_fsgEdge_heldOver h ht, (State.edgeTaken_fsgEdged n e hr hf).rest
    ((State.setGen_rest _ n rfl).trans (State.syncHold_rest ..)), ?_, syncHold_shown wf⟩
  rw [State.gen, State.raiseCause_fsg, State.setF_fsg, ← State.gen, State.gen_setGen_same, (s.fsgEdged_series n e).2]

/-- Settles O25: by what an edge takes before the generator turns to its next one, and by the writes that land. -/
theorem frameSyncAndTriggers : Obligations.FrameSyncAndTriggers := by
  unfold Obligations.FrameSyncAndTriggers
  constructor
  · intro n s hs g due w bad follows fires
    have taken {e : Nat} {t : State} (ran : exec (.fsgEdge n) s = .next t) (k : EdgeTaken n e s t) : fires e t :=
      ⟨ran, k.frame, k.others, k.follows, k.stays, k.count, k.prevEdge, k.lastEdge, k.pulseEnd, k.level, k.badWidth⟩
    refine ⟨fun disabled => exec_fsgEdge_idle (State.fsgDue_disabled disabled),
      fun on own => ⟨fun idle => ?idle, fun early => ?early, fun armed now => ?due⟩,
      fun on slave => ⟨fun e l first now => ?received, fun empty few order pos now => ?heldOver⟩,
      fun high past => ?ends, fun still => ?lasts⟩
    case idle =>
      exact exec_fsgEdge_idle (by rw [State.fsgDue_own on own, idle]; rfl)
    case early =>
      have next := State.fsgDue_own on own
      cases armed : g.armed with
      | false => exact exec_fsgEdge_idle (by rw [next, armed]; rfl)
      | true => exact exec_fsgEdge_early (next.trans (if_pos armed)) early
    case due =>
      obtain ⟨t, ran, k, oneshot, -⟩ :=
        fsgEdge_taken hs.regs hs.force ((State.fsgDue_own on own).trans (if_pos armed)) now
      exact ⟨t, taken ran k, oneshot⟩
    case received =>
      obtain ⟨t, ran, k, -, series⟩ := fsgEdge_taken hs.regs hs.force (State.fsgDue_received on slave first) now
      rw [first] at series
      exact ⟨t, taken ran k, series⟩
    case heldOver =>
      obtain ⟨t, ran, k, shown⟩ :=
        fsgEdge_heldOver hs.regs hs.force (State.fsgDue_heldOver on slave empty few order pos) now
      exact ⟨t, taken ran k, shown⟩
    case ends =>
      rw [exec_fsgPulseEnd, if_pos ⟨high, past⟩]
    case lasts =>
      rw [exec_fsgPulseEnd, if_neg]
      rintro ⟨high, past⟩
      exact still.elim (by simp [g, high]) (Nat.not_lt.2 past)
  · intro t m v s hs x w
    refine ⟨fun d l first now => exec_triggerEdge_due first now, exec_triggerEdge_early, fun high past => ?ends,
      fun still => ?lasts, trigFire_pulses v, fun lands => ?release⟩
    case ends =>
      rw [exec_triggerPulseEnd, if_pos ⟨high, past⟩]
    case lasts =>
      rw [exec_triggerPulseEnd, if_neg]
      rintro ⟨high, past⟩
      exact still.elim (by simp [x, high]) (Nat.not_lt.2 past)
    case release =>
      refine ⟨_, exec_rstRelease v lands, (s.storeFields_only _ (by decide)).mono (by decide), ?_⟩
      rw [State.getF_storeFields_rstRelease _ hs.regs, bitsOf_or_set v rfl]

end Sys2Proof
end

section
/-! PROOF. O7: the results of the ALU, compare and predicate instructions (R210 to R212). -/

namespace Sys2Proof.Machine

/-! ### Instructions that change registers of their context only -/

/-- A context that goes on to its next instruction. -/
def Ctx.next (c : Ctx) : Ctx := { c with pc := (c.pc + 1) % 32768 }

@[simp] theorem Ctx.next_rp (c : Ctx) (n : Nat) : c.next.rp n = c.rp n := rfl

/-- An instruction that changes registers only, when it executes. -/
theorem State.instr_regOp {s : State} {k : Fin 8} {x : Fin 3} {o : OpC} {w : BitVec 64} (h : s.fetchOp k x = .run o w)
    (f : BitVec 64 → Ctx → Ctx) :
    s.instr k x o (fun w s => s.regOp k x (f w)) = s.setCtx k x (f w (s.ctx k x)).next := by
  rw [State.instr_run h]
  rfl

theorem Ctx.gets_ws (c : Ctx) {r : Nat} (hr : r < 32) (v : Word) : c.Gets r v (c.ws r v).next where
  frame := by rw [c.ws_frame]; rfl
  reads _ hn := c.rs_ws v hr hn
  parity _ hn := c.ws_parity r v hn

theorem Ctx.getsP_wp (c : Ctx) {r : Nat} (hr : r < 8) (b : Bool) : c.GetsP r b (c.wp r b).next where
  frame := by rw [c.wp_frame]; rfl
  reads _ hn := c.rp_wp b hr hn
  parity _ hn := c.wp_parity r b hn

/-- The ALU instructions, and the compare instructions (Tables IS-5 and IS-6). -/
def aluCodes : List OpC := [.add, .sub, .and_, .or_, .xor_, .sll, .srl, .sra, .mul, .mulh, .mulhu, .min_, .max_, .minu, .maxu]
def cmpCodes : List OpC := [.eq, .ne, .lt, .ge, .ltu, .geu, .tst]

theorem opB_alu {s : State} {k : Fin 8} {x : Fin 3} {o : OpC} {w : BitVec 64} (h : s.fetchOp k x = .run o w)
    (ho : o ∈ aluCodes) (c : Ctx) : opB c w = if fMaj w = 0 then c.rs (fRb w) else BitVec.ofNat 32 (fImm w) := by
  obtain ⟨-, -, -, -, -, decoded, -⟩ := State.fetchOp_run h
  unfold opB
  rcases (fMaj_of_opOf decoded).1 ho with e | e <;> rw [e]

theorem opB_compare {s : State} {k : Fin 8} {x : Fin 3} {o : OpC} {w : BitVec 64} (h : s.fetchOp k x = .run o w)
    (ho : o ∈ cmpCodes) (c : Ctx) : opB c w = if fMaj w = 2 then c.rs (fRb w) else BitVec.ofNat 32 (fImm w) := by
  obtain ⟨-, -, -, -, -, decoded, -⟩ := State.fetchOp_run h
  unfold opB
  rcases (fMaj_of_opOf decoded).2 ho with e | e <;> rw [e] <;> rfl

/-! ### Results of the ALU (Table IS-5) -/

theorem toNat_setWidth_five (b : Word) : (b.setWidth 5).toNat = b.toNat % 32 := b.toNat_setWidth 5

theorem aluOp_mul (a b : Word) : aluOp 8 a b = (a.setWidth 64 * b.setWidth 64).setWidth 32 := by
  change a * b = _
  rw [BitVec.setWidth_mul _ _ (by decide)]
  simp

theorem aluOp_mulh (a b : Word) : aluOp 9 a b = (a.signExtend 64 * b.signExtend 64).extractLsb' 32 32 := by
  change BitVec.ofInt 32 (a.toInt * b.toInt / 2 ^ 32) = _
  have prod : a.signExtend 64 * b.signExtend 64 = BitVec.ofInt 64 (a.toInt * b.toInt) := by
    rw [BitVec.ofInt_mul]
    rfl
  apply BitVec.eq_of_toNat_eq
  rw [prod, BitVec.extractLsb'_toNat, BitVec.toNat_ofInt, BitVec.toNat_ofInt, Nat.shiftRight_eq_div_pow]
  omega

theorem aluOp_mulhu (a b : Word) : aluOp 10 a b = (a.setWidth 64 * b.setWidth 64).extractLsb' 32 32 := by
  change BitVec.ofNat 32 (a.toNat * b.toNat / 2 ^ 32) = _
  have small : a.toNat * b.toNat < 2 ^ 64 := by
    calc a.toNat * b.toNat < 2 ^ 32 * 2 ^ 32 := Nat.mul_lt_mul'' a.isLt b.isLt
      _ = 2 ^ 64 := by norm_num
  apply BitVec.eq_of_toNat_eq
  rw [BitVec.extractLsb'_toNat, BitVec.toNat_mul, BitVec.toNat_setWidth, BitVec.toNat_setWidth, BitVec.toNat_ofNat,
    Nat.mod_eq_of_lt (a.isLt.trans (by decide)), Nat.mod_eq_of_lt (b.isLt.trans (by decide)), Nat.mod_eq_of_lt small,
    Nat.shiftRight_eq_div_pow]

theorem aluOp_min (a b : Word) : aluOp 11 a b = if b.slt a then b else a := by
  change (if a.toInt ≤ b.toInt then a else b) = _
  by_cases h : a.toInt ≤ b.toInt
  · rw [if_pos h, if_neg (by simpa [BitVec.slt] using h)]
  · rw [if_neg h, if_pos (by simpa [BitVec.slt] using h)]

theorem aluOp_max (a b : Word) : aluOp 12 a b = if a.slt b then b else a := by
  change (if a.toInt ≤ b.toInt then b else a) = _
  by_cases h : a.toInt < b.toInt
  · rw [if_pos h.le, if_pos (by simpa [BitVec.slt] using h)]
  · rw [if_neg (c := a.slt b = true) (by simpa [BitVec.slt] using h)]
    split
    · exact BitVec.eq_of_toInt_eq (by omega)
    · rfl

theorem aluOp_minu (a b : Word) : aluOp 13 a b = if b.ult a then b else a := by
  change (if a.toNat ≤ b.toNat then a else b) = _
  by_cases h : a.toNat ≤ b.toNat
  · rw [if_pos h, if_neg (by simpa [BitVec.ult] using h)]
  · rw [if_neg h, if_pos (by simpa [BitVec.ult] using h)]

theorem aluOp_maxu (a b : Word) : aluOp 14 a b = if a.ult b then b else a := by
  change (if a.toNat ≤ b.toNat then b else a) = _
  by_cases h : a.toNat < b.toNat
  · rw [if_pos h.le, if_pos (by simpa [BitVec.ult] using h)]
  · rw [if_neg (c := a.ult b = true) (by simpa [BitVec.ult] using h)]
    split
    · exact BitVec.eq_of_toNat_eq (by omega)
    · rfl

/-! ### Results of the compares (Table IS-6) -/

theorem cmpOp_ne (a b : Word) : cmpOp 1 a b = decide (a ≠ b) := by
  rw [decide_not, ← Bool.beq_eq_decide_eq]
  rfl

/-! ### PTOS and STOP (Table IS-7) -/

theorem Ctx.getLsbD_preds (c : Ctx) (i : Nat) : (BitVec.ofNat 32 c.preds).getLsbD i = (decide (i < 8) && c.rp i) := by
  rw [c.rp_eq, BitVec.getLsbD_ofNat]
  by_cases h : i < 8
  · simp [h, show i < 32 by omega]
  · have high : c.preds.testBit i = false :=
      Nat.testBit_lt_two_pow (c.preds_lt.trans_le (Nat.pow_le_pow_right (n := 2) (by decide) (Nat.not_lt.1 h)))
    simp [high]

/-- Writing predicates in turn changes predicates and register parity only. -/
theorem Ctx.wps_frame (f : Nat → Bool) (l : List Nat) (c : Ctx) :
    let c' := l.foldl (fun c i => c.wp i (f i)) c
    c' = { c with p := c'.p, parBad := c'.parBad } := by
  induction l generalizing c with
  | nil => rfl
  | cons i l ih =>
    rw [List.foldl_cons, ih, c.wp_frame]

/-- A predicate after several have been written, each with its own value (R204). -/
theorem Ctx.rp_wps (f : Nat → Bool) {n : Nat} (hn : n < 8) (h0 : n ≠ 0) (l : List Nat) (hl : ∀ i ∈ l, i < 8) (c : Ctx) :
    (l.foldl (fun c i => c.wp i (f i)) c).rp n = if n ∈ l then f n else c.rp n := by
  induction l generalizing c with
  | nil => rfl
  | cons i l ih =>
    rw [List.foldl_cons, ih (fun j hj => hl j (List.mem_cons_of_mem _ hj)), c.rp_wp _ (hl i List.mem_cons_self) hn]
    by_cases hm : n ∈ l
    · simp [hm]
    · by_cases e : n = i
      · subst e; simp [h0]
      · simp [hm, e]

end Sys2Proof.Machine

namespace Sys2Proof

open Machine

/-- Settles O7: by the register that the instruction writes, and by the value of each row of the tables. -/
theorem aluAndPredicatesCompute : Obligations.AluAndPredicatesCompute := by
  unfold Obligations.AluAndPredicatesCompute
  refine ⟨fun k x s w => ?alu, fun k x s w => ?compare, fun k x s w => ?predicate⟩
  case alu =>
    intro c a b n sets
    have run {i : Instr} {o : OpC} {v : Word} (m : Nat) (he : exec i s = .next (s.instr k x o (State.alu m k x)))
        (ho : o ∈ aluCodes) (hv : aluOp m a b = v) : sets i o v := by
      intro h
      refine ⟨_, he.trans (congrArg _ (State.instr_regOp h _)), ?_⟩
      rw [opB_alu h ho, hv]
      exact c.gets_ws (fRd_lt w) v
    have shift : b.toNat % 32 = n := (toNat_setWidth_five b).symm
    exact ⟨run 0 rfl (by decide) rfl, run 1 rfl (by decide) rfl, run 2 rfl (by decide) rfl, run 3 rfl (by decide) rfl,
      run 4 rfl (by decide) rfl, run 5 rfl (by decide) (shift ▸ rfl), run 6 rfl (by decide) (shift ▸ rfl),
      run 7 rfl (by decide) (shift ▸ rfl), run 8 rfl (by decide) (aluOp_mul a b), run 9 rfl (by decide) (aluOp_mulh a b),
      run 10 rfl (by decide) (aluOp_mulhu a b), run 11 rfl (by decide) (aluOp_min a b), run 12 rfl (by decide) (aluOp_max a b),
      run 13 rfl (by decide) (aluOp_minu a b), run 14 rfl (by decide) (aluOp_maxu a b)⟩
  case compare =>
    intro c a b sets
    have run {i : Instr} {o : OpC} {v : Bool} (m : Nat) (he : exec i s = .next (s.instr k x o (State.compare m k x)))
        (ho : o ∈ cmpCodes) (hv : cmpOp m a b = v) : sets i o v := by
      intro h
      refine ⟨_, he.trans (congrArg _ (State.instr_regOp h _)), ?_⟩
      rw [opB_compare h ho, hv]
      exact c.getsP_wp (Nat.mod_lt _ (by decide)) v
    exact ⟨run 0 rfl (by decide) (Bool.beq_eq_decide_eq a b), run 1 rfl (by decide) (cmpOp_ne a b), run 2 rfl (by decide) rfl,
      run 3 rfl (by decide) rfl, run 4 rfl (by decide) rfl, run 5 rfl (by decide) rfl, run 6 rfl (by decide) (cmpOp_ne _ _)⟩
  case predicate =>
    intro c a b sets
    have run {i : Instr} {o : OpC} {v : Bool} (m : Nat) (he : exec i s = .next (s.instr k x o (State.predicate m k x)))
        (hv : predOp m a b = v) : sets i o v := by
      intro h
      refine ⟨_, he.trans (congrArg _ (State.instr_regOp h _)), ?_⟩
      rw [hv]
      exact c.getsP_wp (Nat.mod_lt _ (by decide)) v
    refine ⟨run 0 rfl rfl, run 1 rfl rfl, run 2 rfl (congrFun (congrFun Bool.bne_eq_xor a) b), run 3 rfl rfl,
      run 4 rfl rfl, fun h => ?ptos, fun h => ?stop⟩
    case ptos =>
      exact ⟨_, _, congrArg _ (State.instr_regOp h _), c.gets_ws (fRd_lt w) (BitVec.ofNat 32 c.preds), c.getLsbD_preds⟩
    case stop =>
      let f (i : Nat) : Bool := bitsOf (c.rs (fRa w)).toNat i 1 == 1
      refine ⟨((upFrom 1 7).foldl (fun c i => c.wp i (f i)) c).next, congrArg _ (State.instr_regOp h _), ?_, fun i h1 h7 => ?_⟩
      · rw [c.wps_frame f]
        rfl
      · rw [Ctx.next_rp, c.rp_wps f (by omega) (by omega) _ (by decide), if_pos (by interval_cases i <;> decide)]
        exact bitsOf_one _ i

end Sys2Proof
end

section
/-! PROOF. O12: an exception is taken in a context (R229), TRAP raises one and ERET leaves its handler (R230). -/

namespace Sys2Proof.Machine

/-! ### The Logbook and the fault records of the Aft half -/

/-- From `s` to `t`, only Logbooks change, and the counters of their lost packets. -/
structure Logs (s t : State) : Prop where
  frame : t = { s with regs := t.regs, cores := t.cores }
  core : ∀ q, t.core q =
    { s.core q with log := (t.core q).log, logSince := (t.core q).logSince, logLost := (t.core q).logLost }
  regs : ∀ o, (∀ q : Fin 8, o ≠ (F.CORE_LOGDROP q).off) → t.getReg o = s.getReg o
  wf : mwf resetWord s.regs = true → mwf resetWord t.regs = true

theorem Logs.refl (s : State) : Logs s s := ⟨rfl, fun _ => rfl, fun _ _ => rfl, id⟩

theorem Logs.trans {s t u : State} (h : Logs s t) (h' : Logs t u) : Logs s u where
  frame := by rw [h'.frame, h.frame]
  core q := by rw [h'.core q, h.core q]
  regs o ho := by rw [h'.regs o ho, h.regs o ho]
  wf w := h'.wf (h.wf w)

theorem Logs.ite {s a b : State} {c : Prop} [Decidable c] (ha : Logs s a) (hb : Logs s b) : Logs s (if c then a else b) := by
  split <;> assumption

theorem Logs.ctx {s t : State} (h : Logs s t) (q : Fin 8) (y : Fin 3) : t.ctx q y = s.ctx q y := by
  unfold State.ctx
  rw [h.core q]

theorem Logs.smem {s t : State} (h : Logs s t) (q : Fin 8) : (t.core q).smem = (s.core q).smem := by rw [h.core q]

theorem Logs.sp {s t : State} (h : Logs s t) (q : Fin 8) : (t.core q).sp = (s.core q).sp := by rw [h.core q]

theorem Logs.flt {s t : State} (h : Logs s t) : t.flt = s.flt := by rw [h.frame]

theorem Logs.jobs {s t : State} (h : Logs s t) : t.jobs = s.jobs := by rw [h.frame]

theorem Logs.getF {s t : State} (h : Logs s t) {f : Fld} (hf : ∀ q : Fin 8, f.off ≠ (F.CORE_LOGDROP q).off) :
    t.getF f = s.getF f := by
  unfold State.getF
  rw [h.regs f.off hf]

theorem logdrop_ne_of_lt {o : Nat} (h : o < 0x100000) (q : Fin 8) : o ≠ (F.CORE_LOGDROP q).off := by
  simp only [F.CORE_LOGDROP]
  omega

theorem Logs.brgUp {s t : State} (h : Logs s t) : t.brgUp = s.brgUp := by
  unfold State.brgUp State.flag
  rw [h.getF (logdrop_ne_of_lt (by decide))]

/-- Replacing a core by one that differs in its Logbook. -/
theorem State.setCore_logs (s : State) (k : Fin 8) {c : Core}
    (h : c = { s.core k with log := c.log, logSince := c.logSince, logLost := c.logLost }) : Logs s (s.setCore k c) where
  frame := rfl
  core q := by
    by_cases e : q = k
    · subst e
      rw [State.core_setCore_same]
      exact h
    · rw [State.core_setCore_ne _ _ e]
  regs _ _ := rfl
  wf := id

theorem State.setF_logdrop_logs (s : State) (k : Fin 8) (v : Nat) : Logs s (s.setF (F.CORE_LOGDROP k) v) where
  frame := rfl
  core _ := rfl
  regs _ ho := s.getReg_setReg_ne _ (ho k)
  wf := s.setF_wf _ _

theorem State.log_logs (s : State) (k : Fin 8) (c u typ v : Nat) : Logs s (s.log k c u typ v) := by
  refine .ite (.refl s) (.ite (s.setCore_logs k rfl) (.trans (t := s.setCore k _) ?_ (State.setF_logdrop_logs _ k _)))
  exact s.setCore_logs k rfl

/-- A record of a core unit is noted in its Logbook, then held for the bridge, or counted as lost (R58). -/
theorem State.reportAft_eq (s : State) (r : FRec) : ∃ u, Logs s u ∧
    s.reportAft r = if u.brgUp || u.flt.aft.length < 16 then { u with flt := { u.flt with aft := u.flt.aft ++ [r] } }
      else { u with flt := { u.flt with aftLost := u.flt.aftLost + 1 } } := by
  refine ⟨_, ?_, rfl⟩
  exact .ite (s.log_logs ..) (.refl s)

/-- A record of the Aft half changes the held records, and a Logbook. -/
theorem State.reportAft_logs (s : State) (r : FRec) : Logs { s with flt := (s.reportAft r).flt } (s.reportAft r) := by
  obtain ⟨u, logged, e⟩ := s.reportAft_eq r
  have put (f : FltSt) : Logs { s with flt := f } { u with flt := f } :=
    ⟨by rw [logged.frame], logged.core, logged.regs, logged.wf⟩
  rw [e]
  split <;> exact put _

/-- With the bridge up no record is lost (R58). -/
theorem State.reportAft_aft {s : State} (r : FRec) (h : s.brgUp = true) : (s.reportAft r).flt.aft = s.flt.aft ++ [r] := by
  obtain ⟨u, logged, e⟩ := s.reportAft_eq r
  rw [e, logged.brgUp, h, Bool.true_or, if_pos rfl, logged.flt]

theorem State.reportAft_ctx (s : State) (r : FRec) (q : Fin 8) (y : Fin 3) : (s.reportAft r).ctx q y = s.ctx q y :=
  (s.reportAft_logs r).ctx q y

/-! ### What CORE_STATUS shows of a context -/

theorem State.setHalted_frame (s : State) (k : Fin 8) (x : Fin 3) (v : Nat) :
    s.setHalted k x v = { s with regs := (s.setHalted k x v).regs } := by
  unfold State.setHalted
  split
  · rfl
  · split <;> rfl

theorem State.setCause_frame (s : State) (k : Fin 8) (x : Fin 3) (cause : Nat) :
    s.setCause k x cause = { s with regs := (s.setCause k x cause).regs } := by
  unfold State.setCause
  split
  · rfl
  · split <;> rfl

theorem State.setHalted_ctx (s : State) (k : Fin 8) (x : Fin 3) (v : Nat) (q : Fin 8) (y : Fin 3) :
    (s.setHalted k x v).ctx q y = s.ctx q y := by rw [s.setHalted_frame]; rfl

theorem State.setCause_ctx (s : State) (k : Fin 8) (x : Fin 3) (cause : Nat) (q : Fin 8) (y : Fin 3) :
    (s.setCause k x cause).ctx q y = s.ctx q y := by rw [s.setCause_frame]; rfl

/-- The field of CORE_STATUS that shows the last exception of context 0 or 1. -/
def causeFld (k : Fin 8) (x : Fin 3) : Fld := if x = 0 then F.CORE_STATUS_CAUSE0 k else F.CORE_STATUS_CAUSE1 k

theorem causeFld_logged (k : Fin 8) (x : Fin 3) (q : Fin 8) : (causeFld k x).off ≠ (F.CORE_LOGDROP q).off := by
  have off : (causeFld k x).off = 0x100004 + 0x10000 * k.val := by
    unfold causeFld
    split <;> rfl
  rw [off]
  simp only [F.CORE_LOGDROP]
  omega

theorem State.getF_setCause {s : State} {k : Fin 8} {x : Fin 3} (hx : x ≠ 2) (cause : Nat) (h : mwf resetWord s.regs = true) :
    (s.setCause k x cause).getF (causeFld k x) = cause % 256 := by
  unfold State.setCause causeFld
  by_cases h0 : x = 0
  · rw [if_pos h0, if_pos h0, s.getF_setF_same _ _ h (by simp [F.CORE_STATUS_CAUSE0])]
    rfl
  · rw [if_neg h0, if_neg h0, if_pos (by omega), s.getF_setF_same _ _ h (by simp [F.CORE_STATUS_CAUSE1])]
    rfl

theorem State.setCause_wf (s : State) (k : Fin 8) (x : Fin 3) (cause : Nat) (h : mwf resetWord s.regs = true) :
    mwf resetWord (s.setCause k x cause).regs = true := by
  unfold State.setCause
  split
  · exact s.setF_wf _ _ h
  · split
    · exact s.setF_wf _ _ h
    · exact h

theorem State.getF_setHalted_causeFld {s : State} (k : Fin 8) (x y : Fin 3) (v : Nat) (h : mwf resetWord s.regs = true) :
    (s.setHalted k x v).getF (causeFld k y) = s.getF (causeFld k y) := by
  have apart : 5 ≤ (causeFld k y).lo ∧ (causeFld k y).lo + (causeFld k y).w ≤ 32 := by
    unfold causeFld
    split <;> simp [F.CORE_STATUS_CAUSE0, F.CORE_STATUS_CAUSE1]
  have other (f : Fld) (hf : f.lo + f.w ≤ 5) : (s.setF f v).getF (causeFld k y) = s.getF (causeFld k y) :=
    s.getF_setF_ne v h (by omega) apart.2 (.inr (.inl (by omega)))
  unfold State.setHalted
  split
  · exact other _ (by simp [F.CORE_STATUS_HALTED0])
  · split
    · exact other _ (by simp [F.CORE_STATUS_HALTED1])
    · rfl

theorem State.brgUp_setF_core (s : State) {f : Fld} (v : Nat) (h : 0x100000 ≤ f.off) : (s.setF f v).brgUp = s.brgUp :=
  s.brgUp_setReg _ (by simp only [F.BRG_STATUS_UP]; omega)

theorem State.brgUp_setCause (s : State) (k : Fin 8) (x : Fin 3) (cause : Nat) : (s.setCause k x cause).brgUp = s.brgUp := by
  unfold State.setCause
  split
  · exact s.brgUp_setF_core _ (by simp only [F.CORE_STATUS_CAUSE0]; omega)
  · split
    · exact s.brgUp_setF_core _ (by simp only [F.CORE_STATUS_CAUSE1]; omega)
    · rfl

theorem State.brgUp_setHalted (s : State) (k : Fin 8) (x : Fin 3) (v : Nat) : (s.setHalted k x v).brgUp = s.brgUp := by
  unfold State.setHalted
  split
  · exact s.brgUp_setF_core _ (by simp only [F.CORE_STATUS_HALTED0]; omega)
  · split
    · exact s.brgUp_setF_core _ (by simp only [F.CORE_STATUS_HALTED1]; omega)
    · rfl

/-! ### The parts of an exception (R229) -/

/-- The context with the exception written to it. -/
def Ctx.faulted (c : Ctx) (pc cause : Nat) (tok : Option Nat) (trap : Nat) : Ctx :=
  { c with epc := pc, ecause := ecauseWord cause tok trap }

/-- The exception is shown in CORE_STATUS and noted in the Logbook. -/
def State.noteExc (s : State) (k : Fin 8) (x : Fin 3) (pc cause : Nat) (tok : Option Nat) : State :=
  (s.setCause k x cause).log k x.val 0 0x20 (cause + pc * 256 + (tok.getD 0) * 2 ^ 23)

/-- The PROGRAM_EXCEPTION record of a context. -/
def excRec (t : Nat) (k : Fin 8) (c : Ctx) (pc cause trap : Nat) : FRec :=
  { mkRec t (coreUnit k 0) 0x31 with
    job := c.job.getD 0, kill := true, opc := if cause = excTrap then trap else pc,
    core := if cause = excTrap ∧ 0xE000 ≤ trap ∧ trap ≤ 0xEFFF then some k.val else none }

/-- The context halts at an exception, with its record. -/
def State.die (s : State) (k : Fin 8) (x : Fin 3) (c : Ctx) (pc cause trap : Nat) : State :=
  let s := (s.setCtx k x { c with pc := pc, halted := true, running := false }).setHalted k x 1
  s.reportAft (excRec s.time.aft k c pc cause trap)

theorem State.noteExc_logs (s : State) (k : Fin 8) (x : Fin 3) (pc cause : Nat) (tok : Option Nat) :
    Logs (s.setCause k x cause) (s.noteExc k x pc cause tok) := State.log_logs ..

section

variable (s : State) (k : Fin 8) (x : Fin 3) (pc cause : Nat) (tok : Option Nat)

@[simp] theorem State.noteExc_ctx (q : Fin 8) (y : Fin 3) : (s.noteExc k x pc cause tok).ctx q y = s.ctx q y := by
  rw [(s.noteExc_logs k x pc cause tok).ctx, s.setCause_ctx]

@[simp] theorem State.noteExc_smem (q : Fin 8) : ((s.noteExc k x pc cause tok).core q).smem = (s.core q).smem := by
  rw [(s.noteExc_logs k x pc cause tok).smem, s.setCause_frame]; rfl

@[simp] theorem State.noteExc_sp (q : Fin 8) : ((s.noteExc k x pc cause tok).core q).sp = (s.core q).sp := by
  rw [(s.noteExc_logs k x pc cause tok).sp, s.setCause_frame]; rfl

@[simp] theorem State.noteExc_flt : (s.noteExc k x pc cause tok).flt = s.flt := by
  rw [(s.noteExc_logs k x pc cause tok).flt, s.setCause_frame]

@[simp] theorem State.noteExc_jobs : (s.noteExc k x pc cause tok).jobs = s.jobs := by
  rw [(s.noteExc_logs k x pc cause tok).jobs, s.setCause_frame]

@[simp] theorem State.noteExc_brgUp : (s.noteExc k x pc cause tok).brgUp = s.brgUp := by
  rw [(s.noteExc_logs k x pc cause tok).brgUp, s.brgUp_setCause]

theorem State.noteExc_wf {s : State} (h : mwf resetWord s.regs = true) :
    mwf resetWord (s.noteExc k x pc cause tok).regs = true := (s.noteExc_logs k x pc cause tok).wf (s.setCause_wf k x cause h)

theorem State.noteExc_cause {s : State} {x : Fin 3} (hx : x ≠ 2) (h : mwf resetWord s.regs = true) :
    (s.noteExc k x pc cause tok).getF (causeFld k x) = cause % 256 := by
  rw [(s.noteExc_logs k x pc cause tok).getF (causeFld_logged k x), State.getF_setCause hx cause h]

end

section

variable (s : State) (k : Fin 8) (x : Fin 3) (c : Ctx) (pc cause trap : Nat)

/-- The record of a halt changes the held records, and a Logbook, of the state in which the context has halted. -/
theorem State.die_logs : ∃ f,
    Logs { (s.setCtx k x { c with pc := pc, halted := true, running := false }).setHalted k x 1 with flt := f }
      (s.die k x c pc cause trap) := ⟨_, State.reportAft_logs ..⟩

theorem State.die_ctx_same : (s.die k x c pc cause trap).ctx k x = { c with pc := pc, halted := true, running := false } := by
  rw [State.die, State.reportAft_ctx, State.setHalted_ctx, State.ctx_setCtx_same]

theorem State.die_ctx_ne {q : Fin 8} {y : Fin 3} (h : q ≠ k ∨ y ≠ x) : (s.die k x c pc cause trap).ctx q y = s.ctx q y := by
  rw [State.die, State.reportAft_ctx, State.setHalted_ctx, State.ctx_setCtx_ne _ _ h]

/-- The memories of a core stay when a context is replaced. -/
theorem State.setCtx_smem (q : Fin 8) : ((s.setCtx k x c).core q).smem = (s.core q).smem := by
  by_cases e : q = k
  · subst e; rw [State.setCtx, State.core_setCore_same]
  · rw [State.setCtx, State.core_setCore_ne _ _ e]

theorem State.setCtx_sp (q : Fin 8) : ((s.setCtx k x c).core q).sp = (s.core q).sp := by
  by_cases e : q = k
  · subst e; rw [State.setCtx, State.core_setCore_same]
  · rw [State.setCtx, State.core_setCore_ne _ _ e]

theorem State.die_smem (q : Fin 8) : ((s.die k x c pc cause trap).core q).smem = (s.core q).smem := by
  obtain ⟨f, logged⟩ := s.die_logs k x c pc cause trap
  rw [logged.smem, State.setHalted_frame]
  exact s.setCtx_smem k x _ q

theorem State.die_sp (q : Fin 8) : ((s.die k x c pc cause trap).core q).sp = (s.core q).sp := by
  obtain ⟨f, logged⟩ := s.die_logs k x c pc cause trap
  rw [logged.sp, State.setHalted_frame]
  exact s.setCtx_sp k x _ q

theorem State.die_aft {s : State} (h : s.brgUp = true) :
    ∃ n, (s.die k x c pc cause trap).flt.aft = s.flt.aft ++ [excRec n k c pc cause trap] := by
  let u := (s.setCtx k x { c with pc := pc, halted := true, running := false }).setHalted k x 1
  have told : (s.die k x c pc cause trap).flt.aft = u.flt.aft ++ [excRec u.time.aft k c pc cause trap] :=
    State.reportAft_aft _ ((State.brgUp_setHalted ..).trans h)
  have held : u.flt = s.flt := by
    rw [show u = _ from State.setHalted_frame ..]
    rfl
  exact ⟨_, held ▸ told⟩

theorem State.die_cause {s : State} (y : Fin 3) (h : mwf resetWord s.regs = true) :
    (s.die k x c pc cause trap).getF (causeFld k y) = s.getF (causeFld k y) := by
  obtain ⟨f, logged⟩ := s.die_logs k x c pc cause trap
  rw [logged.getF (causeFld_logged k y)]
  exact State.getF_setHalted_causeFld (s := s.setCtx k x _) k x y 1 h

end

/-! ### What an exception does (R229) -/

theorem State.handlerOf_eq (s : State) (c : Ctx) :
    s.handlerOf c = (c.job.bind s.job).bind (fun j => if j.handler = 0xFFFF then none else some j.handler) := by
  unfold State.handlerOf
  cases c.job with
  | none => rfl
  | some id => cases h : s.job id <;> simp [h]

section

variable (s : State) (k : Fin 8) (x : Fin 3) (pc cause : Nat) (tok : Option Nat) (trap : Nat)

/-- An exception is noted; then the context dies, enters its handler or, after a UNIT_POISON, goes on. -/
theorem State.raise_eq :
    let u := s.noteExc k x pc cause tok
    let c := (s.ctx k x).faulted pc cause tok trap
    s.raise k x pc cause tok trap =
      if c.handler then u.die k x c pc cause trap
      else (s.handlerOf (s.ctx k x)).elim
        (if cause = excUnitPoison then u.setCtx k x { c with pc := (pc + 1) % 32768 } else u.die k x c pc cause trap)
        (fun h => u.setCtx k x { c with handler := true, pc := h }) := by
  intro u c
  have same : u.handlerOf c = s.handlerOf (s.ctx k x) := by
    rw [u.handlerOf_eq, s.handlerOf_eq]
    unfold State.job
    rw [s.noteExc_jobs k x pc cause tok]
    rfl
  rw [← same]
  change (if c.handler then _ else match u.handlerOf c with | some h => _ | none => _) = _
  cases u.handlerOf c <;> rfl

variable {s k x pc cause tok trap}

/-- In a handler, or with none and a cause that is not passed over, the context halts. -/
theorem State.raise_die (h : (s.ctx k x).handler = true ∨ s.handlerOf (s.ctx k x) = none ∧ cause ≠ excUnitPoison) :
    s.raise k x pc cause tok trap =
      (s.noteExc k x pc cause tok).die k x ((s.ctx k x).faulted pc cause tok trap) pc cause trap := by
  rw [State.raise_eq]
  obtain handling | ⟨alone, other⟩ := h
  · exact if_pos handling
  · rw [alone, Option.elim_none, if_neg other, ite_self]

theorem State.raise_handler {h : Nat} (out : (s.ctx k x).handler = false) (vec : s.handlerOf (s.ctx k x) = some h) :
    s.raise k x pc cause tok trap = (s.noteExc k x pc cause tok).setCtx k x
      { (s.ctx k x).faulted pc cause tok trap with handler := true, pc := h } := by
  rw [State.raise_eq, vec]
  exact if_neg (by rw [Ctx.faulted, out]; decide)

theorem State.raise_passed (out : (s.ctx k x).handler = false) (alone : s.handlerOf (s.ctx k x) = none)
    (poison : cause = excUnitPoison) : s.raise k x pc cause tok trap = (s.noteExc k x pc cause tok).setCtx k x
      { (s.ctx k x).faulted pc cause tok trap with pc := (pc + 1) % 32768 } := by
  rw [State.raise_eq, alone, Option.elim_none, if_pos poison]
  exact if_neg (by rw [Ctx.faulted, out]; decide)

/-- What holds after an exception, whatever the context then does: its scalar registers stay. -/
theorem State.raise_elim {P : State → Prop}
    (goes : ∀ c, c.s = (s.ctx k x).s → P ((s.noteExc k x pc cause tok).setCtx k x c))
    (dies : ∀ c, c.s = (s.ctx k x).s → P ((s.noteExc k x pc cause tok).die k x c pc cause trap)) :
    P (s.raise k x pc cause tok trap) := by
  cases out : (s.ctx k x).handler with
  | true => exact State.raise_die (.inl out) ▸ dies _ rfl
  | false =>
    cases vec : s.handlerOf (s.ctx k x) with
    | some h => exact State.raise_handler out vec ▸ goes _ rfl
    | none =>
      by_cases poison : cause = excUnitPoison
      · exact State.raise_passed out vec poison ▸ goes _ rfl
      · exact State.raise_die (.inr ⟨vec, poison⟩) ▸ dies _ rfl

theorem State.raise_ctx_ne {q : Fin 8} {y : Fin 3} (h : q ≠ k ∨ y ≠ x) :
    (s.raise k x pc cause tok trap).ctx q y = s.ctx q y :=
  State.raise_elim (P := fun t => t.ctx q y = s.ctx q y) (fun c _ => by rw [State.ctx_setCtx_ne _ _ h, State.noteExc_ctx])
    (fun c _ => by rw [State.die_ctx_ne _ _ _ _ _ _ _ h, State.noteExc_ctx])

/-- An exception leaves the scalar registers. -/
theorem State.raise_rs (n : Nat) : ((s.raise k x pc cause tok trap).ctx k x).rs n = (s.ctx k x).rs n :=
  State.raise_elim (P := fun t => (t.ctx k x).rs n = (s.ctx k x).rs n)
    (fun c h => by rw [State.ctx_setCtx_same, Ctx.rs, h]; rfl) (fun c h => by rw [State.die_ctx_same, Ctx.rs, h]; rfl)

theorem State.raise_memories (q : Fin 8) : ((s.raise k x pc cause tok trap).core q).smem = (s.core q).smem ∧
    ((s.raise k x pc cause tok trap).core q).sp = (s.core q).sp :=
  State.raise_elim (P := fun t => (t.core q).smem = (s.core q).smem ∧ (t.core q).sp = (s.core q).sp)
    (fun c _ => by rw [State.setCtx_smem, State.setCtx_sp, State.noteExc_smem, State.noteExc_sp]; exact ⟨rfl, rfl⟩)
    (fun c _ => by rw [State.die_smem, State.die_sp, State.noteExc_smem, State.noteExc_sp]; exact ⟨rfl, rfl⟩)

/-- CORE_STATUS shows the exception of context 0 or 1. -/
theorem State.raise_cause (hx : x ≠ 2) (h : mwf resetWord s.regs = true) :
    (s.raise k x pc cause tok trap).getF (causeFld k x) = cause % 256 :=
  State.raise_elim (P := fun t => t.getF (causeFld k x) = cause % 256)
    (fun c _ => State.noteExc_cause k pc cause tok hx h)
    (fun c _ => by
      rw [State.die_cause k x c pc cause trap x (State.noteExc_wf k x pc cause tok h), State.noteExc_cause k pc cause tok hx h])

end

end Sys2Proof.Machine

namespace Sys2Proof

open Machine

/-- Settles O12: by what the context does once the exception is noted. -/
theorem exceptionsAreTaken : Obligations.ExceptionsAreTaken := by
  unfold Obligations.ExceptionsAreTaken
  refine ⟨fun s k x pc cause tok trap => ?raised, fun k x s w id h j => ?control⟩
  case raised =>
    intro c t e handler dies
    have word : ecauseWord cause tok trap = e := by
      unfold ecauseWord
      cases tok <;> rfl
    have named : s.handlerOf c = handler := s.handlerOf_eq c
    have die (h : c.handler = true ∨ s.handlerOf c = none ∧ cause ≠ excUnitPoison) : dies := by
      have t_eq : t = _ := State.raise_die h
      refine ⟨?_, fun up => ?_⟩
      · rw [t_eq, State.die_ctx_same, Ctx.faulted, word]
      · obtain ⟨n, told⟩ := State.die_aft k x (c.faulted pc cause tok trap) pc cause trap
          ((s.noteExc_brgUp k x pc cause tok).trans up)
        rw [State.noteExc_flt] at told
        exact ⟨_, by rw [t_eq, told], rfl, rfl, rfl, fun trapped => if_pos trapped⟩
    refine ⟨fun h => die (.inl h), fun h out vec => ?_, fun out alone poison => ?_, fun out alone other => ?_, fun wf small => ?_,
      fun q y h => State.raise_ctx_ne h, State.raise_memories⟩
    · have t_eq : t = _ := State.raise_handler out (named.trans vec)
      rw [t_eq, State.ctx_setCtx_same, State.setCtx_flt, State.noteExc_flt, Ctx.faulted, word]
      exact ⟨rfl, rfl⟩
    · have t_eq : t = _ := State.raise_passed out (named.trans alone) poison
      rw [t_eq, State.ctx_setCtx_same, State.setCtx_flt, State.noteExc_flt, Ctx.faulted, word]
      exact ⟨rfl, rfl⟩
    · exact die (.inr ⟨named.trans alone, other⟩)
    · have shown (hx : x ≠ 2) : t.getF (causeFld k x) = cause :=
        (State.raise_cause hx wf).trans (Nat.mod_eq_of_lt (by omega))
      constructor
      · rintro rfl
        exact shown (by decide)
      · rintro rfl
        exact shown (by decide)
  case control =>
    intro c
    refine ⟨fun run out job loaded vec valid => ?_, fun run inside => ?_, fun run out => ?_⟩
    · refine ⟨s.raise k x c.pc excTrap none (fImm w % 65536), congrArg _ (State.instr_run run _), ?_⟩
      have handles : s.handlerOf c = some h := by
        rw [s.handlerOf_eq, job, Option.bind_some, loaded, Option.bind_some, if_neg (vec ▸ valid), vec]
      rw [State.raise_handler out handles, State.ctx_setCtx_same]
      rfl
    · refine congrArg _ ((State.instr_run run _).trans ?_)
      exact if_neg (by simp [show (s.ctx k x).handler = true from inside])
    · refine congrArg _ ((State.instr_run run _).trans ?_)
      exact if_pos (by simp [show (s.ctx k x).handler = false from out])

end Sys2Proof
end

section
/-! PROOF. O8: writes of S0 and P0 are ignored (R204). -/

namespace Sys2Proof.Machine

/-! ### The command of a stripe instruction -/

/-- The command that runs a stripe instruction in a context. -/
def OpC.command (k : Fin 8) (x : Fin 3) : OpC → Instr
  | .add => .add k x | .sub => .sub k x | .and_ => .andOp k x | .or_ => .orOp k x | .xor_ => .xorOp k x
  | .sll => .sll k x | .srl => .srl k x | .sra => .sra k x | .mul => .mul k x | .mulh => .mulh k x
  | .mulhu => .mulhu k x | .min_ => .min k x | .max_ => .max k x | .minu => .minu k x | .maxu => .maxu k x
  | .eq => .eq k x | .ne => .ne k x | .lt => .lt k x | .ge => .ge k x | .ltu => .ltu k x | .geu => .geu k x
  | .tst => .tst k x | .pand => .pand k x | .por => .por k x | .pxor => .pxor k x | .pandn => .pandn k x
  | .pnot => .pnot k x | .ptos => .ptos k x | .predStop => .predStop k x | .lb => .lb k x | .lbu => .lbu k x
  | .lh => .lh k x | .lhu => .lhu k x | .lw => .lw k x | .sb => .sb k x | .sh => .sh k x | .sw => .sw k x
  | .dget => .dget k x | .dset => .dset k x | .dld => .dld k x | .dsto => .dsto k x | .dcpy => .dcpy k x
  | .info => .info k x | .br => .br k x | .bcc => .bcc k x | .call => .call k x | .jr => .jr k x
  | .endstripe => .endstripe k x | .eret => .eret k x | .twait => .twait k x | .twaitm => .twaitm k x
  | .ttest => .ttest k x | .bar => .bar k x | .gsend => .gsend k x | .grecv => .grecv k x | .wwait => .wwait k x
  | .trap => .trap k x | .halt => .halt k x | .crr => .crr k x | .crw => .crw k x | .srseed => .srseed k x
  | .logput => .logput k x | .conv => .conv k x | .wino => .wino k x | .mmul => .mmul k x | .dwconv => .dwconv k x
  | .ewise => .ewise k x | .lutDirect => .lutDirect k x | .lutPwl => .lutPwl k x | .pool => .pool k x
  | .resize => .resize k x | .argmax => .argmax k x | .dcmpCompare => .dcmpCompare k x | .dcmpForce => .dcmpForce k x
  | .dmrgMerge => .dmrgMerge k x | .dmrgAdd => .dmrgAdd k x | .dmrgDilate => .dmrgDilate k x
  | .bwdDgrad => .bwdDgrad k x | .bwdWgrad => .bwdWgrad k x | .opt => .opt k x | .xfixShelf => .xfixShelf k x
  | .xfixDrawer => .xfixDrawer k x | .dmaRead => .dmaRead k x | .dmaWrite => .dmaWrite k x
  | .rxferRead => .rxferRead k x | .rxferWrite => .rxferWrite k x | .rcopy => .rcopy k x | .smld => .smld k x
  | .smst => .smst k x | .psend => .psend k x | .qstatCurrent => .qstatCurrent k x | .qstatHistory => .qstatHistory k x
  | .quant => .quant k x | .deqFloat => .deqFloat k x | .deqIntmul => .deqIntmul k x | .qcvt => .qcvt k x
  | .ckctl => .ckctl k x | .digest => .digest k x | .ptest => .ptest k x

end Sys2Proof.Machine

namespace Sys2Proof

open Machine

theorem eq_command_of_stripeOp {i : Instr} {k : Fin 8} {x : Fin 3} {o : OpC} (h : i.stripeOp = some (k, x, o)) :
    i = o.command k x := by
  unfold Instr.stripeOp at h
  split at h <;> cases h <;> rfl

end Sys2Proof

namespace Sys2Proof.Machine

/-! ### S0 and P0 -/

@[simp] theorem Ctx.ws_zero (c : Ctx) (v : Word) : c.ws 0 v = c := rfl

@[simp] theorem Ctx.wp_zero (c : Ctx) (b : Bool) : c.wp 0 b = c := rfl

theorem Ctx.rp_zero (c : Ctx) : c.rp 0 = true := by
  rw [c.rp_eq, c.preds_testBit]
  rfl

/-! ### What stays of a context's registers -/

theorem vset_vget {α : Type} {n : Nat} (v : Vector α n) (i : Fin n) : vset v i (vget v i) = v := by simp [vset, vget]

theorem State.setCtx_ctx (s : State) (k : Fin 8) (x : Fin 3) : s.setCtx k x (s.ctx k x) = s := by
  unfold State.setCtx State.ctx
  rw [vset_vget]
  unfold State.setCore State.core
  exact congrArg (fun v => { s with cores := v }) (vset_vget s.cores k)

section

variable {k : Fin 8} {x : Fin 3} {w : BitVec 64}

theorem State.regOp_rs (s : State) {f : Ctx → Ctx} (hf : ∀ n, (f (s.ctx k x)).rs n = (s.ctx k x).rs n) (n : Nat) :
    ((s.regOp k x f).ctx k x).rs n = (s.ctx k x).rs n := by
  rw [State.regOp, State.ctx_setCtx_same]
  exact hf n

/-- A load into S0 leaves the scalar registers, also when it raises an exception. -/
theorem State.load_rs (m : Nat) (sgn : Bool) (s : State) (hd : fRd w = 0) (n : Nat) :
    ((State.load m sgn k x w s).ctx k x).rs n = (s.ctx k x).rs n := by
  unfold State.load
  dsimp only
  split
  · exact State.raise_rs n
  · exact s.regOp_rs (fun n => by rw [hd, Ctx.ws_zero]) n

/-- A register access into S0 leaves the scalar registers: it raises an exception, waits for its answer, or is refused. -/
theorem State.regRead_rs (s : State) (hd : fRd w = 0) (n : Nat) :
    ((State.regAccess false k x w s).ctx k x).rs n = (s.ctx k x).rs n := by
  unfold State.regAccess
  dsimp only
  split
  · exact State.raise_rs n
  · split
    · rw [State.ctx_setCtx_same]
      rfl
    · rw [State.regOp_rs _ (fun n => by rw [if_neg (by decide), hd, Ctx.ws_zero]), State.reportAft_ctx]

end

end Sys2Proof.Machine

namespace Sys2Proof

open Machine

/-- From `s` to `t`, only a context changes, and its scalar registers stay. -/
def ScalarsStay (k : Fin 8) (x : Fin 3) (s t : State) : Prop :=
  CtxOnly k x s t ∧ ∀ n, n < 32 → (t.ctx k x).rs n = (s.ctx k x).rs n

/-- From `s` to `t`, only a context changes, and its predicates stay. -/
def PredicatesStay (k : Fin 8) (x : Fin 3) (s t : State) : Prop :=
  CtxOnly k x s t ∧ ∀ n, n < 8 → (t.ctx k x).rp n = (s.ctx k x).rp n

theorem PredicatesStay.refl (k : Fin 8) (x : Fin 3) (s : State) : PredicatesStay k x s s :=
  ⟨(s.setCtx_ctx k x).symm, fun _ _ => rfl⟩

theorem regOp_only (k : Fin 8) (x : Fin 3) (s : State) (f : Ctx → Ctx) : CtxOnly k x s (s.regOp k x f) := by
  unfold CtxOnly State.regOp
  rw [State.ctx_setCtx_same]

theorem regOp_predicates_stay {k : Fin 8} {x : Fin 3} {s : State} {f : Ctx → Ctx}
    (hf : ∀ n, (f (s.ctx k x)).rp n = (s.ctx k x).rp n) : PredicatesStay k x s (s.regOp k x f) := by
  refine ⟨regOp_only k x s f, fun n _ => ?_⟩
  rw [State.regOp, State.ctx_setCtx_same]
  exact hf n

section

variable {i : Instr} {k : Fin 8} {x : Fin 3} {s : State} {o : OpC} {w : BitVec 64} {body : BitVec 64 → State → State}

theorem scalars_stay (he : exec i s = .next (s.instr k x o body)) (run : s.fetchOp k x = .run o w) (f : Ctx → Ctx)
    (hb : body w s = s.regOp k x f) (hf : ∀ n, (f (s.ctx k x)).rs n = (s.ctx k x).rs n) :
    ∃ t, exec i s = .next t ∧ ScalarsStay k x s t :=
  ⟨s.regOp k x f, by rw [he, State.instr_run run, hb], regOp_only k x s f, fun n _ => s.regOp_rs hf n⟩

theorem predicates_stay (he : exec i s = .next (s.instr k x o body)) (run : s.fetchOp k x = .run o w) (f : Ctx → Ctx)
    (hb : body w s = s.regOp k x f) (hf : ∀ n, (f (s.ctx k x)).rp n = (s.ctx k x).rp n) :
    ∃ t, exec i s = .next t ∧ PredicatesStay k x s t :=
  ⟨s.regOp k x f, by rw [he, State.instr_run run, hb], regOp_predicates_stay hf⟩

end

/-! ### The instructions by the form of their effect -/

/-- The predicate instructions that write one predicate, and the loads (Table IS-7, R213). -/
def predCodes : List OpC := [.pand, .por, .pxor, .pandn, .pnot]
def loadCodes : List OpC := [.lb, .lbu, .lh, .lhu, .lw]

theorem exec_of_mem_aluCodes {o : OpC} (h : o ∈ aluCodes) (k : Fin 8) (x : Fin 3) (s : State) :
    ∃ m, exec (o.command k x) s = .next (s.instr k x o (State.alu m k x)) := by
  simp only [aluCodes, List.mem_cons, List.not_mem_nil, or_false] at h
  rcases h with rfl | rfl | rfl | rfl | rfl | rfl | rfl | rfl | rfl | rfl | rfl | rfl | rfl | rfl | rfl
  exacts [⟨0, rfl⟩, ⟨1, rfl⟩, ⟨2, rfl⟩, ⟨3, rfl⟩, ⟨4, rfl⟩, ⟨5, rfl⟩, ⟨6, rfl⟩, ⟨7, rfl⟩, ⟨8, rfl⟩, ⟨9, rfl⟩, ⟨10, rfl⟩,
    ⟨11, rfl⟩, ⟨12, rfl⟩, ⟨13, rfl⟩, ⟨14, rfl⟩]

theorem exec_of_mem_cmpCodes {o : OpC} (h : o ∈ cmpCodes) (k : Fin 8) (x : Fin 3) (s : State) :
    ∃ m, exec (o.command k x) s = .next (s.instr k x o (State.compare m k x)) := by
  simp only [cmpCodes, List.mem_cons, List.not_mem_nil, or_false] at h
  rcases h with rfl | rfl | rfl | rfl | rfl | rfl | rfl
  exacts [⟨0, rfl⟩, ⟨1, rfl⟩, ⟨2, rfl⟩, ⟨3, rfl⟩, ⟨4, rfl⟩, ⟨5, rfl⟩, ⟨6, rfl⟩]

theorem exec_of_mem_predCodes {o : OpC} (h : o ∈ predCodes) (k : Fin 8) (x : Fin 3) (s : State) :
    ∃ m, exec (o.command k x) s = .next (s.instr k x o (State.predicate m k x)) := by
  simp only [predCodes, List.mem_cons, List.not_mem_nil, or_false] at h
  rcases h with rfl | rfl | rfl | rfl | rfl
  exacts [⟨0, rfl⟩, ⟨1, rfl⟩, ⟨2, rfl⟩, ⟨3, rfl⟩, ⟨4, rfl⟩]

theorem exec_of_mem_loadCodes {o : OpC} (h : o ∈ loadCodes) (k : Fin 8) (x : Fin 3) (s : State) :
    ∃ m sgn, exec (o.command k x) s = .next (s.instr k x o (State.load m sgn k x)) := by
  simp only [loadCodes, List.mem_cons, List.not_mem_nil, or_false] at h
  rcases h with rfl | rfl | rfl | rfl | rfl
  exacts [⟨1, true, rfl⟩, ⟨1, false, rfl⟩, ⟨2, true, rfl⟩, ⟨2, false, rfl⟩, ⟨4, false, rfl⟩]

/-- INFO into S0 leaves the scalar registers; selector 9 still latches. -/
theorem info_scalars_stay {k : Fin 8} {x : Fin 3} {s : State} {w : BitVec 64} (run : s.fetchOp k x = .run .info w)
    (hd : fRd w = 0) : ∃ t, exec (.info k x) s = .next t ∧ ScalarsStay k x s t := by
  refine scalars_stay (i := .info k x) rfl run _ rfl (fun n => ?_)
  dsimp only
  rw [hd, Ctx.ws_zero]
  split <;> rfl

/-- WWAIT into P0 leaves the predicates; while the count is not reached it leaves everything. -/
theorem wwait_predicates_stay {k : Fin 8} {x : Fin 3} {s : State} {w : BitVec 64} (run : s.fetchOp k x = .run .wwait w)
    (hd : fRd w % 8 = 0) : ∃ t, exec (.wwait k x) s = .next t ∧ PredicatesStay k x s t := by
  have answers (b : Bool) : PredicatesStay k x s (s.regOp k x (fun c => c.wp (fRd w % 8) b)) :=
    regOp_predicates_stay (fun n => by rw [hd, Ctx.wp_zero])
  refine ⟨_, rfl, ?_⟩
  rw [State.instr_run run]
  exact iteInduction (fun _ => answers false) (fun _ => iteInduction (fun _ => answers true) (fun _ => .refl k x s))

/-- Settles O8: by the form of the instruction, each of which writes its result by `Ctx.ws` or `Ctx.wp`. -/
theorem registerZeroStays : Obligations.RegisterZeroStays := by
  unfold Obligations.RegisterZeroStays
  intro k x s w i o
  refine ⟨fun q y => ⟨rfl, Ctx.rp_zero _⟩, fun op run => ?_⟩
  obtain rfl := eq_command_of_stripeOp op
  have scalar (c : Ctx) (v : Word) (n : Nat) (hd : fRd w = 0) : (c.ws (fRd w) v).rs n = c.rs n := by rw [hd, Ctx.ws_zero]
  have predicate (c : Ctx) (b : Bool) (n : Nat) (hd : fRd w % 8 = 0) : (c.wp (fRd w % 8) b).rp n = c.rp n := by
    rw [hd, Ctx.wp_zero]
  refine ⟨fun ho hd => ?registers, fun ho hd => ?accesses, fun ho hd => ?predicates⟩
  case registers =>
    rcases List.mem_append.1 (show o ∈ aluCodes ++ [.ptos, .dget, .info] from ho) with alu | other
    · obtain ⟨m, he⟩ := exec_of_mem_aluCodes alu k x s
      exact scalars_stay he run _ rfl (fun n => scalar _ _ n hd)
    · simp only [List.mem_cons, List.not_mem_nil, or_false] at other
      rcases other with rfl | rfl | rfl
      · exact scalars_stay (i := .ptos k x) rfl run _ rfl (fun n => scalar _ _ n hd)
      · exact scalars_stay (i := .dget k x) rfl run _ rfl (fun n => scalar _ _ n hd)
      · exact info_scalars_stay run hd
  case accesses =>
    rcases List.mem_append.1 (show o ∈ loadCodes ++ [.crr] from ho) with load | other
    · obtain ⟨m, sgn, he⟩ := exec_of_mem_loadCodes load k x s
      exact ⟨_, he.trans (congrArg _ (State.instr_run run _)), fun n _ => State.load_rs m sgn s hd n⟩
    · obtain rfl := List.mem_singleton.1 other
      refine ⟨_, rfl, fun n _ => ?_⟩
      rw [State.instr_run run]
      exact State.regRead_rs s hd n
  case predicates =>
    rcases List.mem_append.1 (show o ∈ cmpCodes ++ (predCodes ++ [.ttest, .wwait]) from ho) with compare | other
    · obtain ⟨m, he⟩ := exec_of_mem_cmpCodes compare k x s
      exact predicates_stay he run _ rfl (fun n => predicate _ _ n hd)
    rcases List.mem_append.1 other with pred | other
    · obtain ⟨m, he⟩ := exec_of_mem_predCodes pred k x s
      exact predicates_stay he run _ rfl (fun n => predicate _ _ n hd)
    · simp only [List.mem_cons, List.not_mem_nil, or_false] at other
      rcases other with rfl | rfl
      · exact predicates_stay (i := .ttest k x) rfl run _ rfl (fun n => predicate _ _ n hd)
      · exact wwait_predicates_stay run hd

end Sys2Proof
end

section
/-! PROOF. O54: the judgement of an image and the job it becomes (R236, R237); the unload of a job (R239). -/

namespace Sys2Proof.Machine

/-! ### The registers' canonical form through a read of the firmware -/

/-- The registers are in their canonical form. -/
abbrev State.RegsWf (s : State) : Prop := mwf resetWord s.regs = true

namespace State.RegsWf

variable {s : State}

theorem ite_snd {α : Type} {a b : α × State} {c : Prop} [Decidable c] (ha : a.2.RegsWf) (hb : b.2.RegsWf) :
    (if c then a else b).2.RegsWf := by
  split <;> assumption

theorem ite {a b : State} {c : Prop} [Decidable c] (ha : a.RegsWf) (hb : b.RegsWf) : (if c then a else b).RegsWf := by
  split <;> assumption

theorem setReg (h : s.RegsWf) (o : Nat) (v : Word) : (s.setReg o v).RegsWf := s.setReg_wf o v h

theorem setF (h : s.RegsWf) (f : Fld) (v : Nat) : (s.setF f v).RegsWf := s.setF_wf f v h

theorem bump (h : s.RegsWf) (f : Fld) (n : Nat) : (s.bump f n).RegsWf := h.setF ..

theorem setCore (h : s.RegsWf) (k : Fin 8) (c : Core) : (s.setCore k c).RegsWf := h

theorem reportAft (h : s.RegsWf) (r : FRec) : (s.reportAft r).RegsWf := (s.reportAft_logs r).wf h

theorem refuseRead (h : s.RegsWf) (n : Nat) (r : FRec) : (s.refuseRead n r).2.RegsWf := h

theorem dramGet (h : s.RegsWf) (a n : Nat) : (s.dramGet a n).2.RegsWf := by
  unfold State.dramGet
  generalize List.filter _ _ = bad
  dsimp only
  induction bad generalizing s with
  | nil => exact h
  | cons w bad ih => exact ih (s := s.report _) h

theorem noteWord (h : s.RegsWf) (k : Fin 8) (r i : Nat) (q : WordRead × BitVec 64 × BitVec 8) : (s.noteWord k r i q).RegsWf := by
  obtain ⟨read, d, y⟩ := q
  cases read with
  | clean => exact h
  | poison => exact h
  | corrected => exact ite ((((h.bump ..).setReg ..).setCore ..).reportAft _) (((h.bump ..).setReg ..).setCore ..)
  | bad => exact ((h.bump ..).setReg ..).reportAft _

theorem readWords (k : Fin 8) (awn : Bool) (r n i : Nat) {s : State} (h : s.RegsWf) :
    (State.readWords k awn r n i s).2.RegsWf := by
  induction n generalizing i s with
  | zero => exact h
  | succ n ih =>
    unfold State.readWords
    dsimp only
    apply ih
    split
    · exact h
    · exact h.noteWord ..

theorem waited (h : s.RegsWf) (k : Fin 8) : (s.waited k).RegsWf := setF (s := { s with free := s.free + 1 }) h ..

theorem fwRowsGet (n q : Nat) {s : State} (h : s.RegsWf) : (State.fwRowsGet n q s).2.RegsWf := by
  induction n generalizing q s with
  | zero => exact h
  | succ n ih =>
    unfold State.fwRowsGet
    dsimp only
    exact ih _ (ite_snd (h.refuseRead ..) (ite_snd h ((h.waited _).readWords ..)))

theorem cofWord (h : s.RegsWf) (w : Nat) : (s.cofWord w).2.RegsWf := by
  unfold State.cofWord
  dsimp only
  split
  · exact bump (s := { s with cof := _ }) h ..
  · exact h
  · exact h

theorem cofWords (w n : Nat) {s : State} (h : s.RegsWf) : (State.cofWords w n s).2.RegsWf := by
  induction n generalizing w s with
  | zero => exact h
  | succ n ih => exact ih (w + 1) (h.cofWord w)

theorem cofReadRun (h : s.RegsWf) (off n : Nat) : (s.cofReadRun off n).2.RegsWf := by
  unfold State.cofReadRun
  split
  · exact ite_snd (bump (State.raiseCause_wf _ _ (h.setF ..)) ..) (cofWords _ _ h)
  · exact h
  · exact h

theorem cofHostRead (h : s.RegsWf) (off n : Nat) : (s.cofHostRead off n).2.RegsWf := by
  have run (l : List (Nat × Nat)) (p : List (Byte × Bool) × State) (hp : p.2.RegsWf) :
      (l.foldl (fun a r => let (l, s) := a.2.cofReadRun r.1 r.2; (a.1 ++ l, s)) p).2.RegsWf := by
    induction l generalizing p with
    | nil => exact hp
    | cons r l ih => exact ih _ (hp.cofReadRun r.1 r.2)
  exact run _ _ h

theorem linkSend (h : s.RegsWf) {m : LinkMsg} {t : State} (e : s.linkSend m = some t) : t.RegsWf := by
  have := s.linkSend_frame m
  rw [e, Option.getD_some] at this
  rw [this]
  exact h

theorem winRead (h : s.RegsWf) {rank c w r lo n : Nat} {t : State} (e : s.winRead rank c w r lo n = some t) : t.RegsWf := by
  unfold State.winRead at e
  split at e
  · cases e
  · dsimp only at e
    split at e
    · cases e
    · rename_i u sent
      cases e
      exact show u.RegsWf from h.linkSend sent

theorem fwWinAsk (c w n r : Nat) {s t : State} (h : s.RegsWf) (e : State.fwWinAsk c w n r s = some t) : t.RegsWf := by
  induction n generalizing r s with
  | zero => cases e; exact h
  | succ n ih =>
    obtain ⟨u, asked, rest⟩ := Option.bind_eq_some_iff.1 e
    exact ih _ (h.winRead asked) rest

theorem fwGet (h : s.RegsWf) (a n : Nat) : (s.fwGet a n).2.RegsWf := by
  unfold State.fwGet
  split
  · refine ite_snd (h.refuseRead ..) ?_
    split
    · exact h.refuseRead ..
    · exact h.dramGet ..
  · split
    · exact h
    · exact h.refuseRead ..
  · exact ite_snd (h.refuseRead ..) (fwRowsGet _ _ h)
  · exact ite_snd (h.cofHostRead ..) (h.refuseRead ..)
  · refine ite_snd h ?_
    split
    · rename_i u asked
      exact show u.RegsWf from fwWinAsk _ _ _ _ h asked
    · exact h.refuseRead ..
  · exact h.refuseRead ..

theorem source (h : s.RegsWf) {a n : Nat} {l : Option (List Byte)} {u : State} (e : s.source a n = (l, u)) : u.RegsWf := by
  unfold State.source at e
  cases e
  exact h.fwGet a n

end State.RegsWf

/-! ### Folds over states -/

/-- What every step of a fold keeps, the fold keeps. -/
theorem foldl_rel {α : Type} {R : State → State → Prop} (refl : ∀ s, R s s) (trans : ∀ {s t u}, R s t → R t u → R s u)
    {f : State → α → State} (step : ∀ s a, R s (f s a)) (l : List α) (s : State) : R s (l.foldl f s) := by
  induction l generalizing s with
  | nil => exact refl s
  | cons a l ih => exact trans (step s a) (ih _)

/-- What the step of each element brings about and no step ends holds of every element after the fold. -/
theorem foldl_each {α : Type} {P : α → State → Prop} {f : State → α → State} (own : ∀ s a, P a (f s a))
    (kept : ∀ s a b, P a s → P a (f s b)) (l : List α) (s : State) {a : α} (h : a ∈ l) : P a (l.foldl f s) := by
  induction l generalizing s with
  | nil => cases h
  | cons b l ih =>
    rw [List.foldl_cons]
    by_cases later : a ∈ l
    · exact ih _ later
    · obtain rfl : a = b := (List.mem_cons.1 h).resolve_right later
      have own := own s a
      generalize f s a = t at own
      clear ih h later
      induction l generalizing t with
      | nil => exact own
      | cons b l ih => exact ih _ (kept t a b own)

/-! ### The registers that show what is loaded -/

/-- From `s` to `t`, only registers change, and a field stays. -/
structure Shows (f : Fld) (s t : State) : Prop where
  frame : t = { s with regs := t.regs }
  wf : s.RegsWf → t.RegsWf
  field : s.RegsWf → t.getF f = s.getF f

theorem Shows.refl (f : Fld) (s : State) : Shows f s s := ⟨rfl, id, fun _ => rfl⟩

theorem Shows.trans {f : Fld} {s t u : State} (h : Shows f s t) (h' : Shows f t u) : Shows f s u where
  frame := by rw [h'.frame, h.frame]
  wf w := h'.wf (h.wf w)
  field w := by rw [h'.field (h.wf w), h.field w]

theorem Shows.setF {f g : Fld} (s : State) (v : Nat) (hf : f.lo + f.w ≤ 32) (hg : g.lo + g.w ≤ 32)
    (apart : f.off ≠ g.off ∨ g.lo + g.w ≤ f.lo ∨ f.lo + f.w ≤ g.lo) : Shows f s (s.setF g v) :=
  ⟨rfl, fun w => w.setF g v, fun w => s.getF_setF_ne v w hg hf apart⟩

theorem State.showRole_shows (s : State) (k : Fin 8) : Shows F.AD_STATUS_COMMITTED s (s.showRole k) :=
  .setF s _ (by decide) (by simp [F.CORE_PAIR_ROLE]) (.inl (by simp only [F.AD_STATUS_COMMITTED, F.CORE_PAIR_ROLE]; omega))

theorem State.showLoaded_shows (s : State) : Shows F.AD_STATUS_COMMITTED s s.showLoaded :=
  (((Shows.setF s _ (by decide) (by decide) (by decide)).trans (.setF _ _ (by decide) (by decide) (by decide))).trans
    (.setF _ _ (by decide) (by decide) (by decide))).trans (.setF _ _ (by decide) (by decide) (by decide))

theorem State.showPins_shows (s : State) : Shows F.AD_STATUS_COMMITTED s s.showPins :=
  .setF s _ (by decide) (by decide) (by decide)

/-! ### The code of an image (R234) -/

/-- From `s` to `t`, only instruction memories change. -/
structure Codes (s t : State) : Prop where
  frame : t = { s with cores := t.cores }
  core : ∀ k, t.core k = { s.core k with imem := (t.core k).imem, imemBad := (t.core k).imemBad }

theorem Codes.refl (s : State) : Codes s s := ⟨rfl, fun _ => rfl⟩

theorem Codes.trans {s t u : State} (h : Codes s t) (h' : Codes t u) : Codes s u where
  frame := by rw [h'.frame, h.frame]
  core k := by rw [h'.core k, h.core k]

theorem State.setCore_codes (s : State) (k : Fin 8) {c : Core} (h : c = { s.core k with imem := c.imem, imemBad := c.imemBad }) :
    Codes s (s.setCore k c) where
  frame := rfl
  core q := by
    by_cases e : q = k
    · subst e
      rw [State.core_setCore_same]
      exact h
    · rw [State.core_setCore_ne _ _ e]

theorem State.loadCode_codes (s : State) (l : List Byte) (j : Job) : Codes s (s.loadCode l j) := by
  refine foldl_rel .refl .trans (fun s e => foldl_rel .refl .trans (fun s k => ?_) _ s) _ s
  exact iteInduction (fun _ => s.setCore_codes k rfl) (fun _ => .refl s)

/-! ### Judging an image (Table IS-14) -/

/-- The status of a session counts from its load (Table AD-4). -/
def State.sessionStatus (s : State) (j : Job) : State :=
  if j.session then ((s.setF F.AD_STATUS_COMMITTED 0).setF F.AD_STATUS_DONE 0).setF F.AD_STATUS_KILLED 0 else s

/-- The registers that show the jobs, after one is loaded. -/
def State.showJobs (s : State) : State := (s.forCores (fun k s => s.showRole k)).showLoaded.showPins

/-- The state once an accepted image has become a job. -/
def State.loaded (s : State) (l : List Byte) (j : Job) : State :=
  ({ s.loadCode l j with jobs := s.jobs ++ [j] }.sessionStatus j).showJobs

/-- The job that an image becomes. -/
def State.jobOf (s : State) (l : List Byte) : Job := s.imgJob l s.freeJob ((s.imgTiles l).getD [])

/-- The signature block of an image is good (R236, R599). -/
def State.imgSigned (s : State) (l : List Byte) : Prop :=
  s.checkSig l (fieldAt l 36 4) l.length (some 2) 0 = .good ∧ fieldAt l 40 4 = 256

section

variable {s : State} {l : List Byte}

theorem State.loadImage_badForm (form : s.imgForm l = false) : s.loadImage l = (1, 0, s) := by
  unfold State.loadImage
  rw [form]
  rfl

theorem State.loadImage_unsigned (form : s.imgForm l = true) (signed : ¬ s.imgSigned l) : s.loadImage l = (2, 0, s) := by
  unfold State.loadImage
  rw [form]
  refine (if_neg (by decide)).trans (if_pos ?_)
  rw [State.imgSigned, not_and_or] at signed
  simpa using signed

theorem State.loadImage_signed (form : s.imgForm l = true) (signed : s.imgSigned l) : s.loadImage l =
    if s.imgRange l = false then (3, 0, s) else if s.imgModels (s.jobOf l) = false then (4, 0, s)
    else if s.imgConflict (s.jobOf l) = true then (5, 0, s) else (0, s.freeJob, s.loaded l (s.jobOf l)) := by
  obtain ⟨good, size⟩ := signed
  unfold State.loadImage
  rw [form, good, size]
  cases s.imgRange l with
  | false => rfl
  | true =>
    change (if (!s.imgModels (s.jobOf l)) = true then _ else _) = if s.imgModels (s.jobOf l) = false then _ else _
    cases s.imgModels (s.jobOf l) <;> rfl

end

theorem regs_frame_trans {s t u : State} (h : t = { s with regs := t.regs }) (h' : u = { t with regs := u.regs }) :
    u = { s with regs := u.regs } := by rw [h', h]

theorem State.showJobs_shows (s : State) : Shows F.AD_STATUS_COMMITTED s s.showJobs :=
  .trans (.trans (foldl_rel (.refl _) .trans (fun s k => s.showRole_shows k) _ s) (State.showLoaded_shows _))
    (State.showPins_shows _)

theorem State.sessionStatus_frame (s : State) (j : Job) : s.sessionStatus j = { s with regs := (s.sessionStatus j).regs } := by
  unfold State.sessionStatus
  split <;> rfl

theorem State.sessionStatus_wf {s : State} (j : Job) (h : s.RegsWf) : (s.sessionStatus j).RegsWf :=
  .ite (((h.setF ..).setF ..).setF ..) h

theorem State.sessionStatus_committed {s : State} {j : Job} (h : s.RegsWf) (hj : j.session = true) :
    (s.sessionStatus j).getF F.AD_STATUS_COMMITTED = 0 := by
  rw [State.sessionStatus, if_pos hj, State.getF_setF_ne _ _ ((h.setF ..).setF ..) (by decide) (by decide) (by decide),
    State.getF_setF_ne _ _ (h.setF ..) (by decide) (by decide) (by decide), State.getF_setF_same _ _ _ h (by decide)]
  rfl

section

variable (s : State) (l : List Byte) (j : Job)

/-- What an accepted image changes (R237): registers, code, and the job that is added. -/
theorem State.loaded_frame :
    s.loaded l j = { s with regs := (s.loaded l j).regs, cores := (s.loadCode l j).cores, jobs := s.jobs ++ [j] } := by
  have shown : s.loaded l j = { s.loadCode l j with regs := (s.loaded l j).regs, jobs := s.jobs ++ [j] } :=
    regs_frame_trans (State.sessionStatus_frame _ j) (State.showJobs_shows _).frame
  rw [(s.loadCode_codes l j).frame] at shown
  exact shown

theorem State.loaded_core (k : Fin 8) : (s.loaded l j).core k =
    { s.core k with imem := ((s.loaded l j).core k).imem, imemBad := ((s.loaded l j).core k).imemBad } := by
  have same : (s.loaded l j).core k = (s.loadCode l j).core k := by
    rw [s.loaded_frame l j]
    rfl
  rw [same]
  exact (s.loadCode_codes l j).core k

theorem State.loaded_committed {s : State} (h : s.RegsWf) (hj : j.session = true) :
    (s.loaded l j).getF F.AD_STATUS_COMMITTED = 0 := by
  have code : ({ s.loadCode l j with jobs := s.jobs ++ [j] } : State).RegsWf := by
    rw [(s.loadCode_codes l j).frame]
    exact h
  rw [State.loaded, (State.showJobs_shows _).field (State.sessionStatus_wf j code), State.sessionStatus_committed code hj]

end

/-! ### What a removal changes on the cores (R239) -/

/-- A context without a job that is removed. -/
def Ctx.drop (c : Ctx) (id : Nat) : Ctx :=
  if c.job = some id then { c with job := none, running := false, ended := false } else c

/-- A core without a job that is removed. -/
def Core.dropJob (c : Core) (id : Nat) : Core :=
  { c with ctx := c.ctx.map (fun x => x.drop id), pairHeld := c.pairHeld.filter (fun h => h.job != id),
           ring := c.ring.filter (fun g => g.job != id) }

/-- Replacing each of several cores by what it becomes. -/
theorem State.core_foldl_setCore (g : Core → Core) (q : Fin 8) (l : List (Fin 8)) (hl : l.Nodup) (s : State) :
    (l.foldl (fun s k => s.setCore k (g (s.core k))) s).core q = if q ∈ l then g (s.core q) else s.core q := by
  induction l generalizing s with
  | nil => rfl
  | cons k l ih =>
    obtain ⟨fresh, hl⟩ := List.nodup_cons.1 hl
    rw [List.foldl_cons, ih hl]
    by_cases e : q = k
    · subst e
      simp [fresh]
    · simp [e, State.core_setCore_ne _ _ e]

/-- The state with its cores without a job that is removed. -/
def State.dropJob (s : State) (id : Nat) : State := s.forCores (fun k s => s.setCore k ((s.core k).dropJob id))

theorem State.dropJob_core (s : State) (id : Nat) (q : Fin 8) : (s.dropJob id).core q = (s.core q).dropJob id := by
  have all : ∀ q : Fin 8, q ∈ allCores := by decide
  rw [State.dropJob, State.forCores, State.core_foldl_setCore (fun c => c.dropJob id) q allCores (by decide), if_pos (all q)]

/-- From `s` to `t`, registers change, and of the cores neither contexts nor rows. -/
structure Settles (s t : State) : Prop where
  frame : t = { s with regs := t.regs, cores := t.cores }
  ctx : ∀ k, (t.core k).ctx = (s.core k).ctx
  sp : ∀ k, (t.core k).sp = (s.core k).sp

namespace Settles

theorem refl (s : State) : Settles s s := ⟨rfl, fun _ => rfl, fun _ => rfl⟩

theorem trans {s t u : State} (h : Settles s t) (h' : Settles t u) : Settles s u where
  frame := by rw [h'.frame, h.frame]
  ctx k := (h'.ctx k).trans (h.ctx k)
  sp k := (h'.sp k).trans (h.sp k)

theorem ite {s a b : State} {c : Prop} [Decidable c] (ha : Settles s a) (hb : Settles s b) : Settles s (if c then a else b) := by
  split <;> assumption

theorem setF {s t : State} (h : Settles s t) (f : Fld) (v : Nat) : Settles s (t.setF f v) :=
  h.trans ⟨rfl, fun _ => rfl, fun _ => rfl⟩

theorem setCore {s t : State} (h : Settles s t) {k : Fin 8} {c : Core} (hx : c.ctx = (t.core k).ctx) (hs : c.sp = (t.core k).sp) :
    Settles s (t.setCore k c) := by
  refine h.trans ⟨rfl, fun q => ?_, fun q => ?_⟩
  · by_cases e : q = k
    · subst e; rw [State.core_setCore_same, hx]
    · rw [State.core_setCore_ne _ _ e]
  · by_cases e : q = k
    · subst e; rw [State.core_setCore_same, hs]
    · rw [State.core_setCore_ne _ _ e]

end Settles

theorem Shows.settles {f : Fld} {s t : State} (h : Shows f s t) : Settles s t := by
  have core (k : Fin 8) : t.core k = s.core k := by rw [h.frame]; rfl
  exact ⟨by rw [h.frame], fun k => by rw [core], fun k => by rw [core]⟩

theorem State.settle_settles (s : State) (k : Fin 8) : Settles s (s.settle k) := by
  have quarantined (a : Nat) (c : Prop) [Decidable c] : Settles s (if c then
      ((s.setF (F.CORE_STATUS_ACTIVE k) a).setCore k { s.core k with quarPending := false }).setF (F.CORE_STATUS_QUAR k) 1
      else s.setF (F.CORE_STATUS_ACTIVE k) a) :=
    .ite ((((Settles.refl s).setF ..).setCore (by rfl) (by rfl)).setF ..) ((Settles.refl s).setF ..)
  exact .ite (((quarantined _ _).setF ..).setCore (by rfl) (by rfl)) (.ite ((quarantined _ _).setF ..) (quarantined _ _))

/-! ### Windows and bindings of a removed job (R239, R517) -/

theorem State.closeNotices_frame (s : State) (n : Fin 32) :
    s.closeNotices n = { s with lnk := { s.lnk with port := (s.closeNotices n).lnk.port } } := by
  unfold State.closeNotices
  dsimp only
  generalize s.getF F.LNK_CFG_CHIP = me
  generalize List.filter _ _ = l
  induction l generalizing s with
  | nil => rfl
  | cons c l ih => rw [List.foldl_cons, ih, State.linkSend_frame]

/-- A closing window without transfers, for which no command waits, is closed at once. -/
theorem State.closeWinNow_idle {s : State} {n : Fin 32} (closing : (vget s.lnk.iw n).st = .closing)
    (idle : (vget s.lnk.iw n).xfers = []) (alone : (vget s.lnk.iw n).closer = none) :
    ∃ w, s.closeWinNow n = s.setIw n w ∧ w.job = (vget s.lnk.iw n).job ∧ w.st = .closed := by
  unfold State.closeWinNow
  dsimp only
  rw [closing, idle, alone]
  exact ⟨_, rfl, rfl, rfl⟩

theorem State.drainWin_alone {s : State} {n : Fin 32} (closing : (vget s.lnk.iw n).st = .closing)
    (alone : (vget s.lnk.iw n).closer = none) :
    ∃ w, s.drainWin n = s.setIw n w ∧ w.job = (vget s.lnk.iw n).job ∧ w.st ≠ .open_ := by
  unfold State.drainWin
  dsimp only
  split
  · rename_i drained
    obtain ⟨w, closed, job, st⟩ := State.closeWinNow_idle closing (List.isEmpty_iff.1 drained.2) alone
    exact ⟨w, closed, job, by rw [st]; decide⟩
  · refine ⟨vget s.lnk.iw n, ?_, rfl, by rw [closing]; decide⟩
    unfold State.setIw
    rw [vset_vget]

/-- A window that starts to close with no command waiting for it: the ports send notices, and it is not open. -/
theorem State.beginClose_eq (s : State) (n : Fin 32) : ∃ p w, s.beginClose n none =
    { s with lnk := { s.lnk with port := p, iw := vset s.lnk.iw n w } } ∧ w.job = (vget s.lnk.iw n).job ∧ w.st ≠ .open_ := by
  unfold State.beginClose
  dsimp only
  split
  · rename_i shut
    exact ⟨s.lnk.port, vget s.lnk.iw n, by rw [vset_vget], rfl, shut⟩
  · generalize hw : ({ vget s.lnk.iw n with st := .closing, closeAt := s.time.now, closer := none } : InWin) = w
    generalize hu : (s.setIw n w).closeNotices n = u
    have frame : u = { s.setIw n w with lnk := { (s.setIw n w).lnk with port := u.lnk.port } } := by
      rw [← hu]
      exact State.closeNotices_frame ..
    have own : vget u.lnk.iw n = w := by
      rw [frame]
      exact vget_vset_same ..
    obtain ⟨w', drained, job, st⟩ := State.drainWin_alone (s := u) (n := n) (by rw [own, ← hw]) (by rw [own, ← hw])
    refine ⟨u.lnk.port, w', ?_, by rw [job, own, ← hw], st⟩
    rw [drained, frame]
    unfold State.setIw vset
    simp

theorem mem_allWins (n : Fin 32) : n ∈ allWins := by
  rw [allWins]
  exact List.mem_finRange n

/-- A window of a job starts to close, and every one. -/
def State.closeWin (s : State) (id : Nat) (n : Fin 32) : State :=
  if (vget s.lnk.iw n).job = id then s.beginClose n none else s
def State.closeWins (s : State) (id : Nat) : State := allWins.foldl (fun s n => s.closeWin id n) s

/-- An outbound binding of a job is closed, and every one. -/
def State.closeBind (s : State) (id : Nat) (n : Fin 32) : State :=
  let o := vget s.lnk.ob n
  if o.open_ && o.job == id then s.setOb n { o with open_ := false } else s
def State.closeBinds (s : State) (id : Nat) : State := allWins.foldl (fun s n => s.closeBind id n) s

/-- From `s` to `t`, ports and inbound windows change: a window keeps its job, and none opens. -/
structure Closes (s t : State) : Prop where
  frame : t = { s with lnk := { s.lnk with port := t.lnk.port, iw := t.lnk.iw } }
  job : ∀ n, (vget t.lnk.iw n).job = (vget s.lnk.iw n).job
  shut : ∀ n, (vget s.lnk.iw n).st ≠ .open_ → (vget t.lnk.iw n).st ≠ .open_

theorem Closes.refl (s : State) : Closes s s := ⟨rfl, fun _ => rfl, fun _ => id⟩

theorem Closes.trans {s t u : State} (h : Closes s t) (h' : Closes t u) : Closes s u where
  frame := by rw [h'.frame, h.frame]
  job n := (h'.job n).trans (h.job n)
  shut n k := h'.shut n (h.shut n k)

theorem State.beginClose_closes (s : State) (n : Fin 32) :
    Closes s (s.beginClose n none) ∧ (vget (s.beginClose n none).lnk.iw n).st ≠ .open_ := by
  obtain ⟨p, w, e, job, shut⟩ := s.beginClose_eq n
  rw [e]
  refine ⟨⟨rfl, fun q => ?_, fun q h => ?_⟩, by rwa [vget_vset_same]⟩
  · by_cases own : q = n
    · subst own; rw [vget_vset_same, job]
    · rw [vget_vset_ne _ own]
  · by_cases own : q = n
    · subst own; rwa [vget_vset_same]
    · rwa [vget_vset_ne _ own]

theorem State.closeWin_closes (s : State) (id : Nat) (n : Fin 32) : Closes s (s.closeWin id n) ∧
    ((vget (s.closeWin id n).lnk.iw n).job = id → (vget (s.closeWin id n).lnk.iw n).st ≠ .open_) := by
  unfold State.closeWin
  split
  · exact ⟨(s.beginClose_closes n).1, fun _ => (s.beginClose_closes n).2⟩
  · rename_i other
    exact ⟨.refl s, fun h => absurd h other⟩

theorem State.closeWins_closes (s : State) (id : Nat) : Closes s (s.closeWins id) :=
  foldl_rel .refl .trans (fun s n => (s.closeWin_closes id n).1) _ s

theorem Closes.ob {s t : State} (h : Closes s t) : t.lnk.ob = s.lnk.ob := by rw [h.frame]

/-- A window is not open if it is the job's. -/
def WinShut (id : Nat) (n : Fin 32) (s : State) : Prop := (vget s.lnk.iw n).job = id → (vget s.lnk.iw n).st ≠ .open_

/-- The windows of a removed job are not open (R239). -/
theorem State.closeWins_shut (s : State) {id : Nat} {n : Fin 32} (h : (vget s.lnk.iw n).job = id) :
    (vget (s.closeWins id).lnk.iw n).st ≠ .open_ := by
  have own (s : State) (n : Fin 32) : WinShut id n (s.closeWin id n) := (s.closeWin_closes id n).2
  have kept (s : State) (n m : Fin 32) (shut : WinShut id n s) : WinShut id n (s.closeWin id m) := fun mine =>
    have closes := (s.closeWin_closes id m).1
    closes.shut n (shut ((closes.job n).symm.trans mine))
  have each : WinShut id n (s.closeWins id) := foldl_each own kept allWins s (mem_allWins n)
  exact each (((s.closeWins_closes id).job n).trans h)

/-- From `s` to `t`, outbound bindings change: a binding keeps its job, and none opens. -/
structure Unbinds (s t : State) : Prop where
  frame : t = { s with lnk := { s.lnk with ob := t.lnk.ob } }
  job : ∀ n, (vget t.lnk.ob n).job = (vget s.lnk.ob n).job
  shut : ∀ n, (vget s.lnk.ob n).open_ = false → (vget t.lnk.ob n).open_ = false

theorem Unbinds.refl (s : State) : Unbinds s s := ⟨rfl, fun _ => rfl, fun _ => id⟩

theorem Unbinds.trans {s t u : State} (h : Unbinds s t) (h' : Unbinds t u) : Unbinds s u where
  frame := by rw [h'.frame, h.frame]
  job n := (h'.job n).trans (h.job n)
  shut n k := h'.shut n (h.shut n k)

theorem State.closeBind_unbinds (s : State) (id : Nat) (n : Fin 32) : Unbinds s (s.closeBind id n) ∧
    ((vget (s.closeBind id n).lnk.ob n).job = id → (vget (s.closeBind id n).lnk.ob n).open_ = false) := by
  unfold State.closeBind
  dsimp only
  split
  · refine ⟨⟨rfl, fun q => ?_, fun q h => ?_⟩, fun _ => by rw [State.setOb, vget_vset_same]⟩
    · by_cases own : q = n
      · subst own; rw [State.setOb, vget_vset_same]
      · rw [State.setOb, vget_vset_ne _ own]
    · by_cases own : q = n
      · subst own; rw [State.setOb, vget_vset_same]
      · rwa [State.setOb, vget_vset_ne _ own]
  · rename_i other
    exact ⟨.refl s, fun mine => by simpa [mine] using other⟩

theorem State.closeBinds_unbinds (s : State) (id : Nat) : Unbinds s (s.closeBinds id) :=
  foldl_rel .refl .trans (fun s n => (s.closeBind_unbinds id n).1) _ s

theorem Unbinds.iw {s t : State} (h : Unbinds s t) : t.lnk.iw = s.lnk.iw := by rw [h.frame]

/-- An outbound binding is closed if it is the job's. -/
def BindShut (id : Nat) (n : Fin 32) (s : State) : Prop := (vget s.lnk.ob n).job = id → (vget s.lnk.ob n).open_ = false

/-- The outbound bindings of a removed job are closed (R239). -/
theorem State.closeBinds_shut (s : State) {id : Nat} {n : Fin 32} (h : (vget s.lnk.ob n).job = id) :
    (vget (s.closeBinds id).lnk.ob n).open_ = false := by
  have own (s : State) (n : Fin 32) : BindShut id n (s.closeBind id n) := (s.closeBind_unbinds id n).2
  have kept (s : State) (n m : Fin 32) (shut : BindShut id n s) : BindShut id n (s.closeBind id m) := fun mine =>
    have unbinds := (s.closeBind_unbinds id m).1
    unbinds.shut n (shut ((unbinds.job n).symm.trans mine))
  have each : BindShut id n (s.closeBinds id) := foldl_each own kept allWins s (mem_allWins n)
  exact each (((s.closeBinds_unbinds id).job n).trans h)

/-! ### The state once a job is unloaded (R239) -/

/-- The state with the contexts, windows and bindings of a job given up. -/
def State.released (s : State) (id : Nat) : State := ((s.dropJob id).closeWins id).closeBinds id

/-- The state without a job, its notices and its taints; the registers do not show it yet. -/
def State.forgotten (s : State) (id : Nat) : State :=
  let t := s.released id
  { t with jobs := t.jobs.filter (fun i => i.id != id),
           flt := { t.flt with notices := t.flt.notices.filter (fun x => x.1 != id),
                               taints := t.flt.taints.filter (fun x => x.1 != id) } }

/-- The registers that show the jobs, and the cores, after one is unloaded. -/
def State.settleJobs (s : State) : State := (s.forCores (fun k s => (s.showRole k).settle k)).showLoaded.showPins

theorem State.dropJob_frame (s : State) (id : Nat) : s.dropJob id = { s with cores := (s.dropJob id).cores } := by
  unfold State.dropJob State.forCores
  generalize allCores = l
  induction l generalizing s with
  | nil => rfl
  | cons k l ih =>
    rw [List.foldl_cons, ih]
    rfl

theorem State.released_frame (s : State) (id : Nat) :
    s.released id = { s with cores := (s.dropJob id).cores, lnk := (s.released id).lnk } := by
  unfold State.released
  rw [(State.closeBinds_unbinds _ id).frame, (State.closeWins_closes _ id).frame, s.dropJob_frame]

theorem State.dropJob_lnk (s : State) (id : Nat) : (s.dropJob id).lnk = s.lnk := by rw [s.dropJob_frame]

theorem State.released_core (s : State) (id : Nat) (k : Fin 8) : (s.released id).core k = (s.core k).dropJob id := by
  rw [← s.dropJob_core, State.core, State.core, s.released_frame]

theorem State.released_win (s : State) {id : Nat} {n : Fin 32} (h : (vget s.lnk.iw n).job = id) :
    (vget (s.released id).lnk.iw n).st ≠ .open_ := by
  rw [State.released, (State.closeBinds_unbinds _ id).iw]
  exact State.closeWins_shut _ (by rw [s.dropJob_lnk, h])

theorem State.released_bind (s : State) {id : Nat} {n : Fin 32} (h : (vget s.lnk.ob n).job = id) :
    (vget (s.released id).lnk.ob n).open_ = false := by
  rw [State.released]
  exact State.closeBinds_shut _ (by rw [(State.closeWins_closes _ id).ob, s.dropJob_lnk, h])

theorem State.settleJobs_settles (s : State) : Settles s s.settleJobs :=
  .trans (.trans (foldl_rel .refl .trans (fun s k => (s.showRole_shows k).settles.trans (State.settle_settles _ k)) _ s)
    (State.showLoaded_shows _).settles) (State.showPins_shows _).settles

section

variable (s : State) (j : Job)

theorem State.removeJob_eq : s.removeJob j = (s.forgotten j.id).settleJobs.pruneStore := by
  unfold State.removeJob State.forgotten State.released State.settleJobs State.closeBinds State.closeBind State.closeWins
    State.closeWin State.dropJob Core.dropJob Ctx.drop
  with_reducible rfl

/-- A removal is what it gives up, and then registers, cores and the source store. -/
theorem State.removeJob_settles : ∃ t o, Settles (s.forgotten j.id) t ∧ s.removeJob j = { t with out := o } :=
  ⟨_, _, (s.forgotten j.id).settleJobs_settles, s.removeJob_eq j⟩

theorem State.forgotten_core (k : Fin 8) : (s.forgotten j.id).core k = (s.core k).dropJob j.id := by
  rw [← s.released_core, State.core, State.core, State.forgotten]

theorem State.removeJob_jobs : (s.removeJob j).jobs = s.jobs.filter (fun i => i.id != j.id) := by
  obtain ⟨t, o, settles, removed⟩ := s.removeJob_settles j
  rw [removed, settles.frame, State.forgotten, s.released_frame]

theorem State.removeJob_lnk : (s.removeJob j).lnk = (s.released j.id).lnk := by
  obtain ⟨t, o, settles, removed⟩ := s.removeJob_settles j
  rw [removed, settles.frame, State.forgotten]

theorem State.removeJob_ctx (k : Fin 8) (x : Fin 3) : (s.removeJob j).ctx k x = (s.ctx k x).drop j.id := by
  obtain ⟨t, o, settles, removed⟩ := s.removeJob_settles j
  have kept : ((s.removeJob j).core k).ctx = ((s.core k).dropJob j.id).ctx := by
    rw [removed, ← s.forgotten_core, ← settles.ctx]
    rfl
  rw [State.ctx, kept]
  simp [Core.dropJob, vget, State.ctx]

theorem State.removeJob_sp (k : Fin 8) : ((s.removeJob j).core k).sp = (s.core k).sp := by
  obtain ⟨t, o, settles, removed⟩ := s.removeJob_settles j
  have kept : ((s.removeJob j).core k).sp = ((s.core k).dropJob j.id).sp := by
    rw [removed, ← s.forgotten_core, ← settles.sp]
    rfl
  exact kept

theorem State.job_removeJob_same : (s.removeJob j).job j.id = none := by
  rw [State.job, s.removeJob_jobs, List.find?_eq_none]
  intro i hi
  simpa using (List.mem_filter.1 hi).2

theorem State.job_removeJob_ne {i : Nat} (h : i ≠ j.id) : (s.removeJob j).job i = s.job i := by
  rw [State.job, s.removeJob_jobs, List.find?_filter, State.job]
  congr 1
  funext x
  by_cases e : x.id = i
  · simp [e, h]
  · simp [e]

end

/-! ### The commands -/

section

variable {s : State} {b : Fin 2} {op : Nat} {e : InFlight}

theorem State.nextCmd_some (served : s.served = true) (first : (s.ring b).inflight.find? (fun e => !e.begun) = some e)
    (opc : e.opc = op) (good : e.bad = none) : s.nextCmd b op = some e := by
  unfold State.nextCmd
  rw [served, first]
  simp [opc, good]

theorem State.nextCmd_none (h : ∀ e, ¬ (s.served = true ∧ (s.ring b).inflight.find? (fun e => !e.begun) = some e ∧
    e.opc = op ∧ e.bad = none)) : s.nextCmd b op = none := by
  unfold State.nextCmd
  split
  · rfl
  · rename_i served
    split
    · rename_i e first
      exact if_neg fun good => h e ⟨by simpa using served, first, good.1, Option.isNone_iff_eq_none.1 good.2⟩
    · rfl

theorem execLoadimg_idle (h : s.nextCmd b 3 = none) : execLoadimg b s = .next s := by
  unfold execLoadimg
  rw [h]

theorem execUnload_idle (h : s.nextCmd b 4 = none) : execUnload b s = .next s := by
  unfold execUnload
  rw [h]

theorem execLoadimg_badField (h : s.nextCmd b 3 = some e) (used : e.unusedZero [(8, 19)] = false) :
    execLoadimg b s = .next (s.finish b e 0x71 []) := by
  unfold execLoadimg
  rw [h]
  exact if_pos (by rw [used]; rfl)

theorem execLoadimg_waits (h : s.nextCmd b 3 = some e) (used : e.unusedZero [(8, 19)] = true)
    (held : s.fwHeld (e.par 8 8) (e.par 16 4) = true) : execLoadimg b s = .next s := by
  unfold execLoadimg
  rw [h]
  exact (if_neg (by rw [used]; decide)).trans (if_pos held)

theorem execLoadimg_poison {u : State} (h : s.nextCmd b 3 = some e) (used : e.unusedZero [(8, 19)] = true)
    (free : s.fwHeld (e.par 8 8) (e.par 16 4) = false) (read : s.source (e.par 8 8) (e.par 16 4) = (none, u)) :
    execLoadimg b s = .next (u.finish b e 0x74 []) := by
  unfold execLoadimg
  rw [h]
  refine (if_neg (by rw [used]; decide)).trans ((if_neg (by rw [free]; decide)).trans ?_)
  rw [read]
  rfl

theorem execLoadimg_judges {u w : State} {l : List Byte} {c id : Nat} (h : s.nextCmd b 3 = some e)
    (used : e.unusedZero [(8, 19)] = true) (free : s.fwHeld (e.par 8 8) (e.par 16 4) = false)
    (read : s.source (e.par 8 8) (e.par 16 4) = (some l, u)) (judged : u.loadImage l = (c, id, w)) :
    execLoadimg b s = .next (w.finish b e c (if c = 0 then leBytes 2 id else [])) := by
  unfold execLoadimg
  rw [h]
  refine (if_neg (by rw [used]; decide)).trans ((if_neg (by rw [free]; decide)).trans ?_)
  rw [read]
  dsimp only
  rw [judged]

theorem execUnload_badField (h : s.nextCmd b 4 = some e) (used : e.unusedZero [(8, 9)] = false) :
    execUnload b s = .next (s.finish b e 0x71 []) := by
  unfold execUnload
  rw [h]
  exact if_pos (by rw [used]; rfl)

theorem execUnload_noJob (h : s.nextCmd b 4 = some e) (used : e.unusedZero [(8, 9)] = true)
    (none : s.job (e.par 8 2) = none) : execUnload b s = .next (s.finish b e 0x72 []) := by
  unfold execUnload
  rw [h]
  refine (if_neg (by rw [used]; decide)).trans ?_
  rw [none]
  rfl

theorem execUnload_job {j : Job} (h : s.nextCmd b 4 = some e) (used : e.unusedZero [(8, 9)] = true)
    (job : s.job (e.par 8 2) = some j) : execUnload b s =
      if j.state = .running ∨ j.startPend.isSome = true then .next (s.finish b e 0x73 [])
      else .next ((s.removeJob j).finish b e 0 []) := by
  unfold execUnload
  rw [h]
  refine (if_neg (by rw [used]; decide)).trans ?_
  rw [job]
  simp [cmdJobState]

end

end Sys2Proof.Machine

namespace Sys2Proof

open Machine

/-- Settles O54, LOADIMG by the first check of Table IS-14 that fails, UNLOAD by what each stage of the removal leaves as it was. -/
theorem imagesLoadAndUnload : Obligations.ImagesLoadAndUnload := by
  intro b n s e wf
  refine ⟨fun none => execLoadimg_idle (State.nextCmd_none none), fun none => execUnload_idle (State.nextCmd_none none),
    fun ⟨served, first, opc, good⟩ used held => execLoadimg_waits (State.nextCmd_some served first opc good) used held,
    fun ⟨served, first, opc, good⟩ => ?load, fun ⟨served, first, opc, good⟩ => ?unload⟩
  case load =>
    have next := State.nextCmd_some served first opc good
    refine ⟨execLoadimg_badField next, fun used free => ⟨fun u poison => execLoadimg_poison next used free poison,
      fun u l read => ?_⟩⟩
    have run {c id : Nat} {w : State} (judged : u.loadImage l = (c, id, w)) :
        execLoadimg b s = .next (w.finish b e c (if c = 0 then leBytes 2 id else [])) :=
      execLoadimg_judges next used free read judged
    have wf : u.RegsWf := State.RegsWf.source wf read
    refine ⟨fun form => run (State.loadImage_badForm form), fun form signed => run (State.loadImage_unsigned form signed),
      fun ⟨form, signed⟩ range => run (id := 0) (w := u) ?_,
      fun ⟨⟨form, signed⟩, range⟩ models => run (id := 0) (w := u) ?_,
      fun ⟨⟨⟨form, signed⟩, range⟩, models⟩ conflict => run (id := 0) (w := u) ?_,
      fun ⟨⟨⟨form, signed⟩, range⟩, models⟩ conflict => ?_⟩
    · rw [State.loadImage_signed form signed, if_pos range]
    · rw [State.loadImage_signed form signed, if_neg (by rw [range]; decide)]
      exact if_pos models
    · rw [State.loadImage_signed form signed, if_neg (by rw [range]; decide)]
      exact (if_neg (by rw [State.jobOf, models]; decide)).trans (if_pos conflict)
    · have judged : u.loadImage l = (0, u.freeJob, u.loaded l (u.jobOf l)) := by
        rw [State.loadImage_signed form signed, if_neg (by rw [range]; decide)]
        exact (if_neg (by rw [State.jobOf, models]; decide)).trans (if_neg (by rw [State.jobOf, conflict]; decide))
      refine ⟨_, run judged, ?_, rfl, fun session => u.loaded_committed l _ wf session, ?_, u.loaded_core l _⟩
      · rw [u.loaded_frame]
        rfl
      · conv_lhs => rw [u.loaded_frame]
        rw [u.loaded_frame]
  case unload =>
    have next := State.nextCmd_some served first opc good
    refine ⟨execUnload_badField next,
      fun used => ⟨execUnload_noJob next used, fun j job => ⟨fun busy => ?_, fun idle fresh => ?_⟩⟩⟩
    · exact (execUnload_job next used job).trans (if_pos busy)
    · have named : j.id = e.par 8 2 := by simpa using List.find?_some job
      rw [← named]
      refine ⟨s.removeJob j, (execUnload_job next used job).trans (if_neg (by simp [idle, fresh])), s.job_removeJob_same j,
        fun i other => s.job_removeJob_ne j other, fun k x mine => ?_, fun k x other => ?_, s.removeJob_sp j,
        fun mine _ => ?_, fun mine _ => ?_⟩
      · rw [s.removeJob_ctx, Ctx.drop, if_pos mine]
      · rw [s.removeJob_ctx, Ctx.drop, if_neg other]
      · rw [s.removeJob_lnk]
        exact s.released_win mine
      · rw [s.removeJob_lnk]
        exact s.released_bind mine

end Sys2Proof
end

section
/-! PROOF. O58: the frames of the host serial port (R531 to R533). -/

namespace Sys2Proof.Machine

/-! ### Register accesses of a frame -/

/-- A write that lands is not refused. -/
theorem State.refuseWrite_lands {s : State} {m : Master} {off : Nat} (h : Lands s m off) :
    s.refuseWrite false m off = none := by
  have aft : ¬ (aftBlock off = true ∧ s.brgUp = false) := fun ⟨b, down⟩ => by simp [h.aft b] at down
  have awake : ¬ (s.asleep off = true ∧ ¬ off % 65536 = 4) := fun ⟨b, other⟩ => other (h.awake b)
  unfold State.refuseWrite
  simp [h.path, h.owner, aft, awake]

/-- A read of control registers leaves the host interface as it is. -/
theorem State.ctlRead_host (s : State) (m : Master) (off : Nat) : (s.ctlRead m off).2.host = s.host := by
  have ite {c : Prop} [Decidable c] {a b : Word × State} (ha : a.2.host = s.host) (hb : b.2.host = s.host) :
      (if c then a else b).2.host = s.host := by
    split <;> assumption
  have read : (s.regRead m off).2.host = s.host := ite rfl (ite (s.glbError_host _) rfl)
  exact ite read (ite rfl (ite rfl (ite rfl (ite rfl read))))

/-- A read of four bytes leaves the host interface as it is, also where it is refused. -/
theorem State.accRead_host (s : State) (m : Master) (off : Nat) : (s.accRead m off 4).2.host = s.host := by
  by_cases aligned : off % 4 = 0
  · rw [s.accRead_word m aligned, s.ctlRead_host]
  · rw [s.accRead_refused m (by omega) (by omega), s.glbError_host]

/-! ### What a frame is -/

/-- The state in which a frame is served: nothing of it has been refused (R532). -/
def State.hspBegun (s : State) : State := { s with host := { s.host with hspBad := false } }

theorem bitsOf_toNat_one (a : BitVec 32) (i : Nat) : bitsOf a.toNat i 1 = 1 ↔ a.getLsbD i = true := by
  rw [← beq_iff_eq, bitsOf_one, BitVec.testBit_toNat]

theorem bitsOf_low (v w : Nat) : bitsOf v 0 w = v % 2 ^ w := by
  rw [bitsOf, pow_zero, Nat.div_one]

section

variable {addr : BitVec 32} {data : List Byte} {n ahead : Nat} {late : List Nat} {e : WriteEnv} {s : State}

theorem execHspWriteFrame_dead (h : s.hspAlive = false) : execHspWriteFrame addr data e s = .next s := by
  simp [execHspWriteFrame, h]

theorem execHspReadFrame_dead (h : s.hspAlive = false) : execHspReadFrame addr n ahead late s = .next s := by
  simp [execHspReadFrame, h]

theorem execHspStatusFrame_dead (h : s.hspAlive = false) : execHspStatusFrame s = .next s := by
  simp [execHspStatusFrame, h]

/-- A write frame is judged by its form, then by its space. -/
theorem execHspWriteFrame_alive (h : s.hspAlive = true) : execHspWriteFrame addr data e s =
    if addr.getLsbD 31 = true ∨ 4096 < data.length then .next s.hspBad
    else if addr.getLsbD 30 = true then .next (s.hspBegun.bulkWrite 1 data)
    else if data.length % 4 = 0 then .next (State.hspPuts e (addr.toNat % 2 ^ 21) data s.hspBegun)
    else .next ((State.hspPuts e (addr.toNat % 2 ^ 21) data s.hspBegun).glbError F.GLB_STATUS_BAD_WIDTH).hspBad := by
  unfold execHspWriteFrame
  simp only [h, bitsOf_toNat_one, bitsOf_low]
  rfl

/-- The words that a register frame returns as zero: none when DUMMY covers every block (R533). -/
def State.hspLateWords (s : State) (late : List Nat) : List Nat := if s.getF F.HSP_CFG_DUMMY < 16 then late else []

/-- A read frame is judged by its form, then by its space. -/
theorem execHspReadFrame_alive (h : s.hspAlive = true) : execHspReadFrame addr n ahead late s =
    let r := State.hspGets (s.hspLateWords late) (addr.toNat % 2 ^ 21) (n / 4) 0 s.hspBegun
    if addr.getLsbD 31 = true ∨ 4096 < n then .next s.hspBad
    else if addr.getLsbD 30 = true then execBulkDataRead 1 n ahead s.hspBegun
    else if n % 4 = 0 then .next (r.2.hspOut r.1)
    else .next ((r.2.hspOut r.1).glbError F.GLB_STATUS_BAD_WIDTH).hspBad := by
  unfold execHspReadFrame
  simp only [h, bitsOf_toNat_one, bitsOf_low]
  rfl

end

/-! ### Frames of one word -/

/-- One word that a frame writes to a register which it reaches is one access (R531). -/
theorem State.hspPuts_word {e : WriteEnv} {off : Nat} {data : List Byte} {s : State} (len : data.length = 4)
    (inside : off < 2 ^ 21) (aligned : off % 4 = 0) (lands : Lands s .hsp off) :
    State.hspPuts e off data s = s.accWrite e ⟨.hsp, off, 4, leNat data⟩ := by
  match data, len with
  | [a, b, c, d], _ =>
    unfold State.hspPuts
    dsimp only
    rw [Nat.mod_eq_of_lt inside, aligned, State.refuseWrite_lands lands]
    rfl

/-- A word that a frame reads is one access, which sets BAD where it is refused; a late one is returned as zero (R532, R533). -/
theorem State.hspGets_word (late : List Nat) {off : Nat} (s : State) (inside : off < 2 ^ 21) :
    State.hspGets late off 1 0 s =
      let r := (if s.hspRefuses off then s.hspBad else s).accRead .hsp off 4
      if 0 ∈ late then (leBytes 4 0, r.2.hspLate) else (leBytes 4 r.1, r.2) := by
  unfold State.hspGets
  dsimp only
  rw [Nat.mod_eq_of_lt inside, List.contains_eq_mem, State.hspGets, List.append_nil]
  by_cases h : 0 ∈ late
  · simp [h]
  · simp [h]

theorem State.hspOut_host (s : State) (l : List Byte) : (s.hspOut l).host = s.host := rfl

/-- A word that is returned late, or not, leaves BAD as its access left it. -/
theorem State.hspGets_word_bad (late : List Nat) {off : Nat} (s : State) (inside : off < 2 ^ 21) :
    (State.hspGets late off 1 0 s).2.host.hspBad = (s.hspRefuses off || s.host.hspBad) := by
  have kept (u : State) : (u.accRead .hsp off 4).2.host.hspBad = u.host.hspBad := by rw [u.accRead_host]
  rw [s.hspGets_word late inside]
  dsimp only
  rw [apply_ite Prod.snd]
  split
  · refine (kept _).trans ?_
    cases s.hspRefuses off <;> rfl
  · rw [kept]
    cases s.hspRefuses off <;> rfl

section

variable {addr : BitVec 32} {n ahead : Nat} {late : List Nat} {e : WriteEnv} {s : State}

theorem execHspWriteFrame_word {data : List Byte} (alive : s.hspAlive = true)
    (good : ¬ (addr.getLsbD 31 = true ∨ 4096 < data.length)) (regs : addr.getLsbD 30 = false) (len : data.length = 4) :
    execHspWriteFrame addr data e s = .next (State.hspPuts e (addr.toNat % 2 ^ 21) data s.hspBegun) := by
  rw [execHspWriteFrame_alive alive, if_neg good, if_neg (by rw [regs]; decide), if_pos (by omega)]

theorem execHspReadFrame_word (alive : s.hspAlive = true) (good : ¬ (addr.getLsbD 31 = true ∨ 4096 < 4))
    (regs : addr.getLsbD 30 = false) : execHspReadFrame addr 4 ahead late s =
      let r := State.hspGets (s.hspLateWords late) (addr.toNat % 2 ^ 21) 1 0 s.hspBegun
      .next (r.2.hspOut r.1) := by
  rw [execHspReadFrame_alive alive]
  dsimp only
  rw [if_neg good, if_neg (by rw [regs]; decide), if_pos (by decide)]

/-- The words of a frame are late where DUMMY lets them be (R533). -/
theorem State.mem_hspLateWords (s : State) (late : List Nat) (i : Nat) :
    i ∈ s.hspLateWords late ↔ s.getF F.HSP_CFG_DUMMY < 16 ∧ i ∈ late := by
  unfold State.hspLateWords
  split
  · rename_i short
    exact (and_iff_right short).symm
  · rename_i covers
    exact iff_of_false (List.not_mem_nil) (fun h => covers h.1)

/-- The status frame returns its four bits and clears LATE and BAD (R532). -/
theorem execHspStatusFrame_alive (alive : s.hspAlive = true) : execHspStatusFrame s =
    .next { s with
      wire := .hsp (leBytes 1 ((if (s.bulk 1).buf = [] then 0 else 1) + (if s.host.hspLate then 2 else 0) +
        (if s.irqLow then 4 else 0) + (if s.host.hspBad then 8 else 0))) :: s.wire,
      host := { s.host with hspLate := false, hspBad := false } } := by
  have busy : (if (!(s.bulk 1).buf.isEmpty) = true then 1 else 0) = if (s.bulk 1).buf = [] then 0 else 1 := by
    cases (s.bulk 1).buf <;> rfl
  unfold execHspStatusFrame
  dsimp only
  rw [alive, busy]
  rfl

end

end Sys2Proof.Machine

namespace Sys2Proof

open Machine

/-- Settles O58: by the form of the frame, by the space that it names and, in the register space, by what its word is answered. -/
theorem hspFramesServe : Obligations.HspFramesServe := by
  unfold Obligations.HspFramesServe
  intro addr data n ahead late e s
  refine ⟨fun dead => ⟨execHspWriteFrame_dead dead, execHspReadFrame_dead dead, execHspStatusFrame_dead dead⟩,
    fun alive => ?_⟩
  have write := execHspWriteFrame_alive (addr := addr) (data := data) (e := e) alive
  have read := execHspReadFrame_alive (addr := addr) (n := n) (ahead := ahead) (late := late) alive
  have inside : addr.toNat % 2 ^ 21 < 2 ^ 21 := Nat.mod_lt _ (by decide)
  refine ⟨fun bad => write.trans (if_pos bad), fun bad => read.trans (if_pos bad),
    fun good bulk => write.trans ((if_neg good).trans (if_pos bulk)),
    fun good bulk => read.trans ((if_neg good).trans (if_pos bulk)), fun good regs len aligned lands => ?write,
    fun good regs len refused => ?refused, fun good regs len reaches => ?word, execHspStatusFrame_alive alive⟩
  case write =>
    have lands : Lands s.hspBegun .hsp (addr.toNat % 2 ^ 21) := ⟨lands.path, lands.aft, lands.owner, lands.awake⟩
    refine (execHspWriteFrame_word alive good regs len).trans ?_
    rw [State.hspPuts_word len inside aligned lands]
    exact (exec_registerWrite_single e _ _ (by simp)).symm
  case refused =>
    subst len
    refine ⟨_, execHspReadFrame_word alive good regs, ?_⟩
    have refused : s.hspBegun.hspRefuses (addr.toNat % 2 ^ 21) = true := refused
    rw [State.hspOut_host, State.hspGets_word_bad _ _ inside, refused, Bool.true_or]
  case word =>
    subst len
    have reaches : s.hspBegun.hspRefuses (addr.toNat % 2 ^ 21) = false := reaches
    have aligned : addr.toNat % 2 ^ 21 % 4 = 0 := by
      simp only [State.hspRefuses, Bool.or_eq_false_iff, bne_eq_false_iff_eq] at reaches
      exact reaches.1.1
    have frame : exec (.hspReadFrame addr 4 ahead late) s = _ := execHspReadFrame_word alive good regs
    rw [State.hspGets_word _ _ inside, reaches, if_neg Bool.false_ne_true] at frame
    generalize answer : s.hspBegun.accRead .hsp (addr.toNat % 2 ^ 21) 4 = r at frame
    refine ⟨r.2, r.1, ?_, ?_, fun now => ?_, fun isLate => ?_⟩
    · rw [← answer, State.accRead_word _ _ aligned]
      exact BitVec.isLt _
    · rw [← answer]
      exact exec_registerRead .hsp _ 4 s.hspBegun
    · rw [if_neg (mt (s.mem_hspLateWords late 0).1 now)] at frame
      exact frame
    · rw [if_pos ((s.mem_hspLateWords late 0).2 isLate)] at frame
      exact frame

end Sys2Proof
end

section
/-! PROOF. O52: what completions and the checks of a write leave of the persistent store (R542, R617, R618). -/

namespace Sys2Proof.Machine

/-! ### What the firmware's accesses leave of the store

The reads and writes of the firmware, the completions that it posts and the checks of a write (R618) leave the persistent store
and its queue as they are. -/

/-- The persistent store, with its queue of writes, is `o`. -/
abbrev State.StoreIs (s : State) (o : StoSt) : Prop := s.sto = o

namespace State.StoreIs

variable {s : State} {o : StoSt}

theorem ite {a b : State} {c : Prop} [Decidable c] (ha : a.StoreIs o) (hb : b.StoreIs o) : (if c then a else b).StoreIs o := by
  split <;> assumption

theorem ite_snd {α : Type} {a b : α × State} {c : Prop} [Decidable c] (ha : a.2.StoreIs o) (hb : b.2.StoreIs o) :
    (if c then a else b).2.StoreIs o := by
  split <;> assumption

theorem foldl {α : Type} {f : State → α → State} (step : ∀ u a, u.StoreIs o → (f u a).StoreIs o) (l : List α) {s : State}
    (h : s.StoreIs o) : (l.foldl f s).StoreIs o := by
  induction l generalizing s with
  | nil => exact h
  | cons a l ih => exact ih (step s a h)

theorem setReg (h : s.StoreIs o) (a : Nat) (v : Word) : (s.setReg a v).StoreIs o := h

theorem setF (h : s.StoreIs o) (f : Fld) (v : Nat) : (s.setF f v).StoreIs o := h

theorem bump (h : s.StoreIs o) (f : Fld) (n : Nat) : (s.bump f n).StoreIs o := h

theorem setCore (h : s.StoreIs o) (k : Fin 8) (c : Core) : (s.setCore k c).StoreIs o := h

theorem setRing (h : s.StoreIs o) (b : Fin 2) (r : RingSt) : (s.setRing b r).StoreIs o := h

theorem report (h : s.StoreIs o) (r : FRec) : (s.report r).StoreIs o := h

theorem refuseRead (h : s.StoreIs o) (n : Nat) (r : FRec) : (s.refuseRead n r).2.StoreIs o := h

theorem raiseCause (h : s.StoreIs o) (n : Nat) : (s.raiseCause n).StoreIs o := (s.raiseCause_sto n).trans h

theorem reportAft (h : s.StoreIs o) (r : FRec) : (s.reportAft r).StoreIs o := by
  have kept : (s.reportAft r).sto = s.sto := by rw [(s.reportAft_logs r).frame]
  exact kept.trans h

/-! Rows of the scratchpads -/

theorem noteWord (h : s.StoreIs o) (k : Fin 8) (r i : Nat) (q : WordRead × BitVec 64 × BitVec 8) :
    (s.noteWord k r i q).StoreIs o := by
  obtain ⟨read, d, y⟩ := q
  cases read with
  | clean => exact h
  | poison => exact h
  | corrected => exact ite ((((h.bump ..).setReg ..).setCore ..).reportAft _) (((h.bump ..).setReg ..).setCore ..)
  | bad => exact ((h.bump ..).setReg ..).reportAft _

theorem readWords (k : Fin 8) (awn : Bool) (r n i : Nat) {s : State} (h : s.StoreIs o) :
    (State.readWords k awn r n i s).2.StoreIs o := by
  induction n generalizing i s with
  | zero => exact h
  | succ n ih => exact ih _ (ite h (h.noteWord ..))

theorem getRow (h : s.StoreIs o) (k : Fin 8) (r : Nat) : (s.getRow k r).2.StoreIs o := readWords k false r 64 0 h

theorem waited (h : s.StoreIs o) (k : Fin 8) : (s.waited k).StoreIs o := h

theorem putRow (h : s.StoreIs o) (k : Fin 8) (r : Nat) (ws : Row) : (s.putRow k r ws).StoreIs o := h

theorem holdWrite (h : s.StoreIs o) (k : Fin 8) (who r : Nat) (ws : Row) : (s.holdWrite k who r ws).StoreIs o := h

theorem fwRowsGet (n q : Nat) {s : State} (h : s.StoreIs o) : (State.fwRowsGet n q s).2.StoreIs o := by
  induction n generalizing q s with
  | zero => exact h
  | succ n ih => exact ih _ (ite_snd (h.refuseRead ..) (ite_snd h ((h.waited _).getRow ..)))

theorem fwRowsPut (n q : Nat) (bs : List (Byte × Bool)) {s : State} (h : s.StoreIs o) :
    (State.fwRowsPut n q bs s).StoreIs o := by
  induction n generalizing q bs s with
  | zero => exact h
  | succ n ih => exact ih _ _ (ite (h.report _) (ite h (ite (h.holdWrite ..) ((h.waited _).putRow ..))))

/-! Coffer SRAM -/

theorem cofWord (h : s.StoreIs o) (w : Nat) : (s.cofWord w).2.StoreIs o := by
  unfold State.cofWord
  dsimp only
  split <;> exact h

theorem cofWords (w n : Nat) {s : State} (h : s.StoreIs o) : (State.cofWords w n s).2.StoreIs o := by
  induction n generalizing w s with
  | zero => exact h
  | succ n ih => exact ih (w + 1) (h.cofWord w)

theorem cofRefuse (h : s.StoreIs o) : s.cofRefuse.StoreIs o := ((h.setF ..).raiseCause 21).bump ..

theorem cofReadRun (h : s.StoreIs o) (off n : Nat) : (s.cofReadRun off n).2.StoreIs o := by
  unfold State.cofReadRun
  split
  · exact ite_snd h.cofRefuse (cofWords _ _ h)
  · exact h
  · exact h

theorem cofHostRead (h : s.StoreIs o) (off n : Nat) : (s.cofHostRead off n).2.StoreIs o := by
  have run (l : List (Nat × Nat)) (p : List (Byte × Bool) × State) (hp : p.2.StoreIs o) :
      (l.foldl (fun a r => let (l, s) := a.2.cofReadRun r.1 r.2; (a.1 ++ l, s)) p).2.StoreIs o := by
    induction l generalizing p with
    | nil => exact hp
    | cons r l ih => exact ih _ (hp.cofReadRun r.1 r.2)
  exact run _ _ h

theorem cofPut (h : s.StoreIs o) (w : Nat) (v : BitVec 64 × Bool) : (s.cofPut w v).StoreIs o := h

theorem cofMerge (h : s.StoreIs o) (off : Nat) (bs : List (Byte × Bool)) (w : Nat) : (s.cofMerge off bs w).StoreIs o :=
  cofPut (ite_snd h (h.cofWord w)) ..

theorem cofWriteRun (h : s.StoreIs o) (off : Nat) (bs : List (Byte × Bool)) : (s.cofWriteRun off bs).StoreIs o := by
  have put (l : List Nat) : (l.foldl (fun s w => s.cofMerge off bs w) s).StoreIs o := foldl (fun _ _ hu => hu.cofMerge ..) l h
  unfold State.cofWriteRun
  split
  · exact ite h.cofRefuse (put _)
  · exact h
  · exact put _

theorem cofHostWrite (h : s.StoreIs o) (off : Nat) (bs : List (Byte × Bool)) : (s.cofHostWrite off bs).StoreIs o :=
  foldl (fun _ _ hu => hu.cofWriteRun ..) _ h

/-! Windows of other chips -/

theorem linkSend (h : s.StoreIs o) {m : LinkMsg} {t : State} (e : s.linkSend m = some t) : t.StoreIs o := by
  have sent := s.linkSend_frame m
  rw [e, Option.getD_some] at sent
  rw [sent]
  exact h

theorem winRead (h : s.StoreIs o) {rank c w r lo n : Nat} {t : State} (e : s.winRead rank c w r lo n = some t) :
    t.StoreIs o := by
  unfold State.winRead at e
  split at e
  · cases e
  · dsimp only at e
    split at e
    · cases e
    · rename_i u sent
      cases e
      exact show u.StoreIs o from h.linkSend sent

theorem winWrite (h : s.StoreIs o) {who c w r : Nat} {row : Row} {t : State} (e : s.winWrite who c w r row = some t) :
    t.StoreIs o := by
  unfold State.winWrite at e
  split at e
  · cases e
  · dsimp only at e
    cases sent : s.linkSend _ with
    | none =>
      rw [sent] at e
      cases e
    | some u =>
      rw [sent] at e
      cases e
      exact show u.StoreIs o from h.linkSend sent

theorem fwWinAsk (c w n r : Nat) {s t : State} (h : s.StoreIs o) (e : State.fwWinAsk c w n r s = some t) : t.StoreIs o := by
  induction n generalizing r s with
  | zero => cases e; exact h
  | succ n ih =>
    obtain ⟨u, asked, rest⟩ := Option.bind_eq_some_iff.1 e
    exact ih _ (h.winRead asked) rest

theorem fwWinPut (c w n r : Nat) (bs : List (Byte × Bool)) {s t : State} (h : s.StoreIs o)
    (e : State.fwWinPut c w n r bs s = some t) : t.StoreIs o := by
  induction n generalizing r bs s with
  | zero => cases e; exact h
  | succ n ih =>
    obtain ⟨u, put, rest⟩ := Option.bind_eq_some_iff.1 e
    exact ih _ _ (h.winWrite put) rest

/-! Bytes of the device address map -/

theorem dramGet (h : s.StoreIs o) (a n : Nat) : (s.dramGet a n).2.StoreIs o :=
  foldl (fun _ _ hu => hu.report _) _ h

theorem hostPut (h : s.StoreIs o) (a : Nat) (bs : List Byte) : (s.hostPut a bs).StoreIs o := ite h h

theorem fwGet (h : s.StoreIs o) (a n : Nat) : (s.fwGet a n).2.StoreIs o := by
  unfold State.fwGet
  split
  · refine ite_snd h ?_
    split
    · exact h
    · exact h.dramGet ..
  · split <;> exact h
  · exact ite_snd h (fwRowsGet _ _ h)
  · exact ite_snd (h.cofHostRead ..) h
  · refine ite_snd h ?_
    split
    · rename_i u asked
      exact show u.StoreIs o from fwWinAsk _ _ _ _ h asked
    · exact h
  · exact h

theorem source (h : s.StoreIs o) (a n : Nat) : (s.source a n).2.StoreIs o := h.fwGet a n

theorem fwPut (h : s.StoreIs o) (a : Nat) (bs : List Byte) : (s.fwPut a bs).StoreIs o := by
  unfold State.fwPut
  dsimp only
  split
  · refine ite h ?_
    split <;> exact h
  · exact h.hostPut ..
  · exact ite h (fwRowsPut _ _ _ h)
  · exact ite (h.cofHostWrite ..) h
  · refine ite h (ite h ?_)
    cases put : State.fwWinPut _ _ _ _ _ s with
    | none => exact h
    | some u => exact fwWinPut _ _ _ _ _ h put
  · exact h

/-! Completions -/

theorem cqWrite (h : s.StoreIs o) (b : Fin 2) (c : CplEntry) : (s.cqWrite b c).StoreIs o := by
  have put := h.fwPut (s.pair (F.CQ_BASE_LO b).off (F.CQ_BASE_HI b).off + s.getF (F.CQ_TAIL_TAIL b) * 64)
    (c.bytes (s.getF (F.CQ_TAIL_PHASE b)))
  unfold State.cqWrite
  dsimp only
  generalize s.fwPut _ _ = u at put
  exact ite (raiseCause (ite ((put.setF ..).setF ..) (put.setF ..)) _) (ite ((put.setF ..).setF ..) (put.setF ..))

theorem post (h : s.StoreIs o) (b : Fin 2) (c : CplEntry) : (s.post b c).StoreIs o :=
  ite (ite h (ite h h)) (h.cqWrite b c)

theorem complete (h : s.StoreIs o) (b : Fin 2) (tag opc result : Nat) (vals : List Byte) :
    (s.complete b tag opc result vals).StoreIs o := (h.setRing ..).post ..

theorem answerFirst (h : s.StoreIs o) (b : Fin 2) (e : InFlight) (result : Nat) (vals : List Byte) :
    (s.answerFirst b e result vals).StoreIs o := (h.setRing ..).post ..

theorem refuseNext (b : Fin 2) (n : Nat) {s : State} (h : s.StoreIs o) : (State.refuseNext b n s).StoreIs o := by
  induction n generalizing s with
  | zero => exact h
  | succ n ih =>
    unfold State.refuseNext
    split
    · exact h
    · split
      · exact h
      · exact ih (h.answerFirst ..)

theorem accept (h : s.StoreIs o) (b : Fin 2) : (s.accept b).StoreIs o := refuseNext b 16 (h.setRing ..)

theorem stoReply (h : s.StoreIs o) (r : StoReq) (code : Nat) : (s.stoReply r code).StoreIs o :=
  complete (ite (h.setF ..) h) ..

/-! The checks of a write (R357, R618) -/

theorem copyRows (k : Fin 8) (l : List Nat) {s : State} (h : s.StoreIs o) : (s.copyRows k l).2.StoreIs o := by
  induction l generalizing s with
  | nil => exact h
  | cons r l ih => exact ih (h.getRow k r)

theorem digestRows (h : s.StoreIs o) (k : Fin 8) (first n : Nat) (par : List (Nat × Nat)) :
    (s.digestRows k first n par).2.2.StoreIs o :=
  foldl (fun _ _ hu => (hu.bump ..).reportAft _) _ (copyRows k _ h)

theorem digestCopies (n : Nat) (l : List (Fin 8 × Nat)) (errs : List (BitVec 64)) {s : State} (h : s.StoreIs o) :
    (State.digestCopies n l errs s).2.2.StoreIs o := by
  induction l generalizing errs s with
  | nil => exact h
  | cons c l ih =>
    obtain ⟨k, r⟩ := c
    rw [State.digestCopies]
    have digested := h.digestRows k r n []
    generalize s.digestRows k r n = d at digested ⊢
    exact ih _ digested

theorem copyRun (h : s.StoreIs o) (n : Nat) (src dst : Fin 8 × Nat) : (s.copyRun n src dst).StoreIs o :=
  foldl (fun _ _ hu => (hu.getRow ..).putRow ..) _ h

theorem blameAt (h : s.StoreIs o) (row k : Nat) (also : Option Nat) : (s.blameAt row k also).StoreIs o :=
  ite (((h.bump ..).report _).setF ..) ((h.bump ..).report _)

theorem repairCopy (n : Nat) (d : BitVec 64) (dst : Fin 8 × Nat) (l : List (Fin 8 × Nat)) (t : Nat) (errs : List (BitVec 64))
    {s : State} (h : s.StoreIs o) : (State.repairCopy n d dst l t errs s).2.StoreIs o := by
  induction l generalizing t errs s with
  | nil => exact h
  | cons src l ih =>
    cases t with
    | zero => exact h
    | succ t =>
      have copied := (h.copyRun n src dst).digestRows dst.1 dst.2 n []
      exact ite_snd copied (ih _ _ copied)

theorem mendCopies (n : Nat) (d : BitVec 64) (rows good : List (Fin 8 × Nat)) (l : List Copy) (errs : List (BitVec 64))
    {s : State} (h : s.StoreIs o) : (s.mendCopies n d rows good l errs).2.StoreIs o := by
  induction l generalizing errs s with
  | nil => exact h
  | cons e l ih =>
    unfold State.mendCopies
    split
    · exact ih _ h
    · rename_i q _
      have again := h.digestRows q.1 q.2 n []
      exact ih _ (repairCopy _ _ _ _ _ _ (ite again (again.blameAt ..)))

theorem agree (h : s.StoreIs o) (j : Job) (p : Pkg) (errs : List (BitVec 64)) : (s.agree j p errs).2.StoreIs o := by
  unfold State.agree
  dsimp only
  generalize List.filterMap _ _ = rows
  generalize p.shadow + _ = n
  have first := digestCopies n rows errs h
  refine ite_snd first (ite_snd first ?_)
  split
  · exact mendCopies _ _ _ _ _ _ first
  · have second := digestCopies n rows (State.digestCopies n rows errs s).2.1 first
    split
    · exact second
    · refine ite_snd ?_ (mendCopies _ _ _ _ _ _ second)
      split
      · exact second.blameAt ..
      · exact second

theorem ledgerCheck (h : s.StoreIs o) (r : StoReq) : (s.ledgerCheck r).2.StoreIs o := by
  unfold State.ledgerCheck
  split
  · exact h
  · refine ite_snd h ?_
    split
    · exact h
    · dsimp only
      split
      · exact h.agree ..
      · exact ite_snd (h.agree ..) (h.agree ..)

theorem stoObject (h : s.StoreIs o) (r : StoReq) : (s.stoObject r).2.StoreIs o := by
  unfold State.stoObject
  refine ite_snd (h.ledgerCheck r) ?_
  dsimp only
  have read := h.source r.src r.len
  split
  · exact read
  · exact ite_snd (ite_snd read read) (ite_snd (ite_snd read read) (ite_snd read read))

theorem energyCheck (h : s.StoreIs o) : s.energyCheck.2.StoreIs o := ite_snd h (ite_snd h h)

theorem stoCheck (h : s.StoreIs o) (r : StoReq) : (s.stoCheck r).2.StoreIs o := by
  have judged {e : Bool × State} (he : e.2.StoreIs o) (w : StoWrite) :
      (match e with | (ok, u) => ((if ok then (.inr w, u) else (.inl 0x44, u)) : (Nat ⊕ StoWrite) × State)).2.StoreIs o :=
    ite_snd he he
  unfold State.stoCheck
  refine ite_snd h (ite_snd ?_ ?_)
  · split
    · exact h
    · exact ite_snd h (ite_snd h (judged h.energyCheck _))
  · have object := h.stoObject r
    generalize s.stoObject r = x at object ⊢
    obtain ⟨q, u⟩ := x
    cases q with
    | inl c => exact object
    | inr x =>
      have energy := judged object.energyCheck
      exact ite_snd (ite_snd object (ite_snd object (energy _))) (ite_snd object (ite_snd object (ite_snd object (energy _))))

end State.StoreIs

end Sys2Proof.Machine
end

section
/-! PROOF. O52: the ring commands NOP, CLAIM, ROUTE and STOREWR (Table HO-7, R546, R552, R617). -/

namespace Sys2Proof.Machine

/-! ### Commands in flight (R541) -/

theorem beginFirst_eq (l : List InFlight) : beginFirst l = l.takeWhile (·.begun) ++
    ((l.dropWhile (·.begun)).take 1).map (fun f => { f with begun := true }) ++ (l.dropWhile (·.begun)).drop 1 := by
  induction l with
  | nil => rfl
  | cons e l ih =>
    unfold beginFirst
    by_cases h : e.begun = true
    · rw [if_pos h, ih, List.takeWhile_cons_of_pos h, List.dropWhile_cons_of_pos h]
      rfl
    · rw [if_neg h, List.takeWhile_cons_of_neg h, List.dropWhile_cons_of_neg h]
      rfl

/-- A next command that its fetch found right is not refused. -/
theorem State.refuseNext_good {s : State} {b : Fin 2}
    (h : ∀ f, (s.ring b).inflight.find? (fun f => !f.begun) = some f → f.bad = none) (n : Nat) :
    State.refuseNext b n s = s := by
  cases n with
  | zero => rfl
  | succ n =>
    unfold State.refuseNext
    split
    · rfl
    · rename_i e first
      rw [h e first]

theorem State.ring_setRing_same (s : State) (b : Fin 2) (r : RingSt) : (s.setRing b r).ring b = r := vget_vset_same ..

theorem State.accept_good {s : State} {b : Fin 2}
    (h : ∀ f, (beginFirst (s.ring b).inflight).find? (fun f => !f.begun) = some f → f.bad = none) :
    s.accept b = s.setRing b { s.ring b with inflight := beginFirst (s.ring b).inflight } :=
  State.refuseNext_good (by rwa [State.ring_setRing_same]) 16

/-! ### Parameters of a command (Table HO-5) -/

theorem leNat_take_add (n m : Nat) (l : List Byte) :
    leNat (l.take (n + m)) = leNat (l.take n) + 256 ^ n * leNat ((l.drop n).take m) := by
  induction n generalizing l with
  | zero => simp [leNat]
  | succ n ih =>
    cases l with
    | nil => simp [leNat]
    | cons a l =>
      rw [Nat.add_right_comm, List.take_succ_cons, List.take_succ_cons, List.drop_succ_cons, leNat, leNat, ih l, pow_succ]
      ring

theorem leNat_take_lt (n : Nat) (l : List Byte) : leNat (l.take n) < 256 ^ n := by
  induction n generalizing l with
  | zero => simp [leNat]
  | succ n ih =>
    cases l with
    | nil => simp [leNat]
    | cons a l =>
      have low := a.isLt
      have high := ih l
      rw [List.take_succ_cons, leNat, pow_succ]
      omega

namespace InFlight

theorem par_lt (e : InFlight) (o n : Nat) : e.par o n < 256 ^ n := leNat_take_lt ..

/-- A parameter is its lower bytes and its upper ones. -/
theorem par_add (e : InFlight) {o : Nat} (n m : Nat) (h : 8 ≤ o) : e.par o (n + m) = e.par o n + 256 ^ n * e.par (o + n) m := by
  unfold par
  rw [leNat_take_add, List.drop_drop, Nat.sub_add_comm h]

end InFlight

/-! ### Owners of blocks (R548) -/

/-- The field of GLB_OWN0 to GLB_OWN2 that holds the owner of a block. -/
def ownField (i : Nat) : Fld :=
  ⟨if i < 8 then F.GLB_OWN0_OWN.off else if i < 16 then F.GLB_OWN1_OWN.off else F.GLB_OWN2_OWN.off, 3 * (i % 8), 3⟩

/-- The registers that hold the owners of blocks. -/
def ownRegs : List Nat := [F.GLB_OWN0_OWN.off, F.GLB_OWN1_OWN.off, F.GLB_OWN2_OWN.off]

theorem ownField_off_mem (i : Nat) : (ownField i).off ∈ ownRegs := by
  unfold ownField ownRegs
  dsimp only
  split
  · simp
  · split <;> simp

theorem ownField_inside (i : Nat) : (ownField i).lo + (ownField i).w ≤ 32 := by
  simp only [ownField]
  omega

/-- Different blocks have different fields. -/
theorem ownField_apart {i j : Nat} (hi : i < 24) (hj : j < 24) (h : i ≠ j) : (ownField j).off ≠ (ownField i).off ∨
    (ownField i).lo + (ownField i).w ≤ (ownField j).lo ∨ (ownField j).lo + (ownField j).w ≤ (ownField i).lo := by
  by_cases same : i / 8 = j / 8
  · right
    simp only [ownField]
    omega
  · left
    simp only [ownField, F.GLB_OWN0_OWN, F.GLB_OWN1_OWN, F.GLB_OWN2_OWN]
    split_ifs <;> omega

theorem State.owner_eq (s : State) {i : Nat} (h : i < 24) : s.owner i = s.getF (ownField i) := by
  unfold State.owner State.getF ownField
  dsimp only
  split_ifs with first second
  · rw [Nat.mod_eq_of_lt first]
  · rw [show i - 8 = i % 8 by omega]
  · rw [show i - 16 = i % 8 by omega]

theorem State.setOwner_eq (s : State) {i : Nat} (v : Nat) (h : i < 24) : s.setOwner i v = s.setF (ownField i) v := by
  unfold State.setOwner ownField
  split_ifs with first second
  · rw [Nat.mod_eq_of_lt first]
  · rw [show i - 8 = i % 8 by omega]
  · rw [show i - 16 = i % 8 by omega]

theorem State.owner_setOwner_same {s : State} (wf : s.RegsWf) {i v : Nat} (h : i < 24) (hv : v < 8) :
    (s.setOwner i v).owner i = v := by
  rw [s.setOwner_eq v h, State.owner_eq _ h, s.getF_setF_same _ _ wf (ownField_inside i)]
  exact Nat.mod_eq_of_lt hv

theorem State.owner_setOwner_ne {s : State} (wf : s.RegsWf) {i j : Nat} (v : Nat) (hi : i < 24) (hj : j < 24) (h : i ≠ j) :
    (s.setOwner i v).owner j = s.owner j := by
  rw [s.setOwner_eq v hi, State.owner_eq _ hj, State.owner_eq _ hj,
    s.getF_setF_ne v wf (ownField_inside i) (ownField_inside j) (ownField_apart hi hj h)]

/-- From `s` to `t`, the owners of the blocks `p` become what `g` makes of them, and nothing else changes. -/
structure Reowned (g : Nat → Nat) (p : Nat → Prop) (s t : State) : Prop where
  only : RegsOnly ownRegs s t
  wf : t.RegsWf
  same : ∀ j < 24, p j → t.owner j = g (s.owner j)
  other : ∀ j < 24, ¬ p j → t.owner j = s.owner j

theorem State.setOwner_reowned {s : State} (wf : s.RegsWf) {g : Nat → Nat} {i v : Nat} (h : i < 24) (hv : v < 8)
    (hg : g (s.owner i) = v) : Reowned g (· = i) s (s.setOwner i v) where
  only := by
    rw [s.setOwner_eq v h]
    exact (s.setF_only _ v).mono fun o ho => List.mem_singleton.1 ho ▸ ownField_off_mem i
  wf := by
    rw [s.setOwner_eq v h]
    exact wf.setF ..
  same j _ e := by rw [e, State.owner_setOwner_same wf h hv, hg]
  other j hj e := State.owner_setOwner_ne wf v h hj (Ne.symm e)

/-- Blocks whose owners a fold changes one by one, in a way that does not matter when it is repeated. -/
theorem Reowned.foldl {g : Nat → Nat} (idem : ∀ x, g (g x) = g x) {f : State → Nat → State}
    (step : ∀ {s : State}, s.RegsWf → ∀ i < 24, Reowned g (· = i) s (f s i)) (l : List Nat) (hl : ∀ i ∈ l, i < 24)
    {s : State} (wf : s.RegsWf) : Reowned g (· ∈ l) s (l.foldl f s) := by
  induction l generalizing s with
  | nil => exact ⟨RegsOnly.refl _ s, wf, fun _ _ h => absurd h List.not_mem_nil, fun _ _ _ => rfl⟩
  | cons i l ih =>
    rw [List.forall_mem_cons] at hl
    have first := step wf i hl.1
    have rest := ih hl.2 first.wf
    refine ⟨(first.only.trans rest.only).mono (by simp), rest.wf, fun j hj mine => ?_, fun j hj none => ?_⟩
    · have own : (f s i).owner j = g (s.owner j) ∨ (f s i).owner j = s.owner j := by
        by_cases e : j = i
        · exact .inl (first.same j hj e)
        · exact .inr (first.other j hj e)
      by_cases later : j ∈ l
      · rw [List.foldl_cons, rest.same j hj later]
        rcases own with h | h
        · rw [h, idem]
        · rw [h]
      · rw [List.foldl_cons, rest.other j hj later, first.same j hj ((List.mem_cons.1 mine).resolve_right later)]
    · rw [List.mem_cons, not_or] at none
      rw [List.foldl_cons, rest.other j hj none.2, first.other j hj none.1]

/-! ### Blocks of a CLAIM (R552) -/

theorem mem_upFrom {a n i : Nat} : i ∈ upFrom a n ↔ a ≤ i ∧ i < a + n := by
  induction n generalizing a with
  | zero => simp [upFrom]
  | succ n ih =>
    rw [upFrom, List.mem_cons, ih]
    omega

theorem lt_of_mem_upFrom {n i : Nat} (h : i ∈ upFrom 0 n) : i < n := by
  simpa using (mem_upFrom.1 h).2

theorem mem_claimBlocks {mask i : Nat} : i ∈ claimBlocks mask ↔ i < 24 ∧ mask.testBit i = true := by
  rw [claimBlocks, List.mem_filter, mem_upFrom, bitsOf_one, Nat.zero_add]
  exact and_congr_left fun _ => and_iff_right (Nat.zero_le i)

theorem claimGood_iff (e : InFlight) : claimGood e = true ↔ e.unusedZero [(8, 12)] = true ∧ e.par 12 1 ≤ 1 ∧
    (e.par 8 4).testBit 15 = false ∧ e.par 8 4 < 2 ^ 24 := by
  have lt := e.par_lt 8 4
  have bit : (bitsOf (e.par 8 4) 15 1 == 0) = !(e.par 8 4).testBit 15 := by
    rw [← bitsOf_one]
    have : bitsOf (e.par 8 4) 15 1 < 2 := Nat.mod_lt _ (by decide)
    generalize bitsOf (e.par 8 4) 15 1 = x at this
    interval_cases x <;> rfl
  have high : bitsOf (e.par 8 4) 24 8 = 0 ↔ e.par 8 4 < 2 ^ 24 := by
    unfold bitsOf
    omega
  unfold claimGood
  rw [bit]
  simp [high, and_assoc]

section

variable {s : State} {b : Fin 2} {e : InFlight}

theorem execNop_idle (h : s.nextCmd b 0 = none) : execNop b s = .next s := by
  simp [execNop, h]

theorem execNop_served (h : s.nextCmd b 0 = some e) :
    execNop b s = .next (s.finish b e (if e.unusedZero [] then 0 else 0x71) []) := by
  simp [execNop, h, cmdBadField]

/-- The blocks that CLAIM may take: SHARED, the requester's, or HOST's while the link is down. -/
def State.claimable (s : State) (me i : Nat) : Bool :=
  [0, me].contains (s.owner i) || (s.owner i == 2 && !s.flag F.HOST_STATUS_LINK_UP)

theorem State.claimable_iff (s : State) (me i : Nat) : s.claimable me i = true ↔
    ¬ (s.owner i ≠ 0 ∧ s.owner i ≠ me ∧ ¬ (s.owner i = 2 ∧ s.getF F.HOST_STATUS_LINK_UP = 0)) := by
  simp [State.claimable, State.flag]
  tauto

/-- The state once the requester has taken the blocks of a mask. -/
def State.claimed (s : State) (me mask : Nat) : State := (claimBlocks mask).foldl (fun s i => s.setOwner i me) s

/-- The state once the requester has released its own blocks of a mask. -/
def State.unclaimed (s : State) (me mask : Nat) : State :=
  (claimBlocks mask).foldl (fun s i => if s.owner i = me then s.setOwner i 0 else s) s

theorem State.claimed_reowned (wf : s.RegsWf) {me : Nat} (small : me < 8) (mask : Nat) :
    Reowned (fun _ => me) (· ∈ claimBlocks mask) s (s.claimed me mask) :=
  Reowned.foldl (g := fun _ => me) (fun _ => rfl) (fun wf _ hi => State.setOwner_reowned wf hi small rfl) _
    (fun _ hi => (mem_claimBlocks.1 hi).1) wf

theorem State.unclaimed_reowned (wf : s.RegsWf) (me mask : Nat) :
    Reowned (fun o => if o = me then 0 else o) (· ∈ claimBlocks mask) s (s.unclaimed me mask) := by
  refine Reowned.foldl (fun x => ?_) (fun {s} wf i hi => ?_) _ (fun _ hi => (mem_claimBlocks.1 hi).1) wf
  · by_cases e : x = me
    · simp [e]
    · simp [e]
  · split
    · rename_i mine
      exact State.setOwner_reowned wf hi (by decide) (if_pos mine)
    · rename_i other
      exact ⟨RegsOnly.refl _ s, wf, fun j _ e => by rw [e, if_neg other], fun _ _ _ => rfl⟩

theorem execClaim_idle (h : s.nextCmd b 14 = none) : execClaim b s = .next s := by
  simp [execClaim, h]

theorem execClaimRelease_idle (h : s.nextCmd b 14 = none) : execClaimRelease b s = .next s := by
  simp [execClaimRelease, h]

/-- CLAIM without RELEASE: a bad field, a block of another owner, or the blocks taken. -/
theorem execClaim_served (h : s.nextCmd b 14 = some e) : execClaim b s =
    if e.par 12 1 % 2 = 1 then .next s
    else if claimGood e = false then .next (s.finish b e 0x71 [])
    else if ∃ i ∈ claimBlocks (e.par 8 4), s.claimable (b.val + 2) i = false then .next (s.finish b e 0x76 [])
    else .next ((s.claimed (b.val + 2) (e.par 8 4)).finish b e 0
      (leBytes 4 ((s.claimed (b.val + 2) (e.par 8 4)).ownedMask (b.val + 2)))) := by
  unfold execClaim
  rw [h]
  simp only [Bool.not_eq_true', List.all_eq_false, Bool.not_eq_true]
  rfl

/-- CLAIM with RELEASE: a bad field, or the blocks released. -/
theorem execClaimRelease_served (h : s.nextCmd b 14 = some e) : execClaimRelease b s =
    if e.par 12 1 % 2 = 0 then .next s
    else if claimGood e = false then .next (s.finish b e 0x71 [])
    else .next ((s.unclaimed (b.val + 2) (e.par 8 4)).finish b e 0
      (leBytes 4 ((s.unclaimed (b.val + 2) (e.par 8 4)).ownedMask (b.val + 2)))) := by
  unfold execClaimRelease
  rw [h]
  simp only [Bool.not_eq_true']
  rfl

end

/-! ### ROUTE (R546) -/

/-- The firmware's own write of a register of the Fore half, outside the link and the cores, is stored (R549). -/
theorem State.regWrite_firmware (s : State) {off : Nat} (h : blockOf off < 11) (v : Nat) :
    s.regWrite true .lcp off v id = s.storeFields off v := by
  have fore : aftBlock off = false := by
    simp only [aftBlock, Bool.or_eq_false_iff, beq_eq_false_iff_ne, decide_eq_false_iff_not]
    omega
  have awake : s.asleep off = false := by
    simp only [State.asleep, Bool.and_eq_false_iff, decide_eq_false_iff_not]
    omega
  unfold State.regWrite State.refuseWrite
  rw [fore, awake]
  simp [State.pathOpen]

section

variable {off val : Nat → Nat}

/-- Stores of several registers change these, and the status that they meet. -/
theorem State.foldl_storeFields_only (l : List Nat) (plain : ∀ i ∈ l, adjusted (off i) = false) (s : State) :
    RegsOnly (l.map off ++ statusRegs) s (l.foldl (fun s i => s.storeFields (off i) (val i)) s) := by
  induction l generalizing s with
  | nil => exact RegsOnly.refl _ s
  | cons i l ih =>
    rw [List.forall_mem_cons] at plain
    have first : RegsOnly (off i :: statusRegs) s (s.storeFields (off i) (val i)) := s.storeFields_only (val i) plain.1
    refine (first.trans (ih plain.2 _)).mono fun o ho => ?_
    simp only [List.map_cons, List.mem_append, List.mem_cons] at ho ⊢
    tauto

/-- Of several registers that are stored one after the other, each holds its own write. -/
theorem State.getReg_foldl_storeFields {r : RegDesc} {i : Nat} (hr : regAt (off i) = some r) (ho : off i ∉ statusRegs)
    (l : List Nat) (hi : i ∈ l) (apart : (l.map off).Nodup) (plain : ∀ j ∈ l, adjusted (off j) = false) {s : State}
    (wf : s.RegsWf) : ∃ (locked : Bool) (old : Word),
      (l.foldl (fun s i => s.storeFields (off i) (val i)) s).getReg (off i) =
        BitVec.ofNat 32 (writeFields locked (val i) r.fields (old.toNat, false, false)).1 := by
  induction l generalizing s with
  | nil => cases hi
  | cons j l ih =>
    rw [List.forall_mem_cons] at plain
    rw [List.map_cons, List.nodup_cons] at apart
    rcases List.mem_cons.1 hi with rfl | later
    · have kept := (State.foldl_storeFields_only (val := val) l plain.2 (s.storeFields (off i) (val i))).2 (off i)
        (by rw [List.mem_append, not_or]; exact ⟨apart.1, ho⟩)
      exact ⟨_, _, kept.trans (State.getReg_storeFields _ wf hr plain.1 ho)⟩
    · exact ih later apart.2 plain.2 (s.storeFields_wf _ _ wf)

end

/-- The offsets of the nine values of a stream's shadow. -/
def routeReg (n i : Nat) : Nat := nth 0 (ofRegs n) i

theorem routeReg_eq (n : Nat) {i : Nat} (h : i < 9) : routeReg n i = 0x050100 + 4 * i + 0x80 * n := by
  unfold routeReg ofRegs
  interval_cases i <;> rfl

theorem routeReg_plain {n i : Nat} (hn : n < 6) (hi : i < 9) : adjusted (routeReg n i) = false := by
  have all : ∀ (n : Fin 6) (i : Fin 9), adjusted (routeReg n i) = false := by decide
  exact all ⟨n, hn⟩ ⟨i, hi⟩

theorem routeRegs_apart (n : Nat) : ((upFrom 0 9).map (routeReg n)).Nodup := by
  refine List.Nodup.map_on (fun i hi j hj same => ?_) (by decide)
  rw [routeReg_eq n (lt_of_mem_upFrom hi), routeReg_eq n (lt_of_mem_upFrom hj)] at same
  omega

/-- The nine values of a stream's shadow are stored. -/
def State.routed (s : State) (n : Nat) (e : InFlight) : State :=
  (upFrom 0 9).foldl (fun s i => s.storeFields (routeReg n i) (e.par (12 + 4 * i) 4)) s

section

variable {s : State} {b : Fin 2} {e : InFlight} {n : Fin 6}

theorem State.routed_frame (s : State) (n : Fin 6) (e : InFlight) :
    s.routed n e = { s with regs := (s.routed n e).regs, wire := (s.routed n e).wire } :=
  (State.foldl_storeFields_only (off := routeReg n) (val := fun i => e.par (12 + 4 * i) 4) _
    (fun _ hi => routeReg_plain n.isLt (lt_of_mem_upFrom hi)) s).1

/-- A register of a stream's shadow holds the value that ROUTE names for it. -/
theorem State.getReg_routed (wf : s.RegsWf) {i : Nat} (hi : i < 9) {r : RegDesc} (hr : regAt (routeReg n i) = some r) :
    ∃ (locked : Bool) (old : Word), (s.routed n e).getReg (routeReg n i) =
      BitVec.ofNat 32 (writeFields locked (e.par (12 + 4 * i) 4) r.fields (old.toNat, false, false)).1 := by
  refine State.getReg_foldl_storeFields (off := routeReg n) (val := fun i => e.par (12 + 4 * i) 4) hr ?_ _
    (mem_upFrom.2 ⟨Nat.zero_le i, by omega⟩) (routeRegs_apart n)
    (fun _ hi => routeReg_plain n.isLt (lt_of_mem_upFrom hi)) wf
  have own := routeReg_eq n hi
  have others : ∀ o ∈ statusRegs, o < 0x050100 := by decide
  exact fun h => absurd (others _ h) (by omega)

/-- A register that is one plain field holds its bits of the value. -/
theorem State.getF_routed_plain (wf : s.RegsWf) {i : Nat} (hi : i < 9) {f : Fld} {r : RegDesc} {x : Effect} {v : Nat}
    (hf : f.off = routeReg n i) (hr : regAt (routeReg n i) = some r) (plain : r.fields = [⟨f.lo, f.w, .rw, x, v, []⟩])
    (inside : f.lo + f.w ≤ 32) : (s.routed n e).getF f = bitsOf (e.par (12 + 4 * i) 4) f.lo f.w := by
  obtain ⟨locked, old, held⟩ := State.getReg_routed (e := e) wf hi hr
  rw [State.getF, hf, held, plain]
  exact (bitsOf_putBits_same old _ inside).trans (Nat.mod_mod ..)

/-- OF_CROP_XY holds its two halves. -/
theorem State.getF_routed_crop (wf : s.RegsWf) : (s.routed n e).getF (F.OF_CROP_XY_X n) = e.par 16 2 % 16384 ∧
    (s.routed n e).getF (F.OF_CROP_XY_Y n) = e.par 18 2 % 16384 := by
  have field : ∀ n : Fin 6, regAt (routeReg n 1) =
      some ⟨0x050104, 0x80, 6, 4, 1, [⟨0, 14, .rw, .frm, 0, []⟩, ⟨16, 14, .rw, .frm, 0, []⟩]⟩ := by decide
  obtain ⟨locked, old, held⟩ := State.getReg_routed (e := e) wf (i := 1) (by decide) (field n)
  have value : e.par 16 4 = e.par 16 2 + 256 ^ 2 * e.par 18 2 := e.par_add 2 2 (by decide)
  have low := e.par_lt 16 2
  have word := old.isLt
  change (s.routed n e).getReg (F.OF_CROP_XY_X n).off = _ at held
  have same : (F.OF_CROP_XY_Y n).off = (F.OF_CROP_XY_X n).off := rfl
  rw [State.getF, State.getF, same, held]
  simp only [writeFields, FieldDesc.write, FieldDesc.reserved, List.any_nil, Bool.false_eq_true, if_false, BitVec.toNat_ofNat,
    F.OF_CROP_XY_X, F.OF_CROP_XY_Y, bitsOf, value]
  generalize old.toNat = x at word
  generalize e.par 16 2 = p at low
  generalize e.par 18 2 = q
  omega

/-- OF_BASE, OF_PITCH and OF_OFFSET hold their words. -/
theorem State.getF_routed_planes (wf : s.RegsWf) : (s.routed n e).getF (F.OF_BASE n) = e.par 28 4 ∧
    (s.routed n e).getF (F.OF_PITCH n) = e.par 32 4 % 2 ^ 20 ∧ (s.routed n e).getF (F.OF_OFFSET n) = e.par 40 4 := by
  have base : ∀ n : Fin 6, regAt (routeReg n 4) = some ⟨0x050110, 0x80, 6, 4, 1, [⟨0, 32, .rw, .frm, 0, []⟩]⟩ := by decide
  have pitch : ∀ n : Fin 6, regAt (routeReg n 5) = some ⟨0x050114, 0x80, 6, 4, 1, [⟨0, 20, .rw, .frm, 0, []⟩]⟩ := by decide
  have offset : ∀ n : Fin 6, regAt (routeReg n 7) = some ⟨0x05011C, 0x80, 6, 4, 1, [⟨0, 32, .rw, .frm, 0, []⟩]⟩ := by decide
  have word (o : Nat) : bitsOf (e.par o 4) 0 32 = e.par o 4 :=
    (bitsOf_low ..).trans (Nat.mod_eq_of_lt (e.par_lt o 4))
  exact ⟨(State.getF_routed_plain (f := F.OF_BASE n) wf (by decide) rfl (base n) rfl (Nat.le_refl 32)).trans (word 28),
    (State.getF_routed_plain (f := F.OF_PITCH n) wf (by decide) rfl (pitch n) rfl (show 20 ≤ 32 by decide)).trans (bitsOf_low ..),
    (State.getF_routed_plain (f := F.OF_OFFSET n) wf (by decide) rfl (offset n) rfl (Nat.le_refl 32)).trans (word 40)⟩

theorem execRoute_idle (h : s.nextCmd b 7 = none) : execRoute b s = .next s := by
  simp [execRoute, h]

/-- The fields of a ROUTE command are wrong: a byte that it does not use, or a stream that there is not. -/
def routeBad (e : InFlight) : Prop := e.unusedZero [(8, 8), (12, 47)] = false ∨ 5 < e.par 8 1

theorem execRoute_bad (h : s.nextCmd b 7 = some e) (bad : routeBad e) : execRoute b s = .next (s.finish b e 0x71 []) := by
  unfold execRoute
  rw [h]
  exact if_pos (by simpa [routeBad] using bad)

theorem execRoute_notClaimed (h : s.nextCmd b 7 = some e) (good : ¬ routeBad e)
    (none : ¬ ∃ j ∈ s.jobs, e.par 8 1 ∈ j.streams) : execRoute b s = .next (s.finish b e 0x77 []) := by
  unfold execRoute
  rw [h]
  refine (if_neg (by simpa [routeBad] using good)).trans (if_pos ?_)
  simpa [State.feeder] using none

/-- From an update of OF_Sn_CFG, a stream is to stop when ENABLE is 0 (R554). -/
theorem State.ofCfgAct_eq (s : State) (n : Fin 6) (v : Nat) : State.ofCfgAct n v s =
    s.setStream n { s.stream n with stop := (s.stream n).stop || decide (v % 2 = 0) } := by
  unfold State.ofCfgAct
  split
  · rename_i stops
    rw [decide_eq_true stops, Bool.or_true]
  · rename_i runs
    rw [decide_eq_false runs, Bool.or_false, State.setStream]
    exact congrArg (fun st => { s with out := { s.out with st := st } }) (vset_vget s.out.st n).symm

/-- The state once ROUTE has written a stream's shadow. -/
def State.routeDone (s : State) (n : Fin 6) (e : InFlight) : State := State.ofCfgAct n (e.par 12 4) (s.routed n e)

theorem State.getF_routeDone (s : State) (n : Fin 6) (e : InFlight) (f : Fld) :
    (s.routeDone n e).getF f = (s.routed n e).getF f := by
  rw [State.routeDone, State.ofCfgAct_eq]
  rfl

theorem State.routeDone_frame (s : State) (n : Fin 6) (e : InFlight) : s.routeDone n e =
    { s.setStream n { s.stream n with stop := (s.stream n).stop || decide (e.par 12 4 % 2 = 0) } with
      regs := (s.routeDone n e).regs, wire := (s.routeDone n e).wire } := by
  rw [State.routeDone, State.ofCfgAct_eq]
  have frame := s.routed_frame n e
  generalize s.routed n e = t at frame ⊢
  rw [frame]
  rfl

theorem execRoute_claimed (h : s.nextCmd b 7 = some e) (good : ¬ routeBad e)
    (claimed : ∃ j ∈ s.jobs, e.par 8 1 ∈ j.streams) (stream : e.par 8 1 = n.val) :
    execRoute b s = .next ((s.routeDone n e).finish b e 0 []) := by
  have stored : (upFrom 0 9).foldl (fun s i => s.regWrite true .lcp (nth 0 (ofRegs n) i) (e.par (12 + 4 * i) 4) id) s =
      s.routed n e := by
    refine List.foldl_ext _ _ _ fun t _ hi => t.regWrite_firmware ?_ _
    have nine := lt_of_mem_upFrom hi
    have own := routeReg_eq n nine
    have := n.isLt
    unfold blockOf
    unfold routeReg at own
    omega
  have index : (⟨e.par 8 1 % 6, Nat.mod_lt _ (by decide)⟩ : Fin 6) = n := by
    apply Fin.ext
    simp [stream, Nat.mod_eq_of_lt n.isLt]
  unfold execRoute
  rw [h]
  refine (if_neg (by simpa [routeBad] using good)).trans ((if_neg (by simpa [State.feeder] using claimed)).trans ?_)
  simp only [index]
  rw [stream, stored, State.routeDone]

end

/-! ### STOREWR (R617) -/

theorem State.showStore_frame (s : State) : s.showStore = { s with regs := s.showStore.regs } := rfl

/-- While a write runs, the others wait. -/
theorem State.stoRun_busy {s : State} (busy : s.sto.cur.isSome = true) : s.stoRun = s.showStore := by
  unfold State.stoRun State.stoNext
  split
  · rename_i idle _
    rw [idle] at busy
    cases busy
  · rfl

section

variable {s : State} {q : StoReq}

/-- A write is checked: it is answered, and the ones behind it are next, or it starts (R617, R618). -/
def State.stoJudged (n : Nat) (s : State) (q : StoReq) : State :=
  (s.stoCheck q).1.elim (fun c => State.stoNext n ((s.stoCheck q).2.stoReply q c))
    (fun w => { (s.stoCheck q).2 with sto := { (s.stoCheck q).2.sto with cur := some w } }.showStore)

/-- The first write that waits goes on waiting while what it reads is held; else it leaves the queue and is checked. -/
theorem State.stoNext_first {l : List StoReq} (idle : s.sto.cur = none) (queue : s.sto.queue = q :: l) (n : Nat) :
    State.stoNext (n + 1) s =
      if s.stoHeld q then s.showStore else State.stoJudged n { s with sto := { s.sto with queue := l } } q := by
  rw [State.stoNext]
  split
  · rename_i r k _ first
    obtain ⟨rfl, rfl⟩ : q = r ∧ l = k := by simpa [queue] using first
    refine if_congr Iff.rfl rfl ?_
    unfold State.stoJudged
    dsimp only
    generalize State.stoCheck _ q = x
    obtain ⟨c | w, u⟩ := x
    · rfl
    · rfl
  · rename_i none
    exact absurd queue (none q l idle)

/-- With no write waiting, none begins. -/
theorem State.stoNext_empty (empty : s.sto.queue = []) (n : Nat) : (State.stoNext n s).sto = s.sto := by
  cases n with
  | zero => rfl
  | succ n =>
    unfold State.stoNext
    rw [empty]
    cases s.sto.cur <;> rfl

theorem State.stoJudged_queue (empty : s.sto.queue = []) (n : Nat) : (State.stoJudged n s q).sto.queue = [] := by
  have checked : (s.stoCheck q).2.sto = s.sto := State.StoreIs.stoCheck rfl q
  unfold State.stoJudged
  cases (s.stoCheck q).1 with
  | inl c =>
    have replied : ((s.stoCheck q).2.stoReply q c).sto = s.sto := State.StoreIs.stoReply checked q c
    rw [Sum.elim_inl, State.stoNext_empty (by rw [replied, empty]), replied, empty]
  | inr w => exact (congrArg StoSt.queue checked).trans empty

theorem State.stoJudged_starts {w : StoWrite} (h : (s.stoCheck q).1 = .inr w) (n : Nat) :
    (State.stoJudged n s q).sto.cur = some w := by
  unfold State.stoJudged
  rw [h]
  rfl

end

section

variable {s : State} {b : Fin 2} {e : InFlight} {errs : List (BitVec 64)}

/-- The fields of a STOREWR command are wrong: a byte that it does not use, or a job where no ledger record is written. -/
def storeBad (e : InFlight) : Prop := e.unusedZero [(8, 8), (10, 11), (16, 27)] = false ∨
  ((e.par 8 1 ≠ 3 ∨ e.par 24 4 = 0) ∧ e.par 10 2 ≠ 0)

/-- The write that a STOREWR command asks for. -/
def storeReq (b : Fin 2) (errs : List (BitVec 64)) (e : InFlight) : StoReq :=
  { bank := b.val, tag := e.tag, target := e.par 8 1, job := e.par 10 2, src := e.par 16 8, len := e.par 24 4, errs := errs }

/-- The state once a STOREWR command has been accepted: its write waits behind the others. -/
def State.storeQueued (s : State) (b : Fin 2) (q : StoReq) : State :=
  { s.accept b with sto := { s.sto with queue := s.sto.queue ++ [q] } }

theorem execStorewr_idle (h : s.nextCmd b 13 = none) : execStorewr ⟨b, errs⟩ s = .next s := by
  simp [execStorewr, h]

theorem execStorewr_bad (h : s.nextCmd b 13 = some e) (bad : storeBad e) :
    execStorewr ⟨b, errs⟩ s = .next (s.finish b e 0x71 []) := by
  unfold execStorewr
  rw [h]
  exact if_pos (by simpa [storeBad] using bad)

theorem State.accept_sto (s : State) (b : Fin 2) : (s.accept b).sto = s.sto := State.StoreIs.accept rfl b

theorem execStorewr_good (h : s.nextCmd b 13 = some e) (good : ¬ storeBad e) :
    execStorewr ⟨b, errs⟩ s = .next (s.storeQueued b (storeReq b errs e)).stoRun := by
  unfold execStorewr State.storeQueued
  rw [h, ← s.accept_sto b]
  exact if_neg (by simpa [storeBad] using good)

/-- What a write reads is held or not whatever waits. -/
theorem State.stoHeld_storeQueued (s : State) (b : Fin 2) (q : StoReq) : (s.storeQueued b q).stoHeld q = (s.accept b).stoHeld q :=
  rfl

/-- The only write that waits is checked in the state in which its command has been accepted. -/
theorem State.stoRun_storeQueued {q : StoReq} (idle : s.sto.cur = none) (empty : s.sto.queue = []) :
    (s.storeQueued b q).stoRun =
      if (s.accept b).stoHeld q then (s.storeQueued b q).showStore else State.stoJudged 1 (s.accept b) q := by
  have queue : (s.storeQueued b q).sto.queue = [q] := by
    rw [State.storeQueued, empty]
    rfl
  have left : ({ s.storeQueued b q with sto := { (s.storeQueued b q).sto with queue := [] } } : State) = s.accept b := by
    have store : ({ s.sto with queue := [] } : StoSt) = (s.accept b).sto := by rw [s.accept_sto, ← empty]
    exact congrArg (fun o => { s.accept b with sto := o }) store
  have one : (s.storeQueued b q).sto.queue.length = 1 := by rw [queue]; rfl
  rw [State.stoRun, one, State.stoNext_first (s := s.storeQueued b q) idle queue, left, s.stoHeld_storeQueued]

theorem State.showStore_storeQueued (s : State) (b : Fin 2) (q : StoReq) : (s.storeQueued b q).showStore =
    { s.accept b with sto := { s.sto with queue := s.sto.queue ++ [q] }, regs := (s.storeQueued b q).showStore.regs } :=
  State.showStore_frame _

/-- A STOREWR command that is accepted while a write runs leaves its own behind the others. -/
theorem execStorewr_behind (h : s.nextCmd b 13 = some e) (good : ¬ storeBad e) (busy : s.sto.cur.isSome = true) :
    execStorewr ⟨b, errs⟩ s = .next (s.storeQueued b (storeReq b errs e)).showStore := by
  rw [execStorewr_good h good, State.stoRun_busy (s := s.storeQueued b (storeReq b errs e)) busy]

/-- A STOREWR command that finds no other write: its own waits while what it reads is held, or is checked at once. -/
theorem execStorewr_alone (h : s.nextCmd b 13 = some e) (good : ¬ storeBad e) (idle : s.sto.cur = none)
    (empty : s.sto.queue = []) : ∃ t : State, execStorewr ⟨b, errs⟩ s = .next t ∧
      ((s.accept b).stoHeld (storeReq b errs e) = true → t.sto = { s.sto with queue := [storeReq b errs e] }) ∧
      ((s.accept b).stoHeld (storeReq b errs e) = false → t.sto.queue = [] ∧
        ∀ w, ((s.accept b).stoCheck (storeReq b errs e)).1 = .inr w → t.sto.cur = some w) := by
  refine ⟨_, execStorewr_good h good, ?_⟩
  rw [State.stoRun_storeQueued idle empty]
  refine ⟨fun held => ?_, fun free => ?_⟩
  · rw [if_pos held]
    have alone : s.sto.queue ++ [storeReq b errs e] = [storeReq b errs e] := by rw [empty]; rfl
    exact congrArg (fun l => { s.sto with queue := l }) alone
  · rw [if_neg (by rw [free]; decide)]
    exact ⟨State.stoJudged_queue (by rw [s.accept_sto, empty]) 1, fun w starts => State.stoJudged_starts starts 1⟩

end

end Sys2Proof.Machine

namespace Sys2Proof

open Machine

section

variable {s : State} {b : Fin 2} {e : InFlight}

/-- CLAIM takes the blocks of its mask, none of which is another owner's (R552). -/
theorem claim_takes (wf : s.RegsWf) (next : s.nextCmd b 14 = some e) (claims : e.par 12 1 = 0) (good : claimGood e = true)
    (free : ∀ i ∈ claimBlocks (e.par 8 4), s.claimable (b.val + 2) i = true) : ∃ u : State, RegsOnly ownRegs s u ∧
      exec (.claim b) s = .next (u.finish b e 0 (leBytes 4 (u.ownedMask (b.val + 2)))) ∧
      Reowned (fun _ => b.val + 2) (· ∈ claimBlocks (e.par 8 4)) s u := by
  have small : b.val + 2 < 8 := by omega
  have taken := State.claimed_reowned wf small (e.par 8 4)
  refine ⟨_, taken.only, ?_, taken⟩
  refine (execClaim_served next).trans ((if_neg (by rw [claims]; decide)).trans ((if_neg (by rw [good]; decide)).trans
    (if_neg ?_)))
  rintro ⟨i, asked, no⟩
  rw [free i asked] at no
  cases no

/-- CLAIM with RELEASE gives back the blocks of its mask that are the requester's (R552). -/
theorem claim_releases (wf : s.RegsWf) (next : s.nextCmd b 14 = some e) (releases : e.par 12 1 = 1)
    (good : claimGood e = true) : ∃ u : State, RegsOnly ownRegs s u ∧
      exec (.claimRelease b) s = .next (u.finish b e 0 (leBytes 4 (u.ownedMask (b.val + 2)))) ∧
      Reowned (fun o => if o = b.val + 2 then 0 else o) (· ∈ claimBlocks (e.par 8 4)) s u := by
  have released := State.unclaimed_reowned wf (b.val + 2) (e.par 8 4)
  exact ⟨_, released.only, (execClaimRelease_served next).trans ((if_neg (by rw [releases]; decide)).trans
    (if_neg (by rw [good]; decide))), released⟩

end

/-- Settles O52: by the opcode of the command that begins next, and by the checks of its fields in their order. -/
theorem ringCommandsAct : Obligations.RingCommandsAct := by
  unfold Obligations.RingCommandsAct
  intro b n errs s wf cmd ends idle me asks good taken owns acc begins
  have next {op : Nat} {e : InFlight} : cmd op e → s.nextCmd b op = some e :=
    fun ⟨served, first, opc, fetched⟩ => State.nextCmd_some served first opc fetched
  have asked {e : InFlight} {i : Nat} : i ∈ claimBlocks (e.par 8 4) ↔ asks e i := mem_claimBlocks
  refine ⟨fun none => execNop_idle (State.nextCmd_none none), fun none => execClaim_idle (State.nextCmd_none none),
    fun none => execClaimRelease_idle (State.nextCmd_none none), fun none => execRoute_idle (State.nextCmd_none none),
    fun none => execStorewr_idle (State.nextCmd_none none), fun e c => ?nop, fun e c => ?claim, fun e c => ?route,
    fun e c => ?store⟩
  case nop =>
    have ran := execNop_served (next c)
    exact ⟨fun zero => ran.trans (by rw [if_pos zero]), fun other => ran.trans (by rw [other]; rfl)⟩
  case claim =>
    have bad (wrong : ¬ good e) : claimGood e = false := by
      rw [← Bool.not_eq_true, claimGood_iff]
      exact wrong
    refine ⟨fun odd => (execClaim_served (next c)).trans (if_pos odd),
      fun even => (execClaimRelease_served (next c)).trans (if_pos even),
      fun even wrong => (execClaim_served (next c)).trans ((if_neg (by rw [even]; decide)).trans (if_pos (bad wrong))),
      fun odd wrong => (execClaimRelease_served (next c)).trans ((if_neg (by rw [odd]; decide)).trans (if_pos (bad wrong))),
      fun claims right ⟨i, ask, other⟩ => ?_, fun claims right free => ?_, fun releases right => ?_⟩
    · refine (execClaim_served (next c)).trans ((if_neg (by rw [claims]; decide)).trans
        ((if_neg (by rw [(claimGood_iff e).2 right]; decide)).trans (if_pos ⟨i, asked.2 ask, ?_⟩)))
      rw [← Bool.not_eq_true, s.claimable_iff]
      exact not_not_intro other
    · obtain ⟨u, only, ran, owners⟩ := claim_takes wf (next c) claims ((claimGood_iff e).2 right)
        (fun i ask => (s.claimable_iff _ i).2 (free i (asked.1 ask)))
      exact ⟨u, only, ran, fun i hi =>
        ⟨fun ask => owners.same i hi (asked.2 ask), fun none => owners.other i hi (mt asked.1 none)⟩⟩
    · obtain ⟨u, only, ran, owners⟩ := claim_releases wf (next c) releases ((claimGood_iff e).2 right)
      refine ⟨u, only, ran, fun i hi => ⟨fun ask mine => ?_, fun kept => ?_⟩⟩
      · exact (owners.same i hi (asked.2 ask)).trans (if_pos mine)
      · by_cases ask : asks e i
        · exact (owners.same i hi (asked.2 ask)).trans (if_neg (kept.resolve_left (not_not_intro ask)))
        · exact owners.other i hi (mt asked.1 ask)
  case route =>
    refine ⟨fun bad => execRoute_bad (next c) bad, fun right none => execRoute_notClaimed (next c) right none,
      fun right claimed stream => ⟨_, execRoute_claimed (next c) right claimed stream, ?_⟩⟩
    obtain ⟨x, y⟩ := State.getF_routed_crop (n := n) (e := e) wf
    obtain ⟨base, pitch, offset⟩ := State.getF_routed_planes (n := n) (e := e) wf
    exact ⟨(s.getF_routeDone n e _).trans x, (s.getF_routeDone n e _).trans y, (s.getF_routeDone n e _).trans base,
      (s.getF_routeDone n e _).trans pitch, (s.getF_routeDone n e _).trans offset, s.routeDone_frame n e⟩
  case store =>
    refine ⟨fun bad => execStorewr_bad (next c) bad, fun right busy => ⟨_, execStorewr_behind (next c) right busy,
        s.showStore_storeQueued b _⟩,
      fun right idle empty => execStorewr_alone (next c) right idle empty, fun fetched => ?_⟩
    have begun : beginFirst (s.ring b).inflight = begins (s.ring b).inflight := beginFirst_eq _
    rw [← begun] at fetched ⊢
    exact State.accept_good fetched

end Sys2Proof
end

section
/-! PROOF. O28: REQ = SLEEP outside READY is refused (R563); in READY the cores sleep, the trace drains and the links go down
(R564). -/

namespace Sys2Proof.Machine

/-! ### What leaves the cores' power as it is

The Logbooks and the trace ring, with the firmware's write of a row of it wherever TRC_BASE points, change neither a job nor the
power state of a core. -/

/-- From `s` to `t`, the jobs, the power states of the cores and the states for which they go to sleep stay. -/
structure PowerKept (s t : State) : Prop where
  jobs : t.jobs = s.jobs
  pstate : ∀ q, t.pstate q = s.pstate q
  sleepTo : ∀ q, (t.core q).sleepTo = (s.core q).sleepTo
  wf : s.RegsWf → t.RegsWf

namespace PowerKept

variable {s t : State}

theorem refl (s : State) : PowerKept s s := ⟨rfl, fun _ => rfl, fun _ => rfl, id⟩

theorem trans {u : State} (h : PowerKept s t) (h' : PowerKept t u) : PowerKept s u where
  jobs := h'.jobs.trans h.jobs
  pstate q := (h'.pstate q).trans (h.pstate q)
  sleepTo q := (h'.sleepTo q).trans (h.sleepTo q)
  wf w := h'.wf (h.wf w)

theorem ite {a b : State} {c : Prop} [Decidable c] (ha : PowerKept s a) (hb : PowerKept s b) :
    PowerKept s (if c then a else b) := by
  split <;> assumption

theorem ite_snd {α : Type} {a b : α × State} {c : Prop} [Decidable c] (ha : PowerKept s a.2) (hb : PowerKept s b.2) :
    PowerKept s (if c then a else b).2 := by
  split <;> assumption

theorem foldl {α : Type} {f : State → α → State} (step : ∀ s a, PowerKept s (f s a)) (l : List α) (h : PowerKept s t) :
    PowerKept s (l.foldl f t) :=
  h.trans (foldl_rel refl trans step l t)

theorem setF (h : PowerKept s t) {f : Fld} (v : Nat) (apart : ∀ q : Fin 8, (F.CORE_STATUS_PSTATE q).off ≠ f.off) :
    PowerKept s (t.setF f v) :=
  h.trans ⟨rfl, fun q => t.getF_setF_off v (apart q), fun _ => rfl, t.setF_wf f v⟩

/-- A field of a register below the blocks of the cores. -/
theorem setF_low (h : PowerKept s t) {f : Fld} (v : Nat) (low : f.off < 0x100000) : PowerKept s (t.setF f v) :=
  h.setF v fun q => by simp only [F.CORE_STATUS_PSTATE]; omega

theorem setCore (h : PowerKept s t) (k : Fin 8) {c : Core} (same : c.sleepTo = (t.core k).sleepTo) :
    PowerKept s (t.setCore k c) := by
  refine h.trans ⟨rfl, fun _ => rfl, fun q => ?_, id⟩
  by_cases e : q = k
  · subst e; rw [State.core_setCore_same, same]
  · rw [State.core_setCore_ne _ _ e]

/-- Units that are neither registers, nor cores, nor jobs. -/
theorem units (h : PowerKept s t) {u : State} (jobs : u.jobs = t.jobs) (regs : u.regs = t.regs) (cores : u.cores = t.cores) :
    PowerKept s u := by
  refine h.trans ⟨jobs, fun q => ?_, fun q => ?_, fun w => ?_⟩
  · rw [State.pstate, State.getF, State.getReg, regs]; rfl
  · rw [State.core, cores]; rfl
  · rw [State.RegsWf, regs]; exact w

theorem setIsl (h : PowerKept s t) (k : Fin 8) (i : Island) : PowerKept s (t.setIsl k i) := h.units rfl rfl rfl

theorem report (h : PowerKept s t) (r : FRec) : PowerKept s (t.report r) := h.units rfl rfl rfl

theorem raiseCause (h : PowerKept s t) (n : Nat) : PowerKept s (t.raiseCause n) := by
  refine h.trans ⟨t.raiseCause_jobs n, fun q => t.getF_raiseCause n ?_, fun q => by rw [t.raiseCause_core], t.raiseCause_wf n⟩
  simp only [F.CORE_STATUS_PSTATE, F.HOST_ICAUSE]
  omega

theorem log (h : PowerKept s t) (k : Fin 8) (c u typ v : Nat) : PowerKept s (t.log k c u typ v) := by
  have logged := t.log_logs k c u typ v
  refine h.trans ⟨logged.jobs, fun q => logged.getF fun k => ?_, fun q => by rw [logged.core q], logged.wf⟩
  simp only [F.CORE_STATUS_PSTATE, F.CORE_LOGDROP]
  omega

/-! Rows of the scratchpads -/

theorem waited (h : PowerKept s t) (k : Fin 8) : PowerKept s (t.waited k) := by
  have drawn : PowerKept s { t with free := t.free + 1 } := h.units rfl rfl rfl
  exact drawn.setF _ fun q => by simp only [F.CORE_STATUS_PSTATE, F.CORE_SP_CONFLICT]; omega

theorem putRow (h : PowerKept s t) (k : Fin 8) (r : Nat) (ws : Row) : PowerKept s (t.putRow k r ws) :=
  (h.setCore k (by rfl)).units rfl rfl rfl

theorem holdWrite (h : PowerKept s t) (k : Fin 8) (who r : Nat) (ws : Row) : PowerKept s (t.holdWrite k who r ws) :=
  h.setCore k (by rfl)

theorem fwRowsPut (n q : Nat) (bs : List (Byte × Bool)) {t : State} (h : PowerKept s t) :
    PowerKept s (State.fwRowsPut n q bs t) := by
  induction n generalizing q bs t with
  | zero => exact h
  | succ n ih => exact ih _ _ (ite (h.report _) (ite h (ite (h.holdWrite ..) ((h.waited _).putRow ..))))

/-! Coffer SRAM -/

theorem cofWord (h : PowerKept s t) (w : Nat) : PowerKept s (t.cofWord w).2 := by
  have sram (c : CofSt) : PowerKept s { t with cof := c } := h.units rfl rfl rfl
  unfold State.cofWord
  dsimp only
  split
  · exact (sram _).setF_low (f := F.COF_CE) _ (by decide)
  · exact h.report _
  · exact h

theorem cofMerge (h : PowerKept s t) (off : Nat) (bs : List (Byte × Bool)) (w : Nat) : PowerKept s (t.cofMerge off bs w) :=
  (ite_snd h (h.cofWord w)).units rfl rfl rfl

theorem cofWriteRun (h : PowerKept s t) (off : Nat) (bs : List (Byte × Bool)) : PowerKept s (t.cofWriteRun off bs) := by
  have put (l : List Nat) : PowerKept s (l.foldl (fun s w => s.cofMerge off bs w) t) :=
    h.foldl (fun u _ => (refl u).cofMerge ..) l
  unfold State.cofWriteRun
  split
  · exact ite (((h.setF_low _ (by decide)).raiseCause 21).setF_low _ (by decide)) (put _)
  · exact h
  · exact put _

theorem cofHostWrite (h : PowerKept s t) (off : Nat) (bs : List (Byte × Bool)) : PowerKept s (t.cofHostWrite off bs) :=
  h.foldl (fun u _ => (refl u).cofWriteRun ..) _

/-! Windows of other chips -/

theorem winWrite (h : PowerKept s t) {who c w r : Nat} {row : Row} {u : State} (e : t.winWrite who c w r row = some u) :
    PowerKept s u := by
  unfold State.winWrite at e
  split at e
  · cases e
  · dsimp only at e
    generalize hm : LinkMsg.mk .. = m at e
    have frame := t.linkSend_frame m
    cases sent : t.linkSend m with
    | none =>
      rw [sent] at e
      cases e
    | some v =>
      rw [sent] at e frame
      cases e
      rw [Option.getD_some] at frame
      rw [frame]
      exact h.units rfl rfl rfl

theorem fwWinPut (c w n r : Nat) (bs : List (Byte × Bool)) {t u : State} (h : PowerKept s t)
    (e : State.fwWinPut c w n r bs t = some u) : PowerKept s u := by
  induction n generalizing r bs t with
  | zero => cases e; exact h
  | succ n ih =>
    obtain ⟨v, put, rest⟩ := Option.bind_eq_some_iff.1 e
    exact ih _ _ (h.winWrite put) rest

/-! The firmware's writes and the trace ring -/

theorem fwPut (h : PowerKept s t) (a : Nat) (bs : List Byte) : PowerKept s (t.fwPut a bs) := by
  unfold State.fwPut
  dsimp only
  split
  case h_1 =>
    refine ite (h.report _) ?_
    split
    · exact h.report _
    · exact h.units rfl rfl rfl
  case h_2 => exact ite (h.units rfl rfl rfl) h
  case h_3 => exact ite (h.report _) (fwRowsPut _ _ _ h)
  case h_4 => exact ite (h.cofHostWrite ..) (h.report _)
  case h_5 =>
    refine ite (h.report _) (ite h ?_)
    cases put : State.fwWinPut _ _ _ _ _ t with
    | none => exact h.report _
    | some u => exact fwWinPut _ _ _ _ _ h put
  case h_6 => exact h.report _

theorem trcRow (h : PowerKept s t) (l : List LogPkt) : PowerKept s (t.trcRow l) := by
  have put := h.fwPut ((t.getReg F.TRC_BASE.off).toNat * 256 + t.getF F.TRC_HEAD) (l.flatMap LogPkt.bytes)
  unfold State.trcRow
  dsimp only
  generalize t.fwPut _ _ = u at put
  have head := put.setF_low ((t.getF F.TRC_HEAD + 512) % u.trcSize) (f := F.TRC_HEAD) (by decide)
  have wrapped {v : State} (hv : PowerKept s v) {c : Prop} [Decidable c] {f : Fld} (low : f.off < 0x100000) :
      PowerKept s (if c then v.setF f 1 else v) := ite (hv.setF_low 1 low) hv
  exact (wrapped (wrapped head (by decide)) (by decide)).units rfl rfl rfl

theorem trcTake (h : PowerKept s t) (p : LogPkt) : PowerKept s (t.trcTake p) := by
  have gathered (r : List LogPkt) (n : Nat) : PowerKept s { t with trc := { t.trc with row := r, since := n } } :=
    h.units rfl rfl rfl
  exact ite ((gathered _ _).trcRow _) (gathered _ _)

theorem trcPad (h : PowerKept s t) : PowerKept s t.trcPad := ite h (h.trcRow _)

theorem drainLog (h : PowerKept s t) (k : Fin 8) : PowerKept s (t.drainLog k) :=
  h.foldl (fun u p => ite (((refl u).setCore k (by rfl)).trcTake p) (refl u)) _

end PowerKept

/-! ### Cores that go to sleep (R585) -/

/-- From `s` to `t`, the cores of `l` go to sleep, and no core wakes. -/
structure Sleeps (l : List (Fin 8)) (s t : State) : Prop where
  jobs : t.jobs = s.jobs
  wf : s.RegsWf → t.RegsWf
  asleep : s.RegsWf → ∀ q, q ∈ l ∨ 2 ≤ s.pstate q → 2 ≤ t.pstate q

theorem PowerKept.sleeps {s t : State} (h : PowerKept s t) : Sleeps [] s t :=
  ⟨h.jobs, h.wf, fun _ q slept => by rw [h.pstate]; exact slept.resolve_left List.not_mem_nil⟩

theorem Sleeps.trans {l l' : List (Fin 8)} {s t u : State} (h : Sleeps l s t) (h' : Sleeps l' t u) : Sleeps (l ++ l') s u where
  jobs := h'.jobs.trans h.jobs
  wf w := h'.wf (h.wf w)
  asleep w q slept := by
    refine h'.asleep (h.wf w) q ?_
    rw [List.mem_append] at slept
    rcases slept with (first | second) | before
    · exact .inr (h.asleep w q (.inl first))
    · exact .inl second
    · exact .inr (h.asleep w q (.inr before))

theorem Sleeps.kept {l : List (Fin 8)} {s t u : State} (h : Sleeps l s t) (h' : PowerKept t u) : Sleeps l s u := by
  simpa using h.trans h'.sleeps

/-- Cores that go to sleep one after the other. -/
theorem Sleeps.foldl {f : Fin 8 → State → State} (step : ∀ k s, Sleeps [k] s (f k s)) (l : List (Fin 8)) (s : State) :
    Sleeps l s (l.foldl (fun s k => f k s) s) := by
  induction l generalizing s with
  | nil => exact (PowerKept.refl s).sleeps
  | cons k l ih => exact (step k s).trans (ih _)

/-- A core whose logic is switched off is in the state for which it went to sleep. -/
theorem State.powerCore_pstate (s : State) (k : Fin 8) : ∃ u, PowerKept s u ∧
    PowerKept (u.setF (F.CORE_STATUS_PSTATE k) (s.core k).sleepTo) (s.powerCore k) := by
  have shown {u v : State} (h : PowerKept u v) (f : Nat) : PowerKept u (v.setF (F.PWR_ISL_ST_F_SET k) f) :=
    h.setF_low f (by simp only [F.PWR_ISL_ST_F_SET]; omega)
  have retained {u v : State} (h : PowerKept u v) (f : Nat) : PowerKept u (v.setF (F.PWR_ISL_ST_V_SET k) f) :=
    h.setF_low f (by simp only [F.PWR_ISL_ST_V_SET]; omega)
  unfold State.powerCore
  dsimp only
  generalize hc : (if (s.core k).sleepTo = psDark then _ else _ : Core) = c
  have aim : c.sleepTo = (s.core k).sleepTo := by rw [← hc]; split <;> rfl
  rw [aim]
  refine ⟨_, ((PowerKept.refl s).setCore k aim).setF _ fun q => ?_, (retained (shown (.refl _) _) _).setIsl k _⟩
  simp only [F.CORE_STATUS_PSTATE, F.CORE_LOGDROP]
  omega

/-- NAP and DARK are the states in which a core sleeps. -/
theorem State.powerCore_sleeps (s : State) (k : Fin 8) (target : (s.core k).sleepTo = psNap ∨ (s.core k).sleepTo = psDark) :
    Sleeps [k] s (s.powerCore k) := by
  obtain ⟨u, before, after⟩ := s.powerCore_pstate k
  refine ⟨after.jobs.trans before.jobs, fun w => after.wf ((before.wf w).setF ..), fun w q slept => ?_⟩
  rw [after.pstate]
  by_cases e : q = k
  · subst e
    rw [State.pstate, State.getF_setF_same _ (F.CORE_STATUS_PSTATE q) _ (before.wf w) (show 2 ≤ 32 by decide)]
    rcases target with nap | dark
    · rw [nap]; exact show 2 ≤ psNap % 4 by decide
    · rw [dark]; exact show 2 ≤ psDark % 4 by decide
  · have other : (F.CORE_STATUS_PSTATE q).off ≠ (F.CORE_STATUS_PSTATE k).off := by
      simp only [F.CORE_STATUS_PSTATE]
      omega
    rw [State.pstate, State.getF_setF_off _ _ other]
    exact (slept.resolve_left (by simpa using e)).trans_eq (before.pstate q).symm

/-- A core writes its SLEEP packet, its Logbook drains, and it is switched off (R585). -/
theorem State.beginSleep_sleeps (s : State) (k : Fin 8) {target : Nat} (why : Nat) (sleep : target = psNap ∨ target = psDark) :
    Sleeps [k] s (((s.beginSleep k target why).drainLog k).powerCore k) := by
  have logged := (PowerKept.refl s).log k 0 0 0x40 (target + why * 4)
  have begun : (s.beginSleep k target why).pstate = s.pstate := funext logged.pstate
  have drained := (PowerKept.refl (s.beginSleep k target why)).drainLog k
  have aim : (((s.beginSleep k target why).drainLog k).core k).sleepTo = target := by
    rw [drained.sleepTo, State.beginSleep, State.core_setCore_same]
  have off := ((s.beginSleep k target why).drainLog k).powerCore_sleeps k (by rwa [aim])
  refine ⟨off.jobs.trans (drained.jobs.trans logged.jobs), fun w => off.wf (drained.wf (logged.wf w)), fun w q slept => ?_⟩
  refine off.asleep (drained.wf (logged.wf w)) q ?_
  rwa [drained.pstate, begun]

/-- A core goes to sleep with the part, or sleeps already (R564). -/
theorem State.sleepOne_sleeps (s : State) (k : Fin 8) : Sleeps [k] s (s.sleepOne k) := by
  unfold State.sleepOne
  dsimp only
  split
  case isTrue slept =>
    have cleared : PowerKept s (s.setIsl k { s.isl k with wakeWhy := none }) := (PowerKept.refl s).units rfl rfl rfl
    split
    · exact cleared.sleeps.trans (State.beginSleep_sleeps _ k 3 (.inr rfl))
    · refine ⟨cleared.jobs, cleared.wf, fun _ q own => ?_⟩
      rw [cleared.pstate]
      rcases own with own | before
      · exact List.mem_singleton.1 own ▸ slept
      · exact before
  case isFalse =>
    refine s.beginSleep_sleeps k 3 ?_
    split
    · exact .inr rfl
    · exact .inl rfl

/-! ### The part asleep (R564) -/

theorem State.enterSleep_sleeps (s : State) : Sleeps allCores s s.enterSleep := by
  have cores : Sleeps allCores s (s.forCores State.sleepOne) := Sleeps.foldl (fun k s => s.sleepOne_sleeps k) allCores s
  have padded := (PowerKept.refl (s.forCores State.sleepOne)).trcPad
  have unlinked : PowerKept (s.forCores State.sleepOne) (s.forCores State.sleepOne).trcPad.dropLink :=
    (padded.setF_low (f := F.HOST_STATUS_LINK_UP) 0 (by decide)).units rfl rfl rfl
  exact cores.kept (((((unlinked.setF_low 0 (by decide)).setF_low 0 (by decide)).setF_low 0 (by decide)).setF_low 0
    (by decide)).setF_low devSleep (by decide))

/-- The part shows SLEEP, and neither the host link nor the bridge is up. -/
theorem State.enterSleep_shown {s : State} (wf : s.RegsWf) : s.enterSleep.dev = devSleep ∧
    s.enterSleep.getF F.HOST_STATUS_LINK_UP = 0 ∧ s.enterSleep.brgUp = false := by
  have cores : (s.forCores State.sleepOne).RegsWf := (Sleeps.foldl (fun k s => s.sleepOne_sleeps k) allCores s).wf wf
  have padded : (s.forCores State.sleepOne).trcPad.RegsWf := (PowerKept.refl _).trcPad.wf cores
  unfold State.enterSleep State.brgUp State.flag
  generalize (s.forCores State.sleepOne).trcPad = u at padded
  have unlinked : u.dropLink.RegsWf := padded.setF F.HOST_STATUS_LINK_UP 0
  have bridge := unlinked.setF F.BRG_STATUS_UP 0
  have down := ((bridge.setF F.BRG_STATUS_TSYNC 0).setF (F.LNK_STAT_UP 0) 0).setF (F.LNK_STAT_UP 1) 0
  refine ⟨State.getF_setF_same _ _ _ down (by decide), ?host, ?bridge⟩
  case host =>
    iterate 5 rw [State.getF_setF_off _ _ (by decide)]
    exact u.getF_setF_same _ 0 padded (by decide)
  case bridge =>
    iterate 3 rw [State.getF_setF_off _ _ (by decide)]
    rw [State.getF_setF_ne _ _ bridge (by decide) (by decide) (by decide),
      State.getF_setF_same _ _ _ unlinked (by decide)]
    rfl

/-! ### The request (R563) -/

/-- A write of PWR_DEV leaves the device state as it is: STATE is read-only. -/
theorem State.dev_storeFields {s : State} (wf : s.RegsWf) (v : Nat) : (s.storeFields F.PWR_DEV_REQ.off v).dev = s.dev := by
  have fields : regAt F.PWR_DEV_REQ.off = some ⟨0x010000, 0x4, 1, 4, 1,
      [⟨0, 3, .ro, .imm, 1, []⟩, ⟨4, 2, .wo, .imm, 0, [(0, 0), (3, 3)]⟩, ⟨8, 1, .w1c, .imm, 0, []⟩]⟩ := by decide
  have stored := State.getReg_storeFields v wf fields (by decide) (by decide)
  have word := (s.getReg F.PWR_DEV_REQ.off).isLt
  change bitsOf ((s.storeFields F.PWR_DEV_REQ.off v).getReg F.PWR_DEV_REQ.off).toNat 0 3 =
    bitsOf (s.getReg F.PWR_DEV_REQ.off).toNat 0 3
  rw [stored]
  simp only [writeFields, FieldDesc.write, BitVec.toNat_ofNat, bitsOf]
  generalize (s.getReg F.PWR_DEV_REQ.off).toNat = x at word
  generalize (_ &&& _ : Nat) = y
  omega

/-- A SLEEP request that lands is stored, and then honoured only in READY. -/
theorem exec_sleepRequest {s : State} {m : Master} (v : Word) (wf : s.RegsWf) (lands : Lands s m F.PWR_DEV_REQ.off) : ∃ u,
    RegsOnly (F.PWR_DEV_REQ.off :: statusRegs) s u ∧ u.RegsWf ∧ u.dev = s.dev ∧ exec (.sleepRequest m v) s =
      .next (if u.off = false ∧ u.dev = devReady then u.enterSleep else u.setF F.PWR_DEV_REFUSED 1) := by
  have asked : bitsOf (putBits v 4 2 1).toNat 4 2 = 1 := bitsOf_putBits_same v 1 (by decide)
  refine ⟨s.storeFields F.PWR_DEV_REQ.off (putBits v 4 2 1).toNat, s.storeFields_only _ (by decide), s.storeFields_wf _ _ wf,
    State.dev_storeFields wf _, ?_⟩
  change execSleepRequest m v s = _
  rw [execSleepRequest, State.pwrDevWrite, State.regWrite_lands lands, State.devReq, asked, if_pos rfl]

end Sys2Proof.Machine

namespace Sys2Proof

open Machine

/-- Settles O28, by the device state that the stored request finds. -/
theorem sleepOnlyFromReady : Obligations.SleepOnlyFromReady := by
  unfold Obligations.SleepOnlyFromReady
  intro m v s wf lands
  obtain ⟨u, only, kept, dev, ran⟩ := exec_sleepRequest v wf lands
  refine ⟨fun powered ready => ?honoured, fun busy => ?refused⟩
  case honoured =>
    have on : u.off = false := by rw [only.1]; exact powered
    rw [if_pos ⟨on, dev.trans ready⟩] at ran
    have slept := u.enterSleep_sleeps
    obtain ⟨state, link, bridge⟩ := State.enterSleep_shown kept
    have all : ∀ k : Fin 8, k ∈ allCores := by decide
    exact ⟨_, ran, state, fun k => slept.asleep kept k (.inl (all k)), link, bridge, slept.jobs.trans (by rw [only.1])⟩
  case refused =>
    rw [if_neg fun ready => busy (dev.symm.trans ready.2)] at ran
    refine ⟨_, ran, State.getF_setF_same _ _ _ kept (by decide),
      (State.getF_setF_ne _ _ kept (by decide) (by decide) (by decide)).trans dev, ?_⟩
    exact (only.trans (u.setF_only ..)).mono (by decide)

end Sys2Proof
end
